-- ==== Sys2Proof/Word.lean ====
section
/-! DEFINITION. The word types of the Colnyx (R20, R90) and the numbering of lanes. -/

namespace Sys2Proof

/-- A lane's 32-bit register word (R90). -/
abbrev Word := BitVec 32

/-- A byte of memory. -/
abbrev Byte := BitVec 8

/-- One bit for each lane of a group (R13). -/
abbrev Mask := BitVec 32

end Sys2Proof
end

