-- ==== Sys2Proof/Syntax.lean ====
section
/-! DEFINITION. The one type of instructions: a constructor for every row of spec/opcode_table.json.
The first 196 constructors are instruction words (R37 to R48); their arguments are the fields of the word that the
opcode map leaves free, by the letters of the table (s is the stall count of R21). The last 112 are the table's events:
steps of the device without an encoding; their arguments name the record of the state that the step concerns. -/

namespace Sys2Proof

/-- Instructions of Xoique version 1, and the indivisible events of the device. -/
inductive Instr where
  /-- R77: Branches the guarded-on lanes by a signed word offset, dividing the fragment. -/
  | br (s : BitVec 3) (o : BitVec 23)
  /-- R80: Guarded-on lanes record the return address in v58-v59, descend one call depth and branch. -/
  | call (s : BitVec 3) (o : BitVec 23)
  /-- R83: Pushes a fuse-pool entry naming the reconvergence address for the whole fragment. -/
  | fuse (s : BitVec 3) (o : BitVec 23)
  /-- R78: Dispatches lanes through the jump table that follows the word, by a per-lane index. -/
  | brt (a : BitVec 6) (n : BitVec 11)
  /-- R79: Branches guarded-on lanes to per-lane 64-bit target addresses. -/
  | bra (s : BitVec 3) (a : BitVec 6)
  /-- R81: Calls per-lane target addresses, recording the return address and descending one depth. -/
  | calla (s : BitVec 3) (a : BitVec 6)
  /-- R82: Returns guarded-on lanes to the address in v58-v59, or exits them at depth 0. -/
  | ret (s : BitVec 3)
  /-- R84: Puts the fragment in join-wait at a matching fuse entry, or does nothing. -/
  | join (s : BitVec 3)
  /-- R85: Ends the group's current issue turn. -/
  | yield (s : BitVec 3)
  /-- R86: Ends the guarded-on lanes, publishing their carries in an ordered launch. -/
  | exit (s : BitVec 3)
  /-- R87: Has no effect beyond its slot and stall count. -/
  | nop (s : BitVec 3)
  /-- R88: Writes the fragment's mode register from the immediate. -/
  | mode (s : BitVec 3) (m : BitVec 16)
  /-- R89: Writes only the guard fields GN and GP of the mode register. -/
  | modg (s : BitVec 3) (n : BitVec 1) (p : BitVec 3)
  /-- R98: Adds elements, saturating under SAT. -/
  | add (s : BitVec 3) (d : BitVec 6) (a : BitVec 6) (b : BitVec 6)
  /-- R98: Subtracts elements, saturating under SAT. -/
  | sub (s : BitVec 3) (d : BitVec 6) (a : BitVec 6) (b : BitVec 6)
  /-- R99: Multiplies elements, keeping the low half. -/
  | mul (s : BitVec 3) (d : BitVec 6) (a : BitVec 6) (b : BitVec 6)
  /-- R99: Gives the high half of the exact element product. -/
  | mulh (s : BitVec 3) (d : BitVec 6) (a : BitVec 6) (b : BitVec 6)
  /-- R102: Divides elements on the iterative divider. -/
  | div (d : BitVec 6) (a : BitVec 6) (b : BitVec 6)
  /-- R102: Gives element remainders on the iterative divider. -/
  | rem (d : BitVec 6) (a : BitVec 6) (b : BitVec 6)
  /-- R98: Gives the smaller element. -/
  | min (s : BitVec 3) (d : BitVec 6) (a : BitVec 6) (b : BitVec 6)
  /-- R98: Gives the larger element. -/
  | max (s : BitVec 3) (d : BitVec 6) (a : BitVec 6) (b : BitVec 6)
  /-- R101: Gives the element absolute value. -/
  | abs (s : BitVec 3) (d : BitVec 6) (a : BitVec 6)
  /-- R101: Gives the element negation. -/
  | neg (s : BitVec 3) (d : BitVec 6) (a : BitVec 6)
  /-- R113: Adds a scaled 32-bit index to a 64-bit address pair. -/
  | lea (s : BitVec 3) (d : BitVec 6) (a : BitVec 6) (b : BitVec 6) (x : BitVec 2)
  /-- R104: Bitwise AND of two operands. -/
  | and (s : BitVec 3) (d : BitVec 6) (a : BitVec 6) (b : BitVec 6)
  /-- R104: Bitwise OR of two operands. -/
  | or (s : BitVec 3) (d : BitVec 6) (a : BitVec 6) (b : BitVec 6)
  /-- R104: Bitwise XOR of two operands. -/
  | xor (s : BitVec 3) (d : BitVec 6) (a : BitVec 6) (b : BitVec 6)
  /-- R104: Bitwise a AND NOT b. -/
  | andn (s : BitVec 3) (d : BitVec 6) (a : BitVec 6) (b : BitVec 6)
  /-- R104: Bitwise NOT of a. -/
  | not (s : BitVec 3) (d : BitVec 6) (a : BitVec 6)
  /-- R105: Shifts elements left by per-element counts. -/
  | shl (s : BitVec 3) (d : BitVec 6) (a : BitVec 6) (b : BitVec 6)
  /-- R105: Shifts elements right logically. -/
  | shr (s : BitVec 3) (d : BitVec 6) (a : BitVec 6) (b : BitVec 6)
  /-- R105: Shifts elements right arithmetically. -/
  | sra (s : BitVec 3) (d : BitVec 6) (a : BitVec 6) (b : BitVec 6)
  /-- R105: Rotates elements left. -/
  | rotl (s : BitVec 3) (d : BitVec 6) (a : BitVec 6) (b : BitVec 6)
  /-- R106: Counts leading zero bits per element. -/
  | clz (s : BitVec 3) (d : BitVec 6) (a : BitVec 6)
  /-- R106: Counts trailing zero bits per element. -/
  | ctz (s : BitVec 3) (d : BitVec 6) (a : BitVec 6)
  /-- R106: Counts one bits per element. -/
  | popc (s : BitVec 3) (d : BitVec 6) (a : BitVec 6)
  /-- R106: Reverses the bits of each element. -/
  | brev (s : BitVec 3) (d : BitVec 6) (a : BitVec 6)
  /-- R107: Extracts a bit field, sign- or zero-extending it. -/
  | bext (s : BitVec 3) (d : BitVec 6) (a : BitVec 6) (b : BitVec 6)
  /-- R107: Inserts low bits of a into a bit field of d. -/
  | bins (s : BitVec 3) (d : BitVec 6) (a : BitVec 6) (b : BitVec 6)
  /-- R110: Copies a register or pair. -/
  | mov (s : BitVec 3) (d : BitVec 6) (a : BitVec 6)
  /-- R114: Extends the low width bits of a to 32 bits. -/
  | ext (s : BitVec 3) (d : BitVec 6) (a : BitVec 6) (w : BitVec 6)
  /-- R115: Converts integer elements between integer types. -/
  | cvti (s : BitVec 3) (d : BitVec 6) (a : BitVec 6) (e : BitVec 6)
  /-- R100: Multiply-adds elements, saturating under SAT. -/
  | mad (s : BitVec 3) (d : BitVec 6) (a : BitVec 6) (b : BitVec 6) (c : BitVec 5)
  /-- R100: Adds c to the high half of the exact product. -/
  | madh (s : BitVec 3) (d : BitVec 6) (a : BitVec 6) (b : BitVec 6) (c : BitVec 5)
  /-- R108: Sets a predicate where elements are equal. -/
  | cmpEq (s : BitVec 3) (d : BitVec 6) (a : BitVec 6) (b : BitVec 6)
  /-- R108: Sets a predicate where elements differ. -/
  | cmpNe (s : BitVec 3) (d : BitVec 6) (a : BitVec 6) (b : BitVec 6)
  /-- R108: Sets a predicate where a is less than b. -/
  | cmpLt (s : BitVec 3) (d : BitVec 6) (a : BitVec 6) (b : BitVec 6)
  /-- R108: Sets a predicate where a is at most b. -/
  | cmpLe (s : BitVec 3) (d : BitVec 6) (a : BitVec 6) (b : BitVec 6)
  /-- R108: Sets a predicate where a is greater than b. -/
  | cmpGt (s : BitVec 3) (d : BitVec 6) (a : BitVec 6) (b : BitVec 6)
  /-- R108: Sets a predicate where a is at least b. -/
  | cmpGe (s : BitVec 3) (d : BitVec 6) (a : BitVec 6) (b : BitVec 6)
  /-- R109: Selects a or b per lane by a predicate. -/
  | sel (s : BitVec 3) (d : BitVec 6) (a : BitVec 6) (b : BitVec 6) (n : BitVec 1) (p : BitVec 3)
  /-- R116: Reads a named lane's register. -/
  | shflAt (s : BitVec 3) (d : BitVec 6) (a : BitVec 6) (b : BitVec 6)
  /-- R116: Reads the register of the lane x below. -/
  | shflRise (s : BitVec 3) (d : BitVec 6) (a : BitVec 6) (b : BitVec 6)
  /-- R116: Reads the register of the lane x above. -/
  | shflFall (s : BitVec 3) (d : BitVec 6) (a : BitVec 6) (b : BitVec 6)
  /-- R116: Reads the register of the lane whose number differs by a flip mask. -/
  | shflFlip (s : BitVec 3) (d : BitVec 6) (a : BitVec 6) (b : BitVec 6)
  /-- R117: Sets a predicate if any lane of T holds the source predicate. -/
  | voteAny (s : BitVec 3) (d : BitVec 6) (a : BitVec 6)
  /-- R117: Sets a predicate if every lane of T holds the source predicate. -/
  | voteAll (s : BitVec 3) (d : BitVec 6) (a : BitVec 6)
  /-- R117: Writes the predicate mask over T to a vector register. -/
  | voteBallot (s : BitVec 3) (d : BitVec 6) (a : BitVec 6)
  /-- R118: Inclusive prefix sum over the lanes of T. -/
  | scanAdd (s : BitVec 3) (d : BitVec 6) (a : BitVec 6)
  /-- R118: Inclusive prefix minimum over the lanes of T. -/
  | scanMin (s : BitVec 3) (d : BitVec 6) (a : BitVec 6)
  /-- R118: Inclusive prefix maximum over the lanes of T. -/
  | scanMax (s : BitVec 3) (d : BitVec 6) (a : BitVec 6)
  /-- R118: Exclusive prefix sum over the lanes of T. -/
  | scanAddx (s : BitVec 3) (d : BitVec 6) (a : BitVec 6)
  /-- R119: Predicate AND. -/
  | pand (s : BitVec 3) (d : BitVec 6) (a : BitVec 6) (b : BitVec 6)
  /-- R119: Predicate OR. -/
  | por (s : BitVec 3) (d : BitVec 6) (a : BitVec 6) (b : BitVec 6)
  /-- R119: Predicate XOR. -/
  | pxor (s : BitVec 3) (d : BitVec 6) (a : BitVec 6) (b : BitVec 6)
  /-- R119: Predicate NOT. -/
  | pnot (s : BitVec 3) (d : BitVec 6) (a : BitVec 6)
  /-- R111: Writes a sign-extended 17-bit immediate. -/
  | movi (s : BitVec 3) (d : BitVec 6) (i : BitVec 17)
  /-- R111: Replaces bits [31:15] of d with the immediate. -/
  | movu (s : BitVec 3) (d : BitVec 6) (i : BitVec 17)
  /-- R112: Adds an immediate to each element. -/
  | addi (s : BitVec 3) (d : BitVec 6) (a : BitVec 6) (i : BitVec 11)
  /-- R112: ANDs an immediate into each element. -/
  | andi (s : BitVec 3) (d : BitVec 6) (a : BitVec 6) (i : BitVec 11)
  /-- R112: ORs an immediate into each element. -/
  | ori (s : BitVec 3) (d : BitVec 6) (a : BitVec 6) (i : BitVec 11)
  /-- R112: XORs an immediate into each element. -/
  | xori (s : BitVec 3) (d : BitVec 6) (a : BitVec 6) (i : BitVec 11)
  /-- R112: Shifts each element left by an immediate count. -/
  | shli (s : BitVec 3) (d : BitVec 6) (a : BitVec 6) (c : BitVec 6)
  /-- R112: Shifts each element right logically by an immediate count. -/
  | shri (s : BitVec 3) (d : BitVec 6) (a : BitVec 6) (c : BitVec 6)
  /-- R136: Fused multiply-add with one rounding. -/
  | fma (s : BitVec 3) (d : BitVec 6) (a : BitVec 6) (b : BitVec 6) (c : BitVec 5)
  /-- R135: Floating-point add. -/
  | fadd (s : BitVec 3) (d : BitVec 6) (a : BitVec 6) (b : BitVec 6)
  /-- R135: Floating-point subtract. -/
  | fsub (s : BitVec 3) (d : BitVec 6) (a : BitVec 6) (b : BitVec 6)
  /-- R135: Floating-point multiply. -/
  | fmul (s : BitVec 3) (d : BitVec 6) (a : BitVec 6) (b : BitVec 6)
  /-- R137: Floating-point minimum. -/
  | fmin (s : BitVec 3) (d : BitVec 6) (a : BitVec 6) (b : BitVec 6)
  /-- R137: Floating-point maximum. -/
  | fmax (s : BitVec 3) (d : BitVec 6) (a : BitVec 6) (b : BitVec 6)
  /-- R138: Clears the sign bit of each element. -/
  | fabs (s : BitVec 3) (d : BitVec 6) (a : BitVec 6)
  /-- R138: Inverts the sign bit of each element. -/
  | fneg (s : BitVec 3) (d : BitVec 6) (a : BitVec 6)
  /-- R139: Correctly rounded floating-point divide. -/
  | fdiv (d : BitVec 6) (a : BitVec 6) (b : BitVec 6)
  /-- R139: Correctly rounded square root. -/
  | fsqrt (d : BitVec 6) (a : BitVec 6)
  /-- R140: Correctly rounded reciprocal. -/
  | frcp (s : BitVec 3) (d : BitVec 6) (a : BitVec 6)
  /-- R140: Correctly rounded reciprocal square root. -/
  | frsq (s : BitVec 3) (d : BitVec 6) (a : BitVec 6)
  /-- R140: Correctly rounded base-2 exponential. -/
  | fexp2 (s : BitVec 3) (d : BitVec 6) (a : BitVec 6)
  /-- R140: Correctly rounded base-2 logarithm. -/
  | flog2 (s : BitVec 3) (d : BitVec 6) (a : BitVec 6)
  /-- R141: Two-element 16-bit dot product accumulated into binary32. -/
  | fdot2 (s : BitVec 3) (d : BitVec 6) (a : BitVec 6) (b : BitVec 6)
  /-- R142: Writes a class mask for each element. -/
  | fclass (s : BitVec 3) (d : BitVec 6) (a : BitVec 6)
  /-- R143: Float compare equal into a predicate. -/
  | fcmpEq (s : BitVec 3) (d : BitVec 6) (a : BitVec 6) (b : BitVec 6)
  /-- R143: Float compare not equal into a predicate. -/
  | fcmpNe (s : BitVec 3) (d : BitVec 6) (a : BitVec 6) (b : BitVec 6)
  /-- R143: Float compare less than into a predicate. -/
  | fcmpLt (s : BitVec 3) (d : BitVec 6) (a : BitVec 6) (b : BitVec 6)
  /-- R143: Float compare less or equal into a predicate. -/
  | fcmpLe (s : BitVec 3) (d : BitVec 6) (a : BitVec 6) (b : BitVec 6)
  /-- R143: Float compare greater than into a predicate. -/
  | fcmpGt (s : BitVec 3) (d : BitVec 6) (a : BitVec 6) (b : BitVec 6)
  /-- R143: Float compare greater or equal into a predicate. -/
  | fcmpGe (s : BitVec 3) (d : BitVec 6) (a : BitVec 6) (b : BitVec 6)
  /-- R143: Sets a predicate where either operand is NaN. -/
  | fcmpUn (s : BitVec 3) (d : BitVec 6) (a : BitVec 6) (b : BitVec 6)
  /-- R143: Sets a predicate where neither operand is NaN. -/
  | fcmpOr (s : BitVec 3) (d : BitVec 6) (a : BitVec 6) (b : BitVec 6)
  /-- R144: Converts elements from a source type to the mode's type. -/
  | fcvt (s : BitVec 3) (d : BitVec 6) (a : BitVec 6) (e : BitVec 4)
  /-- R148: Packs lane values into SX blocks. -/
  | sxpk (s : BitVec 3) (d : BitVec 6) (a : BitVec 6) (l : BitVec 1) (f : BitVec 2)
  /-- R150: Unpacks SX blocks into binary32 lane values. -/
  | sxupk (s : BitVec 3) (d : BitVec 6) (a : BitVec 6) (l : BitVec 1) (f : BitVec 2)
  /-- R149: Packs lane values into Z blocks. -/
  | zpk (s : BitVec 3) (d : BitVec 6) (a : BitVec 6) (l : BitVec 1) (f : BitVec 2)
  /-- R150: Unpacks Z blocks into binary32 lane values. -/
  | zupk (s : BitVec 3) (d : BitVec 6) (a : BitVec 6) (l : BitVec 1) (f : BitVec 2)
  /-- R156: Reads a team event-class total. -/
  | evrd (d : BitVec 6) (c : BitVec 6)
  /-- R157: Clears the total and window count of one or all event classes. -/
  | evclr (c : BitVec 6)
  /-- R120: Reads a special register. -/
  | rds (s : BitVec 3) (d : BitVec 6) (n : BitVec 12)
  /-- R121: Writes a writable special register from the lowest lane of T. -/
  | wrs (s : BitVec 3) (d : BitVec 6) (n : BitVec 12)
  /-- R177: Publishes a value for a carry slot in each lane of T. -/
  | pub (a : BitVec 6) (j : BitVec 6)
  /-- R178: Sets the binding register of a carry slot. -/
  | cdef (d : BitVec 6) (j : BitVec 2) (k : BitVec 10)
  /-- R202: Requests an exclusive borrow without waiting. -/
  | borX (d : BitVec 6) (a : BitVec 6) (b : BitVec 6)
  /-- R202: Requests a shared borrow without waiting. -/
  | borS (d : BitVec 6) (a : BitVec 6) (b : BitVec 6)
  /-- R202: Requests a commons borrow without waiting. -/
  | borC (d : BitVec 6) (a : BitVec 6) (b : BitVec 6)
  /-- R202: Requests an exclusive borrow, waiting for the grant. -/
  | borXW (d : BitVec 6) (a : BitVec 6) (b : BitVec 6)
  /-- R202: Requests a shared borrow, waiting for the grant. -/
  | borSW (d : BitVec 6) (a : BitVec 6) (b : BitVec 6)
  /-- R202: Requests a commons borrow, waiting for the grant. -/
  | borCW (d : BitVec 6) (a : BitVec 6) (b : BitVec 6)
  /-- R203: Reduces an X borrow to S after write-back. -/
  | bdown (b : BitVec 6)
  /-- R204: Raises an S borrow to X if the team is the only holder. -/
  | bup (d : BitVec 6) (b : BitVec 6)
  /-- R205: Cuts a borrow into two registers at an offset. -/
  | bsplit (d : BitVec 6) (a : BitVec 6) (b : BitVec 6)
  /-- R206: Joins two adjacent pieces of one borrow. -/
  | bjoin (d : BitVec 6) (b : BitVec 6)
  /-- R207: Passes a region register to another group or the whole team. -/
  | bhand (a : BitVec 6) (b : BitVec 6)
  /-- R208: Returns a borrow or one piece of it. -/
  | bret (b : BitVec 6)
  /-- R209: Writes the image of a region register. -/
  | bquery (d : BitVec 6) (b : BitVec 6)
  /-- R224: Loads from a region through a region register. -/
  | ld (d : BitVec 6) (g : BitVec 5) (a : BitVec 6) (k : BitVec 2) (z : BitVec 3) (h : BitVec 1)
  /-- R225: Stores to a region through a region register. -/
  | st (d : BitVec 6) (g : BitVec 5) (a : BitVec 6) (k : BitVec 2) (z : BitVec 3) (h : BitVec 1)
  /-- R226: Prefetches a line to the cluster cache or the home L2. -/
  | pref (g : BitVec 5) (a : BitVec 6) (k : BitVec 2) (h : BitVec 1)
  /-- R227: Loads from the local window. -/
  | ldl (d : BitVec 6) (a : BitVec 6) (z : BitVec 3)
  /-- R227: Stores to the local window. -/
  | stl (d : BitVec 6) (a : BitVec 6) (z : BitVec 3)
  /-- R227: Loads from the cluster window. -/
  | ldc (d : BitVec 6) (a : BitVec 6) (z : BitVec 3)
  /-- R227: Stores to the cluster window. -/
  | stc (d : BitVec 6) (a : BitVec 6) (z : BitVec 3)
  /-- R228: Converts a generic address to a local-window offset. -/
  | cvtaGl (s : BitVec 3) (d : BitVec 6) (a : BitVec 6)
  /-- R228: Converts a generic address to a cluster-window offset. -/
  | cvtaGc (s : BitVec 3) (d : BitVec 6) (a : BitVec 6)
  /-- R228: Converts a local-window offset to a generic address. -/
  | cvtaLg (s : BitVec 3) (d : BitVec 6) (a : BitVec 6)
  /-- R228: Converts a cluster-window offset to a generic address. -/
  | cvtaCg (s : BitVec 3) (d : BitVec 6) (a : BitVec 6)
  /-- R229: Tests whether an address lies in the global aperture. -/
  | inapGlobal (s : BitVec 3) (d : BitVec 6) (a : BitVec 6)
  /-- R229: Tests whether an address lies in the peer window. -/
  | inapPeer (s : BitVec 3) (d : BitVec 6) (a : BitVec 6)
  /-- R229: Tests whether an address lies in the cluster aperture. -/
  | inapCluster (s : BitVec 3) (d : BitVec 6) (a : BitVec 6)
  /-- R229: Tests whether an address lies in the local aperture. -/
  | inapLocal (s : BitVec 3) (d : BitVec 6) (a : BitVec 6)
  /-- R230: Sets an allotted bank to scratch, cache-way or FIFO mode. -/
  | bankset (a : BitVec 6) (b : BitVec 6)
  /-- R231: Appends one value per lane of T to a FIFO bank. -/
  | fput (a : BitVec 6) (b : BitVec 6)
  /-- R232: Removes one entry per lane of T from a FIFO bank. -/
  | fget (d : BitVec 6) (a : BitVec 6)
  /-- R234: Holds the group until the named in-flight counters are zero. -/
  | waitc (m : BitVec 6)
  /-- R258: Loads from each lane's device copy of a peer-symmetric region. -/
  | rld (d : BitVec 6) (p : BitVec 6) (o : BitVec 6) (k : BitVec 2) (g : BitVec 3)
  /-- R258: Stores to each lane's device copy of a peer-symmetric region. -/
  | rst (d : BitVec 6) (p : BitVec 6) (o : BitVec 6) (k : BitVec 2) (g : BitVec 3)
  /-- R258: Remote atomic add at each lane's device. -/
  | ratmAdd (d : BitVec 6) (p : BitVec 6) (o : BitVec 6) (k : BitVec 2) (g : BitVec 3)
  /-- R258: Remote atomic exchange at each lane's device. -/
  | ratmXchg (d : BitVec 6) (p : BitVec 6) (o : BitVec 6) (k : BitVec 2) (g : BitVec 3)
  /-- R258: Remote compare-and-swap at each lane's device. -/
  | ratmCas (d : BitVec 6) (p : BitVec 6) (o : BitVec 6) (k : BitVec 2) (g : BitVec 3)
  /-- R286: Commons atomic add. -/
  | aadd (q : BitVec 2) (d : BitVec 6) (g : BitVec 5) (a : BitVec 6) (k : BitVec 2)
  /-- R286: Commons atomic subtract. -/
  | asub (q : BitVec 2) (d : BitVec 6) (g : BitVec 5) (a : BitVec 6) (k : BitVec 2)
  /-- R286: Commons atomic minimum. -/
  | amin (q : BitVec 2) (d : BitVec 6) (g : BitVec 5) (a : BitVec 6) (k : BitVec 2)
  /-- R286: Commons atomic maximum. -/
  | amax (q : BitVec 2) (d : BitVec 6) (g : BitVec 5) (a : BitVec 6) (k : BitVec 2)
  /-- R286: Commons atomic AND. -/
  | aand (q : BitVec 2) (d : BitVec 6) (g : BitVec 5) (a : BitVec 6) (k : BitVec 2)
  /-- R286: Commons atomic OR. -/
  | aor (q : BitVec 2) (d : BitVec 6) (g : BitVec 5) (a : BitVec 6) (k : BitVec 2)
  /-- R286: Commons atomic XOR. -/
  | axor (q : BitVec 2) (d : BitVec 6) (g : BitVec 5) (a : BitVec 6) (k : BitVec 2)
  /-- R286: Commons atomic exchange. -/
  | axchg (q : BitVec 2) (d : BitVec 6) (g : BitVec 5) (a : BitVec 6) (k : BitVec 2)
  /-- R287: Commons compare-and-swap. -/
  | acas (q : BitVec 2) (d : BitVec 6) (g : BitVec 5) (a : BitVec 6) (k : BitVec 2)
  /-- R286: Commons bounded increment. -/
  | ainc (q : BitVec 2) (d : BitVec 6) (g : BitVec 5) (a : BitVec 6) (k : BitVec 2)
  /-- R286: Commons bounded decrement. -/
  | adec (q : BitVec 2) (d : BitVec 6) (g : BitVec 5) (a : BitVec 6) (k : BitVec 2)
  /-- R286: Commons binary32 atomic add. -/
  | afadd (q : BitVec 2) (d : BitVec 6) (g : BitVec 5) (a : BitVec 6) (k : BitVec 2)
  /-- R288: Commons load, optionally acquire. -/
  | ald (q : BitVec 1) (d : BitVec 6) (g : BitVec 5) (a : BitVec 6) (k : BitVec 2)
  /-- R288: Commons store, optionally release. -/
  | ast (q : BitVec 1) (d : BitVec 6) (g : BitVec 5) (a : BitVec 6) (k : BitVec 2)
  /-- R290: Sets or clears the contention predictor pin of a C register. -/
  | ahint (h : BitVec 6) (g : BitVec 5)
  /-- R299: Starts a per-lane asynchronous copy. -/
  | cpl (d : BitVec 6) (a : BitVec 6) (b : BitVec 6)
  /-- R300: Starts a bulk asynchronous copy. -/
  | cpb (d : BitVec 6) (a : BitVec 6) (b : BitVec 6)
  /-- R302: Starts a reducing copy that adds into the destination at its homes. -/
  | cprAdd (d : BitVec 6) (a : BitVec 6) (b : BitVec 6)
  /-- R302: Starts a reducing copy that takes the minimum at the destination. -/
  | cprMin (d : BitVec 6) (a : BitVec 6) (b : BitVec 6)
  /-- R302: Starts a reducing copy that takes the maximum at the destination. -/
  | cprMax (d : BitVec 6) (a : BitVec 6) (b : BitVec 6)
  /-- R302: Starts a reducing copy that float-adds into the destination. -/
  | cprFadd (d : BitVec 6) (a : BitVec 6) (b : BitVec 6)
  /-- R311: Initialises a barrier register with members and bytes. -/
  | winit (d : BitVec 6) (a : BitVec 6) (b : BitVec 6)
  /-- R311: Adds expected bytes to a barrier. -/
  | wexp (d : BitVec 6) (a : BitVec 6)
  /-- R311: Arrives at a barrier after the group's accesses complete. -/
  | warr (d : BitVec 6)
  /-- R311: Waits until the barrier's phase passes the wait target. -/
  | wwait (d : BitVec 6)
  /-- R311: Tests whether the awaited barrier phase has completed. -/
  | wtest (d : BitVec 6) (a : BitVec 6)
  /-- R324: Waits until covered earlier accesses are bound or globally performed. -/
  | fence (r : BitVec 2) (k : BitVec 3)
  /-- R326: Orders instruction fetch after the group's data accesses. -/
  | fencei
  /-- R325: Fence restricted to an address range. -/
  | fencer (a : BitVec 6) (b : BitVec 6) (r : BitVec 2) (k : BitVec 3)
  /-- R344: Claims a free operand slot. -/
  | mclaim (d : BitVec 6)
  /-- R344: Frees an operand slot. -/
  | mrel (d : BitVec 6)
  /-- R348: Loads a tile image into an operand slot through the transfer unit. -/
  | mld (d : BitVec 6) (a : BitVec 6) (b : BitVec 6)
  /-- R348: Stores an accumulator snapshot through the transfer unit. -/
  | mst (d : BitVec 6) (a : BitVec 6) (b : BitVec 6)
  /-- R350: Posts an engine operation that zeroes an accumulator. -/
  | mzero (d : BitVec 6)
  /-- R350: Posts an engine operation that adds one accumulator into another. -/
  | macc (d : BitVec 6) (a : BitVec 6)
  /-- R345: Writes a shape record to a claimed slot. -/
  | mshape (d : BitVec 6) (a : BitVec 6)
  /-- R349: Posts one matrix pass to the pair engine. -/
  | mma (d : BitVec 6) (a : BitVec 6) (b : BitVec 6) (c : BitVec 5)
  /-- R364: Creates one running launch per lane of T. -/
  | spawn (d : BitVec 6) (a : BitVec 6) (b : BitVec 6)
  /-- R364: Creates one held launch per lane of T. -/
  | spawnh (d : BitVec 6) (a : BitVec 6) (b : BitVec 6)
  /-- R366: Appends one item per lane to the held launch of the bin LCB. -/
  | bin (d : BitVec 6) (a : BitVec 6)
  /-- R365: Adds to the item count of a held launch. -/
  | patch (a : BitVec 6) (b : BitVec 6)
  /-- R365: Starts a held launch. -/
  | release (a : BitVec 6)
  /-- R386: Raises SOFTWARE with an immediate detail. -/
  | trap (s : BitVec 3) (n : BitVec 6)
  /-- R387: Ends the handler and returns to the trapped fragment. -/
  | tret
  /-- R391: Invalidates translations by scope across the device. -/
  | tlbi (a : BitVec 6) (b : BitVec 6)
  /-- R390: Requests pre-emption of every team on one cluster. -/
  | preempt (a : BitVec 6)
  /-- R389: Stops issue from every group of the issuing context. -/
  | halt
  /-- R386: Raises BREAKPOINT, or halts the context under BRKH. -/
  | brk (s : BitVec 3) (n : BitVec 6)
  /-- R388: Reads a system register view. -/
  | rdsp (d : BitVec 6) (n : BitVec 12)
  /-- R388: Writes a system register view. -/
  | wrsp (d : BitVec 6) (n : BitVec 12)
  /-- R382 (event): A due or held deferred trap is taken at the group's next issue. -/
  | deferredTrap (g : Nat)
  /-- R85 (event): A yielding group becomes eligible again after 16 slots or a round of other groups. -/
  | yieldEnd (g : Nat)
  /-- R174 (event): A published value is delivered to the consumer's carry buffer or spill area, waking parked fragments. -/
  | carryMessage (l i j : Nat)
  /-- R174 (event): A fetch of a carry value from the spill area completes. -/
  | carryFetch (l i j g : Nat)
  /-- R152 (event): A class window count resets when CYCLE reaches a multiple of WIN x 1,024. -/
  | eventWindowReset (t c : Nat)
  /-- R222 (event): A load or value-returning reply arrives and writes its destination lanes. -/
  | loadReply (x : Nat)
  /-- R249 (event): A store acknowledgement arrives after the store is performed at its home. -/
  | storeAck (x : Nat)
  /-- R262 (event): An access request arrives at its home and is served there. -/
  | homeRequest (x : Nat)
  /-- R219 (event): A write-combining line drains to its home after 1,024 cycles. -/
  | wcDrain (cl n : Nat)
  /-- R186 (event): A borrow request call slip arrives at a home or proxy and is granted, queued or refused. -/
  | req (n : Nat)
  /-- R188 (event): A grant call slip arrives; the last one writes the region register. -/
  | grant (n : Nat)
  /-- R189 (event): A refusal call slip arrives with BUSY, FULL or retry. -/
  | refuse (n : Nat)
  /-- R188 (event): A home recalls a tentative grant for an older request. -/
  | recall (n : Nat)
  /-- R188 (event): A requester gives up a tentative grant at a home. -/
  | giveup (n : Nat)
  /-- R208 (event): A return or trimming call slip arrives at a home. -/
  | retSlip (n : Nat)
  /-- R203 (event): A call slip reducing X to S arrives at a home. -/
  | down (n : Nat)
  /-- R204 (event): A call slip raising S to X arrives at a home. -/
  | up (n : Nat)
  /-- R197 (event): A call slip gives an existing entry a new holder location. -/
  | reloc (n : Nat)
  /-- R192 (event): A home tells a proxy to serve no new holder from an entry. -/
  | hold (n : Nat)
  /-- R191 (event): A completion call slip for RET, DOWN, UP or RELOC arrives. -/
  | ack (n : Nat)
  /-- R190 (event): A slip refused with retry is resent after its delay. -/
  | slipResend (n : Nat)
  /-- R266 (event): A commons invalidation is applied by a C-die's commons agent. -/
  | invalidate (n : Nat)
  /-- R272 (event): A home forwards a request to the owning cluster. -/
  | forward (n : Nat)
  /-- R273 (event): A cluster that evicted a line answers a forward with GONE. -/
  | gone (n : Nat)
  /-- R273 (event): A whole-line write-back arrives at the home. -/
  | writeBack (n : Nat)
  /-- R271 (event): A home recalls a page from every holding device. -/
  | pageRecall (n : Nat)
  /-- R272 (event): A commons request refused with retry is resent after its delay. -/
  | commonsResend (n : Nat)
  /-- R278 (event): A sweep marker reaches an M-die or commons agent and is forwarded behind earlier invalidations. -/
  | sweepMarker (n : Nat)
  /-- R278 (event): A commons agent's sweep acknowledgement arrives at the releaser. -/
  | sweepAck (n : Nat)
  /-- R240 (event): A packet arrives at a router and takes a productive or deflected channel. -/
  | packetArrive (die : Nat)
  /-- R240 (event): A packet whose age reaches 2^19 is marked OLD. -/
  | packetOld (p : Nat)
  /-- R241 (event): A source waiting 64 cycles to inject stops lower-ranked injection nearby. -/
  | injectStarve (die : Nat)
  /-- R245 (event): A packet arrives at a fabric switch or edge die and is delivered, deflected or re-injected. -/
  | fabricPacket (p : Nat)
  /-- R244 (event): A receiving fabric edge returns class O credit. -/
  | creditReturn (dev plane : Nat)
  /-- R246 (event): A request to another device without reply within 2^21 cycles is abandoned. -/
  | reachLimit (x : Nat)
  /-- R247 (event): A flit arrives on a link, is acknowledged or triggers a replay request. -/
  | flitReceive (lk q : Nat) (crcOk : Bool)
  /-- R247 (event): A sender resends flits from its replay buffer. -/
  | replayRequest (lk q : Nat)
  /-- R248 (event): A link needing 16 replays in a row is retrained. -/
  | linkRetrain (lk : Nat)
  /-- R248 (event): The ends of a failing link settle the replay buffer over the sideband. -/
  | linkSettle (lk : Nat) (sideband : Bool)
  /-- R416 (event): A link retired in the field halts contexts, loads new routes and resumes. -/
  | linkRetire (lk : Nat)
  /-- R304 (event): A reducing-copy chunk arrives at the home and is applied or acknowledged as a duplicate. -/
  | chunk (n : Nat)
  /-- R303 (event): A chunk acknowledgement arrives at the transfer unit. -/
  | chunkAck (n : Nat)
  /-- R304 (event): A chunk refused for a full deduplication table is resent. -/
  | chunkRetry (n : Nat)
  /-- R305 (event): A chunk of unknown delivery or abandoned is resent under its own tag. -/
  | chunkResend (n : Nat)
  /-- R304 (event): A CLOSE message frees a stream's deduplication record. -/
  | close (home st : Nat)
  /-- R306 (event): A copy or matrix transfer completes, releasing its counter, footprint and entry. -/
  | copyComplete (c : Nat)
  /-- R334 (event): The reservation-table arbiter grants an engine operation. -/
  | passGrant (cl e : Nat)
  /-- R351 (event): A matrix pass or engine operation completes and frees its entry. -/
  | passComplete (cl e : Nat)
  /-- R414 (event): A pair engine ramp ends and the waiting pass starts. -/
  | rampEnd (cl e : Nat)
  /-- R362 (event): The front end starts a LAUNCH entry, creating a launch record. -/
  | launchEntry (q : Nat)
  /-- R362 (event): The front end starts a WAIT entry on a counter. -/
  | waitEntry (q : Nat)
  /-- R362 (event): A blocked WAIT entry rereads its counter. -/
  | waitRecheck (q : Nat)
  /-- R56 (event): A SIGNAL entry writes its value once earlier entries complete. -/
  | signalEntry (q : Nat)
  /-- R56 (event): A NOP entry is consumed. -/
  | nopEntry (q : Nat)
  /-- R361 (event): A write of QCTL enables or disables a queue and sets its fields. -/
  | qctlWrite (q val : Nat)
  /-- R361 (event): A write of QTAIL adds or withdraws entries, or is refused with OVF. -/
  | qtailWrite (q val : Nat)
  /-- R361 (event): Writing 1 to QSTAT.HALT resumes a halted queue. -/
  | haltClear (q : Nat)
  /-- R361 (event): Writing 1 to QSTAT.OVF clears it. -/
  | ovfClear (q : Nat)
  /-- R376 (event): A control-complex write of a register with no behaviour of its own. -/
  | registerWrite (page num val : Nat)
  /-- R377 (event): Stages the low half of a peer-handle entry. -/
  | phloWrite (val : Nat)
  /-- R377 (event): Commits a peer-handle entry. -/
  | phhiWrite (val : Nat)
  /-- R377 (event): Stages the low half of an export record. -/
  | exloWrite (val : Nat)
  /-- R431 (event): Commits an export record. -/
  | exhiWrite (val : Nat)
  /-- R377 (event): A TCLRLEN write starts clearing taint entries in a range. -/
  | taintClear (val : Nat)
  /-- R377 (event): Every home finishes a taint clear. -/
  | taintClearDone
  /-- R393 (event): A fault domain or context is killed and its state torn down. -/
  | kill (val : Nat)
  /-- R393 (event): A kill finishes, writes its kill record and interrupts the control complex. -/
  | killComplete
  /-- R389 (event): A RUN write resumes a halted context. -/
  | run (val : Nat)
  /-- R390 (event): A PREQ write requests pre-emption of a cluster. -/
  | preq (val : Nat)
  /-- R378 (event): SYMCMD 1 requests a symmetric borrow into an entry. -/
  | symcmdTake
  /-- R378 (event): SYMCMD 2 returns the borrow of a symmetric entry. -/
  | symcmdReturn
  /-- R378 (event): A symmetric take ends with its status in SYMSTAT. -/
  | symTakeEnd
  /-- R409 (event): BIASCMD with TGT 0 back-invalidates pages and sets device bias. -/
  | biasToDevice (he val : Nat)
  /-- R409 (event): BIASCMD with TGT 1 sets host bias on uncovered pages or stops with BUSY. -/
  | biasToHost (he val : Nat)
  /-- R409 (event): A CXL host access to exported memory is served by bias. -/
  | cxlHostAccess (port : Nat) (wr : Bool) (pa val : Nat)
  /-- R406 (event): A control-complex access to DRAM is served at its home. -/
  | ccAccess (wr : Bool) (pa n val : Nat)
  /-- R412 (event): Answers the SPDM GET_VERSION request. -/
  | getVersion (port : Nat)
  /-- R412 (event): Answers the SPDM GET_CAPABILITIES request. -/
  | getCapabilities (port : Nat)
  /-- R412 (event): Negotiates Falcon-1024 and SHAKE256. -/
  | negotiateAlgorithms (port asym hash : Nat)
  /-- R412 (event): Answers the SPDM GET_DIGESTS request. -/
  | getDigests (port : Nat)
  /-- R412 (event): Answers the SPDM GET_CERTIFICATE request. -/
  | getCertificate (port : Nat)
  /-- R412 (event): Answers the SPDM CHALLENGE request. -/
  | challenge (port nonce : Nat)
  /-- R412 (event): Returns firmware and topology measurements. -/
  | getMeasurements (port idx : Nat)
  /-- R412 (event): Refuses SPDM key exchange and session requests. -/
  | keyExchange (port : Nat)
  /-- R412 (event): Roots of trust verify the firmware chains before the device leaves reset. -/
  | reset (ok0 ok1 : Bool)
  /-- R413 (event): A timed power-up stage powers dies, trains links or starts a column of C-dies. -/
  | powerUpWave
  /-- R414 (event): Each 1,024 cycles C-dies meter current and throttle issue above 38 kW. -/
  | powerMeter (draw : Nat)
  /-- R368 (event): A cluster starts a startable team task. -/
  | teamStart (k : Nat)
  /-- R357 (event): The scheduler takes a team's initial region loads. -/
  | regionLoad (k : Nat)
  /-- R357 (event): A team retries its refused initial loads after 4,096 cycles. -/
  | loadRetry (k : Nat)
  /-- R358 (event): A team's borrows are returned and its resources freed. -/
  | teamEnd (t : Nat)
  /-- R360 (event): A launch completes, increments DONE and frees its record. -/
  | launchComplete (l : Nat)
  /-- R369 (event): Every 64 cycles clusters report queue depths and a die pushes tasks. -/
  | depthExchange (die : Nat)
  /-- R369 (event): Every 1,024 cycles die schedulers exchange totals and push ranges. -/
  | dieDepthExchange (die : Nat)
  /-- R369 (event): An idle cluster is given a task from the deepest queue or neighbouring die. -/
  | steal (cl : Nat)
  /-- R368 (event): A task waiting 2^20 cycles counts as priority 7. -/
  | taskAgePromote (k : Nat)
  /-- R371 (event): The launch home boosts the group that holds item u. -/
  | boost (l : Nat)
  /-- R372 (event): A launch's slot count exceeds BUDGET and each group owes a BUDGET trap. -/
  | budgetExceeded (l : Nat)
  /-- R372 (event): Groups still live 2^20 slots after the budget trap are ended. -/
  | budgetEnd (l : Nat)
  /-- R392 (event): A group's watchdog count reaches its limit and traps or ends the group. -/
  | watchdog (g : Nat)
  /-- R196 (event): A team waiting 4,096 cycles on a borrow may be pre-empted. -/
  | borrowWaitPreempt (t : Nat)
  /-- R396 (event): A team's pre-emption starts, stopping issue and draining. -/
  | preemption (t : Nat)
  /-- R396 (event): After the drain, the team's state is written to its save frame and resources freed. -/
  | preemptSave (t : Nat)
  /-- R399 (event): A pre-empted team is placed, relocated and restored. -/
  | resume (t : Nat)
  /-- R103 (event): The core's iterative divider finishes a div, rem, fdiv or fsqrt, writes its destination and takes the next waiting operation. -/
  | dividerComplete (cl core : Nat)
  /-- R338 (event): A pass ends its compute phase, has read its operand slots, and the slots' reader counts fall, releasing waiting mrel, mld and mshape. -/
  | computePhaseEnd (cl e : Nat)
  /-- R402 (event): A page-table walk by a home walker ends, so the bor proceeds to its request or traps with BORROW_FAULT, or a launch start is translated. -/
  | tableWalkEnd (w : Nat)
  /-- R409 (event): A CXL host answers a BISnpInv, with its dirty data where it has any, so that the page can flip to device bias or the waiting bor can be granted. -/
  | birspi (he : Nat) (data : List (Nat × BitVec 8))
  /-- R407 (event): A CXL port trains with a host, or as PCIe without CXL, or loses its host, which changes whether HDMBASE, HDMLEN and BIASBASE may take effect. -/
  | cxlHostLink (port st : Nat)
  /-- R243 (event): A scale-up domain starts and assigns the device its number and domain size in the topology block. -/
  | domainStart (num devs : Nat)
  /-- R417 (event): An uncorrectable error in memory poisons the data at its home, or, in a router or circulation table, interrupts the control complex. -/
  | uncorrectableError (where_ pa : Nat)
  /-- R417 (event): A corrected SECDED or device-failure error raises the error count that the control complex reads. -/
  | correctedError
  deriving DecidableEq, Repr

end Sys2Proof
end

