-- ==== Sys2Proof/WellFormed.lean ====
section
/-! DEFINITION. Which field values the manual admits in an instruction (R22 to R24, and step 2 of R35): the operand codes of
each field, in the order the fields are examined. -/

namespace Sys2Proof

/-- What a field of a word holds: a register file, an immediate range, or a must-be-zero field (R23, R38 to R48). -/
inductive FieldKind where
  /-- A vector register or back view as source; a vector register as destination; an even pair; a quad (R23, R24). -/
  | vsrc | vdst | pair | quad
  /-- A predicate; a region register; a region operand of a copy; a region register other than the one named (R23, R205). -/
  | pred | region | regionOp | regionNe (n : Nat)
  /-- A barrier register; an operand slot; an accumulator (R23). -/
  | bar | slot | acc
  /-- An immediate of a range; any value; zero (R22). -/
  | imm (lo hi : Nat) | free | zero
  /-- The number of a special register, of a writable one, of a system register (R41, R374). -/
  | special | specialRw | system
  /-- Direction and class mask of a fence (R47). -/
  | fence
  deriving DecidableEq, Repr

/-- The special registers of 64 bits (R122). -/
def specialWide (n : Nat) : Bool := [1, 2, 3, 6, 7, 0x0B].contains n

/-- The numbers that name a special register (R122). -/
def isSpecial (n : Nat) : Bool := decide (n ≤ 0x0C) || (decide (0x10 ≤ n) && decide (n ≤ 0x13)) || (decide (0x20 ≤ n) && decide (n ≤ 0x26))

/-- The special registers that `wrs` writes (R122, R153, R154). -/
def isSpecialRw (n : Nat) : Bool := (decide (0x10 ≤ n) && decide (n ≤ 0x13)) || (decide (0x20 ≤ n) && decide (n ≤ 0x26))

/-- The system registers of 64 bits (R374, R377). -/
def systemWide (n : Nat) : Bool :=
  [0x11, 0x12, 0x40, 0x100, 0x104, 0x105, 0x106, 0x107, 0x108, 0x10C, 0x10D, 0x10F, 0x111, 0x113, 0x114].contains n

/-- The numbers that name a system register (R374, R377). -/
def isSystem (n : Nat) : Bool :=
  decide (n ≤ 3) || (decide (0x10 ≤ n) && decide (n ≤ 0x14)) || n == 0x40 || (decide (0x100 ≤ n) && decide (n ≤ 0x114))

/-- The data register of a load of size code z, and of a store (R45). -/
def dataDst (z : Nat) : FieldKind := if z = 3 then .pair else if z = 4 then .quad else .vdst
def dataSrc (z : Nat) : FieldKind := if z = 3 then .pair else if z = 4 then .quad else .vsrc

/-- Is x even and no higher than 58; is x a multiple of 4 no higher than 56 (R24)? -/
def isPair (x : Nat) : Bool := x % 2 == 0 && decide (x ≤ 58)
def isQuad (x : Nat) : Bool := x % 4 == 0 && decide (x ≤ 56)

/-- The detail of ILLEGAL_INSTRUCTION that a value draws in a field of this kind; none where it is admitted (R23, R24). -/
def FieldKind.bad (k : FieldKind) (x : Nat) : Option Nat :=
  let only (b : Bool) : Option Nat := if b then none else some 3
  match k with
  | .vsrc => none
  | .vdst => only (decide (x < 60))
  | .pair => only (isPair x)
  | .quad => only (isQuad x)
  | .pred => if x < 8 then none else some 4
  | .region => only (decide (x < 32))
  | .regionOp => only (decide (x < 34))
  | .regionNe n => only (decide (x < 32) && x != n)
  | .bar => only (decide (x < 16))
  | .slot => only (decide (x < 8))
  | .acc => only (decide (x < 4))
  | .imm lo hi => only (decide (lo ≤ x) && decide (x ≤ hi))
  | .free => none
  | .zero => if x = 0 then none else some 4
  | .special => only (isSpecial x)
  | .specialRw => only (isSpecialRw x)
  | .system => only (isSystem x)
  | .fence => only (decide (x % 8 ≠ 0) && decide (x / 8 ≠ 0))

/-- A field that step 2 of R35 examines: its lowest bit and width in the word, the bits of it that must be zero, what it
holds, and the value the instruction gives it. -/
structure Operand where
  lo : Nat
  width : Nat
  zeros : Nat
  kind : FieldKind
  val : Nat
  deriving DecidableEq, Repr

/-- The rows of the opcode table without an encoding. -/
def Instr.isEvent : Instr → Bool
  | .deferredTrap _ | .yieldEnd _ | .carryMessage _ _ _ | .carryFetch _ _ _ _ | .eventWindowReset _ _
  | .loadReply _ | .storeAck _ | .homeRequest _ | .wcDrain _ _ | .req _ | .grant _ | .refuse _ | .recall _
  | .giveup _ | .retSlip _ | .down _ | .up _ | .reloc _ | .hold _ | .ack _ | .slipResend _ | .invalidate _
  | .forward _ | .gone _ | .writeBack _ | .pageRecall _ | .commonsResend _ | .sweepMarker _ | .sweepAck _
  | .packetArrive _ | .packetOld _ | .injectStarve _ | .fabricPacket _ | .creditReturn _ _ | .reachLimit _
  | .flitReceive _ _ _ | .replayRequest _ _ | .linkRetrain _ | .linkSettle _ _ | .linkRetire _ | .chunk _
  | .chunkAck _ | .chunkRetry _ | .chunkResend _ | .close _ _ | .copyComplete _ | .passGrant _ _
  | .passComplete _ _ | .rampEnd _ _ | .launchEntry _ | .waitEntry _ | .waitRecheck _ | .signalEntry _
  | .nopEntry _ | .qctlWrite _ _ | .qtailWrite _ _ | .haltClear _ | .ovfClear _ | .registerWrite _ _ _
  | .phloWrite _ | .phhiWrite _ | .exloWrite _ | .exhiWrite _ | .taintClear _ | .taintClearDone | .kill _
  | .killComplete | .run _ | .preq _ | .symcmdTake | .symcmdReturn | .symTakeEnd | .biasToDevice _ _
  | .biasToHost _ _ | .cxlHostAccess _ _ _ _ | .ccAccess _ _ _ _ | .getVersion _ | .getCapabilities _
  | .negotiateAlgorithms _ _ _ | .getDigests _ | .getCertificate _ | .challenge _ _ | .getMeasurements _ _
  | .keyExchange _ | .reset _ _ | .powerUpWave | .powerMeter _ | .teamStart _ | .regionLoad _ | .loadRetry _
  | .teamEnd _ | .launchComplete _ | .depthExchange _ | .dieDepthExchange _ | .steal _ | .taskAgePromote _
  | .boost _ | .budgetExceeded _ | .budgetEnd _ | .watchdog _ | .borrowWaitPreempt _ | .preemption _
  | .preemptSave _ | .resume _ | .dividerComplete _ _ | .computePhaseEnd _ _ | .tableWalkEnd _ | .birspi _ _
  | .cxlHostLink _ _ | .domainStart _ _ | .uncorrectableError _ _ | .correctedError => true
  | .brt _ _ | .div _ _ _ | .rem _ _ _ | .fdiv _ _ _ | .fsqrt _ _ | .evrd _ _ | .evclr _ | .pub _ _ | .cdef _ _ _
  | .borX _ _ _ | .borS _ _ _ | .borC _ _ _ | .borXW _ _ _ | .borSW _ _ _ | .borCW _ _ _ | .bdown _ | .bup _ _
  | .bsplit _ _ _ | .bjoin _ _ | .bhand _ _ | .bret _ | .bquery _ _ | .ld _ _ _ _ _ _ | .st _ _ _ _ _ _
  | .pref _ _ _ _ | .ldl _ _ _ | .stl _ _ _ | .ldc _ _ _ | .stc _ _ _ | .bankset _ _ | .fput _ _ | .fget _ _
  | .waitc _ | .rld _ _ _ _ _ | .rst _ _ _ _ _ | .ratmAdd _ _ _ _ _ | .ratmXchg _ _ _ _ _ | .ratmCas _ _ _ _ _
  | .aadd _ _ _ _ _ | .asub _ _ _ _ _ | .amin _ _ _ _ _ | .amax _ _ _ _ _ | .aand _ _ _ _ _ | .aor _ _ _ _ _
  | .axor _ _ _ _ _ | .axchg _ _ _ _ _ | .acas _ _ _ _ _ | .ainc _ _ _ _ _ | .adec _ _ _ _ _ | .afadd _ _ _ _ _
  | .ald _ _ _ _ _ | .ast _ _ _ _ _ | .ahint _ _ | .cpl _ _ _ | .cpb _ _ _ | .cprAdd _ _ _ | .cprMin _ _ _
  | .cprMax _ _ _ | .cprFadd _ _ _ | .winit _ _ _ | .wexp _ _ | .warr _ | .wwait _ | .wtest _ _ | .fence _ _
  | .fencei | .fencer _ _ _ _ | .mclaim _ | .mrel _ | .mld _ _ _ | .mst _ _ _ | .mzero _ | .macc _ _ | .mshape _ _
  | .mma _ _ _ _ | .spawn _ _ _ | .spawnh _ _ _ | .bin _ _ | .patch _ _ | .release _ | .tret | .tlbi _ _
  | .preempt _ | .halt | .rdsp _ _ | .wrsp _ _ => false
  | .br _ _ | .call _ _ | .fuse _ _ | .bra _ _ | .calla _ _ | .ret _ | .join _ | .yield _ | .exit _ | .nop _
  | .mode _ _ | .modg _ _ _ | .add _ _ _ _ | .sub _ _ _ _ | .mul _ _ _ _ | .mulh _ _ _ _ | .min _ _ _ _
  | .max _ _ _ _ | .abs _ _ _ | .neg _ _ _ | .lea _ _ _ _ _ | .and _ _ _ _ | .or _ _ _ _ | .xor _ _ _ _
  | .andn _ _ _ _ | .not _ _ _ | .shl _ _ _ _ | .shr _ _ _ _ | .sra _ _ _ _ | .rotl _ _ _ _ | .clz _ _ _
  | .ctz _ _ _ | .popc _ _ _ | .brev _ _ _ | .bext _ _ _ _ | .bins _ _ _ _ | .mov _ _ _ | .ext _ _ _ _
  | .cvti _ _ _ _ | .mad _ _ _ _ _ | .madh _ _ _ _ _ | .cmpEq _ _ _ _ | .cmpNe _ _ _ _ | .cmpLt _ _ _ _
  | .cmpLe _ _ _ _ | .cmpGt _ _ _ _ | .cmpGe _ _ _ _ | .sel _ _ _ _ _ _ | .shflAt _ _ _ _ | .shflRise _ _ _ _
  | .shflFall _ _ _ _ | .shflFlip _ _ _ _ | .voteAny _ _ _ | .voteAll _ _ _ | .voteBallot _ _ _ | .scanAdd _ _ _
  | .scanMin _ _ _ | .scanMax _ _ _ | .scanAddx _ _ _ | .pand _ _ _ _ | .por _ _ _ _ | .pxor _ _ _ _ | .pnot _ _ _
  | .movi _ _ _ | .movu _ _ _ | .addi _ _ _ _ | .andi _ _ _ _ | .ori _ _ _ _ | .xori _ _ _ _ | .shli _ _ _ _
  | .shri _ _ _ _ | .fma _ _ _ _ _ | .fadd _ _ _ _ | .fsub _ _ _ _ | .fmul _ _ _ _ | .fmin _ _ _ _ | .fmax _ _ _ _
  | .fabs _ _ _ | .fneg _ _ _ | .frcp _ _ _ | .frsq _ _ _ | .fexp2 _ _ _ | .flog2 _ _ _ | .fdot2 _ _ _ _
  | .fclass _ _ _ | .fcmpEq _ _ _ _ | .fcmpNe _ _ _ _ | .fcmpLt _ _ _ _ | .fcmpLe _ _ _ _ | .fcmpGt _ _ _ _
  | .fcmpGe _ _ _ _ | .fcmpUn _ _ _ _ | .fcmpOr _ _ _ _ | .fcvt _ _ _ _ | .sxpk _ _ _ _ _ | .sxupk _ _ _ _ _
  | .zpk _ _ _ _ _ | .zupk _ _ _ _ _ | .rds _ _ _ | .wrs _ _ _ | .cvtaGl _ _ _ | .cvtaGc _ _ _ | .cvtaLg _ _ _
  | .cvtaCg _ _ _ | .inapGlobal _ _ _ | .inapPeer _ _ _ | .inapCluster _ _ _ | .inapLocal _ _ _ | .trap _ _
  | .brk _ _ => false

/-- The variable-latency instructions, whose stall count must be zero (R26). -/
def Instr.isVariable : Instr → Bool
  | .deferredTrap _ | .yieldEnd _ | .carryMessage _ _ _ | .carryFetch _ _ _ _ | .eventWindowReset _ _
  | .loadReply _ | .storeAck _ | .homeRequest _ | .wcDrain _ _ | .req _ | .grant _ | .refuse _ | .recall _
  | .giveup _ | .retSlip _ | .down _ | .up _ | .reloc _ | .hold _ | .ack _ | .slipResend _ | .invalidate _
  | .forward _ | .gone _ | .writeBack _ | .pageRecall _ | .commonsResend _ | .sweepMarker _ | .sweepAck _
  | .packetArrive _ | .packetOld _ | .injectStarve _ | .fabricPacket _ | .creditReturn _ _ | .reachLimit _
  | .flitReceive _ _ _ | .replayRequest _ _ | .linkRetrain _ | .linkSettle _ _ | .linkRetire _ | .chunk _
  | .chunkAck _ | .chunkRetry _ | .chunkResend _ | .close _ _ | .copyComplete _ | .passGrant _ _
  | .passComplete _ _ | .rampEnd _ _ | .launchEntry _ | .waitEntry _ | .waitRecheck _ | .signalEntry _
  | .nopEntry _ | .qctlWrite _ _ | .qtailWrite _ _ | .haltClear _ | .ovfClear _ | .registerWrite _ _ _
  | .phloWrite _ | .phhiWrite _ | .exloWrite _ | .exhiWrite _ | .taintClear _ | .taintClearDone | .kill _
  | .killComplete | .run _ | .preq _ | .symcmdTake | .symcmdReturn | .symTakeEnd | .biasToDevice _ _
  | .biasToHost _ _ | .cxlHostAccess _ _ _ _ | .ccAccess _ _ _ _ | .getVersion _ | .getCapabilities _
  | .negotiateAlgorithms _ _ _ | .getDigests _ | .getCertificate _ | .challenge _ _ | .getMeasurements _ _
  | .keyExchange _ | .reset _ _ | .powerUpWave | .powerMeter _ | .teamStart _ | .regionLoad _ | .loadRetry _
  | .teamEnd _ | .launchComplete _ | .depthExchange _ | .dieDepthExchange _ | .steal _ | .taskAgePromote _
  | .boost _ | .budgetExceeded _ | .budgetEnd _ | .watchdog _ | .borrowWaitPreempt _ | .preemption _
  | .preemptSave _ | .resume _ | .dividerComplete _ _ | .computePhaseEnd _ _ | .tableWalkEnd _ | .birspi _ _
  | .cxlHostLink _ _ | .domainStart _ _ | .uncorrectableError _ _ | .correctedError => false
  | .brt _ _ | .div _ _ _ | .rem _ _ _ | .fdiv _ _ _ | .fsqrt _ _ | .evrd _ _ | .evclr _ | .pub _ _ | .cdef _ _ _
  | .borX _ _ _ | .borS _ _ _ | .borC _ _ _ | .borXW _ _ _ | .borSW _ _ _ | .borCW _ _ _ | .bdown _ | .bup _ _
  | .bsplit _ _ _ | .bjoin _ _ | .bhand _ _ | .bret _ | .bquery _ _ | .ld _ _ _ _ _ _ | .st _ _ _ _ _ _
  | .pref _ _ _ _ | .ldl _ _ _ | .stl _ _ _ | .ldc _ _ _ | .stc _ _ _ | .bankset _ _ | .fput _ _ | .fget _ _
  | .waitc _ | .rld _ _ _ _ _ | .rst _ _ _ _ _ | .ratmAdd _ _ _ _ _ | .ratmXchg _ _ _ _ _ | .ratmCas _ _ _ _ _
  | .aadd _ _ _ _ _ | .asub _ _ _ _ _ | .amin _ _ _ _ _ | .amax _ _ _ _ _ | .aand _ _ _ _ _ | .aor _ _ _ _ _
  | .axor _ _ _ _ _ | .axchg _ _ _ _ _ | .acas _ _ _ _ _ | .ainc _ _ _ _ _ | .adec _ _ _ _ _ | .afadd _ _ _ _ _
  | .ald _ _ _ _ _ | .ast _ _ _ _ _ | .ahint _ _ | .cpl _ _ _ | .cpb _ _ _ | .cprAdd _ _ _ | .cprMin _ _ _
  | .cprMax _ _ _ | .cprFadd _ _ _ | .winit _ _ _ | .wexp _ _ | .warr _ | .wwait _ | .wtest _ _ | .fence _ _
  | .fencei | .fencer _ _ _ _ | .mclaim _ | .mrel _ | .mld _ _ _ | .mst _ _ _ | .mzero _ | .macc _ _ | .mshape _ _
  | .mma _ _ _ _ | .spawn _ _ _ | .spawnh _ _ _ | .bin _ _ | .patch _ _ | .release _ | .tret | .tlbi _ _
  | .preempt _ | .halt | .rdsp _ _ | .wrsp _ _ => true
  | .br _ _ | .call _ _ | .fuse _ _ | .bra _ _ | .calla _ _ | .ret _ | .join _ | .yield _ | .exit _ | .nop _
  | .mode _ _ | .modg _ _ _ | .add _ _ _ _ | .sub _ _ _ _ | .mul _ _ _ _ | .mulh _ _ _ _ | .min _ _ _ _
  | .max _ _ _ _ | .abs _ _ _ | .neg _ _ _ | .lea _ _ _ _ _ | .and _ _ _ _ | .or _ _ _ _ | .xor _ _ _ _
  | .andn _ _ _ _ | .not _ _ _ | .shl _ _ _ _ | .shr _ _ _ _ | .sra _ _ _ _ | .rotl _ _ _ _ | .clz _ _ _
  | .ctz _ _ _ | .popc _ _ _ | .brev _ _ _ | .bext _ _ _ _ | .bins _ _ _ _ | .mov _ _ _ | .ext _ _ _ _
  | .cvti _ _ _ _ | .mad _ _ _ _ _ | .madh _ _ _ _ _ | .cmpEq _ _ _ _ | .cmpNe _ _ _ _ | .cmpLt _ _ _ _
  | .cmpLe _ _ _ _ | .cmpGt _ _ _ _ | .cmpGe _ _ _ _ | .sel _ _ _ _ _ _ | .shflAt _ _ _ _ | .shflRise _ _ _ _
  | .shflFall _ _ _ _ | .shflFlip _ _ _ _ | .voteAny _ _ _ | .voteAll _ _ _ | .voteBallot _ _ _ | .scanAdd _ _ _
  | .scanMin _ _ _ | .scanMax _ _ _ | .scanAddx _ _ _ | .pand _ _ _ _ | .por _ _ _ _ | .pxor _ _ _ _ | .pnot _ _ _
  | .movi _ _ _ | .movu _ _ _ | .addi _ _ _ _ | .andi _ _ _ _ | .ori _ _ _ _ | .xori _ _ _ _ | .shli _ _ _ _
  | .shri _ _ _ _ | .fma _ _ _ _ _ | .fadd _ _ _ _ | .fsub _ _ _ _ | .fmul _ _ _ _ | .fmin _ _ _ _ | .fmax _ _ _ _
  | .fabs _ _ _ | .fneg _ _ _ | .frcp _ _ _ | .frsq _ _ _ | .fexp2 _ _ _ | .flog2 _ _ _ | .fdot2 _ _ _ _
  | .fclass _ _ _ | .fcmpEq _ _ _ _ | .fcmpNe _ _ _ _ | .fcmpLt _ _ _ _ | .fcmpLe _ _ _ _ | .fcmpGt _ _ _ _
  | .fcmpGe _ _ _ _ | .fcmpUn _ _ _ _ | .fcmpOr _ _ _ _ | .fcvt _ _ _ _ | .sxpk _ _ _ _ _ | .sxupk _ _ _ _ _
  | .zpk _ _ _ _ _ | .zupk _ _ _ _ _ | .rds _ _ _ | .wrs _ _ _ | .cvtaGl _ _ _ | .cvtaGc _ _ _ | .cvtaLg _ _ _
  | .cvtaCg _ _ _ | .inapGlobal _ _ _ | .inapPeer _ _ _ | .inapCluster _ _ _ | .inapLocal _ _ _ | .trap _ _
  | .brk _ _ => false

/-- The fields of an instruction, in the order they are examined (R35). An event has none. -/
def Instr.operands : Instr → List Operand
  | .br _ _ => []
  | .call _ _ => []
  | .fuse _ _ => []
  | .brt a n => [⟨17, 6, 63, .zero, 0⟩, ⟨11, 6, 0, .vsrc, a.toNat⟩, ⟨0, 11, 0, .free, n.toNat⟩]
  | .bra _ a => [⟨17, 6, 63, .zero, 0⟩, ⟨11, 6, 0, .pair, a.toNat⟩, ⟨5, 6, 63, .zero, 0⟩]
  | .calla _ a => [⟨17, 6, 63, .zero, 0⟩, ⟨11, 6, 0, .pair, a.toNat⟩, ⟨5, 6, 63, .zero, 0⟩]
  | .ret _ => [⟨17, 6, 63, .zero, 0⟩, ⟨11, 6, 63, .zero, 0⟩, ⟨5, 6, 63, .zero, 0⟩]
  | .join _ => [⟨17, 6, 63, .zero, 0⟩, ⟨11, 6, 63, .zero, 0⟩, ⟨5, 6, 63, .zero, 0⟩]
  | .yield _ => [⟨17, 6, 63, .zero, 0⟩, ⟨11, 6, 63, .zero, 0⟩, ⟨5, 6, 63, .zero, 0⟩]
  | .exit _ => [⟨17, 6, 63, .zero, 0⟩, ⟨11, 6, 63, .zero, 0⟩, ⟨5, 6, 63, .zero, 0⟩]
  | .nop _ => [⟨17, 6, 63, .zero, 0⟩, ⟨11, 6, 63, .zero, 0⟩, ⟨5, 6, 63, .zero, 0⟩]
  | .mode _ m => [⟨17, 6, 63, .zero, 0⟩, ⟨0, 17, 65536, .free, m.toNat⟩]
  | .modg _ n p => [⟨17, 6, 63, .zero, 0⟩, ⟨0, 17, 131056, .free, n.toNat * 2 ^ 3 + p.toNat⟩]
  | .add _ d a b => [⟨17, 6, 0, .vdst, d.toNat⟩, ⟨11, 6, 0, .vsrc, a.toNat⟩, ⟨5, 6, 0, .vsrc, b.toNat⟩]
  | .sub _ d a b => [⟨17, 6, 0, .vdst, d.toNat⟩, ⟨11, 6, 0, .vsrc, a.toNat⟩, ⟨5, 6, 0, .vsrc, b.toNat⟩]
  | .mul _ d a b => [⟨17, 6, 0, .vdst, d.toNat⟩, ⟨11, 6, 0, .vsrc, a.toNat⟩, ⟨5, 6, 0, .vsrc, b.toNat⟩]
  | .mulh _ d a b => [⟨17, 6, 0, .vdst, d.toNat⟩, ⟨11, 6, 0, .vsrc, a.toNat⟩, ⟨5, 6, 0, .vsrc, b.toNat⟩]
  | .div d a b => [⟨17, 6, 0, .vdst, d.toNat⟩, ⟨11, 6, 0, .vsrc, a.toNat⟩, ⟨5, 6, 0, .vsrc, b.toNat⟩]
  | .rem d a b => [⟨17, 6, 0, .vdst, d.toNat⟩, ⟨11, 6, 0, .vsrc, a.toNat⟩, ⟨5, 6, 0, .vsrc, b.toNat⟩]
  | .min _ d a b => [⟨17, 6, 0, .vdst, d.toNat⟩, ⟨11, 6, 0, .vsrc, a.toNat⟩, ⟨5, 6, 0, .vsrc, b.toNat⟩]
  | .max _ d a b => [⟨17, 6, 0, .vdst, d.toNat⟩, ⟨11, 6, 0, .vsrc, a.toNat⟩, ⟨5, 6, 0, .vsrc, b.toNat⟩]
  | .abs _ d a => [⟨17, 6, 0, .vdst, d.toNat⟩, ⟨11, 6, 0, .vsrc, a.toNat⟩, ⟨5, 6, 63, .zero, 0⟩]
  | .neg _ d a => [⟨17, 6, 0, .vdst, d.toNat⟩, ⟨11, 6, 0, .vsrc, a.toNat⟩, ⟨5, 6, 63, .zero, 0⟩]
  | .lea _ d a b _ => [⟨17, 6, 0, .pair, d.toNat⟩, ⟨11, 6, 0, .pair, a.toNat⟩, ⟨5, 6, 0, .vsrc, b.toNat⟩]
  | .and _ d a b => [⟨17, 6, 0, .vdst, d.toNat⟩, ⟨11, 6, 0, .vsrc, a.toNat⟩, ⟨5, 6, 0, .vsrc, b.toNat⟩]
  | .or _ d a b => [⟨17, 6, 0, .vdst, d.toNat⟩, ⟨11, 6, 0, .vsrc, a.toNat⟩, ⟨5, 6, 0, .vsrc, b.toNat⟩]
  | .xor _ d a b => [⟨17, 6, 0, .vdst, d.toNat⟩, ⟨11, 6, 0, .vsrc, a.toNat⟩, ⟨5, 6, 0, .vsrc, b.toNat⟩]
  | .andn _ d a b => [⟨17, 6, 0, .vdst, d.toNat⟩, ⟨11, 6, 0, .vsrc, a.toNat⟩, ⟨5, 6, 0, .vsrc, b.toNat⟩]
  | .not _ d a => [⟨17, 6, 0, .vdst, d.toNat⟩, ⟨11, 6, 0, .vsrc, a.toNat⟩, ⟨5, 6, 63, .zero, 0⟩]
  | .shl _ d a b => [⟨17, 6, 0, .vdst, d.toNat⟩, ⟨11, 6, 0, .vsrc, a.toNat⟩, ⟨5, 6, 0, .vsrc, b.toNat⟩]
  | .shr _ d a b => [⟨17, 6, 0, .vdst, d.toNat⟩, ⟨11, 6, 0, .vsrc, a.toNat⟩, ⟨5, 6, 0, .vsrc, b.toNat⟩]
  | .sra _ d a b => [⟨17, 6, 0, .vdst, d.toNat⟩, ⟨11, 6, 0, .vsrc, a.toNat⟩, ⟨5, 6, 0, .vsrc, b.toNat⟩]
  | .rotl _ d a b => [⟨17, 6, 0, .vdst, d.toNat⟩, ⟨11, 6, 0, .vsrc, a.toNat⟩, ⟨5, 6, 0, .vsrc, b.toNat⟩]
  | .clz _ d a => [⟨17, 6, 0, .vdst, d.toNat⟩, ⟨11, 6, 0, .vsrc, a.toNat⟩, ⟨5, 6, 63, .zero, 0⟩]
  | .ctz _ d a => [⟨17, 6, 0, .vdst, d.toNat⟩, ⟨11, 6, 0, .vsrc, a.toNat⟩, ⟨5, 6, 63, .zero, 0⟩]
  | .popc _ d a => [⟨17, 6, 0, .vdst, d.toNat⟩, ⟨11, 6, 0, .vsrc, a.toNat⟩, ⟨5, 6, 63, .zero, 0⟩]
  | .brev _ d a => [⟨17, 6, 0, .vdst, d.toNat⟩, ⟨11, 6, 0, .vsrc, a.toNat⟩, ⟨5, 6, 63, .zero, 0⟩]
  | .bext _ d a b => [⟨17, 6, 0, .vdst, d.toNat⟩, ⟨11, 6, 0, .vsrc, a.toNat⟩, ⟨5, 6, 0, .vsrc, b.toNat⟩]
  | .bins _ d a b => [⟨17, 6, 0, .vdst, d.toNat⟩, ⟨11, 6, 0, .vsrc, a.toNat⟩, ⟨5, 6, 0, .vsrc, b.toNat⟩]
  | .mov _ d a => [⟨17, 6, 0, .vdst, d.toNat⟩, ⟨11, 6, 0, .vsrc, a.toNat⟩, ⟨5, 6, 63, .zero, 0⟩]
  | .ext _ d a w => [⟨17, 6, 0, .vdst, d.toNat⟩, ⟨11, 6, 0, .vsrc, a.toNat⟩, ⟨5, 6, 0, .imm 1 32, w.toNat⟩]
  | .cvti _ d a e => [⟨17, 6, 0, .vdst, d.toNat⟩, ⟨11, 6, 0, .vsrc, a.toNat⟩, ⟨5, 6, 0, .imm 0 7, e.toNat⟩]
  | .mad _ d a b c => [⟨17, 6, 0, .vdst, d.toNat⟩, ⟨11, 6, 0, .vsrc, a.toNat⟩, ⟨5, 6, 0, .vsrc, b.toNat⟩, ⟨0, 5, 0, .free, c.toNat⟩]
  | .madh _ d a b c => [⟨17, 6, 0, .vdst, d.toNat⟩, ⟨11, 6, 0, .vsrc, a.toNat⟩, ⟨5, 6, 0, .vsrc, b.toNat⟩, ⟨0, 5, 0, .free, c.toNat⟩]
  | .cmpEq _ d a b => [⟨17, 6, 0, .pred, d.toNat⟩, ⟨11, 6, 0, .vsrc, a.toNat⟩, ⟨5, 6, 0, .vsrc, b.toNat⟩]
  | .cmpNe _ d a b => [⟨17, 6, 0, .pred, d.toNat⟩, ⟨11, 6, 0, .vsrc, a.toNat⟩, ⟨5, 6, 0, .vsrc, b.toNat⟩]
  | .cmpLt _ d a b => [⟨17, 6, 0, .pred, d.toNat⟩, ⟨11, 6, 0, .vsrc, a.toNat⟩, ⟨5, 6, 0, .vsrc, b.toNat⟩]
  | .cmpLe _ d a b => [⟨17, 6, 0, .pred, d.toNat⟩, ⟨11, 6, 0, .vsrc, a.toNat⟩, ⟨5, 6, 0, .vsrc, b.toNat⟩]
  | .cmpGt _ d a b => [⟨17, 6, 0, .pred, d.toNat⟩, ⟨11, 6, 0, .vsrc, a.toNat⟩, ⟨5, 6, 0, .vsrc, b.toNat⟩]
  | .cmpGe _ d a b => [⟨17, 6, 0, .pred, d.toNat⟩, ⟨11, 6, 0, .vsrc, a.toNat⟩, ⟨5, 6, 0, .vsrc, b.toNat⟩]
  | .sel _ d a b _ _ => [⟨17, 6, 0, .vdst, d.toNat⟩, ⟨11, 6, 0, .vsrc, a.toNat⟩, ⟨5, 6, 0, .vsrc, b.toNat⟩, ⟨4, 1, 1, .zero, 0⟩]
  | .shflAt _ d a b => [⟨17, 6, 0, .vdst, d.toNat⟩, ⟨11, 6, 0, .vsrc, a.toNat⟩, ⟨5, 6, 0, .vsrc, b.toNat⟩]
  | .shflRise _ d a b => [⟨17, 6, 0, .vdst, d.toNat⟩, ⟨11, 6, 0, .vsrc, a.toNat⟩, ⟨5, 6, 0, .vsrc, b.toNat⟩]
  | .shflFall _ d a b => [⟨17, 6, 0, .vdst, d.toNat⟩, ⟨11, 6, 0, .vsrc, a.toNat⟩, ⟨5, 6, 0, .vsrc, b.toNat⟩]
  | .shflFlip _ d a b => [⟨17, 6, 0, .vdst, d.toNat⟩, ⟨11, 6, 0, .vsrc, a.toNat⟩, ⟨5, 6, 0, .vsrc, b.toNat⟩]
  | .voteAny _ d a => [⟨17, 6, 0, .pred, d.toNat⟩, ⟨11, 6, 0, .pred, a.toNat⟩, ⟨5, 6, 63, .zero, 0⟩]
  | .voteAll _ d a => [⟨17, 6, 0, .pred, d.toNat⟩, ⟨11, 6, 0, .pred, a.toNat⟩, ⟨5, 6, 63, .zero, 0⟩]
  | .voteBallot _ d a => [⟨17, 6, 0, .vdst, d.toNat⟩, ⟨11, 6, 0, .pred, a.toNat⟩, ⟨5, 6, 63, .zero, 0⟩]
  | .scanAdd _ d a => [⟨17, 6, 0, .vdst, d.toNat⟩, ⟨11, 6, 0, .vsrc, a.toNat⟩, ⟨5, 6, 63, .zero, 0⟩]
  | .scanMin _ d a => [⟨17, 6, 0, .vdst, d.toNat⟩, ⟨11, 6, 0, .vsrc, a.toNat⟩, ⟨5, 6, 63, .zero, 0⟩]
  | .scanMax _ d a => [⟨17, 6, 0, .vdst, d.toNat⟩, ⟨11, 6, 0, .vsrc, a.toNat⟩, ⟨5, 6, 63, .zero, 0⟩]
  | .scanAddx _ d a => [⟨17, 6, 0, .vdst, d.toNat⟩, ⟨11, 6, 0, .vsrc, a.toNat⟩, ⟨5, 6, 63, .zero, 0⟩]
  | .pand _ d a b => [⟨17, 6, 0, .pred, d.toNat⟩, ⟨11, 6, 0, .pred, a.toNat⟩, ⟨5, 6, 0, .pred, b.toNat⟩]
  | .por _ d a b => [⟨17, 6, 0, .pred, d.toNat⟩, ⟨11, 6, 0, .pred, a.toNat⟩, ⟨5, 6, 0, .pred, b.toNat⟩]
  | .pxor _ d a b => [⟨17, 6, 0, .pred, d.toNat⟩, ⟨11, 6, 0, .pred, a.toNat⟩, ⟨5, 6, 0, .pred, b.toNat⟩]
  | .pnot _ d a => [⟨17, 6, 0, .pred, d.toNat⟩, ⟨11, 6, 0, .pred, a.toNat⟩, ⟨5, 6, 63, .zero, 0⟩]
  | .movi _ d i => [⟨17, 6, 0, .vdst, d.toNat⟩, ⟨0, 17, 0, .free, i.toNat⟩]
  | .movu _ d i => [⟨17, 6, 0, .vdst, d.toNat⟩, ⟨0, 17, 0, .free, i.toNat⟩]
  | .addi _ d a i => [⟨17, 6, 0, .vdst, d.toNat⟩, ⟨11, 6, 0, .vsrc, a.toNat⟩, ⟨0, 11, 0, .free, i.toNat⟩]
  | .andi _ d a i => [⟨17, 6, 0, .vdst, d.toNat⟩, ⟨11, 6, 0, .vsrc, a.toNat⟩, ⟨0, 11, 0, .free, i.toNat⟩]
  | .ori _ d a i => [⟨17, 6, 0, .vdst, d.toNat⟩, ⟨11, 6, 0, .vsrc, a.toNat⟩, ⟨0, 11, 0, .free, i.toNat⟩]
  | .xori _ d a i => [⟨17, 6, 0, .vdst, d.toNat⟩, ⟨11, 6, 0, .vsrc, a.toNat⟩, ⟨0, 11, 0, .free, i.toNat⟩]
  | .shli _ d a c => [⟨17, 6, 0, .vdst, d.toNat⟩, ⟨11, 6, 0, .vsrc, a.toNat⟩, ⟨0, 11, 1984, .free, c.toNat⟩]
  | .shri _ d a c => [⟨17, 6, 0, .vdst, d.toNat⟩, ⟨11, 6, 0, .vsrc, a.toNat⟩, ⟨0, 11, 1984, .free, c.toNat⟩]
  | .fma _ d a b c => [⟨17, 6, 0, .vdst, d.toNat⟩, ⟨11, 6, 0, .vsrc, a.toNat⟩, ⟨5, 6, 0, .vsrc, b.toNat⟩, ⟨0, 5, 0, .free, c.toNat⟩]
  | .fadd _ d a b => [⟨17, 6, 0, .vdst, d.toNat⟩, ⟨11, 6, 0, .vsrc, a.toNat⟩, ⟨5, 6, 0, .vsrc, b.toNat⟩]
  | .fsub _ d a b => [⟨17, 6, 0, .vdst, d.toNat⟩, ⟨11, 6, 0, .vsrc, a.toNat⟩, ⟨5, 6, 0, .vsrc, b.toNat⟩]
  | .fmul _ d a b => [⟨17, 6, 0, .vdst, d.toNat⟩, ⟨11, 6, 0, .vsrc, a.toNat⟩, ⟨5, 6, 0, .vsrc, b.toNat⟩]
  | .fmin _ d a b => [⟨17, 6, 0, .vdst, d.toNat⟩, ⟨11, 6, 0, .vsrc, a.toNat⟩, ⟨5, 6, 0, .vsrc, b.toNat⟩]
  | .fmax _ d a b => [⟨17, 6, 0, .vdst, d.toNat⟩, ⟨11, 6, 0, .vsrc, a.toNat⟩, ⟨5, 6, 0, .vsrc, b.toNat⟩]
  | .fabs _ d a => [⟨17, 6, 0, .vdst, d.toNat⟩, ⟨11, 6, 0, .vsrc, a.toNat⟩, ⟨5, 6, 63, .zero, 0⟩]
  | .fneg _ d a => [⟨17, 6, 0, .vdst, d.toNat⟩, ⟨11, 6, 0, .vsrc, a.toNat⟩, ⟨5, 6, 63, .zero, 0⟩]
  | .fdiv d a b => [⟨17, 6, 0, .vdst, d.toNat⟩, ⟨11, 6, 0, .vsrc, a.toNat⟩, ⟨5, 6, 0, .vsrc, b.toNat⟩]
  | .fsqrt d a => [⟨17, 6, 0, .vdst, d.toNat⟩, ⟨11, 6, 0, .vsrc, a.toNat⟩, ⟨5, 6, 63, .zero, 0⟩]
  | .frcp _ d a => [⟨17, 6, 0, .vdst, d.toNat⟩, ⟨11, 6, 0, .vsrc, a.toNat⟩, ⟨5, 6, 63, .zero, 0⟩]
  | .frsq _ d a => [⟨17, 6, 0, .vdst, d.toNat⟩, ⟨11, 6, 0, .vsrc, a.toNat⟩, ⟨5, 6, 63, .zero, 0⟩]
  | .fexp2 _ d a => [⟨17, 6, 0, .vdst, d.toNat⟩, ⟨11, 6, 0, .vsrc, a.toNat⟩, ⟨5, 6, 63, .zero, 0⟩]
  | .flog2 _ d a => [⟨17, 6, 0, .vdst, d.toNat⟩, ⟨11, 6, 0, .vsrc, a.toNat⟩, ⟨5, 6, 63, .zero, 0⟩]
  | .fdot2 _ d a b => [⟨17, 6, 0, .vdst, d.toNat⟩, ⟨11, 6, 0, .vsrc, a.toNat⟩, ⟨5, 6, 0, .vsrc, b.toNat⟩]
  | .fclass _ d a => [⟨17, 6, 0, .vdst, d.toNat⟩, ⟨11, 6, 0, .vsrc, a.toNat⟩, ⟨5, 6, 63, .zero, 0⟩]
  | .fcmpEq _ d a b => [⟨17, 6, 0, .pred, d.toNat⟩, ⟨11, 6, 0, .vsrc, a.toNat⟩, ⟨5, 6, 0, .vsrc, b.toNat⟩]
  | .fcmpNe _ d a b => [⟨17, 6, 0, .pred, d.toNat⟩, ⟨11, 6, 0, .vsrc, a.toNat⟩, ⟨5, 6, 0, .vsrc, b.toNat⟩]
  | .fcmpLt _ d a b => [⟨17, 6, 0, .pred, d.toNat⟩, ⟨11, 6, 0, .vsrc, a.toNat⟩, ⟨5, 6, 0, .vsrc, b.toNat⟩]
  | .fcmpLe _ d a b => [⟨17, 6, 0, .pred, d.toNat⟩, ⟨11, 6, 0, .vsrc, a.toNat⟩, ⟨5, 6, 0, .vsrc, b.toNat⟩]
  | .fcmpGt _ d a b => [⟨17, 6, 0, .pred, d.toNat⟩, ⟨11, 6, 0, .vsrc, a.toNat⟩, ⟨5, 6, 0, .vsrc, b.toNat⟩]
  | .fcmpGe _ d a b => [⟨17, 6, 0, .pred, d.toNat⟩, ⟨11, 6, 0, .vsrc, a.toNat⟩, ⟨5, 6, 0, .vsrc, b.toNat⟩]
  | .fcmpUn _ d a b => [⟨17, 6, 0, .pred, d.toNat⟩, ⟨11, 6, 0, .vsrc, a.toNat⟩, ⟨5, 6, 0, .vsrc, b.toNat⟩]
  | .fcmpOr _ d a b => [⟨17, 6, 0, .pred, d.toNat⟩, ⟨11, 6, 0, .vsrc, a.toNat⟩, ⟨5, 6, 0, .vsrc, b.toNat⟩]
  | .fcvt _ d a e => [⟨17, 6, 0, .vdst, d.toNat⟩, ⟨11, 6, 0, .vsrc, a.toNat⟩, ⟨5, 6, 63, .zero, 0⟩, ⟨4, 1, 1, .zero, 0⟩, ⟨0, 4, 0, .imm 0 10, e.toNat⟩]
  | .sxpk _ d a _ _ => [⟨17, 6, 0, .vdst, d.toNat⟩, ⟨11, 6, 0, .vsrc, a.toNat⟩, ⟨5, 6, 63, .zero, 0⟩]
  | .sxupk _ d a _ _ => [⟨17, 6, 0, .vdst, d.toNat⟩, ⟨11, 6, 0, .vsrc, a.toNat⟩, ⟨5, 6, 63, .zero, 0⟩]
  | .zpk _ d a _ _ => [⟨17, 6, 0, .vdst, d.toNat⟩, ⟨11, 6, 0, .vsrc, a.toNat⟩, ⟨5, 6, 63, .zero, 0⟩]
  | .zupk _ d a _ _ => [⟨17, 6, 0, .vdst, d.toNat⟩, ⟨11, 6, 0, .vsrc, a.toNat⟩, ⟨5, 6, 63, .zero, 0⟩]
  | .evrd d c => [⟨17, 6, 0, .vdst, d.toNat⟩, ⟨11, 6, 63, .zero, 0⟩, ⟨5, 6, 0, .imm 0 5, c.toNat⟩]
  | .evclr c => [⟨17, 6, 63, .zero, 0⟩, ⟨11, 6, 63, .zero, 0⟩, ⟨5, 6, 0, .imm 0 6, c.toNat⟩]
  | .rds _ d n => [⟨17, 6, 0, (if specialWide n.toNat then .pair else .vdst), d.toNat⟩, ⟨0, 17, 126976, .special, n.toNat⟩]
  | .wrs _ d n => [⟨17, 6, 0, (if specialWide n.toNat then .pair else .vsrc), d.toNat⟩, ⟨0, 17, 126976, .specialRw, n.toNat⟩]
  | .pub a j => [⟨17, 6, 63, .zero, 0⟩, ⟨11, 6, 0, .vsrc, a.toNat⟩, ⟨5, 6, 0, .imm 0 3, j.toNat⟩]
  | .cdef d j k => [⟨17, 6, 0, .vdst, d.toNat⟩, ⟨11, 6, 60, .free, j.toNat⟩, ⟨0, 11, 1024, .free, k.toNat⟩]
  | .borX d a b => [⟨17, 6, 0, .vdst, d.toNat⟩, ⟨11, 6, 0, .quad, a.toNat⟩, ⟨5, 6, 0, .region, b.toNat⟩]
  | .borS d a b => [⟨17, 6, 0, .vdst, d.toNat⟩, ⟨11, 6, 0, .quad, a.toNat⟩, ⟨5, 6, 0, .region, b.toNat⟩]
  | .borC d a b => [⟨17, 6, 0, .vdst, d.toNat⟩, ⟨11, 6, 0, .quad, a.toNat⟩, ⟨5, 6, 0, .region, b.toNat⟩]
  | .borXW d a b => [⟨17, 6, 0, .vdst, d.toNat⟩, ⟨11, 6, 0, .quad, a.toNat⟩, ⟨5, 6, 0, .region, b.toNat⟩]
  | .borSW d a b => [⟨17, 6, 0, .vdst, d.toNat⟩, ⟨11, 6, 0, .quad, a.toNat⟩, ⟨5, 6, 0, .region, b.toNat⟩]
  | .borCW d a b => [⟨17, 6, 0, .vdst, d.toNat⟩, ⟨11, 6, 0, .quad, a.toNat⟩, ⟨5, 6, 0, .region, b.toNat⟩]
  | .bdown b => [⟨17, 6, 63, .zero, 0⟩, ⟨11, 6, 63, .zero, 0⟩, ⟨5, 6, 0, .region, b.toNat⟩]
  | .bup d b => [⟨17, 6, 0, .vdst, d.toNat⟩, ⟨11, 6, 63, .zero, 0⟩, ⟨5, 6, 0, .region, b.toNat⟩]
  | .bsplit d a b => [⟨17, 6, 0, .region, d.toNat⟩, ⟨11, 6, 0, .vsrc, a.toNat⟩, ⟨5, 6, 0, (.regionNe d.toNat), b.toNat⟩]
  | .bjoin d b => [⟨17, 6, 0, .region, d.toNat⟩, ⟨11, 6, 63, .zero, 0⟩, ⟨5, 6, 0, (.regionNe d.toNat), b.toNat⟩]
  | .bhand a b => [⟨17, 6, 63, .zero, 0⟩, ⟨11, 6, 0, .vsrc, a.toNat⟩, ⟨5, 6, 0, .region, b.toNat⟩]
  | .bret b => [⟨17, 6, 63, .zero, 0⟩, ⟨11, 6, 63, .zero, 0⟩, ⟨5, 6, 0, .region, b.toNat⟩]
  | .bquery d b => [⟨17, 6, 0, .quad, d.toNat⟩, ⟨11, 6, 63, .zero, 0⟩, ⟨5, 6, 0, .region, b.toNat⟩]
  | .ld d _ a _ z _ => [⟨17, 6, 0, (dataDst z.toNat), d.toNat⟩, ⟨6, 6, 0, .pair, a.toNat⟩]
  | .st d _ a _ z _ => [⟨17, 6, 0, (dataSrc z.toNat), d.toNat⟩, ⟨6, 6, 0, .pair, a.toNat⟩]
  | .pref _ a _ _ => [⟨17, 6, 63, .zero, 0⟩, ⟨6, 6, 0, .pair, a.toNat⟩, ⟨1, 3, 7, .zero, 0⟩]
  | .ldl d a z => [⟨17, 6, 0, (dataDst z.toNat), d.toNat⟩, ⟨11, 6, 0, .vsrc, a.toNat⟩, ⟨5, 6, 63, .zero, 0⟩]
  | .stl d a z => [⟨17, 6, 0, (dataSrc z.toNat), d.toNat⟩, ⟨11, 6, 0, .vsrc, a.toNat⟩, ⟨5, 6, 63, .zero, 0⟩]
  | .ldc d a z => [⟨17, 6, 0, (dataDst z.toNat), d.toNat⟩, ⟨11, 6, 0, .vsrc, a.toNat⟩, ⟨5, 6, 63, .zero, 0⟩]
  | .stc d a z => [⟨17, 6, 0, (dataSrc z.toNat), d.toNat⟩, ⟨11, 6, 0, .vsrc, a.toNat⟩, ⟨5, 6, 63, .zero, 0⟩]
  | .cvtaGl _ d a => [⟨17, 6, 0, .vdst, d.toNat⟩, ⟨11, 6, 0, .pair, a.toNat⟩, ⟨5, 6, 63, .zero, 0⟩]
  | .cvtaGc _ d a => [⟨17, 6, 0, .vdst, d.toNat⟩, ⟨11, 6, 0, .pair, a.toNat⟩, ⟨5, 6, 63, .zero, 0⟩]
  | .cvtaLg _ d a => [⟨17, 6, 0, .pair, d.toNat⟩, ⟨11, 6, 0, .vsrc, a.toNat⟩, ⟨5, 6, 63, .zero, 0⟩]
  | .cvtaCg _ d a => [⟨17, 6, 0, .pair, d.toNat⟩, ⟨11, 6, 0, .vsrc, a.toNat⟩, ⟨5, 6, 63, .zero, 0⟩]
  | .inapGlobal _ d a => [⟨17, 6, 0, .pred, d.toNat⟩, ⟨11, 6, 0, .pair, a.toNat⟩, ⟨5, 6, 63, .zero, 0⟩]
  | .inapPeer _ d a => [⟨17, 6, 0, .pred, d.toNat⟩, ⟨11, 6, 0, .pair, a.toNat⟩, ⟨5, 6, 63, .zero, 0⟩]
  | .inapCluster _ d a => [⟨17, 6, 0, .pred, d.toNat⟩, ⟨11, 6, 0, .pair, a.toNat⟩, ⟨5, 6, 63, .zero, 0⟩]
  | .inapLocal _ d a => [⟨17, 6, 0, .pred, d.toNat⟩, ⟨11, 6, 0, .pair, a.toNat⟩, ⟨5, 6, 63, .zero, 0⟩]
  | .bankset a b => [⟨17, 6, 63, .zero, 0⟩, ⟨11, 6, 0, .vsrc, a.toNat⟩, ⟨5, 6, 0, .vsrc, b.toNat⟩]
  | .fput a b => [⟨17, 6, 63, .zero, 0⟩, ⟨11, 6, 0, .vsrc, a.toNat⟩, ⟨5, 6, 0, .vsrc, b.toNat⟩]
  | .fget d a => [⟨17, 6, 0, .vdst, d.toNat⟩, ⟨11, 6, 0, .vsrc, a.toNat⟩, ⟨5, 6, 63, .zero, 0⟩]
  | .waitc m => [⟨17, 6, 63, .zero, 0⟩, ⟨11, 6, 63, .zero, 0⟩, ⟨5, 6, 0, .imm 1 63, m.toNat⟩]
  | .rld d p o _ _ => [⟨17, 6, 0, .vdst, d.toNat⟩, ⟨11, 6, 0, .vsrc, p.toNat⟩, ⟨5, 6, 0, .pair, o.toNat⟩]
  | .rst d p o _ _ => [⟨17, 6, 0, .vsrc, d.toNat⟩, ⟨11, 6, 0, .vsrc, p.toNat⟩, ⟨5, 6, 0, .pair, o.toNat⟩]
  | .ratmAdd d p o _ _ => [⟨17, 6, 0, .vdst, d.toNat⟩, ⟨11, 6, 0, .vsrc, p.toNat⟩, ⟨5, 6, 0, .pair, o.toNat⟩]
  | .ratmXchg d p o _ _ => [⟨17, 6, 0, .vdst, d.toNat⟩, ⟨11, 6, 0, .vsrc, p.toNat⟩, ⟨5, 6, 0, .pair, o.toNat⟩]
  | .ratmCas d p o _ _ => [⟨17, 6, 0, .vdst, d.toNat⟩, ⟨11, 6, 0, .vsrc, p.toNat⟩, ⟨5, 6, 0, .pair, o.toNat⟩]
  | .aadd _ d _ a _ => [⟨17, 6, 0, .vdst, d.toNat⟩, ⟨6, 6, 0, .pair, a.toNat⟩]
  | .asub _ d _ a _ => [⟨17, 6, 0, .vdst, d.toNat⟩, ⟨6, 6, 0, .pair, a.toNat⟩]
  | .amin _ d _ a _ => [⟨17, 6, 0, .vdst, d.toNat⟩, ⟨6, 6, 0, .pair, a.toNat⟩]
  | .amax _ d _ a _ => [⟨17, 6, 0, .vdst, d.toNat⟩, ⟨6, 6, 0, .pair, a.toNat⟩]
  | .aand _ d _ a _ => [⟨17, 6, 0, .vdst, d.toNat⟩, ⟨6, 6, 0, .pair, a.toNat⟩]
  | .aor _ d _ a _ => [⟨17, 6, 0, .vdst, d.toNat⟩, ⟨6, 6, 0, .pair, a.toNat⟩]
  | .axor _ d _ a _ => [⟨17, 6, 0, .vdst, d.toNat⟩, ⟨6, 6, 0, .pair, a.toNat⟩]
  | .axchg _ d _ a _ => [⟨17, 6, 0, .vdst, d.toNat⟩, ⟨6, 6, 0, .pair, a.toNat⟩]
  | .acas _ d _ a _ => [⟨17, 6, 0, .vdst, d.toNat⟩, ⟨6, 6, 0, .pair, a.toNat⟩]
  | .ainc _ d _ a _ => [⟨17, 6, 0, .vdst, d.toNat⟩, ⟨6, 6, 0, .pair, a.toNat⟩]
  | .adec _ d _ a _ => [⟨17, 6, 0, .vdst, d.toNat⟩, ⟨6, 6, 0, .pair, a.toNat⟩]
  | .afadd _ d _ a _ => [⟨17, 6, 0, .vdst, d.toNat⟩, ⟨6, 6, 0, .pair, a.toNat⟩]
  | .ald _ d _ a _ => [⟨17, 6, 0, .vdst, d.toNat⟩, ⟨6, 6, 0, .pair, a.toNat⟩]
  | .ast _ d _ a _ => [⟨17, 6, 0, .vsrc, d.toNat⟩, ⟨6, 6, 0, .pair, a.toNat⟩]
  | .ahint h _ => [⟨17, 6, 0, .imm 0 2, h.toNat⟩, ⟨6, 6, 63, .zero, 0⟩, ⟨4, 2, 3, .zero, 0⟩]
  | .cpl d a b => [⟨17, 6, 0, .regionOp, d.toNat⟩, ⟨11, 6, 0, .regionOp, a.toNat⟩, ⟨5, 6, 0, .quad, b.toNat⟩]
  | .cpb d a b => [⟨17, 6, 0, .regionOp, d.toNat⟩, ⟨11, 6, 0, .regionOp, a.toNat⟩, ⟨5, 6, 0, .quad, b.toNat⟩]
  | .cprAdd d a b => [⟨17, 6, 0, .region, d.toNat⟩, ⟨11, 6, 0, .regionOp, a.toNat⟩, ⟨5, 6, 0, .quad, b.toNat⟩]
  | .cprMin d a b => [⟨17, 6, 0, .region, d.toNat⟩, ⟨11, 6, 0, .regionOp, a.toNat⟩, ⟨5, 6, 0, .quad, b.toNat⟩]
  | .cprMax d a b => [⟨17, 6, 0, .region, d.toNat⟩, ⟨11, 6, 0, .regionOp, a.toNat⟩, ⟨5, 6, 0, .quad, b.toNat⟩]
  | .cprFadd d a b => [⟨17, 6, 0, .region, d.toNat⟩, ⟨11, 6, 0, .regionOp, a.toNat⟩, ⟨5, 6, 0, .quad, b.toNat⟩]
  | .winit d a b => [⟨17, 6, 0, .bar, d.toNat⟩, ⟨11, 6, 0, .vsrc, a.toNat⟩, ⟨5, 6, 0, .vsrc, b.toNat⟩]
  | .wexp d a => [⟨17, 6, 0, .bar, d.toNat⟩, ⟨11, 6, 0, .vsrc, a.toNat⟩, ⟨5, 6, 63, .zero, 0⟩]
  | .warr d => [⟨17, 6, 0, .bar, d.toNat⟩, ⟨11, 6, 63, .zero, 0⟩, ⟨5, 6, 63, .zero, 0⟩]
  | .wwait d => [⟨17, 6, 0, .bar, d.toNat⟩, ⟨11, 6, 63, .zero, 0⟩, ⟨5, 6, 63, .zero, 0⟩]
  | .wtest d a => [⟨17, 6, 0, .pred, d.toNat⟩, ⟨11, 6, 0, .bar, a.toNat⟩, ⟨5, 6, 63, .zero, 0⟩]
  | .fence r k => [⟨17, 6, 63, .zero, 0⟩, ⟨11, 6, 63, .zero, 0⟩, ⟨5, 6, 63, .zero, 0⟩, ⟨0, 5, 0, .fence, r.toNat * 2 ^ 3 + k.toNat⟩]
  | .fencei => [⟨17, 6, 63, .zero, 0⟩, ⟨11, 6, 63, .zero, 0⟩, ⟨5, 6, 63, .zero, 0⟩]
  | .fencer a b r k => [⟨17, 6, 63, .zero, 0⟩, ⟨11, 6, 0, .pair, a.toNat⟩, ⟨5, 6, 0, .pair, b.toNat⟩, ⟨0, 5, 0, .fence, r.toNat * 2 ^ 3 + k.toNat⟩]
  | .mclaim d => [⟨17, 6, 0, .slot, d.toNat⟩, ⟨11, 6, 63, .zero, 0⟩, ⟨5, 6, 63, .zero, 0⟩]
  | .mrel d => [⟨17, 6, 0, .slot, d.toNat⟩, ⟨11, 6, 63, .zero, 0⟩, ⟨5, 6, 63, .zero, 0⟩]
  | .mld d a b => [⟨17, 6, 0, .slot, d.toNat⟩, ⟨11, 6, 0, .regionOp, a.toNat⟩, ⟨5, 6, 0, .quad, b.toNat⟩]
  | .mst d a b => [⟨17, 6, 0, .regionOp, d.toNat⟩, ⟨11, 6, 0, .acc, a.toNat⟩, ⟨5, 6, 0, .quad, b.toNat⟩]
  | .mzero d => [⟨17, 6, 0, .acc, d.toNat⟩, ⟨11, 6, 63, .zero, 0⟩, ⟨5, 6, 63, .zero, 0⟩]
  | .macc d a => [⟨17, 6, 0, .acc, d.toNat⟩, ⟨11, 6, 0, .acc, a.toNat⟩, ⟨5, 6, 63, .zero, 0⟩]
  | .mshape d a => [⟨17, 6, 0, .slot, d.toNat⟩, ⟨11, 6, 0, .vsrc, a.toNat⟩, ⟨5, 6, 63, .zero, 0⟩]
  | .mma d a b c => [⟨17, 6, 0, .acc, d.toNat⟩, ⟨11, 6, 0, .slot, a.toNat⟩, ⟨5, 6, 0, .slot, b.toNat⟩, ⟨0, 5, 0, .free, c.toNat⟩]
  | .spawn d a b => [⟨17, 6, 0, .vdst, d.toNat⟩, ⟨11, 6, 0, .pair, a.toNat⟩, ⟨5, 6, 0, .vsrc, b.toNat⟩]
  | .spawnh d a b => [⟨17, 6, 0, .vdst, d.toNat⟩, ⟨11, 6, 0, .pair, a.toNat⟩, ⟨5, 6, 0, .vsrc, b.toNat⟩]
  | .bin d a => [⟨17, 6, 0, .vdst, d.toNat⟩, ⟨11, 6, 0, .vsrc, a.toNat⟩, ⟨5, 6, 63, .zero, 0⟩]
  | .patch a b => [⟨17, 6, 63, .zero, 0⟩, ⟨11, 6, 0, .pair, a.toNat⟩, ⟨5, 6, 0, .vsrc, b.toNat⟩]
  | .release a => [⟨17, 6, 63, .zero, 0⟩, ⟨11, 6, 0, .pair, a.toNat⟩, ⟨5, 6, 63, .zero, 0⟩]
  | .trap _ n => [⟨17, 6, 63, .zero, 0⟩, ⟨11, 6, 63, .zero, 0⟩, ⟨5, 6, 0, .free, n.toNat⟩]
  | .tret => [⟨17, 6, 63, .zero, 0⟩, ⟨11, 6, 63, .zero, 0⟩, ⟨5, 6, 63, .zero, 0⟩]
  | .tlbi a b => [⟨17, 6, 63, .zero, 0⟩, ⟨11, 6, 0, .pair, a.toNat⟩, ⟨5, 6, 0, .imm 0 3, b.toNat⟩]
  | .preempt a => [⟨17, 6, 63, .zero, 0⟩, ⟨11, 6, 0, .vsrc, a.toNat⟩, ⟨5, 6, 63, .zero, 0⟩]
  | .halt => [⟨17, 6, 63, .zero, 0⟩, ⟨11, 6, 63, .zero, 0⟩, ⟨5, 6, 63, .zero, 0⟩]
  | .brk _ n => [⟨17, 6, 63, .zero, 0⟩, ⟨11, 6, 63, .zero, 0⟩, ⟨5, 6, 0, .free, n.toNat⟩]
  | .rdsp d n => [⟨17, 6, 0, (if systemWide n.toNat then .pair else .vdst), d.toNat⟩, ⟨0, 17, 126976, .system, n.toNat⟩]
  | .wrsp d n => [⟨17, 6, 0, (if systemWide n.toNat then .pair else .vsrc), d.toNat⟩, ⟨0, 17, 126976, .system, n.toNat⟩]
  | .deferredTrap _ | .yieldEnd _ | .carryMessage _ _ _ | .carryFetch _ _ _ _ | .eventWindowReset _ _
  | .loadReply _ | .storeAck _ | .homeRequest _ | .wcDrain _ _ | .req _ | .grant _ | .refuse _ | .recall _
  | .giveup _ | .retSlip _ | .down _ | .up _ | .reloc _ | .hold _ | .ack _ | .slipResend _ | .invalidate _
  | .forward _ | .gone _ | .writeBack _ | .pageRecall _ | .commonsResend _ | .sweepMarker _ | .sweepAck _
  | .packetArrive _ | .packetOld _ | .injectStarve _ | .fabricPacket _ | .creditReturn _ _ | .reachLimit _
  | .flitReceive _ _ _ | .replayRequest _ _ | .linkRetrain _ | .linkSettle _ _ | .linkRetire _ | .chunk _
  | .chunkAck _ | .chunkRetry _ | .chunkResend _ | .close _ _ | .copyComplete _ | .passGrant _ _
  | .passComplete _ _ | .rampEnd _ _ | .launchEntry _ | .waitEntry _ | .waitRecheck _ | .signalEntry _
  | .nopEntry _ | .qctlWrite _ _ | .qtailWrite _ _ | .haltClear _ | .ovfClear _ | .registerWrite _ _ _
  | .phloWrite _ | .phhiWrite _ | .exloWrite _ | .exhiWrite _ | .taintClear _ | .taintClearDone | .kill _
  | .killComplete | .run _ | .preq _ | .symcmdTake | .symcmdReturn | .symTakeEnd | .biasToDevice _ _
  | .biasToHost _ _ | .cxlHostAccess _ _ _ _ | .ccAccess _ _ _ _ | .getVersion _ | .getCapabilities _
  | .negotiateAlgorithms _ _ _ | .getDigests _ | .getCertificate _ | .challenge _ _ | .getMeasurements _ _
  | .keyExchange _ | .reset _ _ | .powerUpWave | .powerMeter _ | .teamStart _ | .regionLoad _ | .loadRetry _
  | .teamEnd _ | .launchComplete _ | .depthExchange _ | .dieDepthExchange _ | .steal _ | .taskAgePromote _
  | .boost _ | .budgetExceeded _ | .budgetEnd _ | .watchdog _ | .borrowWaitPreempt _ | .preemption _
  | .preemptSave _ | .resume _ | .dividerComplete _ _ | .computePhaseEnd _ _ | .tableWalkEnd _ | .birspi _ _
  | .cxlHostLink _ _ | .domainStart _ _ | .uncorrectableError _ _ | .correctedError => []

/-- The first field found at fault, by the detail it draws. -/
def Instr.badField (i : Instr) : Option Nat := i.operands.findSome? (fun o => o.kind.bad o.val)

/-- The minor codes that the opcode map leaves unassigned inside a field that the table gives one instruction: sizes 5 to 7
(R45) and the missing block formats (R42). -/
def Instr.badMinor : Instr → Bool
  | .ld _ _ _ _ z _ | .st _ _ _ _ z _ => decide (5 ≤ z.toNat)
  | .ldl _ _ z | .stl _ _ z | .ldc _ _ z | .stc _ _ z => decide (5 ≤ z.toNat)
  | .sxpk _ _ _ _ f | .sxupk _ _ _ _ f => decide (3 ≤ f.toNat)
  | .zpk _ _ _ _ f | .zupk _ _ _ _ f => decide (2 ≤ f.toNat)
  | .br _ _ | .call _ _ | .fuse _ _ | .brt _ _ | .bra _ _ | .calla _ _ | .ret _ | .join _ | .yield _ | .exit _
  | .nop _ | .mode _ _ | .modg _ _ _ | .add _ _ _ _ | .sub _ _ _ _ | .mul _ _ _ _ | .mulh _ _ _ _ | .div _ _ _
  | .rem _ _ _ | .min _ _ _ _ | .max _ _ _ _ | .abs _ _ _ | .neg _ _ _ | .lea _ _ _ _ _ | .and _ _ _ _
  | .or _ _ _ _ | .xor _ _ _ _ | .andn _ _ _ _ | .not _ _ _ | .shl _ _ _ _ | .shr _ _ _ _ | .sra _ _ _ _
  | .rotl _ _ _ _ | .clz _ _ _ | .ctz _ _ _ | .popc _ _ _ | .brev _ _ _ | .bext _ _ _ _ | .bins _ _ _ _
  | .mov _ _ _ | .ext _ _ _ _ | .cvti _ _ _ _ | .mad _ _ _ _ _ | .madh _ _ _ _ _ | .cmpEq _ _ _ _ | .cmpNe _ _ _ _
  | .cmpLt _ _ _ _ | .cmpLe _ _ _ _ | .cmpGt _ _ _ _ | .cmpGe _ _ _ _ | .sel _ _ _ _ _ _ | .shflAt _ _ _ _
  | .shflRise _ _ _ _ | .shflFall _ _ _ _ | .shflFlip _ _ _ _ | .voteAny _ _ _ | .voteAll _ _ _
  | .voteBallot _ _ _ | .scanAdd _ _ _ | .scanMin _ _ _ | .scanMax _ _ _ | .scanAddx _ _ _ | .pand _ _ _ _
  | .por _ _ _ _ | .pxor _ _ _ _ | .pnot _ _ _ | .movi _ _ _ | .movu _ _ _ | .addi _ _ _ _ | .andi _ _ _ _
  | .ori _ _ _ _ | .xori _ _ _ _ | .shli _ _ _ _ | .shri _ _ _ _ | .fma _ _ _ _ _ | .fadd _ _ _ _ | .fsub _ _ _ _
  | .fmul _ _ _ _ | .fmin _ _ _ _ | .fmax _ _ _ _ | .fabs _ _ _ | .fneg _ _ _ | .fdiv _ _ _ | .fsqrt _ _
  | .frcp _ _ _ | .frsq _ _ _ | .fexp2 _ _ _ | .flog2 _ _ _ | .fdot2 _ _ _ _ | .fclass _ _ _ | .fcmpEq _ _ _ _
  | .fcmpNe _ _ _ _ | .fcmpLt _ _ _ _ | .fcmpLe _ _ _ _ | .fcmpGt _ _ _ _ | .fcmpGe _ _ _ _ | .fcmpUn _ _ _ _
  | .fcmpOr _ _ _ _ | .fcvt _ _ _ _ | .evrd _ _ | .evclr _ | .rds _ _ _ | .wrs _ _ _ | .pub _ _ | .cdef _ _ _
  | .borX _ _ _ | .borS _ _ _ | .borC _ _ _ | .borXW _ _ _ | .borSW _ _ _ | .borCW _ _ _ | .bdown _ | .bup _ _
  | .bsplit _ _ _ | .bjoin _ _ | .bhand _ _ | .bret _ | .bquery _ _ | .pref _ _ _ _ | .cvtaGl _ _ _
  | .cvtaGc _ _ _ | .cvtaLg _ _ _ | .cvtaCg _ _ _ | .inapGlobal _ _ _ | .inapPeer _ _ _ | .inapCluster _ _ _
  | .inapLocal _ _ _ | .bankset _ _ | .fput _ _ | .fget _ _ | .waitc _ | .rld _ _ _ _ _ | .rst _ _ _ _ _
  | .ratmAdd _ _ _ _ _ | .ratmXchg _ _ _ _ _ | .ratmCas _ _ _ _ _ | .aadd _ _ _ _ _ | .asub _ _ _ _ _
  | .amin _ _ _ _ _ | .amax _ _ _ _ _ | .aand _ _ _ _ _ | .aor _ _ _ _ _ | .axor _ _ _ _ _ | .axchg _ _ _ _ _
  | .acas _ _ _ _ _ | .ainc _ _ _ _ _ | .adec _ _ _ _ _ | .afadd _ _ _ _ _ | .ald _ _ _ _ _ | .ast _ _ _ _ _
  | .ahint _ _ | .cpl _ _ _ | .cpb _ _ _ | .cprAdd _ _ _ | .cprMin _ _ _ | .cprMax _ _ _ | .cprFadd _ _ _
  | .winit _ _ _ | .wexp _ _ | .warr _ | .wwait _ | .wtest _ _ | .fence _ _ | .fencei | .fencer _ _ _ _
  | .mclaim _ | .mrel _ | .mld _ _ _ | .mst _ _ _ | .mzero _ | .macc _ _ | .mshape _ _ | .mma _ _ _ _
  | .spawn _ _ _ | .spawnh _ _ _ | .bin _ _ | .patch _ _ | .release _ | .trap _ _ | .tret | .tlbi _ _ | .preempt _
  | .halt | .brk _ _ | .rdsp _ _ | .wrsp _ _ => false
  | .deferredTrap _ | .yieldEnd _ | .carryMessage _ _ _ | .carryFetch _ _ _ _ | .eventWindowReset _ _
  | .loadReply _ | .storeAck _ | .homeRequest _ | .wcDrain _ _ | .req _ | .grant _ | .refuse _ | .recall _
  | .giveup _ | .retSlip _ | .down _ | .up _ | .reloc _ | .hold _ | .ack _ | .slipResend _ | .invalidate _
  | .forward _ | .gone _ | .writeBack _ | .pageRecall _ | .commonsResend _ | .sweepMarker _ | .sweepAck _
  | .packetArrive _ | .packetOld _ | .injectStarve _ | .fabricPacket _ | .creditReturn _ _ | .reachLimit _
  | .flitReceive _ _ _ | .replayRequest _ _ | .linkRetrain _ | .linkSettle _ _ | .linkRetire _ | .chunk _
  | .chunkAck _ | .chunkRetry _ | .chunkResend _ | .close _ _ | .copyComplete _ | .passGrant _ _
  | .passComplete _ _ | .rampEnd _ _ | .launchEntry _ | .waitEntry _ | .waitRecheck _ | .signalEntry _
  | .nopEntry _ | .qctlWrite _ _ | .qtailWrite _ _ | .haltClear _ | .ovfClear _ | .registerWrite _ _ _
  | .phloWrite _ | .phhiWrite _ | .exloWrite _ | .exhiWrite _ | .taintClear _ | .taintClearDone | .kill _
  | .killComplete | .run _ | .preq _ | .symcmdTake | .symcmdReturn | .symTakeEnd | .biasToDevice _ _
  | .biasToHost _ _ | .cxlHostAccess _ _ _ _ | .ccAccess _ _ _ _ | .getVersion _ | .getCapabilities _
  | .negotiateAlgorithms _ _ _ | .getDigests _ | .getCertificate _ | .challenge _ _ | .getMeasurements _ _
  | .keyExchange _ | .reset _ _ | .powerUpWave | .powerMeter _ | .teamStart _ | .regionLoad _ | .loadRetry _
  | .teamEnd _ | .launchComplete _ | .depthExchange _ | .dieDepthExchange _ | .steal _ | .taskAgePromote _
  | .boost _ | .budgetExceeded _ | .budgetEnd _ | .watchdog _ | .borrowWaitPreempt _ | .preemption _
  | .preemptSave _ | .resume _ | .dividerComplete _ _ | .computePhaseEnd _ _ | .tableWalkEnd _ | .birspi _ _
  | .cxlHostLink _ _ | .domainStart _ _ | .uncorrectableError _ _ | .correctedError => false

/-- An instruction that a word can stand for: not an event, with every minor code and field value admitted. -/
def Instr.wf (i : Instr) : Bool := !i.isEvent && !i.badMinor && i.badField.isNone

end Sys2Proof
end

