-- ==== Sys2Proof/Decode.lean ====
section
/-! DEFINITION. Decoding an instruction word, and encoding an instruction (R20 to R48). Decoding is total: a word that is no
instruction is refused by the detail that ILLEGAL_INSTRUCTION reports for it (R36). Steps 1 to 3 of R35 are here; the later
steps need the state and are in Sys2Proof.Machine.Operands. -/

namespace Sys2Proof

/-- A field of n bits from bit lo of a word. -/
def fld (n lo w : Nat) : BitVec n := BitVec.ofNat n (w / 2 ^ lo)

/-- The minor codes of major 0x05: control transfers without an offset. -/
def minorControl (w : Nat) : Except Nat Instr :=
  match w % 32 with
  | 0 => .ok (.bra (fld 3 23 w) (fld 6 11 w))
  | 1 => .ok (.calla (fld 3 23 w) (fld 6 11 w))
  | 2 => .ok (.ret (fld 3 23 w))
  | 3 => .ok (.join (fld 3 23 w))
  | 4 => .ok (.yield (fld 3 23 w))
  | 5 => .ok (.exit (fld 3 23 w))
  | 6 => .ok (.nop (fld 3 23 w))
  | _ => .error 2

/-- The minor codes of major 0x08: integer arithmetic. -/
def minorArith (w : Nat) : Except Nat Instr :=
  match w % 32 with
  | 0 => .ok (.add (fld 3 23 w) (fld 6 17 w) (fld 6 11 w) (fld 6 5 w))
  | 1 => .ok (.sub (fld 3 23 w) (fld 6 17 w) (fld 6 11 w) (fld 6 5 w))
  | 2 => .ok (.mul (fld 3 23 w) (fld 6 17 w) (fld 6 11 w) (fld 6 5 w))
  | 3 => .ok (.mulh (fld 3 23 w) (fld 6 17 w) (fld 6 11 w) (fld 6 5 w))
  | 4 => .ok (.div (fld 6 17 w) (fld 6 11 w) (fld 6 5 w))
  | 5 => .ok (.rem (fld 6 17 w) (fld 6 11 w) (fld 6 5 w))
  | 6 => .ok (.min (fld 3 23 w) (fld 6 17 w) (fld 6 11 w) (fld 6 5 w))
  | 7 => .ok (.max (fld 3 23 w) (fld 6 17 w) (fld 6 11 w) (fld 6 5 w))
  | 8 => .ok (.abs (fld 3 23 w) (fld 6 17 w) (fld 6 11 w))
  | 9 => .ok (.neg (fld 3 23 w) (fld 6 17 w) (fld 6 11 w))
  | 12 | 13 | 14 | 15 => .ok (.lea (fld 3 23 w) (fld 6 17 w) (fld 6 11 w) (fld 6 5 w) (fld 2 0 w))
  | _ => .error 2

/-- The minor codes of major 0x09: bits, shifts and conversions. -/
def minorBits (w : Nat) : Except Nat Instr :=
  match w % 32 with
  | 0 => .ok (.and (fld 3 23 w) (fld 6 17 w) (fld 6 11 w) (fld 6 5 w))
  | 1 => .ok (.or (fld 3 23 w) (fld 6 17 w) (fld 6 11 w) (fld 6 5 w))
  | 2 => .ok (.xor (fld 3 23 w) (fld 6 17 w) (fld 6 11 w) (fld 6 5 w))
  | 3 => .ok (.andn (fld 3 23 w) (fld 6 17 w) (fld 6 11 w) (fld 6 5 w))
  | 4 => .ok (.not (fld 3 23 w) (fld 6 17 w) (fld 6 11 w))
  | 5 => .ok (.shl (fld 3 23 w) (fld 6 17 w) (fld 6 11 w) (fld 6 5 w))
  | 6 => .ok (.shr (fld 3 23 w) (fld 6 17 w) (fld 6 11 w) (fld 6 5 w))
  | 7 => .ok (.sra (fld 3 23 w) (fld 6 17 w) (fld 6 11 w) (fld 6 5 w))
  | 8 => .ok (.rotl (fld 3 23 w) (fld 6 17 w) (fld 6 11 w) (fld 6 5 w))
  | 9 => .ok (.clz (fld 3 23 w) (fld 6 17 w) (fld 6 11 w))
  | 10 => .ok (.ctz (fld 3 23 w) (fld 6 17 w) (fld 6 11 w))
  | 11 => .ok (.popc (fld 3 23 w) (fld 6 17 w) (fld 6 11 w))
  | 12 => .ok (.brev (fld 3 23 w) (fld 6 17 w) (fld 6 11 w))
  | 13 => .ok (.bext (fld 3 23 w) (fld 6 17 w) (fld 6 11 w) (fld 6 5 w))
  | 14 => .ok (.bins (fld 3 23 w) (fld 6 17 w) (fld 6 11 w) (fld 6 5 w))
  | 15 => .ok (.mov (fld 3 23 w) (fld 6 17 w) (fld 6 11 w))
  | 16 => .ok (.ext (fld 3 23 w) (fld 6 17 w) (fld 6 11 w) (fld 6 5 w))
  | 17 => .ok (.cvti (fld 3 23 w) (fld 6 17 w) (fld 6 11 w) (fld 6 5 w))
  | _ => .error 2

/-- The minor codes of major 0x0C: integer comparisons. -/
def minorCompare (w : Nat) : Except Nat Instr :=
  match w % 32 with
  | 0 => .ok (.cmpEq (fld 3 23 w) (fld 6 17 w) (fld 6 11 w) (fld 6 5 w))
  | 1 => .ok (.cmpNe (fld 3 23 w) (fld 6 17 w) (fld 6 11 w) (fld 6 5 w))
  | 2 => .ok (.cmpLt (fld 3 23 w) (fld 6 17 w) (fld 6 11 w) (fld 6 5 w))
  | 3 => .ok (.cmpLe (fld 3 23 w) (fld 6 17 w) (fld 6 11 w) (fld 6 5 w))
  | 4 => .ok (.cmpGt (fld 3 23 w) (fld 6 17 w) (fld 6 11 w) (fld 6 5 w))
  | 5 => .ok (.cmpGe (fld 3 23 w) (fld 6 17 w) (fld 6 11 w) (fld 6 5 w))
  | _ => .error 2

/-- The minor codes of major 0x0E: lane operations. -/
def minorLanes (w : Nat) : Except Nat Instr :=
  match w % 32 with
  | 0 => .ok (.shflAt (fld 3 23 w) (fld 6 17 w) (fld 6 11 w) (fld 6 5 w))
  | 1 => .ok (.shflRise (fld 3 23 w) (fld 6 17 w) (fld 6 11 w) (fld 6 5 w))
  | 2 => .ok (.shflFall (fld 3 23 w) (fld 6 17 w) (fld 6 11 w) (fld 6 5 w))
  | 3 => .ok (.shflFlip (fld 3 23 w) (fld 6 17 w) (fld 6 11 w) (fld 6 5 w))
  | 4 => .ok (.voteAny (fld 3 23 w) (fld 6 17 w) (fld 6 11 w))
  | 5 => .ok (.voteAll (fld 3 23 w) (fld 6 17 w) (fld 6 11 w))
  | 6 => .ok (.voteBallot (fld 3 23 w) (fld 6 17 w) (fld 6 11 w))
  | 8 => .ok (.scanAdd (fld 3 23 w) (fld 6 17 w) (fld 6 11 w))
  | 9 => .ok (.scanMin (fld 3 23 w) (fld 6 17 w) (fld 6 11 w))
  | 10 => .ok (.scanMax (fld 3 23 w) (fld 6 17 w) (fld 6 11 w))
  | 11 => .ok (.scanAddx (fld 3 23 w) (fld 6 17 w) (fld 6 11 w))
  | _ => .error 2

/-- The minor codes of major 0x0F: predicate operations. -/
def minorPreds (w : Nat) : Except Nat Instr :=
  match w % 32 with
  | 0 => .ok (.pand (fld 3 23 w) (fld 6 17 w) (fld 6 11 w) (fld 6 5 w))
  | 1 => .ok (.por (fld 3 23 w) (fld 6 17 w) (fld 6 11 w) (fld 6 5 w))
  | 2 => .ok (.pxor (fld 3 23 w) (fld 6 17 w) (fld 6 11 w) (fld 6 5 w))
  | 3 => .ok (.pnot (fld 3 23 w) (fld 6 17 w) (fld 6 11 w))
  | _ => .error 2

/-- The minor codes of major 0x19: floating point. -/
def minorFloat (w : Nat) : Except Nat Instr :=
  match w % 32 with
  | 0 => .ok (.fadd (fld 3 23 w) (fld 6 17 w) (fld 6 11 w) (fld 6 5 w))
  | 1 => .ok (.fsub (fld 3 23 w) (fld 6 17 w) (fld 6 11 w) (fld 6 5 w))
  | 2 => .ok (.fmul (fld 3 23 w) (fld 6 17 w) (fld 6 11 w) (fld 6 5 w))
  | 3 => .ok (.fmin (fld 3 23 w) (fld 6 17 w) (fld 6 11 w) (fld 6 5 w))
  | 4 => .ok (.fmax (fld 3 23 w) (fld 6 17 w) (fld 6 11 w) (fld 6 5 w))
  | 5 => .ok (.fabs (fld 3 23 w) (fld 6 17 w) (fld 6 11 w))
  | 6 => .ok (.fneg (fld 3 23 w) (fld 6 17 w) (fld 6 11 w))
  | 7 => .ok (.fdiv (fld 6 17 w) (fld 6 11 w) (fld 6 5 w))
  | 8 => .ok (.fsqrt (fld 6 17 w) (fld 6 11 w))
  | 9 => .ok (.frcp (fld 3 23 w) (fld 6 17 w) (fld 6 11 w))
  | 10 => .ok (.frsq (fld 3 23 w) (fld 6 17 w) (fld 6 11 w))
  | 11 => .ok (.fexp2 (fld 3 23 w) (fld 6 17 w) (fld 6 11 w))
  | 12 => .ok (.flog2 (fld 3 23 w) (fld 6 17 w) (fld 6 11 w))
  | 13 => .ok (.fdot2 (fld 3 23 w) (fld 6 17 w) (fld 6 11 w) (fld 6 5 w))
  | 14 => .ok (.fclass (fld 3 23 w) (fld 6 17 w) (fld 6 11 w))
  | _ => .error 2

/-- The minor codes of major 0x1A: float comparisons. -/
def minorFcmp (w : Nat) : Except Nat Instr :=
  match w % 32 with
  | 0 => .ok (.fcmpEq (fld 3 23 w) (fld 6 17 w) (fld 6 11 w) (fld 6 5 w))
  | 1 => .ok (.fcmpNe (fld 3 23 w) (fld 6 17 w) (fld 6 11 w) (fld 6 5 w))
  | 2 => .ok (.fcmpLt (fld 3 23 w) (fld 6 17 w) (fld 6 11 w) (fld 6 5 w))
  | 3 => .ok (.fcmpLe (fld 3 23 w) (fld 6 17 w) (fld 6 11 w) (fld 6 5 w))
  | 4 => .ok (.fcmpGt (fld 3 23 w) (fld 6 17 w) (fld 6 11 w) (fld 6 5 w))
  | 5 => .ok (.fcmpGe (fld 3 23 w) (fld 6 17 w) (fld 6 11 w) (fld 6 5 w))
  | 6 => .ok (.fcmpUn (fld 3 23 w) (fld 6 17 w) (fld 6 11 w) (fld 6 5 w))
  | 7 => .ok (.fcmpOr (fld 3 23 w) (fld 6 17 w) (fld 6 11 w) (fld 6 5 w))
  | _ => .error 2

/-- The minor codes of major 0x1C: block formats. -/
def minorBlocks (w : Nat) : Except Nat Instr :=
  match w / 8 % 4 with
  | 0 => if 3 ≤ w % 4 then .error 2 else .ok (.sxpk (fld 3 23 w) (fld 6 17 w) (fld 6 11 w) (fld 1 2 w) (fld 2 0 w))
  | 1 => if 3 ≤ w % 4 then .error 2 else .ok (.sxupk (fld 3 23 w) (fld 6 17 w) (fld 6 11 w) (fld 1 2 w) (fld 2 0 w))
  | 2 => if 2 ≤ w % 4 then .error 2 else .ok (.zpk (fld 3 23 w) (fld 6 17 w) (fld 6 11 w) (fld 1 2 w) (fld 2 0 w))
  | _ => if 2 ≤ w % 4 then .error 2 else .ok (.zupk (fld 3 23 w) (fld 6 17 w) (fld 6 11 w) (fld 1 2 w) (fld 2 0 w))

/-- The minor codes of major 0x1D: event counters. -/
def minorEvents (w : Nat) : Except Nat Instr :=
  match w % 32 with
  | 0 => .ok (.evrd (fld 6 17 w) (fld 6 5 w))
  | 1 => .ok (.evclr (fld 6 5 w))
  | _ => .error 2

/-- The minor codes of major 0x20: publication. -/
def minorPublish (w : Nat) : Except Nat Instr :=
  match w % 32 with
  | 0 => .ok (.pub (fld 6 11 w) (fld 6 5 w))
  | _ => .error 2

/-- The minor codes of major 0x22: borrows. -/
def minorBorrow (w : Nat) : Except Nat Instr :=
  match w % 32 with
  | 0 => .ok (.borX (fld 6 17 w) (fld 6 11 w) (fld 6 5 w))
  | 1 => .ok (.borS (fld 6 17 w) (fld 6 11 w) (fld 6 5 w))
  | 2 => .ok (.borC (fld 6 17 w) (fld 6 11 w) (fld 6 5 w))
  | 4 => .ok (.borXW (fld 6 17 w) (fld 6 11 w) (fld 6 5 w))
  | 5 => .ok (.borSW (fld 6 17 w) (fld 6 11 w) (fld 6 5 w))
  | 6 => .ok (.borCW (fld 6 17 w) (fld 6 11 w) (fld 6 5 w))
  | 8 => .ok (.bdown (fld 6 5 w))
  | 9 => .ok (.bup (fld 6 17 w) (fld 6 5 w))
  | 10 => .ok (.bsplit (fld 6 17 w) (fld 6 11 w) (fld 6 5 w))
  | 11 => .ok (.bjoin (fld 6 17 w) (fld 6 5 w))
  | 12 => .ok (.bhand (fld 6 11 w) (fld 6 5 w))
  | 13 => .ok (.bret (fld 6 5 w))
  | 14 => .ok (.bquery (fld 6 17 w) (fld 6 5 w))
  | _ => .error 2

/-- The minor codes of major 0x26: team and bank scratch. -/
def minorScratch (w : Nat) : Except Nat Instr :=
  match w / 8 % 4 with
  | 0 => if 5 ≤ w % 8 then .error 2 else .ok (.ldl (fld 6 17 w) (fld 6 11 w) (fld 3 0 w))
  | 1 => if 5 ≤ w % 8 then .error 2 else .ok (.stl (fld 6 17 w) (fld 6 11 w) (fld 3 0 w))
  | 2 => if 5 ≤ w % 8 then .error 2 else .ok (.ldc (fld 6 17 w) (fld 6 11 w) (fld 3 0 w))
  | _ => if 5 ≤ w % 8 then .error 2 else .ok (.stc (fld 6 17 w) (fld 6 11 w) (fld 3 0 w))

/-- The minor codes of major 0x27: address conversions, banks and counters. -/
def minorAddress (w : Nat) : Except Nat Instr :=
  match w % 32 with
  | 0 => .ok (.cvtaGl (fld 3 23 w) (fld 6 17 w) (fld 6 11 w))
  | 1 => .ok (.cvtaGc (fld 3 23 w) (fld 6 17 w) (fld 6 11 w))
  | 2 => .ok (.cvtaLg (fld 3 23 w) (fld 6 17 w) (fld 6 11 w))
  | 3 => .ok (.cvtaCg (fld 3 23 w) (fld 6 17 w) (fld 6 11 w))
  | 4 => .ok (.inapGlobal (fld 3 23 w) (fld 6 17 w) (fld 6 11 w))
  | 5 => .ok (.inapPeer (fld 3 23 w) (fld 6 17 w) (fld 6 11 w))
  | 6 => .ok (.inapCluster (fld 3 23 w) (fld 6 17 w) (fld 6 11 w))
  | 7 => .ok (.inapLocal (fld 3 23 w) (fld 6 17 w) (fld 6 11 w))
  | 8 => .ok (.bankset (fld 6 11 w) (fld 6 5 w))
  | 9 => .ok (.fput (fld 6 11 w) (fld 6 5 w))
  | 10 => .ok (.fget (fld 6 17 w) (fld 6 11 w))
  | 11 => .ok (.waitc (fld 6 5 w))
  | _ => .error 2

/-- The minor codes of major 0x30 to 0x33: commons accesses. -/
def minorAtomic (w : Nat) : Except Nat Instr :=
  match w % 16 with
  | 0 => .ok (.aadd (fld 2 26 w) (fld 6 17 w) (fld 5 12 w) (fld 6 6 w) (fld 2 4 w))
  | 1 => .ok (.asub (fld 2 26 w) (fld 6 17 w) (fld 5 12 w) (fld 6 6 w) (fld 2 4 w))
  | 2 => .ok (.amin (fld 2 26 w) (fld 6 17 w) (fld 5 12 w) (fld 6 6 w) (fld 2 4 w))
  | 3 => .ok (.amax (fld 2 26 w) (fld 6 17 w) (fld 5 12 w) (fld 6 6 w) (fld 2 4 w))
  | 4 => .ok (.aand (fld 2 26 w) (fld 6 17 w) (fld 5 12 w) (fld 6 6 w) (fld 2 4 w))
  | 5 => .ok (.aor (fld 2 26 w) (fld 6 17 w) (fld 5 12 w) (fld 6 6 w) (fld 2 4 w))
  | 6 => .ok (.axor (fld 2 26 w) (fld 6 17 w) (fld 5 12 w) (fld 6 6 w) (fld 2 4 w))
  | 7 => .ok (.axchg (fld 2 26 w) (fld 6 17 w) (fld 5 12 w) (fld 6 6 w) (fld 2 4 w))
  | 8 => .ok (.acas (fld 2 26 w) (fld 6 17 w) (fld 5 12 w) (fld 6 6 w) (fld 2 4 w))
  | 9 => .ok (.ainc (fld 2 26 w) (fld 6 17 w) (fld 5 12 w) (fld 6 6 w) (fld 2 4 w))
  | 10 => .ok (.adec (fld 2 26 w) (fld 6 17 w) (fld 5 12 w) (fld 6 6 w) (fld 2 4 w))
  | 11 => .ok (.afadd (fld 2 26 w) (fld 6 17 w) (fld 5 12 w) (fld 6 6 w) (fld 2 4 w))
  | 12 => if w / 2 ^ 27 % 2 = 1 then .error 2 else .ok (.ald (fld 1 26 w) (fld 6 17 w) (fld 5 12 w) (fld 6 6 w) (fld 2 4 w))
  | 13 => if w / 2 ^ 26 % 2 = 1 then .error 2 else .ok (.ast (fld 1 27 w) (fld 6 17 w) (fld 5 12 w) (fld 6 6 w) (fld 2 4 w))
  | 14 => if w / 2 ^ 26 % 4 ≠ 0 then .error 2 else .ok (.ahint (fld 6 17 w) (fld 5 12 w))
  | _ => .error 2

/-- The minor codes of major 0x34: copies. -/
def minorCopy (w : Nat) : Except Nat Instr :=
  match w % 32 with
  | 0 => .ok (.cpl (fld 6 17 w) (fld 6 11 w) (fld 6 5 w))
  | 1 => .ok (.cpb (fld 6 17 w) (fld 6 11 w) (fld 6 5 w))
  | 4 => .ok (.cprAdd (fld 6 17 w) (fld 6 11 w) (fld 6 5 w))
  | 5 => .ok (.cprMin (fld 6 17 w) (fld 6 11 w) (fld 6 5 w))
  | 6 => .ok (.cprMax (fld 6 17 w) (fld 6 11 w) (fld 6 5 w))
  | 7 => .ok (.cprFadd (fld 6 17 w) (fld 6 11 w) (fld 6 5 w))
  | _ => .error 2

/-- The minor codes of major 0x35: barriers. -/
def minorBarrier (w : Nat) : Except Nat Instr :=
  match w % 32 with
  | 0 => .ok (.winit (fld 6 17 w) (fld 6 11 w) (fld 6 5 w))
  | 1 => .ok (.wexp (fld 6 17 w) (fld 6 11 w))
  | 2 => .ok (.warr (fld 6 17 w))
  | 3 => .ok (.wwait (fld 6 17 w))
  | 4 => .ok (.wtest (fld 6 17 w) (fld 6 11 w))
  | _ => .error 2

/-- The minor codes of major 0x39: the matrix engine. -/
def minorMatrix (w : Nat) : Except Nat Instr :=
  match w % 32 with
  | 0 => .ok (.mclaim (fld 6 17 w))
  | 1 => .ok (.mrel (fld 6 17 w))
  | 2 => .ok (.mld (fld 6 17 w) (fld 6 11 w) (fld 6 5 w))
  | 3 => .ok (.mst (fld 6 17 w) (fld 6 11 w) (fld 6 5 w))
  | 4 => .ok (.mzero (fld 6 17 w))
  | 5 => .ok (.macc (fld 6 17 w) (fld 6 11 w))
  | 6 => .ok (.mshape (fld 6 17 w) (fld 6 11 w))
  | _ => .error 2

/-- The minor codes of major 0x3B: launches. -/
def minorTask (w : Nat) : Except Nat Instr :=
  match w % 32 with
  | 0 => .ok (.spawn (fld 6 17 w) (fld 6 11 w) (fld 6 5 w))
  | 1 => .ok (.spawnh (fld 6 17 w) (fld 6 11 w) (fld 6 5 w))
  | 2 => .ok (.bin (fld 6 17 w) (fld 6 11 w))
  | 3 => .ok (.patch (fld 6 11 w) (fld 6 5 w))
  | 4 => .ok (.release (fld 6 11 w))
  | _ => .error 2

/-- The minor codes of major 0x3C: traps and system instructions. -/
def minorSystem (w : Nat) : Except Nat Instr :=
  match w % 32 with
  | 0 => .ok (.trap (fld 3 23 w) (fld 6 5 w))
  | 1 => .ok (.tret)
  | 2 => .ok (.tlbi (fld 6 11 w) (fld 6 5 w))
  | 3 => .ok (.preempt (fld 6 11 w))
  | 4 => .ok (.halt)
  | 5 => .ok (.brk (fld 3 23 w) (fld 6 5 w))
  | _ => .error 2

/-- Step 1 of R35: the row of the opcode map that a word names, or the detail of an unassigned code (R37 to R48). -/
def candidate (w : Nat) : Except Nat Instr :=
  match w / 2 ^ 26 % 64 with
  | 0x01 => .ok (.br (fld 3 23 w) (fld 23 0 w))
  | 0x02 => .ok (.call (fld 3 23 w) (fld 23 0 w))
  | 0x03 => .ok (.fuse (fld 3 23 w) (fld 23 0 w))
  | 0x04 => .ok (.brt (fld 6 11 w) (fld 11 0 w))
  | 0x05 => minorControl w
  | 0x06 => .ok (.mode (fld 3 23 w) (fld 16 0 w))
  | 0x07 => .ok (.modg (fld 3 23 w) (fld 1 3 w) (fld 3 0 w))
  | 0x08 => minorArith w
  | 0x09 => minorBits w
  | 0x0A => .ok (.mad (fld 3 23 w) (fld 6 17 w) (fld 6 11 w) (fld 6 5 w) (fld 5 0 w))
  | 0x0B => .ok (.madh (fld 3 23 w) (fld 6 17 w) (fld 6 11 w) (fld 6 5 w) (fld 5 0 w))
  | 0x0C => minorCompare w
  | 0x0D => .ok (.sel (fld 3 23 w) (fld 6 17 w) (fld 6 11 w) (fld 6 5 w) (fld 1 3 w) (fld 3 0 w))
  | 0x0E => minorLanes w
  | 0x0F => minorPreds w
  | 0x10 => .ok (.movi (fld 3 23 w) (fld 6 17 w) (fld 17 0 w))
  | 0x11 => .ok (.movu (fld 3 23 w) (fld 6 17 w) (fld 17 0 w))
  | 0x12 => .ok (.addi (fld 3 23 w) (fld 6 17 w) (fld 6 11 w) (fld 11 0 w))
  | 0x13 => .ok (.andi (fld 3 23 w) (fld 6 17 w) (fld 6 11 w) (fld 11 0 w))
  | 0x14 => .ok (.ori (fld 3 23 w) (fld 6 17 w) (fld 6 11 w) (fld 11 0 w))
  | 0x15 => .ok (.xori (fld 3 23 w) (fld 6 17 w) (fld 6 11 w) (fld 11 0 w))
  | 0x16 => .ok (.shli (fld 3 23 w) (fld 6 17 w) (fld 6 11 w) (fld 6 0 w))
  | 0x17 => .ok (.shri (fld 3 23 w) (fld 6 17 w) (fld 6 11 w) (fld 6 0 w))
  | 0x18 => .ok (.fma (fld 3 23 w) (fld 6 17 w) (fld 6 11 w) (fld 6 5 w) (fld 5 0 w))
  | 0x19 => minorFloat w
  | 0x1A => minorFcmp w
  | 0x1B => .ok (.fcvt (fld 3 23 w) (fld 6 17 w) (fld 6 11 w) (fld 4 0 w))
  | 0x1C => minorBlocks w
  | 0x1D => minorEvents w
  | 0x1E => .ok (.rds (fld 3 23 w) (fld 6 17 w) (fld 12 0 w))
  | 0x1F => .ok (.wrs (fld 3 23 w) (fld 6 17 w) (fld 12 0 w))
  | 0x20 => minorPublish w
  | 0x21 => .ok (.cdef (fld 6 17 w) (fld 2 11 w) (fld 10 0 w))
  | 0x22 => minorBorrow w
  | 0x24 => if 5 ≤ w / 2 % 8 then .error 2 else .ok (.ld (fld 6 17 w) (fld 5 12 w) (fld 6 6 w) (fld 2 4 w) (fld 3 1 w) (fld 1 0 w))
  | 0x25 => if 5 ≤ w / 2 % 8 then .error 2 else .ok (.st (fld 6 17 w) (fld 5 12 w) (fld 6 6 w) (fld 2 4 w) (fld 3 1 w) (fld 1 0 w))
  | 0x26 => minorScratch w
  | 0x27 => minorAddress w
  | 0x28 => .ok (.pref (fld 5 12 w) (fld 6 6 w) (fld 2 4 w) (fld 1 0 w))
  | 0x2A => .ok (.rld (fld 6 17 w) (fld 6 11 w) (fld 6 5 w) (fld 2 3 w) (fld 3 0 w))
  | 0x2B => .ok (.rst (fld 6 17 w) (fld 6 11 w) (fld 6 5 w) (fld 2 3 w) (fld 3 0 w))
  | 0x2C => .ok (.ratmAdd (fld 6 17 w) (fld 6 11 w) (fld 6 5 w) (fld 2 3 w) (fld 3 0 w))
  | 0x2D => .ok (.ratmXchg (fld 6 17 w) (fld 6 11 w) (fld 6 5 w) (fld 2 3 w) (fld 3 0 w))
  | 0x2E => .ok (.ratmCas (fld 6 17 w) (fld 6 11 w) (fld 6 5 w) (fld 2 3 w) (fld 3 0 w))
  | 0x30 | 0x31 | 0x32 | 0x33 => minorAtomic w
  | 0x34 => minorCopy w
  | 0x35 => minorBarrier w
  | 0x36 => if w % 32 = 0 then .ok (.fencei) else .ok (.fence (fld 2 3 w) (fld 3 0 w))
  | 0x37 => .ok (.fencer (fld 6 11 w) (fld 6 5 w) (fld 2 3 w) (fld 3 0 w))
  | 0x39 => minorMatrix w
  | 0x3A => .ok (.mma (fld 6 17 w) (fld 6 11 w) (fld 6 5 w) (fld 5 0 w))
  | 0x3B => minorTask w
  | 0x3C => minorSystem w
  | 0x3D => .ok (.rdsp (fld 6 17 w) (fld 12 0 w))
  | 0x3E => .ok (.wrsp (fld 6 17 w) (fld 12 0 w))
  | _ => .error 1

/-- Step 2 of R35 in a word: the first field at fault; within a field the bits that must be zero come first. -/
def fieldFault (w : Nat) (os : List Operand) : Option Nat :=
  os.findSome? (fun o => if (w / 2 ^ o.lo % 2 ^ o.width) &&& o.zeros = 0 then o.kind.bad o.val else some 4)

/-- The instruction that a 32-bit word stands for, or the detail of ILLEGAL_INSTRUCTION it draws (R35 steps 1 to 3). -/
def decode (w : Nat) : Except Nat Instr :=
  match candidate w with
  | .error e => .error e
  | .ok i =>
    match fieldFault w i.operands with
    | some e => .error e
    | none => if i.isVariable && w / 2 ^ 23 % 8 != 0 then .error 5 else .ok i

/-- The word of four bytes, stored least significant first (R20). -/
def wordOfBytes : List (BitVec 8) → Nat
  | [] => 0
  | b :: bs => b.toNat + 256 * wordOfBytes bs

/-- Decode from bytes: the instruction of the first word and the bytes that follow it; fewer than four bytes hold no word. -/
def decodeBytes (bs : List (BitVec 8)) : Except Nat (Instr × List (BitVec 8)) :=
  if bs.length < 4 then .error 1
  else match decode (wordOfBytes (bs.take 4)) with
    | .error e => .error e
    | .ok i => .ok (i, bs.drop 4)

/-- The n low bytes of a number, least significant first (R20). -/
def bytesOf : Nat → Nat → List (BitVec 8)
  | 0, _ => []
  | n + 1, w => BitVec.ofNat 8 w :: bytesOf n (w / 256)

/-- The instruction of a word numbered as the opcode table numbers it: laid out in memory and decoded. -/
def decodeTableWord (nbits w : Nat) : Option Instr :=
  match decodeBytes (bytesOf 4 (w % 2 ^ nbits)) with
  | .error _ => none
  | .ok (i, _) => some i

/-- A word from its fixed bits and its fields, each a value with its lowest bit (R21). -/
def word : Nat → List (Nat × Nat) → Nat
  | b, [] => b
  | b, (v, lo) :: fs => word (b + v * 2 ^ lo) fs

/-- The word of an instruction, from the opcode map (R37 to R48). An event has no word; the number given for it is that of
no instruction (R36). -/
def encode : Instr → Nat
  | .br s o => word 0x4000000 [(s.toNat, 23), (o.toNat, 0)]
  | .call s o => word 0x8000000 [(s.toNat, 23), (o.toNat, 0)]
  | .fuse s o => word 0xc000000 [(s.toNat, 23), (o.toNat, 0)]
  | .brt a n => word 0x10000000 [(a.toNat, 11), (n.toNat, 0)]
  | .bra s a => word 0x14000000 [(s.toNat, 23), (a.toNat, 11)]
  | .calla s a => word 0x14000001 [(s.toNat, 23), (a.toNat, 11)]
  | .ret s => word 0x14000002 [(s.toNat, 23)]
  | .join s => word 0x14000003 [(s.toNat, 23)]
  | .yield s => word 0x14000004 [(s.toNat, 23)]
  | .exit s => word 0x14000005 [(s.toNat, 23)]
  | .nop s => word 0x14000006 [(s.toNat, 23)]
  | .mode s m => word 0x18000000 [(s.toNat, 23), (m.toNat, 0)]
  | .modg s n p => word 0x1c000000 [(s.toNat, 23), (n.toNat, 3), (p.toNat, 0)]
  | .add s d a b => word 0x20000000 [(s.toNat, 23), (d.toNat, 17), (a.toNat, 11), (b.toNat, 5)]
  | .sub s d a b => word 0x20000001 [(s.toNat, 23), (d.toNat, 17), (a.toNat, 11), (b.toNat, 5)]
  | .mul s d a b => word 0x20000002 [(s.toNat, 23), (d.toNat, 17), (a.toNat, 11), (b.toNat, 5)]
  | .mulh s d a b => word 0x20000003 [(s.toNat, 23), (d.toNat, 17), (a.toNat, 11), (b.toNat, 5)]
  | .div d a b => word 0x20000004 [(d.toNat, 17), (a.toNat, 11), (b.toNat, 5)]
  | .rem d a b => word 0x20000005 [(d.toNat, 17), (a.toNat, 11), (b.toNat, 5)]
  | .min s d a b => word 0x20000006 [(s.toNat, 23), (d.toNat, 17), (a.toNat, 11), (b.toNat, 5)]
  | .max s d a b => word 0x20000007 [(s.toNat, 23), (d.toNat, 17), (a.toNat, 11), (b.toNat, 5)]
  | .abs s d a => word 0x20000008 [(s.toNat, 23), (d.toNat, 17), (a.toNat, 11)]
  | .neg s d a => word 0x20000009 [(s.toNat, 23), (d.toNat, 17), (a.toNat, 11)]
  | .lea s d a b x => word 0x2000000c [(s.toNat, 23), (d.toNat, 17), (a.toNat, 11), (b.toNat, 5), (x.toNat, 0)]
  | .and s d a b => word 0x24000000 [(s.toNat, 23), (d.toNat, 17), (a.toNat, 11), (b.toNat, 5)]
  | .or s d a b => word 0x24000001 [(s.toNat, 23), (d.toNat, 17), (a.toNat, 11), (b.toNat, 5)]
  | .xor s d a b => word 0x24000002 [(s.toNat, 23), (d.toNat, 17), (a.toNat, 11), (b.toNat, 5)]
  | .andn s d a b => word 0x24000003 [(s.toNat, 23), (d.toNat, 17), (a.toNat, 11), (b.toNat, 5)]
  | .not s d a => word 0x24000004 [(s.toNat, 23), (d.toNat, 17), (a.toNat, 11)]
  | .shl s d a b => word 0x24000005 [(s.toNat, 23), (d.toNat, 17), (a.toNat, 11), (b.toNat, 5)]
  | .shr s d a b => word 0x24000006 [(s.toNat, 23), (d.toNat, 17), (a.toNat, 11), (b.toNat, 5)]
  | .sra s d a b => word 0x24000007 [(s.toNat, 23), (d.toNat, 17), (a.toNat, 11), (b.toNat, 5)]
  | .rotl s d a b => word 0x24000008 [(s.toNat, 23), (d.toNat, 17), (a.toNat, 11), (b.toNat, 5)]
  | .clz s d a => word 0x24000009 [(s.toNat, 23), (d.toNat, 17), (a.toNat, 11)]
  | .ctz s d a => word 0x2400000a [(s.toNat, 23), (d.toNat, 17), (a.toNat, 11)]
  | .popc s d a => word 0x2400000b [(s.toNat, 23), (d.toNat, 17), (a.toNat, 11)]
  | .brev s d a => word 0x2400000c [(s.toNat, 23), (d.toNat, 17), (a.toNat, 11)]
  | .bext s d a b => word 0x2400000d [(s.toNat, 23), (d.toNat, 17), (a.toNat, 11), (b.toNat, 5)]
  | .bins s d a b => word 0x2400000e [(s.toNat, 23), (d.toNat, 17), (a.toNat, 11), (b.toNat, 5)]
  | .mov s d a => word 0x2400000f [(s.toNat, 23), (d.toNat, 17), (a.toNat, 11)]
  | .ext s d a w => word 0x24000010 [(s.toNat, 23), (d.toNat, 17), (a.toNat, 11), (w.toNat, 5)]
  | .cvti s d a e => word 0x24000011 [(s.toNat, 23), (d.toNat, 17), (a.toNat, 11), (e.toNat, 5)]
  | .mad s d a b c => word 0x28000000 [(s.toNat, 23), (d.toNat, 17), (a.toNat, 11), (b.toNat, 5), (c.toNat, 0)]
  | .madh s d a b c => word 0x2c000000 [(s.toNat, 23), (d.toNat, 17), (a.toNat, 11), (b.toNat, 5), (c.toNat, 0)]
  | .cmpEq s d a b => word 0x30000000 [(s.toNat, 23), (d.toNat, 17), (a.toNat, 11), (b.toNat, 5)]
  | .cmpNe s d a b => word 0x30000001 [(s.toNat, 23), (d.toNat, 17), (a.toNat, 11), (b.toNat, 5)]
  | .cmpLt s d a b => word 0x30000002 [(s.toNat, 23), (d.toNat, 17), (a.toNat, 11), (b.toNat, 5)]
  | .cmpLe s d a b => word 0x30000003 [(s.toNat, 23), (d.toNat, 17), (a.toNat, 11), (b.toNat, 5)]
  | .cmpGt s d a b => word 0x30000004 [(s.toNat, 23), (d.toNat, 17), (a.toNat, 11), (b.toNat, 5)]
  | .cmpGe s d a b => word 0x30000005 [(s.toNat, 23), (d.toNat, 17), (a.toNat, 11), (b.toNat, 5)]
  | .sel s d a b n p => word 0x34000000 [(s.toNat, 23), (d.toNat, 17), (a.toNat, 11), (b.toNat, 5), (n.toNat, 3), (p.toNat, 0)]
  | .shflAt s d a b => word 0x38000000 [(s.toNat, 23), (d.toNat, 17), (a.toNat, 11), (b.toNat, 5)]
  | .shflRise s d a b => word 0x38000001 [(s.toNat, 23), (d.toNat, 17), (a.toNat, 11), (b.toNat, 5)]
  | .shflFall s d a b => word 0x38000002 [(s.toNat, 23), (d.toNat, 17), (a.toNat, 11), (b.toNat, 5)]
  | .shflFlip s d a b => word 0x38000003 [(s.toNat, 23), (d.toNat, 17), (a.toNat, 11), (b.toNat, 5)]
  | .voteAny s d a => word 0x38000004 [(s.toNat, 23), (d.toNat, 17), (a.toNat, 11)]
  | .voteAll s d a => word 0x38000005 [(s.toNat, 23), (d.toNat, 17), (a.toNat, 11)]
  | .voteBallot s d a => word 0x38000006 [(s.toNat, 23), (d.toNat, 17), (a.toNat, 11)]
  | .scanAdd s d a => word 0x38000008 [(s.toNat, 23), (d.toNat, 17), (a.toNat, 11)]
  | .scanMin s d a => word 0x38000009 [(s.toNat, 23), (d.toNat, 17), (a.toNat, 11)]
  | .scanMax s d a => word 0x3800000a [(s.toNat, 23), (d.toNat, 17), (a.toNat, 11)]
  | .scanAddx s d a => word 0x3800000b [(s.toNat, 23), (d.toNat, 17), (a.toNat, 11)]
  | .pand s d a b => word 0x3c000000 [(s.toNat, 23), (d.toNat, 17), (a.toNat, 11), (b.toNat, 5)]
  | .por s d a b => word 0x3c000001 [(s.toNat, 23), (d.toNat, 17), (a.toNat, 11), (b.toNat, 5)]
  | .pxor s d a b => word 0x3c000002 [(s.toNat, 23), (d.toNat, 17), (a.toNat, 11), (b.toNat, 5)]
  | .pnot s d a => word 0x3c000003 [(s.toNat, 23), (d.toNat, 17), (a.toNat, 11)]
  | .movi s d i => word 0x40000000 [(s.toNat, 23), (d.toNat, 17), (i.toNat, 0)]
  | .movu s d i => word 0x44000000 [(s.toNat, 23), (d.toNat, 17), (i.toNat, 0)]
  | .addi s d a i => word 0x48000000 [(s.toNat, 23), (d.toNat, 17), (a.toNat, 11), (i.toNat, 0)]
  | .andi s d a i => word 0x4c000000 [(s.toNat, 23), (d.toNat, 17), (a.toNat, 11), (i.toNat, 0)]
  | .ori s d a i => word 0x50000000 [(s.toNat, 23), (d.toNat, 17), (a.toNat, 11), (i.toNat, 0)]
  | .xori s d a i => word 0x54000000 [(s.toNat, 23), (d.toNat, 17), (a.toNat, 11), (i.toNat, 0)]
  | .shli s d a c => word 0x58000000 [(s.toNat, 23), (d.toNat, 17), (a.toNat, 11), (c.toNat, 0)]
  | .shri s d a c => word 0x5c000000 [(s.toNat, 23), (d.toNat, 17), (a.toNat, 11), (c.toNat, 0)]
  | .fma s d a b c => word 0x60000000 [(s.toNat, 23), (d.toNat, 17), (a.toNat, 11), (b.toNat, 5), (c.toNat, 0)]
  | .fadd s d a b => word 0x64000000 [(s.toNat, 23), (d.toNat, 17), (a.toNat, 11), (b.toNat, 5)]
  | .fsub s d a b => word 0x64000001 [(s.toNat, 23), (d.toNat, 17), (a.toNat, 11), (b.toNat, 5)]
  | .fmul s d a b => word 0x64000002 [(s.toNat, 23), (d.toNat, 17), (a.toNat, 11), (b.toNat, 5)]
  | .fmin s d a b => word 0x64000003 [(s.toNat, 23), (d.toNat, 17), (a.toNat, 11), (b.toNat, 5)]
  | .fmax s d a b => word 0x64000004 [(s.toNat, 23), (d.toNat, 17), (a.toNat, 11), (b.toNat, 5)]
  | .fabs s d a => word 0x64000005 [(s.toNat, 23), (d.toNat, 17), (a.toNat, 11)]
  | .fneg s d a => word 0x64000006 [(s.toNat, 23), (d.toNat, 17), (a.toNat, 11)]
  | .fdiv d a b => word 0x64000007 [(d.toNat, 17), (a.toNat, 11), (b.toNat, 5)]
  | .fsqrt d a => word 0x64000008 [(d.toNat, 17), (a.toNat, 11)]
  | .frcp s d a => word 0x64000009 [(s.toNat, 23), (d.toNat, 17), (a.toNat, 11)]
  | .frsq s d a => word 0x6400000a [(s.toNat, 23), (d.toNat, 17), (a.toNat, 11)]
  | .fexp2 s d a => word 0x6400000b [(s.toNat, 23), (d.toNat, 17), (a.toNat, 11)]
  | .flog2 s d a => word 0x6400000c [(s.toNat, 23), (d.toNat, 17), (a.toNat, 11)]
  | .fdot2 s d a b => word 0x6400000d [(s.toNat, 23), (d.toNat, 17), (a.toNat, 11), (b.toNat, 5)]
  | .fclass s d a => word 0x6400000e [(s.toNat, 23), (d.toNat, 17), (a.toNat, 11)]
  | .fcmpEq s d a b => word 0x68000000 [(s.toNat, 23), (d.toNat, 17), (a.toNat, 11), (b.toNat, 5)]
  | .fcmpNe s d a b => word 0x68000001 [(s.toNat, 23), (d.toNat, 17), (a.toNat, 11), (b.toNat, 5)]
  | .fcmpLt s d a b => word 0x68000002 [(s.toNat, 23), (d.toNat, 17), (a.toNat, 11), (b.toNat, 5)]
  | .fcmpLe s d a b => word 0x68000003 [(s.toNat, 23), (d.toNat, 17), (a.toNat, 11), (b.toNat, 5)]
  | .fcmpGt s d a b => word 0x68000004 [(s.toNat, 23), (d.toNat, 17), (a.toNat, 11), (b.toNat, 5)]
  | .fcmpGe s d a b => word 0x68000005 [(s.toNat, 23), (d.toNat, 17), (a.toNat, 11), (b.toNat, 5)]
  | .fcmpUn s d a b => word 0x68000006 [(s.toNat, 23), (d.toNat, 17), (a.toNat, 11), (b.toNat, 5)]
  | .fcmpOr s d a b => word 0x68000007 [(s.toNat, 23), (d.toNat, 17), (a.toNat, 11), (b.toNat, 5)]
  | .fcvt s d a e => word 0x6c000000 [(s.toNat, 23), (d.toNat, 17), (a.toNat, 11), (e.toNat, 0)]
  | .sxpk s d a l f => word 0x70000000 [(s.toNat, 23), (d.toNat, 17), (a.toNat, 11), (l.toNat, 2), (f.toNat, 0)]
  | .sxupk s d a l f => word 0x70000008 [(s.toNat, 23), (d.toNat, 17), (a.toNat, 11), (l.toNat, 2), (f.toNat, 0)]
  | .zpk s d a l f => word 0x70000010 [(s.toNat, 23), (d.toNat, 17), (a.toNat, 11), (l.toNat, 2), (f.toNat, 0)]
  | .zupk s d a l f => word 0x70000018 [(s.toNat, 23), (d.toNat, 17), (a.toNat, 11), (l.toNat, 2), (f.toNat, 0)]
  | .evrd d c => word 0x74000000 [(d.toNat, 17), (c.toNat, 5)]
  | .evclr c => word 0x74000001 [(c.toNat, 5)]
  | .rds s d n => word 0x78000000 [(s.toNat, 23), (d.toNat, 17), (n.toNat, 0)]
  | .wrs s d n => word 0x7c000000 [(s.toNat, 23), (d.toNat, 17), (n.toNat, 0)]
  | .pub a j => word 0x80000000 [(a.toNat, 11), (j.toNat, 5)]
  | .cdef d j k => word 0x84000000 [(d.toNat, 17), (j.toNat, 11), (k.toNat, 0)]
  | .borX d a b => word 0x88000000 [(d.toNat, 17), (a.toNat, 11), (b.toNat, 5)]
  | .borS d a b => word 0x88000001 [(d.toNat, 17), (a.toNat, 11), (b.toNat, 5)]
  | .borC d a b => word 0x88000002 [(d.toNat, 17), (a.toNat, 11), (b.toNat, 5)]
  | .borXW d a b => word 0x88000004 [(d.toNat, 17), (a.toNat, 11), (b.toNat, 5)]
  | .borSW d a b => word 0x88000005 [(d.toNat, 17), (a.toNat, 11), (b.toNat, 5)]
  | .borCW d a b => word 0x88000006 [(d.toNat, 17), (a.toNat, 11), (b.toNat, 5)]
  | .bdown b => word 0x88000008 [(b.toNat, 5)]
  | .bup d b => word 0x88000009 [(d.toNat, 17), (b.toNat, 5)]
  | .bsplit d a b => word 0x8800000a [(d.toNat, 17), (a.toNat, 11), (b.toNat, 5)]
  | .bjoin d b => word 0x8800000b [(d.toNat, 17), (b.toNat, 5)]
  | .bhand a b => word 0x8800000c [(a.toNat, 11), (b.toNat, 5)]
  | .bret b => word 0x8800000d [(b.toNat, 5)]
  | .bquery d b => word 0x8800000e [(d.toNat, 17), (b.toNat, 5)]
  | .ld d g a k z h => word 0x90000000 [(d.toNat, 17), (g.toNat, 12), (a.toNat, 6), (k.toNat, 4), (z.toNat, 1), (h.toNat, 0)]
  | .st d g a k z h => word 0x94000000 [(d.toNat, 17), (g.toNat, 12), (a.toNat, 6), (k.toNat, 4), (z.toNat, 1), (h.toNat, 0)]
  | .pref g a k h => word 0xa0000000 [(g.toNat, 12), (a.toNat, 6), (k.toNat, 4), (h.toNat, 0)]
  | .ldl d a z => word 0x98000000 [(d.toNat, 17), (a.toNat, 11), (z.toNat, 0)]
  | .stl d a z => word 0x98000008 [(d.toNat, 17), (a.toNat, 11), (z.toNat, 0)]
  | .ldc d a z => word 0x98000010 [(d.toNat, 17), (a.toNat, 11), (z.toNat, 0)]
  | .stc d a z => word 0x98000018 [(d.toNat, 17), (a.toNat, 11), (z.toNat, 0)]
  | .cvtaGl s d a => word 0x9c000000 [(s.toNat, 23), (d.toNat, 17), (a.toNat, 11)]
  | .cvtaGc s d a => word 0x9c000001 [(s.toNat, 23), (d.toNat, 17), (a.toNat, 11)]
  | .cvtaLg s d a => word 0x9c000002 [(s.toNat, 23), (d.toNat, 17), (a.toNat, 11)]
  | .cvtaCg s d a => word 0x9c000003 [(s.toNat, 23), (d.toNat, 17), (a.toNat, 11)]
  | .inapGlobal s d a => word 0x9c000004 [(s.toNat, 23), (d.toNat, 17), (a.toNat, 11)]
  | .inapPeer s d a => word 0x9c000005 [(s.toNat, 23), (d.toNat, 17), (a.toNat, 11)]
  | .inapCluster s d a => word 0x9c000006 [(s.toNat, 23), (d.toNat, 17), (a.toNat, 11)]
  | .inapLocal s d a => word 0x9c000007 [(s.toNat, 23), (d.toNat, 17), (a.toNat, 11)]
  | .bankset a b => word 0x9c000008 [(a.toNat, 11), (b.toNat, 5)]
  | .fput a b => word 0x9c000009 [(a.toNat, 11), (b.toNat, 5)]
  | .fget d a => word 0x9c00000a [(d.toNat, 17), (a.toNat, 11)]
  | .waitc m => word 0x9c00000b [(m.toNat, 5)]
  | .rld d p o k g => word 0xa8000000 [(d.toNat, 17), (p.toNat, 11), (o.toNat, 5), (k.toNat, 3), (g.toNat, 0)]
  | .rst d p o k g => word 0xac000000 [(d.toNat, 17), (p.toNat, 11), (o.toNat, 5), (k.toNat, 3), (g.toNat, 0)]
  | .ratmAdd d p o k g => word 0xb0000000 [(d.toNat, 17), (p.toNat, 11), (o.toNat, 5), (k.toNat, 3), (g.toNat, 0)]
  | .ratmXchg d p o k g => word 0xb4000000 [(d.toNat, 17), (p.toNat, 11), (o.toNat, 5), (k.toNat, 3), (g.toNat, 0)]
  | .ratmCas d p o k g => word 0xb8000000 [(d.toNat, 17), (p.toNat, 11), (o.toNat, 5), (k.toNat, 3), (g.toNat, 0)]
  | .aadd q d g a k => word 0xc0000000 [(q.toNat, 26), (d.toNat, 17), (g.toNat, 12), (a.toNat, 6), (k.toNat, 4)]
  | .asub q d g a k => word 0xc0000001 [(q.toNat, 26), (d.toNat, 17), (g.toNat, 12), (a.toNat, 6), (k.toNat, 4)]
  | .amin q d g a k => word 0xc0000002 [(q.toNat, 26), (d.toNat, 17), (g.toNat, 12), (a.toNat, 6), (k.toNat, 4)]
  | .amax q d g a k => word 0xc0000003 [(q.toNat, 26), (d.toNat, 17), (g.toNat, 12), (a.toNat, 6), (k.toNat, 4)]
  | .aand q d g a k => word 0xc0000004 [(q.toNat, 26), (d.toNat, 17), (g.toNat, 12), (a.toNat, 6), (k.toNat, 4)]
  | .aor q d g a k => word 0xc0000005 [(q.toNat, 26), (d.toNat, 17), (g.toNat, 12), (a.toNat, 6), (k.toNat, 4)]
  | .axor q d g a k => word 0xc0000006 [(q.toNat, 26), (d.toNat, 17), (g.toNat, 12), (a.toNat, 6), (k.toNat, 4)]
  | .axchg q d g a k => word 0xc0000007 [(q.toNat, 26), (d.toNat, 17), (g.toNat, 12), (a.toNat, 6), (k.toNat, 4)]
  | .acas q d g a k => word 0xc0000008 [(q.toNat, 26), (d.toNat, 17), (g.toNat, 12), (a.toNat, 6), (k.toNat, 4)]
  | .ainc q d g a k => word 0xc0000009 [(q.toNat, 26), (d.toNat, 17), (g.toNat, 12), (a.toNat, 6), (k.toNat, 4)]
  | .adec q d g a k => word 0xc000000a [(q.toNat, 26), (d.toNat, 17), (g.toNat, 12), (a.toNat, 6), (k.toNat, 4)]
  | .afadd q d g a k => word 0xc000000b [(q.toNat, 26), (d.toNat, 17), (g.toNat, 12), (a.toNat, 6), (k.toNat, 4)]
  | .ald q d g a k => word 0xc000000c [(q.toNat, 26), (d.toNat, 17), (g.toNat, 12), (a.toNat, 6), (k.toNat, 4)]
  | .ast q d g a k => word 0xc000000d [(q.toNat, 27), (d.toNat, 17), (g.toNat, 12), (a.toNat, 6), (k.toNat, 4)]
  | .ahint h g => word 0xc000000e [(h.toNat, 17), (g.toNat, 12)]
  | .cpl d a b => word 0xd0000000 [(d.toNat, 17), (a.toNat, 11), (b.toNat, 5)]
  | .cpb d a b => word 0xd0000001 [(d.toNat, 17), (a.toNat, 11), (b.toNat, 5)]
  | .cprAdd d a b => word 0xd0000004 [(d.toNat, 17), (a.toNat, 11), (b.toNat, 5)]
  | .cprMin d a b => word 0xd0000005 [(d.toNat, 17), (a.toNat, 11), (b.toNat, 5)]
  | .cprMax d a b => word 0xd0000006 [(d.toNat, 17), (a.toNat, 11), (b.toNat, 5)]
  | .cprFadd d a b => word 0xd0000007 [(d.toNat, 17), (a.toNat, 11), (b.toNat, 5)]
  | .winit d a b => word 0xd4000000 [(d.toNat, 17), (a.toNat, 11), (b.toNat, 5)]
  | .wexp d a => word 0xd4000001 [(d.toNat, 17), (a.toNat, 11)]
  | .warr d => word 0xd4000002 [(d.toNat, 17)]
  | .wwait d => word 0xd4000003 [(d.toNat, 17)]
  | .wtest d a => word 0xd4000004 [(d.toNat, 17), (a.toNat, 11)]
  | .fence r k => word 0xd8000000 [(r.toNat, 3), (k.toNat, 0)]
  | .fencei => word 0xd8000000 []
  | .fencer a b r k => word 0xdc000000 [(a.toNat, 11), (b.toNat, 5), (r.toNat, 3), (k.toNat, 0)]
  | .mclaim d => word 0xe4000000 [(d.toNat, 17)]
  | .mrel d => word 0xe4000001 [(d.toNat, 17)]
  | .mld d a b => word 0xe4000002 [(d.toNat, 17), (a.toNat, 11), (b.toNat, 5)]
  | .mst d a b => word 0xe4000003 [(d.toNat, 17), (a.toNat, 11), (b.toNat, 5)]
  | .mzero d => word 0xe4000004 [(d.toNat, 17)]
  | .macc d a => word 0xe4000005 [(d.toNat, 17), (a.toNat, 11)]
  | .mshape d a => word 0xe4000006 [(d.toNat, 17), (a.toNat, 11)]
  | .mma d a b c => word 0xe8000000 [(d.toNat, 17), (a.toNat, 11), (b.toNat, 5), (c.toNat, 0)]
  | .spawn d a b => word 0xec000000 [(d.toNat, 17), (a.toNat, 11), (b.toNat, 5)]
  | .spawnh d a b => word 0xec000001 [(d.toNat, 17), (a.toNat, 11), (b.toNat, 5)]
  | .bin d a => word 0xec000002 [(d.toNat, 17), (a.toNat, 11)]
  | .patch a b => word 0xec000003 [(a.toNat, 11), (b.toNat, 5)]
  | .release a => word 0xec000004 [(a.toNat, 11)]
  | .trap s n => word 0xf0000000 [(s.toNat, 23), (n.toNat, 5)]
  | .tret => word 0xf0000001 []
  | .tlbi a b => word 0xf0000002 [(a.toNat, 11), (b.toNat, 5)]
  | .preempt a => word 0xf0000003 [(a.toNat, 11)]
  | .halt => word 0xf0000004 []
  | .brk s n => word 0xf0000005 [(s.toNat, 23), (n.toNat, 5)]
  | .rdsp d n => word 0xf4000000 [(d.toNat, 17), (n.toNat, 0)]
  | .wrsp d n => word 0xf8000000 [(d.toNat, 17), (n.toNat, 0)]
  | .deferredTrap _ | .yieldEnd _ | .carryMessage _ _ _ | .carryFetch _ _ _ _ | .eventWindowReset _ _
  | .loadReply _ | .storeAck _ | .homeRequest _ | .wcDrain _ _ | .req _ | .grant _ | .refuse _ | .recall _
  | .giveup _ | .retSlip _ | .down _ | .up _ | .reloc _ | .hold _ | .ack _ | .slipResend _ | .invalidate _
  | .forward _ | .gone _ | .writeBack _ | .pageRecall _ | .commonsResend _ | .sweepMarker _ | .sweepAck _
  | .packetArrive _ | .packetOld _ | .injectStarve _ | .fabricPacket _ | .creditReturn _ _ | .reachLimit _
  | .flitReceive _ _ _ | .replayRequest _ _ | .linkRetrain _ | .linkSettle _ _ | .linkRetire _ | .chunk _
  | .chunkAck _ | .chunkRetry _ | .chunkResend _ | .close _ _ | .copyComplete _ | .passGrant _ _
  | .passComplete _ _ | .rampEnd _ _ | .launchEntry _ | .waitEntry _ | .waitRecheck _ | .signalEntry _
  | .nopEntry _ | .qctlWrite _ _ | .qtailWrite _ _ | .haltClear _ | .ovfClear _ | .registerWrite _ _ _
  | .phloWrite _ | .phhiWrite _ | .exloWrite _ | .exhiWrite _ | .taintClear _ | .taintClearDone | .kill _
  | .killComplete | .run _ | .preq _ | .symcmdTake | .symcmdReturn | .symTakeEnd | .biasToDevice _ _
  | .biasToHost _ _ | .cxlHostAccess _ _ _ _ | .ccAccess _ _ _ _ | .getVersion _ | .getCapabilities _
  | .negotiateAlgorithms _ _ _ | .getDigests _ | .getCertificate _ | .challenge _ _ | .getMeasurements _ _
  | .keyExchange _ | .reset _ _ | .powerUpWave | .powerMeter _ | .teamStart _ | .regionLoad _ | .loadRetry _
  | .teamEnd _ | .launchComplete _ | .depthExchange _ | .dieDepthExchange _ | .steal _ | .taskAgePromote _
  | .boost _ | .budgetExceeded _ | .budgetEnd _ | .watchdog _ | .borrowWaitPreempt _ | .preemption _
  | .preemptSave _ | .resume _ | .dividerComplete _ _ | .computePhaseEnd _ _ | .tableWalkEnd _ | .birspi _ _
  | .cxlHostLink _ _ | .domainStart _ _ | .uncorrectableError _ _ | .correctedError => 0

end Sys2Proof
end

