-- ==== Sys2Proof/Config.lean ====
section
/-! DEFINITION. What the part fixes (figures of a TZC1-A, R18) and the values the manual leaves open.
The open values are opaque: nothing can be proved of what they are, only of where they go. -/

namespace Sys2Proof.Config

/-- Most entries of a circulation table (R11). -/
def circEntries : Nat := 65536
/-- Places of a home's wait queue (R11, R185). -/
def waitPlaces : Nat := 4096
/-- Entries of a C-die borrow proxy and of a device edge proxy (R192). -/
def dieProxyEntries : Nat := 4096
def edgeProxyEntries : Nat := 16384
/-- Catalogue entries of an M-die: two tables of 32,768 buckets of 4 ways (R269). -/
def catalogueEntries : Nat := 2 * 32768 * 4
/-- Pages of an edge proxy's line table (R270). -/
def edgePages : Nat := 16384
/-- Launch records of an M-die (R359), range-table entries of a C-die (R367), task queue places of a cluster (R9). -/
def launchRecords : Nat := 256
def rangeEntries : Nat := 4096
def taskPlaces : Nat := 64
/-- Translation-cache entries and instruction-cache words of a cluster (R9), walkers of a home (R11), places of an instruction buffer
(R58). -/
def tlbEntries : Nat := 4096
def icacheWords : Nat := 8192
def walkers : Nat := 16
def bufferWords : Nat := 8
/-- Carry buffer (R9), copy table (R293), reservation table (R9) and deduplication table (R304). -/
def carryPlaces : Nat := 256
def copyPlaces : Nat := 64
def reservations : Nat := 16
def dedupRecords : Nat := 4096
/-- The reach limit in cycles (R246). -/
def reachLimit : Nat := 2 ^ 21
/-- DRAM bytes of one M-die and bytes of its L2 slice (R11), and the exposed clusters of a C-die (R9). -/
def dieDram : Nat := 48 * 2 ^ 30
def l2Slice : Nat := 64 * 2 ^ 20
def clustersPerDie : Nat := 1920
/-- The enabled C-dies and M-dies of a TZC1-A, and the least that a TZC1-B has (R18). -/
def allDies : Nat := 144
def leastCdies : Nat := 136
def leastMdies : Nat := 140
/-- Physical windows (R405). -/
def hostWindow : Nat := 0x0008000000000000
def hostWindowBytes : Nat := 2 ^ 50
def regSpace : Nat := 0x000F000000000000
/-- What a byte of DRAM, of host memory or of a peer device that nothing has written reads as. The manual gives no
contents after power-on. DESIGN CHOICE, log entry 1. -/
def ramByte : Byte := 0

/-- Free value (R3): the n-th unpredictable 32-bit value. DESIGN CHOICE, log entry 2. -/
opaque freeWord : Nat → Word
/-- Free choice (R28): whether the n-th early read of a lane sees the value before the producer's write. DEDUCED, log entry 3. -/
opaque freeBit : Nat → Bool
/-- Free value (R3): the n-th unpredictable byte of memory. DESIGN CHOICE, log entry 2. -/
opaque freeByte : Nat → Byte
/-- Free choice: a position left to the implementation among n (rotating priorities, class V points, retry delays).
DESIGN CHOICE, log entry 2. -/
opaque freePick : Nat → Nat → Nat
/-- The circulation-table bucket of a range, fixed for a part (R190). DESIGN CHOICE, log entry 2. -/
opaque bucket : Nat → Nat
/-- The hashes of a catalogue's two tables, fixed for a part (R269). DESIGN CHOICE, log entry 2. -/
opaque catHash : Nat → Nat → Nat
/-- Free value: the n-th SPDM answer's opaque contents (R412), which the manual does not give.
DESIGN CHOICE, log entry 2. -/
opaque freeMessage : Nat → Nat
/-- SHAKE256 of a list of bytes (R412): the manual names the hash and the model does not compute it. DESIGN CHOICE, log entry 2. -/
opaque digest : List (BitVec 8) → Nat
/-- Where in register space the part puts its register pages (R405, R415). DESIGN CHOICE, log entry 2. -/
opaque pageSlot : Nat → Nat
/-- Addresses of the register pages 0 to 3: front end, system registers, HE0 and HE1 (R415): four pages of their own in register
space (R405), behind the topology block. -/
def registerPage (k : Nat) : Nat := regSpace + 4096 * (1 + 4 * (pageSlot k % 2 ^ 17) + k % 4)

end Sys2Proof.Config
end

