-- ==== Sys2Proof/Machine/State.lean ====
section
/-! DEFINITION. The state of the machine as plain data: everything the manual gives the device, the outcomes' reasons,
and the state right after reset. Tables with numbered entries are lists of (number, entry), read and written through the
operations of Sys2Proof.Machine.Sparse; an unlisted entry reads as the type's reset value. -/

namespace Sys2Proof.Machine

/-- Why the machine stops. No rule of the manual stops the device, so no meaning answers with one of these. -/
inductive Fault where
  /-- Raised by no meaning. Safe. -/
  | none
  deriving DecidableEq, Repr

/-- Why an instruction has no meaning. -/
inductive Refusal where
  /-- Raised by an arm of `exec` whose instruction has no meaning yet. Safe. -/
  | notModelled (mnemonic : String)
  deriving DecidableEq, Repr

/-- The events of the device (the rows of spec/opcode_table.json without an encoding), as the state lists those it owes.
Each stands for the instruction of the same name, with the same arguments. -/
inductive Event where
  | deferredTrap (g : Nat)
  | yieldEnd (g : Nat)
  | carryMessage (l i j : Nat)
  | carryFetch (l i j g : Nat)
  | eventWindowReset (t c : Nat)
  | loadReply (x : Nat)
  | storeAck (x : Nat)
  | homeRequest (x : Nat)
  | wcDrain (cl n : Nat)
  | req (n : Nat)
  | grant (n : Nat)
  | refuse (n : Nat)
  | recall (n : Nat)
  | giveup (n : Nat)
  | retSlip (n : Nat)
  | down (n : Nat)
  | up (n : Nat)
  | reloc (n : Nat)
  | hold (n : Nat)
  | ack (n : Nat)
  | slipResend (n : Nat)
  | invalidate (n : Nat)
  | forward (n : Nat)
  | gone (n : Nat)
  | writeBack (n : Nat)
  | pageRecall (n : Nat)
  | commonsResend (n : Nat)
  | sweepMarker (n : Nat)
  | sweepAck (n : Nat)
  | packetArrive (die : Nat)
  | packetOld (p : Nat)
  | injectStarve (die : Nat)
  | fabricPacket (p : Nat)
  | creditReturn (dev plane : Nat)
  | reachLimit (x : Nat)
  | flitReceive (lk q : Nat) (crcOk : Bool)
  | replayRequest (lk q : Nat)
  | linkRetrain (lk : Nat)
  | linkSettle (lk : Nat) (sideband : Bool)
  | linkRetire (lk : Nat)
  | chunk (n : Nat)
  | chunkAck (n : Nat)
  | chunkRetry (n : Nat)
  | chunkResend (n : Nat)
  | close (home st : Nat)
  | copyComplete (c : Nat)
  | passGrant (cl e : Nat)
  | passComplete (cl e : Nat)
  | rampEnd (cl e : Nat)
  | launchEntry (q : Nat)
  | waitEntry (q : Nat)
  | waitRecheck (q : Nat)
  | signalEntry (q : Nat)
  | nopEntry (q : Nat)
  | qctlWrite (q val : Nat)
  | qtailWrite (q val : Nat)
  | haltClear (q : Nat)
  | ovfClear (q : Nat)
  | registerWrite (page num val : Nat)
  | phloWrite (val : Nat)
  | phhiWrite (val : Nat)
  | exloWrite (val : Nat)
  | exhiWrite (val : Nat)
  | taintClear (val : Nat)
  | taintClearDone
  | kill (val : Nat)
  | killComplete
  | run (val : Nat)
  | preq (val : Nat)
  | symcmdTake
  | symcmdReturn
  | symTakeEnd
  | biasToDevice (he val : Nat)
  | biasToHost (he val : Nat)
  | cxlHostAccess (port : Nat) (wr : Bool) (pa val : Nat)
  | ccAccess (wr : Bool) (pa n val : Nat)
  | getVersion (port : Nat)
  | getCapabilities (port : Nat)
  | negotiateAlgorithms (port asym hash : Nat)
  | getDigests (port : Nat)
  | getCertificate (port : Nat)
  | challenge (port nonce : Nat)
  | getMeasurements (port idx : Nat)
  | keyExchange (port : Nat)
  | reset (ok0 ok1 : Bool)
  | powerUpWave
  | powerMeter (draw : Nat)
  | teamStart (k : Nat)
  | regionLoad (k : Nat)
  | loadRetry (k : Nat)
  | teamEnd (t : Nat)
  | launchComplete (l : Nat)
  | depthExchange (die : Nat)
  | dieDepthExchange (die : Nat)
  | steal (cl : Nat)
  | taskAgePromote (k : Nat)
  | boost (l : Nat)
  | budgetExceeded (l : Nat)
  | budgetEnd (l : Nat)
  | watchdog (g : Nat)
  | borrowWaitPreempt (t : Nat)
  | preemption (t : Nat)
  | preemptSave (t : Nat)
  | resume (t : Nat)
  | dividerComplete (cl core : Nat)
  | computePhaseEnd (cl e : Nat)
  | tableWalkEnd (w : Nat)
  | birspi (he : Nat) (data : List (Nat × BitVec 8))
  | cxlHostLink (port st : Nat)
  | domainStart (num devs : Nat)
  | uncorrectableError (where_ pa : Nat)
  | correctedError
  deriving DecidableEq, Repr

/-- A table of numbered entries, in ascending order of their numbers. -/
abbrev Table (α : Type) := List (Nat × α)

/-! ### Fragments and groups -/

/-- State codes of a split-table entry (R63). -/
inductive FState where
  | free | ready | joinWait | parked | trapped
  deriving DecidableEq, Repr

/-- What a fragment that does not issue is waiting for (R387, R392, R196, R402, R162); `slot` is a wait at issue, `fence` that of
a fence that has issued (R324), `resumed` that of an instruction whose walk is over and which goes on when it is next selected; a
number is the identifier under which the instruction keeps its destinations busy. `carry` lists the back views that a parked fragment
waits for as (lane, slot, publishing item). -/
inductive Wait where
  | none | tret | walk (w : Nat) | borrow (r : Nat) | barrier (w : Nat) | fifo (n : Nat) | resumed (n : Nat) | fence | slot
  /-- A `tlbi` that has issued waits for the walks that began before it (R391). -/
  | flush (walks : List Nat)
  | carry (needs : List (Nat × Nat × Nat))
  deriving DecidableEq, Repr

/-- One fragment: the fields of a split-table entry (R61, R68), its level (R373) and what it waits for. -/
structure Frag where
  mask : Mask := 0
  pc : BitVec 64 := 0
  mode : BitVec 16 := 0
  depth : Nat := 0
  ftop : Nat := 0
  fv : Bool := false
  st : FState := .free
  handler : Bool := false
  spilled : Bool := false
  id : Nat := 0
  wait : Wait := .none
  deriving DecidableEq, Repr

/-- A fuse-pool entry (R69). -/
structure Fuse where
  exp : Mask := 0
  tgt : BitVec 64 := 0
  depth : Nat := 0
  parent : Nat := 0
  pv : Bool := false
  live : Bool := false
  deriving DecidableEq, Repr

/-- A gap still owed to a fixed-latency producer (R25): the register code (R27), the slots left, the cycle at which its write
lands, and the lanes whose last producer it is, with the words they held before (R28). -/
structure Owed where
  code : Nat
  left : Nat
  due : Nat := 0
  lanes : Mask
  old : Table Word
  deriving DecidableEq, Repr

/-- A deferred trap that is due or held (R382), with the fragment that issued its instruction. -/
structure Deferred where
  code : Nat
  detail : Nat
  frag : Nat
  deriving DecidableEq, Repr

/-- Bytes of a copy in flight (R298): generic address ranges, read or written. -/
structure Foot where
  copy : Nat
  base : Nat
  len : Nat
  writes : Bool
  deriving DecidableEq, Repr

/-- A commons write that no sweep at spread 3 has followed (R324): its class, its generic address range, its location. -/
structure CommonsWrite where
  cls : Nat
  va : Nat
  n : Nat
  loc : Nat
  deriving DecidableEq, Repr

/-- A scope (R275): the device, die and cluster of an anchor as one number, and a spread of 0 to 3. -/
structure Scope where
  anchor : Nat := 0
  spread : Nat := 3
  deriving DecidableEq, Repr

/-- A group (R13): its register window, predicates, fragments and everything held per group. -/
structure Group where
  /-- `v0` to `v59`: lane l of v n is entry 32 n + l (R90). -/
  regs : Table Word := []
  /-- Words of its registers that hold poisoned data, by those numbers (R417). -/
  bad : List Nat := []
  /-- `p1` to `p7`, one mask each (R95). -/
  preds : Table Mask := []
  /-- The selected fragment (R58) and the group's other fragments, resident and spilled (R61). -/
  cur : Frag := {}
  rest : List Frag := []
  /-- The fuse pool of 64 entries (R68, R69). -/
  pool : Table Fuse := []
  /-- Absent lanes (R13) and exited lanes (R75). -/
  absent : Mask := 0
  exited : Mask := 0
  /-- Group ordinal G (R13), position t in the team (R122), core and residency place (R123, R377). -/
  ord : Nat := 0
  pos : Nat := 0
  core : Nat := 0
  place : Nat := 0
  team : Nat := 0
  /-- USER0 to USER3 (R122). -/
  user : Table Word := []
  /-- The trap registers of the group (R374) and the trap record (R380). -/
  tcause : Word := 0
  tpc : BitVec 64 := 0
  taddr : BitVec 64 := 0
  tmask : Mask := 0
  tmode : Word := 0
  record : Option Frag := none
  deferred : List Deferred := []
  /-- In-flight counters GL, GS, LW, CW, CP, PF (R222), by bit number. -/
  count : Table Nat := []
  /-- Scoreboard (R26): operand codes that an incomplete instruction will write, each with the identifier of that
  instruction. Codes: 0-63 vector, 64 + p, 128 + g, 160 + w, 192 + slot, 208 + accumulator. -/
  busy : List (Nat × Nat) := []
  owed : List Owed := []
  foot : List Foot := []
  /-- Wait targets of w0 to w15 (R308): the target where the valid bit is set. -/
  wt : Table (Option Nat) := []
  /-- Published flags per slot as a lane mask, and bindings at slot * 32 + lane where `cdef` changed them (R159). -/
  pub : Table Mask := []
  bind : Table Nat := []
  /-- Watchdog count (R392). -/
  dog : Nat := 0
  /-- Slots left of a `yield` (R85). -/
  yielded : Nat := 0
  /-- Cycle of the group's last issue (R370, R392), and the last cycle at which it was not ready (R370). -/
  last : Nat := 0
  stood : Nat := 0
  /-- The 8-word instruction buffer, by physical address, oldest first (R58), and the code words that another group's `fencei` has taken
  from the cluster's instruction cache: the group sees them until its own (R326). -/
  ibuf : List (Nat × Word) := []
  code : Table Word := []
  /-- Commons writes made since the group's last sweep at spread 3 (R324, R325). -/
  unswept : List CommonsWrite := []
  /-- The BUDGET trap of the launch has been taken or lies in `deferred` (R372). -/
  budgeted : Bool := false
  /-- The sweep that the instruction about to issue waits for (R279, R324). -/
  sweeping : Option Nat := none
  deriving DecidableEq, Repr

/-! ### Teams -/

/-- Kinds of borrow (R180). -/
inductive Kind where
  | empty | x | s | c
  deriving DecidableEq, Repr

/-- A region register (R180). -/
structure Region where
  base : Nat := 0
  len : Nat := 0
  kind : Kind := .empty
  cls : Nat := 0
  holder : Nat := 0
  all : Bool := false
  peer : Bool := false
  split : Bool := false
  pend : Bool := false
  handle : Nat := 0
  deriving DecidableEq, Repr

/-- A barrier register (R308). -/
structure Barrier where
  phase : Nat := 0
  expm : Nat := 0
  arrm : Nat := 0
  bal : Int := 0
  init : Bool := false
  err : Bool := false
  deriving DecidableEq, Repr

/-- Modes of an allotted bank (R213, R230). -/
inductive BankMode where
  | scratch | cacheWay | fifo
  deriving DecidableEq, Repr

/-- An `fput` or `fget` that waits on a FIFO (R231, R232): its group and the number of its wait, the lanes that act, the register that an
`fget` writes and the words of an `fput`. -/
structure FifoOp where
  group : Nat
  id : Nat
  lanes : Mask := 0
  dst : Nat := 0
  words : List Word := []
  deriving DecidableEq, Repr

/-- An allotted bank (R213): its mode, its scratch bytes (R215), its FIFO entries, oldest first (R231), with the index of the oldest among
the bank's 4,096 places (R397), and the `fput` and `fget` that wait on it, in arrival order (R233). -/
structure Bank where
  mode : BankMode := .cacheWay
  data : Table Byte := []
  fifo : List Word := []
  head : Nat := 0
  puts : List FifoOp := []
  gets : List FifoOp := []
  deriving DecidableEq, Repr

/-- A pin of a contention predictor, and the predictor (R263). -/
inductive Pin where
  | none | home | grant
  deriving DecidableEq, Repr

structure Predictor where
  cont : Nat := 4
  pin : Pin := .none
  deriving DecidableEq, Repr

/-- Where a team stands: resident, pre-empted and draining (R396), saved in a frame, ending (R358), or gone. -/
inductive TeamState where
  | absent | resident | draining | saved | ending
  deriving DecidableEq, Repr

/-- A team (R13) and everything its groups share. -/
structure Team where
  st : TeamState := .absent
  launch : Nat := 0
  ctx : Nat := 0
  ix : Nat := 0
  size : Nat := 1
  /-- Cluster key: die * 2048 + exposed cluster (R123). -/
  cluster : Nat := 0
  start : Nat := 0
  matrix : Bool := false
  g : Table Region := []
  w : Table Barrier := []
  /-- Team scratch bytes (R214) and their number. -/
  scratch : Table Byte := []
  scr : Nat := 0
  banks : List Bank := []
  /-- Event totals and window counts by class (R152), EVTH0-EVTH5 (R153) and EVSTAT (R154). -/
  total : Table Nat := []
  window : Table Nat := []
  evth : Table Word := []
  evstat : Word := 0
  predictor : Table Predictor := []
  /-- Per class, of the cycle of its last event: that cycle, the group and the fragment of the lowest TEAMGRP with an event in it, and
  whether the threshold tripped in it (R155). -/
  lowest : Table (Nat × Nat × Nat × Bool) := []
  /-- The save frame that holds the team while it is pre-empted (R396), and whether it was pre-empted for the wait of R196. -/
  frame : Nat := 0
  forBorrow : Bool := false
  /-- Words of the team's scratch (twice the word's number) and banks (twice and one) that hold poisoned data (R417). -/
  soft : List Nat := []
  deriving DecidableEq, Repr

/-! ### Accesses and transfers in flight -/

/-- What an access does at its location (R224, R225, R258, R286). -/
inductive AccOp where
  | load | store | add | sub | min | max | and | or | xor | xchg | cas | inc | dec | fadd | prefetch
  deriving DecidableEq, Repr

/-- One aligned piece of a lane's access (R220): its generic address, its location, its page type (R218), its place and length
in the lane's element, the operands and the value read. A location is a physical address of this device, or of device d with
2^60 × (d + 1) added. -/
structure LaneAcc where
  lane : Nat := 0
  va : Nat := 0
  loc : Nat := 0
  ptype : Nat := 0
  pos : Nat := 0
  n : Nat := 4
  a : Nat := 0
  b : Nat := 0
  result : Option Nat := none
  /-- Its request is on its way to its home; its reply is on its way back (R250). -/
  going : Bool := false
  coming : Bool := false
  /-- Its lane has been written (R250). -/
  done : Bool := false
  /-- The line was contended when the request came to its home (R263). -/
  cont : Option Bool := none
  /-- Another device has granted its page, and the grant goes to this device's edge proxy, which serves the piece (R271). -/
  granted : Bool := false
  deriving DecidableEq, Repr

/-- The accesses of one instruction, or of one pass, that have left the cluster (R222, R251, R258). -/
structure Txn where
  /-- The device that a request comes from, where it is another one (R271). -/
  src : Option Nat := none
  group : Nat := 0
  team : Nat := 0
  cluster : Nat := 0
  frag : Nat := 0
  op : AccOp := .load
  signed : Bool := false
  bytes : Nat := 4
  cls : Nat := 0
  /-- Target device: none for the issuing device. -/
  dev : Option Nat := none
  remote : Bool := false
  commons : Bool := false
  kind : Kind := .empty
  region : Nat := 0
  mode : BitVec 16 := 0
  dst : Nat := 0
  /-- The counter of R222 that it holds, if any. -/
  counter : Option Nat := none
  nalloc : Bool := false
  acquire : Bool := false
  release : Bool := false
  /-- A grant is requested (R262); the anchor and spread that a release carries (R279). -/
  grant : Bool := false
  carried : Option Scope := none
  lanes : List LaneAcc := []
  /-- The reach limit has passed (R259), or the target holds no borrow (R259). -/
  lost : Bool := false
  noBorrow : Bool := false
  issued : Nat := 0
  /-- The instruction whose pass it is, by the number of its first pass (R258), and the detail of the trap that another pass of it has left
  due at its completion (R259). -/
  first : Nat := 0
  trap : Option Nat := none
  /-- The copy or matrix transfer that it serves (R293); the cycle at which it left, where that is not the one of its issue (R246). -/
  copy : Option Nat := none
  left : Option Nat := none
  /-- Its request arrived with the OLD flag (R240, R272). -/
  old : Bool := false
  deriving DecidableEq, Repr

/-- Kinds of copy-table entries (R293, R347, R395). -/
inductive CopyKind where
  | cpl | cpb | cpr | mld | mst
  deriving DecidableEq, Repr

/-- One aligned piece of a transfer (R220): the lane it serves, generic addresses (or a place in a slot image or a snapshot),
locations and page types of source and destination, and its bytes. -/
structure Piece where
  lane : Nat := 0
  src : Nat := 0
  dst : Nat := 0
  sloc : Nat := 0
  dloc : Nat := 0
  stype : Nat := 0
  dtype : Nat := 0
  n : Nat := 0
  deriving DecidableEq, Repr

/-- A copy or matrix transfer in the copy table (R293, R299, R302, R347). -/
structure Copy where
  kind : CopyKind := .cpl
  group : Nat := 0
  team : Nat := 0
  cluster : Nat := 0
  frag : Nat := 0
  op : AccOp := .store
  et : Nat := 0
  /-- Operand codes of source and destination (R23), 34 where it is a slot or an accumulator. -/
  src : Nat := 0
  dst : Nat := 0
  /-- Kinds and classes of the region registers; a window access has every class (R323). -/
  srcKind : Kind := .empty
  dstKind : Kind := .empty
  srcCls : Option Nat := none
  dstCls : Option Nat := none
  pieces : List Piece := []
  /-- Source ranges by lane, as generic addresses, where an overlap matters (R299, R300). -/
  ranges : List (Nat × Nat × Nat) := []
  bytes : Nat := 0
  bs : Bool := false
  ma : Bool := false
  bar : Nat := 0
  /-- Slot of an `mld`, as 8 × core + slot; converted snapshot of an `mst` and its events (R348). -/
  slot : Nat := 0
  snap : Option (Table Byte) := none
  sat : Bool := false
  evs : List Nat := []
  /-- A piece lies on a strongly-ordered page (R218). -/
  strong : Bool := false
  /-- Chunks of a `cpr` sent and acknowledged (R303). -/
  sent : Nat := 0
  acked : List Nat := []
  issued : Nat := 0
  killed : Bool := false
  /-- Its fault domain (R395). -/
  fdom : Nat := 0
  /-- What has been read of its sources, by piece; whether the reads, and the writes, have been asked for; and whether the reach limit has passed
  for one of them (R306). -/
  got : Table Nat := []
  asked : Bool := false
  writing : Bool := false
  lost : Bool := false
  deriving DecidableEq, Repr

/-- A chunk of a reducing copy in flight (R303): its pieces with their source data, and the events of its application. -/
structure Chunk where
  copy : Nat := 0
  team : Nat := 0
  cluster : Nat := 0
  tag : Nat := 0
  low : Nat := 0
  age : Nat := 0
  home : Nat := 0
  work : List (Piece × Nat) := []
  evs : List Nat := []
  issued : Nat := 0
  resent : Nat := 0
  refused : Bool := false
  /-- It has been abandoned once at the reach limit (R305). -/
  abandoned : Bool := false
  /-- It arrived with the OLD flag (R240, R272). -/
  old : Bool := false
  deriving DecidableEq, Repr

/-- A stream record of a deduplication table (R304). -/
structure Stream where
  base : Nat := 0
  map : BitVec 64 := 0
  deriving DecidableEq, Repr

/-- An operation of a core's iterative divider: destination, lane words and events of its result (R103, R139). -/
structure DivOp where
  group : Nat
  id : Nat
  frag : Nat
  words : List (Nat × Word)
  events : List Nat
  /-- Earliest cycle of its completion (R103). -/
  due : Nat := 0
  deriving DecidableEq, Repr

/-! ### Clusters and engines -/

/-- A byte held by a cluster cache: its value, whether it is newer than its home, and the team it is tagged with
(R217, R268). -/
structure CByte where
  val : Byte
  dirty : Bool
  team : Nat
  commons : Bool
  deriving DecidableEq, Repr

/-- A cached or pinned translation (R195, R400, R403): a page of 2^bits bytes, its type and permissions. -/
structure PagePin where
  ctx : Nat
  va : Nat
  pa : Nat
  bits : Nat
  ptype : Nat
  xp : Bool
  w : Bool
  rd : Bool
  deriving DecidableEq, Repr

/-- A line of the write-combining buffer (R219). -/
structure WcLine where
  bytes : Table Byte := []
  groups : List Nat := []
  since : Nat := 0
  /-- It has left for its home. -/
  leaving : Bool := false
  deriving DecidableEq, Repr

/-- States of an operand slot (R335). -/
inductive SlotState where
  | free | claimed | shaped | loaded
  deriving DecidableEq, Repr

/-- An operand slot (R335, R336, R338). -/
structure OpSlot where
  st : SlotState := .free
  shape : Word := 0
  image : Table Byte := []
  busy : Bool := false
  readers : Nat := 0
  /-- Which free bytes a claimed or shaped slot holds (R335, R345). -/
  seed : Nat := 0
  /-- It holds poisoned data (R417). -/
  bad : Bool := false
  deriving DecidableEq, Repr

/-- Operations of a pair engine (R334). -/
inductive EngOp where
  | pass (d sa sb : Nat) (core : Nat) (fblock : Word) (sA sB : List Word)
  | zero (d : Nat)
  | acc (d a : Nat)
  | snap (a : Nat) (copy : Nat)
  deriving DecidableEq, Repr

/-- An entry of the reservation table (R334). -/
structure Reserve where
  engine : Nat
  group : Nat
  frag : Nat
  core : Nat
  op : EngOp
  since : Nat
  prio : Nat
  pos : Nat
  id : Nat
  granted : Bool := false
  /-- The operands as a pass read them by the end of its compute phase (R338, R351). -/
  read : Option (OpSlot × OpSlot) := none
  deriving DecidableEq, Repr

/-- A pair engine (R333, R339, R414): element (i, j) of accumulator a is entry 256 a + 16 i + j. -/
structure Engine where
  owner : Option Nat := none
  accs : Table Word := []
  idleSince : Nat := 0
  ramping : Bool := false
  deriving DecidableEq, Repr

/-- A line of the synchronisation-variable table (R277). -/
structure SyncVar where
  line : Nat
  scope : Scope
  /-- Cycle of its last use: the least recently used entry is replaced. -/
  used : Nat := 0
  deriving DecidableEq, Repr

/-- A cluster (R9). -/
structure Cluster where
  cache : Table CByte := []
  icache : Table Word := []
  tlb : List PagePin := []
  wc : Table WcLine := []
  sync : List SyncVar := []
  reserve : List Reserve := []
  engines : Table Engine := []
  slots : Table OpSlot := []
  divq : Table (List DivOp) := []
  dropped : BitVec 64 := 0
  queue : List Nat := []
  deriving DecidableEq, Repr

/-! ### Borrows -/

/-- States of a circulation-table entry (R185). -/
inductive CircState where
  | held | tentative | waiting | taint
  deriving DecidableEq, Repr

/-- An entry of a circulation table, or a place of its wait queue (R185): the physical spans homed there. -/
structure Circ where
  home : Nat := 0
  st : CircState := .held
  kind : Kind := .empty
  spans : List (Nat × Nat) := []
  handle : Nat := 0
  req : Nat := 0
  ctx : Nat := 0
  dev : Nat := 0
  die : Nat := 0
  cluster : Nat := 0
  team : Nat := 0
  /-- The entry is shared through its die's proxy (R192). -/
  proxy : Bool := false
  /-- Its home is on another device, and the device's edge proxy gathers it (R192). -/
  edge : Bool := false
  /-- The tentative grant has been recalled (R188); the proxy has been told to serve no new holder (R192). -/
  recalled : Bool := false
  hold : Bool := false
  age : Nat := 0
  deriving DecidableEq, Repr

/-- What an outstanding borrow request serves (R202-R204, R208, R357, R378). -/
inductive Purpose where
  | bor | up | down | ret | hand (to_ : Nat) | load (task : Nat) | sym (ctx entry : Nat) | reloc | free
  /-- A request of another device for an exported range (R431): the device and its SEQ. -/
  | abroad (dev seq : Nat)
  deriving DecidableEq, Repr

/-- An outstanding borrow instruction or request of the device (R187, R188, R202). -/
structure Request where
  purpose : Purpose := .bor
  team : Nat := 0
  group : Nat := 0
  frag : Nat := 0
  reg : Nat := 0
  kind : Kind := .empty
  wait : Bool := false
  base : Nat := 0
  len : Nat := 0
  cls : Nat := 0
  lanes : Mask := 0
  dst : Nat := 0
  ctx : Nat := 0
  age : Nat := 0
  issued : Nat := 0
  /-- Homes still to answer, and homes that have granted (R188). -/
  owing : List Nat := []
  granted : List Nat := []
  /-- Homes whose recall arrived before their grant (R188). -/
  early : List Nat := []
  /-- The KEY of the import that the range is reached through, and its base in the exporter's addresses (R254, R431). -/
  key : Nat := 0
  rva : Nat := 0
  /-- The home parts of the range: a home and its spans there (R185). -/
  parts : List (Nat × List (Nat × Nat)) := []
  /-- Device, die, cluster and team position as one number (R187). -/
  ident : Nat := 0
  taint : Bool := false
  /-- The status with which it ended, kept while its team is pre-empted (R196). -/
  ended : Option Nat := none
  /-- It waits for the team's accesses through its register (R203, R207, R208). -/
  draining : Bool := false
  handle : Nat := 0
  pins : List PagePin := []
  /-- Commons write-backs that a `bret` waits for (R194). -/
  backs : List Nat := []
  /-- The pending request whose entries a relocation moves (R197, R369). -/
  moves : Nat := 0
  deriving DecidableEq, Repr

/-- A call slip in flight: the fields of R191, with bits that must be zero kept so that the receiver can check them; then what a
field stands for (the physical spans of the part, and the request that SEQ is a 16-bit number of), and the home it travels to or
from. -/
structure Slip where
  ty : Nat := 0
  flags : Nat := 0
  status : Nat := 0
  handle : Nat := 0
  base : Nat := 0
  lines : Nat := 0
  age : Nat := 0
  dev : Nat := 0
  die : Nat := 0
  cluster : Nat := 0
  ctx : Nat := 0
  seq : Nat := 0
  spans : List (Nat × Nat) := []
  req : Nat := 0
  home : Nat := 0
  /-- Its requester has been killed: an answer is dropped and counted (R393). -/
  dead : Bool := false
  /-- The AGE field of its packet: CYCLE [25:6] of its instruction's issue (R240). -/
  since : Nat := 0
  deriving DecidableEq, Repr

/-! ### Commons -/

/-- States of a commons line at its home (R265, R269). -/
inductive LineState where
  | h | sh | ow | ps | po
  deriving DecidableEq, Repr

/-- A catalogue entry (R269, R275), of a line or of a page that other devices hold (R270): its table and way, holders, participants, and
the home's busy mark and queue (R272). -/
structure CatLine where
  st : LineState := .h
  tab : Nat := 0
  way : Nat := 0
  copies : List Nat := []
  owner : Nat := 0
  /-- The devices that hold a page; beyond 8, every device of the job (R270). -/
  devices : List Nat := []
  everyone : Bool := false
  /-- Anchor and spread, once an access has been recorded (R275). -/
  scope : Option Scope := none
  busy : Bool := false
  /-- A forward was answered GONE, and its write-back is still to come (R273). -/
  gone : Bool := false
  /-- The request that a forward serves, and those that wait (R272). -/
  fwd : Option Nat := none
  queue : List Nat := []
  deriving DecidableEq, Repr

/-- Kinds of commons protocol messages (R266, R271-R274, R278). -/
inductive CMsgKind where
  | invalidate | forward | gone | writeBack | pageRecall | resend | marker | sweepAck
  deriving DecidableEq, Repr

/-- A commons protocol message in flight. -/
structure CMsg where
  kind : CMsgKind := .invalidate
  line : Nat := 0
  die : Nat := 0
  cluster : Nat := 0
  txn : Nat := 0
  home : Nat := 0
  data : Table Byte := []
  /-- Its sweep, and the C-dies that a marker is for (R278). -/
  sweep : Nat := 0
  dies : List Nat := []
  /-- The AGE of what caused it (R240); for a page's recall the device that holds the page, and whether it is its answer (R271). -/
  age : Option Nat := none
  dev : Nat := 0
  answer : Bool := false
  deriving DecidableEq, Repr

/-- A sweep that a release or fence waits for (R278): the acknowledgements still to come, as 512 × M-die + C-die or 2^20 + device, and the
commons writes that it follows (R324). -/
structure Sweep where
  group : Nat := 0
  owing : List Nat := []
  writes : List CommonsWrite := []
  scopes : List Scope := []
  /-- The line and the access for which its home sweeps the recorded scope (R279). -/
  line : Option Nat := none
  txn : Nat := 0
  deriving DecidableEq, Repr

/-! ### Carries -/

/-- Where a published value is (R174): published, on its way, in a cluster's carry buffer, in the spill area, asked for there, on its way
from there, fetched for the group that waits for it, or nowhere. -/
inductive CarryPlace where
  | sent | moving | asked | coming | buffer (cluster : Nat) | spill | fetched (cluster : Nat) | nowhere
  deriving DecidableEq, Repr

/-- A published value of an ordered launch (R165), none where it is broken (R170). -/
structure Carried where
  launch : Nat
  item : Nat
  slot : Nat
  value : Option Word
  place : CarryPlace := .sent
  /-- The cluster that published it, and when (R240). -/
  cluster : Nat := 0
  issued : Nat := 0
  /-- Its entry of a carry buffer holds poisoned data (R417). -/
  bad : Bool := false
  deriving DecidableEq, Repr

/-! ### Launches, tasks and queues -/

/-- A carry slot record of a launch control block (R158, R354). -/
structure CarrySlot where
  valid : Bool := false
  reg : Nat := 0
  k : Nat := 1
  seed : Nat := 2 ^ 64 - 1
  deriving DecidableEq, Repr

/-- An entry of a region-load table (R356). -/
structure RegionLoad where
  reg : Nat
  base : Nat
  len : Nat
  cls : Nat
  kind : Kind
  peer : Bool
  tstride : Nat
  deriving DecidableEq, Repr

/-- A resolved launch control block (R354, R355). -/
structure Lcb where
  addr : Nat := 0
  matrix : Bool := false
  prio : Nat := 0
  nb : Nat := 0
  scr : Nat := 0
  teamSize : Nat := 1
  codeBase : Nat := 0
  entry : Nat := 0
  codeLen : Nat := 0
  fdom : Nat := 0
  handler : Nat := 0
  budget : Nat := 0
  maxTeams : Nat := 0
  spawns : Nat := 0
  loads : List RegionLoad := []
  carry : Table CarrySlot := []
  spill : Nat := 0
  spillN : Nat := 0
  arg : Nat := 0
  bin : Nat := 0
  binBuf : Nat := 0
  binCap : Nat := 0
  done : Nat := 0
  deriving DecidableEq, Repr

/-- States of a launch record (R359). -/
inductive LaunchState where
  | none | held | running | completing | killed
  deriving DecidableEq, Repr

/-- A launch record (R359). -/
structure Launch where
  st : LaunchState := .none
  lcb : Lcb := {}
  ctx : Nat := 0
  /-- The M-die whose table holds the record, and the C-die that gets the launch's first chunk (R359, R367). -/
  home : Nat := 0
  die : Nat := 0
  /-- Physical address of the DONE counter, if there is one (R56, R354). -/
  doneAt : Option Nat := none
  items : Nat := 0
  started : Nat := 0
  ended : Nat := 0
  next : Nat := 0
  low : Nat := 0
  slots : Nat := 0
  children : Nat := 0
  creator : Option Nat := none
  spawned : Nat := 0
  fromBin : Bool := false
  queue : Option Nat := none
  intr : Bool := false
  age : Nat := 0
  pins : List PagePin := []
  budgetAt : Option Nat := none
  boosted : Option Nat := none
  /-- Seed words as they stood when the launch began: word i of slot j at 1024 j + i (R161). -/
  seeds : Table Word := []
  /-- Bytes that have changed since, where a slot has a seed table (R161). -/
  changed : List Nat := []
  deriving DecidableEq, Repr

/-- Where a team task stands (R357, R367, R368). -/
inductive TaskState where
  | queued | loading | ready | retry | started
  deriving DecidableEq, Repr

/-- A team task (R367): the team of one ordinal before it starts. -/
structure Task where
  launch : Nat := 0
  ord : Nat := 0
  cluster : Nat := 0
  st : TaskState := .queued
  /-- Cycle at which it was fed to a cluster, and whether it has waited 2^20 cycles since (R368). -/
  fed : Nat := 0
  promoted : Bool := false
  /-- Cycle of the first attempt of its loads, and of the last refusal (R357). -/
  age : Nat := 0
  refused : Nat := 0
  left : List RegionLoad := []
  got : Table Region := []
  deriving DecidableEq, Repr

/-- Teams of a launch in a range table (R367): of the chunks of `ch` ordinals that begin at `base` and repeat every `stride`,
the teams number `lo` to `hi` - 1. -/
structure Range where
  launch : Nat := 0
  base : Nat := 0
  ch : Nat := 1
  stride : Nat := 1
  lo : Nat := 0
  hi : Nat := 0
  deriving DecidableEq, Repr

/-- A consumed queue entry that has not completed (R56): its launch, or the counter and value of a SIGNAL. -/
structure QEntry where
  launch : Option Nat := none
  signal : Option (Nat × Nat) := none
  intr : Bool := false
  index : Nat := 0
  deriving DecidableEq, Repr

/-- A launch queue (R361, R56). -/
structure Queue where
  base : Nat := 0
  en : Bool := false
  pcap : Nat := 0
  log2n : Nat := 0
  ctx : Nat := 0
  halt : Bool := false
  cause : Nat := 0
  ovf : Bool := false
  index : Nat := 0
  tail : Nat := 0
  head : Nat := 0
  seq : Nat := 0
  /-- A WAIT entry has found its counter too low (R362); entries consumed and not complete, oldest first. -/
  waiting : Bool := false
  /-- While `waiting`: the counter's physical address, translated when the entry started (R56). -/
  waitAt : Nat := 0
  live : List QEntry := []
  deriving DecidableEq, Repr

/-! ### Contexts and the control complex -/

/-- A peer-handle entry as committed: bits [63:0] and [127:64] (R253, R377). -/
structure Handle where
  lo : Nat := 0
  hi : Nat := 0
  deriving DecidableEq, Repr

/-- A symmetric-borrow entry (R378). -/
structure Sym where
  kind : Kind := .empty
  base : Nat := 0
  len : Nat := 0
  cls : Nat := 0
  handle : Nat := 0
  busy : Bool := false
  deriving DecidableEq, Repr

/-- What the device holds of a context beside its table entry in memory (R374, R378, R379, R389, R395). -/
structure Ctx where
  exctl : Word := 0
  halted : Bool := false
  handles : Table Handle := []
  syms : Table Sym := []
  killSeq : Nat := 0
  frames : List Nat := []
  deriving DecidableEq, Repr

/-- An export record as committed (R431). -/
structure ExportRec where
  lo : Nat := 0
  hi : Nat := 0
  deriving DecidableEq, Repr

/-- Registers reserved to the control complex (R377). -/
structure CcRegs where
  ctxtab : Nat := 0
  ctxn : Nat := 0
  ctxsel : Nat := 0
  phsel : Nat := 0
  phlo : Nat := 0
  tclrbase : Nat := 0
  tclrlen : Nat := 0
  killReg : Nat := 0
  symsel : Nat := 0
  symbase : Nat := 0
  symlen : Nat := 0
  grpsel : Nat := 0
  exsel : Nat := 0
  exlo : Nat := 0
  /-- The taint clears in progress, as base and length, oldest first (R377). -/
  clears : List (Nat × Nat) := []
  /-- SYMSTAT: a command is in progress, and the status of the last one (R377, R378). -/
  symBusy : Bool := false
  symStatus : Nat := 0
  /-- What its last read brought, none where it brought nothing (R406, R417). -/
  data : Option Nat := none
  deriving DecidableEq, Repr

/-- Interrupts to the control complex: what they are and the numbers they name (R57, R155, R357, R375, R382, R389). -/
structure Interrupt where
  what : Nat
  a : Nat := 0
  b : Nat := 0
  c : Nat := 0
  deriving DecidableEq, Repr

/-- A kill in progress (R393). -/
structure KillJob where
  ctx : Nat
  whole : Bool
  fdom : Nat
  cause : Nat
  code : Nat := 0
  detail : Nat := 0
  lcb : Nat := 0
  pc : Nat := 0
  copies : Table Copy := []
  deriving DecidableEq, Repr

/-! ### Network -/

/-- A packet (R238, R240, R243): of class A or V on the deflection plane, of class O on a virtual channel of the buffered lane (0 request,
1 response, 2 forward), or on the fabric. Dies 288 and 289 are HE0 and HE1, 290 + k is FEk. -/
structure Packet where
  vc : Nat := 0
  /-- Bytes of data that follow the header. -/
  bytes : Nat := 0
  age : Nat := 0
  old : Bool := false
  srcDev : Nat := 0
  srcDie : Nat := 0
  srcCluster : Nat := 0
  seq : Nat := 0
  cls : Nat := 1
  /-- The router it stands at (where it waits to be injected: the router it will enter by), the channel input that it holds there as
  link and router before (R239), the links it has yet to cross (R237), and the die behind them. -/
  at_ : Nat := 0
  input : Option (Nat × Nat) := none
  path : List Nat := []
  next : Nat := 0
  dst : Nat := 0
  via : Option Nat := none
  dstDev : Nat := 0
  viaDev : Option Nat := none
  /-- On the fabric, and by which plane; one at an edge that has come from the panel is a new injection there (R245). -/
  fabric : Bool := false
  fresh : Bool := false
  plane : Nat := 0
  /-- It waits since a cycle to be injected (R241). -/
  waiting : Bool := false
  since : Nat := 0
  /-- It has gone down in the up-and-down order of the routes loaded after a retirement (R416). -/
  down : Bool := false
  /-- A request that has found its home's queue full (R241). -/
  refused : Bool := false
  /-- What it carries: the pieces of an access, as places in its list, or the event that its arrival brings about. -/
  response : Bool := false
  txn : Nat := 0
  pieces : List Nat := []
  event : Option Event := none
  /-- The fault domain that issued it, as context and domain (R248). -/
  issuer : Option (Nat × Nat) := none
  /-- A class O packet has its credit, and is in its slot at the switch; one that has come over the fabric returns the credit of that source,
  target and plane when it goes onto the panel (R244). -/
  credited : Bool := false
  owes : Option (Nat × Nat × Nat) := none
  deriving DecidableEq, Repr

/-- A flit in a replay buffer: its sequence number, its packet, whether it is the packet's last, and the fault domain that issued it
(R247, R248). -/
structure Flit where
  seq : Nat
  packet : Nat
  last : Bool := true
  ctx : Nat
  fdom : Nat
  deriving DecidableEq, Repr

/-- One direction of a link: the sender's replay buffer and next sequence number, the sequence number that the receiver
expects, replays in a row and retrainings (R247, R248). -/
structure Link where
  buffer : List Flit := []
  next : Nat := 0
  expect : Nat := 0
  replays : Nat := 0
  retrained : Nat := 0
  retired : Bool := false
  deriving DecidableEq, Repr

/-- The mesh, the fabric and the links (R237-R248). -/
structure Net where
  packets : Table Packet := []
  /-- The home's queue of requests ejected and not yet served, by M-die (R241). -/
  queues : Table (List Nat) := []
  /-- Dies whose source has waited 64 cycles to inject (R241). -/
  starving : List Nat := []
  /-- Flits of class O packets sent and not credited, oldest first, and packets held for want of credit, by source device, target device
  and plane (R244). -/
  used : Table (List Nat) := []
  held : Table (List Nat) := []
  links : Table Link := []
  /-- Contexts that the retirement of a link in progress has halted (R416). -/
  halting : List Nat := []
  deriving DecidableEq, Repr

/-- A peer device of the domain, as far as this device meets it (R252, R255, R259). -/
structure Peer where
  silent : Bool := false
  /-- Its export records (R431) and the pages of the exporting contexts. -/
  exports : Table ExportRec := []
  pages : List PagePin := []
  /-- The symmetric borrows of the jobs there (R378). -/
  syms : List Sym := []
  holds : List (Nat × Nat × Kind) := []
  mem : List Host.Cell := []
  deriving DecidableEq, Repr

/-! ### Attachment -/

/-- A host edge die (R408), its CXL ports (R407) and its root of trust (R412). -/
structure HostEdge where
  hdmBase : Nat := 0
  hdmLen : Nat := 0
  biasBase : Nat := 0
  biasCmd : Nat := 0
  biasPage : Nat := 0
  biasSt : Nat := 0
  /-- The next page of the command in progress, the pages of the table that commands and flips have left in host bias, and those whose
  bits have been written directly since. -/
  biasNext : Nat := 0
  bias : List Nat := []
  direct : List Nat := []
  /-- Page and lines of a flip waiting for a host's answers (R409). -/
  flipping : Option (Nat × Nat) := none
  /-- Bytes that CXL hosts hold dirty in their caches, and the borrow requests that wait for a flip (R409). -/
  cached : Table Byte := []
  waiting : List Nat := []
  /-- Homes that look at their waiting requests again after the flip, and what the last read of a host brought (R409). -/
  again : List Nat := []
  data : Option Nat := none
  verified : Bool := false
  deriving DecidableEq, Repr

/-- What a port of a host edge die is (R407). -/
inductive Port where
  | down | cxl | pcie
  deriving DecidableEq, Repr

/-- The topology block's fields that may change (R415). -/
structure Topology where
  gradeB : Bool := false
  ready : Bool := false
  disabled : List Nat := []
  devNum : Option Nat := none
  devices : Nat := 1
  planes : BitVec 64 := BitVec.allOnes 64
  retired : List Nat := []
  generation : Nat := 0
  deriving DecidableEq, Repr

/-- What the roots of trust say on a port (R412): the answers to SPDM requests, refusals, and the report of a firmware chain that
did not verify. -/
inductive SpdmAnswer where
  | version (major minor : Nat)
  | capabilities
  | algorithms (falcon1024 shake256 : Bool)
  | digests (body : Nat)
  | certificate (body : Nat)
  | challengeAuth (nonce body : Nat)
  | measurement (index body : Nat)
  | refused
  | bootFailure
  deriving DecidableEq, Repr

/-- An SPDM answer sent (R412): on CXL port 0 to 7, or on management port 0 or 1 as 8 or 9. -/
structure Spdm where
  port : Nat
  answer : SpdmAnswer
  deriving DecidableEq, Repr

/-- A pending page-table walk (R402): whose it is and what it translates. -/
structure Walk where
  ctx : Nat := 0
  group : Option Nat := none
  frag : Nat := 0
  base : Nat := 0
  len : Nat := 0
  started : Nat := 0
  /-- The home whose walkers it uses; it waits for one of them (R11, R402). -/
  home : Nat := 0
  queued : Bool := false
  /-- A `tlbi` issued after it began: what it finds enters no translation cache (R391). -/
  stale : Bool := false
  /-- The walk has ended; the pages it found, and the lowest address that it found not mapped. -/
  done : Bool := false
  found : List PagePin := []
  fail : Option Nat := none
  deriving DecidableEq, Repr

/-! ### The device -/

/-- The whole state. -/
structure State where
  cycle : Nat := 0
  /-- Key of the group that holds the issue slot: team number * 16 + position. -/
  cur : Nat := 0
  groups : Table Group := []
  teams : Table Team := []
  launches : Table Launch := []
  tasks : Table Task := []
  clusters : Table Cluster := []
  ctxs : Table Ctx := []
  cc : CcRegs := {}
  exps : Table ExportRec := []
  queues : Table Queue := []
  /-- Physical memory: DRAM and the host window (R405), by physical address. -/
  mem : List Host.Cell := []
  peers : Table Peer := []
  circ : Table Circ := []
  reqs : Table Request := []
  slips : Table Slip := []
  /-- Slips sent to other devices in answer to their requests (R431). -/
  abroad : List Slip := []
  /-- Pinned translations of live borrows, by HANDLE (R195, R403). -/
  pins : Table (List PagePin) := []
  walks : Table Walk := []
  catalogue : Table CatLine := []
  /-- The next way of a bucket that insertion displaces (R269), by 2^20 × home + bucket. -/
  turn : Table Nat := []
  /-- Accesses that lines have served within 4,096 cycles, as (cluster, cycle) (R263). -/
  used : Table (List (Nat × Nat)) := []
  /-- Requests that homes have refused within 1,024 cycles, as (home, AGE, cycle) (R274). -/
  refusals : List (Nat × Nat × Nat) := []
  /-- The edge proxy's line table: pages of other devices' memory that this device holds, and whether it owns them (R270). -/
  pages : Table Bool := []
  cmsgs : Table CMsg := []
  sweeps : Table Sweep := []
  txns : Table Txn := []
  copies : Table Copy := []
  chunks : Table Chunk := []
  streams : Table Stream := []
  carried : List Carried := []
  /-- Range tables of the C-dies (R367). -/
  ranges : Table (List Range) := []
  net : Net := {}
  hostEdges : Table HostEdge := []
  ports : Table Port := []
  topo : Topology := {}
  spdm : List Spdm := []
  /-- Out of reset (R412), power-up stage reached (R413) and throttling (R414). -/
  awake : Bool := false
  stage : Nat := 0
  throttled : Bool := false
  /-- The launch queue that the front end visits next (R362). -/
  rotor : Nat := 0
  kill : List KillJob := []
  interrupts : List Interrupt := []
  /-- Physical lines that hold poisoned data, and the corrected-error count (R417). -/
  poison : List Nat := []
  corrected : Nat := 0
  /-- Fault domains, as (context, domain), whose issue a poisoned read has stopped (R417). -/
  stopped : List (Nat × Nat) := []
  /-- The model's own: next identifiers, the free-value counter, the events owed, who moves next, and the cycle up to
which the device's timers have been looked at (DESIGN CHOICE, log 2, 4). -/
  nextId : Nat := 1
  nextHandle : Nat := 1
  free : Nat := 0
  agenda : List Event := []
  turns : List Nat := []
  picks : List Nat := []
  ticked : Nat := 0
  /-- Groups that have tried to issue and had to wait since anything last happened (R370: ready means it can issue). -/
  stalled : List Nat := []
  deriving DecidableEq, Repr

/-- The device right after reset: unpowered, every table empty, every register at the value the manual gives or, where
it gives none, zero (DESIGN CHOICE, log entries 1, 2, 4, 7). -/
def State.reset : State := {}

end Sys2Proof.Machine
end

