-- ==== Sys2Proof/Machine/Sparse.lean ====
section
/-! DEFINITION. Reading and writing numbered tables, and the canonical form of memory. A table is kept in ascending
order; a canonical table lists no entry equal to what an unlisted number reads as, so equal contents are equal data. -/

namespace Sys2Proof.Machine

/-- The entry of a number, if it is listed. -/
def tfind {α : Type} : Table α → Nat → Option α
  | [], _ => none
  | (k, x) :: m, n => if k = n then some x else tfind m n

/-- The entry of a number; an unlisted number reads as d. -/
def tget {α : Type} (d : α) (m : Table α) (n : Nat) : α := (tfind m n).getD d

/-- Remove a number. -/
def tdel {α : Type} (m : Table α) (n : Nat) : Table α := m.filter (fun e => e.1 != n)

/-- Insert before the first larger number. -/
def tins {α : Type} (m : Table α) (n : Nat) (x : α) : Table α :=
  match m with
  | [] => [(n, x)]
  | e :: m' => if n < e.1 then (n, x) :: e :: m' else e :: tins m' n x

/-- Write the entry of a number. -/
def tput {α : Type} (m : Table α) (n : Nat) (x : α) : Table α := tins (tdel m n) n x

/-- Write the entry of a number in a canonical table: writing d removes the entry. -/
def mset {α : Type} [DecidableEq α] (d : α) (m : Table α) (n : Nat) (x : α) : Table α :=
  if x = d then tdel m n else tput m n x

/-- Change the entry of a number. -/
def tmod {α : Type} (d : α) (m : Table α) (n : Nat) (f : α → α) : Table α := tput m n (f (tget d m n))

/-- The numbers of a table rise strictly. -/
def risesFrom {α : Type} : Nat → Table α → Bool
  | _, [] => true
  | b, (k, _) :: m => decide (b ≤ k) && risesFrom (k + 1) m

/-- The canonical form of memory: strictly rising addresses, and no listed byte equal to what an unlisted one reads as. -/
def Memory.wf (m : List Host.Cell) : Bool := risesFrom 0 m && m.all (fun e => e.2 != Config.ramByte)

/-- One byte of memory. -/
def readByte (m : List Host.Cell) (a : Nat) : Byte := tget Config.ramByte m a

/-- Write one byte of memory, keeping the canonical form. -/
def writeByte (m : List Host.Cell) (a : Nat) (b : Byte) : List Host.Cell := mset Config.ramByte m a b

/-- n bytes from an address, least significant first (R20). -/
def readLe (m : List Host.Cell) (a : Nat) : Nat → Nat
  | 0 => 0
  | n + 1 => (readByte m a).toNat + 256 * readLe m (a + 1) n

/-- Write the n low bytes of a number, least significant first (R20). -/
def writeLe (m : List Host.Cell) (a : Nat) (v : Nat) : Nat → List Host.Cell
  | 0 => m
  | n + 1 => writeByte (writeLe m (a + 1) (v / 256) n) a (BitVec.ofNat 8 v)

/-- The same two operations on a table of bytes that reads zero where it lists nothing (scratch, banks, images). -/
def getLe (m : Table Byte) (a : Nat) : Nat → Nat
  | 0 => 0
  | n + 1 => (tget 0 m a).toNat + 256 * getLe m (a + 1) n

def putLe (m : Table Byte) (a : Nat) (v : Nat) : Nat → Table Byte
  | 0 => m
  | n + 1 => mset 0 (putLe m (a + 1) (v / 256) n) a (BitVec.ofNat 8 v)

/-- Bits [hi:lo] of a number, as the manual writes a field. -/
def bits (w hi lo : Nat) : Nat := w / 2 ^ lo % 2 ^ (hi + 1 - lo)

/-- One bit of a number. -/
def bit (w n : Nat) : Bool := w / 2 ^ n % 2 == 1

/-- A field of w bits read as a two's complement number. -/
def signed (w x : Nat) : Int := if x % 2 ^ w < 2 ^ (w - 1) then (x % 2 ^ w : Nat) else (x % 2 ^ w : Nat) - (2 ^ w : Nat)

/-- Wrap(x, w) of the notation (spec/00_scope.md): the low w bits of an integer. -/
def wrap (w : Nat) (x : Int) : Nat := (x % (2 ^ w : Nat)).toNat

/-- The lanes of a mask, ascending. -/
def lanesOf (m : Mask) : List Nat := (List.range 32).filter (fun l => m.getLsbD l)

/-- The mask with one lane. -/
def laneBit (l : Nat) : Mask := BitVec.ofNat 32 (2 ^ l)

/-- The mask of a list of lanes. -/
def maskOf (ls : List Nat) : Mask := ls.foldl (fun m l => m ||| laneBit l) 0

/-- The lowest lane of a mask (32 for none). -/
def lowest (m : Mask) : Nat := ((List.range 32).find? (fun l => m.getLsbD l)).getD 32

/-- Does the mask hold only lanes of the other? -/
def within (m n : Mask) : Bool := m &&& ~~~n == 0

end Sys2Proof.Machine
end

