-- ==== Sys2Proof/Machine/Ops.lean ====
section
/-! DEFINITION. The named operations over the state: groups, registers, predicates, fragments and their division
(R61 to R72), exits and carries (R86, R169), taking a trap and returning from it (R380, R387), and the start of a kill
(R393). -/

namespace Sys2Proof.Machine

/-! ### Reaching the parts of the state -/

def State.group (s : State) (k : Nat) : Group := tget {} s.groups k
def State.putGroup (s : State) (k : Nat) (g : Group) : State := { s with groups := tput s.groups k g }
/-- The issuing group. -/
def State.grp (s : State) : Group := s.group s.cur
def State.setGrp (s : State) (g : Group) : State := s.putGroup s.cur g
def State.teamOf (s : State) (k : Nat) : Team := tget {} s.teams k
def State.putTeam (s : State) (k : Nat) (t : Team) : State := { s with teams := tput s.teams k t }
/-- The team of the issuing group. -/
def State.team (s : State) : Team := s.teamOf s.grp.team
def State.setTeam (s : State) (t : Team) : State := s.putTeam s.grp.team t
def State.launchOf (s : State) (k : Nat) : Launch := tget {} s.launches k
def State.putLaunch (s : State) (k : Nat) (l : Launch) : State := { s with launches := tput s.launches k l }
/-- The launch of the issuing group. -/
def State.launch (s : State) : Launch := s.launchOf s.team.launch
def State.clusterOf (s : State) (k : Nat) : Cluster := tget {} s.clusters k
def State.putCluster (s : State) (k : Nat) (c : Cluster) : State := { s with clusters := tput s.clusters k c }
/-- The cluster of the issuing group. -/
def State.cluster (s : State) : Cluster := s.clusterOf s.team.cluster
def State.setCluster (s : State) (c : Cluster) : State := s.putCluster s.team.cluster c
def State.ctxOf (s : State) (k : Nat) : Ctx := tget {} s.ctxs k
def State.putCtx (s : State) (k : Nat) (c : Ctx) : State := { s with ctxs := tput s.ctxs k c }
/-- The context of the issuing group. -/
def State.ctx (s : State) : Ctx := s.ctxOf s.team.ctx

/-- The deferred traps that are due in a group are held ones: they belong to no fragment (R382). -/
def Group.holdTraps (g : Group) : Group := { g with deferred := g.deferred.map (fun d => { d with frag := 0 }) }

/-- A halted context resumes (R389); traps that were due while it was halted are taken at its groups' first issue (R382). -/
def State.resumeContext (s : State) (c : Nat) : State :=
  { s.putCtx c { s.ctxOf c with halted := false } with
    stalled := [], groups := s.groups.map (fun (k, g) => (k, if (s.teamOf g.team).ctx == c then g.holdTraps else g)) }

/-- A slot that the arbiters of R334 and R370 leave idle while the device throttles itself: every other one (R414). DESIGN CHOICE,
log 25. -/
def State.idleSlot (s : State) : Bool := s.throttled && s.cycle / 2 % 2 == 1

/-- Add an event to those the device owes. -/
def State.owe (s : State) (i : Event) : State := { s with agenda := s.agenda ++ [i] }

/-- Raise an interrupt to the control complex. Kinds: 1 threshold (R155), 2 trap entry (R375), 3 deferred trap after the
group ended (R382), 4 TAINTED load (R357), 5 queue overflow (R361), 6 queue halt (R57), 7 entry or launch complete (R56),
8 kill (R393), 9 halt (R389), 10 poison (R417), 11 protocol error (R191), 12 lost flits (R248), 13 router or table
error (R417), 14 a poisoned line read by the control complex or a host (R417). -/
def State.interrupt (s : State) (what : Nat) (a b c : Nat) : State :=
  { s with interrupts := s.interrupts ++ [{ what, a, b, c }] }

/-- Power-up has reached its n-th stage (R413): 1 edge dies, M-dies and routers, 2 links and router tables, 3 + x column x. -/
def State.started (s : State) (n : Nat) : Bool := s.awake && decide (n ≤ s.stage)

/-- The C-die has started: the wave of its column has come (R413). -/
def State.dieUp (s : State) (d : Nat) : Bool := s.started (3 + d % 18)

/-- Issue stops from a fault domain, given as context and domain, that has read poisoned data, and the control complex is
interrupted (R417). -/
def State.stopDomain (s : State) (fd : Nat × Nat) : State :=
  { s with stopped := if s.stopped.contains fd then s.stopped else s.stopped ++ [fd] }.interrupt 10 fd.1 fd.2 0

/-- A field of context c's table entry (R379). -/
def State.ctxField (s : State) (c off n : Nat) : Nat := readLe s.mem (s.cc.ctxtab + 64 * c + off) n

/-- The context is a system context (R373, R379). -/
def State.isSystem (s : State) (c : Nat) : Bool := bit (s.ctxField c 0x14 4) 0

/-- GRPSEL's name of a group (R377). -/
def placeName (t : Team) (g : Group) : Nat :=
  t.cluster / 2048 + t.cluster % 2048 * 2 ^ 9 + g.core * 2 ^ 20 + g.place * 2 ^ 22

/-- A byte of this device as the last performed write leaves it (R317): a newer copy in a cluster's cache, or in a whole-line write-back on
its way to its home (R273), or memory. -/
def State.latestByte (s : State) (pa : Nat) : Byte :=
  ((s.clusters.findSome? (fun (_, c) => ((tfind c.cache pa).filter (·.dirty)).map (·.val))).orElse (fun _ =>
    s.cmsgs.findSome? (fun (_, m) => if m.kind == .writeBack then tfind m.data pa else none))).getD (readByte s.mem pa)

/-- n bytes of this device as the last performed writes leave them, least significant first. -/
def State.latestLe (s : State) (pa : Nat) : Nat → Nat
  | 0 => 0
  | n + 1 => (s.latestByte pa).toNat + 256 * s.latestLe (pa + 1) n

/-! ### Mode fields (R29) -/

def Frag.et (f : Frag) : Nat := bits f.mode.toNat 10 7
def Frag.rm (f : Frag) : Nat := bits f.mode.toNat 13 11
def Frag.sat (f : Frag) : Bool := f.mode.getLsbD 15
def Frag.ftz (f : Frag) : Bool := f.mode.getLsbD 14
def Frag.gp (f : Frag) : Nat := bits f.mode.toNat 5 3
def Frag.gn (f : Frag) : Bool := f.mode.getLsbD 6

/-! ### Registers and predicates -/

/-- Lane l of `v`n (R90). -/
def Group.reg (g : Group) (n l : Nat) : Word := tget 0 g.regs (32 * n + l)

/-- Write lane l of `v`n. -/
def Group.setReg (g : Group) (n l : Nat) (x : Word) : Group :=
  { g with regs := mset 0 g.regs (32 * n + l) x, bad := g.bad.filter (· != 32 * n + l) }

/-- Write `v`n in a list of lanes. -/
def Group.setLanes (g : Group) (n : Nat) (f : Nat → Word) : List Nat → Group
  | [] => g
  | l :: ls => (g.setLanes n f ls).setReg n l (f l)

/-- `p`n as a mask: `p0` reads 1 in every lane (R95). -/
def Group.pred (g : Group) (n : Nat) : Mask := if n = 0 then BitVec.allOnes 32 else tget 0 g.preds n

/-- Write `p`n in the lanes of t; writes to `p0` are ignored (R95). -/
def Group.setPred (g : Group) (n : Nat) (t v : Mask) : Group :=
  if n = 0 then g else { g with preds := mset 0 g.preds n ((g.pred n &&& ~~~t) ||| (v &&& t)) }

/-- The lanes that are guarded-on under a fragment's mode (R34). -/
def Group.guard (g : Group) (f : Frag) : Mask := if f.gn then ~~~(g.pred f.gp) else g.pred f.gp

/-- Active() of the issuing fragment: its mask (R13, R62). -/
def State.active (s : State) : Mask := s.grp.cur.mask

/-- T: the active lanes that are guarded-on (R97). -/
def State.lanesT (s : State) : Mask := s.active &&& s.grp.guard s.grp.cur

/-- Every lane neither absent nor exited (R75). -/
def Group.live (g : Group) : Mask := ~~~(g.absent ||| g.exited)

/-- The group is fully fused and guarded-on: what a matrix or copy instruction requires (R34). -/
def State.fullyOn (s : State) : Bool := within s.grp.live s.lanesT

/-! ### Fragments -/

/-- The order of selection: PC, then call depth, then lowest lane (R65). -/
def Frag.before (f h : Frag) : Bool :=
  if f.pc.toNat ≠ h.pc.toNat then decide (f.pc.toNat < h.pc.toNat)
  else if f.depth ≠ h.depth then decide (f.depth < h.depth)
  else decide (lowest f.mask < lowest h.mask)

/-- All entries of the split table that hold a fragment. -/
def Group.frags (g : Group) : List Frag := (g.cur :: g.rest).filter (fun f => f.st != .free)

/-- An identity no fragment of the group has. -/
def Group.freshFrag (g : Group) : Nat :=
  1 + ((g.cur :: g.rest).foldl (fun n f => max n f.id)
    (max ((g.record.map (·.id)).getD 0) (g.deferred.foldl (fun n d => max n d.frag) 0)))

/-- The fragment waits in its instruction while the group's other fragments may issue (R196, R222, R387, R402). The other waits
hold the group: the fragment stays selected and tries again (R63, R234, R311, R324). DEDUCED, log 29. -/
def Wait.holds : Wait → Bool
  | .none | .slot | .carry _ | .barrier _ | .resumed _ | .fence | .flush _ => false
  | .tret | .walk _ | .borrow _ | .fifo _ => true

/-- The instruction has issued, and goes on when its fragment is next selected. -/
def Wait.goesOn : Wait → Bool
  | .resumed _ | .fence | .flush _ => true
  | _ => false

/-- The instruction has issued and keeps the group's issue (R324, R391). -/
def Wait.pinned : Wait → Bool
  | .fence | .flush _ => true
  | _ => false

/-- The identifier under which a waiting instruction keeps its destinations busy (R26). -/
def Wait.mark : Wait → Option Nat
  | .walk n | .fifo n | .resumed n => some n
  | _ => Option.none

/-- Two ready fragments merge at re-evaluation when these are equal (R66); levels never mix. DEDUCED, log 12. -/
def Frag.same (f h : Frag) : Bool :=
  f.st == .ready && h.st == .ready && f.pc == h.pc && f.depth == h.depth && f.mode == h.mode && f.ftop == h.ftop &&
    f.fv == h.fv && f.handler == h.handler && !(f.wait.holds || f.wait.goesOn) && !(h.wait.holds || h.wait.goesOn)

/-- Merge ready fragments of equal keys (R66); one that was resident keeps its entry. -/
def mergeFrags : List Frag → List Frag
  | [] => []
  | f :: fs =>
    let m := mergeFrags fs
    match m.find? f.same with
    | none => f :: m
    | some h => { f with mask := f.mask ||| h.mask, spilled := f.spilled && h.spilled } :: m.erase h

/-- The first of a list under a strict order. -/
def pickBest {α : Type} (lt : α → α → Bool) : List α → Option α
  | [] => none
  | x :: xs => some (xs.foldl (fun b y => if lt y b then y else b) x)

/-- Make room for one more resident entry among 16 (R67): where all are taken, the resident fragment with the highest key is spilled. -/
def spillHighest (fs : List Frag) : List Frag :=
  let res := fs.filter (fun f => !f.spilled)
  if res.length < 16 then fs
  else match pickBest (fun f h => h.before f) res with
    | none => fs
    | some w => fs.map (fun f => if f == w then { f with spilled := true } else f)

/-- The fragments of a division take entries one after the other, each as a resident one (R67). -/
def addResident : List Frag → List Frag → List Frag
  | fs, [] => fs
  | fs, n :: ns => addResident (spillHighest fs ++ [{ n with spilled := false }]) ns

/-- The 16 fragments with the lowest keys are resident, the others spilled (R74). -/
def residents (fs : List Frag) : List Frag :=
  fs.map (fun f => { f with spilled := decide (16 ≤ (fs.filter (fun h => h.before f)).length) })

/-- A fragment may be selected: it is ready, waits in no instruction, and while a fragment is trapped it is a handler fragment
(R63, R73). -/
def Group.selectable (g : Group) (f : Frag) : Bool := f.st == .ready && !f.wait.holds && (g.record.isNone || f.handler)

/-- Re-evaluate the selection (R65 to R67): merge, select the lowest key; a spilled fragment so selected is swapped with the resident
one that has the highest key. While a fence or `tlbi` that has issued is not complete, its fragment stays selected (R324). -/
def Group.reselect (g : Group) : Group :=
  if g.cur.wait.pinned && g.cur.st == .ready then g else
  let fs := mergeFrags g.frags
  match pickBest Frag.before (fs.filter g.selectable) with
  | some f => { g with cur := { f with spilled := false }, rest := if f.spilled then spillHighest (fs.erase f) else fs.erase f }
  | none =>
    match fs with
    | [] => { g with cur := {}, rest := [] }
    | f :: fs' => { g with cur := f, rest := fs' }

/-- Between the points of R65 the selected fragment keeps the fetch slot: where another fragment's wait begins or ends, the selection is made
anew only if the selected fragment can no longer issue. DEDUCED, log 29. -/
def Group.keepSelect (g : Group) : Group := if g.selectable g.cur then g else g.reselect

/-- Put fragment f of the group, as f', in the place of the selected one; a spilled fragment is swapped with the resident one that has the
highest key (R67). -/
def Group.choose (g : Group) (f f' : Frag) : Group :=
  let rest := g.frags.erase f
  { g with cur := { f' with spilled := false }, rest := if f.spilled then spillHighest rest else rest }

/-- A part of a divided fragment (R64): its lanes, PC and depth, and where it leaves the fragment's fuse stack (R82) or
waits. -/
structure Part where
  mask : Mask
  pc : BitVec 64
  depth : Nat
  stack : Option (Nat × Bool) := none
  st : FState := .ready
  deriving DecidableEq, Repr

/-- The fragment of a part: it inherits mode, fuse stack and level (R64). -/
def Part.frag (p : Part) (f : Frag) : Frag :=
  { f with mask := p.mask, pc := p.pc, depth := p.depth, st := p.st, wait := .none,
           ftop := (p.stack.map (·.1)).getD f.ftop, fv := (p.stack.map (·.2)).getD f.fv }

/-- Divide the selected fragment (R64): `next` is the word after the dividing instruction. The new fragments take entries of the split
table (R67). -/
def Group.divide (g : Group) (next : BitVec 64) (parts : List Part) : Group :=
  let ps := parts.filter (fun p => p.mask != 0)
  match (ps.find? (fun p => p.pc == next)).orElse
      (fun _ => (ps.find? (fun p => p.mask.getLsbD (lowest g.cur.mask))).orElse (fun _ => ps.head?)) with
  | none => { g with cur := { g.cur with mask := 0, st := .free } }
  | some k =>
    let new := (ps.erase k).zipIdx.map (fun (p, i) => { p.frag g.cur with id := g.freshFrag + i })
    match addResident (k.frag g.cur :: g.rest.filter (fun f => f.st != .free)) new with
    | [] => g
    | f :: fs => { g with cur := f, rest := fs }

/-! ### Reconvergence -/

/-- Arrivals of a fuse entry (R69). -/
def Group.arrivals (g : Group) (e : Nat) : Mask :=
  (g.frags.filter (fun f => f.st == .joinWait && f.fv && f.ftop == e)).foldl (fun m f => m ||| f.mask) 0

/-- Complete entry e if its expectation is met (R71): its join-wait fragments become one. -/
def Group.complete (g : Group) (e : Nat) : Group :=
  let p := tget {} g.pool e
  if p.live && p.exp != 0 && within p.exp (g.arrivals e) then
    let ms := g.frags.filter (fun f => f.st == .joinWait && f.fv && f.ftop == e)
    let others := g.frags.filter (fun f => !(f.st == .joinWait && f.fv && f.ftop == e))
    match pickBest (fun f h : Frag => decide (lowest f.mask < lowest h.mask)) ms with
    | none => g
    | some lead =>
      { g with
        cur := { lead with mask := p.exp, pc := p.tgt + 4, depth := p.depth, st := .ready, ftop := p.parent, fv := p.pv,
                           id := g.freshFrag, wait := .none, spilled := ms.all (·.spilled) }
        rest := others
        pool := tdel g.pool e }
  else g

/-- Remove lanes from the expectation of every live entry (R70); entries left empty are freed, entries met complete. -/
def Group.withdraw (g : Group) (lanes : Mask) : Group :=
  let pool := (g.pool.map (fun (k, p) => (k, { p with exp := p.exp &&& ~~~lanes }))).filter (fun (_, p) => p.exp != 0)
  pool.foldl (fun g' (k, _) => g'.complete k) { g with pool := pool }

/-- The chain of a fragment's fuse stack, top first (R69). -/
def Group.chain (g : Group) : Nat → Nat → Bool → List Nat
  | 0, _, _ => []
  | n + 1, top, v => if v then top :: (let p := tget {} g.pool top; g.chain n p.parent p.pv) else []

/-- The fuse stack below every entry of the chain with DEPTH d or more (R82). -/
def Group.below (g : Group) (d : Nat) : Nat → Nat → Bool → Nat × Bool
  | 0, _, _ => (0, false)
  | n + 1, top, v =>
    if v then
      let p := tget {} g.pool top
      if d ≤ p.depth then g.below d n p.parent p.pv else (top, true)
    else (0, false)

/-- `ret` from depth d withdraws lanes from the entries of the chain with DEPTH d or more (R70, R82). -/
def Group.withdrawReturn (g : Group) (lanes : Mask) (d : Nat) : Group :=
  let es := (g.chain 64 g.cur.ftop g.cur.fv).filter (fun e => decide (d ≤ (tget {} g.pool e).depth))
  let pool := (g.pool.map (fun (k, p) => if es.contains k then (k, { p with exp := p.exp &&& ~~~lanes }) else (k, p))).filter
    (fun (_, p) => p.exp != 0)
  { g with pool := pool }

/-! ### Trap entry and the start of a kill -/

/-- Is a team of the fault domain that a kill names? -/
def State.inDomain (s : State) (whole : Bool) (c d : Nat) (t : Team) : Bool :=
  t.st != .absent && t.ctx == c && (whole || (s.launchOf t.launch).lcb.fdom == d)

/-- Steps 1 to 3 of a kill (R393): issue stops, launches and tasks go, copies and passes stop, carry state and dirty lines
are discarded, residency is freed. The walk and the record follow in KILL_COMPLETE. A domain whose kill is in progress is
joined (R394). -/
def State.beginKill (s : State) (job : KillJob) : State :=
  if s.kill.any (fun j => j.ctx == job.ctx && (j.whole || (j.fdom == job.fdom && !job.whole))) then s
  else
    let dead := (s.teams.filter (fun (_, t) => s.inDomain job.whole job.ctx job.fdom t)).map (·.1)
    let gone := (s.launches.filter (fun (_, l) => l.st != .none && l.ctx == job.ctx &&
      (job.whole || l.lcb.fdom == job.fdom))).map (·.1)
    let mine := fun (t : Nat) => dead.contains t
    let frames := (s.teams.filter (fun (k, t) => mine k && (t.st == .saved || t.st == .draining))).map (fun (_, t) => t.frame)
    let cx := s.ctxOf job.ctx
    { s with
      kill := s.kill ++ [{ job with copies := s.copies.filter (fun (_, c) => mine c.team) }]
      copies := s.copies.map (fun (k, c) => (k, if mine c.team then { c with killed := true } else c))
      ctxs := tput s.ctxs job.ctx { cx with frames := cx.frames.filter (fun f => !frames.contains f) }
      groups := s.groups.filter (fun (_, g) => !mine g.team)
      teams := s.teams.filter (fun (k, _) => !mine k)
      launches := (s.launches.filter (fun (k, l) => !(gone.contains k && l.st == .held))).map (fun (k, l) =>
        if gone.contains k then (k, { l with st := .killed }) else (k, l))
      ranges := s.ranges.map (fun (d, rs) => (d, rs.filter (fun r => !gone.contains r.launch)))
      tasks := s.tasks.filter (fun (_, k) => !gone.contains k.launch)
      carried := s.carried.filter (fun v => !gone.contains v.launch)
      chunks := s.chunks.filter (fun (n, k) =>
        !(mine k.team && (k.work.isEmpty || s.net.packets.any (fun (_, j) => j.waiting && j.event == some (.chunk n)))))
      slips := s.slips.map (fun (k, x) => (k, if (tfind s.reqs x.req).any (fun r => mine r.team || gone.contains (tget {} s.tasks r.team).launch) then
        { x with dead := true } else x))
      net := { s.net with packets := s.net.packets.filter (fun (_, j) => !(j.waiting && (match j.event with
        | some (.chunk n) => (tfind s.chunks n).any (fun c => mine c.team)
        | _ => false))) }
      clusters := s.clusters.map (fun (k, c) => (k, { c with
        cache := c.cache.filter (fun (_, b) => !mine b.team)
        reserve := c.reserve.filter (fun r => !mine (r.group / 16))
        engines := c.engines.map (fun (e, g) => if (g.owner.map mine).getD false then (e, { g with owner := none, accs := [] }) else (e, g))
        slots := c.slots.filter (fun (n, _) => !((tget {} c.engines (n / 16)).owner.map mine).getD false)
        queue := c.queue.filter (fun k => !gone.contains (tget {} s.tasks k).launch) }))
      cc := { s.cc with killReg := if job.cause = 1 then s.cc.killReg else s.cc.killReg ||| 1 }
      agenda := s.agenda ++ [.killComplete] }

/-- TCAUSE (R381). -/
def causeWord (code detail : Nat) (defer : Bool) : Word :=
  BitVec.ofNat 32 (code + detail * 256 + (if defer then 0x10000 else 0))

/-- Take a trap in the issuing group (R380). At user level the trap registers are written, the fragment becomes the trap
record and a handler fragment takes its entry; at handler level it is a double trap (R384). -/
def State.trapWith (s : State) (code detail : Nat) (addr : BitVec 64) (defer : Bool) : State :=
  let g := s.grp
  let f := g.cur
  if f.handler then
    s.beginKill { ctx := s.team.ctx, whole := false, fdom := s.launch.lcb.fdom, cause := 2, code, detail,
                  lcb := s.launch.lcb.addr, pc := f.pc.toNat }
  else
    let s1 := s.setGrp { g with
      tcause := causeWord code detail defer, tpc := f.pc, taddr := addr, tmask := f.mask,
      tmode := f.mode.setWidth 32, record := some { f with st := .trapped, wait := .none },
      cur := { mask := f.mask, pc := BitVec.ofNat 64 s.launch.lcb.handler, st := .ready, handler := true, id := g.freshFrag },
      deferred := g.deferred.map (fun d => { d with frag := 0 }), dog := 0, last := s.cycle, sweeping := none }
    let s2 := { s1 with stalled := [] }
    if s.ctx.exctl.getLsbD 2 then s2.interrupt 2 (placeName s.team g) code detail else s2

/-- A trap with TADDR 0, raised by the instruction at the saved PC. -/
def State.trap (s : State) (code detail : Nat) : State := s.trapWith code detail 0 false

/-- Every live handler lane of the group (R387). -/
def Group.handlerLanes (g : Group) : Mask := (g.frags.filter (·.handler)).foldl (fun m f => m ||| f.mask) 0

/-- Return from the handler (R387), once every handler fragment has issued `tret`: the trapped fragment takes the handler
lanes, PC TPC, mode TMODE and user level, every handler fragment is freed, and the instruction buffer is cold (R73). -/
def Group.returnFromTrap (g : Group) : Group :=
  match g.record with
  | none => g
  | some f =>
    { g with record := none, rest := g.rest.filter (fun h => !h.handler),
             cur := { f with mask := g.handlerLanes, pc := g.tpc &&& ~~~3, mode := g.tmode.setWidth 16, st := .ready,
                             wait := .none, handler := false }, ibuf := [] }.reselect

/-! ### Exits -/

/-- A launch is ordered when it declares a carry slot (R158). -/
def Launch.ordered (l : Launch) : Bool := l.lcb.carry.any (·.2.valid)

/-- The binding register of a slot in a lane (R159). -/
def Group.binding (g : Group) (l : Launch) (j lane : Nat) : Nat :=
  (tfind g.bind (32 * j + lane)).getD (tget {} l.lcb.carry j).reg

/-- Publish a value for an item and slot (R165): its carry message follows (R174). -/
def State.publish (s : State) (l item j : Nat) (v : Option Word) : State :=
  { s with
    carried := s.carried ++ [{ launch := l, item, slot := j, value := v, cluster := s.team.cluster, issued := s.cycle }]
    agenda := s.agenda ++ [.carryMessage l item j] }

/-- The slots that an exiting lane still owes (R169, R170). -/
def State.publishLane (s : State) (g : Group) (lane : Nat) (broken : Bool) : State :=
  (List.range 4).foldl (fun s' j =>
    if (tget ({} : CarrySlot) s.launch.lcb.carry j).valid && !(tget 0 g.pub j).getLsbD lane then
      s'.publish s.team.launch (32 * g.ord + lane) j (if broken then none else some (g.reg (g.binding s.launch j lane) lane))
    else s') s

/-- Every group of a team is complete (R75). -/
def State.teamComplete (s : State) (t : Nat) : Bool := s.groups.all (fun (_, g) => g.team != t || g.live == 0)

/-- Every handler fragment has issued `tret` and waits in it: the handler ends (R387). -/
def Group.settleTret (g : Group) : Group :=
  let hs := g.frags.filter (·.handler)
  if g.record.isSome && !hs.isEmpty && hs.all (fun f => f.wait == .tret) then g.returnFromTrap else g

/-- Lanes of a group that have ended leave every mask and expectation (R70, R86); lanes ending in a handler also leave the
trapped fragment (R383). -/
def Group.drop (g : Group) (lanes : Mask) : Group :=
  let fs := (g.cur :: g.rest).map (fun f =>
    let m := f.mask &&& ~~~lanes
    { f with mask := m, st := if m == 0 then .free else f.st })
  let g1 := { g with cur := fs.headD {}, rest := fs.drop 1, exited := g.exited ||| lanes,
                     record := g.record.map (fun f : Frag => ({ f with mask := f.mask &&& ~~~lanes } : Frag)) }
  let g2 := g1.withdraw lanes
  if g2.handlerLanes == 0 && (g2.record.map (fun f => f.mask == 0)).getD true then { g2 with record := none }
  else g2.settleTret

/-- Values that only a group which has retired would read are dropped (R168, R174). -/
def State.dropCarried (s : State) (g : Group) : State :=
  let ln := (s.teamOf g.team).launch
  { s with carried := s.carried.filter (fun v =>
      !(v.launch == ln && (v.item + (tget ({} : CarrySlot) (s.launchOf ln).lcb.carry v.slot).k) / 32 == g.ord)) }

/-- A team whose groups are complete and whose copies, engine operations and divisions are done ends (R294, R358); no event of a
division is lost (R152). DEDUCED, log 43. -/
def State.endTeam (s : State) (k : Nat) : State :=
  let t := s.teamOf k
  if t.st == .resident && s.teamComplete k && !s.copies.any (fun (_, c) => c.team == k) &&
      !(s.clusterOf t.cluster).reserve.any (fun r => r.group / 16 == k) &&
      !(s.clusterOf t.cluster).divq.any (fun x : Nat × List DivOp => x.2.any (fun d => d.group / 16 == k)) then
    (s.putTeam k { t with st := .ending }).owe (.teamEnd k)
  else s

/-- What follows when a group has no live lane left (R75, R382, R294, R358): deferred traps not raised become interrupts,
and a team whose groups are complete and whose copies are done ends. -/
def State.afterExit (s : State) (k : Nat) : State :=
  let g := s.group k
  if g.live == 0 then
    let t := s.teamOf g.team
    let s1 := g.deferred.foldl (fun s' d => s'.interrupt 3 (placeName t g) d.code d.detail) s
    ((s1.putGroup k { g with deferred := [] }).dropCarried g).endTeam g.team
  else s

/-- The lowest item of a launch, from group ordinal o on, that has not retired (R160): teams below the next ordinal to start
that are gone have ended. -/
def State.lowFrom (s : State) (l : Nat) (ln : Launch) : Nat → Nat → Nat
  | 0, o => 32 * o
  | n + 1, o =>
    match s.groups.find? (fun (_, g) => (s.teamOf g.team).launch == l && g.ord == o) with
    | some (_, g) => if g.live == 0 then s.lowFrom l ln n (o + 1) else 32 * o + lowest g.live
    | none => if o / ln.lcb.teamSize < ln.next then s.lowFrom l ln n (o + 1) else 32 * o

/-- The lowest unretired item advances (R160, R371). -/
def State.advanceLow (s : State) (l : Nat) : State :=
  let ln := s.launchOf l
  s.putLaunch l { ln with low := s.lowFrom l ln (ln.next * ln.lcb.teamSize + 1 - ln.low / 32) (ln.low / 32) }

/-- End lanes of the issuing group, whose registers publication reads as g holds them (R86, R169, R170). The launch home learns of the
retirement (R371). -/
def State.exitLanes (s : State) (g : Group) (lanes : Mask) (broken : Bool) : State :=
  let s1 := if s.launch.ordered then (lanesOf lanes).foldl (fun s' l => s'.publishLane g l broken) s else s
  let s2 := (s1.setGrp (s1.grp.drop lanes)).afterExit s.cur
  if s.launch.ordered then (s2.advanceLow s.team.launch).owe (.boost s.team.launch) else s2

end Sys2Proof.Machine
end

