-- ==== Sys2Proof/Machine/Address.lean ====
section
/-! DEFINITION. Apertures (R211), the homes of physical addresses (R212, R405) and the page tables (R400, R401). -/

namespace Sys2Proof.Machine

/-! ### Apertures (R211) -/

inductive Aperture where
  | global | peer | cluster | local_ | none
  deriving DecidableEq, Repr

def peerBase : Nat := 0x4000000000000000
def clusterBase : Nat := 0xFFFFFF0000000000
def localBase : Nat := 0xFFFFFFF000000000

/-- The aperture that holds an address. -/
def aperture (a : Nat) : Aperture :=
  if a < 2 ^ 56 then .global
  else if peerBase ≤ a ∧ a < peerBase + 4096 * 2 ^ 40 then .peer
  else if clusterBase ≤ a ∧ a < clusterBase + 2 ^ 32 then .cluster
  else if localBase ≤ a ∧ a < localBase + 2 ^ 32 then .local_
  else .none

/-- The range lies wholly in the global aperture, or in one peer handle's span (R201). -/
def inOneSpan (base len : Nat) : Bool :=
  (aperture base == .global && decide (base + len ≤ 2 ^ 56)) ||
  (aperture base == .peer && decide ((base - peerBase) / 2 ^ 40 = (base + len - 1 - peerBase) / 2 ^ 40))

/-! ### Dies and homes -/

/-- A die number is that of an M-die or a C-die (R6). -/
def isMdie (d : Nat) : Bool := decide (d < 288) && (d / 18 + d % 18) % 2 == 1
def isCdie (d : Nat) : Bool := decide (d < 288) && (d / 18 + d % 18) % 2 == 0

def Topology.enabled (t : Topology) (d : Nat) : Bool := !t.disabled.contains d
/-- The enabled M-dies and C-dies, ascending (R18, R415). -/
def State.mdies (s : State) : List Nat := (List.range 288).filter (fun d => isMdie d && s.topo.enabled d)
def State.cdies (s : State) : List Nat := (List.range 288).filter (fun d => isCdie d && s.topo.enabled d)
/-- A topology that some part has (R18): a TZC1-A has every die, a TZC1-B at least 136 C-dies and 140 M-dies. -/
def Topology.legal (t : Topology) : Bool :=
  decide ((if t.gradeB then Config.leastCdies else Config.allDies) ≤ ((List.range 288).filter (fun d => isCdie d && t.enabled d)).length) &&
  decide ((if t.gradeB then Config.leastMdies else Config.allDies) ≤ ((List.range 288).filter (fun d => isMdie d && t.enabled d)).length)
/-- NM (R212). -/
def State.nm (s : State) : Nat := 144 - (s.topo.disabled.filter isMdie).length

/-- Bytes of L2 slice and of DRAM of the device (R18). -/
def State.l2Bytes (s : State) : Nat := s.nm * Config.l2Slice
def State.dramBytes (s : State) : Nat := s.nm * Config.dieDram

def State.isDram (s : State) (pa : Nat) : Bool := decide (pa < s.dramBytes)
def isHostWindow (pa : Nat) : Bool := decide (Config.hostWindow ≤ pa ∧ pa < Config.hostWindow + Config.hostWindowBytes)
def isRegSpace (pa : Nat) : Bool := decide (Config.regSpace ≤ pa ∧ pa < Config.regSpace + 2 ^ 32)
/-- The address names DRAM or host memory (R405). -/
def State.isMemory (s : State) (pa : Nat) : Bool := s.isDram pa || isHostWindow pa

/-- The home of a physical address: the M-die of its shelf (R212); die numbers 288 and 289 stand for HE0 and HE1, the homes
of the host window of ports 0-3 and 4-7 (R410), whose halves are an assumption of the model (PRESUMED, log 10). -/
def State.home (s : State) (pa : Nat) : Nat :=
  if isHostWindow pa then 288 + (pa - Config.hostWindow) / 2 ^ 49
  else
    let n := s.nm
    let sh := pa / 65536
    s.mdies.getD ((sh % n + sh / n) % n) 0

/-- An M-die as a home index, and the byte address in its DRAM (R212). -/
def State.homeLocal (s : State) (pa : Nat) : Nat := pa / 65536 / s.nm * 65536 + pa % 65536

/-! ### Page tables (R400, R401): a walk reads each entry as the writes performed so far leave it (R402) -/

/-- Is a page-table entry well formed apart from its level? -/
def pteSane (e : Nat) : Bool := bit e 0 && !bit e 63 && bits e 60 52 == 0 && bits e 11 6 == 0

def ptePa (e : Nat) : Nat := bits e 51 12 * 4096

/-- A leaf of 2^n bytes for va in context c: none where it reads as not mapped. DEDUCED, log 11. -/
def State.leaf (s : State) (c va e n : Nat) : Option PagePin :=
  let pa := ptePa e
  if pa % 2 ^ n ≠ 0 ∨ (bit e 2 && !bit e 1) ∨ !s.isMemory pa ∨ !s.isMemory (pa + 2 ^ n - 1) then none
  else some { ctx := c, va := va / 2 ^ n * 2 ^ n, pa, bits := n, ptype := bits e 62 61, xp := bit e 3, w := bit e 2, rd := bit e 1 }

/-- The 16 entries of a 64 KiB page are equal but for PA [15:12] (R401). -/
def State.contGroup (s : State) (table ix : Nat) : Bool :=
  let first := s.latestLe (table + 8 * (ix / 16 * 16)) 8
  (List.range 16).all (fun i =>
    let e := s.latestLe (table + 8 * (ix / 16 * 16 + i)) 8
    bits e 63 16 == bits first 63 16 && bits e 11 0 == bits first 11 0)

/-- Walk from a table down the levels listed (R400): each level by its lowest index bit. -/
def State.walkFrom (s : State) (c va : Nat) : List Nat → Nat → Option PagePin
  | [], _ => none
  | lo :: ls, table =>
    let ix := va / 2 ^ lo % (if lo = 48 then 256 else 512)
    let e := s.latestLe (table + 8 * ix) 8
    if !pteSane e then none
    else if bit e 4 then
      if lo = 12 ∧ bit e 5 then (if s.contGroup table ix then s.leaf c va (e / 2 ^ 16 * 2 ^ 16 + e % 2 ^ 12) 16 else none)
      else if lo ≤ 30 ∧ !bit e 5 then s.leaf c va e lo
      else none
    else if lo = 12 ∨ bit e 5 ∨ bits e 3 1 ≠ 0 ∨ bits e 62 61 ≠ 0 ∨ !s.isDram (ptePa e) ∨ !s.isDram (ptePa e + 4095) then none
    else s.walkFrom c va ls (ptePa e)

/-- The page that holds a global virtual address under a context's tables (R400). -/
def State.walkPage (s : State) (c va : Nat) : Option PagePin :=
  let root := s.ctxField c 0 8
  let table := bits root 51 12 * 4096
  if bit root 0 && s.isDram table && s.isDram (table + 4095) then s.walkFrom c va [48, 39, 30, 21, 12] table else none

/-- Does a page hold an address; the physical address it gives. -/
def PagePin.holds (p : PagePin) (va : Nat) : Bool := decide (p.va ≤ va ∧ va < p.va + 2 ^ p.bits)
def PagePin.at_ (p : PagePin) (va : Nat) : Nat := p.pa + (va - p.va)

/-- The page of a list that holds an address. -/
def pinFind (ps : List PagePin) (va : Nat) : Option PagePin := ps.find? (·.holds va)

/-- Translate by a list of pages. -/
def translate (ps : List PagePin) (va : Nat) : Option Nat := (pinFind ps va).map (·.at_ va)

/-- The pages of a range, each by `page`; or the first address for which it gives none. Recursion on the pages' number. -/
def pagesOf (page : Nat → Option PagePin) : Nat → Nat → Nat → Except Nat (List PagePin)
  | 0, _, _ => .ok []
  | n + 1, va, stop =>
    if stop ≤ va then .ok []
    else match page va with
      | none => .error va
      | some p => match pagesOf page n (p.va + 2 ^ p.bits) stop with
        | .error e => .error e
        | .ok ps => .ok (p :: ps)

/-- The pages of [va, va + len) under the tables. -/
def State.walkRange (s : State) (c va len : Nat) : Except Nat (List PagePin) :=
  pagesOf (s.walkPage c) (len / 4096 + 2) va (va + len)

end Sys2Proof.Machine
end

