-- ==== Sys2Proof/Machine/Flags.lean ====
section
/-! DEFINITION. The event counters of a team: totals, windows, thresholds and what a tripped threshold does (R152 to R155),
and the deferred traps a group holds (R382). Classes: 0 overflow, 1 invalid, 2 saturation, 3 underflow to zero,
4 block-exponent clamp, 5 integer divide by zero. -/

namespace Sys2Proof.Machine

/-- Add a deferred trap to a group: one of each code, keeping the lower detail; one that is held belongs to no
fragment (R382). -/
def Group.defer (g : Group) (code detail frag : Nat) : Group :=
  if g.deferred.any (fun d => d.code == code) then
    { g with deferred := g.deferred.map (fun d => if d.code == code then { d with detail := min d.detail detail } else d) }
  else { g with deferred := g.deferred ++ [{ code, detail, frag := if g.record.isSome then 0 else frag }] }

/-- A deferred trap falls due in group k (R382); a group that has completed interrupts the control complex instead. -/
def State.deferTrap (s : State) (k code detail frag : Nat) : State :=
  let g := s.group k
  if g.live == 0 then s.interrupt 3 (placeName (s.teamOf g.team) g) code detail
  else s.putGroup k (g.defer code detail frag)

/-- Cycles of a class's window (R153). -/
def windowCycles (e : Word) : Nat := (if bits e.toNat 29 24 = 0 then 64 else bits e.toNat 29 24) * 1024

/-- The class's threshold trips when its window count stands at w after an event (R155). -/
def Team.trips (t : Team) (c w : Nat) : Bool :=
  let e := tget 0 t.evth c
  e.getLsbD 31 && !t.evstat.getLsbD c && decide (bits e.toNat 23 0 < w)

/-- The lowest group with an event of class c in this cycle, with its fragment, when group k has one; and whether the class has tripped
in it (R155). -/
def Team.lowestEvent (t : Team) (now c k frag : Nat) : Nat × Nat × Bool :=
  match tfind t.lowest c with
  | some (was, k0, f0, trip) => if was = now then (if k0 < k then (k0, f0, trip) else (k, frag, trip)) else (k, frag, false)
  | none => (k, frag, false)

/-- A trip of class c in an earlier cycle, or in any where `now` does not hold it back, falls due in the lowest group with an event in its
cycle (R155, R382). -/
def State.raiseTrip (s : State) (team : Nat) (now : Option Nat) (c : Nat) : State :=
  let t := s.teamOf team
  match tfind t.lowest c with
  | some (was, k, f, true) =>
    if now = some was then s
    else (s.putTeam team { t with lowest := tput t.lowest c (was, k, f, false) }).deferTrap k 0x30 c f
  | _ => s

/-- Every such trip of a team. -/
def State.raiseTrips (s : State) (team : Nat) (now : Option Nat) : State :=
  if (s.teamOf team).lowest.isEmpty then s else (List.range 6).foldl (fun s' c => s'.raiseTrip team now c) s

/-- Count n events of class c for group k, and note a trip (R152, R155): of the groups with events in the cycle of the trip, the fragment of
the lowest traps, once the cycle is over or the group is to issue. -/
def State.countClass (s0 : State) (k frag c n : Nat) : State :=
  if n = 0 then s0
  else
    let s := s0.raiseTrip (s0.group k).team (some s0.cycle) c
    let g := s.group k
    let t := s.teamOf g.team
    let w := tget 0 t.window c + n
    let t1 := { t with total := mset 0 t.total c (min (tget 0 t.total c + n) (2 ^ 32 - 1)), window := mset 0 t.window c w }
    let low := t.lowestEvent s.cycle c k frag
    let act := (tget 0 t.evth c).getLsbD 30
    let t2 := { t1 with lowest := tput t.lowest c (s.cycle, low.1, low.2.1, low.2.2 || (t.trips c w && !act)) }
    if t.trips c w then
      let s1 := s.putTeam g.team { t2 with evstat := t.evstat ||| BitVec.ofNat 32 (2 ^ c) }
      if act then s1.interrupt 1 g.team c 0 else s1
    else s.putTeam g.team t2

/-- Count a list of events, given by their classes. -/
def State.countEvents (s : State) (k frag : Nat) (evs : List Nat) : State :=
  (List.range 6).foldl (fun s' c => s'.countClass k frag c (evs.count c)) s

/-- Start a new window of class c of a team (R152). -/
def State.resetWindow (s : State) (t c : Nat) : State :=
  let tm := s.teamOf t
  if tm.st == .absent then s else s.putTeam t { tm with window := mset 0 tm.window c 0 }

end Sys2Proof.Machine
end

