-- ==== Sys2Proof/Machine/Operands.lean ====
section
/-! DEFINITION. How an instruction is admitted, reads its operands and retires. Steps 4 to 7 of R35, STALL_SHORT (R27), the
scoreboard (R26), back views with their traps and parking (R161 to R164), early reads (R28), and the counted gap that a
fixed-latency result leaves (R25). Codes of registers: 0-59 vector, 60-63 back view, 64 + p predicate, 128 + g region,
160 + w barrier, 192 + s operand slot, 208 + a accumulator. -/

namespace Sys2Proof.Machine

/-- What an instruction needs of the machine before it acts. -/
structure Use where
  /-- The stall count of the word, and the latency of a fixed-latency result (R25). -/
  stall : Nat := 0
  lat : Nat := 0
  /-- The guard is consulted: columns L and W of the opcode map (R34). -/
  guarded : Bool := true
  /-- Step 4: the detail of PRIVILEGE, if the fragment lacks the privilege (R373). -/
  priv : Option Nat := none
  /-- Step 5: the class field (R35). -/
  cls : Nat := 0
  /-- Step 6: the trap that the element type draws (R33). -/
  step6 : Option (Nat × Nat) := none
  /-- Step 7: a field value not allowed under the element type in force. -/
  step7 : Bool := false
  /-- Codes read by fields, in the order d, a, b, c, then vector registers read without a field (R27). -/
  srcs : List Nat := []
  /-- The predicate that selects without a register field (R125). -/
  sel : Option Nat := none
  /-- Codes written. -/
  dsts : List Nat := []
  /-- The lanes whose view of the first source a lane reads, where they are not its own (R116, R150). -/
  redirect : Option (Group → Nat → List Nat) := none
  /-- A trap of the instruction's own that comes before those of back views, by T (R177, R178). -/
  check : Mask → Option (Nat × Nat) := fun _ => none

/-- An admitted instruction: the group as its sources read, the lanes that act and the lanes that park (R162), the latter with
what they wait for. -/
structure Issue where
  see : Group
  t : Mask
  w : Mask := 0
  needs : List (Nat × Nat × Nat) := []

/-- The answer of the checks. -/
inductive Verdict where
  | trap (code detail : Nat)
  | wait
  | go (io : Issue)

/-! ### Element types (R30, R33) -/

/-- The trap of R33: column 1 admits integer types, column 2 float types, column 0 any; then the entry's own list. -/
def etCheck (column : Nat) (entry : List Nat) (et : Nat) : Option (Nat × Nat) :=
  if (column = 1 ∧ 8 ≤ et) ∨ (column = 2 ∧ (et < 8 ∨ 11 ≤ et)) then some (2, 2)
  else if entry.contains et then none else some (2, 3)

def allTypes : List Nat := List.range 16
/-- i32, n32, i64, n64. -/
def scalarInts : List Nat := [0, 1, 2, 3]

/-- The element type of the issuing fragment, and whether it is 64 bits wide. -/
def State.et (s : State) : Nat := s.grp.cur.et
def State.wide (s : State) : Bool := s.et == 2 || s.et == 3

/-- The registers of an operand: one, or a pair. -/
def regs (wide : Bool) (n : Nat) : List Nat := if wide then [n, n + 1] else [n]
def quadRegs (n : Nat) : List Nat := [n, n + 1, n + 2, n + 3]

/-! ### The operands as read -/

/-- The value of an operand in a lane: a register, or a pair with the low word in the even register. -/
def Group.val (g : Group) (wide : Bool) (n l : Nat) : Nat :=
  if wide then (g.reg n l).toNat + 2 ^ 32 * (g.reg (n + 1) l).toNat else (g.reg n l).toNat

/-- Write an operand in lanes. -/
def Group.putVal (g : Group) (wide : Bool) (n : Nat) (f : Nat → Nat) (ls : List Nat) : Group :=
  let g1 := g.setLanes n (fun l => BitVec.ofNat 32 (f l)) ls
  if wide then g1.setLanes (n + 1) (fun l => BitVec.ofNat 32 (f l / 2 ^ 32)) ls else g1

/-- What one lane of a register may hold when it is read in a cycle before its producers' latencies have elapsed (R28): going back
over the producers of the lane, newest first, the free choice takes either the value after a producer's write or the one before it; a
write that has landed hides the earlier ones. -/
def earlyValue (cycle : Nat) (pick : Nat → Bool) (l : Nat) : List Owed → Word → Word
  | [], now => now
  | e :: es, now =>
    if !e.lanes.getLsbD l then earlyValue cycle pick l es now
    else if decide (cycle < e.due) && pick es.length then earlyValue cycle pick l es (tget 0 e.old l) else now

/-- The owed results of a register, newest first. -/
def Group.owedOf (g : Group) (c : Nat) : List Owed := (g.owed.filter (fun e => e.code == c)).reverse

/-- The free choice of an early read. -/
def State.early (s : State) (c l n : Nat) : Bool := Config.freeBit (((s.free * 256 + c) * 32 + l) * 64 + n)

/-- The group with one register as an early read sees it. -/
def State.seeOne (s : State) (g : Group) (c : Nat) : Group :=
  let es := g.owedOf c
  if es.isEmpty then g
  else if c < 60 then g.setLanes c (fun l => earlyValue s.cycle (s.early c l) l es (g.reg c l)) (List.range 32)
  else if 65 ≤ c ∧ c < 72 then
    let p := g.pred (c - 64)
    let new := maskOf ((List.range 32).filter (fun l =>
      earlyValue s.cycle (s.early c l) l es (if p.getLsbD l then 1 else 0) == 1))
    g.setPred (c - 64) (BitVec.allOnes 32) new
  else g

/-- The guard's code, if the guard is consulted, and the selector's (R125). -/
def State.implicit (s : State) (u : Use) : List Nat :=
  (if u.guarded then [64 + s.grp.cur.gp] else []) ++ (u.sel.map (64 + ·)).toList

/-- The checking scoreboard is on (R27, R375). -/
def State.schk (s : State) : Bool := s.ctx.exctl.getLsbD 0

/-- The first source whose counted gap falls short (R27). -/
def State.shortSource (s : State) (u : Use) : Option Nat :=
  if s.schk then (u.srcs ++ s.implicit u).find? (fun c => s.grp.owed.any (fun e => e.code == c)) else none

/-- A copy of the group is still to write a register of its own window, or to read it where `reads` says so: register n is the
128 bytes at offset 128 n (R90, R298). -/
def Group.footReg (g : Group) (c : Nat) (reads : Bool) : Bool :=
  decide (c < 60) && g.foot.any (fun f => (f.writes || reads) &&
    decide (f.base < localBase + g.pos * 0x2000 + 128 * c + 128) && decide (localBase + g.pos * 0x2000 + 128 * c < f.base + f.len))

/-- The issuing instruction has issued before and goes on after its wait: it has read its operands and holds its destinations. -/
def State.goesOn (s : State) : Bool := s.grp.cur.wait.goesOn

/-- A register the instruction reads or writes is still to be written, or a register it writes to be read (R26, R298). -/
def State.mustWait (s : State) (u : Use) : Bool :=
  let g := s.grp
  (u.srcs ++ s.implicit u ++ u.dsts).any (fun c => g.busy.any (fun b => b.1 == c)) ||
    (!g.foot.isEmpty && (u.srcs.any (fun c => g.footReg c false) || u.dsts.any (fun c => g.footReg c true)))

/-! ### Back views (R161) -/

/-- A back view as a lane finds it. -/
inductive View where
  | val (x : Word)
  | broken
  | waiting (item : Nat)
  deriving DecidableEq, Repr

/-- Where seed word i of a slot stands, if the slot has seeds (R161). -/
def Launch.seedAt (l : Launch) (j i : Nat) : Option Nat :=
  let base := (tget ({} : CarrySlot) l.lcb.carry j).seed
  if base = 2 ^ 64 - 1 then none else translate l.pins (base + 4 * i)

/-- Seed word i of a slot, through the launch's pinned pages (R161): the word that stood there when the launch began. One that
differs from it now has been changed and reads as a free value. DEDUCED, log 17. -/
def State.seedWord (s : State) (j i : Nat) : Word :=
  let was := tget 0 s.launch.seeds (1024 * j + i)
  match s.launch.seedAt j i with
  | none => 0
  | some pa =>
    let changed := (List.range 4).any (fun b => s.launch.changed.contains (pa + b))
    if BitVec.ofNat 32 (s.latestLe pa 4) = was ∧ !changed then was else Config.freeWord ((s.free * 4 + j) * 1024 + i)

/-- The published value of an item and slot can be read on a cluster (R174). -/
def Carried.at_ (c : Carried) (l i j cl : Nat) : Bool :=
  c.launch == l && c.item == i && c.slot == j && (c.place == .buffer cl || c.place == .fetched cl)

/-- The back view of slot j in lane l of the issuing group (R161). -/
def State.view (s : State) (j l : Nat) : View :=
  let g := s.grp
  let k := (tget ({} : CarrySlot) s.launch.lcb.carry j).k
  let i := 32 * g.ord + l
  if g.absent.getLsbD l then .val 0
  else if i < k then .val (s.seedWord j i)
  else match s.carried.find? (fun c => c.at_ s.team.launch (i - k) j s.team.cluster) with
    | some c => match c.value with | some x => .val x | none => .broken
    | none => .waiting (i - k)

/-- The slots whose back views an instruction names, in field order. -/
def Use.slots (u : Use) : List Nat := (u.srcs.filter (fun c => decide (60 ≤ c) && decide (c < 64))).map (· - 60)

/-- The back views that a lane reads in its own place, as (slot, lane of the view): all that are named, or, where the first source is
read in other lanes, those of the other sources. -/
def Use.ownReads (u : Use) (l : Nat) : List (Nat × Nat) :=
  let own := match u.redirect with | some _ => u.srcs.drop 1 | none => u.srcs
  (own.filter (fun c => decide (60 ≤ c) && decide (c < 64))).map (fun c => (c - 60, l))

/-- The back views of the first source that a lane reads in other lanes' places (R116, R150). -/
def Use.farReads (u : Use) (see : Group) (l : Nat) : List (Nat × Nat) :=
  match u.redirect, u.srcs with
  | some from_, c :: _ => if 60 ≤ c ∧ c < 64 then (from_ see l).map (fun x => (c - 60, x)) else []
  | _, _ => []

/-- The back views a lane reads, once those that say which lanes it reads have their values. -/
def Use.reads (u : Use) (see : Group) (l : Nat) : List (Nat × Nat) := u.farReads see l ++ u.ownReads l

/-- CARRY_UNORDERED for the first slot named that the launch does not declare (R163). DEDUCED, log 17. -/
def State.unordered (s : State) (u : Use) : Option Nat :=
  if !s.launch.ordered then u.slots.head?.map (fun j => 4 + j)
  else (u.slots.find? (fun j => !(tget ({} : CarrySlot) s.launch.lcb.carry j).valid)).map (fun j => 8 + j)

/-- The group as the instruction's sources read: early reads while the scoreboard does not check, then back views as registers
60 to 63; a broken view reads 0 here, so a shuffle whose b names one waits for the view in the lane that b = 0
names before the carry is found broken.
DEDUCED, log 17. -/
def State.see (s : State) (u : Use) : Group :=
  let g := if s.schk then s.grp else (u.srcs ++ s.implicit u).foldl s.seeOne s.grp
  u.slots.foldl (fun g' j => g'.setLanes (60 + j) (fun l => match s.view j l with | .val x => x | _ => 0) (List.range 32)) g

/-- A back view is published or seeded. -/
def State.viewed (s : State) (v : Nat × Nat) : Bool := match s.view v.1 v.2 with | .waiting _ => false | _ => true

/-- A lane's back views are all published or seeded. -/
def State.available (s : State) (u : Use) (see : Group) (l : Nat) : Bool := (u.reads see l).all s.viewed

/-- The lowest slot in which a lane reads a broken value. -/
def State.brokenSlot (s : State) (u : Use) (see : Group) (l : Nat) : Option Nat :=
  (List.range 4).find? (fun j => (u.reads see l).any (fun v => v.1 == j && s.view v.1 v.2 == .broken))

/-- What a lane's unavailable views wait for: views of other lanes only once the lane's own say which they are (R164). -/
def State.needsOf (s : State) (u : Use) (see : Group) (l : Nat) : List (Nat × Nat × Nat) :=
  ((if (u.ownReads l).all s.viewed then u.farReads see l else []) ++ u.ownReads l).filterMap (fun v =>
    match s.view v.1 v.2 with | .waiting i => some (l, v.1, i) | _ => none)

/-- The lanes T of an instruction over the group as read (R97); without a guard, the active lanes. -/
def State.lanesOn (s : State) (u : Use) (see : Group) : Mask :=
  if u.guarded then s.active &&& see.guard s.grp.cur else s.active

/-- Back views settled: broken trap, then parking (R162). -/
def State.admitViews (s : State) (u : Use) : Verdict :=
  let see := s.see u
  let t := s.lanesOn u see
  if u.slots.isEmpty then .go { see, t }
  else
    let ready := (lanesOf t).filter (s.available u see)
    match ready.find? (fun l => (s.brokenSlot u see l).isSome) with
    | some l => .trap 0x20 (4 * l + (s.brokenSlot u see l).getD 0)
    | none =>
      let go := maskOf ready
      let w := t &&& ~~~go
      .go { see, t := go, w, needs := (lanesOf w).flatMap (s.needsOf u see) }

/-- The value of back view j of lane l, or its seed in memory, is poisoned (R417). -/
def State.viewBad (s : State) (j l : Nat) : Bool :=
  let g := s.grp
  let k := (tget ({} : CarrySlot) s.launch.lcb.carry j).k
  let i := 32 * g.ord + l
  if g.absent.getLsbD l then false
  else if i < k then ((s.launch.seedAt j i).map (fun pa => s.poison.contains (pa / 128))).getD false
  else s.carried.any (fun c => c.bad && c.at_ s.team.launch (i - k) j s.team.cluster)

/-- The registers that lane l reads, with the lane in which it reads each: the first operand in other lanes where they are redirected. -/
def Use.cells (u : Use) (see : Group) (l : Nat) : List (Nat × Nat) :=
  let k := max 1 (u.srcs.length - 1)
  match u.redirect with
  | some from_ => (from_ see l).flatMap (fun x => (u.srcs.take k).map (·, x)) ++ (u.srcs.drop k).map (·, l)
  | none => u.srcs.map (·, l)

/-- A register or back view that the instruction would read for a lane of T is poisoned (R417). -/
def State.spoilt (s : State) (u : Use) : Bool :=
  let see := s.see u
  let ls := lanesOf (s.lanesOn u see)
  (!s.grp.bad.isEmpty && ls.any (fun l => (u.cells see l).any (fun x => decide (x.1 < 60) && s.grp.bad.contains (32 * x.1 + x.2)))) ||
    (!u.slots.isEmpty && ls.any (fun l => (u.reads see l).any (fun x => s.viewBad x.1 x.2)))

/-- The issuing group's fault domain has read poisoned data: its issue stops (R417). -/
def State.meetBad (s : State) : State := s.stopDomain (s.team.ctx, s.launch.lcb.fdom)

/-- What an instruction that does not issue leaves besides its wait. -/
def State.stopsFor (s : State) (u : Use) : State := if s.spoilt u then s.meetBad else s

/-- Everything that is checked before an instruction acts, in the order of R35, R27, R26 and R162; poisoned data is not read (R417). -/
def State.verdict (s : State) (u : Use) : Verdict :=
  match u.priv with
  | some d => .trap 0x48 d
  | none =>
  if u.cls = 3 then .trap 0x19 0
  else match u.step6 with
  | some (c, d) => .trap c d
  | none =>
  if u.step7 then .trap 1 3
  else match (if s.goesOn then none else s.shortSource u) with
  | some d => .trap 3 d
  | none =>
  if !s.goesOn && (s.mustWait u || s.spoilt u) then .wait
  else match u.check (s.lanesOn u (s.see u)) with
  | some (c, d) => .trap c d
  | none =>
  match s.unordered u with
  | some d => .trap 0x22 d
  | none => s.admitViews u

/-- An instruction that cannot issue yet: nothing changes, and the group is not tried again until something happens. -/
def State.stand (s : State) (w : Wait := .slot) : State :=
  { s.setGrp { s.grp with cur := { s.grp.cur with wait := if s.goesOn then s.grp.cur.wait else w }, stood := s.cycle } with
    stalled := s.cur :: s.stalled }

/-- Run an instruction: its trap, its wait, or its effect. A word that traps, `trap` and `brk` apart, takes none of its slots and counts for no
counted gap, which R25 leaves open: DESIGN CHOICE, log 54. -/
def State.run (s : State) (u : Use) (act : Issue → State) : Host.Outcome State Fault Refusal :=
  .next (match s.verdict u with
    | .trap c d => s.trap c d
    | .wait => (s.stopsFor u).stand
    | .go io => act io)

/-! ### Retiring -/

/-- The value of a register before a write, per lane: what an early reader may still see. -/
def Group.before (g : Group) (c : Nat) (t : Mask) : Table Word :=
  (lanesOf t).map (fun l => (l, if c < 64 then g.reg c l else if (g.pred (c - 64)).getLsbD l then 1 else 0))

/-- The gaps still owed n slots later (R25). Results land in issue order, so one that has landed is the last producer of its lanes, and
the earlier ones owed for the same register are no longer; `own` gives the lanes of each register that the word itself has written by
then. -/
def shrinkGaps (n : Nat) (own : Nat → Mask) : List Owed → List Owed
  | [] => []
  | e :: es =>
    let hit := (es.filter (fun f => f.code == e.code && decide (f.left ≤ n))).foldl (fun m f => m ||| f.lanes) (own e.code)
    if n < e.left then { e with left := e.left - n, lanes := e.lanes &&& ~~~hit } :: shrinkGaps n own es else shrinkGaps n own es

/-- The gaps owed after a word issued in a cycle: earlier ones shrink by its slots, and the word's own results are added where
their latency is not yet covered (R25), for every destination field also where T is empty and the word writes nothing. DEDUCED, log 51. -/
def Group.oweGaps (g : Group) (u : Use) (t : Mask) (cycle : Nat) : List Owed :=
  let n := 1 + u.stall
  shrinkGaps n (fun c => if u.lat ≤ n ∧ c ∈ u.dsts then t else 0) g.owed ++
    (if n < u.lat then (u.dsts.filter (fun c => decide (c < 60) || (decide (64 < c) && decide (c < 72)))).map
      (fun c => { code := c, left := u.lat - n, due := cycle + 2 * u.lat, lanes := t, old := g.before c t }) else [])

/-- Move the fragment on: to the next word, or by division, with the lanes that park left behind (R162, R64). -/
def Group.proceed (g : Group) (io : Issue) (parts : Option (List Part)) : Group :=
  let next := g.cur.pc + 4
  match parts with
  | none =>
    if io.w = 0 then { g with cur := { g.cur with pc := next, wait := .none } }
    else
      let g1 := g.divide next [{ mask := g.cur.mask &&& ~~~io.w, pc := next, depth := g.cur.depth },
        { mask := io.w, pc := g.cur.pc, depth := g.cur.depth, st := .parked }]
      let mark := fun (f : Frag) => if f.st == .parked && f.mask == io.w then { f with wait := .carry io.needs } else f
      { g1 with cur := mark g1.cur, rest := g1.rest.map mark }.reselect
  | some ps =>
    let g1 := g.divide next (ps ++ [{ mask := io.w, pc := g.cur.pc, depth := g.cur.depth, st := .parked }])
    let mark := fun (f : Frag) => if f.st == .parked && f.mask == io.w then { f with wait := .carry io.needs } else f
    { g1 with cur := mark g1.cur, rest := g1.rest.map mark }.reselect

/-- One more slot of a launch is used (R372). -/
def State.countSlot (s : State) (l : Nat) : State :=
  let r := s.launchOf l
  let n := r.slots + 1
  let s1 := s.putLaunch l { r with slots := n }
  let s2 := if r.lcb.budget ≠ 0 ∧ r.budgetAt.isNone ∧ r.lcb.budget < n then s1.owe (.budgetExceeded l) else s1
  if r.budgetAt = some (n - 2 ^ 20) ∧ 2 ^ 20 ≤ n then s2.owe (.budgetEnd l) else s2

/-- Values in the spill area that a parked lane needs are fetched (R174). -/
def State.fetchNeeds (s : State) (needs : List (Nat × Nat × Nat)) : State :=
  needs.foldl (fun s' x =>
    if s'.carried.any (fun c => c.launch == s.team.launch && c.item == x.2.2 && c.slot == x.2.1 && c.place == .spill) &&
        !s'.agenda.contains (.carryFetch s.team.launch x.2.2 x.2.1 s.cur) then
      s'.owe (.carryFetch s.team.launch x.2.2 x.2.1 s.cur)
    else s') s

/-- The slot of the issuing group is the one that exceeds its launch's BUDGET (R372). DEDUCED, log 42. -/
def State.exceeds (s : State) : Bool :=
  let r := s.launch
  r.lcb.budget != 0 && r.budgetAt.isNone && r.lcb.budget == r.slots && !s.grp.budgeted

/-- The slot of an instruction passes: the launch counts it, and the clock moves on by 2 cycles for each slot (DESIGN CHOICE, log 5). A group that
exceeds the BUDGET owes its trap at once (R372, R382). -/
def State.pass (s : State) (stall : Nat) : State :=
  let s1 := if s.exceeds then s.setGrp { s.grp.defer 0x38 1 0 with budgeted := true } else s
  { s1.countSlot s.team.launch with cycle := s.cycle + 2 * (1 + stall), free := s.free + 1, stalled := [] }

/-- Retire the issuing group's instruction: g is the group as it leaves it, evs the events it counts. -/
def State.settle (s : State) (u : Use) (io : Issue) (g : Group) (evs : List Nat) : State :=
  let g1 := { g with owed := s.grp.oweGaps u io.t s.cycle, dog := 0, last := s.cycle, sweeping := none }
  (((s.setGrp g1).pass u.stall).countEvents s.cur s.grp.cur.id evs).fetchNeeds io.needs

/-- Retire with the fragment moved on: g is the group with its results written, parts where the instruction divides the
fragment or transfers control. -/
def State.close (s : State) (u : Use) (io : Issue) (g : Group) (evs : List Nat) (parts : Option (List Part)) : State :=
  s.settle u io (g.proceed io parts) evs

/-- Retire an instruction that goes on at the next word. -/
def State.finish (s : State) (u : Use) (io : Issue) (g : Group) (evs : List Nat := []) : State := s.close u io g evs none

/-- A software trap (R386): its word takes its slots, which the counted gaps include (R25), and then it traps. -/
def State.softTrap (s : State) (u : Use) (code detail : Nat) : State :=
  ((s.setGrp { s.grp with owed := s.grp.oweGaps u 0 s.cycle }).pass u.stall).trap code detail

/-! ### Shapes of instructions -/

/-- One result per lane: f gives the value and the events it counts, from the group as read and the lane. -/
def State.lanewise (s : State) (u : Use) (wide : Bool) (d : Nat) (f : Group → Nat → Nat × List Nat) :
    Host.Outcome State Fault Refusal :=
  s.run u (fun io => s.finish u io (s.grp.putVal wide d (fun l => (f io.see l).1) (lanesOf io.t))
    ((lanesOf io.t).flatMap (fun l => (f io.see l).2)))

/-- One predicate bit per lane. -/
def State.predwise (s : State) (u : Use) (d : Nat) (f : Group → Nat → Bool × List Nat) : Host.Outcome State Fault Refusal :=
  s.run u (fun io => s.finish u io
    (s.grp.setPred d io.t (maskOf ((lanesOf io.t).filter (fun l => (f io.see l).1))))
    ((lanesOf io.t).flatMap (fun l => (f io.see l).2)))

end Sys2Proof.Machine
end

