-- ==== Sys2Proof/Machine/Fetch.lean ====
section
/-! DEFINITION. Fetching instruction words: the code range (R60), its pinned translation (R403), the cluster's instruction
cache (R9, R326) and the group's instruction buffer (R58). -/

namespace Sys2Proof.Machine

/-- The word at an address lies in the launch's code range (R60). -/
def Launch.inCode (l : Launch) (pc : Nat) : Bool := decide (l.lcb.codeBase ≤ pc) && decide (pc + 4 ≤ l.lcb.codeBase + l.lcb.codeLen)

/-- The physical address of a code word. -/
def State.codePa (s : State) (pc : Nat) : Option Nat := if s.launch.inCode pc then translate s.launch.pins pc else none

/-- The code word that the issuing group or its cluster holds: in the group's instruction buffer, among the words that another group's
`fencei` has left to it, or in the cluster's instruction cache (R58, R326). -/
def State.heldCode (s : State) (pa : Nat) : Option Word :=
  ((tfind s.grp.ibuf pa).orElse (fun _ => tfind s.grp.code pa)).orElse (fun _ => tfind s.cluster.icache pa)

/-- The code word at a physical address, for the issuing group: one that is held, otherwise as the writes performed so far leave it
(R20, R330). -/
def State.codeAt (s : State) (pa : Nat) : Word := (s.heldCode pa).getD (BitVec.ofNat 32 (s.latestLe pa 4))

/-- The code word at a physical address would come from a poisoned line (R417). -/
def State.codePoisoned (s : State) (pa : Nat) : Bool := s.poison.contains (pa / 128) && (s.heldCode pa).isNone

/-- Bring a code word into the instruction cache of 8,192 words; a full one loses the word of the lowest address.
DESIGN CHOICE, log 20. -/
def State.fillCode (s : State) (pa : Nat) : State :=
  let c := s.cluster
  if (s.heldCode pa).isSome then s
  else s.setCluster { c with icache := tput (if Config.icacheWords ≤ c.icache.length then c.icache.drop 1 else c.icache) pa (s.codeAt pa) }

/-- A word that issues enters the group's instruction buffer of 8 words; a full one loses its oldest. DESIGN CHOICE, log 20. -/
def Group.buffer (g : Group) (pa : Nat) (w : Word) : Group :=
  if g.ibuf.any (·.1 == pa) then g
  else { g with ibuf := (if Config.bufferWords ≤ g.ibuf.length then g.ibuf.drop 1 else g.ibuf) ++ [(pa, w)] }

/-- The word at a physical address issues: it is cached and buffered. -/
def State.takeCode (s : State) (pa : Nat) : State :=
  let s1 := s.fillCode pa
  s1.setGrp (s1.grp.buffer pa (s.codeAt pa))

/-- What a fetch brings (R60, R417): no word outside the code range, poisoned data, or a word and the state with it taken. -/
inductive Fetched where
  | outside
  | poisoned
  | word (w : Word) (s : State)

/-- Fetch the word at an address for the issuing group. -/
def State.fetch (s : State) (pc : Nat) : Fetched :=
  match s.codePa pc with
  | none => .outside
  | some pa => if s.codePoisoned pa then .poisoned else .word (s.codeAt pa) (s.takeCode pa)

end Sys2Proof.Machine
end

