-- ==== Sys2Proof/Machine/Schedule.lean ====
section
/-! DEFINITION. Who moves next: the issue arbitration of R370, the end of a yield (R85), due deferred traps (R382), and the
device's timers. The manual orders only the groups of one core among themselves; the order of everything else is the model's
script `turns`, and its own default where the script is empty (DESIGN CHOICE, log 4). -/

namespace Sys2Proof.Machine

/-- Issue from the groups of a team is stopped: its context is halted (R389), its domain is stopped by poison (R417), or the
team is not resident (R396). -/
def State.teamStopped (s : State) (t : Team) : Bool :=
  t.st != .resident || (s.ctxOf t.ctx).halted || s.stopped.contains (t.ctx, (s.launchOf t.launch).lcb.fdom)

/-- A group of a team that drains for its save goes on only with what has issued: a fence (R324), a `tlbi`, a `bor` whose walk is over (R197);
a halt of its context does not stop the pre-emption (R389). -/
def State.finishes (s : State) (g : Group) : Bool :=
  let t := s.teamOf g.team
  t.st == .draining && !s.stopped.contains (t.ctx, (s.launchOf t.launch).lcb.fdom) && g.cur.st == .ready && g.cur.wait.goesOn

/-- The group's selected fragment can be tried (R370), apart from a yield. -/
def State.canTry (s : State) (k : Nat) (g : Group) : Bool :=
  ((!s.teamStopped (s.teamOf g.team) && g.selectable g.cur) || s.finishes g) && !s.stalled.contains k

/-- The groups that can issue. -/
def State.ready (s : State) : List (Nat × Group) := s.groups.filter (fun (k, g) => s.canTry k g && g.yielded == 0)

/-- Two groups share a core. -/
def State.sameCore (s : State) (g h : Group) : Bool :=
  (s.teamOf g.team).cluster == (s.teamOf h.team).cluster && g.core == h.core

/-- A yielding group's turn comes again: every other ready group of its core has issued since, or 16 slots have passed (R85). -/
def State.yieldOver (s : State) (k : Nat) (g : Group) : Bool :=
  g.yielded != 0 && s.canTry k g &&
    (decide (g.last + 32 ≤ s.cycle) ||
      s.groups.all (fun (j, h) => j == k || !s.sameCore g h || !s.canTry j h || decide (g.last < h.last)))

/-- The group holds the lowest unretired item of an ordered launch, and its cluster has the boost (R371). -/
def State.boosted (s : State) (g : Group) : Bool := (s.launchOf (s.teamOf g.team).launch).boosted == some g.ord

/-- The order of issue (R370): ready without issuing for 64 cycles or more, longest first; boosted; higher priority; earlier team, lower position.
DEDUCED, log 15. -/
def State.issuesBefore (s : State) (g h : Group) : Bool :=
  let ag := s.cycle - max g.last g.stood
  let ah := s.cycle - max h.last h.stood
  let lg := s.launchOf (s.teamOf g.team).launch
  let lh := s.launchOf (s.teamOf h.team).launch
  if 64 ≤ ag ∨ 64 ≤ ah then (if ag ≠ ah then decide (ah < ag) else decide (g.pos < h.pos))
  else if s.boosted g != s.boosted h then s.boosted g
  else if lg.lcb.prio ≠ lh.lcb.prio then decide (lh.lcb.prio < lg.lcb.prio)
  else if (s.teamOf g.team).start ≠ (s.teamOf h.team).start then decide ((s.teamOf g.team).start < (s.teamOf h.team).start)
  else decide (g.pos < h.pos)

/-- The group that issues next. -/
def State.pick (s : State) : Option Nat :=
  (pickBest (fun x y : Nat × Group => s.issuesBefore x.2 y.2) s.ready).map (·.1)

/-- The group that issues next among those of group k's core (R370). -/
def State.pickAt (s : State) (k : Nat) : Option Nat :=
  (pickBest (fun x y : Nat × Group => s.issuesBefore x.2 y.2) (s.ready.filter (fun x => s.sameCore x.2 (s.group k)))).map (·.1)

/-- The deferred trap that the group's selected fragment takes now (R382). -/
def Group.dueTrap (g : Group) : Option Deferred :=
  if g.record.isSome || g.cur.wait.goesOn then none
  else pickBest (fun a b : Deferred => decide (a.code < b.code)) (g.deferred.filter (fun d =>
    d.code == 0x38 || d.frag == g.cur.id || !g.frags.any (fun f => f.id == d.frag)))

/-- What the machine does next. -/
inductive Move where
  | event (e : Event)
  | issue (k : Nat)
  | tick
  deriving DecidableEq, Repr

/-- Remove one item of a list by its place. -/
def dropAt {α : Type} : Nat → List α → List α
  | _, [] => []
  | 0, _ :: xs => xs
  | n + 1, x :: xs => x :: dropAt n xs

/-- The default order: events owed, oldest first; then a yield that is over; then the timers; then issue; then time passes. While
the device throttles itself every other slot is idle (R414). -/
def State.defaultMove (s : State) : Move × State :=
  match s.agenda with
  | e :: es => (.event e, { s with agenda := es })
  | [] =>
    match s.groups.find? (fun (k, g) => s.yieldOver k g) with
    | some (k, _) => (.event (.yieldEnd k), s)
    | none =>
      if s.ticked < s.cycle || s.idleSlot then (.tick, s)
      else match s.pick with
        | some k => (.issue k, s)
        | none => (.tick, s)

/-- The next move and the state with it taken from the script or the agenda: 0 lets time pass, 1 issues, 2 i + 2 takes event i
of the agenda, 2 k + 3 issues from the core of group k. -/
def State.move (s : State) : Move × State :=
  match s.turns with
  | [] => s.defaultMove
  | n :: ns =>
    let s1 := { s with turns := ns }
    if n = 0 then (.tick, s1)
    else if n = 1 then (match s1.pick with | some k => (.issue k, s1) | none => s1.defaultMove)
    else if n % 2 = 0 then
      (match s1.agenda[(n - 2) / 2]? with
        | some e => (.event e, { s1 with agenda := dropAt ((n - 2) / 2) s1.agenda })
        | none => s1.defaultMove)
    else (match s1.pickAt ((n - 3) / 2) with | some k => (.issue k, s1) | none => s1.defaultMove)

end Sys2Proof.Machine
end

