-- ==== Sys2Proof/Machine/Integer.lean ====
section
/-! DEFINITION. Integer arithmetic, bits, shifts and conversions (R96 to R115), and the iterative divider (R103). -/

namespace Sys2Proof.Machine

/-! ### Elements (R96, R97) -/

/-- An integer element type: width, number of elements, signedness, and whether results saturate. -/
structure IntTy where
  w : Nat
  n : Nat
  sg : Bool
  sat : Bool
  deriving DecidableEq, Repr

/-- Width and number of elements of an integer element type (R96). -/
def intWidth (et : Nat) : Nat := if et < 2 then 32 else if et < 4 then 64 else if et < 6 then 16 else 8
def intCount (et : Nat) : Nat := if et < 4 then 1 else if et < 6 then 2 else 4

/-- The element type of a code (R30): even codes are signed. -/
def intTy (et : Nat) (sat : Bool) : IntTy := { w := intWidth et, n := intCount et, sg := et % 2 == 0, sat }

/-- Bits of element e of an operand. -/
def IntTy.raw (ty : IntTy) (x e : Nat) : Nat := x / 2 ^ (ty.w * e) % 2 ^ ty.w

/-- A pattern of w bits as a value of the type. -/
def IntTy.value (ty : IntTy) (x : Nat) : Int := if ty.sg then signed ty.w x else (x : Int)

/-- The range of the type. -/
def IntTy.lo (ty : IntTy) : Int := if ty.sg then -(2 ^ (ty.w - 1) : Nat) else 0
def IntTy.hi (ty : IntTy) : Int := if ty.sg then (2 ^ (ty.w - 1) : Nat) - 1 else (2 ^ ty.w : Nat) - 1

/-- Clamp into the type's range, with a saturation event where it clamps. -/
def IntTy.clamp (ty : IntTy) (x : Int) : Nat × List Nat :=
  if x < ty.lo then (wrap ty.w ty.lo, [2]) else if ty.hi < x then (wrap ty.w ty.hi, [2]) else (wrap ty.w x, [])

/-- Fit (R97): clamped under SAT, wrapped otherwise. -/
def IntTy.fit (ty : IntTy) (x : Int) : Nat × List Nat := if ty.sat then ty.clamp x else (wrap ty.w x, [])

/-- Wrapped whatever SAT. -/
def IntTy.wrapped (ty : IntTy) (x : Int) : Nat × List Nat := (wrap ty.w x, [])

/-- Join element results into an operand, lowest element first, with the events of all. -/
def joinElems (w : Nat) : List (Nat × List Nat) → Nat × List Nat
  | [] => (0, [])
  | r :: rs => let t := joinElems w rs; (r.1 + 2 ^ w * t.1, r.2 ++ t.2)

/-- What an integer instruction of fields fs (d apart) needs: element types, pairs, sources and results. -/
def State.intUse (s : State) (st : BitVec 3) (l32 l64 : Nat) (ok : List Nat) (d : Nat) (fs : List Nat) : Use :=
  { stall := st.toNat, lat := if s.wide then l64 else l32, step6 := etCheck 1 ok s.et,
    step7 := s.wide && !(isPair d && fs.all isPair), srcs := fs.flatMap (regs s.wide), dsts := regs s.wide d }

/-- An element-wise integer instruction: f takes the type and the elements of the fields. -/
def State.intOp (s : State) (st : BitVec 3) (l32 l64 : Nat) (ok : List Nat) (d : Nat) (fs : List Nat)
    (f : IntTy → (Nat → Int) → Nat × List Nat) : Host.Outcome State Fault Refusal :=
  let ty := intTy s.et s.grp.cur.sat
  s.lanewise (s.intUse st l32 l64 ok d fs) s.wide d (fun see l =>
    joinElems ty.w ((List.range ty.n).map (fun e =>
      f ty (fun i => ty.value (ty.raw (see.val s.wide (fs.getD i 0) l) e)))))

/-- The integer types. -/
def intTypes : List Nat := List.range 8

/-! ### Arithmetic (R98 to R101, R112) -/

def execAdd (st : BitVec 3) (d a b : BitVec 6) (s : State) : Host.Outcome State Fault Refusal :=
  s.intOp st 1 2 intTypes d.toNat [a.toNat, b.toNat] (fun ty x => ty.fit (x 0 + x 1))

def execSub (st : BitVec 3) (d a b : BitVec 6) (s : State) : Host.Outcome State Fault Refusal :=
  s.intOp st 1 2 intTypes d.toNat [a.toNat, b.toNat] (fun ty x => ty.fit (x 0 - x 1))

def execMul (st : BitVec 3) (d a b : BitVec 6) (s : State) : Host.Outcome State Fault Refusal :=
  s.intOp st 3 5 intTypes d.toNat [a.toNat, b.toNat] (fun ty x => ty.fit (x 0 * x 1))

def execMulh (st : BitVec 3) (d a b : BitVec 6) (s : State) : Host.Outcome State Fault Refusal :=
  s.intOp st 3 5 intTypes d.toNat [a.toNat, b.toNat] (fun ty x => ty.wrapped (x 0 * x 1 / (2 ^ ty.w : Nat)))

def execMin (st : BitVec 3) (d a b : BitVec 6) (s : State) : Host.Outcome State Fault Refusal :=
  s.intOp st 1 2 intTypes d.toNat [a.toNat, b.toNat] (fun ty x => ty.wrapped (min (x 0) (x 1)))

def execMax (st : BitVec 3) (d a b : BitVec 6) (s : State) : Host.Outcome State Fault Refusal :=
  s.intOp st 1 2 intTypes d.toNat [a.toNat, b.toNat] (fun ty x => ty.wrapped (max (x 0) (x 1)))

def execAbs (st : BitVec 3) (d a : BitVec 6) (s : State) : Host.Outcome State Fault Refusal :=
  s.intOp st 1 2 intTypes d.toNat [a.toNat] (fun ty x => ty.fit (if x 0 < 0 then -x 0 else x 0))

def execNeg (st : BitVec 3) (d a : BitVec 6) (s : State) : Host.Outcome State Fault Refusal :=
  s.intOp st 1 2 intTypes d.toNat [a.toNat] (fun ty x => ty.fit (-x 0))

def execMad (st : BitVec 3) (d a b : BitVec 6) (c : BitVec 5) (s : State) : Host.Outcome State Fault Refusal :=
  s.intOp st 3 5 intTypes d.toNat [a.toNat, b.toNat, c.toNat] (fun ty x => ty.fit (x 0 * x 1 + x 2))

def execMadh (st : BitVec 3) (d a b : BitVec 6) (c : BitVec 5) (s : State) : Host.Outcome State Fault Refusal :=
  s.intOp st 3 5 intTypes d.toNat [a.toNat, b.toNat, c.toNat]
    (fun ty x => ty.wrapped (x 0 * x 1 / (2 ^ ty.w : Nat) + x 2))

/-- The value of an immediate for every element (R112): 8 bits of it, or sign-extended to the width. -/
def IntTy.imm (ty : IntTy) (i : BitVec 11) : Int :=
  if ty.w = 8 then ty.value (i.toNat % 256) else ty.value (wrap ty.w i.toInt)

def execAddi (st : BitVec 3) (d a : BitVec 6) (i : BitVec 11) (s : State) : Host.Outcome State Fault Refusal :=
  s.intOp st 1 2 intTypes d.toNat [a.toNat] (fun ty x => ty.fit (x 0 + ty.imm i))

/-! ### Bits and shifts (R104 to R107, R112) -/

/-- A bitwise operation on element patterns. -/
def IntTy.bitwise (ty : IntTy) (f : Nat → Nat → Nat) (x y : Int) : Nat × List Nat := (f (wrap ty.w x) (wrap ty.w y), [])

def execAnd (st : BitVec 3) (d a b : BitVec 6) (s : State) : Host.Outcome State Fault Refusal :=
  s.intOp st 1 2 intTypes d.toNat [a.toNat, b.toNat] (fun ty x => ty.bitwise (· &&& ·) (x 0) (x 1))

def execOr (st : BitVec 3) (d a b : BitVec 6) (s : State) : Host.Outcome State Fault Refusal :=
  s.intOp st 1 2 intTypes d.toNat [a.toNat, b.toNat] (fun ty x => ty.bitwise (· ||| ·) (x 0) (x 1))

def execXor (st : BitVec 3) (d a b : BitVec 6) (s : State) : Host.Outcome State Fault Refusal :=
  s.intOp st 1 2 intTypes d.toNat [a.toNat, b.toNat] (fun ty x => ty.bitwise (· ^^^ ·) (x 0) (x 1))

def execAndn (st : BitVec 3) (d a b : BitVec 6) (s : State) : Host.Outcome State Fault Refusal :=
  s.intOp st 1 2 intTypes d.toNat [a.toNat, b.toNat]
    (fun ty x => ty.bitwise (fun p q => p &&& (2 ^ ty.w - 1 - q)) (x 0) (x 1))

def execNot (st : BitVec 3) (d a : BitVec 6) (s : State) : Host.Outcome State Fault Refusal :=
  s.intOp st 1 2 intTypes d.toNat [a.toNat] (fun ty x => (2 ^ ty.w - 1 - wrap ty.w (x 0), []))

def execAndi (st : BitVec 3) (d a : BitVec 6) (i : BitVec 11) (s : State) : Host.Outcome State Fault Refusal :=
  s.intOp st 1 2 intTypes d.toNat [a.toNat] (fun ty x => ty.bitwise (· &&& ·) (x 0) (ty.imm i))

def execOri (st : BitVec 3) (d a : BitVec 6) (i : BitVec 11) (s : State) : Host.Outcome State Fault Refusal :=
  s.intOp st 1 2 intTypes d.toNat [a.toNat] (fun ty x => ty.bitwise (· ||| ·) (x 0) (ty.imm i))

def execXori (st : BitVec 3) (d a : BitVec 6) (i : BitVec 11) (s : State) : Host.Outcome State Fault Refusal :=
  s.intOp st 1 2 intTypes d.toNat [a.toNat] (fun ty x => ty.bitwise (· ^^^ ·) (x 0) (ty.imm i))

/-- `shl` by c (R105): under SAT any nonzero element shifted by its width or more saturates. -/
def IntTy.shl (ty : IntTy) (a : Int) (c : Nat) : Nat × List Nat :=
  if ty.w ≤ c then (if ty.sat && a != 0 then ty.clamp (a * (2 ^ ty.w : Nat)) else (0, []))
  else ty.fit (a * (2 ^ c : Nat))

/-- `shr` by c: on the pattern, unsigned. -/
def IntTy.shr (ty : IntTy) (a : Int) (c : Nat) : Nat × List Nat := (if ty.w ≤ c then 0 else wrap ty.w a / 2 ^ c, [])

/-- `sra` by c: on the pattern, signed. -/
def IntTy.sra (ty : IntTy) (a : Int) (c : Nat) : Nat × List Nat :=
  let x := signed ty.w (wrap ty.w a)
  ty.wrapped (if ty.w ≤ c then (if x < 0 then -1 else 0) else x / (2 ^ c : Nat))

def execShl (st : BitVec 3) (d a b : BitVec 6) (s : State) : Host.Outcome State Fault Refusal :=
  s.intOp st 1 2 intTypes d.toNat [a.toNat, b.toNat] (fun ty x => ty.shl (x 0) (wrap ty.w (x 1)))

def execShr (st : BitVec 3) (d a b : BitVec 6) (s : State) : Host.Outcome State Fault Refusal :=
  s.intOp st 1 2 intTypes d.toNat [a.toNat, b.toNat] (fun ty x => ty.shr (x 0) (wrap ty.w (x 1)))

def execSra (st : BitVec 3) (d a b : BitVec 6) (s : State) : Host.Outcome State Fault Refusal :=
  s.intOp st 1 2 intTypes d.toNat [a.toNat, b.toNat] (fun ty x => ty.sra (x 0) (wrap ty.w (x 1)))

def execRotl (st : BitVec 3) (d a b : BitVec 6) (s : State) : Host.Outcome State Fault Refusal :=
  s.intOp st 1 2 intTypes d.toNat [a.toNat, b.toNat] (fun ty x =>
    let p := wrap ty.w (x 0)
    let c := wrap ty.w (x 1) % ty.w
    (p * 2 ^ c % 2 ^ ty.w + p / 2 ^ (ty.w - c), []))

/-- An immediate shift: a count not below the width is refused at step 7 of R35 (R41). -/
def State.shiftImm (s : State) (st : BitVec 3) (d a c : BitVec 6) (f : IntTy → Int → Nat → Nat × List Nat) :
    Host.Outcome State Fault Refusal :=
  let ty := intTy s.et s.grp.cur.sat
  let u := s.intUse st 1 2 intTypes d.toNat [a.toNat]
  s.lanewise { u with step7 := u.step7 || decide (ty.w ≤ c.toNat) } s.wide d.toNat (fun see l =>
    joinElems ty.w ((List.range ty.n).map (fun e => f ty (ty.value (ty.raw (see.val s.wide a.toNat l) e)) c.toNat)))

def execShli (st : BitVec 3) (d a c : BitVec 6) (s : State) : Host.Outcome State Fault Refusal := s.shiftImm st d a c IntTy.shl

def execShri (st : BitVec 3) (d a c : BitVec 6) (s : State) : Host.Outcome State Fault Refusal := s.shiftImm st d a c IntTy.shr

/-- The bits of a pattern, most significant first. -/
def bitsDown (w x : Nat) : List Bool := (List.range w).map (fun i => bit x (w - 1 - i))
def bitsUp (w x : Nat) : List Bool := (List.range w).map (bit x)

/-- A number from its bits, least significant first. -/
def ofBits : List Bool → Nat
  | [] => 0
  | b :: bs => (if b then 1 else 0) + 2 * ofBits bs

def execClz (st : BitVec 3) (d a : BitVec 6) (s : State) : Host.Outcome State Fault Refusal :=
  s.intOp st 1 2 intTypes d.toNat [a.toNat] (fun ty x => (((bitsDown ty.w (wrap ty.w (x 0))).takeWhile (!·)).length, []))

def execCtz (st : BitVec 3) (d a : BitVec 6) (s : State) : Host.Outcome State Fault Refusal :=
  s.intOp st 1 2 intTypes d.toNat [a.toNat] (fun ty x => (((bitsUp ty.w (wrap ty.w (x 0))).takeWhile (!·)).length, []))

def execPopc (st : BitVec 3) (d a : BitVec 6) (s : State) : Host.Outcome State Fault Refusal :=
  s.intOp st 1 2 intTypes d.toNat [a.toNat] (fun ty x => ((bitsUp ty.w (wrap ty.w (x 0))).count true, []))

def execBrev (st : BitVec 3) (d a : BitVec 6) (s : State) : Host.Outcome State Fault Refusal :=
  s.intOp st 1 2 intTypes d.toNat [a.toNat] (fun ty x => (ofBits (bitsDown ty.w (wrap ty.w (x 0))), []))

/-- Position and effective length of a bit field of an element of w bits, from the low word of b (R107). -/
def fieldPos (b : Nat) : Nat := b % 256
def fieldLen (w b : Nat) : Nat := if w ≤ b % 256 then 0 else min (b / 256 % 256) (w - b % 256)

def execBext (st : BitVec 3) (d a b : BitVec 6) (s : State) : Host.Outcome State Fault Refusal :=
  s.intOp st 1 2 scalarInts d.toNat [a.toNat, b.toNat] (fun ty x =>
    let bw := wrap ty.w (x 1)
    let n := fieldLen ty.w bw
    let v := wrap ty.w (x 0) / 2 ^ fieldPos bw % 2 ^ n
    if n = 0 then (0, []) else ty.wrapped (if ty.sg then signed n v else (v : Int)))

def execBins (st : BitVec 3) (d a b : BitVec 6) (s : State) : Host.Outcome State Fault Refusal :=
  s.intOp st 1 2 scalarInts d.toNat [d.toNat, a.toNat, b.toNat] (fun ty x =>
    let bw := wrap ty.w (x 2)
    let p := fieldPos bw
    let n := fieldLen ty.w bw
    let old := wrap ty.w (x 0)
    if n = 0 then (old, [])
    else (old % 2 ^ p + wrap ty.w (x 1) % 2 ^ n * 2 ^ p + old / 2 ^ (p + n) * 2 ^ (p + n), []))

/-! ### Address and conversion (R113 to R115) -/

def execLea (st : BitVec 3) (d a b : BitVec 6) (x : BitVec 2) (s : State) : Host.Outcome State Fault Refusal :=
  let u : Use :=
    { stall := st.toNat, lat := 2, step6 := etCheck 1 [0, 1] s.et, srcs := regs true a.toNat ++ [b.toNat],
      dsts := regs true d.toNat }
  s.lanewise u true d.toNat (fun see l =>
    let i : Int := (intTy s.et false).value (see.reg b.toNat l).toNat
    (wrap 64 ((see.val true a.toNat l : Int) + i * (2 ^ x.toNat : Nat)), []))

def execExt (st : BitVec 3) (d a b : BitVec 6) (s : State) : Host.Outcome State Fault Refusal :=
  s.intOp st 1 2 [0, 1] d.toNat [a.toNat] (fun ty x =>
    let v := wrap 32 (x 0) % 2 ^ b.toNat
    (if ty.sg then wrap 32 (signed b.toNat v) else v, []))

/-- The sets of element types that `cvti` converts within (R115). -/
def cvtiSet (e : Nat) : Nat := if e < 4 then 0 else if e < 6 then 1 else 2

def execCvti (st : BitVec 3) (d a b : BitVec 6) (s : State) : Host.Outcome State Fault Refusal :=
  let src := b.toNat
  let ws := decide (src = 2 ∨ src = 3)
  let td := intTy s.et s.grp.cur.sat
  let ts := intTy src false
  let u : Use :=
    { stall := st.toNat, lat := if s.wide || ws then 2 else 1,
      step6 := etCheck 1 ((List.range 8).filter (fun e => cvtiSet e == cvtiSet src)) s.et,
      step7 := (s.wide && !isPair d.toNat) || (ws && !isPair a.toNat), srcs := regs ws a.toNat, dsts := regs s.wide d.toNat }
  s.lanewise u s.wide d.toNat (fun see l =>
    joinElems td.w ((List.range td.n).map (fun e => td.fit (ts.value (ts.raw (see.val ws a.toNat l) e)))))

/-! ### The iterative divider (R102, R103, R139) -/

/-- Slots that the divider takes at least, by element type (R103, R139). -/
def divideSlots (et : Nat) : Nat := if et < 2 then 10 else if et < 4 then 18 else if et = 8 then 12 else 8

/-- Hand an operation to the core's divider: its destination is scoreboarded until DIVIDER_COMPLETE (R26). -/
def State.startDivide (s : State) (u : Use) (io : Issue) (words : List (Nat × Word)) (evs : List Nat) : State :=
  let id := s.nextId
  let key := s.grp.core
  let c := s.cluster
  let from_ := ((tget [] c.divq key).map (·.due)).foldl max s.cycle
  let op : DivOp := { group := s.cur, id, frag := s.grp.cur.id, words, events := evs, due := from_ + 2 * divideSlots s.et }
  let s1 := { s.setCluster { c with divq := tmod [] c.divq key (· ++ [op]) } with nextId := id + 1 }
  s1.finish u io { s1.grp with busy := s1.grp.busy ++ u.dsts.map (fun x => (x, id)) }

/-- The words that an operand's values make, by their places in the register table (R90). -/
def laneWords (wide : Bool) (d : Nat) (f : Nat → Nat) (ls : List Nat) : List (Nat × Word) :=
  ls.flatMap (fun l => (32 * d + l, BitVec.ofNat 32 (f l)) ::
    (if wide then [(32 * (d + 1) + l, BitVec.ofNat 32 (f l / 2 ^ 32))] else []))

/-- An element-wise operation of the divider: the lanes' results are written when it completes. -/
def State.divideOp (s : State) (u : Use) (wide : Bool) (d : Nat) (f : Group → Nat → Nat × List Nat) :
    Host.Outcome State Fault Refusal :=
  s.run u (fun io => s.startDivide u io (laneWords wide d (fun l => (f io.see l).1) (lanesOf io.t))
    ((lanesOf io.t).flatMap (fun l => (f io.see l).2)))

/-- Quotient and remainder of R102. -/
def IntTy.quotient (ty : IntTy) (a b : Int) : Nat × List Nat :=
  if b = 0 then (2 ^ ty.w - 1, [5])
  else if ty.sg && a == ty.lo && b == -1 then ty.fit (2 ^ (ty.w - 1) : Nat)
  else ty.wrapped (a.tdiv b)

def IntTy.remainder (ty : IntTy) (a b : Int) : Nat × List Nat :=
  if b = 0 then (wrap ty.w a, [5]) else ty.wrapped (a - a.tdiv b * b)

/-- `div` and `rem`. -/
def State.intDivide (s : State) (d a b : Nat) (f : IntTy → Int → Int → Nat × List Nat) : Host.Outcome State Fault Refusal :=
  let ty := intTy s.et s.grp.cur.sat
  s.divideOp (s.intUse 0 0 0 scalarInts d [a, b]) s.wide d (fun see l =>
    f ty (ty.value (see.val s.wide a l)) (ty.value (see.val s.wide b l)))

def execDiv (d a b : BitVec 6) (s : State) : Host.Outcome State Fault Refusal :=
  s.intDivide d.toNat a.toNat b.toNat IntTy.quotient

def execRem (d a b : BitVec 6) (s : State) : Host.Outcome State Fault Refusal :=
  s.intDivide d.toNat a.toNat b.toNat IntTy.remainder

/-- Write words by their places in the register table. -/
def Group.putWords (g : Group) : List (Nat × Word) → Group
  | [] => g
  | (k, x) :: ws => ({ g with regs := mset 0 g.regs k x } : Group).putWords ws

/-- The group exists. -/
def State.hasGroup (s : State) (k : Nat) : Bool := (tfind s.groups k).isSome

/-- A completed variable-latency instruction leaves the scoreboard. -/
def Group.freeBusy (g : Group) (id : Nat) : Group := { g with busy := g.busy.filter (fun b => b.2 != id) }

/-- A waiting instruction is withdrawn: what it kept busy is free. -/
def Group.unmark (g : Group) (f : Frag) : Group := match f.wait.mark with | some n => g.freeBusy n | none => g

/-- DIVIDER_COMPLETE (R103): the oldest operation of a core's divider, once its slots have passed, writes its result and counts its
events. -/
def execDividerComplete (cl core : Nat) (s : State) : Host.Outcome State Fault Refusal :=
  let c := s.clusterOf cl
  .next (match tget [] c.divq core with
    | [] => s
    | op :: ops =>
      let s1 := s.putCluster cl { c with divq := mset [] c.divq core ops }
      if s.cycle < op.due then s
      else if s1.hasGroup op.group then
        ((s1.putGroup op.group (((s1.group op.group).putWords op.words).freeBusy op.id)).countEvents op.group op.frag op.events).endTeam
          (op.group / 16)
      else s1)

end Sys2Proof.Machine
end

