-- ==== Sys2Proof/Machine/Lanes.lean ====
section
/-! DEFINITION. Compare, select and move, cross-lane instructions, predicate logic, and special registers (R108 to R111, R116
to R123), with the event counters' instructions (R156, R157). -/

namespace Sys2Proof.Machine

/-! ### Compare, select, move (R108 to R111) -/

/-- `cmp`: one predicate bit per lane, by the signedness of the element type. -/
def State.compare (s : State) (st : BitVec 3) (d a b : Nat) (rel : Int → Int → Bool) : Host.Outcome State Fault Refusal :=
  let ty := intTy s.et false
  let u := s.intUse st 1 2 scalarInts 0 [a, b]
  s.predwise { u with dsts := [64 + d] } d (fun see l =>
    (rel (ty.value (see.val s.wide a l)) (ty.value (see.val s.wide b l)), []))

def execCmpEq (st : BitVec 3) (d a b : BitVec 6) (s : State) : Host.Outcome State Fault Refusal :=
  s.compare st d.toNat a.toNat b.toNat (fun x y => decide (x = y))

def execCmpNe (st : BitVec 3) (d a b : BitVec 6) (s : State) : Host.Outcome State Fault Refusal :=
  s.compare st d.toNat a.toNat b.toNat (fun x y => decide (x ≠ y))

def execCmpLt (st : BitVec 3) (d a b : BitVec 6) (s : State) : Host.Outcome State Fault Refusal :=
  s.compare st d.toNat a.toNat b.toNat (fun x y => decide (x < y))

def execCmpLe (st : BitVec 3) (d a b : BitVec 6) (s : State) : Host.Outcome State Fault Refusal :=
  s.compare st d.toNat a.toNat b.toNat (fun x y => decide (x ≤ y))

def execCmpGt (st : BitVec 3) (d a b : BitVec 6) (s : State) : Host.Outcome State Fault Refusal :=
  s.compare st d.toNat a.toNat b.toNat (fun x y => decide (y < x))

def execCmpGe (st : BitVec 3) (d a b : BitVec 6) (s : State) : Host.Outcome State Fault Refusal :=
  s.compare st d.toNat a.toNat b.toNat (fun x y => decide (y ≤ x))

/-- What an instruction of ET column A over fields fs needs: the type sets only the operand width (R33). -/
def State.anyUse (s : State) (st : BitVec 3) (l32 l64 : Nat) (d : Nat) (fs : List Nat) : Use :=
  { stall := st.toNat, lat := if s.wide then l64 else l32, step7 := s.wide && !(isPair d && fs.all isPair),
    srcs := fs.flatMap (regs s.wide), dsts := regs s.wide d }

/-- `sel` (R109). -/
def execSel (st : BitVec 3) (d a b : BitVec 6) (n : BitVec 1) (p : BitVec 3) (s : State) : Host.Outcome State Fault Refusal :=
  let u := s.anyUse st 1 2 d.toNat [a.toNat, b.toNat]
  s.lanewise { u with sel := some p.toNat } s.wide d.toNat (fun see l =>
    (if (see.pred p.toNat).getLsbD l != (n == 1) then see.val s.wide a.toNat l else see.val s.wide b.toNat l, []))

/-- `mov` (R110). -/
def execMov (st : BitVec 3) (d a : BitVec 6) (s : State) : Host.Outcome State Fault Refusal :=
  s.lanewise (s.anyUse st 1 2 d.toNat [a.toNat]) s.wide d.toNat (fun see l => (see.val s.wide a.toNat l, []))

/-- `movi` (R111). -/
def execMovi (st : BitVec 3) (d : BitVec 6) (i : BitVec 17) (s : State) : Host.Outcome State Fault Refusal :=
  let u : Use := { stall := st.toNat, lat := 1, dsts := [d.toNat] }
  s.lanewise u false d.toNat (fun _ _ => ((i.signExtend 32).toNat, []))

/-- `movu` (R111): bits [14:0] of d are kept. -/
def execMovu (st : BitVec 3) (d : BitVec 6) (i : BitVec 17) (s : State) : Host.Outcome State Fault Refusal :=
  let u : Use := { stall := st.toNat, lat := 1, srcs := [d.toNat], dsts := [d.toNat] }
  s.lanewise u false d.toNat (fun see l => (i.toNat * 2 ^ 15 + (see.reg d.toNat l).toNat % 2 ^ 15, []))

/-! ### Cross-lane (R116 to R118) -/

/-- The source lane of `shfl`, if it is one: from the reader's lane and the value x of b. -/
def sourceAt (_ x : Nat) : Option Nat := if x < 32 then some x else none
def sourceRise (l x : Nat) : Option Nat := if x ≤ l then some (l - x) else none
def sourceFall (l x : Nat) : Option Nat := if l + x < 32 then some (l + x) else none
def sourceFlip (l x : Nat) : Option Nat := if l ^^^ x < 32 then some (l ^^^ x) else none

/-- `shfl`: a lane whose source is out of range reads 0 and becomes guarded-off. The guard predicate owes its gap whether or not a lane
turns out to be cut off, since the word may write it. DEDUCED, log 51. -/
def State.shuffle (s : State) (st : BitVec 3) (d a b : Nat) (source : Nat → Nat → Option Nat) :
    Host.Outcome State Fault Refusal :=
  let from_ := fun (see : Group) (l : Nat) => source l (see.reg b l).toNat
  let f := s.grp.cur
  let u : Use :=
    { stall := st.toNat, lat := 2, step7 := s.wide && !(isPair d && isPair a), srcs := regs s.wide a ++ [b]
      dsts := regs s.wide d ++ (if f.gp = 0 then [] else [64 + f.gp])
      redirect := some (fun see l => (from_ see l).toList) }
  s.run u (fun io =>
    let ls := lanesOf io.t
    let off := maskOf (ls.filter (fun l => (from_ io.see l).isNone))
    let g1 := s.grp.putVal s.wide d (fun l => match from_ io.see l with | some x => io.see.val s.wide a x | none => 0) ls
    s.finish u io (g1.setPred f.gp off (if f.gn then off else 0)))

def execShflAt (st : BitVec 3) (d a b : BitVec 6) (s : State) : Host.Outcome State Fault Refusal :=
  s.shuffle st d.toNat a.toNat b.toNat sourceAt

def execShflRise (st : BitVec 3) (d a b : BitVec 6) (s : State) : Host.Outcome State Fault Refusal :=
  s.shuffle st d.toNat a.toNat b.toNat sourceRise

def execShflFall (st : BitVec 3) (d a b : BitVec 6) (s : State) : Host.Outcome State Fault Refusal :=
  s.shuffle st d.toNat a.toNat b.toNat sourceFall

def execShflFlip (st : BitVec 3) (d a b : BitVec 6) (s : State) : Host.Outcome State Fault Refusal :=
  s.shuffle st d.toNat a.toNat b.toNat sourceFlip

/-- An instruction that combines predicates: f gives the written mask from the group as read and T. -/
def State.predOp (s : State) (st : BitVec 3) (d : Nat) (fs : List Nat) (f : Group → Mask → Mask) :
    Host.Outcome State Fault Refusal :=
  let u : Use := { stall := st.toNat, lat := 1, srcs := fs.map (64 + ·), dsts := [64 + d] }
  s.run u (fun io => s.finish u io (s.grp.setPred d io.t (f io.see io.t)))

def execVoteAny (st : BitVec 3) (d a : BitVec 6) (s : State) : Host.Outcome State Fault Refusal :=
  s.predOp st d.toNat [a.toNat] (fun see t => if see.pred a.toNat &&& t = 0 then 0 else BitVec.allOnes 32)

def execVoteAll (st : BitVec 3) (d a : BitVec 6) (s : State) : Host.Outcome State Fault Refusal :=
  s.predOp st d.toNat [a.toNat] (fun see t => if see.pred a.toNat &&& t = t then BitVec.allOnes 32 else 0)

def execVoteBallot (st : BitVec 3) (d a : BitVec 6) (s : State) : Host.Outcome State Fault Refusal :=
  let u : Use := { stall := st.toNat, lat := 1, srcs := [64 + a.toNat], dsts := [d.toNat] }
  s.run u (fun io => s.finish u io (s.grp.setLanes d.toNat (fun _ => io.see.pred a.toNat &&& io.t) (lanesOf io.t)))

/-- `scan` (R118): f gives a lane's element from the elements of the lanes of T up to it, its own last, and the type. -/
def State.scan (s : State) (st : BitVec 3) (d a : Nat) (f : IntTy → List Int → Nat × List Nat) :
    Host.Outcome State Fault Refusal :=
  let ty := intTy s.et s.grp.cur.sat
  let u := s.intUse st 4 5 intTypes d [a]
  s.run u (fun io =>
    let ls := lanesOf io.t
    let r := fun (l : Nat) => joinElems ty.w ((List.range ty.n).map (fun e =>
      f ty ((ls.filter (fun j => decide (j ≤ l))).map (fun j => ty.value (ty.raw (io.see.val s.wide a j) e)))))
    s.finish u io (s.grp.putVal s.wide d (fun l => (r l).1) ls) (ls.flatMap (fun l => (r l).2)))

def execScanAdd (st : BitVec 3) (d a : BitVec 6) (s : State) : Host.Outcome State Fault Refusal :=
  s.scan st d.toNat a.toNat (fun ty xs => ty.fit xs.sum)

def execScanAddx (st : BitVec 3) (d a : BitVec 6) (s : State) : Host.Outcome State Fault Refusal :=
  s.scan st d.toNat a.toNat (fun ty xs => ty.fit xs.dropLast.sum)

def execScanMin (st : BitVec 3) (d a : BitVec 6) (s : State) : Host.Outcome State Fault Refusal :=
  s.scan st d.toNat a.toNat (fun ty xs => ty.wrapped (xs.foldl min (xs.headD 0)))

def execScanMax (st : BitVec 3) (d a : BitVec 6) (s : State) : Host.Outcome State Fault Refusal :=
  s.scan st d.toNat a.toNat (fun ty xs => ty.wrapped (xs.foldl max (xs.headD 0)))

/-! ### Predicate logic (R119) -/

def execPand (st : BitVec 3) (d a b : BitVec 6) (s : State) : Host.Outcome State Fault Refusal :=
  s.predOp st d.toNat [a.toNat, b.toNat] (fun see _ => see.pred a.toNat &&& see.pred b.toNat)

def execPor (st : BitVec 3) (d a b : BitVec 6) (s : State) : Host.Outcome State Fault Refusal :=
  s.predOp st d.toNat [a.toNat, b.toNat] (fun see _ => see.pred a.toNat ||| see.pred b.toNat)

def execPxor (st : BitVec 3) (d a b : BitVec 6) (s : State) : Host.Outcome State Fault Refusal :=
  s.predOp st d.toNat [a.toNat, b.toNat] (fun see _ => see.pred a.toNat ^^^ see.pred b.toNat)

def execPnot (st : BitVec 3) (d a : BitVec 6) (s : State) : Host.Outcome State Fault Refusal :=
  s.predOp st d.toNat [a.toNat] (fun see _ => ~~~(see.pred a.toNat))

/-! ### Special registers (R120 to R123, R153, R154) -/

/-- TOPO (R123): where the group is resident. -/
def State.topo_ (s : State) : Nat := s.team.cluster / 2048 + s.team.cluster % 2048 * 2 ^ 9 + s.grp.core * 2 ^ 20

/-- The value of a special register in a lane (R122). -/
def State.special (s : State) (n l : Nat) : Nat :=
  let g := s.grp
  if n = 0 then l
  else if n = 1 then 32 * g.ord + l
  else if n = 2 then g.ord
  else if n = 3 then s.team.ix
  else if n = 4 then g.pos
  else if n = 5 then s.team.size
  else if n = 6 then s.launch.items
  else if n = 7 then s.launch.lcb.arg
  else if n = 8 then g.cur.mask.toNat
  else if n = 9 then g.cur.mode.toNat
  else if n = 0xA then s.topo_
  else if n = 0xB then s.cycle % 2 ^ 64
  else if n = 0xC then g.pos * 0x2000
  else if n < 0x14 then (tget 0 g.user (n - 0x10)).toNat
  else if n < 0x26 then (tget 0 s.team.evth (n - 0x20)).toNat
  else s.team.evstat.toNat

/-- `rds` (R120). -/
def execRds (st : BitVec 3) (d : BitVec 6) (n : BitVec 12) (s : State) : Host.Outcome State Fault Refusal :=
  let wd := specialWide n.toNat
  let u : Use := { stall := st.toNat, lat := 1, dsts := regs wd d.toNat }
  s.lanewise u wd d.toNat (fun _ l => (s.special n.toNat l, []))

/-- Write a special register (R121, R122, R153, R154). -/
def State.setSpecial (s : State) (n : Nat) (x : Word) : State :=
  if n < 0x20 then s.setGrp { s.grp with user := mset 0 s.grp.user (n - 0x10) x }
  else if n < 0x26 then s.setTeam { s.team with evth := mset 0 s.team.evth (n - 0x20) x }
  else s.setTeam { s.team with evstat := s.team.evstat &&& ~~~(x &&& 0x3F) }

/-- `wrs` (R121): the value of the lowest lane of T. -/
def execWrs (st : BitVec 3) (d : BitVec 6) (n : BitVec 12) (s : State) : Host.Outcome State Fault Refusal :=
  let u : Use := { stall := st.toNat, srcs := [d.toNat] }
  s.run u (fun io =>
    let s1 := s.finish u io s.grp
    if io.t = 0 then s1 else s1.setSpecial n.toNat (io.see.reg d.toNat (lowest io.t)))

/-! ### Event counters (R156, R157) -/

/-- An instruction of the group that may still count events is incomplete: in the divider, on a pair engine, in flight to a
home, or as a reducing copy. -/
def State.counting (s : State) : Bool :=
  !s.grp.busy.isEmpty || s.txns.any (fun (_, x) => x.group == s.cur) || s.copies.any (fun (_, c) => c.group == s.cur) ||
    s.cluster.reserve.any (fun r => r.group == s.cur)

/-- `evrd` (R156): waits for the group's earlier instructions, then gives the total. -/
def execEvrd (d c : BitVec 6) (s : State) : Host.Outcome State Fault Refusal :=
  let u : Use := { dsts := [d.toNat] }
  s.run u (fun io =>
    if s.counting then s.stand
    else s.finish u io (s.grp.setLanes d.toNat (fun _ => BitVec.ofNat 32 (tget 0 s.team.total c.toNat)) (lanesOf io.t)))

/-- `evclr` (R157): class 6 clears every class. -/
def execEvclr (c : BitVec 6) (s : State) : Host.Outcome State Fault Refusal :=
  let u : Use := {}
  s.run u (fun io =>
    let s1 := s.finish u io s.grp
    let keep := fun (t : Table Nat) => if c.toNat = 6 then [] else tdel t c.toNat
    if io.t = 0 then s1
    else s1.setTeam { s1.team with total := keep s1.team.total, window := keep s1.team.window })

/-- EVENT_WINDOW_RESET (R152). -/
def execEventWindowReset (t c : Nat) (s : State) : Host.Outcome State Fault Refusal := .next (s.resetWindow t c)

end Sys2Proof.Machine
end

