-- ==== Sys2Proof/Machine/Float.lean ====
section
/-! DEFINITION. The IEEE formats, exact results and their delivery (R126 to R129). Every result is formed exactly, as a
magnitude m × 2^e with a mark for a remainder too small to hold, and rounded once. -/

namespace Sys2Proof.Machine

/-- A binary format: exponent bits and fraction bits (R126). -/
structure FFmt where
  eb : Nat
  fb : Nat
  deriving DecidableEq, Repr

def f32 : FFmt := { eb := 8, fb := 23 }
def f16 : FFmt := { eb := 5, fb := 10 }
def b16 : FFmt := { eb := 8, fb := 7 }

/-- The format of a float element type (R30). -/
def fmtOf (et : Nat) : FFmt := if et = 9 then f16 else if et = 10 then b16 else f32

def FFmt.bias (f : FFmt) : Nat := 2 ^ (f.eb - 1) - 1
def FFmt.width (f : FFmt) : Nat := 1 + f.eb + f.fb
/-- The exponent of the last place of a subnormal. -/
def FFmt.emin (f : FFmt) : Int := 1 - (f.bias : Int) - (f.fb : Int)
/-- The sign bit, an infinity, the largest finite magnitude and the canonical quiet NaN (R127). -/
def FFmt.signBit (f : FFmt) : Nat := 2 ^ (f.eb + f.fb)
def FFmt.inf (f : FFmt) (neg : Bool) : Nat := (if neg then f.signBit else 0) + (2 ^ f.eb - 1) * 2 ^ f.fb
def FFmt.maxFin (f : FFmt) (neg : Bool) : Nat := f.inf neg - 1
def FFmt.qnan (f : FFmt) : Nat := (2 ^ f.eb - 1) * 2 ^ f.fb + 2 ^ (f.fb - 1)
def FFmt.zero (f : FFmt) (neg : Bool) : Nat := if neg then f.signBit else 0

/-- An operand: a NaN (signalling or quiet), an infinity, or ± m × 2^e. -/
inductive FVal where
  | nan (signalling : Bool)
  | inf (neg : Bool)
  | fin (neg : Bool) (m : Nat) (e : Int)
  deriving DecidableEq, Repr

/-- The value of a pattern; under FTZ a subnormal reads as zero of its sign (R129). -/
def FFmt.decode (f : FFmt) (ftz : Bool) (x : Nat) : FVal :=
  let neg := bit x (f.eb + f.fb)
  let ex := x / 2 ^ f.fb % 2 ^ f.eb
  let fr := x % 2 ^ f.fb
  if ex = 2 ^ f.eb - 1 then (if fr = 0 then .inf neg else .nan (!bit fr (f.fb - 1)))
  else if ex = 0 then .fin neg (if ftz then 0 else fr) f.emin
  else .fin neg (2 ^ f.fb + fr) ((ex : Int) - 1 + f.emin)

/-- An exact result (R128): invalid, an infinity, or ± a magnitude between m and m + 1 units of 2^e, equal to m units where
`more` is false. -/
inductive Exact where
  | invalid
  | inf (neg : Bool)
  | fin (neg : Bool) (m : Nat) (e : Int) (more : Bool)
  deriving DecidableEq, Repr

/-- The rounding direction, saturation and flushing in force. -/
structure FMode where
  rm : Nat := 0
  sat : Bool := false
  ftz : Bool := false
  deriving DecidableEq, Repr

def Frag.fmode (f : Frag) : FMode := { rm := f.rm, sat := f.sat, ftz := f.ftz }

/-- Does a magnitude q + r / 2^d (a little more where `more`) round up to q + 1 (R30)? -/
def roundsUp (rm : Nat) (neg : Bool) (q r d : Nat) (more : Bool) : Bool :=
  let inexact := r != 0 || more
  let twice := 2 * r
  let whole := 2 ^ d
  if rm = 0 then decide (whole < twice) || (twice == whole && (more || q % 2 == 1))
  else if rm = 2 then inexact && !neg
  else if rm = 3 then inexact && neg
  else if rm = 4 then decide (whole ≤ twice)
  else false

/-- Number of bits of a magnitude. -/
def bitLen (m : Nat) : Nat := if m = 0 then 0 else Nat.log2 m + 1

/-- m × 2^e rounded to a multiple of 2^k, as a number of units of 2^k. -/
def roundTo (rm : Nat) (neg : Bool) (m : Nat) (e : Int) (more : Bool) (k : Int) : Nat :=
  if k ≤ e then
    let q := m * 2 ^ (e - k).toNat
    if roundsUp rm neg q 0 1 more then q + 1 else q
  else
    let d := (k - e).toNat
    let q := m / 2 ^ d
    if roundsUp rm neg q (m % 2 ^ d) d more then q + 1 else q

/-- The pattern of a magnitude q × 2^k of a format, already rounded and no larger than Max. -/
def FFmt.encode (f : FFmt) (neg : Bool) (q : Nat) (k : Int) : Nat :=
  let n := bitLen q
  let top := k + (n : Int) - 1
  f.zero neg +
    (if q = 0 then 0
     else if top < 1 - (f.bias : Int) then q
     else (top + (f.bias : Int)).toNat * 2 ^ f.fb + (if f.fb + 1 < n then q / 2 ^ (n - 1 - f.fb) else q * 2 ^ (f.fb + 1 - n)) - 2 ^ f.fb)

/-- What an overflow delivers (R128). -/
def FFmt.overflow (f : FFmt) (md : FMode) (neg : Bool) : Nat × List Nat :=
  if md.sat then (f.maxFin neg, [2])
  else ((if md.rm = 1 then f.maxFin neg
    else if md.rm = 2 then (if neg then f.maxFin true else f.inf false)
    else if md.rm = 3 then (if neg then f.inf true else f.maxFin false)
    else f.inf neg), [0])

/-- Deliver (R128): the pattern of an exact result in a format and the events it counts. -/
def FFmt.deliver (f : FFmt) (md : FMode) (x : Exact) : Nat × List Nat :=
  match x with
  | .invalid => (f.qnan, [1])
  | .inf neg => (f.inf neg, [])
  | .fin neg m e more =>
    if m = 0 ∧ !more then (f.zero neg, [])
    else
      let k := max (e + (bitLen m : Int) - ((f.fb : Int) + 1)) f.emin
      let q := roundTo md.rm neg m e more k
      let top := k + (bitLen q : Int) - 1
      if (f.bias : Int) < top ∧ q ≠ 0 then f.overflow md neg
      else if q = 0 ∨ (md.ftz ∧ top < 1 - (f.bias : Int)) then (f.zero neg, [3])
      else (f.encode neg q k, [])

/-! ### Exact operations -/

/-- A finite operand as an exact value. -/
def FVal.exact : FVal → Exact
  | .nan _ => .invalid
  | .inf n => .inf n
  | .fin n m e => .fin n m e false

/-- Product of two operands that are no NaN. -/
def exactMul (a b : FVal) : Exact :=
  match a, b with
  | .fin n m e, .fin n' m' e' => .fin (n != n') (m * m') (e + e') false
  | .inf n, .fin n' m _ => if m = 0 then .invalid else .inf (n != n')
  | .fin n m _, .inf n' => if m = 0 then .invalid else .inf (n != n')
  | .inf n, .inf n' => .inf (n != n')
  | _, _ => .invalid

/-- The signed units of 2^k that a finite exact term without remainder holds, for k no greater than its exponent. -/
def Exact.units (k : Int) : Exact → Int
  | .fin n m e _ => (if n then -1 else 1) * ((m * 2 ^ (e - k).toNat : Nat) : Int)
  | _ => 0

def Exact.exponent : Exact → Int
  | .fin _ _ e _ => e
  | _ => 0

def Exact.isInf (neg : Bool) : Exact → Bool
  | .inf n => n == neg
  | _ => false

def Exact.neg? : Exact → Bool
  | .fin n _ _ _ => n
  | .inf n => n
  | .invalid => false

/-- Exact sum of terms without remainders (R128): opposite infinities are invalid; a zero sum of unlike zeros or of terms that
cancel is +0, or −0 under RDN. R128 keeps the sign of two zeros of one sign; so do three here (R141). DEDUCED, log 52. -/
def exactSum (rm : Nat) (ts : List Exact) : Exact :=
  if ts.any (· == .invalid) then .invalid
  else if ts.any (Exact.isInf true) then (if ts.any (Exact.isInf false) then .invalid else .inf true)
  else if ts.any (Exact.isInf false) then .inf false
  else
    let k := ts.foldl (fun k t => min k t.exponent) ((ts.headD .invalid).exponent)
    let v := (ts.map (Exact.units k)).sum
    if v = 0 then
      let zero := ts.all (fun t => t.units k == 0)
      if zero && ts.all (fun t => t.neg? == (ts.headD .invalid).neg?) then .fin (ts.headD .invalid).neg? 0 k false
      else .fin (rm == 3) 0 k false
    else .fin (decide (v < 0)) v.natAbs k false

/-- Quotient of two operands that are no NaN (R139). -/
def exactDiv (a b : FVal) : Exact :=
  match a, b with
  | .fin n m e, .fin n' m' e' =>
    if m' = 0 then (if m = 0 then .invalid else .inf (n != n'))
    else
      let x := m * 2 ^ 100
      .fin (n != n') (x / m') (e - e' - 100) (x % m' != 0)
  | .inf n, .fin n' _ _ => .inf (n != n')
  | .fin n _ _, .inf n' => .fin (n != n') 0 0 false
  | _, _ => .invalid

/-- Integer square root, bit by bit from bit n − 1. -/
def isqrtFrom (x : Nat) : Nat → Nat → Nat
  | 0, r => r
  | n + 1, r => if (r + 2 ^ n) * (r + 2 ^ n) ≤ x then isqrtFrom x n (r + 2 ^ n) else isqrtFrom x n r

/-- A finite nonzero magnitude with an even exponent. -/
def evenExp (m : Nat) (e : Int) : Nat × Int := if e % 2 = 0 then (m, e) else (2 * m, e - 1)

/-- Square root (R139). -/
def exactSqrt (a : FVal) : Exact :=
  match a with
  | .fin n m e =>
    if m = 0 then .fin n 0 0 false
    else if n then .invalid
    else
      let p := evenExp m e
      let x := p.1 * 2 ^ 160
      let r := isqrtFrom x 100 0
      .fin false r (p.2 / 2 - 80) (r * r != x)
  | .inf n => if n then .invalid else .inf false
  | .nan _ => .invalid

/-- Reciprocal square root (R140). -/
def exactRsqrt (a : FVal) : Exact :=
  match a with
  | .fin n m e =>
    if m = 0 then .inf n
    else if n then .invalid
    else
      let p := evenExp m e
      let r := isqrtFrom (2 ^ 260 / p.1) 140 0
      .fin false r (-(p.2 / 2) - 130) (r * r * p.1 != 2 ^ 260)
  | .inf n => if n then .invalid else .fin false 0 0 false
  | .nan _ => .invalid

/-- Bits of the fixed-point numbers below (DEDUCED, log 9). -/
def fixBits : Nat := 400

/-- ln 2 × 2^400. -/
def fixLn2 : Nat := 0xb17217f7d1cf79abc9e3b39803f2f6af40f343267298b62d8a0d175b8baafa2be7b876206debac98559552fb4afa1b10ed2e

/-- Σ x^k / k! for k from n, by its term t of index n − 1, in fixed point. -/
def expTerms (x : Nat) : Nat → Nat → Nat → Nat
  | 0, _, _ => 0
  | fuel + 1, k, t => let t' := t * x / 2 ^ fixBits / k; t' + expTerms x fuel (k + 1) t'

/-- 2^f × 2^400 for a fixed-point f in [0, 1), rounded down. -/
def fixExp2 (f : Nat) : Nat := 2 ^ fixBits + expTerms (f * fixLn2 / 2 ^ fixBits) 90 1 (2 ^ fixBits)

/-- 2^A (R140). -/
def exactExp2 (a : FVal) : Exact :=
  match a with
  | .nan _ => .invalid
  | .inf n => if n then .fin false 0 0 false else .inf false
  | .fin n m e =>
    if m = 0 then .fin false 1 0 false
    else if 12 < e + (bitLen m : Int) then (if n then .fin false 1 (-5000) true else .fin false 1 5000 true)
    else
      let u : Int := (if n then -1 else 1) * ((m * 2 ^ (e + fixBits).toNat : Nat) : Int)
      let i := u / (2 ^ fixBits : Nat)
      let f := (u % (2 ^ fixBits : Nat)).toNat
      if f = 0 then .fin false 1 i false else .fin false (fixExp2 f) (i - fixBits) true

/-- Σ z^(2k+1) / (2k+1), by the power p of index k, in fixed point. -/
def atanhTerms (z2 : Nat) : Nat → Nat → Nat → Nat
  | 0, _, _ => 0
  | fuel + 1, k, p => p / k + atanhTerms z2 fuel (k + 2) (p * z2 / 2 ^ fixBits)

/-- log2 y × 2^400 for a magnitude m × 2^-(n-1) in [1, 2). -/
def fixLog2 (m : Nat) : Nat :=
  let one := 2 ^ (bitLen m - 1)
  let z := (m - one) * 2 ^ fixBits / (m + one)
  2 * atanhTerms (z * z / 2 ^ fixBits) 140 1 z * 2 ^ fixBits / fixLn2

/-- log2 A (R140). -/
def exactLog2 (a : FVal) : Exact :=
  match a with
  | .nan _ => .invalid
  | .inf n => if n then .invalid else .inf false
  | .fin n m e =>
    if m = 0 then .inf true
    else if n then .invalid
    else
      let top := e + (bitLen m : Int) - 1
      if m = 2 ^ (bitLen m - 1) then .fin (decide (top < 0)) top.natAbs 0 false
      else
        let v := top * (2 ^ fixBits : Nat) + (fixLog2 m : Int)
        .fin (decide (v < 0)) v.natAbs (-(fixBits : Int)) true

/-! ### NaN operands (R129) -/

/-- The result where an operand is a NaN: invalid once if one is signalling. -/
def FFmt.nanResult (f : FFmt) (xs : List FVal) : Option (Nat × List Nat) :=
  if xs.any (· == .nan true) then some (f.qnan, [1])
  else if xs.any (· == .nan false) then some (f.qnan, [])
  else none

/-- Deliver an exact function of operands, NaN operands first. -/
def FFmt.result (f : FFmt) (md : FMode) (xs : List FVal) (x : Exact) : Nat × List Nat :=
  (f.nanResult xs).getD (f.deliver md x)

end Sys2Proof.Machine
end

