-- ==== Sys2Proof/Machine/Control.lean ====
section
/-! DEFINITION. Control flow (R77 to R89): branches, calls, reconvergence, exits and mode instructions. -/

namespace Sys2Proof.Machine

/-- A word offset of n bits as a displacement of the PC in bytes (R20). -/
def wordOffset {n : Nat} (o : BitVec n) : BitVec 64 := (o.signExtend 64) <<< 2

/-- One part for each distinct target, in ascending order of the lowest lane that takes it (R79, R82). -/
def partsTo (depth : Nat) (target : Nat → BitVec 64) (lanes : List Nat) (stack : Option (Nat × Bool)) : List Part :=
  ((lanes.map target).eraseDups).map (fun t =>
    { mask := maskOf (lanes.filter (fun l => target l == t)), pc := t, depth, stack })

/-- The address that a pair holds, with bits [1:0] cleared (R79). -/
def Group.address (g : Group) (n l : Nat) : BitVec 64 := BitVec.ofNat 64 (g.val true n l) &&& ~~~3

/-- The lanes of the fragment that neither act nor park. -/
def State.others (s : State) (io : Issue) : Mask := s.active &&& ~~~(io.t ||| io.w)

/-- The part that falls through to the next word. -/
def State.fallThrough (s : State) (io : Issue) : Part :=
  { mask := s.others io, pc := s.grp.cur.pc + 4, depth := s.grp.cur.depth }

/-- Write the return address into `v58`-`v59` (R80). -/
def State.linked (s : State) (io : Issue) : Group := s.grp.putVal true 58 (fun _ => (s.grp.cur.pc + 4).toNat) (lanesOf io.t)

/-- `br` (R77). -/
def execBr (st : BitVec 3) (o : BitVec 23) (s : State) : Host.Outcome State Fault Refusal :=
  let u : Use := { stall := st.toNat }
  s.run u (fun io => s.close u io s.grp [] (some [s.fallThrough io,
    { mask := io.t, pc := s.grp.cur.pc + wordOffset o, depth := s.grp.cur.depth }]))

/-- `call` (R80): a call at depth 63 traps with no effect. -/
def execCall (st : BitVec 3) (o : BitVec 23) (s : State) : Host.Outcome State Fault Refusal :=
  let u : Use := { stall := st.toNat, lat := 1, dsts := [58, 59] }
  s.run u (fun io =>
    if io.t ≠ 0 ∧ s.grp.cur.depth = 63 then s.trap 0x38 0x11
    else s.close u io (s.linked io) [] (some [s.fallThrough io,
      { mask := io.t, pc := s.grp.cur.pc + wordOffset o, depth := s.grp.cur.depth + 1 }]))

/-- The free pool entry that a `fuse` takes (R83). -/
def Group.freeFuse (g : Group) : Option Nat := (List.range 64).find? (fun e => !(tget {} g.pool e).live)

/-- `fuse` (R83): no effect where the top entry already expects these lanes at the same address and depth. -/
def execFuse (st : BitVec 3) (o : BitVec 23) (s : State) : Host.Outcome State Fault Refusal :=
  let u : Use := { stall := st.toNat, guarded := false }
  s.run u (fun io =>
    let g := s.grp
    let f := g.cur
    let tgt := f.pc + wordOffset o
    let top : Fuse := tget {} g.pool f.ftop
    if f.fv && top.tgt == tgt && top.depth == f.depth && within f.mask top.exp then
      s.settle u io (g.proceed io none).reselect []
    else match g.freeFuse with
      | none => s.trap 0x38 0x10
      | some e =>
        let g1 := { g with
          pool := tput g.pool e { exp := f.mask, tgt, depth := f.depth, parent := f.ftop, pv := f.fv, live := true }
          cur := { f with ftop := e, fv := true } }
        s.settle u io (g1.proceed io none).reselect [])

/-- The target of a lane of `brt` (R78): a table word outside the code range is the target itself. -/
def State.tableTarget (s : State) (n ix : Nat) : BitVec 64 :=
  let pc := s.grp.cur.pc.toNat
  if ix < n then
    let w := pc + 4 + 4 * ix
    match s.codePa w with
    | none => BitVec.ofNat 64 w
    | some pa => BitVec.ofNat 64 (s.launch.lcb.codeBase + (s.codeAt pa).toNat / 4 * 4)
  else BitVec.ofNat 64 (pc + 4 + 4 * n)

/-- The table words that the lanes read enter the instruction cache (R78). -/
def State.fillTable (s : State) (n : Nat) (ixs : List Nat) : State :=
  (ixs.filter (fun ix => decide (ix < n))).foldl (fun s' ix =>
    match s.codePa (s.grp.cur.pc.toNat + 4 + 4 * ix) with
    | none => s'
    | some pa => s'.fillCode pa) s

/-- `brt` (R78): guarded-off lanes leave with the lanes of the default. -/
def execBrt (a : BitVec 6) (n : BitVec 11) (s : State) : Host.Outcome State Fault Refusal :=
  let u : Use := { srcs := [a.toNat] }
  s.run u (fun io =>
    let size := n.toNat + 1
    let index := fun (l : Nat) => if io.t.getLsbD l then (io.see.reg a.toNat l).toNat else size
    let target := fun (l : Nat) => s.tableTarget size (index l)
    let s1 := s.fillTable size ((lanesOf io.t).map index)
    s1.close u io s.grp [] (some (partsTo s.grp.cur.depth target (lanesOf (s.active &&& ~~~io.w)) none)))

/-- `bra` (R79). -/
def execBra (st : BitVec 3) (a : BitVec 6) (s : State) : Host.Outcome State Fault Refusal :=
  let u : Use := { stall := st.toNat, srcs := regs true a.toNat }
  s.run u (fun io => s.close u io s.grp []
    (some (s.fallThrough io :: partsTo s.grp.cur.depth (io.see.address a.toNat) (lanesOf io.t) none)))

/-- `calla` (R81): the targets are read before the link is written. -/
def execCalla (st : BitVec 3) (a : BitVec 6) (s : State) : Host.Outcome State Fault Refusal :=
  let u : Use := { stall := st.toNat, lat := 1, srcs := regs true a.toNat, dsts := [58, 59] }
  s.run u (fun io =>
    if io.t ≠ 0 ∧ s.grp.cur.depth = 63 then s.trap 0x38 0x11
    else s.close u io (s.linked io) []
      (some (s.fallThrough io :: partsTo (s.grp.cur.depth + 1) (io.see.address a.toNat) (lanesOf io.t) none)))

/-- A `bret` of the issuing group is outstanding (R167, R328). -/
def State.returning (s : State) : Bool := s.reqs.any (fun (_, r) => r.group == s.cur && r.purpose == .ret)

/-- The slots that lanes of a group would publish at their exit (R169). -/
def State.owesSlots (s : State) (lanes : Mask) : List (Nat × Nat) :=
  if s.launch.ordered then
    (lanesOf lanes).flatMap (fun l => ((List.range 4).filter (fun j =>
      (tget ({} : CarrySlot) s.launch.lcb.carry j).valid && !(tget 0 s.grp.pub j).getLsbD l)).map (fun j => (j, l)))
  else []

/-- What an exit needs: the binding registers of the slots it publishes must have been written (R26, R169). DEDUCED, log 16. -/
def State.exitUse (s : State) (stall : Nat) (srcs : List Nat) : Use :=
  { stall, srcs, dsts := (s.owesSlots s.lanesT).map (fun (j, l) => s.grp.binding s.launch j l) }

/-- The group as an exit reads the binding registers of the slots that it publishes: no check covers them, so one read before its
producer's latency has elapsed may show the value before the write (R28, R169). DEDUCED, log 16. -/
def State.bindingView (s : State) (lanes : Mask) : Group :=
  ((s.owesSlots lanes).map (fun (j, l) => s.grp.binding s.launch j l)).foldl s.seeOne s.grp

/-- A register that an exit would publish holds poisoned data (R417). -/
def State.publishesBad (s : State) (lanes : Mask) : Bool :=
  (s.owesSlots lanes).any (fun (j, l) => s.grp.bad.contains (32 * s.grp.binding s.launch j l + l))

/-- End the lanes T and go on with the rest at the next word (R86). Publication waits for the group's `bret` (R167); a poisoned value is not
read (R417). -/
def State.leave (s : State) (u : Use) (io : Issue) : State :=
  if s.returning && !(s.owesSlots io.t).isEmpty then s.stand
  else if !s.grp.cur.handler && s.publishesBad io.t then s.meetBad.stand
  else
    let s1 := (s.close u io s.grp [] none).exitLanes (s.bindingView io.t) io.t s.grp.cur.handler
    s1.setGrp s1.grp.reselect

/-- `ret` (R82): at depth 0 it exits; otherwise lanes leave the entries of their depth and go to their return addresses. -/
def execRet (st : BitVec 3) (s : State) : Host.Outcome State Fault Refusal :=
  let d := s.grp.cur.depth
  let u : Use := if d = 0 then s.exitUse st.toNat [58, 59] else { stall := st.toNat, srcs := [58, 59] }
  s.run u (fun io =>
    if d = 0 then s.leave u io
    else
      let stack := s.grp.below d 64 s.grp.cur.ftop s.grp.cur.fv
      let g1 := (s.grp.withdrawReturn io.t d).divide (s.grp.cur.pc + 4)
        (s.fallThrough io :: partsTo (d - 1) (io.see.address 58) (lanesOf io.t) (some stack))
      let g2 := g1.pool.foldl (fun g (e, _) => g.complete e) g1
      s.settle u io g2.reselect [])

/-- `join` (R84): waits at a matching entry, which completes if its expectation is met (R71). -/
def execJoin (st : BitVec 3) (s : State) : Host.Outcome State Fault Refusal :=
  let u : Use := { stall := st.toNat, guarded := false }
  s.run u (fun io =>
    let g := s.grp
    let f := g.cur
    let top : Fuse := tget {} g.pool f.ftop
    if f.fv && top.tgt == f.pc && top.depth == f.depth then
      s.settle u io (({ g with cur := { f with st := .joinWait, wait := .none } } : Group).complete f.ftop).reselect []
    else s.settle u io (g.proceed io none).reselect [])

/-- `yield` (R85): the group gives up its turn. -/
def execYield (st : BitVec 3) (s : State) : Host.Outcome State Fault Refusal :=
  let u : Use := { stall := st.toNat, guarded := false }
  s.run u (fun io => s.settle u io { s.grp.proceed io none with yielded := 16 } [])

/-- YIELD_END (R85): the turn comes again, and the selection is re-evaluated. -/
def execYieldEnd (k : Nat) (s : State) : Host.Outcome State Fault Refusal :=
  let g := s.group k
  .next (if g.yielded = 0 then s else s.putGroup k { g with yielded := 0 }.reselect)

/-- `exit` (R86). -/
def execExit (st : BitVec 3) (s : State) : Host.Outcome State Fault Refusal :=
  let u := s.exitUse st.toNat []
  s.run u (fun io => s.leave u io)

/-- `nop` (R87). -/
def execNop (st : BitVec 3) (s : State) : Host.Outcome State Fault Refusal :=
  let u : Use := { stall := st.toNat, guarded := false }
  s.run u (fun io => s.finish u io s.grp)

/-- A mode value that R31 admits: no reserved ET or RM code, bits [2:0] zero. -/
def modeOk (m : Nat) : Bool := decide (bits m 10 7 ≤ 10) && decide (bits m 13 11 ≤ 4) && bits m 2 0 == 0

/-- `mode` (R88, R31). -/
def execMode (st : BitVec 3) (m : BitVec 16) (s : State) : Host.Outcome State Fault Refusal :=
  let u : Use := { stall := st.toNat, guarded := false }
  s.run u (fun io =>
    if modeOk m.toNat then s.finish u io { s.grp with cur := { s.grp.cur with mode := m } } else s.trap 2 1)

/-- `modg` (R89): GN and GP alone. -/
def execModg (st : BitVec 3) (n : BitVec 1) (p : BitVec 3) (s : State) : Host.Outcome State Fault Refusal :=
  let u : Use := { stall := st.toNat, guarded := false }
  s.run u (fun io =>
    let m := (s.grp.cur.mode &&& 0xFF87) ||| BitVec.ofNat 16 (n.toNat * 64 + p.toNat * 8)
    s.finish u io { s.grp with cur := { s.grp.cur with mode := m } })

/-- DEFERRED_TRAP (R382): the group's next issue takes a deferred trap that is due. BUDGET names the instruction about to issue,
the others the one after theirs (R385). -/
def execDeferredTrap (k : Nat) (s : State) : Host.Outcome State Fault Refusal :=
  let s1 := { s with cur := k }
  match s1.grp.dueTrap with
  | none => .next s
  | some d =>
    .next ((s1.setGrp { s1.grp with deferred := s1.grp.deferred.erase d }).trapWith d.code d.detail 0 (d.code != 0x38))

end Sys2Proof.Machine
end

