-- ==== Sys2Proof/Machine/Carry.lean ====
section
/-! DEFINITION. Carry instructions (R176 to R178), the travel of published values (R173, R174), and the waking of parked
fragments (R164). -/

namespace Sys2Proof.Machine

/-- The carry slot record of the issuing launch. -/
def State.slotOf (s : State) (j : Nat) : CarrySlot := tget {} s.launch.lcb.carry j

/-- CARRY_UNORDERED of `pub` and `cdef` over the lanes t (R177, R178): with no lane guarded-on there is no effect beyond the slot, and
no trap (R34). DEDUCED, log 49. -/
def State.carryCheck (s : State) (t : Mask) (j : Nat) : Option (Nat × Nat) :=
  if t = 0 then none
  else if !s.launch.ordered then some (0x22, 4 + j) else if !(s.slotOf j).valid then some (0x22, 8 + j) else none

/-- `pub` (R177): waits for the group's `bret` (R167). -/
def execPub (a j : BitVec 6) (s : State) : Host.Outcome State Fault Refusal :=
  let slot := j.toNat
  let done := tget 0 s.grp.pub slot
  let u : Use :=
    { srcs := [a.toNat]
      check := fun t => (s.carryCheck t slot).orElse (fun _ =>
        if t &&& done = 0 then none else some (0x21, 4 * lowest (t &&& done) + slot)) }
  s.run u (fun io =>
    if io.t ≠ 0 ∧ s.returning then s.stand
    else
      let s1 := s.finish u io { s.grp with pub := mset 0 s.grp.pub slot (done ||| io.t) }
      (lanesOf io.t).foldl (fun s' l =>
        s'.publish s.team.launch (32 * s.grp.ord + l) slot (some (io.see.reg a.toNat l))) s1)

/-- `cdef` (R178): the k field holds the distance less one. -/
def execCdef (d : BitVec 6) (j : BitVec 2) (k : BitVec 10) (s : State) : Host.Outcome State Fault Refusal :=
  let slot := j.toNat
  let u : Use :=
    { check := fun t => (s.carryCheck t slot).orElse (fun _ =>
        if t = 0 ∨ k.toNat + 1 = (s.slotOf slot).k then none else some (0x22, 12 + slot)) }
  s.run u (fun io =>
    s.finish u io { s.grp with bind := (lanesOf io.t).foldl (fun b l => tput b (32 * slot + l) d.toNat) s.grp.bind })

/-! ### Travel -/

/-- The item that reads what item i publishes for slot j. -/
def Launch.consumer (l : Launch) (i j : Nat) : Nat := i + (tget ({} : CarrySlot) l.lcb.carry j).k

/-- The group of a launch that holds an item, if its team is resident (R174). -/
def State.holder (s : State) (l i : Nat) : Option (Nat × Group) :=
  s.groups.find? (fun (_, g) => (s.teamOf g.team).launch == l && g.ord == i / 32 && (s.teamOf g.team).st == .resident)

/-- Where a value's entry in the carry spill area lies (R173). -/
def State.spillAt (s : State) (c : Carried) : Option Nat :=
  let lcb := (s.launchOf c.launch).lcb
  translate (s.launchOf c.launch).pins (lcb.spill + 16 * (c.slot * lcb.spillN + c.item % lcb.spillN))

/-- Write a value into the carry spill area (R173). -/
def State.writeSpill (s : State) (c : Carried) : State :=
  let word := c.item * 2 ^ 64 + (c.value.getD 0).toNat * 2 ^ 32 + c.slot * 2 ^ 30 + (if c.value.isSome then 1 else 2) * 2 ^ 28
  match s.spillAt c with
  | none => s
  | some pa => { s with mem := writeLe s.mem pa word 16 }

/-- Where a value goes (R174). -/
def State.setPlace (s : State) (l i j : Nat) (p : CarryPlace) : State :=
  { s with carried := s.carried.map (fun c => if c.launch == l && c.item == i && c.slot == j then { c with place := p } else c) }

/-- Entries of a cluster's carry buffer in use. -/
def State.carryUsed (s : State) (cl : Nat) : Nat := (s.carried.filter (fun c => c.place == .buffer cl)).length

/-- The needs of a parked fragment that are not met. -/
def State.unmet (s : State) (g : Group) (needs : List (Nat × Nat × Nat)) : List (Nat × Nat × Nat) :=
  let t := s.teamOf g.team
  needs.filter (fun x => !s.carried.any (fun c => c.at_ t.launch x.2.2 x.2.1 t.cluster))

/-- A parked fragment becomes ready when one of its lanes needs nothing more (R164). -/
def State.wakeFrag (s : State) (g : Group) (f : Frag) : Frag :=
  match f.st, f.wait with
  | .parked, .carry needs =>
    let left := s.unmet g needs
    if (lanesOf f.mask).any (fun l => !left.any (fun x => x.1 == l)) then { f with st := .ready, wait := .none } else f
  | _, _ => f

/-- Wake the parked fragments of a group and re-evaluate its selection if one woke (R164). -/
def State.wakeGroup (s : State) (k : Nat) : State :=
  let g := s.group k
  let cur := s.wakeFrag g g.cur
  let rest := g.rest.map (s.wakeFrag g)
  if cur == g.cur && rest == g.rest then s else s.putGroup k { g with cur := cur, rest := rest }.keepSelect

end Sys2Proof.Machine
end

