-- ==== Sys2Proof/Machine/Home.lean ====
section
/-! DEFINITION. Locations and their homes, and the cluster cache (R183, R193, R194, R217). A location is a physical address of this device, or
of device d with 2^60 × (d + 1) added; a home is an M-die, a host edge die (288, 289) or, for device d, 1000 + d. -/

namespace Sys2Proof.Machine

/-! ### Locations -/

def lineOf (loc : Nat) : Nat := loc / 128
def locDev (loc : Nat) : Option Nat := if loc < 2 ^ 60 then none else some (loc / 2 ^ 60 - 1)
def peerLoc (dev pa : Nat) : Nat := 2 ^ 60 * (dev + 1) + pa

def State.peer (s : State) (d : Nat) : Peer := tget {} s.peers d
def State.putPeer (s : State) (d : Nat) (p : Peer) : State := { s with peers := tput s.peers d p }

/-- A byte at its home. -/
def State.homeByte (s : State) (loc : Nat) : Byte :=
  match locDev loc with
  | none => readByte s.mem loc
  | some d => readByte (s.peer d).mem (loc % 2 ^ 60)

/-- A byte of DRAM is written: where it is one of the bias table, the bits of eight pages have been written directly (R408). -/
def HostEdge.written (h : HostEdge) (a : Nat) : HostEdge :=
  if h.biasBase ≤ a ∧ a < h.biasBase + h.hdmLen / 32768 then
    { h with direct := (h.direct ++ (List.range 8).map (fun i => 8 * (a - h.biasBase) + i)).eraseDups }
  else h

/-- A launch that reads seeds remembers the bytes that change while it runs (R161). -/
def Launch.note (l : Launch) (a : Nat) : Launch :=
  if l.lcb.carry.any (fun (_, c) => c.valid && c.seed != 2 ^ 64 - 1) && !l.changed.contains a then { l with changed := l.changed ++ [a] } else l

def State.noteChange (s : State) (a : Nat) : State := { s with launches := s.launches.map (fun (k, l) => (k, l.note a)) }

/-- Write a byte at its home. -/
def State.setHomeByte (s : State) (loc : Nat) (b : Byte) : State :=
  match locDev loc with
  | none =>
    { (if readByte s.mem loc = b then s else s.noteChange loc) with
      mem := writeByte s.mem loc b, hostEdges := s.hostEdges.map (fun (k, h) => (k, h.written loc)) }
  | some d => s.putPeer d { s.peer d with mem := writeByte (s.peer d).mem (loc % 2 ^ 60) b }

/-- n bytes at their homes, least significant first. -/
def State.homeLe (s : State) (loc : Nat) : Nat → Nat
  | 0 => 0
  | n + 1 => (s.homeByte loc).toNat + 256 * s.homeLe (loc + 1) n

def State.setHomeLe (s : State) (loc v : Nat) : Nat → State
  | 0 => s
  | n + 1 => (s.setHomeLe (loc + 1) (v / 256) n).setHomeByte loc (BitVec.ofNat 8 v)

/-- The home of a location. -/
def State.homeOf (s : State) (loc : Nat) : Nat :=
  match locDev loc with
  | none => s.home loc
  | some d => 1000 + d

/-- A location lies in a list of spans. -/
def inSpans (spans : List (Nat × Nat)) (loc : Nat) : Bool := spans.any (fun (a, n) => decide (a ≤ loc) && decide (loc < a + n))

/-! ### The cluster cache -/

/-- Banks of a cluster taken by a team's footprint (R213, R355). -/
def Team.footBanks (t : Team) : Nat := (t.size * 8960 + t.scr + 16383) / 16384

/-- Banks of a cluster in cache-way mode (R213, R217). -/
def State.cacheWays (s : State) (cl : Nat) : Nat :=
  16 - ((s.teams.filter (fun (_, t) => t.cluster == cl && t.st != .absent && t.st != .saved)).map (fun (_, t) =>
    t.footBanks + (t.banks.filter (fun b => b.mode != .cacheWay)).length)).sum

def State.cached (s : State) (cl loc : Nat) : Option CByte := tfind (s.clusterOf cl).cache loc

/-- A byte as a cluster sees it: from its cache where it holds it, otherwise from its home. -/
def State.seenByte (s : State) (cl loc : Nat) : Byte := ((s.cached cl loc).map (·.val)).getD (s.homeByte loc)

def State.seenLe (s : State) (cl loc : Nat) : Nat → Nat
  | 0 => 0
  | n + 1 => (s.seenByte cl loc).toNat + 256 * s.seenLe cl (loc + 1) n

/-- A cluster holds n bytes; as commons bytes where asked. -/
def State.holdsBytes (s : State) (cl : Nat) (commons : Bool) (loc n : Nat) : Bool :=
  (List.range n).all (fun i => ((s.cached cl (loc + i)).map (fun b => !commons || b.commons)).getD false)

/-- Some byte of the line is in the cluster's cache. -/
def State.holdsLine (s : State) (cl loc : Nat) : Bool :=
  (s.clusterOf cl).cache.any (fun (a, _) => lineOf a == lineOf loc)

/-- Bring the absent bytes of a line into a cluster's cache, clean; poisoned data does not come (R417). DESIGN CHOICE, log 20. -/
def State.fillLine (s : State) (cl loc team : Nat) (commons : Bool) : State :=
  let base := lineOf loc * 128
  let c := s.clusterOf cl
  if s.poison.contains (lineOf loc) then s else s.putCluster cl { c with cache := (List.range 128).foldl (fun m i =>
    if (tfind m (base + i)).isSome then m
    else tput m (base + i) { val := s.homeByte (base + i), dirty := false, team, commons }) c.cache }

/-- Write n bytes in a cluster's cache: they become newer than their home. A commons line takes the writer's tag (R268). -/
def State.cacheWrite (s : State) (cl loc v n team : Nat) (commons : Bool) : State :=
  let c := s.clusterOf cl
  let old := if commons then c.cache.map (fun (a, b) => if lineOf a == lineOf loc then (a, { b with team }) else (a, b)) else c.cache
  let moved := (List.range n).filter (fun i => s.seenByte cl (loc + i) != BitVec.ofNat 8 (v / 256 ^ i))
  (moved.foldl (fun s' i => s'.noteChange (loc + i)) s).putCluster cl { c with cache := (List.range n).foldl (fun m i =>
    tput m (loc + i) { val := BitVec.ofNat 8 (v / 256 ^ i), dirty := true, team, commons }) old }

/-- Drop the bytes of a cluster's cache that p names. -/
def State.dropBytes (s : State) (cl : Nat) (p : Nat → CByte → Bool) : State :=
  let c := s.clusterOf cl
  s.putCluster cl { c with cache := c.cache.filter (fun (a, b) => !p a b) }

/-- Lines of which every byte has been written at its home are poisoned no more (R417). -/
def State.cleansed (s : State) (as : List Nat) : State :=
  { s with poison := s.poison.filter (fun l => !(List.range 128).all (fun i => as.contains (128 * l + i))) }

/-- Write the dirty bytes that p names back to their homes; they stay cached, clean. -/
def State.writeBackBytes (s : State) (cl : Nat) (p : Nat → CByte → Bool) : State :=
  let c := s.clusterOf cl
  let out := c.cache.filter (fun (a, b) => b.dirty && p a b)
  let s1 := (out.foldl (fun s' (a, b) => s'.setHomeByte a b.val) s).cleansed (out.map (fun (x : Nat × CByte) => x.1))
  s1.putCluster cl { c with cache := c.cache.map (fun (a, b) => if p a b then (a, { b with dirty := false }) else (a, b)) }

/-- A commons line that a cluster holds is clean there: its data has left for the home. -/
def State.cleanLine (s : State) (cl line : Nat) : State :=
  let c := s.clusterOf cl
  s.putCluster cl { c with cache := c.cache.map (fun (a, b) => if b.commons && lineOf a == line then (a, { b with dirty := false }) else (a, b)) }

/-- A completion, or an answer, for a dead team is dropped and counted at its cluster (R294, R393). -/
def State.dropCompletion (s : State) (cl : Nat) : State :=
  let c := s.clusterOf cl
  s.putCluster cl { c with dropped := c.dropped + 1 }

/-- A reply moves the predictor of a register (R263). -/
def Predictor.reply (p : Predictor) (contended : Bool) : Predictor :=
  { p with cont := if contended then min 15 (p.cont + 3) else p.cont - 1 }

/-- A reply from a home to an access through a C register moves the register's predictor (R263). -/
def State.predict (s : State) (t : Txn) (contended : Bool) : State :=
  let tm := s.teamOf t.team
  if t.kind == .c && t.src.isNone && t.copy.isNone && tm.st != .absent then
    s.putTeam t.team { tm with predictor := tput tm.predictor t.region ((tget {} tm.predictor t.region).reply contended) }
  else s

/-- The catalogue entry of a line or page. -/
def State.cat (s : State) (line : Nat) : CatLine := tget {} s.catalogue line
def State.putCat (s : State) (line : Nat) (c : CatLine) : State := { s with catalogue := tput s.catalogue line c }

/-- The cluster owns the line (R265). -/
def State.owns (s : State) (cl line : Nat) : Bool := (s.cat line).st == .ow && (s.cat line).owner == cl

/-- Some byte of a commons line is newer than its home. -/
def State.dirtyLine (s : State) (cl line : Nat) : Bool :=
  (s.clusterOf cl).cache.any (fun (a, b) => b.commons && b.dirty && lineOf a == line)

/-- R193: drop every clean line of a range; a dirty commons line is left to the commons protocol. -/
def State.selfInvalidate (s : State) (cl : Nat) (spans : List (Nat × Nat)) : State :=
  s.dropBytes cl (fun a b => !b.dirty && inSpans spans a && !(b.commons && s.dirtyLine cl (lineOf a)))

end Sys2Proof.Machine
end

