-- ==== Sys2Proof/Machine/Network.lean ====
section
/-! DEFINITION. The mesh and the fabric: channels and routers (R237 to R242), switches, edges and credits (R243 to R245), and the
links with their replay, retraining and retirement (R247, R248, R416). Requests and responses of class A and V and chunks of those classes travel
on the deflection plane, class O and every protocol message on the buffered lane. A packet moves as one body, whose flits cross each link
one by one (DESIGN CHOICE, log 8). Links are numbered 2 × edge + direction (R415), 1084 + 2 × k + direction for an edge die's link k, and 1200 + 2 × plane +
direction for a fabric port; direction 0 leads to the higher die, to the edge die or out of the device. -/

namespace Sys2Proof.Machine

/-! ### Dies, edges and channels (R6, R7, R237) -/

def dieX (d : Nat) : Nat := d % 18
def dieY (d : Nat) : Nat := d / 18

/-- The grid dies beside a die (R6). -/
def dieNeighbours (d : Nat) : List Nat :=
  (if 0 < dieX d then [d - 1] else []) ++ (if dieX d < 17 then [d + 1] else []) ++
  (if 0 < dieY d then [d - 18] else []) ++ (if dieY d < 15 then [d + 18] else [])

/-- Edge numbers (R415). -/
def edgeNumber (a b : Nat) : Nat :=
  if dieY a = dieY b then 17 * dieY a + min (dieX a) (dieX b) else 272 + 18 * min (dieY a) (dieY b) + dieX a

/-- The M-dies that an edge die links to (R7). -/
def edgeDieLinks (e : Nat) : List Nat :=
  if e = 288 then [18 * 5, 18 * 7, 18 * 9, 18 * 11]
  else if e = 289 then [18 * 4 + 17, 18 * 6 + 17, 18 * 8 + 17, 18 * 10 + 17]
  else if e < 294 then [4 * (e - 290) + 1, 4 * (e - 290) + 3]
  else [18 * 15 + 4 * (e - 294), 18 * 15 + 4 * (e - 294) + 2]

/-- Number of an edge die's link to an M-die. -/
def edgeLink (e m : Nat) : Nat :=
  (if e < 290 then 4 * (e - 288) else 8 + 2 * (e - 290)) + (edgeDieLinks e).idxOf m

/-- The link from one die to another. -/
def linkBetween (a b : Nat) : Nat :=
  if 288 ≤ b then 1084 + 2 * edgeLink b a
  else if 288 ≤ a then 1084 + 2 * edgeLink a b + 1
  else 2 * edgeNumber a b + (if a < b then 0 else 1)

def State.linkOf (s : State) (lk : Nat) : Link := tget {} s.net.links lk
def State.putLink (s : State) (lk : Nat) (l : Link) : State := { s with net := { s.net with links := tput s.net.links lk l } }

/-- The link is in use: neither it nor its edge is retired. -/
def State.linkLive (s : State) (lk : Nat) : Bool :=
  s.started 2 && !(s.linkOf lk).retired && !(decide (lk < 1084) && s.topo.retired.contains (lk / 2))

/-- The transit channels of an M-die router: the C-die passed through, and the M-die reached (R237). -/
def channelsOf (m : Nat) : List (Nat × Nat) :=
  (dieNeighbours m).flatMap (fun c => ((dieNeighbours c).filter (· != m)).map (fun n => (c, n)))

/-- Both links of a channel are in use. -/
def State.channelLive (s : State) (m : Nat) (c : Nat × Nat) : Bool := s.linkLive (linkBetween m c.1) && s.linkLive (linkBetween c.1 c.2)

def State.liveChannels (s : State) (m : Nat) : List (Nat × Nat) := (channelsOf m).filter (s.channelLive m)

/-- The M-dies at which a packet for a die leaves the routers, or from a die enters them. -/
def State.landings (s : State) (d : Nat) : List Nat :=
  if 288 ≤ d then (edgeDieLinks d).filter (fun m => s.linkLive (linkBetween m d) && s.linkLive (linkBetween d m))
  else if isMdie d then [d]
  else (dieNeighbours d).filter (fun m => s.linkLive (linkBetween m d) && s.linkLive (linkBetween d m))

/-- Die hops between two grid dies. -/
def dieHops (a b : Nat) : Nat := (dieX a - dieX b) + (dieX b - dieX a) + (dieY a - dieY b) + (dieY b - dieY a)

/-- Die hops from an M-die to where a packet for a die leaves the routers. -/
def State.hopsTo (s : State) (m d : Nat) : Nat := (s.landings d).foldl (fun n x => min n (dieHops m x)) 64

/-- The M-die at which a packet of the deflection plane enters the routers, toward a destination. -/
def State.entryFrom (s : State) (src d : Nat) : Nat :=
  (pickBest (fun a b : Nat => decide (s.hopsTo a d < s.hopsTo b d)) (s.landings src)).getD src

/-! ### Routes of the buffered lane (R239, R416) -/

/-- The die one, or two, steps along an axis toward another coordinate. -/
def stepTo (a b n : Nat) : Nat := if a < b then a + n else a - n

/-- The channel of R239 from an M-die toward a grid die that it does not border: in x by two, then one diagonal, then in y by two. -/
def laneChannel (m d : Nat) : Nat × Nat :=
  let x := dieX m
  let y := dieY m
  let dx := (x - dieX d) + (dieX d - x)
  let x1 := stepTo x (dieX d) 1
  if 2 ≤ dx then (18 * y + x1, 18 * y + stepTo x (dieX d) 2)
  else if dx = 1 then (18 * y + x1, 18 * stepTo y (dieY d) 1 + x1)
  else (18 * stepTo y (dieY d) 1 + x, 18 * stepTo y (dieY d) 2 + x)

/-- The M-die by which a C-die injects toward a die (R239). -/
def laneEntry (c d : Nat) : Nat :=
  if dieX c = dieX d then 18 * stepTo (dieY c) (dieY d) 1 + dieX c else 18 * dieY c + stepTo (dieX c) (dieX d) 1

/-- The control complex has loaded other routes than those of R239. -/
def State.rerouted (s : State) : Bool := !s.topo.retired.isEmpty

/-- Routers with their distance over live channels from those of a front. -/
def State.levels (s : State) : Nat → List (Nat × Nat) → List Nat → Nat → List (Nat × Nat)
  | 0, seen, _, _ => seen
  | fuel + 1, seen, front, n =>
    let next := ((front.flatMap (fun m => (s.liveChannels m).map (·.2))).eraseDups).filter (fun m => !seen.any (fun x => x.1 == m))
    if next.isEmpty then seen else s.levels fuel (seen ++ next.map (fun m => (m, n))) next (n + 1)

/-- The up-and-down order (R416): routers with their distance from the lowest one that live channels join them to. -/
def State.order (s : State) : List (Nat × Nat) :=
  ((List.range 288).filter isMdie).foldl (fun seen m => if seen.any (fun x => x.1 == m) then seen else s.levels 288 (seen ++ [(m, 0)]) [m] 1) []

/-- A move from one router to another goes down in the order. -/
def movesDown (order : List (Nat × Nat)) (m n : Nat) : Bool :=
  let a : Nat := ((order.find? (fun x => x.1 == m)).map (·.2)).getD 288
  let b : Nat := ((order.find? (fun x => x.1 == n)).map (·.2)).getD 288
  decide (a < b) || (a == b && decide (m < n))

/-- A legal move: none goes up after one has gone down. -/
def legalMove (order : List (Nat × Nat)) (down : Bool) (m n : Nat) : Bool := !down || movesDown order m n

/-- Routers, with whether a packet there has gone down, by their distance from a set of such. -/
def State.layers (s : State) (order : List (Nat × Nat)) : Nat → List (Nat × Bool) → List (Nat × Bool) → List (List (Nat × Bool))
  | 0, _, front => [front]
  | fuel + 1, seen, front =>
    let next := (order.flatMap (fun x => [(x.1, false), (x.1, true)])).filter (fun q =>
      !seen.contains q && (s.liveChannels q.1).any (fun c => legalMove order q.2 q.1 c.2 &&
        front.contains (c.2, q.2 || movesDown order q.1 c.2)))
    if next.isEmpty then [front] else front :: s.layers order fuel (seen ++ next) next

/-- Those layers for a destination die. -/
def State.layersTo (s : State) (d : Nat) : List (List (Nat × Bool)) :=
  let ends := (s.landings d).flatMap (fun m => [(m, false), (m, true)])
  s.layers s.order 288 ends ends

/-- The next channel of a packet of the buffered lane, and whether it has gone down after it: the fixed route of R239, or the route
loaded after a retirement (R416). -/
def State.laneHop (s : State) (m d : Nat) (down : Bool) : Option ((Nat × Nat) × Bool) :=
  if !s.rerouted then some (laneChannel m d, down)
  else
    let ls := s.layersTo d
    match ls.findIdx? (fun l => l.contains (m, down)) with
    | some (i + 1) =>
      let order := s.order
      ((s.liveChannels m).find? (fun c => legalMove order down m c.2 &&
        (ls.getD i []).contains (c.2, down || movesDown order m c.2))).map (fun c => (c, down || movesDown order m c.2))
    | _ => none

/-- The M-die by which a die's packet for a grid die, or for an edge die's landing, enters the buffered lane. -/
def State.laneStart (s : State) (src d : Nat) : Nat :=
  if isMdie src then src
  else if 288 ≤ src then s.entryFrom src d
  else if !s.rerouted then laneEntry src d
  else
    let ls := s.layersTo d
    let far := fun (m : Nat) => (ls.findIdx? (fun l => l.contains (m, false))).getD 288
    (pickBest (fun a b : Nat => decide (far a < far b)) (s.landings src)).getD src

/-! ### Packets -/

/-- This device's number (R243). -/
def State.ownNum (s : State) : Nat := s.topo.devNum.getD 0

def State.packet (s : State) (p : Nat) : Packet := tget {} s.net.packets p
def State.putPacket (s : State) (p : Nat) (k : Packet) : State := { s with net := { s.net with packets := tput s.net.packets p k } }

/-- Owe an event unless it is owed already. -/
def State.oweOnce (s : State) (e : Event) : State := if s.agenda.contains e then s else s.owe e

/-! ### Credits of class O on the fabric (R244) -/

/-- Credits of one device toward another on a plane (R244). -/
def creditKey (src dst plane : Nat) : Nat := (512 * src + dst) * 64 + plane

/-- The first packet held for each pair on a plane tries again. -/
def State.wakeHeld (s : State) (plane : Nat) : State :=
  (s.net.held.filter (fun (k, _) => k % 64 == plane)).foldl (fun s' (_, ps) =>
    match ps.head? with | some p => s'.oweOnce (.fabricPacket p) | none => s') s

/-- The receiving edge has passed the oldest packet of a pair onto its panel: its credit is back, and the next one held goes. -/
def State.returnCredit (s : State) (src dst plane : Nat) : State :=
  let key := creditKey src dst plane
  { s with net := { s.net with used := mset [] s.net.used key ((tget [] s.net.used key).drop 1) } }.wakeHeld plane

/-- A packet that has come over the fabric goes onto the panel: the credit that it owes returns (R244). -/
def State.returnOwed (s : State) (k : Packet) : State :=
  match k.owes with
  | some (a, b, pl) => s.returnCredit a b pl
  | none => s

/-- A packet goes; the credit of the channel input that it held returns to the router before (R239). -/
def State.dropPacket (s : State) (p : Nat) : State :=
  let s1 := { s with net := { s.net with packets := tdel s.net.packets p } }
  match (s.packet p).input with
  | some (_, m) => s1.oweOnce (.packetArrive m)
  | none => s1

/-- Flits of a packet on the panel: a header and 32 bytes each (R238); on the fabric: a header that carries 32 bytes and 64 bytes each
(R243). -/
def panelFlits (bytes : Nat) : Nat := 1 + (bytes + 31) / 32
def fabricFlits (bytes : Nat) : Nat := 1 + (bytes - 32 + 63) / 64

/-- AGE units since a packet's instruction was issued (R240). -/
def State.ageUnits (s : State) (k : Packet) : Nat := (bits s.cycle 25 6 + 2 ^ 20 - k.age) % 2 ^ 20

/-- Rank of packets (R240). -/
def State.outranks (s : State) (a b : Packet) : Bool :=
  if a.old != b.old then a.old
  else if s.ageUnits a ≠ s.ageUnits b then decide (s.ageUnits b < s.ageUnits a)
  else if a.srcDev ≠ b.srcDev then decide (a.srcDev < b.srcDev)
  else if a.srcDie ≠ b.srcDie then decide (a.srcDie < b.srcDie)
  else if a.srcCluster ≠ b.srcCluster then decide (a.srcCluster < b.srcCluster)
  else decide (a.seq < b.seq)

/-- Packets in rank order. -/
def State.ranked (s : State) (ks : List (Nat × Packet)) : List (Nat × Packet) :=
  ks.foldl (fun xs k =>
    let before := xs.takeWhile (fun y => s.outranks y.2 k.2)
    before ++ k :: xs.drop before.length) []

/-- Where a packet is going now: its intermediate router first (R242). -/
def Packet.aim (k : Packet) : Nat := k.via.getD k.dst

/-- Send a packet's flits over a link: they stay in the replay buffer until they are acknowledged (R247). -/
def State.sendFlits (s : State) (lk p : Nat) : State :=
  let l := s.linkOf lk
  let k := s.packet p
  let n := if 1200 ≤ lk then fabricFlits k.bytes else panelFlits k.bytes
  let fd := k.issuer.getD (0, 0)
  let fs := (List.range n).map (fun i => ({ seq := l.next + i, packet := p, last := i + 1 == n, ctx := fd.1, fdom := fd.2 } : Flit))
  let s1 := s.putLink lk { l with buffer := l.buffer ++ fs, next := l.next + n }
  { s1 with agenda := s1.agenda ++ fs.map (fun f => .flitReceive lk f.seq true) }

/-- Send a packet along a list of links to a die. -/
def State.sendAlong (s : State) (p : Nat) (path : List Nat) (next : Nat) : State :=
  let s1 := s.putPacket p { s.packet p with path, next, waiting := false }
  match path with
  | [] => s1
  | lk :: _ => s1.sendFlits lk p

/-- The local channel by which a packet that waits at its source enters the router of an M-die (R237). -/
def Packet.localLinks (k : Packet) (m : Nat) : List Nat := if k.waiting && k.srcDie != m then [linkBetween k.srcDie m] else []

/-- A packet stands at a router, or waits there to be injected. -/
def Packet.standsAt (k : Packet) (m : Nat) : Bool := k.at_ == m && k.path.isEmpty && !k.fabric

/-! ### The fabric (R243 to R245) -/

/-- A plane is in use: neither it nor a link of its port is retired. -/
def State.planeLive (s : State) (p : Nat) : Bool := s.topo.planes.getLsbD p && s.linkLive (1200 + 2 * p) && s.linkLive (1200 + 2 * p + 1)

def State.livePlanes (s : State) : List Nat := (List.range 64).filter s.planeLive

/-- The outbound slots of a plane's port that packets take: those that go out by it and have not reached its switch. -/
def State.planeLoad (s : State) (pl : Nat) : Nat :=
  (s.net.packets.filter (fun (_, k) => k.plane == pl && k.at_ != 1000 && (k.dstDev != s.ownNum || (k.viaDev.getD s.ownNum) != s.ownNum))).length

/-- The plane with the most free outbound slots among some (R245). -/
def State.choosePlane (s : State) (pls : List Nat) : Option Nat :=
  pickBest (fun a b : Nat => decide (s.planeLoad a < s.planeLoad b)) pls

/-- Plane of class O between two devices: the next live plane from (s + t) mod 64 (R244, R416). -/
def State.planeO (s : State) (a b : Nat) : Option Nat :=
  ((List.range 64).map (fun i => (a + b + i) % 64)).find? s.planeLive

/-- The devices of the domain (R243), whose numbers the spec gives no rule for: 0 to their count less one, and up to this device's own.
DESIGN CHOICE, log 8. -/
def State.domainDevices (s : State) : List Nat := List.range (max s.topo.devices (s.ownNum + 1))

/-- A free choice from a list. -/
def State.chooseFrom (s : State) (xs : List Nat) : Option Nat :=
  (xs[Config.freePick s.free xs.length % (xs.length + 1)]?).orElse (fun _ => xs.head?)

/-- Another device answers (R246). -/
def State.deviceAnswers (s : State) (d : Nat) : Bool := d == s.ownNum || ((tfind s.peers d).map (fun p => !p.silent)).getD false

/-! ### Injection and arrival -/

/-- A chunk whose packet is OLD is served as such (R240, R272). -/
def State.noteOld (s : State) (k : Packet) (e : Event) : State :=
  match e with
  | .chunk n =>
    if k.old then { s with chunks := s.chunks.map (fun (x : Nat × Chunk) => (x.1, if x.1 = n then { x.2 with old := true } else x.2)) }
    else s
  | _ => s

/-- A reply that says whether its lines were contended moves the predictor, once (R263). -/
def State.replied (s : State) (response : Bool) (t : Txn) (conts : List Bool) : State :=
  if response && !conts.isEmpty then s.predict t (conts.any id) else s

/-- What a packet carries has arrived: the event it brings about happens, or pieces of its access reach their home, or their replies the
requester. A device that does not answer receives nothing. -/
def State.receive (s : State) (k : Packet) : State :=
  if !s.deviceAnswers k.dstDev then s
  else match k.event with
    | some e => (s.noteOld k e).owe e
    | none =>
      match tfind s.txns k.txn with
      | none => s
      | some t0 =>
        let t := { t0 with old := t0.old || k.old }
        let here := fun (p : LaneAcc) => if k.response then { p with coming := false } else { p with going := false }
        let t1 := { t with lanes := t.lanes.zipIdx.map (fun (p, i) => if k.pieces.contains i then here p else p) }
        let conts := (t.lanes.zipIdx.filter (fun (p, i) => k.pieces.contains i && p.cont.isSome)).map (fun (p, _) => p.cont == some true)
        ({ s with txns := tput s.txns k.txn t1 }.replied k.response t conts).oweOnce
          (if !k.response then .homeRequest k.txn else if t.op == AccOp.store then .storeAck k.txn else .loadReply k.txn)

/-- A packet leaves the network where it is addressed. -/
def State.deliverPacket (s : State) (p : Nat) : State := (s.dropPacket p).receive (s.packet p)

/-- A packet leaves its source. Class V takes an intermediate M-die, or device, by free choice (R242, R245); a packet for another device
goes first to the edge die of its plane: the one it chooses, or class O's (R242, R244). Without a live plane it waits for ever (R416). -/
def State.inject (s : State) (k : Packet) : State :=
  let own := s.ownNum
  let p := s.nextId
  let s1 := { s with nextId := p + 1, free := s.free + 1 }
  let k1 := { k with seq := p, since := s.cycle, waiting := true }
  let plane := if k.cls = 0 then s.planeO k.srcDev k.dstDev else s.choosePlane s.livePlanes
  let away := k.srcDev != own || k.dstDev != own
  let dst := if k.dstDev ≠ own then (plane.map (fun pl => 290 + pl / 8)).getD k.dst else k.dst
  if k.srcDev = k.dstDev ∧ k.srcDie = k.dst then (s1.receive k).returnOwed k
  else if away ∧ plane.isNone then s1.putPacket p { k1 with fabric := true, plane := 64 }
  else
    let k2 := { k1 with dst, plane := plane.getD 0, viaDev := if away ∧ k.cls = 2 then s.chooseFrom s.domainDevices else none }
    if k.srcDev ≠ own then (s1.putPacket p { k2 with fabric := true, at_ := 1000, dst := k.dst, waiting := false }).owe (.fabricPacket p)
    else if k.cls = 0 then
      let via := if 288 ≤ dst then some (s.entryFrom dst k.srcDie) else none
      let m := s.laneStart k.srcDie (via.getD dst)
      (s1.putPacket p { k2 with at_ := m, via }).oweOnce (.packetArrive m)
    else
      let via := if k.cls = 2 ∧ !away then s.chooseFrom ((List.range 288).filter isMdie) else none
      let m := s.entryFrom k.srcDie (via.getD dst)
      (s1.putPacket p { k2 with at_ := m, via }).oweOnce (.packetArrive m)

/-- Send an event on a virtual channel of the buffered lane, from one device and die to another (R239, R250). -/
def State.sendLane (s : State) (vc age bytes : Nat) (src dst : Nat × Nat) (issuer : Option (Nat × Nat)) (e : Event) : State :=
  s.inject { cls := 0, vc, age, bytes, srcDev := src.1, srcDie := src.2, dstDev := dst.1, dst := dst.2, event := some e, issuer }

/-! ### The deflection plane at a router (R240 to R242) -/

/-- A chunk has come to its home and is still to be applied there. -/
def State.chunkStands (s : State) (n : Nat) : Bool :=
  (tfind s.chunks n).isSome && (s.agenda.contains (.chunk n) || s.catalogue.any (fun (_, c) => c.queue.contains n))

/-- The requests in the queue of a home, an M-die or a host edge die, that are still to be served (R241). -/
def State.queued (s : State) (die : Nat) : List Nat :=
  (tget [] s.net.queues die).filter (fun x => s.chunkStands x || ((tfind s.txns x).map (fun t => t.lanes.any (fun p =>
    p.result.isNone && (!p.going || decide (288 ≤ die)) && (locDev p.loc).isNone && s.home p.loc == die))).getD false)

/-- The request that a packet of class A or V brings to a home: an access's, or a chunk (R241). -/
def Packet.asks (k : Packet) : Option Nat :=
  if k.response then none
  else match k.event with
    | some (.chunk n) => some n
    | some _ => none
    | none => some k.txn

/-- The flit slots of a router in one cycle: transit channels, and links whose local channel is free (R237, R238). -/
abbrev Slots := List (Nat × Nat) × List Nat

/-- The dies beside a router that its local channels lead to: C-dies and edge dies (R7, R237). -/
def localDies (m : Nat) : List Nat :=
  dieNeighbours m ++ ((List.range 10).map (288 + ·)).filter (fun e => (edgeDieLinks e).contains m)

/-- All the slots of a router in one cycle. -/
def State.slots (s : State) (m : Nat) : Slots :=
  (s.liveChannels m, ((localDies m).flatMap (fun d => [linkBetween m d, linkBetween d m])).filter s.linkLive)

/-- The slots that are left when a packet takes some local channels, if they are free. -/
def Slots.take (f : Slots) (lks : List Nat) : Option Slots :=
  if lks.all f.2.contains then some (f.1, f.2.filter (fun l => !lks.contains l)) else none

/-- Of the requests that have found a home's queue full, the packet ranks highest (R241). -/
def State.topWaiting (s : State) (k : Packet) : Bool :=
  s.net.packets.all (fun (_, j) => !(j.refused && j.dst == k.dst && !j.response && s.outranks j k))

/-- A packet finds room where it is ejected: a response always does; a full home queue keeps one place for the highest-ranked request
that waits for it (R241). -/
def State.takesIn (s : State) (k : Packet) : Bool :=
  k.asks.isNone || decide ((s.queued k.dst).length < 63) || (decide ((s.queued k.dst).length < 64) && s.topWaiting k)

/-- A request takes its place in its home's queue. -/
def State.queueAt (s : State) (k : Packet) : State :=
  match k.asks with
  | some n => { s with net := { s.net with queues := tput s.net.queues k.dst (s.queued k.dst ++ [n]) } }
  | none => s

/-- Eject a packet that stands where it leaves the routers: the state, and the slots left if it left. A request for which its home has no
room is marked, and is deflected (R241). -/
def State.eject (s : State) (m p : Nat) (free : Slots) : State × Option Slots :=
  let k := s.packet p
  let enter := k.waiting && k.srcDie != m
  let path := k.localLinks m ++ (if k.dst = m then [] else [linkBetween m k.dst])
  match free.take path with
  | none => (s, none)
  | some left =>
    if k.dst = m && enter then (s.sendAlong p path m, some left)
    else if !s.takesIn k then (s.putPacket p { k with refused := true }, none)
    else if k.dst = m then ((s.queueAt k).deliverPacket p, some left)
    else ((s.queueAt k).sendAlong p path k.dst, some left)

/-- Injection at a router is stopped for packets that rank below one of the deflection plane that has waited 64 cycles at a source within
two channels (R241). -/
def State.mayInject (s : State) (m : Nat) (k : Packet) : Bool :=
  !s.net.packets.any (fun (_, j) => j.waiting && j.cls != 0 && decide (j.since + 64 ≤ s.cycle) && s.net.starving.contains j.at_ &&
    decide (dieHops m j.at_ ≤ 4) && s.outranks j k)

/-- Give packets channels in rank order: each the first productive one of its list that is free, else the first free one (R240, R242); of
several the spec says any (DESIGN CHOICE, log 8). A packet in transit leaves in any case: where an event finds more packets than one cycle
brings, the rest share the first channel. A source injects where a slot is free after transit, and by a productive channel only (R241 does not
say which; DESIGN CHOICE, log 8). The slots left follow. -/
def State.routeAll (s : State) (m : Nat) : List (Nat × Packet) → Slots → State × Slots
  | [], free => (s, free)
  | (p, k) :: ks, free =>
    let here := { k with via := if k.via = some m then none else k.via }
    let s1 := s.putPacket p here
    if here.waiting && !s.mayInject m here then s1.routeAll m ks free
    else
      let out := if here.via.isNone && (s.landings here.dst).contains m then s1.eject m p free else (s1, none)
      match out.2 with
      | some left => out.1.routeAll m ks left
      | none =>
        let near := free.1.filter (fun c => decide (s.hopsTo c.2 here.aim < s.hopsTo m here.aim))
        let any := if here.waiting then none else free.1.head?.orElse (fun _ => (s.liveChannels m).head?)
        match near.head?.orElse (fun _ => any), free.take (here.localLinks m) with
        | some c, some left =>
          (out.1.sendAlong p (here.localLinks m ++ [linkBetween m c.1, linkBetween c.1 c.2]) c.2).routeAll m ks (left.1.erase c, left.2)
        | _, _ => out.1.routeAll m ks free

/-! ### The buffered lane at a router (R239) -/

/-- Flits of a virtual channel that a channel input holds; a packet longer than the input counts as its 4 flits. -/
def State.inputUsed (s : State) (input : Nat × Nat) (vc : Nat) : Nat :=
  ((s.net.packets.filter (fun (_, k) => k.cls == 0 && k.vc == vc && k.input == some input)).map (fun (_, k) =>
    min 4 (panelFlits k.bytes))).sum

/-- An earlier packet of the same virtual channel, source and destination still stands there (R239). -/
def State.laneBehind (s : State) (p : Nat) (k : Packet) : Bool :=
  s.net.packets.any (fun (q, j) => decide (q < p) && j.cls == 0 && j.vc == k.vc && j.srcDev == k.srcDev && j.srcDie == k.srcDie &&
    j.dstDev == k.dstDev && j.dst == k.dst && j.standsAt k.at_)

/-- A packet moves on to its next channel input, whose credit it takes; the credit it held returns, and that of the plane it came by. -/
def State.laneMove (s : State) (p : Nat) (input : Option (Nat × Nat)) (down : Bool) (path : List Nat) (next : Nat) : State :=
  let k := s.packet p
  let s1 := ((s.putPacket p { k with input, down, owes := none }).sendAlong p path next).returnOwed k
  match k.input with
  | some (_, m) => s1.oweOnce (.packetArrive m)
  | none => s1

/-- Move the packets of the buffered lane that stand at a router, oldest first, over the channels that are free: a packet needs 4-flit
input credit at the next router, or leaves by the local channel or an edge die's link where its route ends. -/
def State.laneAll (s : State) (m : Nat) : List (Nat × Packet) → Slots → State × Slots
  | [], free => (s, free)
  | (p, k) :: ks, free =>
    let here := k.via.isNone && k.dst == m
    let lands := (k.via == some m || (k.via.isNone && !isMdie k.dst)) && (s.landings k.dst).contains m
    match free.take (k.localLinks m ++ (if !here && lands then [linkBetween m k.dst] else [])) with
    | none => s.laneAll m ks free
    | some left =>
      if s.laneBehind p k then s.laneAll m ks free
      else if here then (if k.waiting then s.laneMove p none k.down (k.localLinks m) m else s.deliverPacket p).laneAll m ks left
      else if lands then (s.laneMove p none k.down (k.localLinks m ++ [linkBetween m k.dst]) k.dst).laneAll m ks left
      else
        match s.laneHop m k.aim k.down with
        | none => s.laneAll m ks free
        | some (c, down) =>
          let input := (linkBetween c.1 c.2, m)
          if free.1.contains c && decide (s.inputUsed input k.vc + min 4 (panelFlits k.bytes) ≤ 4) then
            (s.laneMove p (some input) down (k.localLinks m ++ [linkBetween m c.1, linkBetween c.1 c.2]) c.2).laneAll m ks
              (left.1.erase c, left.2)
          else s.laneAll m ks free

/-- Packets that stand at a router, of the buffered lane or of the deflection plane. -/
def State.standing (s : State) (m : Nat) (lane : Bool) : List (Nat × Packet) :=
  s.net.packets.filter (fun (_, k) => k.standsAt m && (k.cls == 0) == lane)

/-- Some packet still stands at the router and only a channel slot keeps it there. -/
def State.wantsSlot (s : State) (m : Nat) : Bool :=
  !(s.standing m false).isEmpty || (s.standing m true).any (fun (p, k) => !s.laneBehind p k &&
    match s.laneHop m k.aim k.down with
    | some (c, _) => s.channelLive m c && decide (s.inputUsed (linkBetween c.1 c.2, m) k.vc + min 4 (panelFlits k.bytes) ≤ 4)
    | none => false)

/-- PACKET_ARRIVE (R238 to R242): the packets at an M-die's router leave it over the channels of one cycle. In one flit slot of eight the
buffered lane chooses first, otherwise the deflection plane, whose packets are ranked, transit before sources. -/
def execPacketArrive (die : Nat) (s : State) : Host.Outcome State Fault Refusal :=
  let loose := s.standing die false
  let order := s.ranked (loose.filter (fun (_, k) => !k.waiting)) ++ s.ranked (loose.filter (fun (_, k) => k.waiting))
  let live := s.slots die
  .next (if isMdie die then
    let s1 :=
      if s.cycle % 8 = 0 then let r := s.laneAll die (s.standing die true) live; (r.1.routeAll die order r.2).1
      else let r := s.routeAll die order live; (r.1.laneAll die (r.1.standing die true) r.2).1
    let s2 := { s1 with net := { s1.net with starving := s1.net.starving.filter (fun d =>
      s1.net.packets.any (fun (_, k) => k.waiting && k.cls != 0 && k.at_ == d && decide (k.since + 64 ≤ s.cycle))) } }
    if s2.wantsSlot die && !live.1.isEmpty then s2.oweOnce (.packetArrive die) else s2
  else s)

/-- PACKET_OLD (R240): a packet whose age reaches 2^19 is marked. -/
def execPacketOld (p : Nat) (s : State) : Host.Outcome State Fault Refusal :=
  .next (match tfind s.net.packets p with
    | some k => if 2 ^ 19 ≤ s.ageUnits k then s.putPacket p { k with old := true } else s
    | none => s)

/-- INJECT_STARVE (R241): a source at a die has waited 64 cycles to inject. -/
def execInjectStarve (die : Nat) (s : State) : Host.Outcome State Fault Refusal :=
  .next (if s.net.packets.any (fun (_, k) => k.waiting && k.cls != 0 && k.at_ == die && decide (k.since + 64 ≤ s.cycle)) &&
      !s.net.starving.contains die then
    { s with net := { s.net with starving := s.net.starving ++ [die] } }.oweOnce (.packetArrive die)
  else s)

/-! ### Edges and switches (R243 to R245) -/

/-- A class O packet of a device fills its slot at the switch input of a plane (R244). -/
def State.slotTaken (s : State) (plane src p : Nat) : Bool :=
  s.net.packets.any (fun (q, j) => q != p && j.credited && j.plane == plane && j.srcDev == src)

/-- A class O packet takes its end-to-end credit and its switch slot, in the order of its pair, or is held at its edge (R244): the state
and whether it goes. -/
def State.takeCredit (s : State) (p : Nat) (k : Packet) : State × Bool :=
  let key := creditKey k.srcDev k.dstDev k.plane
  let held := tget [] s.net.held key
  let used := tget [] s.net.used key
  let n := fabricFlits k.bytes
  let first := held.head?.getD p == p
  if k.credited then (s, true)
  else if first && decide (used.sum + n ≤ 6) && !s.slotTaken k.plane k.srcDev p then
    ({ s with net := { s.net with
      packets := tput s.net.packets p { k with credited := true }, used := tput s.net.used key (used ++ [n])
      held := mset [] s.net.held key (held.drop 1) } }, true)
  else if held.contains p then (s, false)
  else ({ s with net := { s.net with held := tput s.net.held key (held ++ [p]) } }, false)

/-- CREDIT_RETURN (R244): another device's edge has passed this device's flits onto its panel. -/
def execCreditReturn (dev plane : Nat) (s : State) : Host.Outcome State Fault Refusal := .next (s.returnCredit s.ownNum dev plane)

/-- A packet at an edge die that no live plane of the die takes enters the panel there, toward the edge of another plane (R416). -/
def State.otherEdge (s : State) (p : Nat) (k : Packet) : State :=
  if s.livePlanes.isEmpty then s
  else
    let s1 := s.dropPacket p
    { s1 with net := { s1.net with held := s1.net.held.map (fun (x : Nat × List Nat) => (x.1, x.2.filter (· != p))) } }.inject
      { k with srcDev := s.ownNum, srcDie := k.at_, fabric := false, fresh := false, credited := false, input := none, down := false }

/-- A class O packet at this device's fabric edge: it leaves on its plane under its credit, or goes onto the panel by the buffered lane, and
its credit returns then (R244). -/
def State.edgeLane (s : State) (p : Nat) (k : Packet) : State :=
  if k.viaDev.isNone && k.dstDev == s.ownNum then
    (s.dropPacket p).inject { k with srcDev := s.ownNum, srcDie := k.at_, fabric := false, input := none, down := false
                                     owes := some (k.srcDev, k.dstDev, k.plane) }
  else if !s.planeLive k.plane then s.otherEdge p k
  else
    let r := s.takeCredit p k
    if r.2 then r.1.sendAlong p [1200 + 2 * k.plane] 1000 else r.1

/-- Packets of class A and V that stand at an edge die. -/
def State.edgeStanding (s : State) (die : Nat) : List (Nat × Packet) :=
  s.net.packets.filter (fun (_, k) => k.fabric && k.cls != 0 && k.at_ == die && k.path.isEmpty)

/-- Give the packets at an edge die its ports and panel links in rank order (R245): one addressed to the device takes a free panel link, any
other, or one that the panel cannot take, a free port. The device's own new injections wait for a free slot; every other packet leaves. -/
def State.edgeAll (s : State) (die : Nat) : List (Nat × Packet) → List Nat → List Nat → State
  | [], _, _ => s
  | (p, k0) :: ks, ports, links =>
    let k := { k0 with viaDev := if k0.viaDev = some s.ownNum then none else k0.viaDev }
    let out := fun (pl : Nat) => (s.putPacket p { k with plane := pl, fresh := false }).sendAlong p [1200 + 2 * pl] 1000
    match if k.viaDev.isNone && k.dstDev == s.ownNum then links.head? else none with
    | some m => ((s.putPacket p { k with fabric := false, fresh := false }).sendAlong p [linkBetween die m] m).edgeAll die ks ports (links.erase m)
    | none =>
      match if k.fresh && ports.contains k.plane then some k.plane else s.choosePlane ports with
      | some pl => (out pl).edgeAll die ks (ports.erase pl) links
      | none =>
        if k.fresh && !(s.livePlanes.filter (fun pl => 290 + pl / 8 == die)).isEmpty then (s.oweOnce (.fabricPacket p)).edgeAll die ks ports links
        else
          match s.choosePlane (s.livePlanes.filter (fun pl => 290 + pl / 8 == die)) with
          | some pl => (out pl).edgeAll die ks ports links
          | none => (s.otherEdge p k).edgeAll die ks ports links

/-- An edge die's ports and panel links are one router under R240 (R245): those whose replay buffers are empty have a free slot. -/
def State.edgeRouter (s : State) (die : Nat) : State :=
  s.edgeAll die (s.ranked (s.edgeStanding die))
    (s.livePlanes.filter (fun pl => 290 + pl / 8 == die && (s.linkOf (1200 + 2 * pl)).buffer.isEmpty))
    ((s.landings die).filter (fun m => (s.linkOf (linkBetween die m)).buffer.isEmpty))

/-- Outputs of a plane's switch that no other packet there asks for. -/
def State.freeOutputs (s : State) (plane p : Nat) : List Nat :=
  s.domainDevices.filter (fun d => !s.net.packets.any (fun (q, j) => q != p && j.fabric && j.at_ == 1000 && j.plane == plane &&
    j.viaDev.getD j.dstDev == d))

/-- A packet leaves a switch by the output of a device: over the link into this one; at another device it has arrived, or is re-injected
there on a plane of the same edge die (R245). -/
def State.leaveSwitch (s : State) (p : Nat) (k : Packet) (dev : Nat) : State :=
  if dev = s.ownNum then (s.putPacket p { k with credited := false }).sendAlong p [1200 + 2 * k.plane + 1] (290 + k.plane / 8)
  else if k.viaDev.isNone && dev == k.dstDev then
    let s1 := s.deliverPacket p
    if k.cls = 0 then s1.owe (.creditReturn dev k.plane) else s1
  else
    match (s.choosePlane (s.livePlanes.filter (fun pl => pl / 8 == k.plane / 8))).orElse (fun _ => s.choosePlane s.livePlanes) with
    | some pl => (s.putPacket p { k with plane := pl, viaDev := if k.viaDev = some dev then none else k.viaDev }).owe (.fabricPacket p)
    | none => s

/-- A packet at the switch of its plane (R244, R245): class O outranks A and V; a class O packet that loses its output waits in its slot, a
packet of class A or V is deflected to a free output, or, where the events of one cycle leave none free, to any. -/
def State.atSwitch (s : State) (p : Nat) (k : Packet) : State :=
  let out := k.viaDev.getD k.dstDev
  let lost := s.net.packets.any (fun (q, j) => q != p && j.fabric && j.at_ == 1000 && j.path.isEmpty && j.plane == k.plane &&
    j.viaDev.getD j.dstDev == out && (j.cls != 0 || j.credited) && (if (j.cls == 0) == (k.cls == 0) then s.outranks j k else j.cls == 0))
  let s1 := { s with free := s.free + 1 }
  if !lost then
    let s2 := s1.leaveSwitch p k out
    if k.cls = 0 then s2.wakeHeld k.plane else s2
  else if k.cls = 0 then s.owe (.fabricPacket p)
  else s1.leaveSwitch p k (((s.chooseFrom (s.freeOutputs k.plane p)).orElse (fun _ => s.chooseFrom s.domainDevices)).getD s.ownNum)

/-- FABRIC_PACKET (R244, R245): a packet at a fabric edge or a switch moves. One that comes from another device first takes that device's
credit. A retired plane takes its packets of class A and V to another of the die. -/
def execFabricPacket (p : Nat) (s : State) : Host.Outcome State Fault Refusal :=
  .next (match tfind s.net.packets p with
    | none => s
    | some k =>
      if !k.fabric || !k.path.isEmpty then s
      else if k.at_ = 1000 then
        if !s.planeLive k.plane then
          (match (s.choosePlane (s.livePlanes.filter (fun pl => pl / 8 == k.plane / 8))).orElse (fun _ => s.choosePlane s.livePlanes) with
          | some pl => (s.putPacket p { k with plane := pl }).owe (.fabricPacket p)
          | none => s)
        else if k.cls = 0 then
          let r := s.takeCredit p k
          if r.2 then r.1.atSwitch p (r.1.packet p) else r.1
        else s.atSwitch p k
      else if k.cls = 0 then s.edgeLane p k
      else s.edgeRouter k.at_)

/-! ### Links (R247, R248, R416) -/

/-- A packet whose flits were not received stands where it was: at a router, at an edge or switch, or at its source. -/
def State.standAgain (s : State) (p : Nat) : State :=
  match tfind s.net.packets p with
  | none => s
  | some k =>
    s.putPacket p { k with path := [], input := none, fabric := k.fabric || decide (290 ≤ k.at_)
                           waiting := k.srcDie != k.at_ && k.path.head? == some (linkBetween k.srcDie k.at_) }

/-- A standing packet goes another way. -/
def State.reroute (s : State) (p : Nat) : State :=
  match tfind s.net.packets p with
  | none => s
  | some k => if k.fabric then s.oweOnce (.fabricPacket p) else s.oweOnce (.packetArrive k.at_)

/-- A packet has crossed a link: it goes on to its next link, or stands at the router, edge or switch behind, or has arrived. Where its next
link is retired it goes another way. -/
def State.crossed (s : State) (p : Nat) : State :=
  match tfind s.net.packets p with
  | none => s
  | some k =>
    match k.path.drop 1 with
    | lk :: rest =>
      if s.linkLive lk then (s.putPacket p { k with path := lk :: rest }).sendFlits lk p
      else ((s.putPacket p { k with path := lk :: rest }).standAgain p).reroute p
    | [] =>
      let k1 := { k with path := [], at_ := k.next }
      if 290 ≤ k.next then (s.putPacket p { k1 with fabric := true, fresh := !k.fabric }).owe (.fabricPacket p)
      else if 288 ≤ k.next || !isMdie k.next then s.deliverPacket p
      else (s.putPacket p k1).oweOnce (.packetArrive k.next)

/-- FLIT_RECEIVE (R247): the flit that the receiver expects is acknowledged when its CRC passes; on a failure it and every later
flit are discarded and replay is asked for. Flits cross in order. -/
def execFlitReceive (lk q : Nat) (crcOk : Bool) (s : State) : Host.Outcome State Fault Refusal :=
  let l := s.linkOf lk
  .next (match l.buffer.find? (fun f => f.seq == q) with
    | none => s
    | some f =>
      if l.retired then s
      else if q ≠ l.expect then s.owe (.flitReceive lk q crcOk)
      else if !crcOk then (s.putLink lk { l with replays := l.replays + 1 }).owe (.replayRequest lk q)
      else
        let s1 := s.putLink lk { l with buffer := l.buffer.erase f, expect := q + 1, replays := 0 }
        if f.last then s1.crossed f.packet else s1)

/-- Resend the flits of a replay buffer from a sequence number on, in their order. -/
def State.resendFrom (s : State) (lk q : Nat) : State :=
  let s1 := { s with agenda := s.agenda.filter (fun e => match e with | .flitReceive k _ _ => k != lk | _ => true) }
  ((s.linkOf lk).buffer.filter (fun f => decide (q ≤ f.seq))).foldl (fun s' f => s'.owe (.flitReceive lk f.seq true)) s1

/-- REPLAY_REQUEST (R247, R248): the sender resends from the failed flit; the 16th replay in a row retrains the link. -/
def execReplayRequest (lk q : Nat) (s : State) : Host.Outcome State Fault Refusal :=
  .next (if 16 ≤ (s.linkOf lk).replays then s.owe (.linkRetrain lk) else s.resendFrom lk q)

/-- LINK_RETRAIN (R248): the link resumes from the last flit acknowledged. -/
def execLinkRetrain (lk : Nat) (s : State) : Host.Outcome State Fault Refusal :=
  let l := s.linkOf lk
  .next (if l.retired then s
    else (s.putLink lk { l with replays := 0, retrained := l.retrained + 1 }).resendFrom lk l.expect)

/-- A packet's delivery is unknown: a chunk is sent again (R305); anything else is reported and its fault domain is killed (R248). -/
def State.settleUnknown (s : State) (lk p : Nat) : State :=
  let k := s.packet p
  match k.event with
  | some (.chunk n) => (s.dropPacket p).owe (.chunkResend n)
  | _ =>
    let s1 := (s.dropPacket p).interrupt 12 lk (k.issuer.getD (0, 0)).1 (k.issuer.getD (0, 0)).2
    match k.issuer with
    | some (c, d) => s1.beginKill { ctx := c, whole := false, fdom := d, cause := 3 }
    | none => s1

/-- Every context is halted for the retirement of a link (R416, step 1); one that is halted already stays so after it. -/
def State.haltAll (s : State) : State :=
  let cs := ((s.ctxs.map (fun (x : Nat × Ctx) => x.1) ++ s.teams.map (fun (x : Nat × Team) => x.2.ctx)).eraseDups).filter (fun c =>
    !(s.ctxOf c).halted)
  let s1 : State := cs.foldl (fun s' c => s'.putCtx c { s'.ctxOf c with halted := true }) s
  { s1 with net := { s1.net with halting := s1.net.halting ++ cs } }

/-- The contexts that the retirement halted resume (R416, step 5). -/
def State.resumeAll (s : State) : State :=
  let s1 := s.net.halting.foldl State.resumeContext s
  { s1 with net := { s1.net with halting := [] } }

/-- LINK_SETTLE (R248, R416): every context is halted, and the ends settle the replay buffer of a link that cannot be retrained. Flits
not received stay where they were sent from, to go another way; if the sideband fails too, they are reported and their fault domains are
killed. The link is then retired. -/
def execLinkSettle (lk : Nat) (sideband : Bool) (s : State) : Host.Outcome State Fault Refusal :=
  let s0 := s.haltAll
  let l := s.linkOf lk
  let ps := (l.buffer.map (·.packet)).eraseDups
  let s1 := s0.putLink lk { l with buffer := [], retired := true }
  .next ((ps.foldl (fun s' p => if sideband then s'.standAgain p else s'.settleUnknown lk p) s1).owe (.linkRetire lk))

/-- The topology without a link (R415, R416): its edge, or its plane, is marked, and the generation changes before and after. -/
def Topology.without (t : Topology) (lk : Nat) : Topology :=
  let t1 := { t with generation := t.generation + 2 }
  if lk < 1084 then { t1 with retired := if t.retired.contains (lk / 2) then t.retired else t.retired ++ [lk / 2] }
  else if 1200 ≤ lk then { t1 with planes := t.planes &&& ~~~BitVec.ofNat 64 (2 ^ ((lk - 1200) / 2)) }
  else t1

/-- A packet that stands finds its way by the new tables (R416): one that waits at its source enters by a router that it reaches. -/
def State.replan (s : State) (p : Nat) : State :=
  let k := s.packet p
  if !k.path.isEmpty then s
  else if k.fabric then s.oweOnce (.fabricPacket p)
  else
    let at_ := if !k.waiting then k.at_
      else if k.cls = 0 then s.laneStart k.srcDie k.aim else s.entryFrom k.srcDie k.aim
    (s.putPacket p { k with at_, down := false }).oweOnce (.packetArrive at_)

/-- LINK_RETIRE (R416): with every context halted the new routes are loaded and the topology block is updated, its generation
changing before and after; packets go their new ways, and every context resumes. A fabric link takes its plane with it. DESIGN CHOICE, log 39. -/
def execLinkRetire (lk : Nat) (s : State) : Host.Outcome State Fault Refusal :=
  let s1 := s.putLink lk { s.linkOf lk with retired := true }
  let s2 := { s1 with topo := s.topo.without lk, stalled := [] }
  .next ((s2.net.packets.map (·.1)).foldl State.replan s2).resumeAll

end Sys2Proof.Machine
end

