-- ==== Sys2Proof/Machine/Lines.lean ====
section
/-! DEFINITION. Commons lines at their homes (R265 to R277): the catalogue, its messages, copies, owners, queues, pages between devices,
participants and the contention predictor. For a line of another device that this device holds, its edge proxy acts as the home
(R270). -/

namespace Sys2Proof.Machine

/-! ### Messages -/

/-- Device and die at which a home's messages enter and leave the network; the edge proxy stands at FE0 (DESIGN CHOICE, log 18). -/
def State.homeEnd (s : State) (home : Nat) : Nat × Nat := (s.ownNum, if home < 1000 then home else 290)

/-- The home of a line, or of the page that a page's entry is for. -/
def pageKey (loc : Nat) : Nat := 2 ^ 70 + loc / 4096
def entryLoc (key : Nat) : Nat := if 2 ^ 70 ≤ key then 4096 * (key - 2 ^ 70) else 128 * key
def State.entryHome (s : State) (key : Nat) : Nat := s.homeOf (entryLoc key)

/-- The fault domain of a team: context and domain. -/
def State.domainOf (s : State) (team : Nat) : Nat × Nat :=
  let t := s.teamOf team
  (t.ctx, (s.launchOf t.launch).lcb.fdom)

/-- The fault domain that issues for a team, while the team lives. -/
def State.issuerOf (s : State) (team : Nat) : Option (Nat × Nat) := (tfind s.teams team).map (fun _ => s.domainOf team)

/-- The rank of what waits at a home, an access or a chunk: OLD, AGE, and the device and cluster it comes from (R240). -/
def State.rankAt (s : State) (x : Nat) : Bool × Nat × Nat × Nat :=
  match tfind s.txns x, tfind s.chunks x with
  | some t, _ => (t.old, bits t.issued 25 6, t.src.getD s.ownNum, t.cluster)
  | none, some k => (k.old, k.age, s.ownNum, k.cluster)
  | none, none => (false, 0, 0, 0)

/-- Units since an AGE (R240). -/
def State.unitsSince (s : State) (a : Nat) : Nat := (bits s.cycle 25 6 + 2 ^ 20 - a) % 2 ^ 20

/-- The device and die that an access or chunk comes from. -/
def State.askerEnd (s : State) (x : Nat) : Nat × Nat :=
  match tfind s.txns x, tfind s.chunks x with
  | some t, _ => (t.src.getD s.ownNum, t.cluster / 2048)
  | none, some k => (s.ownNum, k.cluster / 2048)
  | none, none => (s.ownNum, s.cdies.headD 0)

/-- The virtual channel of a commons message, and its two ends as device and die (R239, R266, R271, R272, R274, R278): a page's recall goes from
the page's home to a device that holds it, and its answer comes back. -/
def State.cRoute (s : State) (m : CMsg) : Nat × (Nat × Nat) × (Nat × Nat) :=
  let home := s.homeEnd (s.homeOf (128 * m.line))
  let owner := match locDev (128 * m.line) with
    | some d => (d, 0)
    | none => home
  let holder := match locDev (128 * m.line) with
    | some _ => home
    | none => (m.dev, 0)
  let at_ := fun (d : Nat) => (s.ownNum, d)
  let mdie := if m.home < 1000 then at_ m.home else (m.home - 1000, 0)
  match m.kind with
  | .invalidate => (2, home, at_ m.die)
  | .forward => (2, home, at_ (m.cluster / 2048))
  | .gone | .writeBack => (1, at_ (m.cluster / 2048), home)
  | .marker => if m.dies.isEmpty then (2, mdie, at_ m.die) else (0, at_ (m.cluster / 2048), mdie)
  | .sweepAck => (1, if m.home < 1000 then at_ m.die else mdie, at_ (m.cluster / 2048))
  | .pageRecall => if m.answer then (1, holder, owner) else (2, owner, holder)
  | .resend => (1, home, s.askerEnd m.txn)

/-- The AGE of a commons message: that of the instruction that caused it (R240). -/
def State.ageOfC (s : State) (m : CMsg) : Nat :=
  m.age.getD (if (tfind s.txns m.txn).isSome || (tfind s.chunks m.txn).isSome then (s.rankAt m.txn).2.1 else bits s.cycle 25 6)

/-- Send a commons message by the buffered lane (R250). -/
def State.sendC (s : State) (m : CMsg) (ev : Nat → Event) : State :=
  let id := s.nextId
  let age := s.ageOfC m
  let route := s.cRoute m
  { s with cmsgs := tput s.cmsgs id { m with age := some age }, nextId := id + 1 }.sendLane route.1 age m.data.length route.2.1 route.2.2
    ((tfind s.txns m.txn).bind (fun t => s.issuerOf t.team)) (ev id)

/-- Take a commons message out of flight. -/
def State.takeC (s : State) (n : Nat) : State := { s with cmsgs := tdel s.cmsgs n }

/-! ### Copies and owners -/

/-- Drop a cluster's clean commons copy of a line. -/
def State.dropCopy (s : State) (cl line : Nat) : State :=
  if s.owns cl line then s else s.dropBytes cl (fun a b => b.commons && lineOf a == line)

/-- Write back a line that a cluster owns: the whole line as it stands there (R273). -/
def State.returnLine (s : State) (cl line : Nat) : State :=
  (s.writeBackBytes cl (fun a b => b.commons && lineOf a == line)).cleansed
    (((s.clusterOf cl).cache.filter (fun (a, b) => b.commons && lineOf a == line)).map (fun (x : Nat × CByte) => x.1))

/-- Apply an invalidation at a C-die's commons agent (R266). -/
def State.applyInvalidate (s : State) (line die : Nat) : State :=
  (s.clusters.filter (fun (k, _) => k / 2048 == die)).foldl (fun s' (k, _) => s'.dropCopy k line) s

/-- The line has been written at its home by a cluster: its other copies are invalidated, the writer's own is dropped (R266). -/
def State.homeWritten (s : State) (line writer x : Nat) : State :=
  let c := s.cat line
  let dies := ((c.copies.filter (· != writer)).map (· / 2048)).eraseDups
  let s1 := dies.foldl (fun s' d => s'.sendC { kind := .invalidate, line, die := d, txn := x } .invalidate) s
  let s2 := s1.dropCopy writer line
  if c.copies.isEmpty then s2 else s2.putCat line { c with st := if c.st == .sh then .h else c.st, copies := [] }

/-- A cluster evicts a line: what it owns goes home as a whole-line write-back (R273), a clean copy is dropped. -/
def State.evict (s : State) (cl line : Nat) : State :=
  let mine := (s.clusterOf cl).cache.filter (fun (a, b) => b.commons && lineOf a == line)
  let s1 := s.dropBytes cl (fun a b => b.commons && lineOf a == line)
  if s.owns cl line && !mine.isEmpty then
    s1.sendC { kind := .writeBack, line, cluster := cl, data := mine.map (fun (a, b) => (a, b.val)) } .writeBack
  else s1

/-! ### A home's queue (R272) -/

/-- The first request is served before the second (R240, R272). -/
def State.txnBefore (s : State) (x y : Nat) : Bool :=
  let (oldX, ageX, devX, clX) := s.rankAt x
  let (oldY, ageY, devY, clY) := s.rankAt y
  if oldX != oldY then oldX
  else if s.unitsSince ageX ≠ s.unitsSince ageY then decide (s.unitsSince ageY < s.unitsSince ageX)
  else if devX ≠ devY then decide (devX < devY)
  else if clX ≠ clY then decide (clX < clY)
  else decide (x < y)

/-- What brings a waiting access or chunk to its home again. -/
def State.arrivalOf (s : State) (x : Nat) : Event := if (tfind s.chunks x).isSome then .chunk x else .homeRequest x

/-- The request that a line serves next: the one that it was forwarded for (R273), else the oldest that waits. -/
def State.headOf (s : State) (c : CatLine) : Option Nat :=
  match c.fwd with
  | some x => some x
  | none => pickBest s.txnBefore c.queue

/-- Requests that are gone leave a line's queue. -/
def State.liveLine (s : State) (c : CatLine) : CatLine :=
  let there := fun (x : Nat) => (tfind s.txns x).isSome || (tfind s.chunks x).isSome
  { c with queue := c.queue.filter there, fwd := c.fwd.filter there }

/-- The next request of a line arrives. -/
def State.wakeLine (s : State) (line : Nat) : State :=
  match s.headOf (s.cat line) with
  | some x => s.oweOnce (s.arrivalOf x)
  | none => s

/-- The entry of a line in H with no participant, for which nothing is under way (R269). -/
def CatLine.idle (c : CatLine) : Bool :=
  c.st == .h && c.copies.isEmpty && c.scope.isNone && !c.busy && !c.gone && c.fwd.isNone && c.queue.isEmpty

/-- A line that needs an entry no more has none (R269). -/
def State.tidy (s : State) (line : Nat) : State :=
  if (tfind s.catalogue line).any CatLine.idle then { s with catalogue := tdel s.catalogue line } else s

/-- The line's transaction is over: its queue is served. -/
def State.freeLine (s : State) (line : Nat) : State :=
  if (tfind s.catalogue line).isSome then
    ((s.putCat line { s.liveLine (s.cat line) with busy := false, gone := false }).wakeLine line).tidy line
  else s

/-- A request that the line has served leaves its queue, and the next one is served. -/
def State.leaveQueue (s : State) (line x : Nat) : State :=
  let c := s.cat line
  if c.queue.contains x || c.fwd == some x then
    ((s.putCat line (s.liveLine { c with queue := c.queue.filter (· != x), fwd := if c.fwd = some x then none else c.fwd })).wakeLine line).tidy line
  else s.tidy line

/-- A home refuses a request with retry, and remembers its AGE (R272, R274). -/
def State.refuse (s : State) (line x : Nat) : State :=
  let home := s.entryHome line
  let age := (s.rankAt x).2.1
  let kept := s.refusals.filter (fun r : Nat × Nat × Nat => decide (s.cycle < r.2.2 + 1024))
  { s with refusals := kept ++ [(home, age, s.cycle)] }.sendC { kind := .resend, line, txn := x } .commonsResend

/-- Wait in the line's queue; a full queue refuses with retry (R272). -/
def State.enqueue (s : State) (line x : Nat) : State :=
  let c := s.cat line
  if c.queue.contains x then s
  else if c.queue.length < 8 then s.putCat line { c with queue := c.queue ++ [x] }
  else s.refuse line x

/-- Slots of a home's forward egress in use: forwards, recalls, of a page as one, and the markers that it has forwarded (R274). -/
def State.egress (s : State) (home : Nat) : Nat :=
  (s.cmsgs.filter (fun (_, m) => (m.kind == .forward && s.homeOf (128 * m.line) == home) ||
    (m.kind == .marker && m.dies.isEmpty && m.home == home))).length +
  (((s.cmsgs.filter (fun (_, m) => m.kind == .pageRecall && !m.answer && s.homeOf (128 * m.line) == home)).map
    (fun (_, m) => m.line / 32)).eraseDups).length

/-- A home has an egress slot for a request, or for a marker: of the slots that free, one is held for the oldest request that it refused
within 1,024 cycles (R274). -/
def State.slotFor (s : State) (home : Nat) (x : Option Nat) : Bool :=
  let held := s.refusals.any (fun (h, a, c) => h == home && decide (s.cycle < c + 1024) &&
    (x.map (fun n => decide (s.unitsSince (s.rankAt n).2.1 < s.unitsSince a))).getD true)
  decide (s.egress home + (if held then 1 else 0) < 4)

/-- The devices that hold a page of this one, and from which it is recalled (R270). -/
def State.pageHolders (s : State) (key : Nat) : List Nat :=
  if (s.cat key).everyone then s.domainDevices.filter (· != s.ownNum) else (s.cat key).devices

/-- Recall a page from every device that holds it, for an access (R271). -/
def State.recallPage (s : State) (line x : Nat) : State :=
  (s.pageHolders (pageKey (128 * line))).foldl (fun s' d => s'.sendC { kind := CMsgKind.pageRecall, line := line, txn := x, dev := d } Event.pageRecall) s

/-- Send a forward or a page's recall for a request, which waits in the line's queue, to be served first (R271, R272); without a free slot
the request is refused with retry (R274). -/
def State.forwardFor (s : State) (line x : Nat) (send : State → State) : State :=
  if s.slotFor (s.entryHome line) (some x) then
    let c := s.cat line
    send (s.putCat line { c with busy := true, fwd := some x })
  else s.refuse line x

/-- A whole line comes to its home: a write-back, or an owner's answer to a forward, with which the home's transaction ends (R272, R273). -/
def State.landWriteBack (s : State) (n : Nat) (m : CMsg) : State :=
  let s1 := (m.data.foldl (fun s' (a, b) => s'.setHomeByte a b) s).cleansed (m.data.map (fun (x : Nat × Byte) => x.1))
  let c := s1.cat m.line
  let s2 := if c.st == .ow && c.owner == m.cluster then s1.putCat m.line { c with st := .h, owner := 0 } else s1
  let s3 := { s2 with reqs := s2.reqs.map (fun (x : Nat × Request) => (x.1, { x.2 with backs := x.2.backs.filter (· != n) })) }
  if c.gone || m.answer then s3.freeLine m.line else s3.tidy m.line

/-- Write-backs of a line that are on their way. -/
def State.backsOf (s : State) (line : Nat) : List (Nat × CMsg) := s.cmsgs.filter (fun (_, m) => m.kind == .writeBack && m.line == line)

/-- The line's data is at its home and no cluster owns it: an owner's copy is recalled, and a write-back that is on its way
lands (R262). -/
def State.settleLine (s : State) (line : Nat) : State :=
  let s1 := (s.backsOf line).foldl (fun s' (n, m) => (s'.takeC n).landWriteBack n m) s
  let c := s1.cat line
  if c.st == .ow then
    let s2 := (s1.returnLine c.owner line).dropBytes c.owner (fun a b => b.commons && lineOf a == line)
    (s2.putCat line { s2.cat line with st := .h, owner := 0 }).tidy line
  else s1

/-! ### The catalogue (R269) -/

/-- Entries of a home. -/
def State.entriesAt (s : State) (home : Nat) : Table CatLine := s.catalogue.filter (fun (k, _) => s.entryHome k == home)

/-- The bucket of an entry in a table: 32,768 in each (R269). -/
def catBucket (tab key : Nat) : Nat := Config.catHash tab key % 32768

/-- The entry in a way of a bucket. -/
def State.inWay (s : State) (home tab bucket way : Nat) : Option (Nat × CatLine) :=
  (s.entriesAt home).find? (fun (k, c) => c.tab == tab && c.way == way && catBucket tab k == bucket)

/-- A free way of a bucket. -/
def State.freeWay (s : State) (home tab bucket : Nat) : Option Nat :=
  (List.range 4).find? (fun w => (s.inWay home tab bucket w).isNone)

/-- Place an entry in a free way of its buckets, the first table's first. -/
def State.placeFree (s : State) (home key : Nat) : Option State :=
  match s.freeWay home 0 (catBucket 0 key), s.freeWay home 1 (catBucket 1 key) with
  | some w, _ => some (s.putCat key { s.cat key with tab := 0, way := w })
  | none, some w => some (s.putCat key { s.cat key with tab := 1, way := w })
  | none, none => none

/-- Place an entry, displacing others up to the chain bound: the entry left without a place, if any (R269). -/
def State.place (s : State) (home key : Nat) : Nat → State × Option Nat
  | 0 => match s.placeFree home key with
    | some s1 => (s1, none)
    | none => (s, some key)
  | n + 1 => match s.placeFree home key with
    | some s1 => (s1, none)
    | none =>
      let b := catBucket 0 key
      let t := 2 ^ 20 * home + b
      let w := tget 0 s.turn t
      match s.inWay home 0 b w with
      | none => (s, some key)
      | some (v, c) =>
        let s1 := { s with turn := mset 0 s.turn t ((w + 1) % 4) }
        ((s1.putCat key { s1.cat key with tab := 0, way := w }).putCat v { c with tab := 2 }).place home v n

/-- Recall of a line's entry (R269): the line's copies go, its owner's data is written back, its participants are forgotten, and what waits
for it comes again. -/
def State.recallLine (s : State) (line : Nat) : State :=
  let s1 := s.settleLine line
  let c := s1.cat line
  let s2 := { s1 with catalogue := tdel s1.catalogue line }
  let s3 := c.copies.foldl (fun s' k => s'.dropBytes k (fun a b => b.commons && lineOf a == line)) s2
  c.queue.foldl (fun s' x => s'.oweOnce (s'.arrivalOf x)) s3

/-- The line whose page a recall of an entry calls back first: where the entry is a page's, or a line's whose page other devices hold. -/
def State.pageFirst (s : State) (key : Nat) : Option Nat :=
  if 2 ^ 70 ≤ key then some (lineOf (entryLoc key))
  else if (tfind s.catalogue (pageKey (128 * key))).isSome then some key
  else none

/-- Make an entry for a line or page at its home: the state, and whether the request x may go on (R269). Where the chain of displacements ends
with a recall, the request goes on only when that is over: a line that is idle is recalled in this step; a busy one, and a page that its
holders have first to give back, let the request be refused with retry, with no entry made. Each recall takes an egress slot (R274). Four ways
of a bucket hold three entries. DESIGN CHOICE, log 19. -/
def State.roomFor (s : State) (key x : Nat) : State × Bool :=
  let home := s.entryHome key
  if (tfind s.catalogue key).isSome || decide (1000 ≤ home) then (s, true)
  else if (s.entriesAt home).length < 4 then
    (s.putCat key { way := (s.freeWay home 0 (catBucket 0 key)).getD 0 }, true)
  else
    let r := (s.putCat key { tab := 2 }).place home key 8
    let turned := { s with turn := r.1.turn }
    match r.2 with
    | none => (r.1, true)
    | some e =>
      if e == key || (s.cat e).busy || !s.slotFor home (some x) then (turned, false)
      else match s.pageFirst e with
        | some l => (if s.cmsgs.any (fun (_, m) => m.kind == .pageRecall && m.line / 32 == l / 32) then turned else turned.recallPage l x, false)
        | none => (r.1.recallLine e, true)

/-! ### Participants and scopes (R275, R276) -/

/-- A cluster's device, die and number as one number. -/
def State.clusterKey (s : State) (cl : Nat) : Nat := 2 ^ 20 * s.ownNum + cl

/-- The widest level at which two clusters differ: the same cluster, C-die, device, or none of these (R275). -/
def spreadOf (a b : Nat) : Nat := if a = b then 0 else if a / 2048 = b / 2048 then 1 else if a / 2 ^ 20 = b / 2 ^ 20 then 2 else 3

/-- Drop every clean commons line of a cluster: its copies, not what it owns (R276). -/
def State.dropCleanCommons (s : State) (cl : Nat) : State := s.dropBytes cl (fun a b => b.commons && !b.dirty && !s.owns cl (lineOf a))

/-- Keep a line's scope in a cluster's synchronisation-variable table (R277). -/
def Cluster.note (c : Cluster) (line : Nat) (scope : Scope) (now : Nat) : Cluster :=
  let others := c.sync.filter (fun v => v.line != line)
  let kept := if others.length < 16 then others
    else match pickBest (fun a b : SyncVar => decide (a.used < b.used)) others with
      | some v => others.erase v
      | none => others
  { c with sync := kept ++ [{ line, scope, used := now }] }

/-- A line's scope as a cluster takes part in it: the spread widens until the scope contains it (R276). -/
def Scope.withCluster (o : Option Scope) (key : Nat) : Scope :=
  match o with
  | none => { anchor := key, spread := 0 }
  | some c => { c with spread := max c.spread (spreadOf c.anchor key) }

/-- Record an access of a cluster by an instruction of majors 0x30 to 0x33 at the line's home or owner (R276): where the spread widens, the
cluster drops its clean commons lines; its table takes the scope. -/
def State.recordAccess (s : State) (line cl : Nat) : State :=
  let c := s.cat line
  let key := s.clusterKey cl
  let now := Scope.withCluster c.scope key
  let s1 := s.putCat line { c with scope := some now }
  let s2 := if c.scope.any (fun o => decide (o.spread < now.spread)) then s1.dropCleanCommons cl else s1
  s2.putCluster cl ((s2.clusterOf cl).note line now s.cycle)

/-- The devices of a context's job other than this one (R243, R255, R275). -/
def State.jobDevices (s : State) (ctx : Nat) : List Nat :=
  if bit (s.ctxField ctx 0x14 4) 1 && s.topo.devNum.isSome then
    (List.range 512).filter (fun d => d != s.ownNum && bit (readByte s.mem (s.ctxField ctx 0x18 8 + d / 8)).toNat (d % 8))
  else []

/-- The C-dies of this device in a scope, and the other devices that it touches (R275, R278). -/
def State.scopeDies (s : State) (c : Scope) : List Nat :=
  if c.spread = 0 || (c.spread != 3 && c.anchor / 2 ^ 20 != s.ownNum) then []
  else if c.spread = 1 then [c.anchor % 2 ^ 20 / 2048] else s.cdies

def State.scopeDevices (s : State) (ctx : Nat) (c : Scope) : List Nat :=
  if c.spread = 3 then s.jobDevices ctx
  else if c.spread != 0 && c.anchor / 2 ^ 20 != s.ownNum then [c.anchor / 2 ^ 20] else []

/-- Apply every invalidation in flight to a C-die, of one home where it is named (R278). -/
def State.settleDie (s : State) (die : Nat) (home : Option Nat) : State :=
  let mine := fun (m : CMsg) => m.kind == .invalidate && m.die == die && (home.map (fun h => s.homeOf (128 * m.line) == h)).getD true
  let s1 := (s.cmsgs.filter (fun (_, m) => mine m)).foldl (fun s' (_, m) => s'.applyInvalidate m.line die) s
  { s1 with cmsgs := s1.cmsgs.filter (fun (_, m) => !mine m) }

/-- A carried scope contains the recorded one (R279). -/
def Scope.within (rec_ carried : Scope) : Bool :=
  decide (carried.spread = 3) || (decide (rec_.spread ≤ carried.spread) && decide (spreadOf rec_.anchor carried.anchor ≤ carried.spread))

/-- The recorded scope of a line that is not contained in the scope that a release carries: it is swept before the release is performed
(R279). -/
def State.unswept (s : State) (line : Nat) (carried : Option Scope) : Option Scope :=
  match (s.cat line).scope, carried with
  | some a, some c => if a.within c then none else some a
  | _, _ => none

/-- The markers of a sweep over some scopes: for each M-die, or other device, that it goes to, the C-dies that it is forwarded to (R278). -/
def State.sweepTargets (s : State) (ctx : Nat) (scopes : List Scope) : List (Nat × List Nat) :=
  let dies := (scopes.flatMap s.scopeDies).eraseDups
  (if dies.isEmpty then [] else s.mdies.map (fun m => (m, dies))) ++
    ((scopes.flatMap (s.scopeDevices ctx)).eraseDups).map (fun d => (1000 + d, [0]))

/-- The acknowledgements that a marker brings: one of each C-die, as 512 × M-die + C-die, or one of another device. -/
def ackCodes (x : Nat × List Nat) : List Nat := if x.1 < 1000 then x.2.map (fun d => 512 * x.1 + d) else [2 ^ 20 + (x.1 - 1000)]

/-- Send the markers of a sweep, from a cluster, or from a home, as its die times 2,048 (R278). -/
def State.sendMarkers (s : State) (w : Sweep) (from_ : Nat) (targets : List (Nat × List Nat)) : State :=
  let id := s.nextId
  targets.foldl (fun s' (m, ds) => s'.sendC { kind := .marker, home := m, dies := ds, cluster := from_, sweep := id } .sweepMarker)
    { s with nextId := id + 1, sweeps := tput s.sweeps id { w with owing := targets.flatMap ackCodes } }

/-- The home's sweep for a release at a line is over (R279). -/
def State.homeSwept (s : State) (line x : Nat) : Bool := s.sweeps.any (fun (_, w) => w.line == some line && w.txn == x && w.owing.isEmpty)

/-- The release for which the home has swept has been performed. -/
def State.endSweep (s : State) (line x : Nat) : State :=
  if s.homeSwept line x then { s with sweeps := s.sweeps.filter (fun (_, w) => !(w.line == some line && w.txn == x)) } else s

/-- The home sweeps a line's recorded scope for a release, which waits there (R279). -/
def State.sweepHere (s : State) (line x ctx : Nat) (a : Scope) : State :=
  (s.putCat line { s.cat line with busy := true, fwd := some x }).sendMarkers { group := 2 ^ 60, scopes := [a], line := some line, txn := x }
    (2048 * (s.homeEnd (s.homeOf (128 * line))).2) (s.sweepTargets ctx [a])

/-! ### The predictor (R263) -/

/-- The CONTENDED bit of a reply about a line to a cluster: another cluster or device holds the line, or it has served another within 4,096
cycles. -/
def State.contended (s : State) (line key : Nat) : Bool :=
  let c := s.cat line
  (c.st == .ow && s.clusterKey c.owner != key) || c.copies.any (fun k => s.clusterKey k != key) ||
    !(s.cat (pageKey (128 * line))).devices.isEmpty ||
    (tget [] s.used line).any (fun (k, c) => k != key && decide (s.cycle < c + 4096))

/-- The home remembers who has used a line (R263). -/
def State.touch (s : State) (line key : Nat) : State :=
  let old := (tget [] s.used line).filter (fun (k, c) => k != key && decide (s.cycle < c + 4096))
  { s with used := tput s.used line (old ++ [(key, s.cycle)]) }

/-- The predictor chooses the home. -/
def Predictor.home (p : Predictor) : Bool :=
  match p.pin with
  | .home => true
  | .grant => false
  | .none => decide (8 ≤ p.cont)

/-! ### Pages between devices (R270, R271) -/

/-- The lines of a location's page. -/
def pageLines (loc : Nat) : List Nat := (List.range 32).map (fun i => 32 * (loc / 4096) + i)

/-- Another device asks for a page of this one, to read it or to write it (R271, steps 2 and 3): owners give their lines back, for a write
every copy goes, and the device is named in the page's entry. -/
def State.grantPage (s : State) (loc dev : Nat) (write : Bool) : State :=
  let s1 := (pageLines loc).foldl (fun s' l =>
    let c := s'.cat l
    let s2 := if c.st == .ow then
        let s3 := s'.returnLine c.owner l
        s3.putCat l { s3.cat l with st := .sh, copies := [c.owner], owner := 0 }
      else s'
    if write && !(s2.cat l).copies.isEmpty then
      let s4 := (s2.cat l).copies.foldl (fun q k => q.dropBytes k (fun a b => b.commons && lineOf a == l)) s2
      s4.putCat l { s4.cat l with st := .h, copies := [] }
    else s2) s
  let key := pageKey loc
  let c := s1.cat key
  let ds := if c.devices.contains dev then c.devices else c.devices ++ [dev]
  s1.putCat key { c with st := if write then .po else .ps, devices := if c.everyone || 8 < ds.length then c.devices else ds
                         everyone := !write && (c.everyone || decide (8 < ds.length)) }

/-- A page of another device goes back to its home: this device's clusters lose their copies, with what they wrote written back, and the
edge proxy's entry goes (R270, R271). -/
def State.returnPage (s : State) (page : Nat) : State :=
  let s1 := (pageLines (4096 * page)).foldl (fun s' l =>
    let s2 := s'.settleLine l
    let s3 := (s2.cat l).copies.foldl (fun q k => q.dropBytes k (fun a b => b.commons && lineOf a == l)) s2
    if (tfind s3.catalogue l).isSome then s3.putCat l { s3.cat l with st := .h, copies := [] } else s3) s
  { s1 with pages := tdel s1.pages page }

/-- The edge proxy records a page that another device grants (R271, step 4); a full table returns one of its pages first (R270). A page
held to be read comes back before it is owned. -/
def State.holdPage (s : State) (loc : Nat) (write : Bool) : State :=
  let page := loc / 4096
  match tfind s.pages page with
  | some true => s
  | some false => if write then let s1 := s.returnPage page; { s1 with pages := tput s1.pages page true } else s
  | none =>
    let s1 := if s.pages.length < Config.edgePages then s
      else match s.chooseFrom (s.pages.map (fun (x : Nat × Bool) => x.1)) with
        | some p => s.returnPage p
        | none => s
    { s1 with pages := tput s1.pages page write }

end Sys2Proof.Machine
end

