-- ==== Sys2Proof/Machine/Access.lean ====
section
/-! DEFINITION. Accesses through region registers: the check of R184, the pieces of R220, what holds an access at issue (R218,
R222, R251, R280, R298, R328), service in the cluster cache and at the home (R183, R225, R262 to R274), and replies (R249). -/

namespace Sys2Proof.Machine

/-! ### Checks at issue -/

/-- The lines of R184 that concern the register itself. DEDUCED, log 28. -/
def regionCheck (r : Region) (pos : Nat) (write commons : Bool) : Option (Nat × Nat) :=
  if r.kind == .empty || r.pend then some (0x11, 0)
  else if !r.all && r.holder != pos then some (0x12, 0)
  else if write && r.kind == .s then some (0x11, 1)
  else if commons && r.kind != .c then some (0x11, 2)
  else none

/-- The bounds lines of R184: the first lane whose n bytes leave the region. -/
def boundsCheck (r : Region) (n : Nat) (offs : List (Nat × Nat)) : Option (Nat × Nat) :=
  (offs.find? (fun (_, o) => decide (r.len < o + n))).map (fun (l, _) => (0x10, l))

/-- Lanes' 64-bit offsets from a pair. -/
def Group.offsets (g : Group) (a : Nat) (t : Mask) : List (Nat × Nat) := (lanesOf t).map (fun l => (l, g.val true a l))

/-- The region register n of the issuing team. -/
def State.region (s : State) (n : Nat) : Region := tget {} s.team.g n

/-! ### Pieces of a lane's access (R220) -/

/-- Bytes of the aligned piece at an address with rem bytes to go. -/
def pieceSize (va rem : Nat) : Nat := ([16, 8, 4, 2].find? (fun k => decide (va % k = 0) && decide (k ≤ rem))).getD 1

/-- Pieces as (place in the element, bytes). -/
def piecesOf : Nat → Nat → Nat → Nat → List (Nat × Nat)
  | 0, _, _, _ => []
  | fuel + 1, va, pos, rem =>
    if rem = 0 then []
    else let k := pieceSize va rem; (pos, k) :: piecesOf fuel (va + k) (pos + k) (rem - k)

/-- The pieces of one lane's access of n bytes at va, with operands a and b. -/
def lanePieces (pins : List PagePin) (lane va n a b : Nat) : List LaneAcc :=
  (piecesOf 16 va 0 n).map (fun (pos, k) =>
    let pin := pinFind pins (va + pos)
    { lane, va := va + pos, loc := (pin.map (·.at_ (va + pos))).getD (va + pos), ptype := (pin.map (·.ptype)).getD 0, pos, n := k,
      a := a / 256 ^ pos % 256 ^ k, b := b / 256 ^ pos % 256 ^ k })

/-- The piece lies on a normal page that a cluster may cache (R218, R410). -/
def LaneAcc.normal (p : LaneAcc) : Bool := p.ptype == 0 && !isHostWindow p.loc

/-- The class that a piece travels with (R218). -/
def Txn.clsOf (t : Txn) (p : LaneAcc) : Nat := if 2 ≤ p.ptype then 0 else t.cls

/-! ### What holds an access at issue -/

/-- The device that an access reaches. -/
def State.devOf (s : State) (t : Txn) (p : LaneAcc) : Nat := if t.remote then t.dev.getD s.ownNum else (locDev p.loc).getD s.ownNum

/-- Two pieces name one line as R251 compares lines: by device and physical line, two passes by device and region line, and an access of
one kind and a pass by device alone. -/
def State.sameLine (s : State) (t u : Txn) (p q : LaneAcc) : Bool :=
  s.devOf t p == s.devOf u q &&
    (t.remote != u.remote || (if t.remote then lineOf p.va == lineOf q.va else lineOf p.loc == lineOf q.loc))

/-- Code 32 is the local window, 33 the cluster window, a smaller code a region register (R23). -/
def isRegion (code : Nat) : Bool := decide (code < 32)

/-- The class with which a piece's source, or destination, travels: its register's, forced to O on a device or strongly ordered page
(R293); a window has every class (R323). -/
def Copy.readCls (c : Copy) (p : Piece) : Option Nat := if 2 ≤ p.stype then c.srcCls.map (fun _ => 0) else c.srcCls
def Copy.writeCls (c : Copy) (p : Piece) : Option Nat := if 2 ≤ p.dtype then c.dstCls.map (fun _ => 0) else c.dstCls

/-- The locations of a transfer beyond the cluster, with their classes. -/
def Copy.places (c : Copy) : List (Nat × Nat) :=
  c.pieces.flatMap (fun p => (if isRegion c.src then [(p.sloc, (c.readCls p).getD 0)] else []) ++
    (if isRegion c.dst then [(p.dloc, (c.writeCls p).getD 0)] else []))

/-- R251 between an access and a location of one of the group's transfers: the same line, or, for a pass, the same device. -/
def State.meetsPlace (s : State) (t : Txn) (p : LaneAcc) (loc : Nat) : Bool :=
  s.devOf t p == (locDev loc).getD s.ownNum && (t.remote || lineOf p.loc == lineOf loc)

/-- R251: an access of the group in flight to the line is of class A or V, or of another class than the new one. -/
def State.lineHeld (s : State) (t : Txn) : Bool :=
  s.txns.any (fun (_, u) => u.group == s.cur && u.copy.isNone && u.lanes.any (fun q => t.lanes.any (fun p =>
    s.sameLine t u p q && (u.clsOf q != 0 || u.clsOf q != t.clsOf p)))) ||
  s.copies.any (fun (_, c) => c.group == s.cur && c.places.any (fun (loc, k) => t.lanes.any (fun p =>
    s.meetsPlace t p loc && (k != 0 || k != t.clsOf p))))

/-- The piece is a store that the write-combining buffer may take (R219). -/
def Txn.buffers (t : Txn) (p : LaneAcc) : Bool := t.op == .store && p.ptype == 1 && !t.remote && !t.commons && t.src.isNone && t.copy.isNone

/-- A store that would be buffered waits while another access of the group to its line is on its way (R221), or while the line itself has left the
buffer for its home (R219). -/
def State.bufferHeld (s : State) (t : Txn) : Bool :=
  s.txns.any (fun (_, u) => u.group == s.cur && u.lanes.any (fun q => !u.buffers q && q.result.isNone && t.lanes.any (fun p =>
    t.buffers p && lineOf p.loc == lineOf q.loc))) ||
  t.lanes.any (fun p => t.buffers p && (tget {} (s.clusterOf t.cluster).wc (lineOf p.loc)).leaving)

/-- A `bret` or `bdown` of the group is outstanding (R328). -/
def State.handing (s : State) : Bool := s.reqs.any (fun (_, r) => r.group == s.cur && (r.purpose == .ret || r.purpose == .down))

/-- The group's next memory instruction waits: for a `bret` or `bdown` (R328), an acquire (R280), or a strongly ordered access
(R218). DEDUCED, log 22. -/
def State.memoryHeld (s : State) : Bool :=
  s.handing || s.txns.any (fun (_, u) => u.group == s.cur && (u.acquire || u.lanes.any (fun q => q.ptype == 3))) ||
    s.copies.any (fun (_, c) => c.group == s.cur && c.strong)

/-- Bytes from a to a + n overlap b to b + m in 128-byte lines (R298). -/
def linesMeet (a n b m : Nat) : Bool :=
  n != 0 && m != 0 && decide (a / 128 ≤ (b + m - 1) / 128) && decide (b / 128 ≤ (a + n - 1) / 128)

/-- R298: generic ranges that an instruction reads or writes meet the footprint of one of the group's copies. -/
def Group.footHeld (g : Group) (reads writes : List (Nat × Nat)) : Bool :=
  g.foot.any (fun f => (f.writes && reads.any (fun (a, n) => linesMeet a n f.base f.len)) ||
    writes.any (fun (a, n) => linesMeet a n f.base f.len))

/-- A counter cannot rise further (R222). -/
def Group.counterFull (g : Group) (c : Nat) : Bool := decide (63 ≤ tget 0 g.count c)

def Group.countUp (g : Group) (c : Nat) : Group := { g with count := mset 0 g.count c (tget 0 g.count c + 1) }
def Group.countDown (g : Group) (c : Nat) : Group := { g with count := mset 0 g.count c (tget 0 g.count c - 1) }

/-- An operation reads, or writes, its location. -/
def AccOp.reads (o : AccOp) : Bool := o != .store && o != .prefetch
def AccOp.writes (o : AccOp) : Bool := o != .load && o != .prefetch
/-- The operation returns a value to registers. -/
def AccOp.returns (o : AccOp) : Bool := o != .store && o != .prefetch

/-- The fragment that waits in an `fput` or `fget` of a FIFO's queue. -/
def State.fifoFrag (s : State) (x : FifoOp) : Option Frag := (s.group x.group).frags.find? (fun f => f.wait == .fifo x.id)

/-- A queued `fput` or `fget` still waits. -/
def State.stillWaits (s : State) (x : FifoOp) : Bool := (s.fifoFrag x).isSome

/-- A counter of R222 of the issuing group; CW counts the `fput` and `fget` that wait. -/
def State.inFlight (s : State) (c : Nat) : Nat :=
  tget 0 s.grp.count c +
    (if c = 3 then (s.team.banks.flatMap (fun b => b.puts ++ b.gets)).countP (fun x => x.group == s.cur && s.stillWaits x) else 0)

/-- Every counter of the group is zero (R218). -/
def State.allQuiet (s : State) : Bool := (List.range 6).all (fun c => s.inFlight c == 0)

/-- A relocation of the borrow in region register n, or of the request that was pending for it, is not acknowledged yet (R197). -/
def State.relocating (s : State) (n : Nat) : Bool :=
  let r := s.region n
  r.kind != .empty && s.reqs.any (fun (_, q) => q.purpose == .reloc && q.team == s.grp.team &&
    (if q.moves = 0 then q.handle == r.handle else q.reg == n))

/-- Everything that holds an access at issue. DEDUCED, log 21. -/
def State.accessHeld (s : State) (t : Txn) : Bool :=
  let rs := t.lanes.map (fun p => (p.va, p.n))
  s.memoryHeld || s.relocating t.region || s.lineHeld t || s.bufferHeld t || (t.counter.map s.grp.counterFull).getD false ||
    s.grp.footHeld rs (if t.op.writes then rs else []) ||
    (t.lanes.any (fun p => p.ptype == 3) && !s.allQuiet)

/-! ### The write-combining buffer (R219) -/

/-- A write at its home also renews the bytes that the writer's cluster holds. -/
def State.writeThrough (s : State) (cl loc v n : Nat) : State :=
  let s1 := s.setHomeLe loc v n
  let c := s1.clusterOf cl
  if (List.range n).any (fun i => (tfind c.cache (loc + i)).isSome) then
    s1.putCluster cl { c with cache := c.cache.map (fun (a, b) =>
      if loc ≤ a ∧ a < loc + n then (a, { b with val := BitVec.ofNat 8 (v / 256 ^ (a - loc)), dirty := false }) else (a, b)) }
  else s1

/-- A line of the buffer reaches its home, and its stores are acknowledged. -/
def State.drainLine (s : State) (cl line : Nat) : State :=
  let c := s.clusterOf cl
  match tfind c.wc line with
  | none => s
  | some l =>
    let s1 := (l.bytes.foldl (fun s' (a, b) => s'.writeThrough cl a b.toNat 1) (s.putCluster cl { c with wc := tdel c.wc line })).cleansed
      (l.bytes.map (fun (x : Nat × Byte) => x.1))
    let mine := fun (t : Txn) (p : LaneAcc) => t.buffers p && p.result.isNone && lineOf p.loc == line
    let drained := fun (t : Txn) => { t with lanes := t.lanes.map (fun p => if mine t p then { p with result := some 0 } else p) }
    (s1.txns.filter (fun (_, t) => t.cluster == cl && t.lanes.any (mine t))).foldl (fun s' (x, t) =>
      let t1 := drained t
      let s2 := { s' with txns := tput s'.txns x t1 }
      if t1.lanes.all (fun p => p.result.isSome) then s2.oweOnce (.storeAck x) else s2) s1

/-- A line of the buffer leaves for its home, in the lowest class of its stores; what it holds is performed when it arrives (R219). -/
def State.sendDrain (s : State) (cl line : Nat) : State :=
  let c := s.clusterOf cl
  match tfind c.wc line with
  | none => s
  | some l =>
    if l.leaving then s
    else
      let classes := s.txns.flatMap (fun (_, t) => if t.cluster == cl then
        (t.lanes.filter (fun p => t.buffers p && p.result.isNone && lineOf p.loc == line)).map t.clsOf else [])
      let home := s.homeOf (128 * line)
      let there := if home < 1000 then (s.ownNum, home) else (home - 1000, 0)
      (s.putCluster cl { c with wc := tput c.wc line { l with leaving := true } }).inject
        { cls := classes.foldl min (classes.headD 0), age := bits l.since 25 6, bytes := l.bytes.length, srcDev := s.ownNum, srcDie := cl / 2048
          dstDev := there.1, dst := there.2, srcCluster := cl % 2048, event := some (.wcDrain cl line)
          issuer := (l.groups.head?).bind (fun g => s.issuerOf (s.group g).team) }

/-- Put a store's bytes into the buffer: with 8 lines in it the oldest leaves first, and a line leaves when it is full (R219). -/
def State.wcPut (s : State) (cl group : Nat) (p : LaneAcc) : State :=
  let line := lineOf p.loc
  let wc := (s.clusterOf cl).wc.filter (fun (x : Nat × WcLine) => !x.2.leaving)
  let s0 :=
    if (tfind wc line).isNone ∧ 8 ≤ wc.length then
      match pickBest (fun a b : Nat × WcLine => decide (a.2.since < b.2.since)) wc with
      | some (n, _) => s.sendDrain cl n
      | none => s
    else s
  let c := s0.clusterOf cl
  let l : WcLine := (tfind c.wc line).getD { since := s.cycle }
  let l1 : WcLine :=
    { bytes := (List.range p.n).foldl (fun m i => tput m (p.loc + i) (BitVec.ofNat 8 (p.a / 256 ^ i))) l.bytes
      groups := if l.groups.contains group then l.groups else l.groups ++ [group]
      since := l.since }
  let s1 := s0.putCluster cl { c with wc := tput c.wc line l1 }
  if l1.bytes.length = 128 then s1.owe (.wcDrain cl line) else s1

/-- n bytes as a load of the cluster reads them at their home: bytes of its buffer are merged in (R219). -/
def State.wcMerge (s : State) (cl loc v : Nat) : Nat → Nat
  | 0 => 0
  | n + 1 =>
    let l : WcLine := tget {} (s.clusterOf cl).wc (lineOf loc)
    ((if l.leaving then none else tfind l.bytes loc).map (·.toNat)).getD (v % 256) + 256 * s.wcMerge cl (loc + 1) (v / 256) n

/-! ### Performing one piece -/

def Txn.fmode (t : Txn) : FMode := ({ mode := t.mode } : Frag).fmode

/-- What an operation leaves at its location, and the events it counts (R258, R286, R287, R302). -/
def AccOp.result (o : AccOp) (sg : Bool) (md : FMode) (n old a b : Nat) : Nat × List Nat :=
  let w := 8 * n
  let value := fun (x : Nat) => if sg then signed w x else ((x % 2 ^ w : Nat) : Int)
  match o with
  | .load | .prefetch => (old, [])
  | .store | .xchg => (a, [])
  | .add => ((old + a) % 2 ^ w, [])
  | .sub => ((old + 2 ^ w - a % 2 ^ w) % 2 ^ w, [])
  | .min => (if value a < value old then a else old, [])
  | .max => (if value old < value a then a else old, [])
  | .and => (old &&& a, [])
  | .or => (old ||| a, [])
  | .xor => (old ^^^ a, [])
  | .cas => (if old = a then b else old, [])
  | .inc => (if old < a then old + 1 else old, [])
  | .dec => (if a < old then old - 1 else old, [])
  | .fadd =>
    let x := f32.decode md.ftz old
    let y := f32.decode md.ftz a
    f32.result md [x, y] (exactSum md.rm [x.exact, y.exact])

/-- A piece at its home as its requester reads it. -/
def State.readHome (s : State) (t : Txn) (p : LaneAcc) : Nat :=
  if p.ptype == 1 && t.src.isNone then s.wcMerge t.cluster p.loc (s.homeLe p.loc p.n) p.n else s.homeLe p.loc p.n

/-- Perform a piece at a home, or in the cache of the issuing cluster. A compare that fails writes nothing (R287); at a home, what the
cluster's write-combining buffer holds of the line goes there before a write (R221). -/
def State.perform (s : State) (inCache : Bool) (t : Txn) (p : LaneAcc) : State × LaneAcc :=
  let old := if inCache then s.seenLe t.cluster p.loc p.n else s.readHome t p
  let new := (t.op.result t.signed t.fmode p.n old p.a p.b).1
  let s1 :=
    if !t.op.writes || (t.op == .cas && old != p.a) then s
    else if inCache then s.cacheWrite t.cluster p.loc new p.n t.team (t.kind == .c)
    else if t.src.isSome then s.setHomeLe p.loc new p.n
    else (if p.ptype == 1 then s.drainLine t.cluster (lineOf p.loc) else s).writeThrough t.cluster p.loc new p.n
  (s1, { p with result := some old })

/-! ### Service in the cluster cache at issue -/

/-- Another access of the group to the line, or a pass of it to the line's device, is in flight: the cluster's copy may not answer
before it (R319). -/
def State.lineInFlight (s : State) (t : Txn) (p : LaneAcc) : Bool :=
  s.txns.any (fun (_, u) => u.group == t.group && u.lanes.any (fun q =>
    if u.remote then s.devOf u q == s.devOf t p else lineOf q.loc == lineOf p.loc))

/-- A byte that the cluster holds under another team's commons grant and has written: no read under S sees it (R328). -/
def State.hiddenFrom (s : State) (t : Txn) (p : LaneAcc) : Bool := t.kind == .s && s.dirtyLine t.cluster (lineOf p.loc)

/-- The cluster cache serves the piece (R183, R225, R262). -/
def State.hits (s : State) (t : Txn) (p : LaneAcc) : Bool :=
  let cl := t.cluster
  !t.remote && p.normal && !s.lineInFlight t p &&
    (if t.kind == .c then
      (if !t.op.writes && t.op.reads then s.holdsBytes cl true p.loc p.n
       else if t.op == .prefetch then s.holdsLine cl p.loc
       else s.owns cl (lineOf p.loc) && s.holdsBytes cl true p.loc p.n)
     else if t.op == .load then s.holdsBytes cl false p.loc p.n && !s.hiddenFrom t p
     else if t.op == .store then decide (0 < s.cacheWays cl) && (!t.nalloc || s.holdsLine cl p.loc)
     else s.holdsLine cl p.loc)

/-- Lines of an access of which some piece must leave the cluster; the whole line leaves (R220). -/
def State.leaving (s : State) (t : Txn) : List Nat := ((t.lanes.filter (fun p => !s.hits t p)).map (fun p => lineOf p.loc)).eraseDups

/-- Serve what the cluster serves at issue, lanes ascending. -/
def State.serveHere (s : State) (t : Txn) (left : List Nat) : List LaneAcc → State × List LaneAcc
  | [] => (s, [])
  | p :: ps =>
    if left.contains (lineOf p.loc) then
      let q := s.serveHere t left ps
      (q.1, p :: q.2)
    else
      let r := s.perform true t p
      let q := (if t.commons then r.1.recordAccess (lineOf p.loc) t.cluster else r.1).serveHere t left ps
      (q.1, r.2 :: q.2)

/-! ### Results -/

/-- The piece's reply has arrived. -/
def LaneAcc.arrived (p : LaneAcc) : Bool := p.result.isSome && !p.going && !p.coming

/-- The value of a lane's element from its pieces, none while one is missing. -/
def laneValue (ps : List LaneAcc) (lane : Nat) : Option Nat :=
  let mine := ps.filter (fun p => p.lane == lane)
  if mine.all (fun p => p.result.isSome) then some ((mine.map (fun p => (p.result.getD 0) * 256 ^ p.pos)).sum) else none

/-- Words of an element of n bytes. -/
def wordsOf (n : Nat) : Nat := if n ≤ 4 then 1 else n / 4

/-- The lanes of an access. -/
def Txn.laneList (t : Txn) : List Nat := (t.lanes.map (·.lane)).eraseDups

/-- Lanes whose replies have all arrived and that are still to be written (R250). -/
def Txn.readyLanes (t : Txn) : List Nat :=
  t.laneList.filter (fun l => t.lanes.all (fun p => p.lane != l || (p.arrived && !p.done)))

/-- Write the results of some lanes of an access; a lane without its reply takes free values, also where the target's job holds no borrow
(detail 33), for which R259 names no value. DESIGN CHOICE, log 2. -/
def Group.takeLanes (g : Group) (t : Txn) (free : Nat) (ls : List Nat) : Group :=
  if t.op.returns then
    ls.foldl (fun g' l => (List.range (wordsOf t.bytes)).foldl (fun g2 i =>
      g2.setReg (t.dst + i) l (match laneValue t.lanes l with
        | some v => BitVec.ofNat 32 (v / 2 ^ (32 * i))
        | none => Config.freeWord ((free * 32 + l) * 4 + i))) g') g
  else g

/-- Write an access's results: the lanes that are not written yet. -/
def Group.takeReply (g : Group) (t : Txn) (free : Nat) : Group :=
  g.takeLanes t free (t.laneList.filter (fun l => t.lanes.all (fun p => p.lane != l || !p.done)))

/-- Events of some lanes of an access, which are counted when their replies arrive (R286). -/
def Txn.eventsOf (t : Txn) (ls : List Nat) : List Nat :=
  if t.op == .fadd then (t.lanes.filter (fun p => ls.contains p.lane)).flatMap (fun p => match p.result with
    | some old => (t.op.result t.signed t.fmode p.n old p.a p.b).2
    | none => [])
  else []

def Txn.events (t : Txn) : List Nat := t.eventsOf (t.laneList.filter (fun l => t.lanes.all (fun p => p.lane != l || !p.done)))

/-- Remember the commons writes of an access until a sweep (R324). -/
def Group.noteWrites (g : Group) (t : Txn) : Group :=
  if t.kind == .c && t.op.writes then
    { g with unswept := g.unswept ++ t.lanes.map (fun p => { cls := t.clsOf p, va := p.va, n := p.n, loc := p.loc }) }
  else g

/-! ### Packets of an access -/

/-- A piece is still to be performed at its home, and is no store in the write-combining buffer. -/
def Txn.waits (t : Txn) (p : LaneAcc) : Bool := p.result.isNone && !t.buffers p

/-- Cut numbered pieces into packets of at most 128 bytes of data (R238). -/
def cutPackets : List (Nat × Nat) → Nat → List Nat → List (List Nat)
  | [], _, acc => if acc.isEmpty then [] else [acc]
  | (i, n) :: xs, used, acc =>
    if acc.isEmpty || decide (used + n ≤ 128) then cutPackets xs (used + n) (acc ++ [i])
    else acc :: cutPackets xs n [i]

/-- The operation is one whose pieces of a line travel as one line transfer (R218, R220). -/
def AccOp.coalesces (o : AccOp) : Bool := o == .load || o == .store || o == .prefetch

/-- The packets of some pieces of an access, as lists of their places: one for a line of a load or store (R218), or for each piece of a device
or strongly ordered page; lanes' atomics of a line in packets of 128 bytes. -/
def Txn.packetLists (t : Txn) (bytes : LaneAcc → Nat) (want : LaneAcc → Nat → Bool) : List (List Nat) :=
  let ps := t.lanes.zipIdx.filter (fun (p, i) => want p i)
  let key := fun (p : LaneAcc) (i : Nat) => if 2 ≤ p.ptype then (lineOf p.loc, i + 1) else (lineOf p.loc, 0)
  ((ps.map (fun (p, i) => key p i)).eraseDups).flatMap (fun k =>
    let mine := ps.filter (fun (p, i) => key p i == k)
    if t.op.coalesces then [mine.map (·.2)] else cutPackets (mine.map (fun (p, i) => (i, bytes p))) 0 [])

/-- Bytes of data that a piece's request, or its reply, carries (R238, R243). -/
def Txn.askBytes (t : Txn) (p : LaneAcc) : Nat := if t.op == .cas then 2 * p.n else if t.op.writes then p.n else 0
def Txn.replyBytes (t : Txn) (p : LaneAcc) : Nat := if t.op.returns then p.n else 0

/-- A grant of the line is requested for a piece, rather than its access alone (R262). -/
def State.asksGrant (s : State) (t : Txn) (p : LaneAcc) : Bool :=
  t.kind == .c && t.grant && p.normal && !t.remote && (t.src.isSome || (!t.nalloc && decide (0 < s.cacheWays t.cluster)))

/-- This device holds the page of a location of another device so as to permit the access: its edge proxy acts as the line's home (R270). -/
def State.pageHeld (s : State) (loc : Nat) (write : Bool) : Bool :=
  match tfind s.pages (loc / 4096) with
  | some own => own || !write
  | none => false

/-- Device and die at which a piece is served: its home, or this device's edge proxy for a page that it holds or is being granted (R270). -/
def State.endOf (s : State) (t : Txn) (p : LaneAcc) : Nat × Nat :=
  let home := s.homeOf p.loc
  if home < 1000 then (s.ownNum, home)
  else if t.kind == .c && !t.remote && (p.granted || s.pageHeld p.loc (t.op.writes || t.acquire)) then (s.ownNum, 290)
  else (home - 1000, 0)

/-- A packet of an access, between the requester's die and where it is served (R240): the pieces at some places of its list; from a device
that has granted a page to the edge proxy. Grant requests and grants travel as messages do (R250, R262). -/
def State.packetOf (s : State) (x : Nat) (t : Txn) (places : List Nat) (response : Bool) : Packet :=
  let ps := places.filterMap (fun i => t.lanes[i]?)
  let p := ps.headD {}
  let there := s.endOf t p
  let here := (t.src.getD s.ownNum, t.cluster / 2048)
  let src := if response then there else if p.granted then (s.homeOf p.loc - 1000, 0) else here
  let dst := if response then here else there
  { cls := if s.asksGrant t p then 0 else t.clsOf p, vc := if response then 1 else 0, age := bits t.issued 25 6
    bytes := min 128 (ps.map (if response then t.replyBytes else t.askBytes)).sum
    srcDev := src.1, srcDie := src.2, dstDev := dst.1, dst := dst.2, srcCluster := t.cluster % 2048
    response, txn := x, pieces := places, issuer := s.issuerOf t.team }

/-- A request leaves the cluster, in packets of its pieces that wait: by the buffered lane in class O, by the deflection plane in class A or
V (R12, R242). -/
def State.depart (s : State) (x : Nat) : State :=
  let t : Txn := tget {} s.txns x
  let t1 := { t with lanes := t.lanes.map (fun p => if t.waits p then { p with going := true } else p) }
  (t1.packetLists t.askBytes (fun p _ => p.going)).foldl (fun s' ps => s'.inject (s'.packetOf x t1 ps false)) { s with txns := tput s.txns x t1 }

/-- A refused request is sent again, its age unchanged (R272). -/
def State.sendAgain (s : State) (x line : Nat) : State :=
  match tfind s.txns x with
  | none => s
  | some t =>
    let mine := fun (p : LaneAcc) => t.waits p && !p.going && lineOf p.loc == line
    let t1 := { t with lanes := t.lanes.map (fun p => if mine p then { p with going := true } else p) }
    (t1.packetLists t.askBytes (fun _ i => (t.lanes[i]?).any mine)).foldl (fun s' ps => s'.inject (s'.packetOf x t1 ps false))
      { s with txns := tput s.txns x t1 }

/-- The pieces that an event has served at their homes send their replies; `was` is the access before it. -/
def State.sendReplies (s : State) (x : Nat) (was : Txn) : State :=
  match tfind s.txns x with
  | none => s
  | some t =>
    let fresh := fun (p : LaneAcc) (i : Nat) => t.waits ((was.lanes[i]?).getD p) && p.result.isSome
    let t1 := { t with lanes := t.lanes.zipIdx.map (fun (p, i) => if fresh p i then { p with coming := true } else p) }
    (t1.packetLists t.replyBytes fresh).foldl (fun s' ps => s'.inject (s'.packetOf x t1 ps true)) { s with txns := tput s.txns x t1 }

/-- The pieces of an access that go to the write-combining buffer, those of one line together (R219, R220). -/
def State.bufferAll (s : State) (t : Txn) : State :=
  let ps := t.lanes.filter (fun p => t.buffers p && p.result.isNone)
  ((ps.map (fun p => lineOf p.loc)).eraseDups).foldl (fun s' l =>
    (ps.filter (fun p => lineOf p.loc == l)).foldl (fun q p => q.wcPut t.cluster t.group p) s') s

/-- A fragment that reads under S what its own team has written under C finds it at the home: the cluster writes the line back first (R319, R328). -/
def State.backOwn (s : State) (t : Txn) : State :=
  if t.kind != .s then s
  else ((t.lanes.map (fun p => lineOf p.loc)).eraseDups).foldl (fun s' l =>
    s'.writeBackBytes t.cluster (fun a b => b.commons && b.team == t.team && lineOf a == l)) s

/-- What the cluster serves of an access, and what is left of it. -/
def State.serveCluster (s0 : State) (t : Txn) : State × List LaneAcc :=
  let s := s0.backOwn t
  s.serveHere t (s.leaving t) t.lanes

/-- Issue an access: what the cluster serves is done at once, the rest leaves for its homes. -/
def State.issueAccess (s : State) (u : Use) (io : Issue) (t : Txn) : State :=
  let r := s.serveCluster t
  let s1 := r.1.setGrp (r.1.grp.noteWrites t)
  let t1 := { t with lanes := r.2 }
  if r.2.all (fun p => p.result.isSome) then s1.finish u io (s1.grp.takeReply t1 s.free) t1.events
  else
    let id := s1.nextId
    let g := s1.grp
    let g1 := { g with busy := g.busy ++ (if t.op.returns then (List.range (wordsOf t.bytes)).map (fun i => (t.dst + i, id)) else []) }
    let g2 := match t.counter with | some c => g1.countUp c | none => g1
    (({ s1 with txns := tput s1.txns id t1, nextId := id + 1 }.bufferAll t1).finish u io g2).depart id

/-! ### Service at the home -/

/-- The accessing cluster as the home records it. -/
def State.requester (s : State) (t : Txn) : Nat := 2 ^ 20 * t.src.getD s.ownNum + t.cluster

/-- A recall of the location's page is outstanding (R271). -/
def State.pageRecalled (s : State) (loc : Nat) : Bool :=
  s.cmsgs.any (fun (_, m) => m.kind == .pageRecall && 128 * m.line / 4096 == loc / 4096)

/-- May a commons request go on at the line's home, or does it wait there: for its turn, for an owner's data, for a page that other devices
hold, or for room in the catalogue (R265, R269 to R274)? -/
def State.takeIn (s0 : State) (x : Nat) (t : Txn) (p : LaneAcc) : State × Bool :=
  let line := lineOf p.loc
  let key := pageKey p.loc
  let needs := t.commons || t.grant || (tfind s0.catalogue key).isSome || s0.pageRecalled p.loc
  let r := if needs then s0.roomFor line x else (s0, true)
  let r2 := if r.2 && t.grant && t.src.isSome then r.1.roomFor key x else r
  let s := r2.1
  let c := s.cat line
  let page := s.cat key
  if !r2.2 then (s.refuse line x, false)
  else if c.busy || ((c.fwd.isSome || !c.queue.isEmpty) && s.headOf c != some x) then (s.enqueue line x, false)
  else if c.st == .ow && (c.owner != t.cluster || t.src.isSome) then
    (s.forwardFor line x (fun q => q.sendC { kind := .forward, line, cluster := c.owner, txn := x } .forward), false)
  else if c.st == .ow && !s.holdsBytes t.cluster true p.loc p.n && !(s.backsOf line).isEmpty then
    (s.putCat line { c with busy := true, gone := true, fwd := some x }, false)
  else if s.pageRecalled p.loc then (s.putCat line { c with busy := true, fwd := some x }, false)
  else if page.st == .po || (page.st == .ps && t.op.writes) then
    (s.forwardFor line x (fun q => q.recallPage line x), false)
  else if let (some a, false) := (s.unswept line t.carried, s.homeSwept line x) then
    (s.sweepHere line x (s.teamOf t.team).ctx a, false)
  else if c.st == .ow && !s.holdsBytes t.cluster true p.loc p.n then (s.putCat line { c with st := .h, owner := 0 }, true)
  else (s, true)

/-- Perform pieces one after another. -/
def State.performAll (s : State) (inCache : Bool) (t : Txn) : List LaneAcc → State × List LaneAcc
  | [] => (s, [])
  | p :: ps =>
    let r := s.perform inCache t p
    let q := r.1.performAll inCache t ps
    (q.1, r.2 :: q.2)

/-- Serve pieces of one line of a commons access that its home has admitted (R262, R265 to R271): in the owner's cache, under a grant of
the line to the cluster or of its page to another device, or at the home. -/
def State.serveAdmitted (s : State) (x : Nat) (t : Txn) (ps : List LaneAcc) : State × List LaneAcc :=
  let p := ps.headD {}
  let line := lineOf p.loc
  let cl := t.cluster
  let c := s.cat line
  let reader := !t.op.writes && !t.acquire
  let cachable := s.asksGrant t p && t.src.isNone
  let fresh := fun (q : State) => (q.dropBytes cl (fun a _ => lineOf a == line)).fillLine cl p.loc t.team true
  let held := if cachable && (locDev p.loc).isSome && c.st != .ow then s.holdPage p.loc (!reader) else s
  if t.src.isSome && t.grant then
    (held.grantPage p.loc (t.src.getD 0) t.op.writes, ps.map (fun q => { q with result := some (held.homeLe q.loc q.n) }))
  else if c.st == .ow then held.performAll true t ps
  else if cachable && reader then
    let s1 := fresh held
    let c1 := s1.cat line
    (s1.putCat line { c1 with st := .sh, copies := if c1.copies.contains cl then c1.copies else c1.copies ++ [cl] }).performAll true t ps
  else if cachable then
    let s1 := fresh (held.homeWritten line cl x)
    (s1.putCat line { s1.cat line with st := .ow, owner := cl, copies := [] }).performAll true t ps
  else
    let r := held.performAll false t ps
    if t.src.isSome then (if t.op.writes then (r.1.homeWritten line (2 ^ 40) x, r.2) else r)
    else (if t.op.writes then r.1.homeWritten line cl x else r.1.dropCopy cl line, r.2)

/-- Serve pieces of one line of a commons access at its home: none while they wait. The home records a participant (R276). -/
def State.serveCommons (s0 : State) (x : Nat) (t : Txn) (ps : List LaneAcc) : State × Option (List LaneAcc) :=
  let p := ps.headD {}
  let line := lineOf p.loc
  let a := s0.takeIn x t p
  if !a.2 then (a.1, none)
  else
    let s := a.1
    let key := s.requester t
    let r := s.serveAdmitted x t ps
    let s1 :=
      if !t.commons then r.1
      else if t.src.isSome then r.1.putCat line { r.1.cat line with scope := some (Scope.withCluster (r.1.cat line).scope key) }
      else r.1.recordAccess line t.cluster
    (s1.touch line key, some r.2)

/-- Serve a piece of an access under X or S at its home (R218, R224, R225). -/
def State.servePlain (s : State) (t : Txn) (p : LaneAcc) : State × LaneAcc :=
  let cl := t.cluster
  let mine := p.normal && !t.remote && t.src.isNone && !s.hiddenFrom t p
  let fill := mine && !t.nalloc && decide (0 < s.cacheWays cl) && t.op != .store
  if t.op == .prefetch then (if fill then s.fillLine cl p.loc t.team false else s, { p with result := some 0 })
  else if fill then (s.fillLine cl p.loc t.team false).perform true t p
  else if mine && t.op == .load then s.perform true t p
  else s.perform false t p

def State.servePlains (s : State) (t : Txn) : List LaneAcc → State × List LaneAcc
  | [] => (s, [])
  | p :: ps =>
    let r := s.servePlain t p
    let q := r.1.servePlains t ps
    (q.1, r.2 :: q.2)

/-- A poisoned line is read (R417). -/
def State.meetPoison (s : State) (t : Txn) : State := s.stopDomain (s.domainOf t.team)

/-- A request to another device is answered at all (R246, R255). -/
def State.answers (s : State) (loc : Nat) : Bool :=
  match locDev loc with
  | none => true
  | some d => ((tfind s.peers d).map (fun p => !p.silent)).getD false

/-- R250: an older class O access of the group is still to be performed at the home of a class O piece. A store that still waits in the
write-combining buffer (R219) has not left for its home and holds nothing back: DESIGN CHOICE, log 22. -/
def State.behindOlder (s : State) (x : Nat) (t : Txn) (p : LaneAcc) : Bool :=
  t.clsOf p == 0 && s.txns.any (fun (y, u) => decide (y < x) && u.group == t.group && u.src == t.src && u.lanes.any (fun q =>
    u.waits q && u.clsOf q == 0 && s.answers q.loc && s.homeOf p.loc == s.homeOf q.loc))

/-- The piece waits in its line's queue, or its refused request is still to come again (R272). -/
def State.parked (s : State) (x : Nat) (t : Txn) (p : LaneAcc) : Bool :=
  let line := lineOf p.loc
  let c := s.cat line
  t.kind == .c && (((c.queue.contains x || c.fwd == some x) && (c.busy || s.headOf c != some x)) ||
    s.cmsgs.any (fun (_, m) => m.kind == .resend && m.txn == x && m.line == line))

/-- A read of a poisoned line, whose domain has been stopped for it (R417). -/
def State.stoppedAt (s : State) (t : Txn) (p : LaneAcc) : Bool :=
  t.op.reads && s.poison.contains (lineOf p.loc) && s.stopped.contains (s.domainOf t.team)

/-- Places of the pieces that are at their homes and may be performed now. -/
def State.awakePieces (s : State) (x : Nat) (t : Txn) : List (LaneAcc × Nat) :=
  t.lanes.zipIdx.filter (fun (p, _) => t.waits p && !p.going && s.answers p.loc && !s.behindOlder x t p && !s.parked x t p &&
    !s.stoppedAt t p)

/-- The pieces that are performed with one: all that lie in its 16-byte chunk for a load or store of a normal or write-combining page
(R220), otherwise itself alone. -/
def Txn.unitOf (t : Txn) (awake : List (LaneAcc × Nat)) (x : LaneAcc × Nat) : List (LaneAcc × Nat) :=
  if x.1.ptype ≤ 1 ∧ (t.op = .load ∨ t.op = .store ∨ t.op = .prefetch) then
    awake.filter (fun y => y.1.ptype ≤ 1 && y.1.loc / 16 == x.1.loc / 16)
  else [x]

/-- The units that may be performed next: no lane before them in the order of R221 and R285, or of a device page (R218), still waits. -/
def State.unitsOf (s : State) (x : Nat) (t : Txn) : List (List (LaneAcc × Nat)) :=
  let awake := s.awakePieces x t
  let before := fun (y : LaneAcc × Nat) => t.lanes.zipIdx.any (fun z => decide (z.2 < y.2) && t.waits z.1 &&
    ((2 ≤ y.1.ptype && 2 ≤ z.1.ptype) || (z.1.loc / 16 == y.1.loc / 16 && !(t.unitOf awake y).contains z)))
  (awake.filter (fun y => !before y)).foldl (fun us y => if us.any (fun u => u.contains y) then us else us ++ [t.unitOf awake y]) []

/-- Lines that stores of an access have written as a whole, which clears their poison (R417). -/
def coveredLines (ps : List LaneAcc) : List Nat :=
  ((ps.map (fun p => lineOf p.loc)).eraseDups).filter (fun l =>
    (List.range 128).all (fun i => ps.any (fun p => decide (p.loc ≤ 128 * l + i) && decide (128 * l + i < p.loc + p.n))))

/-- A piece asks another device for a page that this one does not hold as the access needs it (R271). -/
def State.grantFirst (s : State) (t : Txn) (p : LaneAcc) : Bool :=
  t.src.isNone && (locDev p.loc).isSome && s.asksGrant t p && !p.granted && !s.pageHeld p.loc (t.op.writes || t.acquire)

/-- Another device grants a page for an access: the grant goes to this device's edge proxy, which then serves the pieces of the line that
have come there (R271, steps 3 and 4). -/
def State.sendGrant (s : State) (x : Nat) (t : Txn) (line : Nat) : State :=
  let mine := fun (p : LaneAcc) => t.waits p && !p.going && lineOf p.loc == line
  let places := (t.lanes.zipIdx.filter (fun (p, _) => mine p)).map (·.2)
  let t1 := { t with lanes := t.lanes.map (fun p => if mine p then { p with granted := true, going := true } else p) }
  { s with txns := tput s.txns x t1 }.inject { s.packetOf x t1 places false with vc := 1, bytes := 128 }

/-- Serve one unit of an access; the last one of a line lets the line's next request go on. -/
def State.serveUnit (s : State) (x : Nat) (t : Txn) (unit : List (LaneAcc × Nat)) : State :=
  let ps := unit.map (·.1)
  let line := lineOf (ps.headD {}).loc
  if s.grantFirst t (ps.headD {}) then s.sendGrant x t line
  else if t.op.reads && s.poison.contains line then s.meetPoison t
  else
    let r : State × Option (List LaneAcc) :=
      if t.kind == .c then s.serveCommons x t ps else let q := s.servePlains t ps; (q.1, some q.2)
    match r.2 with
    | none => r.1
    | some qs =>
      let done := (unit.map (·.2)).zip qs
      let s1 := r.1
      let t1 : Txn := tget t s1.txns x
      let t2 := { t1 with lanes := t1.lanes.zipIdx.map (fun (p, i) => ((done.find? (fun d => d.1 == i)).map (·.2)).getD p) }
      let s2 := { s1 with
        txns := tput s1.txns x t2
        poison := if t.op == .store && !s1.poison.isEmpty then
            let covered := coveredLines (t2.lanes.filter (·.result.isSome)); s1.poison.filter (fun l => !covered.contains l)
          else s1.poison }
      if t2.lanes.any (fun p => t2.waits p && lineOf p.loc == line) then s2 else (s2.endSweep line x).leaveQueue line x

/-- Serve the units of an access one after another; with a script, only the one that its next entry chooses (DESIGN CHOICE, log 4). -/
def State.serveUnits (s : State) (x : Nat) : Nat → State
  | 0 => s
  | n + 1 =>
    match tfind s.txns x with
    | none => s
    | some t =>
      match s.unitsOf x t with
      | [] => s
      | u :: us =>
        match s.picks with
        | [] => (s.serveUnit x t u).serveUnits x n
        | k :: rest =>
          let s1 := { s with picks := rest }.serveUnit x t ((u :: us).getD (k % (us.length + 1)) u)
          s1.oweOnce (.homeRequest x)

/-- Younger class O accesses of a group go on where an older one has been performed (R250). -/
def State.wakeYounger (s : State) (x : Nat) (t : Txn) : State :=
  (s.txns.filter (fun (y, u) => decide (x < y) && u.group == t.group && u.lanes.any (fun p => u.waits p && !p.going && u.clsOf p == 0))).foldl
    (fun s' (y, _) => s'.oweOnce (.homeRequest y)) s

/-- A pass has reached a device whose job holds no borrow: it is answered with no access (R259). -/
def State.answerNone (s : State) (x : Nat) (t : Txn) : State :=
  if t.lanes.any (fun p => p.going || p.coming || !s.answers p.loc) then s
  else
    let t1 := { t with lanes := t.lanes.map (fun p : LaneAcc => { p with coming := true }) }
    (t1.packetLists (fun _ => 0) (fun _ _ => true)).foldl (fun s' ps => s'.inject (s'.packetOf x t1 ps true))
      { s with txns := tput s.txns x t1 }

/-- Of what has come to its homes, the homes note which lines are contended at that time (R263). -/
def State.noteContended (s : State) (t : Txn) : Txn :=
  if t.kind != .c then t
  else { t with lanes := t.lanes.map (fun p => if p.cont.isNone && t.waits p && !p.going then
    { p with cont := some (s.contended (lineOf p.loc) (s.requester t)) } else p) }

/-- HOME_REQUEST (R262, R320, R321): what has arrived of an access request is served at its homes, unit by unit. -/
def execHomeRequest (x : Nat) (s : State) : Host.Outcome State Fault Refusal :=
  .next (match tfind s.txns x with
    | none => s
    | some t0 =>
      if t0.lost then s
      else if t0.noBorrow then s.answerNone x t0
      else
        let t := s.noteContended t0
        (({ s with txns := tput s.txns x t }.serveUnits x (2 * t.lanes.length + 1)).sendReplies x t).wakeYounger x t)

/-! ### Replies -/

/-- The trap that a pass leaves due at the completion of its instruction: the lower detail of its passes (R259). -/
def Txn.dueDetail (t : Txn) : Option Nat :=
  let own := if t.lost then some 32 else if t.noBorrow then some 33 else none
  match own, t.trap with
  | some a, some b => some (min a b)
  | some a, none => some a
  | none, o => o

/-- Another pass of the same instruction is in flight (R258). -/
def State.sibling (s : State) (t : Txn) : Option (Nat × Txn) :=
  if t.remote then s.txns.find? (fun (_, u) => u.remote && u.group == t.group && u.first == t.first) else none

/-- The replies to a transfer's reads, or writes, are in: what was read is kept, and the transfer goes on (R306). One of a killed transfer is
dropped and counted (R294). -/
def State.copyReply (s : State) (k : Nat) (t : Txn) : State :=
  match tfind s.copies k with
  | none => s.dropCompletion t.cluster
  | some c =>
    if c.killed then s.dropCompletion t.cluster
    else
      let got := if t.op == .load then
          t.lanes.foldl (fun m p => match p.result with | some v => tput m p.lane v | none => m) c.got
        else c.got
      { s with copies := tput s.copies k { c with got, lost := c.lost || t.lost } }.oweOnce (.copyComplete k)

/-- An access completes: results, events, counter, scoreboard, and, with its instruction, a deferred trap where a peer did not answer or holds
no borrow (R249, R259). A reply for a dead team is dropped and counted (R294). -/
def State.complete (s : State) (x : Nat) (t : Txn) : State :=
  let s1 := { s with txns := tdel s.txns x, free := s.free + 1 }
  if t.src.isSome then s1
  else if let some k := t.copy then s1.copyReply k t
  else if s.hasGroup t.group then
    let g := ((s1.group t.group).takeReply t s.free).freeBusy x
    let g1 := match t.counter with | some c => g.countDown c | none => g
    let s2 := (s1.putGroup t.group g1).countEvents t.group t.frag t.events
    match t.dueDetail with
    | none => s2
    | some d => match s2.sibling t with
      | some (y, u) => { s2 with txns := tput s2.txns y { u with trap := some (min d (u.trap.getD d)) } }
      | none => s2.deferTrap t.group 0x18 d t.frag
  else s1.dropCompletion t.cluster

/-- Lanes whose replies have arrived are written while others are still to come (R250). -/
def State.partReply (s : State) (x : Nat) (t : Txn) : State :=
  let ls := t.readyLanes
  if ls.isEmpty || !s.hasGroup t.group || t.src.isSome || t.copy.isSome then s
  else
    let t1 := { t with lanes := t.lanes.map (fun p => if ls.contains p.lane then { p with done := true } else p) }
    ({ s with txns := tput s.txns x t1 }.putGroup t.group ((s.group t.group).takeLanes t s.free ls)).countEvents t.group t.frag (t.eventsOf ls)

/-- Every reply of an access is in. -/
def Txn.allIn (t : Txn) : Bool :=
  t.lost || (if t.noBorrow then t.lanes.all (fun p => !p.going && !p.coming) else t.lanes.all (·.arrived))

/-- LOAD_REPLY (R222, R249, R250). -/
def execLoadReply (x : Nat) (s : State) : Host.Outcome State Fault Refusal :=
  .next (match tfind s.txns x with
    | some t => if t.op == .store then s else if t.allIn then s.complete x t else s.partReply x t
    | none => s)

/-- STORE_ACK (R222, R249). -/
def execStoreAck (x : Nat) (s : State) : Host.Outcome State Fault Refusal :=
  .next (match tfind s.txns x with
    | some t => if t.op == .store && t.allIn then s.complete x t else s
    | none => s)

/-- WC_DRAIN (R219): a line of the write-combining buffer leaves for its home; when it reaches it, its stores are acknowledged. -/
def execWcDrain (cl line : Nat) (s : State) : Host.Outcome State Fault Refusal :=
  .next (if (tget {} (s.clusterOf cl).wc line).leaving then s.drainLine cl line else s.sendDrain cl line)

end Sys2Proof.Machine
end

