-- ==== Sys2Proof/Machine/Memory.lean ====
section
/-! DEFINITION. The memory instructions (R211 to R235): region loads and stores, prefetch, window accesses, address conversions,
banks and FIFOs, and `waitc`. -/

namespace Sys2Proof.Machine

/-! ### Region accesses (R224 to R226) -/

/-- The element of n bytes that registers from d hold in a lane. -/
def Group.element (g : Group) (d n l : Nat) : Nat :=
  ((List.range (wordsOf n)).map (fun i => (g.reg (d + i) l).toNat * 2 ^ (32 * i))).sum

/-- The registers of an element. -/
def wordRegs (d n : Nat) : List Nat := (List.range (wordsOf n)).map (d + ·)

/-- The access of the issuing fragment, without its lanes. -/
def State.txn (s : State) (op : AccOp) (bytes cls region : Nat) (r : Region) : Txn :=
  { group := s.cur, team := s.grp.team, cluster := s.team.cluster, frag := s.grp.cur.id, op, bytes, cls, kind := r.kind, region,
    mode := s.grp.cur.mode, issued := s.cycle,
    grant := r.kind == .c && !(tget ({} : Predictor) s.team.predictor region).home }

/-- The pieces of an access through a register, lanes ascending (R221). -/
def State.regionPieces (s : State) (r : Region) (n : Nat) (offs : List (Nat × Nat)) (f h : Nat → Nat) : List LaneAcc :=
  offs.flatMap (fun (l, o) => lanePieces (tget [] s.pins r.handle) l (r.base + o) n (f l % 256 ^ n) (h l % 256 ^ n))

/-- `ld` (R224). -/
def execLd (d : BitVec 6) (g : BitVec 5) (a : BitVec 6) (k : BitVec 2) (z : BitVec 3) (h : BitVec 1) (s : State) :
    Host.Outcome State Fault Refusal :=
  let n := 2 ^ z.toNat
  let r := s.region g.toNat
  let u : Use :=
    { cls := k.toNat, srcs := (128 + g.toNat) :: regs true a.toNat, dsts := wordRegs d.toNat n }
  s.run u (fun io =>
    if s.memoryHeld then s.stand
    else
      let offs := io.see.offsets a.toNat io.t
      match (regionCheck r s.grp.pos false false).orElse (fun _ => boundsCheck r n offs) with
      | some (c, x) => s.trap c x
      | none =>
        let t := { s.txn .load n k.toNat g.toNat r with
          dst := d.toNat, counter := some 0, nalloc := h == 1, lanes := s.regionPieces r n offs (fun _ => 0) (fun _ => 0) }
        if io.t = 0 then s.finish u io s.grp
        else if s.accessHeld t then s.stand
        else s.issueAccess u io t)

/-- `st` (R225). -/
def execSt (d : BitVec 6) (g : BitVec 5) (a : BitVec 6) (k : BitVec 2) (z : BitVec 3) (h : BitVec 1) (s : State) :
    Host.Outcome State Fault Refusal :=
  let n := 2 ^ z.toNat
  let r := s.region g.toNat
  let u : Use :=
    { cls := k.toNat, srcs := wordRegs d.toNat n ++ (128 + g.toNat) :: regs true a.toNat }
  s.run u (fun io =>
    if s.memoryHeld then s.stand
    else
      let offs := io.see.offsets a.toNat io.t
      match (regionCheck r s.grp.pos true false).orElse (fun _ => boundsCheck r n offs) with
      | some (c, x) => s.trap c x
      | none =>
        let t := { s.txn .store n k.toNat g.toNat r with
          counter := some 1, nalloc := h == 1
          lanes := s.regionPieces r n offs (io.see.element d.toNat n) (fun _ => 0) }
        if io.t = 0 then s.finish u io s.grp
        else if s.accessHeld t then s.stand
        else s.issueAccess u io t)

/-- `pref` (R226): never traps at execution, and has no effect where the check fails. -/
def execPref (g : BitVec 5) (a : BitVec 6) (k : BitVec 2) (h : BitVec 1) (s : State) : Host.Outcome State Fault Refusal :=
  let r := s.region g.toNat
  let u : Use := { cls := k.toNat, srcs := (128 + g.toNat) :: regs true a.toNat }
  s.run u (fun io =>
    if s.memoryHeld then s.stand
    else
      let offs := io.see.offsets a.toNat io.t
      let t := { s.txn .prefetch 1 k.toNat g.toNat r with
        counter := some 5, nalloc := h == 1
        lanes := (s.regionPieces r 1 offs (fun _ => 0) (fun _ => 0)).filter (·.normal) }
      if (regionCheck r s.grp.pos false false).isSome || (boundsCheck r 1 offs).isSome || t.lanes.isEmpty then s.finish u io s.grp
      else if s.accessHeld t then s.stand
      else s.issueAccess u io t)

/-! ### Windows (R214, R215, R227, R91) -/

/-- The key of the group at a position of a team. -/
def groupKey (team pos : Nat) : Nat := 16 * team + pos

/-- n bytes at an offset lie inside one piece of the local window. -/
def Team.inLocal (t : Team) (o n : Nat) : Bool :=
  (decide (o / 0x2000 < t.size) && decide (o < 0x20000) && decide (o % 0x2000 + n ≤ 0x1E00)) ||
    (decide (0x20000 ≤ o) && decide (o + n ≤ 0x20000 + t.scr))

/-- n bytes at an offset lie inside one piece of the cluster window. -/
def Team.inBanks (t : Team) (o n : Nat) : Bool :=
  decide (o % 0x4000 + n ≤ 0x4000) && ((t.banks[o / 0x4000]?).map (fun b => b.mode == .scratch)).getD false

/-- A byte of a team's local window. -/
def State.localByte (s : State) (team o : Nat) : Byte :=
  if o < 0x20000 then
    let w := o % 0x2000 / 4
    ((((s.group (groupKey team (o / 0x2000))).reg (w / 32) (w % 32)) >>> (8 * (o % 4))).setWidth 8)
  else tget 0 (s.teamOf team).scratch (o - 0x20000)

def State.setLocalByte (s : State) (team o : Nat) (b : Byte) : State :=
  if o < 0x20000 then
    let k := groupKey team (o / 0x2000)
    let w := o % 0x2000 / 4
    let g := s.group k
    let old := g.reg (w / 32) (w % 32)
    let sh := 8 * (o % 4)
    s.putGroup k { g with regs := mset 0 g.regs w ((old &&& ~~~(0xFF#32 <<< sh)) ||| (b.setWidth 32 <<< sh)) }
  else
    let t := s.teamOf team
    s.putTeam team { t with scratch := mset 0 t.scratch (o - 0x20000) b }

/-- A byte of a team's cluster window. -/
def Team.bankByte (t : Team) (o : Nat) : Byte := ((t.banks[o / 0x4000]?).map (fun b => tget 0 b.data (o % 0x4000))).getD 0

def Team.setBankByte (t : Team) (o : Nat) (x : Byte) : Team :=
  { t with banks := t.banks.modify (o / 0x4000) (fun b => { b with data := mset 0 b.data (o % 0x4000) x }) }

/-- n bytes of a window: the local one or the cluster one. -/
def State.windowLe (s : State) (loc : Bool) (team o : Nat) : Nat → Nat
  | 0 => 0
  | n + 1 => (if loc then s.localByte team o else (s.teamOf team).bankByte o).toNat + 256 * s.windowLe loc team (o + 1) n

def State.setWindowLe (s : State) (loc : Bool) (team o v : Nat) : Nat → State
  | 0 => s
  | n + 1 =>
    let s1 := s.setWindowLe loc team (o + 1) (v / 256) n
    let b : Byte := BitVec.ofNat 8 v
    if loc then s1.setLocalByte team o b else s1.putTeam team ((s1.teamOf team).setBankByte o b)

/-- Words of a window that n bytes at an offset touch. -/
def wordsAt (o n : Nat) : List Nat := (List.range ((o % 4 + n + 3) / 4)).map (o / 4 + ·)

/-- A word of a team's window holds poisoned data (R417). -/
def State.wordBad (s : State) (loc : Bool) (team w : Nat) : Bool :=
  if loc && decide (w < 0x8000) then (s.group (groupKey team (w / 0x800))).bad.contains (w % 0x800)
  else (s.teamOf team).soft.contains (if loc then 2 * (w - 0x8000) else 2 * w + 1)

/-- Set or clear the poison of a word of a team's window (R417). -/
def State.markWord (s : State) (loc : Bool) (team : Nat) (on : Bool) (w : Nat) : State :=
  if !on && !s.wordBad loc team w then s
  else
    let mark := fun (xs : List Nat) (k : Nat) => xs.filter (· != k) ++ (if on then [k] else [])
    if loc && decide (w < 0x8000) then
      let k := groupKey team (w / 0x800)
      if s.hasGroup k then s.putGroup k { s.group k with bad := mark (s.group k).bad (w % 0x800) } else s
    else if (s.teamOf team).st == .absent then s
    else s.putTeam team { s.teamOf team with soft := mark (s.teamOf team).soft (if loc then 2 * (w - 0x8000) else 2 * w + 1) }

/-- A write of n bytes of a window clears the poison of the words that it covers whole (R417). -/
def State.cleanWords (s : State) (loc : Bool) (team o n : Nat) : State :=
  ((wordsAt o n).filter (fun w => decide (o ≤ 4 * w) && decide (4 * w + 4 ≤ o + n))).foldl (fun s' w => s'.markWord loc team false w) s

/-- Some of n bytes of a window are poisoned. -/
def State.bytesBad (s : State) (loc : Bool) (team o n : Nat) : Bool := (wordsAt o n).any (s.wordBad loc team)

/-- Registers of the issuing group's own window that n bytes at an offset touch. -/
def State.ownWords (s : State) (o n : Nat) : List Nat :=
  if o < 0x20000 ∧ o / 0x2000 = s.grp.pos then
    (List.range (n / 128 + 2)).map (fun i => min (o % 0x2000 / 128 + i) ((o % 0x2000 + n - 1) / 128)) |>.eraseDups
  else []

/-- Lanes of register r in the issuing group's own window that n bytes at an offset touch. -/
def State.ownLanes (s : State) (o n r : Nat) : Mask :=
  if o < 0x20000 ∧ o / 0x2000 = s.grp.pos then
    maskOf ((List.range 32).filter (fun l => decide (128 * r + 4 * l < o % 0x2000 + n) && decide (o % 0x2000 < 128 * r + 4 * l + 4)))
  else 0

/-- The first lane whose n bytes leave the window, as R235 reports it. -/
def State.windowCheck (s : State) (loc : Bool) (n : Nat) (offs : List (Nat × Nat)) : Option (Nat × Nat) :=
  (offs.find? (fun (_, o) => !(if loc then s.team.inLocal o n else s.team.inBanks o n))).map
    (fun (l, _) => (0x10, (if loc then 64 else 96) + l))

/-- The generic address of a window offset (R211). -/
def windowAddr (loc : Bool) (o : Nat) : Nat := (if loc then localBase else clusterBase) + o

/-- What holds a window access at issue: a copy's footprint (R298), and instructions that are still to write registers which the
access touches in the group's own window (R91). -/
def State.windowHeld (s : State) (loc write : Bool) (n : Nat) (offs : List (Nat × Nat)) : Bool :=
  let rs := offs.map (fun (_, o) => (windowAddr loc o, n))
  s.memoryHeld || s.grp.footHeld rs (if write then rs else []) ||
    (loc && offs.any (fun (_, o) => (s.ownWords o n).any (fun r => s.grp.busy.any (fun b => b.1 == r))))

/-- The 32-bit window offsets of lanes. -/
def Group.offsets32 (g : Group) (a : Nat) (t : Mask) : List (Nat × Nat) := (lanesOf t).map (fun l => (l, (g.reg a l).toNat))

/-- Write lanes' elements of n bytes to registers from d, zero-extended. -/
def Group.putElements (g : Group) (d n : Nat) (f : Nat → Nat) (ls : List Nat) : Group :=
  ls.foldl (fun g' l => (List.range (wordsOf n)).foldl (fun g2 i => g2.setReg (d + i) l (BitVec.ofNat 32 (f l / 2 ^ (32 * i)))) g') g

/-- `ldl` and `ldc`; poisoned data is not read (R417). -/
def State.windowLoad (s : State) (loc : Bool) (d a : Nat) (z : BitVec 3) : Host.Outcome State Fault Refusal :=
  let n := 2 ^ z.toNat
  let u : Use := { srcs := [a], dsts := wordRegs d n }
  s.run u (fun io =>
    let offs := io.see.offsets32 a io.t
    match s.windowCheck loc n offs with
    | some (c, x) => s.trap c x
    | none =>
      if s.windowHeld loc false n offs then s.stand
      else if offs.any (fun (_, o) => s.bytesBad loc s.grp.team o n) then s.meetBad.stand
      else s.finish u io (s.grp.putElements d n (fun l =>
        s.windowLe loc s.grp.team (io.see.reg a l).toNat n) (lanesOf io.t)))

/-- `stl` and `stc`, lanes ascending (R221). In the lanes of the group's own registers that are so written a later read finds the value of the
store (R91); the counted gap of an earlier producer of the register goes on (R25). The words are written at the issue, also where they
are another group's: its instructions see them from then on, and of two writes the later issue lands last. DESIGN CHOICE, log 22. -/
def State.windowStore (s : State) (loc : Bool) (d a : Nat) (z : BitVec 3) : Host.Outcome State Fault Refusal :=
  let n := 2 ^ z.toNat
  let u : Use := { srcs := wordRegs d n ++ [a] }
  s.run u (fun io =>
    let offs := io.see.offsets32 a io.t
    match s.windowCheck loc n offs with
    | some (c, x) => s.trap c x
    | none =>
      if s.windowHeld loc true n offs then s.stand
      else
        let s1 := offs.foldl (fun s' (l, o) => (s'.setWindowLe loc s.grp.team o (io.see.element d n l) n).cleanWords loc s.grp.team o n) s
        let hit := fun (r : Nat) => if loc then offs.foldl (fun m (_, o) => m ||| s.ownLanes o n r) 0 else 0
        let s2 := s1.setGrp { s1.grp with owed := s1.grp.owed.map (fun e => { e with lanes := e.lanes &&& ~~~(hit e.code) }) }
        s2.finish u io s2.grp)

def execLdl (d a : BitVec 6) (z : BitVec 3) (s : State) : Host.Outcome State Fault Refusal := s.windowLoad true d.toNat a.toNat z
def execStl (d a : BitVec 6) (z : BitVec 3) (s : State) : Host.Outcome State Fault Refusal := s.windowStore true d.toNat a.toNat z
def execLdc (d a : BitVec 6) (z : BitVec 3) (s : State) : Host.Outcome State Fault Refusal := s.windowLoad false d.toNat a.toNat z
def execStc (d a : BitVec 6) (z : BitVec 3) (s : State) : Host.Outcome State Fault Refusal := s.windowStore false d.toNat a.toNat z

/-! ### Address conversions (R228, R229) -/

/-- A generic address as an offset into the aperture at base; outside it, an offset outside both windows. -/
def toOffset (base a : Nat) : Nat := if base ≤ a ∧ a < base + 2 ^ 32 then a - base else 0xFFFFFFFF

/-- `cvta` with a pair on one side. -/
def State.cvta (s : State) (st : BitVec 3) (d a : Nat) (ws wd : Bool) (f : Nat → Nat) : Host.Outcome State Fault Refusal :=
  let u : Use := { stall := st.toNat, lat := 2, srcs := regs ws a, dsts := regs wd d }
  s.lanewise u wd d (fun see l => (f (see.val ws a l), []))

def execCvtaGl (st : BitVec 3) (d a : BitVec 6) (s : State) : Host.Outcome State Fault Refusal :=
  s.cvta st d.toNat a.toNat true false (toOffset localBase)

def execCvtaGc (st : BitVec 3) (d a : BitVec 6) (s : State) : Host.Outcome State Fault Refusal :=
  s.cvta st d.toNat a.toNat true false (toOffset clusterBase)

def execCvtaLg (st : BitVec 3) (d a : BitVec 6) (s : State) : Host.Outcome State Fault Refusal :=
  s.cvta st d.toNat a.toNat false true (localBase + ·)

def execCvtaCg (st : BitVec 3) (d a : BitVec 6) (s : State) : Host.Outcome State Fault Refusal :=
  s.cvta st d.toNat a.toNat false true (clusterBase + ·)

/-- `inap`. -/
def State.inap (s : State) (st : BitVec 3) (d a : Nat) (ap : Aperture) : Host.Outcome State Fault Refusal :=
  let u : Use := { stall := st.toNat, lat := 1, srcs := regs true a, dsts := [64 + d] }
  s.predwise u d (fun see l => (aperture (see.val true a l) == ap, []))

def execInapGlobal (st : BitVec 3) (d a : BitVec 6) (s : State) : Host.Outcome State Fault Refusal :=
  s.inap st d.toNat a.toNat .global

def execInapPeer (st : BitVec 3) (d a : BitVec 6) (s : State) : Host.Outcome State Fault Refusal :=
  s.inap st d.toNat a.toNat .peer

def execInapCluster (st : BitVec 3) (d a : BitVec 6) (s : State) : Host.Outcome State Fault Refusal :=
  s.inap st d.toNat a.toNat .cluster

def execInapLocal (st : BitVec 3) (d a : BitVec 6) (s : State) : Host.Outcome State Fault Refusal :=
  s.inap st d.toNat a.toNat .local_

/-! ### Banks and FIFOs (R213, R216, R217, R230 to R233) -/

/-- A mode of a bank by its number. -/
def bankMode (m : Nat) : BankMode := if m = 0 then .scratch else if m = 1 then .cacheWay else .fifo

/-- With no bank left in cache-way mode every line leaves the cluster's cache (R217). DESIGN CHOICE, log 20. -/
def State.emptyCache (s : State) (cl : Nat) : State :=
  let lines := (((s.clusterOf cl).cache.filter (fun (_, b) => b.commons)).map (fun (a, _) => lineOf a)).eraseDups
  let s1 := lines.foldl (fun s' l => s'.evict cl l) s
  (s1.writeBackBytes cl (fun _ _ => true)).dropBytes cl (fun _ _ => true)

/-- A cluster that has no cache way left empties its cache. -/
def State.settleWays (s : State) (cl : Nat) : State :=
  if s.cacheWays cl = 0 ∧ !(s.clusterOf cl).cache.isEmpty then s.emptyCache cl else s

/-- Move bank bk of the issuing team to a mode (R216). -/
def State.setBank (s : State) (bk : Nat) (m : BankMode) : State :=
  let t := s.team
  if ((t.banks[bk]?).map (·.mode)) = some m then s
  else
    let s1 := s.setTeam { t with banks := t.banks.set bk { mode := m } }
    s1.settleWays t.cluster

/-- A copy of the team has bytes in the cluster window. DEDUCED, log 22. -/
def State.copiesInBanks (s : State) : Bool :=
  s.groups.any (fun (_, g) => g.team == s.grp.team && g.foot.any (fun f => decide (clusterBase ≤ f.base) && decide (f.base < localBase)))

/-- The FIFO bank that `fput` and `fget` name, or their trap. -/
def State.fifoBank (s : State) (bk : Nat) : Except (Nat × Nat) Bank :=
  match s.team.banks[bk]? with
  | none => .error (0x11, 7)
  | some b => if b.mode == .fifo then .ok b else .error (0x11, 8)

def State.setBankOf (s : State) (bk : Nat) (b : Bank) : State := s.setTeam { s.team with banks := s.team.banks.set bk b }

/-- The fragment of an `fput` or `fget` that has taken effect goes on at the next word; what it kept busy is free. -/
def Group.endFifoWait (g : Group) (n : Nat) : Group :=
  let go := fun (f : Frag) => if f.wait == .fifo n then { f with pc := f.pc + 4, wait := .none } else f
  let g1 := g.freeBusy n
  { g1 with cur := go g1.cur, rest := g1.rest.map go }.keepSelect

/-- The first `fput` that waits takes effect: its words enter the FIFO (R231). -/
def Bank.put (b : Bank) (x : FifoOp) : Bank := { b with puts := b.puts.erase x, fifo := b.fifo ++ x.words }

/-- The first `fget` that waits takes effect: the oldest entries leave the FIFO (R232). -/
def Bank.get (b : Bank) (x : FifoOp) : Bank :=
  let n := (lanesOf x.lanes).length
  { b with gets := b.gets.erase x, fifo := b.fifo.drop n, head := (b.head + n) % 4096 }

/-- The words of a bank that hold n entries of its FIFO from a place on (R231). -/
def fifoWords (bk at_ n : Nat) : List Nat := (List.range n).map (fun i => 4096 * bk + (at_ + i) % 4096)

/-- Some of the entries are poisoned; new entries are not (R417). -/
def State.fifoBad (s : State) (team bk at_ n : Nat) : Bool := (fifoWords bk at_ n).any (s.wordBad false team)
def State.cleanFifo (s : State) (team bk at_ n : Nat) : State :=
  (fifoWords bk at_ n).foldl (fun s' w => s'.markWord false team false w) s

/-- Serve the instructions that wait on bank bk of a team, each queue in its order (R233), until neither queue's first one can go on. -/
def State.serveFifo (s : State) (team bk : Nat) : Nat → State
  | 0 => s
  | n + 1 =>
    let t := s.teamOf team
    let b0 : Bank := t.banks.getD bk {}
    let b := { b0 with puts := b0.puts.filter s.stillWaits, gets := b0.gets.filter s.stillWaits }
    let into := fun (b1 : Bank) => s.putTeam team { t with banks := t.banks.set bk b1 }
    match b.gets.head?.filter (fun x => decide ((lanesOf x.lanes).length ≤ b.fifo.length)),
        b.puts.head?.filter (fun x => decide (b.fifo.length + x.words.length ≤ 4096)) with
    | some x, _ =>
      if s.fifoBad team bk b.head (lanesOf x.lanes).length then
        s.stopDomain (t.ctx, (s.launchOf t.launch).lcb.fdom)
      else
      let g := ((lanesOf x.lanes).zip b.fifo).foldl (fun g' (l, w) => g'.setReg x.dst l w) (s.group x.group)
      ((into (b.get x)).putGroup x.group (g.endFifoWait x.id)).serveFifo team bk n
    | none, some x => (((into (b.put x)).cleanFifo team bk (b.head + b.fifo.length) x.words.length).putGroup x.group
        ((s.group x.group).endFifoWait x.id)).serveFifo team bk n
    | none, none => into b

/-- Every instruction that waits on a bank of the issuing team and can go on does. -/
def State.serveBank (s : State) (bk : Nat) : State :=
  let b : Bank := s.team.banks.getD bk {}
  let s1 := s.serveFifo s.grp.team bk (b.puts.length + b.gets.length + 1)
  { s1 with stalled := [] }

/-- The group whose instruction waits where it is: the lanes that act stay at its word, those that park are left behind (R162). -/
def Group.proceedWait (g : Group) (io : Issue) (w : Wait) : Group :=
  if io.w = 0 then { g with cur := { g.cur with wait := w } }.keepSelect
  else
    let g1 := g.divide (g.cur.pc + 4) [{ mask := g.cur.mask &&& ~~~io.w, pc := g.cur.pc, depth := g.cur.depth },
      { mask := io.w, pc := g.cur.pc, depth := g.cur.depth, st := .parked }]
    let mark := fun (f : Frag) =>
      if f.mask == io.w then { f with wait := .carry io.needs } else if f.mask == (g.cur.mask &&& ~~~io.w) then { f with wait := w } else f
    { g1 with cur := mark g1.cur, rest := g1.rest.map mark }.keepSelect

/-- The issuing fragment waits in its `fput` or `fget`, which has read its operands and keeps what it is to write busy (R26); the group's
other fragments go on. DEDUCED, log 29. -/
def State.fifoWait (s : State) (u : Use) (io : Issue) (codes : List Nat) : State :=
  let n := s.nextId
  let g := { s.grp with busy := s.grp.busy ++ codes.map (fun c => (c, n)) }
  { s with nextId := n + 1 }.settle u io (g.proceedWait io (.fifo n)) []

/-- A wait on a FIFO is withdrawn: the fragment stays at its instruction, and what it kept busy is free. -/
def Group.dropFifoWait (g : Group) (n : Nat) : Group :=
  let back := fun (f : Frag) => if f.wait == .fifo n then { f with wait := .none } else f
  let g1 := g.freeBusy n
  { g1 with cur := back g1.cur, rest := g1.rest.map back }.keepSelect

/-- End the `fput` or `fget` of a fragment with a trap (R230); while another fragment of its group is trapped, it stays at its
instruction. -/
def State.endFifo (s : State) (x : FifoOp) : State :=
  let g := s.group x.group
  match s.fifoFrag x with
  | none => s
  | some f =>
    if g.record.isSome then s.putGroup x.group (g.dropFifoWait x.id)
    else
      let s1 := s.putGroup x.group ((g.freeBusy x.id).choose f { f with wait := .none })
      { ({ s1 with cur := x.group }.trap 0x11 8) with cur := s.cur }

/-- `bankset` (R230): waiting `fput` and `fget` on a bank whose mode changes end with a trap. -/
def execBankset (a b : BitVec 6) (s : State) : Host.Outcome State Fault Refusal :=
  let u : Use := { srcs := [a.toNat, b.toNat] }
  s.run u (fun io =>
    if io.t = 0 then s.finish u io s.grp
    else
      let bk := (io.see.reg a.toNat (lowest io.t)).toNat
      let m := (io.see.reg b.toNat (lowest io.t)).toNat
      if s.team.banks.length ≤ bk ∨ 2 < m then s.trap 0x11 7
      else if s.memoryHeld || s.copiesInBanks then s.stand
      else
        let old : Bank := s.team.banks.getD bk {}
        let s1 := (s.finish u io s.grp).setBank bk (bankMode m)
        if old.mode == bankMode m then s1 else (old.puts ++ old.gets).foldl State.endFifo s1)

/-- `fput` (R231): with room and no earlier `fput` waiting it takes effect at once, otherwise it waits. -/
def execFput (a b : BitVec 6) (s : State) : Host.Outcome State Fault Refusal :=
  let u : Use := { srcs := [a.toNat, b.toNat] }
  s.run u (fun io =>
    if io.t = 0 then s.finish u io s.grp
    else
      let bk := (io.see.reg a.toNat (lowest io.t)).toNat
      match s.fifoBank bk with
      | .error (c, x) => s.trap c x
      | .ok bank =>
        let words := (lanesOf io.t).map (io.see.reg b.toNat)
        if s.memoryHeld then s.stand
        else if !bank.puts.any s.stillWaits && decide (bank.fifo.length + words.length ≤ 4096) then
          (((s.finish u io s.grp).setBankOf bk { bank with fifo := bank.fifo ++ words }).cleanFifo s.grp.team bk
            (bank.head + bank.fifo.length) words.length).serveBank bk
        else (s.fifoWait u io []).setBankOf bk
          { bank with puts := bank.puts.filter s.stillWaits ++ [{ group := s.cur, id := s.nextId, lanes := io.t, words }] })

/-- `fget` (R232): with the entries present and no earlier `fget` waiting it takes effect at once, otherwise it waits. -/
def execFget (d a : BitVec 6) (s : State) : Host.Outcome State Fault Refusal :=
  let u : Use := { srcs := [a.toNat], dsts := [d.toNat] }
  s.run u (fun io =>
    if io.t = 0 then s.finish u io s.grp
    else
      let bk := (io.see.reg a.toNat (lowest io.t)).toNat
      match s.fifoBank bk with
      | .error (c, x) => s.trap c x
      | .ok bank =>
        let ls := lanesOf io.t
        let x : FifoOp := { group := s.cur, id := s.nextId, lanes := io.t, dst := d.toNat }
        if s.memoryHeld then s.stand
        else if !bank.gets.any s.stillWaits && decide (ls.length ≤ bank.fifo.length) then
          if s.fifoBad s.grp.team bk bank.head ls.length then s.meetBad.stand
          else
          let g := (ls.zip bank.fifo).foldl (fun g' (l, w) => g'.setReg d.toNat l w) s.grp
          ((s.finish u io g).setBankOf bk (bank.get x)).serveBank bk
        else (s.fifoWait u io [d.toNat]).setBankOf bk { bank with gets := bank.gets.filter s.stillWaits ++ [x] })

/-! ### Completion (R234, R219) -/

/-- Write-combining lines that hold stores of the issuing group are to drain. -/
def State.drainWc (s : State) : State :=
  s.cluster.wc.foldl (fun s' (n, l) =>
    if l.groups.contains s.cur && !l.leaving && !s'.agenda.contains (.wcDrain s.team.cluster n) then s'.owe (.wcDrain s.team.cluster n) else s') s

/-- `waitc` (R234). -/
def execWaitc (m : BitVec 6) (s : State) : Host.Outcome State Fault Refusal :=
  let u : Use := { guarded := false }
  s.run u (fun io =>
    if (List.range 6).all (fun c => !m.getLsbD c || s.inFlight c == 0) then s.finish u io s.grp
    else (if m.getLsbD 1 then s.drainWc else s).stand)

end Sys2Proof.Machine
end

