-- ==== Sys2Proof/Machine/Remote.lean ====
section
/-! DEFINITION. The remote instructions `rld`, `rst` and `ratm` (R255 to R259): one access per lane, performed at the copy of a
peer-symmetric region on the device that the lane names, in passes of one device each. -/

namespace Sys2Proof.Machine

/-- The devices of the issuing context's job (R243, R255). -/
def State.inJob (s : State) (d : Nat) : Bool :=
  let c := s.team.ctx
  d == s.ownNum || (bit (s.ctxField c 0x14 4) 1 && s.topo.devNum.isSome && decide (d ≤ 511) &&
    bit (readByte s.mem (s.ctxField c 0x18 8 + d / 8)).toNat (d % 8))

/-- Does a symmetric-borrow entry match a register (R378)? -/
def Sym.matches_ (y : Sym) (r : Region) : Bool := y.kind == r.kind && y.base == r.base && y.len == r.len && r.kind != .empty

/-- The pages of the job's borrow for a register on a device, as locations; none where the job holds no borrow there. Another
device's memory is of normal type (R252). -/
def State.symPages (s : State) (d : Nat) (r : Region) : Option (List PagePin) :=
  if d = s.ownNum then (s.ctx.syms.find? (fun (_, y) => y.matches_ r)).map (fun (_, y) => tget [] s.pins y.handle)
  else
    let p := s.peer d
    if p.syms.any (·.matches_ r) then
      some ((p.pages.filter (fun q => q.ctx == s.team.ctx)).map (fun q => { q with pa := peerLoc d q.pa, ptype := 0 }))
    else none

/-- One pass: the lanes that name one device (R258). -/
def State.remotePass (s : State) (t : Txn) (r : Region) (d : Nat) (offs : List (Nat × Nat)) (f h : Nat → Nat) : Txn :=
  let pages := s.symPages d r
  let ls := offs.flatMap (fun (l, o) =>
    (lanePieces (pages.getD []) l (r.base + o) t.bytes (f l) (h l)).map (fun p =>
      if d ≠ s.ownNum ∧ p.loc < 2 ^ 60 then { p with loc := peerLoc d p.loc } else p))
  { t with dev := some d, lanes := ls,
           noBorrow := !((pages.map (fun ps => ls.all (fun p => (pinFind ps p.va).isSome))).getD false) }

/-- The checks of R257. -/
def State.remoteCheck (s : State) (r : Region) (op : AccOp) (n : Nat) (offs : List (Nat × Nat)) (dev : Nat → Nat) :
    Option (Nat × Nat) :=
  let atomic := op != .load && op != .store
  (regionCheck r s.grp.pos (op == .store) atomic).orElse fun _ =>
  (boundsCheck r n offs).orElse fun _ =>
  if !r.peer then some (0x11, 9)
  else
    ((if atomic then (offs.find? (fun (_, o) => o % n != 0)).map (fun (l, _) => (0x10, 128 + l)) else none)).orElse fun _ =>
    (offs.find? (fun (l, _) => !s.inJob (dev l))).map (fun (l, _) => (0x18, l))

/-- One pass leaves: its access, its counter, its destinations, and its request. -/
def State.sendPass (s : State) (t : Txn) : State :=
  let id := s.nextId
  let g := s.grp.noteWrites t
  let g1 := { g with busy := g.busy ++
    (if t.op.returns then (List.range (wordsOf t.bytes)).map (fun i => (t.dst + i, id)) else []) }
  let g2 := match t.counter with | some c => g1.countUp c | none => g1
  { (s.setGrp g2) with txns := tput s.txns id t, nextId := id + 1 }.depart id

/-- A remote instruction: column and entry of its element types (R45). -/
def State.remote (s : State) (op : AccOp) (column : Nat) (entry : List Nat) (d p o : Nat) (k : BitVec 2) (g : BitVec 3) :
    Host.Outcome State Fault Refusal :=
  let wide := s.wide
  let n := if wide then 8 else 4
  let w := if wide then 2 else 1
  let r := s.region (24 + g.toNat)
  let cas := op == .cas
  let u : Use :=
    { cls := k.toNat
      step6 := etCheck column entry s.et
      step7 := if cas then (if wide then !(d % 4 == 0 && decide (d ≤ 56)) else !isPair d) else wide && !isPair d
      srcs := (if op == .load then [] else (List.range (if cas then 2 * w else w)).map (d + ·)) ++
        p :: regs true o ++ [128 + 24 + g.toNat]
      dsts := if op == .store then [] else regs wide d }
  s.run u (fun io =>
    if s.memoryHeld then s.stand
    else
      let offs := io.see.offsets o io.t
      let dev := fun (l : Nat) => (io.see.reg p l).toNat
      match s.remoteCheck r op n offs dev with
      | some (c, x) => s.trap c x
      | none =>
        let ctr := if op == .store then 1 else 0
        let t := { s.txn op n k.toNat (24 + g.toNat) r with
          remote := true, dst := d, counter := some ctr, nalloc := true, grant := false, first := s.nextId }
        let devs := (offs.map (fun x => dev x.1)).eraseDups
        let passes := devs.zipIdx.map (fun (v, i) =>
          s.remotePass { t with issued := s.cycle + 2 * i } r v (offs.filter (fun x => dev x.1 == v))
            (io.see.val wide d) (io.see.val wide (d + w)))
        let rs := offs.map (fun (_, x) => (r.base + x, n))
        if io.t = 0 then s.finish u io s.grp
        else if passes.any s.lineHeld || (passes.any (fun p => p.lanes.any (fun q => q.ptype == 3)) && !s.allQuiet) ||
            decide (63 < tget 0 s.grp.count ctr + passes.length) ||
            s.grp.footHeld (if op == .store then [] else rs) (if op == .load then [] else rs) then s.stand
        else
          let s1 := passes.foldl State.sendPass s
          let s2 := s1.finish u io s1.grp
          (passes.drop 1).foldl (fun s' _ => s'.pass 0) s2)

/-- `rld` (R256). -/
def execRld (d p o : BitVec 6) (k : BitVec 2) (g : BitVec 3) (s : State) : Host.Outcome State Fault Refusal :=
  s.remote .load 0 allTypes d.toNat p.toNat o.toNat k g

/-- `rst` (R256). -/
def execRst (d p o : BitVec 6) (k : BitVec 2) (g : BitVec 3) (s : State) : Host.Outcome State Fault Refusal :=
  s.remote .store 0 allTypes d.toNat p.toNat o.toNat k g

/-- `ratm.add` (R256). -/
def execRatmAdd (d p o : BitVec 6) (k : BitVec 2) (g : BitVec 3) (s : State) : Host.Outcome State Fault Refusal :=
  s.remote .add 1 scalarInts d.toNat p.toNat o.toNat k g

/-- `ratm.xchg` (R256). -/
def execRatmXchg (d p o : BitVec 6) (k : BitVec 2) (g : BitVec 3) (s : State) : Host.Outcome State Fault Refusal :=
  s.remote .xchg 1 scalarInts d.toNat p.toNat o.toNat k g

/-- `ratm.cas` (R256). DEDUCED, log 27. -/
def execRatmCas (d p o : BitVec 6) (k : BitVec 2) (g : BitVec 3) (s : State) : Host.Outcome State Fault Refusal :=
  s.remote .cas 1 scalarInts d.toNat p.toNat o.toNat k g

end Sys2Proof.Machine
end

