-- ==== Sys2Proof/Machine/Commons.lean ====
section
/-! DEFINITION. The commons instructions (R283 to R290), releases and sweeps (R275 to R279), and the commons protocol's messages
(R266, R271 to R274). -/

namespace Sys2Proof.Machine

/-! ### Sweeps -/

/-- Start a sweep for the issuing group over some scopes (R278). The fragment waits for it, as `w` says. -/
def State.startSweep (s : State) (scopes : List Scope) (writes : List CommonsWrite) (w : Wait) : State :=
  let id := s.nextId
  let s1 := s.sendMarkers { group := s.cur, writes, scopes } s.team.cluster (s.sweepTargets s.team.ctx scopes)
  (s1.setGrp { s1.grp with sweeping := some id }).stand w

/-- The sweep that the group waits for. -/
def State.sweepOf (s : State) : Sweep := tget {} s.sweeps (s.grp.sweeping.getD 0)

/-- The sweep that the group waits for has ended. -/
def State.swept (s : State) : Option Bool := s.grp.sweeping.map (fun _ => s.sweepOf.owing.isEmpty)

/-- The scope that the cluster's table holds for a line; spread 3 where it holds none (R277). -/
def State.tableScope (s : State) (line : Nat) : Scope :=
  ((s.cluster.sync.find? (fun v => v.line == line)).map (·.scope)).getD { anchor := s.clusterKey s.team.cluster, spread := 3 }

/-- The scope that a release carries: that of its line, or spread 3 where its lanes' lines disagree. -/
def State.releaseScope (s : State) (lanes : List LaneAcc) : Scope :=
  match ((lanes.map (fun p => s.tableScope (lineOf p.loc))).eraseDups) with
  | [k] => k
  | _ => { anchor := s.clusterKey s.team.cluster, spread := 3 }

/-- The counters that a release waits for are zero: GL, GS, LW, CW and CP (R279). -/
def State.quiet (s : State) : Bool := (List.range 5).all (fun c => s.inFlight c == 0)

/-! ### The instructions -/

/-- The alignment check of R284. -/
def alignCheck (n : Nat) (offs : List (Nat × Nat)) : Option (Nat × Nat) :=
  (offs.find? (fun (_, o) => o % n != 0)).map (fun (l, _) => (0x10, 128 + l))

/-- The recorded scopes that an owner sweeps before it performs a release: those of the lines that the cluster serves, where no swept scope
contains them (R279). -/
def State.ownerScopes (s : State) (t : Txn) (swept : List Scope) : List Scope :=
  ((t.lanes.filter (fun p => !(s.leaving t).contains (lineOf p.loc))).filterMap (fun p => (s.cat (lineOf p.loc)).scope)).eraseDups.filter
    (fun a => !swept.any a.within)

/-- Issue a commons access; a release first waits for the group's accesses and its sweep, and carries the scope that it swept (R279). -/
def State.issueCommons (s : State) (u : Use) (io : Issue) (t : Txn) : State :=
  if s.accessHeld t then s.stand
  else if !t.release then s.issueAccess u io t
  else if !s.quiet then s.drainWc.stand
  else
    match s.swept with
    | some true =>
      let s1 := { s with sweeps := tdel s.sweeps (s.grp.sweeping.getD 0) }
      let more := s.ownerScopes t s.sweepOf.scopes
      if more.isEmpty then s1.issueAccess u io { t with carried := s.sweepOf.scopes.head? }
      else s1.startSweep (s.sweepOf.scopes ++ more) [] .slot
    | some false => s.stand
    | none =>
      let scope := s.releaseScope t.lanes
      let more := s.ownerScopes t [scope]
      if scope.spread = 0 && more.isEmpty then s.issueAccess u io { t with carried := some scope } else s.startSweep (scope :: more) [] .slot

/-- A commons access (R283): q is the ordering suffix (0 none, 1 acquire, 2 release, 3 both), entry its element types. -/
def State.commons (s : State) (op : AccOp) (entry : List Nat) (q d : Nat) (g : BitVec 5) (a : Nat) (k : BitVec 2) :
    Host.Outcome State Fault Refusal :=
  let wide := s.wide
  let n := if wide then 8 else 4
  let w := if wide then 2 else 1
  let r := s.region g.toNat
  let cas := op == .cas
  let u : Use :=
    { cls := k.toNat
      step6 := etCheck 0 entry s.et
      step7 := if cas then (if wide then !(d % 4 == 0 && decide (d ≤ 56)) else !isPair d) else wide && !isPair d
      srcs := (if op == .load then [] else (List.range (if cas then 2 * w else w)).map (d + ·)) ++
        (128 + g.toNat) :: regs true a
      dsts := if op == .store then [] else regs wide d }
  s.run u (fun io =>
    if s.memoryHeld then s.stand
    else
      let offs := io.see.offsets a io.t
      match ((regionCheck r s.grp.pos (op != .load) true).orElse (fun _ => boundsCheck r n offs)).orElse
          (fun _ => alignCheck n offs) with
      | some (c, x) => s.trap c x
      | none =>
        if io.t = 0 then s.finish u io s.grp
        else s.issueCommons u io { s.txn op n k.toNat g.toNat r with
          commons := true, dst := d, counter := some (if op == .store then 1 else 0), signed := s.et % 2 == 0
          acquire := q % 2 == 1, release := q / 2 == 1
          lanes := s.regionPieces r n offs (io.see.val wide d) (io.see.val wide (d + w)) })

/-- `aadd` (R286). -/
def execAadd (q : BitVec 2) (d : BitVec 6) (g : BitVec 5) (a : BitVec 6) (k : BitVec 2) (s : State) :
    Host.Outcome State Fault Refusal := s.commons .add scalarInts q.toNat d.toNat g a.toNat k

/-- `asub` (R286). -/
def execAsub (q : BitVec 2) (d : BitVec 6) (g : BitVec 5) (a : BitVec 6) (k : BitVec 2) (s : State) :
    Host.Outcome State Fault Refusal := s.commons .sub scalarInts q.toNat d.toNat g a.toNat k

/-- `amin` (R286). -/
def execAmin (q : BitVec 2) (d : BitVec 6) (g : BitVec 5) (a : BitVec 6) (k : BitVec 2) (s : State) :
    Host.Outcome State Fault Refusal := s.commons .min scalarInts q.toNat d.toNat g a.toNat k

/-- `amax` (R286). -/
def execAmax (q : BitVec 2) (d : BitVec 6) (g : BitVec 5) (a : BitVec 6) (k : BitVec 2) (s : State) :
    Host.Outcome State Fault Refusal := s.commons .max scalarInts q.toNat d.toNat g a.toNat k

/-- `aand` (R286). -/
def execAand (q : BitVec 2) (d : BitVec 6) (g : BitVec 5) (a : BitVec 6) (k : BitVec 2) (s : State) :
    Host.Outcome State Fault Refusal := s.commons .and scalarInts q.toNat d.toNat g a.toNat k

/-- `aor` (R286). -/
def execAor (q : BitVec 2) (d : BitVec 6) (g : BitVec 5) (a : BitVec 6) (k : BitVec 2) (s : State) :
    Host.Outcome State Fault Refusal := s.commons .or scalarInts q.toNat d.toNat g a.toNat k

/-- `axor` (R286). -/
def execAxor (q : BitVec 2) (d : BitVec 6) (g : BitVec 5) (a : BitVec 6) (k : BitVec 2) (s : State) :
    Host.Outcome State Fault Refusal := s.commons .xor scalarInts q.toNat d.toNat g a.toNat k

/-- `axchg` (R286). -/
def execAxchg (q : BitVec 2) (d : BitVec 6) (g : BitVec 5) (a : BitVec 6) (k : BitVec 2) (s : State) :
    Host.Outcome State Fault Refusal := s.commons .xchg allTypes q.toNat d.toNat g a.toNat k

/-- `acas` (R287). DEDUCED, log 27. -/
def execAcas (q : BitVec 2) (d : BitVec 6) (g : BitVec 5) (a : BitVec 6) (k : BitVec 2) (s : State) :
    Host.Outcome State Fault Refusal := s.commons .cas allTypes q.toNat d.toNat g a.toNat k

/-- `ainc` (R286). -/
def execAinc (q : BitVec 2) (d : BitVec 6) (g : BitVec 5) (a : BitVec 6) (k : BitVec 2) (s : State) :
    Host.Outcome State Fault Refusal := s.commons .inc [1, 3] q.toNat d.toNat g a.toNat k

/-- `adec` (R286). -/
def execAdec (q : BitVec 2) (d : BitVec 6) (g : BitVec 5) (a : BitVec 6) (k : BitVec 2) (s : State) :
    Host.Outcome State Fault Refusal := s.commons .dec [1, 3] q.toNat d.toNat g a.toNat k

/-- `afadd` (R286). -/
def execAfadd (q : BitVec 2) (d : BitVec 6) (g : BitVec 5) (a : BitVec 6) (k : BitVec 2) (s : State) :
    Host.Outcome State Fault Refusal := s.commons .fadd [8] q.toNat d.toNat g a.toNat k

/-- `ald` (R288): relaxed or acquire. -/
def execAld (q : BitVec 1) (d : BitVec 6) (g : BitVec 5) (a : BitVec 6) (k : BitVec 2) (s : State) :
    Host.Outcome State Fault Refusal := s.commons .load allTypes q.toNat d.toNat g a.toNat k

/-- `ast` (R288): relaxed or release. -/
def execAst (q : BitVec 1) (d : BitVec 6) (g : BitVec 5) (a : BitVec 6) (k : BitVec 2) (s : State) :
    Host.Outcome State Fault Refusal := s.commons .store allTypes (2 * q.toNat) d.toNat g a.toNat k

/-- The pin and count that a hint leaves (R290). -/
def Predictor.hint (p : Predictor) (h : Nat) : Predictor :=
  if h = 0 then { p with pin := .home } else if h = 1 then { p with pin := .grant } else {}

/-- `ahint` (R290): it never traps at execution. -/
def execAhint (h : BitVec 6) (g : BitVec 5) (s : State) : Host.Outcome State Fault Refusal :=
  let u : Use := { srcs := [128 + g.toNat] }
  s.run u (fun io =>
    let s1 := s.finish u io s.grp
    if io.t = 0 ∨ (regionCheck (s.region g.toNat) s.grp.pos false true).isSome then s1
    else s1.setTeam { s1.team with
      predictor := tput s1.team.predictor g.toNat ((tget {} s1.team.predictor g.toNat).hint h.toNat) })

/-! ### Messages -/

/-- Act on a commons message of a kind, if it is in flight. -/
def State.onC (s : State) (n : Nat) (k : CMsgKind) (act : State → CMsg → State) : Host.Outcome State Fault Refusal :=
  .next (match tfind s.cmsgs n with
    | some m => if m.kind == k then act (s.takeC n) m else s
    | none => s)

/-- INVALIDATE (R266): a C-die's commons agent applies an invalidation to its clusters' caches. -/
def execInvalidate (n : Nat) (s : State) : Host.Outcome State Fault Refusal :=
  s.onC n .invalidate (fun s m => s.applyInvalidate m.line m.die)

/-- The request for which a forward was sent leaves the owner a clean copy: a read without an ordering suffix. -/
def Txn.shares (t : Txn) : Bool := !t.op.writes && t.grant && !t.acquire

/-- FORWARD (R272, R273): the owner gives the line up and answers with its data, or answers GONE where it has evicted it; for a read it keeps
a clean copy. The forward carries the line's recorded scope, if it has one, to the owner's table (R277). -/
def execForward (n : Nat) (s : State) : Host.Outcome State Fault Refusal :=
  s.onC n .forward (fun s m =>
    let c := s.cat m.line
    let held := (s.clusterOf m.cluster).cache.any (fun (a, b) => b.commons && lineOf a == m.line)
    if s.owns m.cluster m.line && held then
      let shared := (tget {} s.txns m.txn).shares
      let mine := (s.clusterOf m.cluster).cache.filter (fun (a, b) => b.commons && lineOf a == m.line)
      let s2 := if shared then s.cleanLine m.cluster m.line else s.dropBytes m.cluster (fun a b => b.commons && lineOf a == m.line)
      let s3 := s2.putCat m.line { c with st := if shared then .sh else .h, copies := if shared then [m.cluster] else [], owner := 0 }
      let s4 := match c.scope with
        | some k => s3.putCluster m.cluster ((s3.clusterOf m.cluster).note m.line k s.cycle)
        | none => s3
      (s4.touch m.line (s.clusterKey m.cluster)).sendC
        { m with kind := .writeBack, answer := true, data := mine.map (fun (a, b) => (a, b.val)) } .writeBack
    else s.sendC { m with kind := .gone } .gone)

/-- GONE (R273): the home waits for the write-back that crosses, or has it already. -/
def execGone (n : Nat) (s : State) : Host.Outcome State Fault Refusal :=
  s.onC n .gone (fun s m =>
    let c := s.cat m.line
    if c.st == .ow && !(s.backsOf m.line).isEmpty then s.putCat m.line { c with gone := true }
    else (if c.st == .ow then s.putCat m.line { c with st := .h, owner := 0 } else s).freeLine m.line)

/-- WRITE_BACK (R273): a whole line arrives at its home, written back or as an owner's answer. -/
def execWriteBack (n : Nat) (s : State) : Host.Outcome State Fault Refusal :=
  s.onC n .writeBack (fun s m => s.landWriteBack n m)

/-- What a device that owned a page writes back when it gives it up: bytes that it may have changed (R271). DESIGN CHOICE, log 18. -/
def State.pageData (s : State) (loc : Nat) : Table Byte :=
  if (s.cat (pageKey loc)).st == .po then
    (List.range 4096).map (fun i => (loc / 4096 * 4096 + i, Config.freeByte (s.free * 4096 + i)))
  else []

/-- Every holder of a page has answered: it is back at its home, and the lines that waited for it go on (R271). -/
def State.pageBack (s : State) (loc : Nat) : State :=
  (pageLines loc).foldl (fun s' l => if (s'.cat l).busy && (s'.cat l).st != .ow then s'.freeLine l else s')
    { s with catalogue := tdel s.catalogue (pageKey loc) }

/-- PAGE_RECALL (R271): a device that holds a page gives it up with what it has written and answers; with the last answer the page is back at
its home. Another device's home recalls a page from this one: the edge proxy gives it up and answers. -/
def execPageRecall (n : Nat) (s : State) : Host.Outcome State Fault Refusal :=
  s.onC n .pageRecall (fun s m =>
    let loc := 128 * m.line
    if (locDev loc).isSome then
      (if m.answer then s
       else ((s.returnPage (loc / 4096)).freeLine m.line).sendC { m with answer := true } .pageRecall)
    else if !m.answer then
      { s with free := s.free + 1 }.sendC { m with answer := true, data := s.pageData loc } .pageRecall
    else
      let s1 := m.data.foldl (fun s' (a, b) => s'.setHomeByte a b) s
      if s1.pageRecalled loc then s1 else s1.pageBack loc)

/-- SWEEP_MARKER (R278): an M-die forwards a marker behind its invalidations to the C-dies of the scope, each in an egress slot (R274); the
agent of a C-die applies every earlier invalidation of that M-die, and acknowledges; another device answers as a whole. -/
def execSweepMarker (n : Nat) (s : State) : Host.Outcome State Fault Refusal :=
  match tfind s.cmsgs n with
  | none => .next s
  | some m =>
    .next (if m.kind != .marker then s
    else if 1000 ≤ m.home then (s.takeC n).sendC { m with kind := .sweepAck } .sweepAck
    else match m.dies with
      | [] => ((s.takeC n).settleDie m.die (some m.home)).sendC { m with kind := .sweepAck } .sweepAck
      | d :: ds =>
        if !s.slotFor m.home none then s.owe (.sweepMarker n)
        else
          let s1 := s.sendC { m with dies := [], die := d } .sweepMarker
          if ds.isEmpty then s1.takeC n else { s1 with cmsgs := tput s1.cmsgs n { m with dies := ds } }.owe (.sweepMarker n))

/-- The acknowledgement that a message is. -/
def CMsg.ackCode (m : CMsg) : Nat := if m.home < 1000 then 512 * m.home + m.die else 2 ^ 20 + (m.home - 1000)

/-- SWEEP_ACK (R278): the last one of a home's own sweep lets the line go on (R279). An acknowledgement for a sweep that nobody waits for
any more is discarded (R281). -/
def execSweepAck (n : Nat) (s : State) : Host.Outcome State Fault Refusal :=
  s.onC n .sweepAck (fun s m =>
    match tfind s.sweeps m.sweep with
    | none => s
    | some w =>
      let left := w.owing.filter (· != m.ackCode)
      let s1 := { s with sweeps := tput s.sweeps m.sweep { w with owing := left } }
      if let some l := w.line then (if left.isEmpty then s1.freeLine l else s1)
      else if left.isEmpty && (s.group w.group).sweeping != some m.sweep then { s with sweeps := tdel s.sweeps m.sweep }
      else s1)

end Sys2Proof.Machine
end

