-- ==== Sys2Proof/Machine/Slips.lean ====
section
/-! DEFINITION. Borrow requests and the call slips that carry them: circulation tables and wait queues, ages, tentative grants and
recalls (R185 to R192), and how a request ends (R202 to R204, R208). A slip
travels in a header flit of the buffered lane (R238, R239). -/

namespace Sys2Proof.Machine

/-! ### Spans -/

/-- A physical range cut at shelf boundaries (R212). -/
def shelvesOf : Nat → Nat → Nat → List (Nat × Nat)
  | 0, _, _ => []
  | fuel + 1, loc, n =>
    if n = 0 then [] else
      let k := min n (65536 - loc % 65536)
      (loc, k) :: shelvesOf fuel (loc + k) (n - k)

/-- The physical spans of a generic range under a list of pages. -/
def pageSpans (pins : List PagePin) (base len : Nat) : List (Nat × Nat) :=
  pins.flatMap (fun p =>
    let lo := max base p.va
    let hi := min (base + len) (p.va + 2 ^ p.bits)
    if hi ≤ lo then [] else shelvesOf (2 ^ p.bits / 65536 + 2) (p.at_ lo) (hi - lo))

/-- Spans by home. -/
def State.partsOf (s : State) (spans : List (Nat × Nat)) : List (Nat × List (Nat × Nat)) :=
  ((spans.map (fun x => s.homeOf x.1)).eraseDups).map (fun h => (h, spans.filter (fun x => s.homeOf x.1 == h)))

/-- Two lists of spans share a line. -/
def spansMeet (a b : List (Nat × Nat)) : Bool := a.any (fun x => b.any (fun y => linesMeet x.1 x.2 y.1 y.2))

/-- Spans without those bytes that lie in another list (trimming). -/
def spansWithout (a b : List (Nat × Nat)) : List (Nat × Nat) :=
  b.foldl (fun xs (c, m) => xs.flatMap (fun (x, n) =>
    (if x < c then [(x, min n (c - x))] else []) ++ (if c + m < x + n then [(max x (c + m), x + n - max x (c + m))] else [])))
    a |>.filter (fun x => x.2 != 0)

/-- The physical spans of a region register. -/
def State.regionSpans (s : State) (r : Region) : List (Nat × Nat) := pageSpans (tget [] s.pins r.handle) r.base r.len

/-! ### Translation of ranges (R195, R254, R431) -/

/-- The pages of [va, stop), ascending, up to the first address for which there is none. -/
def collectPages (page : Nat → Option PagePin) : Nat → Nat → Nat → List PagePin × Option Nat
  | 0, _, _ => ([], none)
  | n + 1, va, stop =>
    if stop ≤ va then ([], none)
    else match page va with
      | none => ([], some va)
      | some p => let q := collectPages page n (p.va + 2 ^ p.bits) stop; (p :: q.1, q.2)

/-- A kind's permission on a page (R195); no commons borrow over the host window (R410). -/
def PagePin.permits (p : PagePin) (k : Kind) : Bool := if k == .s then p.rd else p.w && !(k == .c && isHostWindow p.pa)

/-- The kind of a code of R180. -/
def kindOf (k : Nat) : Kind := if k = 1 then .x else if k = 2 then .s else if k = 3 then .c else .empty

/-- The first page of a list without the permission, as the range's address there. -/
def deniedAt (ps : List PagePin) (k : Kind) (base : Nat) : Option Nat :=
  (ps.find? (fun p => !p.permits k)).map (fun p => max base p.va / 4096 * 4096)

/-- The export record that accepts a request (R431). -/
def exportFor (recs : Table ExportRec) (key rva len : Nat) (k : Kind) : Option ExportRec :=
  (recs.find? (fun (_, e) =>
    let lo := (bits e.lo 63 56 + bits e.hi 43 0 * 2 ^ 8) * 4096
    bit e.lo 0 && bits e.lo 27 8 == key && decide (lo ≤ rva) && decide (rva + len ≤ lo + bits e.lo 55 28 * 4096) &&
      bit e.lo (if k == .s then 2 else 3))).map (·.2)

/-! ### Requests -/

def State.req (s : State) (n : Nat) : Request := tget {} s.reqs n
def State.putReq (s : State) (n : Nat) (r : Request) : State := { s with reqs := tput s.reqs n r }

/-- AGE: CYCLE [33:10] (R187). -/
def ageOf (cycle : Nat) : Nat := bits cycle 33 10

/-- A request has waited more than 2^23 units (R187). -/
def State.overdue (s : State) (r : Request) : Bool := decide (2 ^ 23 < (s.cycle - r.issued) / 1024)

/-- The first request is the older (R187). -/
def State.older (s : State) (q r : Request) : Bool :=
  if s.overdue q != s.overdue r then s.overdue q
  else if q.age ≠ r.age then decide ((r.age + 2 ^ 24 - q.age) % 2 ^ 24 < 2 ^ 23)
  else decide (q.ident < r.ident)

/-- A request of kind k waits for a held, or an older waiting, entry of kind e (R186). -/
def waitsHeld (k e : Kind) : Bool :=
  match k with
  | .x => e != .empty
  | .s => e == .x
  | .c => e == .x || e == .s
  | .empty => false

def waitsOlder (k e : Kind) : Bool :=
  match k with
  | .x => e != .empty
  | .s => e == .x || e == .c
  | .c => e == .x || e == .s
  | .empty => false

/-- The entries at a home that make request n wait (R186). -/
def State.blockers (s : State) (n : Nat) (r : Request) (home : Nat) (spans : List (Nat × Nat)) : List (Nat × Circ) :=
  s.circ.filter (fun (_, e) => e.home == home && e.req != n && spansMeet e.spans spans &&
    (match e.st with
      | .taint => false
      | .waiting => s.older (s.req e.req) r && waitsOlder r.kind e.kind
      | .held | .tentative => waitsHeld r.kind e.kind))

/-- What other parties hold at another device (R252). -/
def State.heldAbroad (s : State) (r : Request) (home : Nat) (spans : List (Nat × Nat)) : Bool :=
  decide (1000 ≤ home) && (s.peer (home - 1000)).holds.any (fun h =>
    waitsHeld r.kind h.2.2 && spans.any (fun x => linesMeet h.1 h.2.1 (x.1 % 2 ^ 60) x.2))

/-- Nothing at the home makes the request wait. -/
def State.grantable (s : State) (n : Nat) (r : Request) (home : Nat) (spans : List (Nat × Nat)) : Bool :=
  (s.blockers n r home spans).isEmpty && !s.heldAbroad r home spans

/-! ### Places (R189, R192) -/

/-- Two S entries over the same part share the entry of a proxy: of one die's, or, for a home on another device, of the device's edge
proxy (R192). -/
def Circ.shares (a b : Circ) : Bool :=
  a.home == b.home && a.kind == .s && b.kind == .s && a.spans == b.spans &&
    ((a.proxy && b.proxy && a.die == b.die) || (a.edge && b.edge))

/-- Entries of a list, those of one proxy counted once. -/
def places : List Circ → Nat
  | [] => 0
  | e :: es => (if es.any e.shares then 0 else 1) + places es

/-- Table places of a home in use; a waiting request takes none. -/
def State.placesUsed (s : State) (home : Nat) : Nat :=
  places ((s.circ.filter (fun (_, e) => e.home == home && e.st != .waiting)).map (·.2))

def State.waitsUsed (s : State) (home : Nat) : Nat := (s.circ.filter (fun (_, e) => e.home == home && e.st == .waiting)).length

/-- Entries of a home's table: a host edge die's is smaller (R410). -/
def tableSize (home : Nat) : Nat := if home = 288 ∨ home = 289 then 4096 else Config.circEntries

/-- Device, die and cluster of a requester; the control complex and tasks stand for themselves (R191, R378). -/
def Request.dev (r : Request) : Nat := r.ident / 2 ^ 40
def Request.die (r : Request) : Nat := r.ident / 2 ^ 24 % 2 ^ 16
def Request.cluster (r : Request) : Nat := r.ident / 2 ^ 8 % 2 ^ 16
def identOf (dev die cluster pos : Nat) : Nat := dev * 2 ^ 40 + die * 2 ^ 24 + cluster * 2 ^ 8 + pos

/-- A proxy takes an S request: it has an entry over the same part that it may still serve, or room for one more among `most`; `mine`
says which entries are the proxy's (R192). -/
def State.proxyTakes (s : State) (mine : Circ → Bool) (most home : Nat) (spans : List (Nat × Nat)) : Bool :=
  let es := s.circ.filter (fun (_, e) => mine e)
  es.any (fun (_, e) => e.home == home && e.spans == spans && e.st != .waiting && !e.hold) || decide (places (es.map (·.2)) < most)

/-- The entry that a request has, or would have, at a home. -/
def State.entryFor (s : State) (n : Nat) (r : Request) (home : Nat) (spans : List (Nat × Nat)) (st : CircState) : Circ :=
  { home, st, kind := r.kind, spans, req := n, ctx := r.ctx, dev := r.dev, die := r.die, cluster := r.cluster, team := r.team
    proxy := r.kind == .s && s.proxyTakes (fun e => e.proxy && e.die == r.die) Config.dieProxyEntries home spans
    edge := r.kind == .s && decide (1000 ≤ home) && s.proxyTakes (·.edge) Config.edgeProxyEntries home spans
    age := r.age, handle := r.handle }

/-- The entry of a request at a home; a taint that its kill left there is nobody's (R198). -/
def State.entryAt (s : State) (n home : Nat) : Option (Nat × Circ) :=
  s.circ.find? (fun (_, e) => e.req == n && e.home == home && e.st != .taint)

/-- Write a request's entry at a home: where it has one, in place. -/
def State.putEntry (s : State) (n home : Nat) (e : Circ) : State :=
  match s.entryAt n home with
  | some (k, _) => { s with circ := tput s.circ k e }
  | none => { s with circ := tput s.circ s.nextId e, nextId := s.nextId + 1 }

def State.dropEntry (s : State) (n home : Nat) : State :=
  { s with circ := s.circ.filter (fun (_, e) => !(e.req == n && e.home == home && e.st != .taint)) }

/-! ### Slips (R191) -/

/-- The event of a slip at its receiver. -/
def slipEvent (ty n : Nat) : Event :=
  if ty = 1 then .req n else if ty = 2 then .grant n else if ty = 3 then .refuse n else if ty = 4 then .recall n
  else if ty = 5 then .giveup n else if ty = 6 then .retSlip n else if ty = 7 then .down n else if ty = 8 then .up n
  else if ty = 9 then .reloc n else if ty = 10 then .hold n else .ack n

def kindCode (k : Kind) : Nat := match k with | .empty => 0 | .x => 1 | .s => 2 | .c => 3

/-- Does the slip travel to a home? -/
def toHome (ty : Nat) : Bool := ty == 1 || ty == 5 || ty == 6 || ty == 7 || ty == 8 || ty == 9

/-- Another device answers (R246). -/
def State.homeAnswers (s : State) (home : Nat) : Bool :=
  decide (home < 1000) || ((tfind s.peers (home - 1000)).map (fun p => !p.silent)).getD false

/-- The slip of a type about request n at a home (R191): a REQ to another device names the import's KEY and the range in the exporter's
addresses (R431), any other slip the HANDLE and the first physical address of the part. -/
def Request.slip (r : Request) (n ty home status : Nat) (tentative wait : Bool) (spans : List (Nat × Nat)) : Slip :=
  let import_ := decide (ty = 1) && decide (1000 ≤ home)
  { ty, status
    flags := kindCode r.kind + (if wait then 4 else 0) + (if tentative then 8 else 0) + (r.ctx / 2 ^ 19 % 2) * 16
    handle := if import_ then r.key % 2 ^ 20 else r.handle % 2 ^ 23
    base := if import_ then r.rva else (spans.headD (0, 0)).1 % 2 ^ 60
    lines := (if import_ then r.len else (spans.map (·.2)).sum) / 128
    age := r.age, dev := r.dev, die := r.die, cluster := r.cluster, ctx := r.ctx % 2 ^ 19, seq := n % 2 ^ 16, spans, req := n, home
    since := match r.purpose with
      | .abroad _ _ => r.age % 2 ^ 16 * 2 ^ 4
      | _ => bits r.issued 25 6 }

/-- The virtual channel of a slip (R239). -/
def slipVc (ty : Nat) : Nat := if ty = 4 ∨ ty = 10 then 2 else if ty = 2 ∨ ty = 3 ∨ ty = 5 ∨ ty = 11 then 1 else 0

/-- The slip comes from another device, about what this device exports (R431), or answers such a one: its home field names this device. -/
def State.foreign (s : State) (x : Slip) : Bool := x.dev != s.ownNum && x.home == 1000 + s.ownNum

/-- A slip in flight travels between its requester and its home: the control complex's requester stands at HE0, this device's edge at FE0,
for another device's requests and between them and their homes here. Its packet's AGE is that of its instruction (R240). DESIGN CHOICE, log 18. -/
def State.sendSlip (s : State) (n : Nat) (x : Slip) : State :=
  let asker := if s.foreign x then (x.dev, 0) else (s.ownNum, if x.dev != s.ownNum then 290 else if x.die < 288 then x.die else 288)
  let home := if s.foreign x then (s.ownNum, 290) else if x.home < 1000 then (s.ownNum, x.home) else (x.home - 1000, 0)
  let age := x.since
  let issuer := (tfind s.reqs x.req).bind (fun r => s.issuerOf r.team)
  if toHome x.ty then s.sendLane (slipVc x.ty) age 0 asker home issuer (slipEvent x.ty n)
  else s.sendLane (slipVc x.ty) age 0 home asker issuer (slipEvent x.ty n)

/-- The team or task that made a request is gone: it has been killed (R393). -/
def State.deadReq (s : State) (r : Request) : Bool :=
  r.dev == s.ownNum && decide (r.team < 2 ^ 40) && (tfind s.teams r.team).isNone && (tfind s.tasks r.team).isNone

/-- An answer to a request of a killed team is dropped and counted (R393). -/
def State.answerTo (s : State) (x : Slip) (act : State → Request → State) (none_ : State → State) : State :=
  match tfind s.reqs x.req with
  | none => if x.dead then s.dropCompletion (2048 * x.die + x.cluster) else none_ s
  | some r => if x.dead || s.deadReq r then s.dropCompletion (2048 * x.die + x.cluster) else act s r

/-- Send a slip about request n between its requester and a home. A device that does not answer receives nothing. -/
def State.post (s : State) (ty n home status : Nat) (tentative wait : Bool) (spans : List (Nat × Nat)) : State :=
  if !s.homeAnswers home then s
  else
    let x := { (s.req n).slip n ty home status tentative wait spans with dead := (tfind s.reqs n).any s.deadReq }
    { s with slips := tput s.slips s.nextId x, nextId := s.nextId + 1 }.sendSlip s.nextId x

/-- A slip with nonzero bits that must be zero, or a TYPE that is not one of R191's: the HANDLE field has 23 bits, or 20 where a REQ
carries a KEY. -/
def Slip.bad (x : Slip) : Bool :=
  !(decide (1 ≤ x.ty) && decide (x.ty ≤ 11)) || decide (32 ≤ x.flags) || decide (2 ^ 34 ≤ x.lines) ||
    decide ((if x.ty = 1 ∧ 1000 ≤ x.home then 2 ^ 20 else 2 ^ 23) ≤ x.handle)

/-- The 32 bytes of a slip as a little-endian number (R191). -/
def Slip.image (x : Slip) : Nat :=
  x.ty % 2 ^ 8 + x.flags % 2 ^ 8 * 2 ^ 8 + x.status % 2 ^ 16 * 2 ^ 16 + x.handle % 2 ^ 32 * 2 ^ 32 + x.base % 2 ^ 64 * 2 ^ 64 +
    x.lines % 2 ^ 40 * 2 ^ 128 + x.age % 2 ^ 24 * 2 ^ 168 +
    (x.dev % 2 ^ 9 + x.die % 2 ^ 9 * 2 ^ 9 + x.cluster % 2 ^ 11 * 2 ^ 18 + x.ctx % 2 ^ 19 * 2 ^ 29) * 2 ^ 192 + x.seq % 2 ^ 16 * 2 ^ 240

/-- Slips ahead in the arrival queue of the same bucket (R190). -/
def State.bucketAhead (s : State) (n : Nat) (x : Slip) : Nat :=
  (s.slips.filter (fun (k, y) => decide (k < n) && y.home == x.home && toHome y.ty && y.status != 0x100 &&
    Config.bucket y.base == Config.bucket x.base)).length

/-- An answer to another device leaves for it (R191, R239, R244). -/
def State.sendAbroad (s : State) (x : Slip) : State :=
  { s with slips := tput s.slips s.nextId x, nextId := s.nextId + 1 }.sendSlip s.nextId x

/-- A slip of a type arrives: discarded where it is malformed (R191), kept as another device's where it has come to one, refused with retry
where the arrival queue is full (R190), otherwise taken. -/
def State.onSlip (s : State) (n ty : Nat) (act : State → Slip → State) : Host.Outcome State Fault Refusal :=
  .next (match tfind s.slips n with
    | none => s
    | some x =>
      if x.ty ≠ ty ∨ x.bad then { s with slips := tdel s.slips n }.interrupt 11 x.ty x.home 0
      else if s.foreign x && !toHome ty then { s with slips := tdel s.slips n, abroad := s.abroad ++ [x] }
      else if x.status = 0x100 then s
      else if toHome ty ∧ 9 ≤ s.bucketAhead n x then
        { s with slips := tput s.slips n { x with status := 0x100 } }.owe (.slipResend n)
      else act { s with slips := tdel s.slips n } x)

/-- SLIP_RESEND (R190): a slip refused with retry is sent again, its age unchanged. DESIGN CHOICE, log 47. -/
def execSlipResend (n : Nat) (s : State) : Host.Outcome State Fault Refusal :=
  .next (match tfind s.slips n with
    | none => s
    | some x =>
      if x.status = 0x100 then let x1 := { x with status := 0 }; { s with slips := tput s.slips n x1 }.sendSlip n x1 else s)

/-! ### Granting at a home -/

/-- Grant a request at a home, tentatively where it has other homes (R188); refuse it where the table has no place (R189). -/
def State.grantAt (s : State) (n : Nat) (r : Request) (home : Nat) (spans : List (Nat × Nat)) : State :=
  let tent := decide (1 < r.parts.length)
  let e := s.entryFor n r home spans (if tent then .tentative else .held)
  if s.placesUsed home < tableSize home ∨ s.circ.any (fun (_, f) => f.st != .waiting && !f.hold && e.shares f) then
    (s.putEntry n home e).post 2 n home 0 tent r.wait spans
  else (s.dropEntry n home).post 3 n home 3 false r.wait spans

/-- Waiting entries of a home, oldest first. -/
def State.waitersAt (s : State) (home : Nat) : List Circ :=
  ((s.circ.filter (fun (_, e) => e.home == home && e.st == .waiting)).map (·.2)).foldl (fun xs e =>
    let before := xs.takeWhile (fun y => s.older (s.req y.req) (s.req e.req))
    before ++ e :: xs.drop before.length) []

/-- Younger tentative grants that an older waiting request waits for are recalled (R188); proxies of S entries that an X or C
request waits for are told to serve no new holder (R192). -/
def State.recallFor (s : State) (n : Nat) (r : Request) (home : Nat) (spans : List (Nat × Nat)) : State :=
  (s.blockers n r home spans).foldl (fun s' (k, e) =>
    let s1 := if e.st == .tentative && !e.recalled && s.older r (s.req e.req) then
        ({ s' with circ := s'.circ.map (fun (y : Nat × Circ) =>
          if y.1 = k ∧ y.2.req = e.req then (y.1, { y.2 with recalled := true }) else y) }).post
          4 e.req home 0 true true e.spans
      else s'
    if (e.proxy || e.edge) && !e.hold && r.kind != .s then s1.post 10 e.req home 0 false false e.spans else s1) s

/-- The bit of page p of a table is not what the last command or flip left: it has been written directly since (R408). -/
def State.unsureBias (s : State) (h : HostEdge) (p : Nat) : Bool :=
  h.direct.contains p || bit (readByte s.mem (h.biasBase + p / 8)).toNat (p % 8) != h.bias.contains p

/-- The bias of page p of a table: what the last command or flip left, or unpredictable where its bit was written directly (R408).
DEDUCED, log 46. -/
def State.hostBias (s : State) (h : HostEdge) (p : Nat) : Bool :=
  if s.unsureBias h p then Config.freeBit (s.free + p) else h.bias.contains p

/-- Exported pages in host bias (R408, R409): the first of a list of spans that is so, with its host edge die. -/
def State.hostBiased (s : State) (spans : List (Nat × Nat)) : Option (Nat × Nat) :=
  [0, 1].findSome? (fun he =>
    let h : HostEdge := tget {} s.hostEdges he
    if h.hdmLen = 0 then none
    else spans.findSome? (fun (a, n) =>
      let first := max a h.hdmBase / 4096
      let stop := (min (a + n) (h.hdmBase + h.hdmLen) + 4095) / 4096
      ((List.range (stop - first)).find? (fun i => s.hostBias h (first + i - h.hdmBase / 4096))).map (fun i => (he, first + i))))

/-- A page flips to device bias: BISnpInv for its 64 lines (R409); the hosts' dirty data comes back with BIRspI. -/
def State.startFlip (s : State) (he page : Nat) : State :=
  let h : HostEdge := tget {} s.hostEdges he
  if h.flipping.isSome then s
  else
    { s with
      hostEdges := tput s.hostEdges he { h with flipping := some (page, 64) }
      agenda := s.agenda ++ [.birspi he (h.cached.filter (fun x => x.1 / 4096 == page))] }

/-- Re-evaluate a home's waiting requests in age order (R186); before a grant, exported pages in host bias flip, and the home looks again
after that (R409). -/
def State.reevaluate (s : State) (home : Nat) : State :=
  (s.waitersAt home).foldl (fun s' e =>
    if !s'.grantable e.req (s'.req e.req) home e.spans then s'
    else match s'.hostBiased (if home < 288 then e.spans else []) with
      | none => s'.grantAt e.req (s'.req e.req) home e.spans
      | some (he, page) =>
        let h : HostEdge := tget {} s'.hostEdges he
        { s' with hostEdges := tput s'.hostEdges he { h with again := h.again.filter (· != home) ++ [home] } }.startFlip he page) s

/-- Another device has not answered a request of this one (R246): none of its homes that still owe an answer has placed it among its
waiting requests, where it may wait as long as a holder does (R187, R427). DEDUCED, log 53. -/
def State.unanswered (s : State) (n : Nat) (r : Request) : Bool :=
  r.owing.any (fun h => decide (1000 ≤ h) && !s.circ.any (fun (_, e) => e.req == n && e.home == h && e.st == .waiting))

/-- A new request. -/
def State.newReq (s : State) (r : Request) : State × Nat := ({ s with nextId := s.nextId + 1, reqs := tput s.reqs s.nextId r }, s.nextId)

/-- A request of another device meets the export table (R254, R431): the lowest-numbered record that accepts it gives the context whose
tables translate the range, and the homes here take the request as any other; without one, or without a page or its permission, it
is refused with 0x80 and the detail of R254. DESIGN CHOICE, log 18. -/
def State.exportReq (s : State) (x : Slip) : State :=
  let k := kindOf (bits x.flags 1 0)
  let len := 128 * x.lines
  let refuse := fun (d : Nat) => s.sendAbroad { x with ty := 3, status := 0x80 + d, spans := [] }
  match exportFor s.exps (x.handle % 2 ^ 20) x.base len k with
  | none => refuse 3
  | some e =>
    let ps := collectPages (s.walkPage (bits e.hi 63 44)) (len / 4096 + 2) x.base (x.base + len)
    if (deniedAt ps.1 k x.base).isSome then refuse 2
    else if ps.2.isSome then refuse 1
    else
      let parts := s.partsOf (pageSpans ps.1 x.base len)
      let q := s.newReq
        { purpose := .abroad x.dev x.seq, team := 2 ^ 50 + x.dev, kind := k, wait := bit x.flags 2, base := x.base, len
          ctx := x.ctx + x.flags / 16 % 2 * 2 ^ 19, age := x.age, issued := s.cycle, ident := identOf x.dev x.die x.cluster 0
          owing := parts.map (·.1), parts, pins := ps.1 }
      parts.foldl (fun s' (h, sp) => s'.post 1 q.2 h 0 false (bit x.flags 2) sp) q.1

/-- REQ (R186, R189, R192, R409): a request arrives at a home, or from another device (R431). DEDUCED, log 44. -/
def execReq (n : Nat) (s : State) : Host.Outcome State Fault Refusal :=
  s.onSlip n 1 (fun s x =>
    let r := s.req x.req
    if s.foreign x then s.exportReq x
    else match tfind s.reqs x.req, s.hostBiased (if x.home < 288 then x.spans else []) with
    | none, _ => s
    | some _, some (he, page) =>
      let h : HostEdge := tget {} s.hostEdges he
      { s with
        slips := tput s.slips n x
        hostEdges := tput s.hostEdges he { h with waiting := h.waiting ++ [n] } }.startFlip he page
    | some _, none =>
      if s.grantable x.req r x.home x.spans then s.grantAt x.req r x.home x.spans
      else if !r.wait then s.post 3 x.req x.home 2 false false x.spans
      else if Config.waitPlaces ≤ s.waitsUsed x.home then s.post 3 x.req x.home 3 false true x.spans
      else (s.putEntry x.req x.home (s.entryFor x.req r x.home x.spans .waiting)).recallFor x.req r x.home x.spans)

/-- HOLD (R192): the proxy serves no new holder from its entry. -/
def execHold (n : Nat) (s : State) : Host.Outcome State Fault Refusal :=
  s.onSlip n 10 (fun s x =>
    { s with circ := s.circ.map (fun (k, e) =>
        (k, if e.home == x.home && ((e.proxy && e.die == x.die) || e.edge) && e.spans == x.spans then { e with hold := true } else e)) })

/-! ### How a request ends -/

/-- The fragment that waits in a `.w` request goes on (R196). -/
def Group.wakeBorrow (g : Group) (n : Nat) : Group :=
  if (g.cur :: g.rest).any (fun f => f.wait == .borrow n) then
    let wake := fun (f : Frag) => if f.wait == .borrow n then { f with wait := .none } else f
    { g with cur := wake g.cur, rest := g.rest.map wake }.keepSelect
  else g

/-- Write a status to the destination lanes of a request and free what it keeps busy. -/
def State.reportTo (s : State) (n : Nat) (r : Request) (status : Option Nat) : State :=
  if s.hasGroup r.group then
    let g := s.group r.group
    let g1 := match status with | some st => g.setLanes r.dst (fun _ => BitVec.ofNat 32 st) (lanesOf r.lanes) | none => g
    s.putGroup r.group ((g1.freeBusy n).wakeBorrow n)
  else s

/-- Write a region register of a team, if the team is there. -/
def State.putRegion (s : State) (team n : Nat) (r : Region) : State :=
  let t := s.teamOf team
  if t.st == .absent then s else s.putTeam team { t with g := mset {} t.g n r }

/-- The region register that a granted request fills (R202). -/
def Request.region (r : Request) (pos : Nat) : Region :=
  { base := r.base, len := r.len, kind := r.kind, cls := r.cls, holder := pos, all := r.kind != .x, handle := r.handle }

/-- SPLIT clears in the last register that holds a piece of a borrow (R206, R208). -/
def State.fixSplit (s : State) (team handle : Nat) : State :=
  let t := s.teamOf team
  match t.g.filter (fun (_, r) => r.kind != .empty && r.handle == handle) with
  | [(n, r)] => s.putRegion team n { r with split := false }
  | _ => s

/-- A `bor` ends with a status in a resident team (R202): the register, the cache, the predictor, the lanes. -/
def State.deliver (s : State) (n : Nat) (r : Request) (status : Nat) : State :=
  let s1 := { s with reqs := tdel s.reqs n }
  let pos := (s.group r.group).pos
  let cl := (s.teamOf r.team).cluster
  if status ≤ 1 then
    let s2 := if r.kind == .c then s1 else s1.selfInvalidate cl (pageSpans r.pins r.base r.len)
    let t := s2.teamOf r.team
    let s3 := if r.kind == .c then s2.putTeam r.team { t with predictor := tput t.predictor r.reg {} } else s2
    (s3.putRegion r.team r.reg (r.region pos)).reportTo n r (some status)
  else (s1.putRegion r.team r.reg {}).reportTo n r (some status)

/-- A request for a borrow ends with a status: by what it serves. -/
def State.endRequest (s : State) (n : Nat) (r : Request) (status : Nat) : State :=
  match r.purpose with
  | .bor =>
    if (s.teamOf r.team).st == .saved then
      let s1 := s.putReq n { r with ended := some status }
      if s1.agenda.contains (.resume r.team) then s1 else s1.owe (.resume r.team)
    else s.deliver n r status
  | .load k => (s.putReq n { r with ended := some status }).owe (.regionLoad k)
  | .sym _ _ => (s.putReq n { r with ended := some status }).owe .symTakeEnd
  | .abroad _ q => { s with reqs := tdel s.reqs n }.sendAbroad
      { r.slip q (if status ≤ 1 then 2 else 3) (1000 + s.ownNum) (if status ≤ 1 then 0 else status) false r.wait [] with
        handle := r.handle % 2 ^ 23 }
  | _ => { s with reqs := tdel s.reqs n }

/-- A HANDLE that no borrow of the device bears (R180). -/
def State.freshHandle (s : State) : Nat :=
  ((List.range (s.circ.length + 1)).map (fun i => (s.nextHandle + i) % 2 ^ 23)).find? (fun h =>
    !s.circ.any (fun (_, e) => e.handle == h) && h != 0) |>.getD (s.nextHandle % 2 ^ 23)

/-- Taint entries over a list of parts (R198). -/
def State.taintOver (s : State) (parts : List (Nat × List (Nat × Nat))) : List Nat :=
  (s.circ.filter (fun (_, e) => e.st == .taint && parts.any (fun p => p.1 == e.home && spansMeet p.2 e.spans))).map (·.1)

/-- Every home has granted: the entries are held, a taint is consumed, the pages are pinned (R188, R195, R198, R202). -/
def State.complete_ (s : State) (n : Nat) (r : Request) : State :=
  let h := s.freshHandle
  let taints := if r.kind == .x then s.taintOver r.parts else []
  let hold := fun (e : Circ) => if e.req == n && e.st != .taint then { e with st := .held, handle := h, recalled := false } else e
  let s1 := { s with
    nextHandle := h + 1
    circ := (s.circ.filter (fun (x : Nat × Circ) => !taints.contains x.1)).map (fun (x : Nat × Circ) => (x.1, hold x.2))
    pins := tput s.pins h r.pins }
  s1.endRequest n { r with handle := h, owing := [], taint := !taints.isEmpty } (if taints.isEmpty then 0 else 1)

/-- A request ends without its borrow: every other home is told to forget it (R189, R202). -/
def State.failRequest (s : State) (n : Nat) (r : Request) (status : Nat) (but : Option Nat) : State :=
  let s1 := (r.parts.filter (fun p => some p.1 != but)).foldl (fun s' p => s'.post 5 n p.1 0 false false p.2) s
  s1.endRequest n r status

/-- The spans of a request's part at a home. -/
def Request.spansAt (r : Request) (home : Nat) : List (Nat × Nat) := ((r.parts.find? (fun p => p.1 == home)).map (·.2)).getD []

/-- An incomplete request gives up its part at a home and waits there again; one that cannot wait ends BUSY (R188). -/
def State.giveUpAt (s : State) (n : Nat) (r : Request) (home : Nat) : State :=
  if r.wait then
    (s.putReq n { r with granted := r.granted.filter (· != home), early := r.early.filter (· != home)
                         owing := r.owing.filter (· != home) ++ [home] }).post 5 n home 0 false true (r.spansAt home)
  else s.failRequest n r 2 none

/-- GRANT (R188, R202): the last one completes the request. A grant for a request that has ended is given up. -/
def execGrant (n : Nat) (s : State) : Host.Outcome State Fault Refusal :=
  s.onSlip n 2 (fun s x => s.answerTo x (fun s r =>
      if r.ended.isSome then s
      else if r.early.contains x.home then s.giveUpAt x.req r x.home
      else
        let r1 := { r with owing := r.owing.filter (· != x.home), granted := r.granted ++ [x.home] }
        if r1.owing.isEmpty then s.complete_ x.req r1 else s.putReq x.req r1)
    (fun s => s.post 5 x.req x.home 0 false false x.spans))

/-- REFUSE (R189, R202): the request ends with the status refused with. -/
def execRefuse (n : Nat) (s : State) : Host.Outcome State Fault Refusal :=
  s.onSlip n 3 (fun s x => s.answerTo x (fun s r =>
    if r.ended.isSome then s else s.failRequest x.req r x.status (some x.home)) id)

/-- RECALL (R188): an incomplete request gives the part up; where the recall comes before its grant, as soon as that arrives. -/
def execRecall (n : Nat) (s : State) : Host.Outcome State Fault Refusal :=
  s.onSlip n 4 (fun s x =>
    match tfind s.reqs x.req with
    | none => s
    | some r =>
      if r.ended.isSome then s
      else if r.granted.contains x.home then s.giveUpAt x.req r x.home
      else if r.owing.contains x.home then s.putReq x.req { r with early := r.early ++ [x.home] }
      else s)

/-- GIVEUP (R188): the entry of a request is given up; with the wait flag it waits there again. -/
def execGiveup (n : Nat) (s : State) : Host.Outcome State Fault Refusal :=
  s.onSlip n 5 (fun s x =>
    match s.entryAt x.req x.home with
    | none => s
    | some (_, e) =>
      let s1 := if bit x.flags 2 then s.putEntry x.req x.home { e with st := .waiting, recalled := false } else s.dropEntry x.req x.home
      let s2 := s1.reevaluate x.home
      match s2.entryAt x.req x.home with
      | some (_, f) => if f.st == .waiting then s2.recallFor x.req (s2.req x.req) x.home f.spans else s2
      | none => s2)

/-- A slip about a HANDLE concerns an entry: one of its home's, or, where another device sent it, any that the device holds here. -/
def State.concerns (s : State) (x : Slip) (e : Circ) : Bool :=
  e.st != .taint && e.st != .waiting && e.handle == x.handle &&
    (if s.foreign x then e.dev == x.dev && decide (e.home < 1000) else e.home == x.home)

/-- The physical spans that a slip names. -/
def State.spansOf (s : State) (x : Slip) : List (Nat × Nat) :=
  if s.foreign x then pageSpans (tget [] s.pins x.handle) x.base (128 * x.lines) else x.spans

/-- Change the entries that a slip concerns; one left without a line goes. -/
def State.amend (s : State) (x : Slip) (f : Circ → Circ) : State :=
  { s with circ := (s.circ.map (fun (k, e) => (k, if s.concerns x e then f e else e))).filter (fun y => !y.2.spans.isEmpty) }

/-- Re-evaluate the homes that a slip concerns, in `s0` as it arrived (R186). -/
def State.again (s s0 : State) (x : Slip) : State :=
  (if s0.foreign x then ((s0.circ.filter (fun (_, e) => s0.concerns x e)).map (fun (_, e) => e.home)).eraseDups else [x.home]).foldl
    State.reevaluate s

/-- ACK a slip with a status (R191). -/
def State.ackSlip (s : State) (x : Slip) (status : Nat) : State :=
  if s.foreign x then s.sendAbroad { x with ty := 11, status, spans := [] }
  else s.post 11 x.req x.home status false false x.spans

/-- RET (R208): an entry is trimmed, or removed with its last piece. It waits for the write-backs of commons lines (R194). -/
def execRetSlip (n : Nat) (s : State) : Host.Outcome State Fault Refusal :=
  s.onSlip n 6 (fun s x =>
    if !(s.req x.req).backs.isEmpty then { s with slips := tput s.slips n x }.owe (.retSlip n)
    else
      ((s.amend x (fun e => { e with spans := spansWithout e.spans (s.spansOf x) })).again s x).ackSlip x 0)

/-- DOWN (R203): X becomes S at the home. -/
def execDown (n : Nat) (s : State) : Host.Outcome State Fault Refusal :=
  s.onSlip n 7 (fun s x =>
    ((s.amend x (fun e => { e with kind := .s })).again s x).ackSlip x 0)

/-- UP (R204): a home agrees if the share is the only holder there and no request waits; it then consumes a taint entry (R198), which its
answer says with status 1. -/
def execUp (n : Nat) (s : State) : Host.Outcome State Fault Refusal :=
  s.onSlip n 8 (fun s x =>
    let here := fun (e : Circ) => (if s.foreign x then decide (e.home < 1000) else e.home == x.home) && spansMeet e.spans (s.spansOf x)
    let others := s.circ.any (fun (_, e) => e.st != .taint && !s.concerns x e && here e)
    if others || s.heldAbroad { s.req x.req with kind := .x } x.home x.spans then s.ackSlip x 2
    else
      let tainted := fun (e : Circ) => e.st == .taint && here e
      let s1 := s.amend x (fun e => { e with kind := .x })
      { s1 with circ := s1.circ.filter (fun (_, e) => !tainted e) }.ackSlip x (if s.circ.any (fun (_, e) => tainted e) then 1 else 0))

/-- RELOC (R197): the holder of an entry has moved to another cluster; an S share moves to the new die's proxy. -/
def execReloc (n : Nat) (s : State) : Host.Outcome State Fault Refusal :=
  s.onSlip n 9 (fun s x =>
    let proxied := fun (e : Circ) =>
      e.kind == .s && s.proxyTakes (fun y => y.proxy && y.die == x.die) Config.dieProxyEntries e.home e.spans
    let move := fun (e : Circ) =>
      if s.concerns x e || (e.home == x.home && e.st != .taint && e.req == (s.req x.req).moves && (s.req x.req).moves != 0) then
        { e with die := x.die, cluster := x.cluster, proxy := proxied e }
      else e
    (({ s with circ := s.circ.map (fun (k, e) => (k, move e)) }).again s x).ackSlip x 0)

/-- A `bup` has every answer (R204): X where every home agreed, otherwise S as before. -/
def State.endUp (s : State) (n : Nat) (r : Request) : State :=
  let s1 := { s with reqs := tdel s.reqs n }
  let reg : Region := tget {} (s.teamOf r.team).g r.reg
  if r.ended.isNone then
    let s3 := s1.selfInvalidate (s1.teamOf r.team).cluster (s1.regionSpans reg)
    (s3.putRegion r.team r.reg { reg with kind := .x, holder := (s.group r.group).pos, all := false, pend := false }).reportTo n r
      (some (if r.taint then 1 else 0))
  else
    let restore := fun (e : Circ) => if e.handle == r.handle && e.st == .held then { e with kind := .s } else e
    let s2 := { s1 with circ := s1.circ.map (fun (k, e) => (k, restore e)) }
    let s3 := r.granted.foldl State.reevaluate s2
    (s3.putRegion r.team r.reg { reg with pend := false }).reportTo n r (some 2)

/-- Every answer that a request waits for is here: what follows (R203, R204, R208). -/
def State.answered (s : State) (n : Nat) (r : Request) : State :=
  let reg : Region := tget {} (s.teamOf r.team).g r.reg
  let s1 := { s with reqs := tdel s.reqs n }
  match r.purpose with
  | .down => (s1.putRegion r.team r.reg { reg with kind := .s, all := true, pend := false }).reportTo n r none
  | .up => s.endUp n r
  | .ret => ((s1.putRegion r.team r.reg {}).fixSplit r.team r.handle).reportTo n r none
  | .sym _ _ => s.endRequest n r 0
  | .free => if (s1.teamOf r.team).st == .ending then s1.owe (.teamEnd r.team) else s1
  | _ => s1

/-- ACK (R203, R204, R208). -/
def execAck (n : Nat) (s : State) : Host.Outcome State Fault Refusal :=
  s.onSlip n 11 (fun s x => s.answerTo x (fun s r =>
      let r1 := { r with
        owing := r.owing.filter (· != x.home)
        granted := if x.status ≤ 1 then r.granted ++ [x.home] else r.granted
        taint := r.taint || x.status == 1
        ended := if x.status ≤ 1 then r.ended else some x.status }
      if r1.owing.isEmpty then s.answered x.req r1 else s.putReq x.req r1) id)

/-! ### Starting a request -/

/-- Send a slip of a type to every home of a request; with no home to ask, the request ends at once. -/
def State.ask (s : State) (n ty : Nat) (r : Request) : State :=
  let r1 := { r with owing := r.parts.map (·.1) }
  let s1 := s.putReq n r1
  if r.parts.isEmpty then s1.answered n r1
  else r.parts.foldl (fun s' (h, sp) => s'.post ty n h 0 false r.wait sp) s1

/-! ### Requests that wait for accesses (R203, R207, R208) -/

/-- The team's accesses, copies and transfers through a register that were issued before request k have completed: identifiers rise. -/
def State.throughDone (s : State) (team n k : Nat) : Bool :=
  !s.txns.any (fun (i, t) => decide (i < k) && t.team == team && t.region == n) &&
  !s.copies.any (fun (i, c) => decide (i < k) && c.team == team && (c.src == n || c.dst == n))

/-- Give up or write back, in the team's cluster, what R194 requires when a borrow is returned or lowered: the state, and the
commons write-backs to wait for. -/
def State.writeOut (s : State) (team : Nat) (kind : Kind) (spans : List (Nat × Nat)) (drop : Bool) : State × List Nat :=
  let cl := (s.teamOf team).cluster
  match kind with
  | .x =>
    let s1 := s.writeBackBytes cl (fun a _ => inSpans spans a)
    (if drop then s1.dropBytes cl (fun a b => !b.commons && inSpans spans a) else s1, [])
  | .c =>
    let mine := (s.clusterOf cl).cache.filter (fun (a, b) => b.commons && b.team == team && inSpans spans a)
    let lines := (mine.map (fun (a, _) => lineOf a)).eraseDups
    let s1 := lines.foldl (fun s' l => s'.evict cl l) s
    (s1, (s1.cmsgs.filter (fun (k, m) => decide (s.nextId ≤ k) && m.kind == .writeBack)).map (·.1))
  | _ => (s, [])

/-- The accesses through the register are done: act. -/
def State.beginReq (s : State) (n : Nat) (r : Request) : State :=
  let reg : Region := tget {} (s.teamOf r.team).g r.reg
  let r1 := { r with draining := false }
  match r.purpose with
  | .hand t =>
    let s1 := { s with reqs := tdel s.reqs n }
    let reg1 := if t = 16 then { reg with all := true } else { reg with holder := t, all := false }
    (if reg.kind == .empty || reg.handle != r.handle then s1 else s1.putRegion r.team r.reg reg1).reportTo n r none
  | .ret =>
    let spans := s.regionSpans reg
    let o := s.writeOut r.team reg.kind spans true
    o.1.ask n 6 { r1 with parts := if reg.peer then [] else s.partsOf spans, backs := o.2 }
  | .down =>
    let spans := s.regionSpans reg
    (s.writeOut r.team .x spans false).1.ask n 7 { r1 with parts := s.partsOf spans }
  | _ => s

/-- Act on every request whose register has no access in flight any more. -/
def State.pumpRequests (s : State) : State :=
  s.reqs.foldl (fun s' (n, r) =>
    if r.draining && s'.throughDone r.team r.reg n then s'.beginReq n r else s') s

/-! ### The reach limit (R246, R259) -/

/-- Abandon what an access still waits for at another device: each unreplied lane's store or read-modify-write may or may not have been
performed there, and its destination is free (R259). -/
def State.abandon (s : State) (x : Nat) (t : Txn) : State :=
  let late := fun (p : LaneAcc) => (locDev p.loc).isSome && !p.arrived
  let maybe := fun (p : LaneAcc) (i : Nat) => late p && p.result.isNone && t.op.writes && !t.noBorrow &&
    ((locDev p.loc).bind (tfind s.peers)).isSome && Config.freeBit (s.free * 2 ^ 12 + i)
  let s1 := t.lanes.zipIdx.foldl (fun s' (p, i) => if maybe p i then (s'.perform false t p).1 else s') s
  ({ s1 with free := s1.free + 1 }).complete x
    { t with lost := true, lanes := t.lanes.map (fun p => if late p then { p with result := none } else p) }

end Sys2Proof.Machine
end

