-- ==== Sys2Proof/Machine/Borrow.lean ====
section
/-! DEFINITION. The borrow instructions (R199 to R209) and the translation of their ranges (R195, R254, R402, R431). -/

namespace Sys2Proof.Machine

/-! ### Translation -/

/-- What the translation of a range gives. -/
inductive Look where
  | pages (ps : List PagePin)
  | fault (detail addr : Nat)
  | miss
  | silent (dev : Nat)

/-- The ended walk of the issuing fragment for a range. -/
def State.walkOf (s : State) (base len : Nat) : Option (Nat × Walk) :=
  s.walks.find? (fun (_, w) => w.group == some s.cur && w.frag == s.grp.cur.id && w.base == base && w.len == len && w.done)

/-- Translate a global range through the cluster's translation cache (R195, R402). -/
def State.lookGlobal (s : State) (c cl base len : Nat) (k : Kind) (ended : Option Walk) : Look :=
  let found := (ended.map (·.found)).getD []
  let page := fun (va : Nat) => (found ++ (s.clusterOf cl).tlb).find? (fun p => p.ctx == c && p.holds va)
  let r := collectPages page (len / 4096 + 2) base (base + len)
  match deniedAt r.1 k base, r.2 with
  | some a, _ => .fault 2 a
  | none, none => .pages r.1
  | none, some va => if (ended.bind (·.fail)) = some va then .fault 1 (va / 4096 * 4096) else .miss

/-- The KEY of the import that holds a peer-window address, and the address as its exporter has it (R253, R431). -/
def State.importKey (s : State) (c base : Nat) : Nat × Nat :=
  if aperture base == .peer then
    let e : Handle := tget {} (s.ctxOf c).handles ((base - peerBase) / 2 ^ 40)
    (bits e.lo 23 4, bits e.hi 51 0 * 4096 + (base - peerBase) % 2 ^ 40)
  else (0, 0)

/-- A page of the exporter as the importer addresses it, at peer-window offset shift from it. -/
def importPage (base rva : Nat) (p : PagePin) : PagePin := { p with va := p.va + base - rva }

/-- Translate a peer-window range at the exporter (R254, R431). DESIGN CHOICE, log 18. -/
def State.lookPeer (s : State) (c base len : Nat) (k : Kind) : Look :=
  let h := (base - peerBase) / 2 ^ 40
  let off := (base - peerBase) % 2 ^ 40
  let e : Handle := tget {} (s.ctxOf c).handles h
  let dev := bits e.lo 35 27
  let rva := bits e.hi 51 0 * 4096 + off
  if !bit e.lo 0 ∨ bits e.lo 63 36 * 4096 < off + len then .fault 3 base
  else if !bit e.lo (if k == .s then 2 else 3) then .fault 2 (base / 4096 * 4096)
  else
    let own := dev == s.ownNum
    if !own && !s.homeAnswers (1000 + dev) then .silent dev
    else match exportFor (if own then s.exps else (s.peer dev).exports) (bits e.lo 23 4) rva len k with
      | none => .fault 3 base
      | some x =>
        let ctx := bits x.hi 63 44
        let page := fun (va : Nat) =>
          if own then s.walkPage ctx va
          else ((s.peer dev).pages.find? (fun p => p.ctx == ctx && p.holds va)).map
            (fun p => { p with pa := peerLoc dev p.pa, ptype := 0 })
        let r := collectPages page (len / 4096 + 2) rva (rva + len)
        match deniedAt r.1 k rva, r.2 with
        | some a, _ => .fault 2 ((a + base - rva) / 4096 * 4096)
        | none, some va => .fault 1 ((va + base - rva) / 4096 * 4096)
        | none, none => .pages (r.1.map (importPage base rva))

/-- Translate the range of a borrow. -/
def State.look (s : State) (c cl base len : Nat) (k : Kind) (ended : Option Walk) : Look :=
  if aperture base == .peer then s.lookPeer c base len k else s.lookGlobal c cl base len k ended

/-- Walkers of a home in use (R402). -/
def State.walksAt (s : State) (home : Nat) : Nat := (s.walks.filter (fun (_, w) => w.home == home && !w.done && !w.queued)).length

/-- A walker of a home has become free: the oldest walk that waits for one starts. -/
def State.nextWalk (s : State) (home : Nat) : State :=
  match s.walks.find? (fun (_, w) => w.home == home && w.queued) with
  | some (n, w) => { s with walks := tput s.walks n { w with queued := false } }.owe (.tableWalkEnd n)
  | none => s

/-- Add translations to a cluster's translation cache of 4,096 entries (R9); the oldest make room. DESIGN CHOICE, log 24. -/
def Cluster.fillTlb (c : Cluster) (ps : List PagePin) : Cluster :=
  let all := c.tlb ++ ps.filter (fun p => !c.tlb.contains p)
  { c with tlb := all.drop (all.length - Config.tlbEntries) }

/-- The issuing fragment waits for a walk of the home of its range (R402), for a `bor` that issued in a cycle (R187); what the instruction is
to write is busy meanwhile (R26). -/
def State.startWalk (s : State) (base len issued : Nat) (codes : List Nat) : State :=
  let n := s.nextId
  let home := s.home base
  let wait := decide (Config.walkers ≤ s.walksAt home)
  let s1 := { s with
    nextId := n + 1
    walks := tput s.walks n
      { ctx := s.team.ctx, group := some s.cur, frag := s.grp.cur.id, base, len, started := issued, home, queued := wait } }
  let s2 := if wait then s1 else s1.owe (.tableWalkEnd n)
  s2.setGrp { s2.grp with cur := { s2.grp.cur with wait := .walk n }, busy := s2.grp.busy ++ codes.map (fun c => (c, n)) }.keepSelect

/-- The fragment that waits for a walk goes on. -/
def Group.wakeWalk (g : Group) (w : Nat) : Group :=
  let wake := fun (f : Frag) => if f.wait == .walk w then { f with wait := .resumed w } else f
  { g with cur := wake g.cur, rest := g.rest.map wake }.keepSelect

/-- TABLE_WALK_END (R400 to R402): the pages found enter the cluster's translation cache, unless a `tlbi` has issued
since the walk began (R391), and the `bor` is tried again.
DESIGN CHOICE, log 24. -/
def execTableWalkEnd (w : Nat) (s : State) : Host.Outcome State Fault Refusal :=
  .next (match tfind s.walks w with
    | none => s
    | some k =>
      let g := k.group.getD 0
      if s.hasGroup g then
        let cl := (s.teamOf (s.group g).team).cluster
        let c := s.clusterOf cl
        let page := fun (va : Nat) => match c.tlb.find? (fun p => p.ctx == k.ctx && p.holds va) with
          | some p => some p
          | none => s.walkPage k.ctx va
        let r := collectPages page (k.len / 4096 + 2) k.base (k.base + k.len)
        let s1 := if k.stale then s else s.putCluster cl (c.fillTlb r.1)
        let s2 := { s1 with walks := tput s1.walks w { k with done := true, queued := false, found := r.1, fail := r.2 } }
        (s2.putGroup g ((s2.group g).wakeWalk w)).nextWalk k.home
      else { s with walks := tdel s.walks w }.nextWalk k.home)

/-! ### Requests of instructions -/

/-- The request of a borrow instruction on register n, of the age of its issue (R187). -/
def State.request (s : State) (p : Purpose) (n : Nat) (r : Region) (io : Issue) (d : Nat) : Request :=
  let t := s.team
  { purpose := p, team := s.grp.team, group := s.cur, frag := s.grp.cur.id, reg := n, kind := r.kind, base := r.base, len := r.len,
    cls := r.cls, lanes := io.t, dst := d, ctx := t.ctx, age := ageOf s.cycle, issued := s.cycle, handle := r.handle,
    ident := identOf s.ownNum (t.cluster / 2048) (t.cluster % 2048) s.grp.pos }

/-- Enter a request for the issuing group: the registers it will write are busy, and the register is pending where asked. -/
def State.enter (s : State) (u : Use) (io : Issue) (r : Request) (pend : Bool) (codes : List Nat) : State × Nat :=
  let q := s.newReq r
  let s1 := q.1.setGrp { q.1.grp with busy := q.1.grp.busy ++ codes.map (fun c => (c, q.2)) }
  let s2 := s1.finish u io s1.grp
  (if pend then s2.putRegion r.team r.reg { s.region r.reg with pend := true } else s2, q.2)

/-- The first check of a register that a borrow instruction acts on, and the holder check behind it (R199). -/
def heldCheck (r : Region) (pos : Nat) : Option (Nat × Nat) :=
  if r.kind == .empty || r.pend then some (0x11, 0)
  else if !r.all && r.holder != pos then some (0x12, 0)
  else none

/-- The checks of `bor` on its quad and its register (R201, R202). DEDUCED, log 44. -/
def borCheck (base lenw : Nat) (r : Region) : Option (Nat × Nat) :=
  let len := lenw / 128 * 128
  if base % 128 ≠ 0 then some (0x10, 32)
  else if len = 0 ∨ 2 ^ 40 < len ∨ bits lenw 6 2 ≠ 0 then some (0x10, 33)
  else if lenw % 4 = 3 then some (0x19, 1)
  else if !inOneSpan base len then some (0x10, 34)
  else if r.kind != .empty || r.pend then some (0x11, 3)
  else none

/-- The range conflicts under R186 with a borrow or request of the team (R200), or with the job's borrow in one of its peer-symmetric
registers (R202). -/
def State.selfConflict (s : State) (team : Nat) (k : Kind) (parts : List (Nat × List (Nat × Nat))) : Bool :=
  (s.teamOf team).g.any (fun (_, r) => r.peer && waitsHeld k r.kind && parts.any (fun p => spansMeet p.2 (s.regionSpans r))) ||
  s.circ.any (fun (_, e) => e.team == team &&
    parts.any (fun p => p.1 == e.home && spansMeet p.2 e.spans) &&
    (match e.st with | .taint => false | .held => waitsHeld k e.kind | .tentative | .waiting => waitsOlder k e.kind)) ||
  s.reqs.any (fun (_, q) => q.team == team && q.purpose == .bor && q.ended.isNone && waitsOlder k q.kind &&
    parts.any (fun p => q.parts.any (fun x => x.1 == p.1 && spansMeet x.2 p.2)))

/-- `bor` (R202). -/
def State.bor (s : State) (k : Kind) (wait : Bool) (d a b : Nat) : Host.Outcome State Fault Refusal :=
  let u : Use := { srcs := quadRegs a ++ [128 + b], dsts := [d, 128 + b] }
  s.run u (fun io =>
    if s.handing then s.stand
    else if io.t = 0 then s.finish u io s.grp
    else
      let base := io.see.val true a (lowest io.t)
      let lenw := io.see.val true (a + 2) (lowest io.t)
      let len := lenw / 128 * 128
      let ended := s.walkOf base len
      let s1 := match ended with
        | some (w, _) => { s.setGrp (s.grp.freeBusy w) with walks := tdel s.walks w }
        | none => s
      match borCheck base lenw (s.region b) with
      | some (c, x) => s1.trap c x
      | none =>
        let from_ := (ended.map (·.2.started)).getD s.cycle
        let key := s.importKey s.team.ctx base
        let go := fun (ps : List PagePin) (parts : List (Nat × List (Nat × Nat))) =>
          let r := { s.request .bor b { base, len, kind := k, cls := lenw % 4 } io d with
            wait, pins := ps, parts, age := ageOf from_, issued := from_, key := key.1, rva := key.2 }
          let q := s1.enter u io r true [d, 128 + b]
          let s2 := if wait then q.1.setGrp { q.1.grp with cur := { q.1.grp.cur with wait := .borrow q.2 } }.keepSelect else q.1
          s2.ask q.2 1 r
        match s1.look s.team.ctx s.team.cluster base len k (ended.map (·.2)) with
        | .fault x addr => s1.trapWith 0x13 x (BitVec.ofNat 64 addr) false
        | .miss => s1.startWalk base len from_ [d, 128 + b]
        | .silent dev => go [] [(1000 + dev, [])]
        | .pages ps =>
          let parts := s.partsOf (pageSpans ps base len)
          if s.selfConflict s.grp.team k parts then
            s1.finish u io (s1.grp.setLanes d (fun _ => 5) (lanesOf io.t))
          else go ps parts)

/-- `bor.x` (R202). -/
def execBorX (d a b : BitVec 6) (s : State) : Host.Outcome State Fault Refusal := s.bor .x false d.toNat a.toNat b.toNat

/-- `bor.s` (R202). -/
def execBorS (d a b : BitVec 6) (s : State) : Host.Outcome State Fault Refusal := s.bor .s false d.toNat a.toNat b.toNat

/-- `bor.c` (R202). -/
def execBorC (d a b : BitVec 6) (s : State) : Host.Outcome State Fault Refusal := s.bor .c false d.toNat a.toNat b.toNat

/-- `bor.x.w` (R196, R202). -/
def execBorXW (d a b : BitVec 6) (s : State) : Host.Outcome State Fault Refusal := s.bor .x true d.toNat a.toNat b.toNat

/-- `bor.s.w` (R196, R202). -/
def execBorSW (d a b : BitVec 6) (s : State) : Host.Outcome State Fault Refusal := s.bor .s true d.toNat a.toNat b.toNat

/-- `bor.c.w` (R196, R202). -/
def execBorCW (d a b : BitVec 6) (s : State) : Host.Outcome State Fault Refusal := s.bor .c true d.toNat a.toNat b.toNat

/-- The checks of `bdown` and `bup` (R182, R199, R203, R204): the entry's first check, of the kind, then the holder check; a register of
the kind on which another group's instruction is outstanding is refused behind them. DEDUCED, log 44. -/
def changeCheck (r : Region) (want : Kind) (pos : Nat) : Option (Nat × Nat) :=
  if r.peer then some (0x11, 5)
  else if r.kind != want then some (0x11, 4)
  else if !r.all && r.holder != pos then some (0x12, 0)
  else if r.pend then some (0x11, 0)
  else if r.split then some (0x14, 2)
  else none

/-- Enter a request that first waits for the team's accesses through its register. -/
def State.enterDraining (s : State) (u : Use) (io : Issue) (p : Purpose) (b : Nat) (pend : Bool) : State :=
  let q := s.drainWc.enter u io { s.request p b (s.region b) io 0 with draining := true } pend [128 + b]
  q.1.pumpRequests

/-- `bdown` (R203). -/
def execBdown (b : BitVec 6) (s : State) : Host.Outcome State Fault Refusal :=
  let u : Use := { srcs := [128 + b.toNat], dsts := [128 + b.toNat] }
  s.run u (fun io =>
    if s.handing then s.stand
    else if io.t = 0 then s.finish u io s.grp
    else match changeCheck (s.region b.toNat) .x s.grp.pos with
      | some (c, x) => s.trap c x
      | none => s.enterDraining u io .down b.toNat true)

/-- `bup` (R204). -/
def execBup (d b : BitVec 6) (s : State) : Host.Outcome State Fault Refusal :=
  let u : Use := { srcs := [128 + b.toNat], dsts := [d.toNat, 128 + b.toNat] }
  s.run u (fun io =>
    if s.handing then s.stand
    else if io.t = 0 then s.finish u io s.grp
    else
      let r := s.region b.toNat
      match changeCheck r .s s.grp.pos with
      | some (c, x) => s.trap c x
      | none =>
        let parts := s.partsOf (s.regionSpans r)
        let q := s.enter u io { s.request .up b.toNat r io d.toNat with kind := .x, parts } true [d.toNat, 128 + b.toNat]
        q.1.ask q.2 8 (q.1.req q.2))

/-- `bsplit` (R205): gN keeps the part below the offset, gU takes the rest. -/
def execBsplit (d a b : BitVec 6) (s : State) : Host.Outcome State Fault Refusal :=
  let u : Use :=
    { srcs := [128 + d.toNat, a.toNat, 128 + b.toNat], dsts := [128 + d.toNat, 128 + b.toNat] }
  s.run u (fun io =>
    if s.handing then s.stand
    else if io.t = 0 then s.finish u io s.grp
    else
      let r := s.region b.toNat
      let r2 := s.region d.toNat
      let o := (io.see.reg a.toNat (lowest io.t)).toNat
      let check :=
        (heldCheck r s.grp.pos).orElse (fun _ =>
          if r.peer then some (0x11, 5)
          else if o = 0 ∨ o % 128 ≠ 0 ∨ r.len ≤ o then some (0x10, 35)
          else if r2.kind != .empty || r2.pend then some (0x11, 3)
          else none)
      match check with
      | some (c, x) => s.trap c x
      | none =>
        ((s.finish u io s.grp).putRegion s.grp.team d.toNat
          { r with base := r.base + o, len := r.len - o, split := true }).putRegion s.grp.team b.toNat
          { r with len := o, split := true })

/-- `bjoin` (R206). Where both registers draw a trap of the first two checks, gD's is taken; both registers' come before detail 5
of a peer-symmetric one (R182). DEDUCED, log 44. -/
def execBjoin (d b : BitVec 6) (s : State) : Host.Outcome State Fault Refusal :=
  let u : Use :=
    { srcs := [128 + d.toNat, 128 + b.toNat], dsts := [128 + d.toNat, 128 + b.toNat] }
  s.run u (fun io =>
    if s.handing then s.stand
    else if io.t = 0 then s.finish u io s.grp
    else
      let r := s.region d.toNat
      let q := s.region b.toNat
      let check :=
        ((heldCheck r s.grp.pos).orElse (fun _ => heldCheck q s.grp.pos)).orElse (fun _ =>
          if r.peer || q.peer then some (0x11, 5)
          else if r.handle != q.handle || r.kind != q.kind || r.holder != q.holder || r.all != q.all ||
              !(q.base == r.base + r.len || r.base == q.base + q.len) then some (0x14, 3)
          else none)
      match check with
      | some (c, x) => s.trap c x
      | none =>
        let s1 := (s.finish u io s.grp).putRegion s.grp.team b.toNat {}
        (s1.putRegion s.grp.team d.toNat { r with base := min r.base q.base, len := r.len + q.len }).fixSplit s.grp.team r.handle)

/-- `bhand` (R207). -/
def execBhand (a b : BitVec 6) (s : State) : Host.Outcome State Fault Refusal :=
  let u : Use := { srcs := [a.toNat, 128 + b.toNat], dsts := [128 + b.toNat] }
  s.run u (fun io =>
    if s.handing then s.stand
    else if io.t = 0 then s.finish u io s.grp
    else
      let r := s.region b.toNat
      let t := (io.see.reg a.toNat (lowest io.t)).toNat
      let check :=
        (heldCheck r s.grp.pos).orElse (fun _ =>
          if r.peer then some (0x11, 5)
          else if 16 < t ∨ (t < 16 ∧ s.team.size ≤ t) then some (0x12, 1)
          else if t = 16 ∧ r.kind = .x then some (0x11, 6)
          else none)
      match check with
      | some (c, x) => s.trap c x
      | none => s.enterDraining u io (.hand t) b.toNat false)

/-- Other pieces of a borrow lie on both sides of a register's range (R208). -/
def Team.inMiddle (t : Team) (r : Region) : Bool :=
  r.split && t.g.any (fun (_, q) => q.kind != .empty && q.handle == r.handle && decide (q.base < r.base)) &&
    t.g.any (fun (_, q) => q.kind != .empty && q.handle == r.handle && decide (r.base < q.base))

/-- `bret` (R208). -/
def execBret (b : BitVec 6) (s : State) : Host.Outcome State Fault Refusal :=
  let u : Use := { srcs := [128 + b.toNat], dsts := [128 + b.toNat] }
  s.run u (fun io =>
    if s.handing then s.stand
    else if io.t = 0 then s.finish u io s.grp
    else
      let r := s.region b.toNat
      match (heldCheck r s.grp.pos).orElse (fun _ => if s.team.inMiddle r then some (0x14, 1) else none) with
      | some (c, x) => s.trap c x
      | none => s.enterDraining u io .ret b.toNat true)

/-- The image of a region register (R180). -/
def Region.image (r : Region) : Nat :=
  (if r.pend then 1 else 0) + (if r.split then 2 else 0) + (if r.peer then 4 else 0) + r.cls % 4 * 2 ^ 3 + kindCode r.kind * 2 ^ 5 +
    r.base / 128 % 2 ^ 57 * 2 ^ 7 + (if r.all then 2 ^ 66 else 0) + r.holder % 16 * 2 ^ 67 + r.len / 128 % 2 ^ 25 * 2 ^ 71 +
    r.len / 2 ^ 32 % 2 ^ 9 * 2 ^ 96 + r.handle % 2 ^ 23 * 2 ^ 105

/-- The register of an image. -/
def regionOfImage (x : Nat) : Region :=
  { pend := bit x 0, split := bit x 1, peer := bit x 2, cls := bits x 4 3
    kind := if bits x 6 5 = 1 then .x else if bits x 6 5 = 2 then .s else if bits x 6 5 = 3 then .c else .empty
    base := bits x 63 7 * 128, all := bit x 66, holder := bits x 70 67, len := bits x 104 71 * 128, handle := bits x 127 105 }

/-- `bquery` (R209): no holder check, no trap. -/
def execBquery (d b : BitVec 6) (s : State) : Host.Outcome State Fault Refusal :=
  let u : Use := { srcs := [128 + b.toNat], dsts := quadRegs d.toNat }
  s.run u (fun io =>
    if s.handing then s.stand
    else
      let x := (s.region b.toNat).image
      s.finish u io ((List.range 4).foldl (fun g i =>
        g.setLanes (d.toNat + i) (fun _ => BitVec.ofNat 32 (x / 2 ^ (32 * i))) (lanesOf io.t)) s.grp))

end Sys2Proof.Machine
end

