-- ==== Sys2Proof/Machine/Barrier.lean ====
section
/-! DEFINITION. Barrier registers and their instructions (R308 to R312). -/

namespace Sys2Proof.Machine

def Team.barrier (t : Team) (n : Nat) : Barrier := tget {} t.w n
def Team.setBarrier (t : Team) (n : Nat) (b : Barrier) : Team := { t with w := mset {} t.w n b }

/-- A phase completes when every member and every byte is in (R309). -/
def Barrier.settle (b : Barrier) : Barrier :=
  if b.arrm = b.expm ∧ b.bal = 0 then { b with phase := (b.phase + 1) % 2 ^ 16, arrm := 0, bal := 0 } else b

/-- A completing copy signals its barrier (R310). No rule bounds what signals take from BAL: the model's is an integer, which a save
wraps to 40 bits. DESIGN CHOICE, log 55. -/
def Barrier.signal (b : Barrier) (bytes : Nat) (ma : Bool) : Barrier :=
  if ma && b.arrm == b.expm then { b with err := true }
  else { b with bal := b.bal - bytes, arrm := if ma then b.arrm + 1 else b.arrm }.settle

/-- A copy with BS that names barrier n is outstanding. -/
def State.copySignals (s : State) (n : Nat) : Bool := s.copies.any (fun (_, c) => c.team == s.grp.team && c.bs && c.bar == n)

/-- A barrier instruction that acts once for the fragment (guard W): its check and its effect on the group and barrier.
DEDUCED, log 28. -/
def State.barrierOp (s : State) (d : Nat) (srcs : List Nat) (hold : Group → Bool)
    (check : Barrier → (Nat → Nat) → Option Nat) (act : Barrier → (Nat → Nat) → Barrier) (mark : Group → Barrier → Group) :
    Host.Outcome State Fault Refusal :=
  let u : Use := { srcs := srcs ++ [160 + d], dsts := [160 + d] }
  s.run u (fun io =>
    if io.t = 0 then s.finish u io s.grp
    else if hold s.grp then s.stand (.barrier d)
    else
      let b := s.team.barrier d
      let v := fun (n : Nat) => (io.see.reg n (lowest io.t)).toNat
      match check b v with
      | some x => s.trap 0x28 x
      | none =>
        let s1 := s.finish u io (mark s.grp b)
        s1.setTeam (s1.team.setBarrier d (act b v)))

/-- `winit` (R311). -/
def execWinit (d a b : BitVec 6) (s : State) : Host.Outcome State Fault Refusal :=
  s.barrierOp d.toNat [a.toNat, b.toNat] (fun _ => false)
    (fun w v =>
      if !w.err && (w.arrm != 0 || w.bal != 0 || s.copySignals d.toNat) then some 1
      else if v a.toNat = 0 ∨ 4095 < v a.toNat then some 2
      else none)
    (fun w v => { w with expm := v a.toNat, arrm := 0, bal := v b.toNat, init := true, err := false }) (fun g _ => g)

/-- `wexp` (R311). -/
def execWexp (d a : BitVec 6) (s : State) : Host.Outcome State Fault Refusal :=
  s.barrierOp d.toNat [a.toNat] (fun _ => false)
    (fun w v =>
      if !w.init then some 3 else if w.err then some 6 else if (2 ^ 39 : Int) - 1 < w.bal + v a.toNat then some 5 else none)
    (fun w v => { w with bal := w.bal + v a.toNat }.settle) (fun g _ => g)

/-- `warr` (R311). -/
def execWarr (d : BitVec 6) (s : State) : Host.Outcome State Fault Refusal :=
  s.barrierOp d.toNat [] (fun _ => [0, 1, 2, 3].any (fun c => s.inFlight c != 0))
    (fun w _ => if !w.init then some 3 else if w.err then some 6 else if w.arrm = w.expm then some 4 else none)
    (fun w _ => { w with arrm := w.arrm + 1 }.settle) (fun g w => { g with wt := tput g.wt d.toNat (some w.phase) })

/-- The issuing fragment waits at a barrier already. -/
def State.waitsAt (s : State) (n : Nat) : Bool := s.grp.cur.wait == .barrier n

/-- `wwait` (R311, R312): the checks are made once; a fragment that waits already leaves when the phase has passed. -/
def execWwait (d : BitVec 6) (s : State) : Host.Outcome State Fault Refusal :=
  let u : Use := { srcs := [160 + d.toNat], dsts := [160 + d.toNat] }
  s.run u (fun io =>
    let b := s.team.barrier d.toNat
    if io.t = 0 then s.finish u io s.grp
    else if !b.init && !s.waitsAt d.toNat then s.trap 0x28 3
    else if b.err && !s.waitsAt d.toNat then s.trap 0x28 6
    else
      let wt := (tget none s.grp.wt d.toNat).getD b.phase
      if b.phase ≠ wt then s.finish u io { s.grp with wt := tdel s.grp.wt d.toNat }
      else (s.setGrp { s.grp with wt := tput s.grp.wt d.toNat (some wt) }).stand (.barrier d.toNat))

/-- `wtest` (R311). -/
def execWtest (d a : BitVec 6) (s : State) : Host.Outcome State Fault Refusal :=
  let u : Use := { srcs := [160 + a.toNat], dsts := [64 + d.toNat] }
  s.run u (fun io =>
    let b := s.team.barrier a.toNat
    if !b.init then s.trap 0x28 3
    else if b.err then s.trap 0x28 6
    else
      let passed := ((tget none s.grp.wt a.toNat).map (fun w => w != b.phase)).getD false
      s.finish u io (s.grp.setPred d.toNat io.t (if passed then BitVec.allOnes 32 else 0)))

end Sys2Proof.Machine
end

