-- ==== Sys2Proof/Machine/Transfer.lean ====
section
/-! DEFINITION. The transfer unit: copies and matrix transfers, their checks and footprints, the movement of their bytes, reducing
copies with their chunks, and completion (R293 to R306, R347). -/

namespace Sys2Proof.Machine

/-! ### Operands and pieces -/

/-- The generic address of an offset in an operand. -/
def State.operandAddr (s : State) (code o : Nat) : Nat :=
  if code = 32 then localBase + o else if code = 33 then clusterBase + o else (s.region code).base + o

/-- The location and page type of a generic address in an operand. -/
def State.operandLoc (s : State) (code va : Nat) : Nat × Nat :=
  if isRegion code then
    match pinFind (tget [] s.pins (s.region code).handle) va with
    | some p => (p.at_ va, p.ptype)
    | none => (va, 0)
  else (va, 0)

/-- The pieces of n bytes moved for a lane between offsets of two operands, cut as `cut` says. -/
def State.movePieces (s : State) (lane src so dst d_o : Nat) (cuts : List (Nat × Nat)) : List Piece :=
  cuts.map (fun (p, k) =>
    let sa := s.operandAddr src (so + p)
    let da := s.operandAddr dst (d_o + p)
    let sl := s.operandLoc src sa
    let dl := s.operandLoc dst da
    { lane, src := sa, dst := da, sloc := sl.1, dloc := dl.1, stype := sl.2, dtype := dl.2, n := k })

/-- The register checks of R184 on a region operand. -/
def State.operandCheck (s : State) (code : Nat) (write : Bool) : Option (Nat × Nat) :=
  if isRegion code then regionCheck (s.region code) s.grp.pos write false else none

/-- n bytes at an offset leave a region operand: REGION_BOUNDS with detail lane. -/
def State.regionLeft (s : State) (code o n lane : Nat) : Option (Nat × Nat) :=
  if isRegion code && decide ((s.region code).len < o + n) then some (0x10, lane) else none

/-- n bytes at an offset leave a window operand (R297). -/
def State.windowLeft (s : State) (code o n lane : Nat) : Option (Nat × Nat) :=
  if code = 32 then (if s.team.inLocal o n then none else some (0x10, 64 + lane))
  else if code = 33 then (if s.team.inBanks o n then none else some (0x10, 96 + lane))
  else none

/-- The first trap of a list of checks. -/
def firstTrap : List (Option (Nat × Nat)) → Option (Nat × Nat)
  | [] => none
  | some x :: _ => some x
  | none :: xs => firstTrap xs

/-- The CTRL field (R296). -/
structure Ctrl where
  bs : Bool
  ma : Bool
  bar : Nat
  et : Nat
  bad : Bool

def ctrlOf (w3 : Nat) : Ctrl :=
  { bs := bit w3 31, ma := bit w3 30, bar := bits w3 27 24, et := bits w3 23 20
    bad := (bit w3 30 && !bit w3 31) || bits w3 29 28 != 0 || bits w3 19 16 != 0 }

/-- The barrier check of R297. -/
def State.barrierCheck (s : State) (c : Ctrl) : Option (Nat × Nat) :=
  if c.bs && !(s.team.barrier c.bar).init then some (0x28, 3) else none

/-- ENGINE_MASK: a live lane is outside the fragment or not guarded-on (R34, R297). -/
def State.maskCheck (s : State) (io : Issue) : Option (Nat × Nat) :=
  if within s.grp.live (io.t ||| io.w) then none else some (4, 0)

/-! ### What holds a transfer at issue (R293, R298) -/

/-- R251 for a new transfer: an access or a transfer of the group in flight to a line of it is of class A or V, or of another class. -/
def State.piecesInFlight (s : State) (c : Copy) : Bool :=
  c.places.any (fun (loc, k) =>
    s.txns.any (fun (_, u) => u.group == s.cur && u.copy.isNone && u.lanes.any (fun q =>
      s.meetsPlace u q loc && (u.clsOf q != 0 || u.clsOf q != k))) ||
    s.copies.any (fun (_, e) => e.group == s.cur && e.places.any (fun (l, j) => lineOf l == lineOf loc && (j != 0 || j != k))))

/-- Registers of the group's own window in a list of generic ranges. -/
def State.windowRegs (s : State) (rs : List (Nat × Nat)) : List Nat :=
  rs.flatMap (fun (a, n) => if localBase ≤ a then s.ownWords (a - localBase) n else [])

/-- Entries of the copy table in use. -/
def State.tableUsed (s : State) (cl : Nat) : Nat := (s.copies.filter (fun (_, c) => c.cluster == cl && !c.killed)).length

/-- Everything that holds a transfer at issue. -/
def State.transferHeld (s : State) (c : Copy) (reads writes : List (Nat × Nat)) : Bool :=
  s.memoryHeld || (isRegion c.src && s.relocating c.src) || (isRegion c.dst && s.relocating c.dst) ||
    decide (Config.copyPlaces ≤ s.tableUsed s.team.cluster) || s.grp.counterFull 4 ||
    s.grp.footHeld reads writes || s.piecesInFlight c ||
    (s.windowRegs (reads ++ writes)).any (fun r => s.grp.busy.any (fun b => b.1 == r)) || (c.strong && !s.allQuiet)

/-- The copy of the issuing fragment, without its pieces. -/
def State.copyOf (s : State) (kind : CopyKind) (src dst : Nat) (ctl : Ctrl) : Copy :=
  let rs := s.region src
  let rd := s.region dst
  { kind, group := s.cur, team := s.grp.team, cluster := s.team.cluster, frag := s.grp.cur.id, et := ctl.et, src, dst
    srcKind := if isRegion src then rs.kind else .empty, dstKind := if isRegion dst then rd.kind else .empty
    srcCls := if isRegion src then some rs.cls else none, dstCls := if isRegion dst then some rd.cls else none
    bs := ctl.bs, ma := ctl.ma, bar := ctl.bar, issued := s.cycle, fdom := s.launch.lcb.fdom }

/-- A transfer takes its table entry, its counter and its footprint. -/
def State.enterTransfer (s : State) (u : Use) (io : Issue) (c : Copy) (reads writes : List (Nat × Nat)) : State × Nat :=
  let id := s.nextId
  let g := s.grp.countUp 4
  let foot := fun (w : Bool) (rs : List (Nat × Nat)) => rs.map (fun (a, n) => ({ copy := id, base := a, len := n, writes := w } : Foot))
  let commons := if c.dstKind == .c then
      c.pieces.map (fun p => ({ cls := (c.writeCls p).getD 0, va := p.dst, n := p.n, loc := p.dloc } : CommonsWrite)) else []
  let g1 := { g with foot := g.foot ++ foot false reads ++ foot true writes, unswept := g.unswept ++ commons }
  (({ s with copies := tput s.copies id c, nextId := id + 1 }.setGrp g1).finish u io g1, id)

/-! ### Moving bytes (R301)

What a transfer reads or writes beyond the cluster goes as accesses do (R262, R271, R272, R320): one access for its sources, one
for its destinations. -/

/-- The number under which what a piece reads is kept. -/
def Piece.key (p : Piece) : Nat := 32 * p.dst + p.lane

/-- A source byte of a window, or of an `mst`'s snapshot; none for a piece that is read through a region register. -/
def State.readOwn (s : State) (c : Copy) (p : Piece) : Option Nat :=
  if c.kind == .mst then some (getLe (c.snap.getD []) p.src p.n)
  else match aperture p.src with
    | .local_ => some (s.windowLe true c.team (p.src - localBase) p.n)
    | .cluster => some (s.windowLe false c.team (p.src - clusterBase) p.n)
    | _ => none

/-- A piece's source in a window holds poisoned data (R417). -/
def State.pieceBad (s : State) (c : Copy) (p : Piece) : Bool :=
  c.kind != .mst && match aperture p.src with
    | .local_ => s.bytesBad true c.team (p.src - localBase) p.n
    | .cluster => s.bytesBad false c.team (p.src - clusterBase) p.n
    | _ => false

/-- A transfer has met poisoned data in a window: issue from its domain stops, and it does not move (R417). -/
def State.spoiltCopy (s : State) (c : Copy) : State := s.stopDomain ((s.teamOf c.team).ctx, c.fdom)

/-- What a transfer has of a piece's source. -/
def State.valueOf (s : State) (c : Copy) (p : Piece) : Option Nat := (s.readOwn c p).orElse (fun _ => tfind c.got p.key)

/-- The access for some pieces of transfer x: they allocate no line (R301), and travel in the class of their register (R293). -/
def Copy.access (c : Copy) (x now : Nat) (op : AccOp) (ps : List LaneAcc) : Txn :=
  let rd := op == .load
  { group := c.group, team := c.team, cluster := c.cluster, frag := c.frag, op, bytes := 16, nalloc := true, copy := some x, lanes := ps
    kind := if rd then c.srcKind else c.dstKind, cls := ((if rd then c.srcCls else c.dstCls)).getD 0, region := if rd then c.src else c.dst
    issued := c.issued, left := some now }

/-- The access leaves: what the cluster's cache serves is served at once (R262, R301), and stores that wait in the cluster's write-combining buffer
for its lines go home first (R221). -/
def State.enterAccess (s0 : State) (t : Txn) : State × Txn × Bool :=
  let s := (t.lanes.filter (fun p => t.op == .store && p.ptype == 1)).foldl (fun s' p => s'.drainLine t.cluster (lineOf p.loc)) s0
  let r := s.serveCluster t
  let t1 := { t with lanes := r.2 }
  if r.2.all (fun p => p.result.isSome) then (r.1, t1, true)
  else
    let id := r.1.nextId
    ({ r.1 with txns := tput r.1.txns id t1, nextId := id + 1 }.depart id, t1, false)

/-- A byte of a destination that a piece covers lies in a source range that makes it unpredictable: of the copy, or of another lane than one
that writes it (R299, R300). -/
def Copy.unpredictable (c : Copy) (a : Nat) : Bool :=
  c.ranges.any (fun (l, b, n) => decide (b ≤ a) && decide (a < b + n) &&
    (c.kind == .cpb || c.pieces.any (fun p => p.lane != l && decide (p.dst ≤ a) && decide (a < p.dst + p.n))))

/-- The bytes that a piece writes: those of its source, or free ones. -/
def Copy.blend (c : Copy) (free : Nat) (p : Piece) (v : Nat) : Nat :=
  ((List.range p.n).map (fun i =>
    (if c.unpredictable (p.dst + i) then (Config.freeByte (free * 2 ^ 28 + p.dst % 2 ^ 28 + i)).toNat else v / 256 ^ i % 256)
      * 256 ^ i)).sum

/-- Write bytes of a slot's image. -/
def State.putSlotBytes (s : State) (c : Copy) (p : Piece) (v : Nat) : State :=
  let cl := s.clusterOf c.cluster
  let o : OpSlot := tget {} cl.slots c.slot
  s.putCluster c.cluster { cl with slots := tput cl.slots c.slot { o with image := putLe o.image p.dst v p.n } }

/-- Write a piece's destination in a window or a slot. A slot takes free bytes for what the reach limit left unread; elsewhere nothing is
written (R306). -/
def State.writeOwn (s : State) (c : Copy) (p : Piece) (v : Option Nat) : State :=
  match v with
  | none =>
    if c.kind == .mld then s.putSlotBytes c p ((List.range p.n).map (fun i =>
      (Config.freeByte (s.free * 2 ^ 28 + p.dst + i)).toNat * 256 ^ i)).sum else s
  | some v =>
    let x := c.blend s.free p v
    if c.kind == .mld then s.putSlotBytes c p x
    else match aperture p.dst with
      | .local_ => (s.setWindowLe true c.team (p.dst - localBase) x p.n).cleanWords true c.team (p.dst - localBase) p.n
      | _ => (s.setWindowLe false c.team (p.dst - clusterBase) x p.n).cleanWords false c.team (p.dst - clusterBase) p.n

/-- The pieces of a region destination, with their bytes. -/
def State.storesOf (s : State) (c : Copy) : List LaneAcc :=
  c.pieces.filterMap (fun p => (s.valueOf c p).map (fun v =>
    { lane := p.key, va := p.dst, loc := p.dloc, ptype := p.dtype, n := p.n, a := c.blend s.free p v }))

/-- The pieces of a region source. -/
def loadsOf (ps : List Piece) : List LaneAcc :=
  ps.map (fun p => { lane := p.key, va := p.src, loc := p.sloc, ptype := p.stype, n := p.n })

/-- What an access has read, added to what a transfer has. -/
def gotFrom (got : Table Nat) (t : Txn) : Table Nat :=
  t.lanes.foldl (fun m p => match p.result with | some v => tput m p.lane v | none => m) got

/-! ### Completion (R306) -/

/-- A barrier of a team is signalled. -/
def State.signal (s : State) (c : Copy) : State :=
  let t := s.teamOf c.team
  if c.bs && t.st != .absent then s.putTeam c.team (t.setBarrier c.bar ((t.barrier c.bar).signal c.bytes c.ma)) else s

/-- A completing `mld` leaves its slot loaded (R348). -/
def State.loadSlot (s : State) (c : Copy) : State :=
  if c.kind == .mld then
    let cl := s.clusterOf c.cluster
    s.putCluster c.cluster { cl with slots := tput cl.slots c.slot { tget {} cl.slots c.slot with st := .loaded, busy := false, bad := false } }
  else s

/-- The homes that a reducing copy has reached. -/
def State.homesOf (s : State) (c : Copy) : List Nat := (c.pieces.map (fun p => s.homeOf p.dloc)).eraseDups

/-- CLOSE leaves for a home that a stream reached (R304). -/
def State.sendClose (s : State) (h x : Nat) (c : Copy) : State :=
  s.sendLane 0 (bits c.issued 25 6) 0 (s.ownNum, c.cluster / 2048) (if h < 1000 then (s.ownNum, h) else (h - 1000, 0)) (s.issuerOf c.team)
    (.close h x)

/-- The copy completes: counter, footprint, signal, entry (R306). -/
def State.endCopy (s : State) (x : Nat) (c : Copy) (lost : Bool) : State :=
  let g := s.group c.group
  let s1 := if s.hasGroup c.group then
      (s.putGroup c.group { g.countDown 4 with foot := g.foot.filter (fun f => f.copy != x) }).countEvents c.group c.frag c.evs
    else s
  let s2 := ((s1.signal c).loadSlot c)
  let s3 := { s2 with copies := tdel s2.copies x, free := s2.free + 1 }
  let s4 := if lost && s.hasGroup c.group then s3.deferTrap c.group 0x18 32 c.frag else s3
  let s5 := if c.kind == .cpr then (s4.homesOf c).foldl (fun s' h => s'.sendClose h x c) s4 else s4
  s5.endTeam c.team

/-- What a transfer lacks of some pieces' sources is asked for. -/
def State.askSources (s : State) (x : Nat) (c : Copy) (ps : List Piece) : State × Copy :=
  let need := ps.filter (fun p => (s.valueOf c p).isNone)
  if need.isEmpty then ({ s with copies := tput s.copies x c }, c)
  else
    let r := s.enterAccess (c.access x s.cycle .load (loadsOf need))
    let c1 := if r.2.2 then { c with got := gotFrom c.got r.2.1 } else c
    ({ r.1 with copies := tput r.1.copies x c1 }, c1)

/-- An access of transfer x is on its way. -/
def State.moving (s : State) (x : Nat) : Bool := s.txns.any (fun (_, t) => t.copy == some x)

/-- With its sources read, a transfer writes its destinations, every source before any (R299, R300); with them written, it ends. Poisoned data is
not read (R417). -/
def State.writeTargets (s : State) (x : Nat) (c : Copy) : State :=
  if s.moving x then s
  else if c.writing then s.endCopy x c c.lost
  else if c.pieces.any (s.pieceBad c) then s.spoiltCopy c
  else if isRegion c.dst then
    let c1 := { c with writing := true }
    let r := { s with copies := tput s.copies x c1 }.enterAccess (c.access x s.cycle .store (s.storesOf c))
    if r.2.2 then r.1.endCopy x c1 c1.lost else r.1
  else
    let vs := c.pieces.map (fun p => (p, s.valueOf c p))
    (vs.foldl (fun s' (p, v) => s'.writeOwn c p v) s).endCopy x c c.lost

/-! ### Reducing copies (R302 to R305) -/

/-- Combine n bytes element by element: the new bytes and the events of fadd. -/
def reduceBytes (op : AccOp) (et n old src : Nat) : Nat × List Nat :=
  if op == .fadd then
    let f := fmtOf et
    let md : FMode := { rm := 0, sat := false, ftz := false }
    joinElems f.width ((List.range (8 * n / f.width)).map (fun e =>
      let x := f.decode false (old / 2 ^ (f.width * e) % 2 ^ f.width)
      let y := f.decode false (src / 2 ^ (f.width * e) % 2 ^ f.width)
      f.result md [x, y] (exactSum 0 [x.exact, y.exact])))
  else
    let ty := intTy et false
    joinElems ty.w ((List.range (8 * n / ty.w)).map (fun e =>
      let x := ty.value (ty.raw old e)
      let y := ty.value (ty.raw src e)
      (wrap ty.w (if op == .min then min x y else if op == .max then max x y else x + y), [])))

/-- The chunks of a reducing copy, in order: the pieces of one destination line each. -/
def chunkLists (ps : List Piece) : List (List Piece) :=
  ((ps.map (fun p => lineOf p.dst)).eraseDups).map (fun l => ps.filter (fun p => lineOf p.dst == l))

/-- The lowest tag not acknowledged. -/
def Copy.low (c : Copy) : Nat := ((List.range (c.sent + 1)).find? (fun t => !c.acked.contains t)).getD c.sent

/-- The cluster's lines that a chunk covers are written back and dropped before it leaves (R302). -/
def State.clearLines (s : State) (c : Copy) (ps : List Piece) : State :=
  ((ps.map (fun p => lineOf p.dloc)).eraseDups).foldl (fun s' l =>
    if c.dstKind == .c then (if s'.owns c.cluster l then s'.settleLine l else s').dropCopy c.cluster l
    else (s'.writeBackBytes c.cluster (fun a _ => lineOf a == l)).dropBytes c.cluster (fun a _ => lineOf a == l)) s

/-- A chunk, or the answer to it, travels in the class of its register, forced to O on a device or strongly ordered page (R293, R303). -/
def State.sendChunk (s : State) (n : Nat) (k : Chunk) (response : Bool) (e : Event) : State :=
  let c : Copy := tget {} s.copies k.copy
  let here := (s.ownNum, k.cluster / 2048)
  let there := if k.home < 1000 then (s.ownNum, k.home) else (k.home - 1000, 0)
  let src := if response then there else here
  let dst := if response then here else there
  s.inject { cls := (((k.work.head?).bind (fun w => c.writeCls w.1)).getD 0), vc := if response then 1 else 0, age := k.age
             bytes := if response then 0 else (k.work.map (fun w => w.1.n)).sum
             srcDev := src.1, srcDie := src.2, dstDev := dst.1, dst := dst.2, srcCluster := k.cluster % 2048, response, txn := n
             event := some e, issuer := s.issuerOf k.team }

/-- The pieces of a chunk. -/
def Copy.chunkPieces (c : Copy) (tag : Nat) : List Piece := (chunkLists c.pieces).getD tag []

/-- A chunk whose sources have been read leaves, with the LOW of the moment (R303). -/
def State.fillChunk (s : State) (n : Nat) : State :=
  match tfind s.chunks n with
  | none => s
  | some k =>
    let c : Copy := tget {} s.copies k.copy
    let ps := c.chunkPieces k.tag
    let vs := ps.filterMap (fun p => (s.valueOf c p).map (fun v => (p, v)))
    if !k.work.isEmpty || vs.length != ps.length then s
    else if ps.any (s.pieceBad c) then s.spoiltCopy c
    else
      let s1 := s.clearLines c ps
      let k1 := { k with low := c.low, work := vs, issued := s1.cycle }
      { s1 with chunks := tput s1.chunks n k1 }.sendChunk n k1 false (.chunk n)

/-- Take up chunks while their tags lie within 64 of LOW, so that no more than 64 are unacknowledged and every tag fits its home's record
(R303, R304). -/
def State.sendChunks (s : State) (x : Nat) : Nat → State
  | 0 => s
  | fuel + 1 =>
    match tfind s.copies x with
    | none => s
    | some c =>
      match (chunkLists c.pieces)[c.sent]? with
      | none => s
      | some ps =>
        if c.low + 64 ≤ c.sent ∨ c.lost then s
        else
          let k : Chunk :=
            { copy := x, team := c.team, cluster := c.cluster, tag := c.sent, low := c.low, age := bits c.issued 25 6
              home := s.homeOf (ps.headD {}).dloc, issued := s.cycle }
          let n := s.nextId
          let s1 := ({ s with chunks := tput s.chunks n k, nextId := n + 1 }.askSources x { c with sent := c.sent + 1 } ps).1
          (s1.fillChunk n).sendChunks x fuel

/-- The chunks of a reducing copy in flight. -/
def State.chunksOf (s : State) (x : Nat) : List (Nat × Chunk) := s.chunks.filter (fun (_, k) => k.copy == x)

/-- Chunks whose sources have come leave; where a source did not answer, its chunks do not (R306). -/
def State.fillChunks (s : State) (x : Nat) (c : Copy) : State :=
  let s1 := (s.chunksOf x).foldl (fun s' (n, _) => s'.fillChunk n) s
  if c.lost && !s1.moving x then { s1 with chunks := s1.chunks.filter (fun (_, k) => !(k.copy == x && k.work.isEmpty)) } else s1

/-- Every chunk of a reducing copy that will be is acknowledged. -/
def State.chunksDone (s : State) (x : Nat) (c : Copy) : Bool :=
  c.acked.length == (chunkLists c.pieces).length || (c.lost && (s.chunksOf x).isEmpty)

/-- The key of a copy's stream at a home (R303, R304). -/
def streamKey (home copy : Nat) : Nat := 4096 * copy + home

/-- Stream records of a home in use. -/
def State.streamsAt (s : State) (home : Nat) : Nat := (s.streams.filter (fun (k, _) => k % 4096 == home)).length

/-- The chunk is the oldest refused one of its home, by AGE: the record kept back is for it (R304). -/
def State.oldestRefused (s : State) (n : Nat) (k : Chunk) : Bool :=
  let units := fun (a : Nat) => (bits s.cycle 25 6 + 2 ^ 20 - a) % 2 ^ 20
  s.chunks.all (fun (m, j) => m == n || !j.refused || j.home != k.home || decide (units j.age < units k.age) ||
    (j.age == k.age && decide (n ≤ m)))

/-- Write n bytes of a commons line at its home for a cluster: the copies of the line are invalidated (R266). -/
def State.writeCommons (s : State) (cl loc v n x : Nat) : State :=
  let line := lineOf loc
  ((s.setHomeLe loc v n).homeWritten line cl x).touch line (s.clusterKey cl)

/-- Apply a chunk at its home (R302). What the issuing cluster has fetched of a line since the chunk left is dropped, so that no later
read there misses it (R312). -/
def State.applyChunk (s : State) (n : Nat) (k : Chunk) : State :=
  let c : Copy := tget {} s.copies k.copy
  let r := k.work.foldl (fun (q : State × List Nat) (p, v) =>
    let line := lineOf p.dloc
    let s1 := if c.dstKind != .c && p.dtype == 1 then q.1.drainLine c.cluster line else q.1
    let x := reduceBytes c.op c.et p.n (s1.homeLe p.dloc p.n) v
    (if c.dstKind == .c then s1.writeCommons c.cluster p.dloc x.1 p.n 0
     else (s1.setHomeLe p.dloc x.1 p.n).dropBytes c.cluster (fun a b => !b.dirty && lineOf a == line), q.2 ++ x.2)) (s, [])
  { r.1 with chunks := tput r.1.chunks n { k with evs := r.2 } }

/-- May a chunk be applied at its line's home, or does it wait there, as an access does: for its turn, for an owner's data or for a page that
other devices hold (R262, R271, R272)? -/
def State.chunkIn (s : State) (n : Nat) (k : Chunk) : State × Bool :=
  let c : Copy := tget {} s.copies k.copy
  let p := (k.work.headD ({}, 0)).1
  if c.dstKind == .c then
    s.takeIn n { op := .add, kind := .c, team := k.team, cluster := 2 ^ 40, copy := some k.copy } { loc := p.dloc, n := p.n, ptype := p.dtype }
  else (s, true)

/-- CHUNK (R304): a chunk arrives at its home; a duplicate is acknowledged and not applied. -/
def execChunk (n : Nat) (s : State) : Host.Outcome State Fault Refusal :=
  .next (match tfind s.chunks n with
    | none => s
    | some k =>
      let key := streamKey k.home k.copy
      let old := tfind s.streams key
      let limit := if s.oldestRefused n k && k.refused then Config.dedupRecords else Config.dedupRecords - 1
      if (tfind s.copies k.copy).isNone then s.sendChunk n k true (.chunkAck n)
      else if old.isNone ∧ limit ≤ s.streamsAt k.home then
        { s with chunks := tput s.chunks n { k with refused := true } }.sendChunk n k true (.chunkRetry n)
      else
        let rec0 : Stream := old.getD { base := k.low }
        let rec1 : Stream := if rec0.base < k.low then { base := k.low, map := rec0.map >>> (k.low - rec0.base) } else rec0
        if k.tag < rec1.base ∨ rec1.map.getLsbD (k.tag - rec1.base) then
          { s with streams := tput s.streams key rec1 }.sendChunk n k true (.chunkAck n)
        else
          let a := s.chunkIn n k
          if !a.2 then a.1
          else
            let s1 := { a.1 with streams := tput a.1.streams key { rec1 with map := rec1.map ||| (1#64 <<< (k.tag - rec1.base)) } }
            let s2 := (s1.applyChunk n { k with refused := false }).sendChunk n k true (.chunkAck n)
            s2.leaveQueue (lineOf (k.work.headD ({}, 0)).1.dloc) n)

/-- The copy of a chunk is still alive. -/
def State.aliveCopy (s : State) (k : Chunk) : Option Copy := (tfind s.copies k.copy).filter (fun c => !c.killed)

/-- CHUNK_RETRY (R304): a refused chunk is sent again after its delay; one of a killed copy is not (R294). -/
def execChunkRetry (n : Nat) (s : State) : Host.Outcome State Fault Refusal :=
  .next (match tfind s.chunks n with
    | none => s
    | some k =>
      match s.aliveCopy k with
      | none => { s with chunks := tdel s.chunks n }.dropCompletion k.cluster
      | some c =>
        if k.refused then
          let k1 := { k with low := c.low }
          { s with chunks := tput s.chunks n k1 }.sendChunk n k1 false (.chunk n)
        else s)

/-- COMMONS_RESEND (R272, R274): a refused access or chunk is sent again, its age unchanged. -/
def execCommonsResend (n : Nat) (s : State) : Host.Outcome State Fault Refusal :=
  s.onC n .resend (fun s m =>
    match tfind s.chunks m.txn with
    | none => s.sendAgain m.txn m.line
    | some k =>
      match s.aliveCopy k with
      | none => { s with chunks := tdel s.chunks m.txn }.dropCompletion k.cluster
      | some c =>
        let k1 := { k with low := c.low }
        { s with chunks := tput s.chunks m.txn k1 }.sendChunk m.txn k1 false (.chunk m.txn))

/-- A chunk has not left its cluster yet. -/
def State.unsent (s : State) (n : Nat) : Bool := s.net.packets.any (fun (_, j) => j.waiting && j.event == some (.chunk n))

/-- CHUNK_RESEND (R305): a chunk is sent again under its own TAG; one that has not left yet, whose buffer a soft error has spoilt, is read
from its source again. Nothing is sent for a killed copy (R294). -/
def execChunkResend (n : Nat) (s : State) : Host.Outcome State Fault Refusal :=
  .next (match tfind s.chunks n with
    | none => s
    | some k =>
      match s.aliveCopy k with
      | none => s
      | some c =>
        if s.unsent n then
          let ps := c.chunkPieces k.tag
          let s1 := { s with
            chunks := tput s.chunks n { k with work := [] }
            net := { s.net with packets := s.net.packets.filter (fun (_, j) => !(j.waiting && j.event == some (Event.chunk n))) } }
          (s1.askSources k.copy { c with got := c.got.filter (fun (i, _) => !ps.any (fun p => p.key == i)) } ps).1.fillChunk n
        else
          let k1 := { k with low := c.low, resent := k.resent + 1, issued := s.cycle }
          { s with chunks := tput s.chunks n k1 }.sendChunk n k1 false (.chunk n))

/-- CHUNK_ACK (R303, R306): the last acknowledgement completes the copy. -/
def execChunkAck (n : Nat) (s : State) : Host.Outcome State Fault Refusal :=
  .next (match tfind s.chunks n with
    | none => s
    | some k =>
      let s1 := { s with chunks := tdel s.chunks n }
      match tfind s.copies k.copy with
      | none => s1.dropCompletion k.cluster
      | some c =>
        if c.killed then s1.dropCompletion k.cluster
        else
          let c1 := { c with acked := if c.acked.contains k.tag then c.acked else c.acked ++ [k.tag] }
          let s2 := { s1 with copies := tput s1.copies k.copy c1 }
          let s3 := if s.hasGroup c.group then s2.countEvents c.group c.frag k.evs else s2
          if s3.chunksDone k.copy c1 then s3.owe (.copyComplete k.copy) else s3.sendChunks k.copy 64)

/-- CLOSE (R304): a home frees the record of a finished stream. -/
def execClose (home st : Nat) (s : State) : Host.Outcome State Fault Refusal :=
  .next { s with streams := tdel s.streams (streamKey home st) }

/-- COPY_COMPLETE (R306): a transfer goes on: it asks for its sources, then writes its destinations, and with these done it completes. It
waits for an `mst`'s snapshot and for a `cpr`'s acknowledgements. DESIGN CHOICE, log 41. -/
def execCopyComplete (x : Nat) (s : State) : Host.Outcome State Fault Refusal :=
  .next (match tfind s.copies x with
    | none => s
    | some c =>
      if c.killed then { s with copies := tdel s.copies x }.dropCompletion c.cluster
      else if c.kind == .mst && c.snap.isNone then s
      else if c.kind == .cpr then
        let s1 := s.fillChunks x c
        if s1.chunksDone x c then s1.endCopy x c c.lost else s1
      else if c.asked then s.writeTargets x c
      else
        let r := s.askSources x { c with asked := true } c.pieces
        r.1.writeTargets x r.2)

/-! ### The copy instructions -/

/-- The words of a descriptor quad in a lane. -/
def Group.quadWords (g : Group) (b l : Nat) : Nat × Nat × Nat × Nat :=
  ((g.reg b l).toNat, (g.reg (b + 1) l).toNat, (g.reg (b + 2) l).toNat, (g.reg (b + 3) l).toNat)

/-- A lane's descriptor of a `cpl` (R295). -/
structure LaneCopy where
  lane : Nat
  src : Nat
  dst : Nat
  n : Nat
  bad : Bool

def laneCopy (g : Group) (b l : Nat) : LaneCopy :=
  let (w0, w1, w2, w3) := g.quadWords b l
  let sz := bits w3 11 8
  let src := w0 + bits w1 7 0 * 2 ^ 32
  let dst := w2 + bits w3 7 0 * 2 ^ 32
  { lane := l, src, dst, n := 2 ^ sz
    bad := bits w1 31 8 != 0 || bits w3 15 12 != 0 || decide (4 < sz) || src % 2 ^ sz != 0 || dst % 2 ^ sz != 0 }

/-- Codes of an operand on the scoreboard. -/
def operandCodes (code : Nat) : List Nat := if isRegion code then [128 + code] else []

/-- `cpl` (R299). -/
def execCpl (d a b : BitVec 6) (s : State) : Host.Outcome State Fault Refusal :=
  let src := a.toNat
  let dst := d.toNat
  let u : Use := { srcs := operandCodes dst ++ operandCodes src ++ quadRegs b.toNat }
  s.run u (fun io =>
    let ls := (lanesOf io.t).map (laneCopy io.see b.toNat)
    let ctl := ctrlOf (io.see.quadWords b.toNat (lowest io.t)).2.2.2
    match s.maskCheck io with
    | some (c, x) => s.trap c x
    | none =>
      if io.t = 0 then s.finish u io s.grp
      else
        let check := firstTrap ([(ls.find? (·.bad)).map (fun l => (0x10, 160 + l.lane)),
            (if ctl.bad ∨ ctl.et ≠ 0 then some (0x10, 192) else none), s.barrierCheck ctl, s.operandCheck src false,
            s.operandCheck dst true] ++
          ls.flatMap (fun l => [s.regionLeft src l.src l.n l.lane, s.regionLeft dst l.dst l.n l.lane]) ++
          ls.flatMap (fun l => [s.windowLeft src l.src l.n l.lane, s.windowLeft dst l.dst l.n l.lane]))
        match check with
        | some (c, x) => s.trap c x
        | none =>
          let ps := ls.flatMap (fun l => s.movePieces l.lane src l.src dst l.dst [(0, l.n)])
          let reads := ls.map (fun l => (s.operandAddr src l.src, l.n))
          let writes := ls.map (fun l => (s.operandAddr dst l.dst, l.n))
          let c := { s.copyOf .cpl src dst ctl with
            pieces := ps, ranges := ls.map (fun l => (l.lane, s.operandAddr src l.src, l.n)), bytes := (ls.map (·.n)).sum
            strong := ps.any (fun p => p.stype == 3 || p.dtype == 3) }
          if s.transferHeld c reads writes then s.stand
          else let q := s.enterTransfer u io c reads writes; q.1.owe (.copyComplete q.2))

/-- The descriptor of a `cpb` or `cpr` (R295): source and destination offsets, bytes, and whether it fails. -/
def bulkCopy (g : Group) (b l : Nat) : Nat × Nat × Nat × Bool :=
  let (w0, w1, w2, w3) := g.quadWords b l
  let src := w0 + bits w1 7 0 * 2 ^ 32
  let dst := w2 + bits w3 7 0 * 2 ^ 32
  let len := bits w1 31 8 * 16
  (src, dst, len, bits w3 15 8 != 0 || len == 0 || src % 16 != 0 || dst % 16 != 0)

/-- `cpb` and `cpr`: a bulk transfer in 16-byte pieces. -/
def State.bulk (s : State) (kind : CopyKind) (op : AccOp) (types : List Nat) (dst src b : Nat) : Host.Outcome State Fault Refusal :=
  let u : Use := { srcs := operandCodes dst ++ operandCodes src ++ quadRegs b }
  s.run u (fun io =>
    let l := lowest io.t
    let (so, d_o, len, bad) := bulkCopy io.see b l
    let ctl := ctrlOf (io.see.quadWords b l).2.2.2
    match s.maskCheck io with
    | some (c, x) => s.trap c x
    | none =>
      if io.t = 0 then s.finish u io s.grp
      else
        let check := firstTrap
          [if bad ∨ ctl.bad ∨ (kind = .cpb ∧ ctl.et ≠ 0) then some (0x10, 192) else none,
           if kind = .cpr ∧ !types.contains ctl.et then some (2, 3) else none, s.barrierCheck ctl, s.operandCheck src false,
           s.operandCheck dst true, s.regionLeft src so len l, s.regionLeft dst d_o len l, s.windowLeft src so len l,
           s.windowLeft dst d_o len l]
        match check with
        | some (c, x) => s.trap c x
        | none =>
          let ps := s.movePieces l src so dst d_o ((List.range (len / 16)).map (fun i => (16 * i, 16)))
          let reads := [(s.operandAddr src so, len)]
          let writes := [(s.operandAddr dst d_o, len)]
          let c := { s.copyOf kind src dst ctl with
            op, pieces := ps, ranges := if kind = .cpb then [(l, s.operandAddr src so, len)] else [], bytes := len
            strong := ps.any (fun p => p.stype == 3 || p.dtype == 3) }
          if s.transferHeld c reads writes then s.stand
          else
            let q := s.enterTransfer u io c reads writes
            if kind = .cpr then q.1.sendChunks q.2 64 else q.1.owe (.copyComplete q.2))

/-- `cpb` (R300). -/
def execCpb (d a b : BitVec 6) (s : State) : Host.Outcome State Fault Refusal := s.bulk .cpb .store [] d.toNat a.toNat b.toNat

/-- `cpr.add` (R302). -/
def execCprAdd (d a b : BitVec 6) (s : State) : Host.Outcome State Fault Refusal :=
  s.bulk .cpr .add (List.range 8) d.toNat a.toNat b.toNat

/-- `cpr.min` (R302). -/
def execCprMin (d a b : BitVec 6) (s : State) : Host.Outcome State Fault Refusal :=
  s.bulk .cpr .min (List.range 8) d.toNat a.toNat b.toNat

/-- `cpr.max` (R302). -/
def execCprMax (d a b : BitVec 6) (s : State) : Host.Outcome State Fault Refusal :=
  s.bulk .cpr .max (List.range 8) d.toNat a.toNat b.toNat

/-- `cpr.fadd` (R302). -/
def execCprFadd (d a b : BitVec 6) (s : State) : Host.Outcome State Fault Refusal :=
  s.bulk .cpr .fadd [8, 9, 10] d.toNat a.toNat b.toNat

/-! ### The reach limit (R246, R259, R305) -/

/-- A chunk is abandoned: it is sent again, or, the second time, its fault domain is killed (R305). For a copy that is gone or killed, nothing
more happens. -/
def State.abandonChunk (s : State) (n : Nat) (k : Chunk) : State :=
  if (s.aliveCopy k).isNone then { s with chunks := tdel s.chunks n }
  else if !k.abandoned then { s with chunks := tput s.chunks n { k with issued := s.cycle, abandoned := true } }.owe (.chunkResend n)
  else
    let t := s.teamOf k.team
    { s with chunks := tdel s.chunks n }.beginKill
      { ctx := t.ctx, whole := false, fdom := (s.launchOf t.launch).lcb.fdom, cause := 4 }

/-- REACH_LIMIT (R246): request x has had no reply for 2^21 cycles. -/
def execReachLimit (x : Nat) (s : State) : Host.Outcome State Fault Refusal :=
  .next (match tfind s.txns x, tfind s.reqs x, tfind s.chunks x with
    | some t, _, _ => if t.lanes.all (·.arrived) then s else s.abandon x t
    | none, some r, _ =>
      if r.ended.isSome || !s.unanswered x r then s
      else match r.purpose with
        | .bor | .load _ | .sym _ _ => s.failRequest x r 4 none
        | .up => s.endUp x { r with ended := some 2 }
        | _ => s.answered x r
    | none, none, some k => s.abandonChunk x k
    | none, none, none => s)

end Sys2Proof.Machine
end

