-- ==== Sys2Proof/Machine/Order.lean ====
section
/-! DEFINITION. Fences (R322 to R326): what they cover, what they wait for, and the sweeps they make. -/

namespace Sys2Proof.Machine

/-- What a fence covers: a class mask, a direction, and a generic range where one is named (R323, R325). -/
structure Cover where
  classes : Nat
  loads : Bool
  stores : Bool
  range : Option (Nat × Nat) := none

/-- n bytes at a generic address overlap the range. -/
def Cover.meets (c : Cover) (a n : Nat) : Bool :=
  match c.range with
  | none => true
  | some (b, m) => decide (a < b + m) && decide (b < a + n)

/-- A class is covered; a window access, which has none, has every class. -/
def Cover.hasClass (c : Cover) (k : Option Nat) : Bool := match k with | none => c.classes != 0 | some k => bit c.classes k

/-- An access in flight is covered. -/
def Cover.coversTxn (c : Cover) (t : Txn) : Bool :=
  ((c.loads && t.op.reads) || (c.stores && t.op.writes)) &&
    t.lanes.any (fun p => c.hasClass (some (t.clsOf p)) && c.meets p.va p.n)

/-- A transfer in flight is covered: its reads are loads, its writes stores. -/
def Cover.coversCopy (c : Cover) (x : Copy) : Bool :=
  (c.loads && x.kind != .mst && x.pieces.any (fun p => c.hasClass (x.readCls p) && c.meets p.src p.n)) ||
    (c.loads && x.kind == .cpr && x.pieces.any (fun p => c.hasClass (x.writeCls p) && c.meets p.dst p.n)) ||
    (c.stores && x.kind != .mld && x.pieces.any (fun p => c.hasClass (x.writeCls p) && c.meets p.dst p.n))

/-- A window access in flight that a fence covers: an `fput` or `fget` of the group that waits, which has every class and the direction of
its instruction (R222, R323); a FIFO has no address in a range. -/
def State.fifoInFlight (s : State) (c : Cover) : Bool :=
  c.range.isNone && c.hasClass none && s.team.banks.any (fun b =>
    (c.stores && b.puts.any (fun x => x.group == s.cur && s.stillWaits x)) || (c.loads && b.gets.any (fun x => x.group == s.cur && s.stillWaits x)))

/-- A covered access of the issuing group is still in flight. -/
def State.coveredInFlight (s : State) (c : Cover) : Bool :=
  s.fifoInFlight c || s.txns.any (fun (_, t) => t.group == s.cur && c.coversTxn t) || s.copies.any (fun (_, x) => x.group == s.cur && c.coversCopy x)

/-- Commons writes of the group that the fence covers and no sweep at spread 3 has followed. DEDUCED, log 23. -/
def Group.coveredWrites (g : Group) (c : Cover) : List CommonsWrite :=
  if c.stores then g.unswept.filter (fun w => c.hasClass (some w.cls) && c.meets w.va w.n) else []

/-- The writes that the sweep waited for has followed at spread 3 are swept; those made since are not (R324). -/
def State.sweptWrites (s : State) (wide : Bool) : List CommonsWrite :=
  match s.grp.sweeping with
  | some id => if wide then (tget ({} : Sweep) s.sweeps id).writes else []
  | none => []

/-- A fence: wait for what is covered, drain, sweep, complete (R324). `scope` gives the scopes of the sweep for its covered writes, `wide`
says that this is spread 3 for all of them, and `w` what the fragment waits in: a fence has issued, a task instruction has not. -/
def State.fenceOp (s : State) (u : Use) (io : Issue) (c : Cover) (scope : List CommonsWrite → List Scope) (wide : Bool) (w : Wait)
    (last : State → State) : State :=
  if s.coveredInFlight c then (if c.stores then s.drainWc else s).stand w
  else
    let g := { s.grp with unswept := (s.sweptWrites wide).foldl (fun ws x => ws.erase x) s.grp.unswept }
    match s.swept with
    | some true => last ({ s with sweeps := tdel s.sweeps (s.grp.sweeping.getD 0) }.finish u io g)
    | some false => s.stand w
    | none =>
      let ws := s.grp.coveredWrites c
      if ws.isEmpty || (scope ws).isEmpty then last (s.finish u io s.grp) else s.startSweep (scope ws) ws w

/-- The scope of a sweep at spread 3 (R278). -/
def State.wholeScope (s : State) : List Scope := [{ anchor := s.clusterKey s.team.cluster, spread := 3 }]

/-- Directions of a fence's D field. -/
def coverOf (r : BitVec 2) (k : BitVec 3) : Cover := { classes := k.toNat, loads := r.getLsbD 0, stores := r.getLsbD 1 }

/-- `fence` (R324): its sweep is at spread 3. -/
def execFence (r : BitVec 2) (k : BitVec 3) (s : State) : Host.Outcome State Fault Refusal :=
  let u : Use := { guarded := false }
  let c := coverOf r k
  s.run u (fun io => s.fenceOp u io c (fun _ => s.wholeScope) true .fence id)

/-- `fencer` (R325): its sweep is the union of the scopes of the covered writes' lines. -/
def execFencer (a b : BitVec 6) (r : BitVec 2) (k : BitVec 3) (s : State) : Host.Outcome State Fault Refusal :=
  let u : Use := { guarded := false, srcs := regs true a.toNat ++ regs true b.toNat }
  s.run u (fun io =>
    let l := lowest s.active
    let base := io.see.val true a.toNat l
    let len := io.see.val true b.toNat l
    if 2 ^ 64 < base + len then s.trap 0x10 193
    else
      let c := { coverOf r k with range := some (base, len) }
      if len = 0 then s.finish u io s.grp
      else s.fenceOp u io c (fun ws => ((ws.map (fun w => s.tableScope (lineOf w.loc))).eraseDups).filter (·.spread != 0)) false .fence id)

/-- The physical spans of a launch's code range. -/
def Launch.codeSpans (l : Launch) : List (Nat × Nat) := pageSpans l.pins l.lcb.codeBase l.lcb.codeLen

/-- A cluster's instruction cache drops the code range of a launch. -/
def State.dropCode (s : State) (cl : Nat) (l : Launch) : State :=
  let c := s.clusterOf cl
  s.putCluster cl { c with icache := c.icache.filter (fun (a, _) => !inSpans l.codeSpans a) }

/-- The other groups of a cluster go on seeing the words that leave its instruction cache, until their own `fencei` (R326). -/
def State.keepCode (s : State) (cl : Nat) (l : Launch) : State :=
  let old := (s.clusterOf cl).icache.filter (fun (a, _) => inSpans l.codeSpans a)
  { s with groups := s.groups.map (fun (k, g) =>
      (k, if k != s.cur && (s.teamOf g.team).cluster == cl && (s.teamOf g.team).st != .saved then
          { g with code := old.foldl (fun m (a, w) => if (tfind m a).isSome then m else tput m a w) g.code } else g)) }

/-- The code range is fetched anew: dirty lines that the team holds there are written back, and the cluster's instruction cache and
the group's own words drop it (R326). -/
def State.refetchCode (s : State) : State :=
  let l := s.launch
  let s1 := s.writeBackBytes s.team.cluster (fun a b => !b.commons && b.team == s.grp.team && inSpans l.codeSpans a)
  ((s1.keepCode s.team.cluster l).setGrp { s1.grp with ibuf := [], code := [] }).dropCode s.team.cluster l

/-- `fencei` (R326). -/
def execFencei (s : State) : Host.Outcome State Fault Refusal :=
  let u : Use := { guarded := false }
  s.run u (fun io => s.fenceOp u io { classes := 7, loads := true, stores := true } (fun _ => s.wholeScope) true .fence
    State.refetchCode)

end Sys2Proof.Machine
end

