-- ==== Sys2Proof/Machine/FloatOps.lean ====
section
/-! DEFINITION. The floating-point instructions (R134 to R145, R151). -/

namespace Sys2Proof.Machine

/-! ### Shapes -/

def floatTypes : List Nat := [8, 9, 10]

/-- Number of elements of a float type in a register. -/
def floatCount (et : Nat) : Nat := if et = 8 then 1 else 2

/-- What a float instruction of fields fs needs. -/
def State.floatUse (s : State) (st : BitVec 3) (lat : Nat) (ok : List Nat) (d : Nat) (fs : List Nat) : Use :=
  { stall := st.toNat, lat, step6 := etCheck 2 ok s.et, srcs := fs, dsts := [d] }

/-- The elements of a lane's result: f takes the patterns of the fields' elements. -/
def floatLane (et : Nat) (fs : List Nat) (f : (Nat → Nat) → Nat × List Nat) (see : Group) (l : Nat) : Nat × List Nat :=
  let w := (fmtOf et).width
  joinElems w ((List.range (floatCount et)).map (fun e =>
    f (fun i => (see.reg (fs.getD i 0) l).toNat / 2 ^ (w * e) % 2 ^ w)))

/-- An element-wise float instruction. -/
def State.floatOp (s : State) (st : BitVec 3) (lat d : Nat) (fs : List Nat)
    (f : FFmt → FMode → (Nat → Nat) → Nat × List Nat) : Host.Outcome State Fault Refusal :=
  s.lanewise (s.floatUse st lat floatTypes d fs) false d (floatLane s.et fs (f (fmtOf s.et) s.grp.cur.fmode))

/-- An element-wise float instruction that delivers an exact function of its operands (R128, R129). -/
def State.floatExact (s : State) (st : BitVec 3) (lat d : Nat) (fs : List Nat) (f : Nat → List FVal → Exact) :
    Host.Outcome State Fault Refusal :=
  s.floatOp st lat d fs (fun fm md x =>
    let vs := (List.range fs.length).map (fun i => fm.decode md.ftz (x i))
    fm.result md vs (f md.rm vs))

/-- The first, second and third operand. -/
def opA (vs : List FVal) : FVal := vs.getD 0 (.nan false)
def opB (vs : List FVal) : FVal := vs.getD 1 (.nan false)
def opC (vs : List FVal) : FVal := vs.getD 2 (.nan false)

/-- A term with its sign turned. -/
def Exact.negate : Exact → Exact
  | .fin n m e r => .fin (!n) m e r
  | .inf n => .inf (!n)
  | .invalid => .invalid

/-! ### Arithmetic (R135, R136) -/

def execFadd (st : BitVec 3) (d a b : BitVec 6) (s : State) : Host.Outcome State Fault Refusal :=
  s.floatExact st 4 d.toNat [a.toNat, b.toNat] (fun rm vs => exactSum rm [(opA vs).exact, (opB vs).exact])

def execFsub (st : BitVec 3) (d a b : BitVec 6) (s : State) : Host.Outcome State Fault Refusal :=
  s.floatExact st 4 d.toNat [a.toNat, b.toNat] (fun rm vs => exactSum rm [(opA vs).exact, (opB vs).exact.negate])

def execFmul (st : BitVec 3) (d a b : BitVec 6) (s : State) : Host.Outcome State Fault Refusal :=
  s.floatExact st 4 d.toNat [a.toNat, b.toNat] (fun _ vs => exactMul (opA vs) (opB vs))

def FVal.isNan : FVal → Bool
  | .nan _ => true
  | _ => false

/-- The product of two operands, neither a NaN, is invalid. -/
def badProduct (a b : FVal) : Bool := !a.isNan && !b.isNan && exactMul a b == .invalid

/-- `fma` (R136): 0 × ∞ counts one invalid even where C is a quiet NaN. -/
def execFma (st : BitVec 3) (d a b : BitVec 6) (c : BitVec 5) (s : State) : Host.Outcome State Fault Refusal :=
  s.floatOp st 4 d.toNat [a.toNat, b.toNat, c.toNat] (fun fm md x =>
    let vs := (List.range 3).map (fun i => fm.decode md.ftz (x i))
    if badProduct (opA vs) (opB vs) then (fm.qnan, [1])
    else fm.result md vs (exactSum md.rm [exactMul (opA vs) (opB vs), (opC vs).exact]))

/-! ### Minimum and maximum (R137), signs (R138), classes (R142) -/

/-- A pattern as an operand: under FTZ a subnormal reads as zero of its sign (R129). -/
def FFmt.prepare (f : FFmt) (ftz : Bool) (x : Nat) : Nat :=
  if ftz && x / 2 ^ f.fb % 2 ^ f.eb == 0 then f.zero (bit x (f.eb + f.fb)) else x

/-- The place of a pattern, no NaN, in the order of values: −0 just below +0 where `split`. -/
def FFmt.rank (f : FFmt) (split : Bool) (x : Nat) : Int :=
  let m : Int := ((x % f.signBit : Nat) : Int)
  if bit x (f.eb + f.fb) then (if split then -m - 1 else -m) else m

/-- `fmin` and `fmax`: the operand that `first` prefers; one NaN gives the other operand. -/
def FFmt.choose (f : FFmt) (ftz : Bool) (first : Int → Int → Bool) (x y : Nat) : Nat × List Nat :=
  let a := f.decode ftz x
  let b := f.decode ftz y
  let evs := if a == .nan true ∨ b == .nan true then [1] else []
  if a.isNan ∧ b.isNan then (f.qnan, evs)
  else if a.isNan then (f.prepare ftz y, evs)
  else if b.isNan then (f.prepare ftz x, evs)
  else (if first (f.rank true (f.prepare ftz x)) (f.rank true (f.prepare ftz y)) then f.prepare ftz x else f.prepare ftz y, [])

def execFmin (st : BitVec 3) (d a b : BitVec 6) (s : State) : Host.Outcome State Fault Refusal :=
  s.floatOp st 4 d.toNat [a.toNat, b.toNat] (fun fm md x => fm.choose md.ftz (fun p q => decide (p ≤ q)) (x 0) (x 1))

def execFmax (st : BitVec 3) (d a b : BitVec 6) (s : State) : Host.Outcome State Fault Refusal :=
  s.floatOp st 4 d.toNat [a.toNat, b.toNat] (fun fm md x => fm.choose md.ftz (fun p q => decide (q ≤ p)) (x 0) (x 1))

def execFabs (st : BitVec 3) (d a : BitVec 6) (s : State) : Host.Outcome State Fault Refusal :=
  s.floatOp st 1 d.toNat [a.toNat] (fun fm _ x => (x 0 % fm.signBit, []))

def execFneg (st : BitVec 3) (d a : BitVec 6) (s : State) : Host.Outcome State Fault Refusal :=
  s.floatOp st 1 d.toNat [a.toNat] (fun fm _ x => (x 0 ^^^ fm.signBit, []))

/-- The class bit of a pattern (R142). -/
def FFmt.classBit (f : FFmt) (x : Nat) : Nat :=
  let neg := bit x (f.eb + f.fb)
  match f.decode false x with
  | .nan sg => if sg then 8 else 9
  | .inf n => if n then 0 else 7
  | .fin _ m _ =>
    if m = 0 then (if neg then 3 else 4)
    else if m < 2 ^ f.fb then (if neg then 2 else 5)
    else (if neg then 1 else 6)

def execFclass (st : BitVec 3) (d a : BitVec 6) (s : State) : Host.Outcome State Fault Refusal :=
  s.floatOp st 1 d.toNat [a.toNat] (fun fm _ x => (2 ^ fm.classBit (x 0), []))

/-! ### Division, roots, exponential and logarithm (R139, R140) -/

/-- The divider's float operations. -/
def State.floatDivide (s : State) (d : Nat) (fs : List Nat) (f : List FVal → Exact) : Host.Outcome State Fault Refusal :=
  s.divideOp (s.floatUse 0 0 floatTypes d fs) false d (floatLane s.et fs (fun x =>
    let fm := fmtOf s.et
    let md := s.grp.cur.fmode
    let vs := (List.range fs.length).map (fun i => fm.decode md.ftz (x i))
    fm.result md vs (f vs)))

def execFdiv (d a b : BitVec 6) (s : State) : Host.Outcome State Fault Refusal :=
  s.floatDivide d.toNat [a.toNat, b.toNat] (fun vs => exactDiv (opA vs) (opB vs))

def execFsqrt (d a : BitVec 6) (s : State) : Host.Outcome State Fault Refusal :=
  s.floatDivide d.toNat [a.toNat] (fun vs => exactSqrt (opA vs))

def execFrcp (st : BitVec 3) (d a : BitVec 6) (s : State) : Host.Outcome State Fault Refusal :=
  s.floatExact st 6 d.toNat [a.toNat] (fun _ vs => exactDiv (.fin false 1 0) (opA vs))

def execFrsq (st : BitVec 3) (d a : BitVec 6) (s : State) : Host.Outcome State Fault Refusal :=
  s.floatExact st 6 d.toNat [a.toNat] (fun _ vs => exactRsqrt (opA vs))

def execFexp2 (st : BitVec 3) (d a : BitVec 6) (s : State) : Host.Outcome State Fault Refusal :=
  s.floatExact st 8 d.toNat [a.toNat] (fun _ vs => exactExp2 (opA vs))

def execFlog2 (st : BitVec 3) (d a : BitVec 6) (s : State) : Host.Outcome State Fault Refusal :=
  s.floatExact st 8 d.toNat [a.toNat] (fun _ vs => exactLog2 (opA vs))

/-! ### Dot product (R141) -/

/-- A0 × B0 + A1 × B1 + D of one lane, in binary32. DEDUCED, log 26. -/
def dot2 (fm : FFmt) (md : FMode) (a b d : Nat) : Nat × List Nat :=
  let el := fun (x e : Nat) => fm.decode md.ftz (x / 2 ^ (16 * e) % 2 ^ 16)
  let vs := [el a 0, el b 0, el a 1, el b 1, f32.decode md.ftz d]
  f32.result md vs
    (exactSum md.rm [exactMul (el a 0) (el b 0), exactMul (el a 1) (el b 1), (f32.decode md.ftz d).exact])

def execFdot2 (st : BitVec 3) (d a b : BitVec 6) (s : State) : Host.Outcome State Fault Refusal :=
  s.lanewise (s.floatUse st 5 [9, 10] d.toNat [d.toNat, a.toNat, b.toNat]) false d.toNat (fun see l =>
    dot2 (fmtOf s.et) s.grp.cur.fmode (see.reg a.toNat l).toNat (see.reg b.toNat l).toNat (see.reg d.toNat l).toNat)

/-! ### Compare (R143) -/

/-- `fcmp`: rel answers for two numbers, nan for a NaN among the operands. -/
def State.fcompare (s : State) (st : BitVec 3) (d a b : Nat) (rel : Int → Int → Bool) (nan : Bool) :
    Host.Outcome State Fault Refusal :=
  let u := s.floatUse st 2 [8] 0 [a, b]
  let ftz := s.grp.cur.ftz
  s.predwise { u with dsts := [64 + d] } d (fun see l =>
    let x := (see.reg a l).toNat
    let y := (see.reg b l).toNat
    let p := f32.decode ftz x
    let q := f32.decode ftz y
    (if p.isNan ∨ q.isNan then nan else rel (f32.rank false (f32.prepare ftz x)) (f32.rank false (f32.prepare ftz y)),
     if p == .nan true ∨ q == .nan true then [1] else []))

def execFcmpEq (st : BitVec 3) (d a b : BitVec 6) (s : State) : Host.Outcome State Fault Refusal :=
  s.fcompare st d.toNat a.toNat b.toNat (fun x y => decide (x = y)) false

def execFcmpNe (st : BitVec 3) (d a b : BitVec 6) (s : State) : Host.Outcome State Fault Refusal :=
  s.fcompare st d.toNat a.toNat b.toNat (fun x y => decide (x ≠ y)) true

def execFcmpLt (st : BitVec 3) (d a b : BitVec 6) (s : State) : Host.Outcome State Fault Refusal :=
  s.fcompare st d.toNat a.toNat b.toNat (fun x y => decide (x < y)) false

def execFcmpLe (st : BitVec 3) (d a b : BitVec 6) (s : State) : Host.Outcome State Fault Refusal :=
  s.fcompare st d.toNat a.toNat b.toNat (fun x y => decide (x ≤ y)) false

def execFcmpGt (st : BitVec 3) (d a b : BitVec 6) (s : State) : Host.Outcome State Fault Refusal :=
  s.fcompare st d.toNat a.toNat b.toNat (fun x y => decide (y < x)) false

def execFcmpGe (st : BitVec 3) (d a b : BitVec 6) (s : State) : Host.Outcome State Fault Refusal :=
  s.fcompare st d.toNat a.toNat b.toNat (fun x y => decide (y ≤ x)) false

def execFcmpUn (st : BitVec 3) (d a b : BitVec 6) (s : State) : Host.Outcome State Fault Refusal :=
  s.fcompare st d.toNat a.toNat b.toNat (fun _ _ => false) true

def execFcmpOr (st : BitVec 3) (d a b : BitVec 6) (s : State) : Host.Outcome State Fault Refusal :=
  s.fcompare st d.toNat a.toNat b.toNat (fun _ _ => true) false

/-! ### Conversion (R144, R145) -/

/-- Width of an element of any type. -/
def elemWidth (et : Nat) : Nat := if et < 8 then intWidth et else (fmtOf et).width

/-- Elements that a conversion from one type to another acts on: none where the pair is not listed (R144). -/
def cvtCount (x y : Nat) : Option Nat :=
  let pair := fun (p q : Nat) => (x == p && y == q) || (x == q && y == p)
  if pair 8 9 || pair 8 10 || pair 9 10 then some 2
  else if pair 0 8 || pair 1 8 || pair 2 8 || pair 3 8 then some 1
  else if pair 4 9 || pair 4 10 || pair 5 9 || pair 5 10 then some 2
  else if pair 6 9 || pair 6 10 || pair 7 9 || pair 7 10 then some 4
  else none

/-- The trap of a conversion's types. -/
def cvtCheck (src dst : Nat) : Option (Nat × Nat) :=
  if src = dst ∨ (src < 8 ∧ dst < 8) then some (1, 3)
  else if (cvtCount src dst).isNone then some (2, 3) else none

/-- A float rounded to an integer type (R145). -/
def floatToInt (ty : IntTy) (rm : Nat) (x : FVal) : Nat × List Nat :=
  match x with
  | .nan _ => (0, [1])
  | .inf n => (wrap ty.w (if n then ty.lo else ty.hi), [2])
  | .fin n m e =>
    let q := roundTo rm n m e false 0
    ty.clamp (if n then -(q : Int) else q)

/-- One element converted (R145). -/
def convert (md : FMode) (src dst x : Nat) : Nat × List Nat :=
  if src < 8 then
    let v := (intTy src false).value x
    (fmtOf dst).deliver md (.fin (decide (v < 0)) v.natAbs 0 false)
  else
    let a := (fmtOf src).decode md.ftz x
    if dst < 8 then floatToInt (intTy dst false) md.rm a else (fmtOf dst).result md [a] a.exact

def execFcvt (st : BitVec 3) (d a : BitVec 6) (e : BitVec 4) (s : State) : Host.Outcome State Fault Refusal :=
  let src := e.toNat
  let n := (cvtCount src s.et).getD 1
  let ws := decide (n * elemWidth src = 64)
  let wd := decide (n * elemWidth s.et = 64)
  let u : Use :=
    { stall := st.toNat, lat := 3, step6 := cvtCheck src s.et, step7 := (wd && !isPair d.toNat) || (ws && !isPair a.toNat)
      srcs := regs ws a.toNat, dsts := regs wd d.toNat }
  s.lanewise u wd d.toNat (fun see l =>
    joinElems (elemWidth s.et) ((List.range n).map (fun i =>
      convert s.grp.cur.fmode src s.et (see.val ws a.toNat l / 2 ^ (elemWidth src * i) % 2 ^ elemWidth src))))

end Sys2Proof.Machine
end

