-- ==== Sys2Proof/Machine/Blocks.lean ====
section
/-! DEFINITION. The block formats (R130 to R133) and their instructions (R146 to R150). A block of the manual's bytes is held
as one number, least significant byte first: E, then the shift field or the zero point, then the codes. -/

namespace Sys2Proof.Machine

/-- A block format: signed (SX) or offset-binary (Z), bits of a code, and length (R130, R132). -/
structure BlockFmt where
  sx : Bool
  cb : Nat
  n : Nat
  deriving DecidableEq, Repr

/-- The formats by the fields of the word (R42, R146). -/
def sxFmt (l : BitVec 1) (f : BitVec 2) : BlockFmt :=
  { sx := true, cb := if f = 0 then 8 else if f = 1 then 5 else 3, n := if l = 1 then 32 else 16 }
def zFmt (l : BitVec 1) (f : BitVec 2) : BlockFmt :=
  { sx := false, cb := if f = 0 then 8 else 4, n := if l = 1 then 32 else 16 }

/-- Bytes of a packed block. -/
def BlockFmt.size (b : BlockFmt) : Nat := 2 + b.cb * b.n / 8
/-- Words that hold a packed block. -/
def BlockFmt.words (b : BlockFmt) : Nat := (b.size + 3) / 4

/-- A block from its parts. -/
def BlockFmt.pack (b : BlockFmt) (e second : Nat) (codes : List Nat) : Nat :=
  e + 2 ^ 8 * second + 2 ^ 16 * (codes.zipIdx.map (fun (q, i) => q * 2 ^ (b.cb * i))).sum

/-- Code i of a block. -/
def BlockFmt.code (b : BlockFmt) (blk i : Nat) : Nat := blk / 2 ^ (16 + b.cb * i) % 2 ^ b.cb

/-! ### Element values (R131, R133) -/

/-- The exact value of element i, none in a NaN block. -/
def BlockFmt.value (b : BlockFmt) (blk i : Nat) : Option Exact :=
  let e := blk % 256
  let q := b.code blk i
  if e = 255 then none
  else if e = 0 then some (.fin false 0 0 false)
  else if b.sx then
    let m := b.cb - 1
    let sh : Nat := blk / 2 ^ (8 + 2 * (i / 8)) % 4
    some (.fin (bit q m) (q % 2 ^ m) ((e : Int) - 127 - ((m : Int) - 1) - (sh : Int)) false)
  else
    let z : Nat := blk / 2 ^ 8 % 2 ^ b.cb
    let d : Int := (q : Int) - (z : Int)
    some (.fin (decide (d < 0)) d.natAbs ((e : Int) - 127) false)

/-! ### Packing (R148, R149) -/

/-- A packed block and the events it counts. -/
abbrev Packed := Nat × List Nat

/-- The magnitude pattern of a binary32 operand, whose order is that of the magnitudes. -/
def mag32 (x : Nat) : Nat := x % f32.signBit

def isInf32 (x : Nat) : Bool := mag32 x == f32.inf false
def neg32 (x : Nat) : Bool := bit x 31

/-- |x| / 2^k rounded to an integer under RM as a value of the sign given; x is finite. -/
def round32 (rm : Nat) (neg : Bool) (x : Nat) (k : Int) : Nat :=
  match f32.decode false (mag32 x) with
  | .fin _ m e => roundTo rm neg m e false k
  | _ => 0

/-- ⌊log2⌋ of a nonzero finite magnitude. -/
def floorLog32 (x : Nat) : Int :=
  match f32.decode false (mag32 x) with
  | .fin _ m e => e + (bitLen m : Int) - 1
  | _ => 0

/-- The largest of a list. -/
def maxOf (xs : List Nat) : Nat := xs.foldl Nat.max 0

/-- The shared exponent of an SX block and the events of finding it; inputs are neither NaN nor all zero. -/
def sxExponent (rm m : Nat) (xs : List Nat) : Nat × List Nat :=
  let infs := (xs.filter isInf32).length
  if infs ≠ 0 then (254, List.replicate infs 0)
  else
    let a := maxOf (xs.map mag32)
    let e0 := floorLog32 a + 127
    let e1 := if round32 rm false a (e0 - 127 - ((m : Int) - 1)) = 2 ^ m then e0 + 1 else e0
    if 254 < e1 then (254, [4]) else if e1 < 1 then (1, [4]) else (e1.toNat, [])

/-- The shift of an octet under shared exponent e. -/
def sxShift (rm m e : Nat) (xs : List Nat) : Nat :=
  let b := maxOf (xs.map mag32)
  if xs.any isInf32 then 0
  else ([3, 2, 1, 0].find? (fun (g : Nat) =>
    decide (round32 rm false b ((e : Int) - 127 - ((m : Int) - 1) - (g : Int)) ≤ 2 ^ m - 1))).getD 0

/-- The code of an element and its events. -/
def sxCode (rm m e sh x : Nat) : Nat × List Nat :=
  let top := 2 ^ m - 1
  let sg := if neg32 x then 2 ^ m else 0
  if isInf32 x then (sg + top, [2])
  else
    let q := round32 rm (neg32 x) x ((e : Int) - 127 - ((m : Int) - 1) - (sh : Int))
    if top < q then (sg + top, [2])
    else (sg + q, if mag32 x ≠ 0 ∧ q = 0 then [3] else [])

/-- `sxpk` of one block: inputs as binary32 patterns, FTZ applied. -/
def BlockFmt.sxPack (b : BlockFmt) (rm : Nat) (xs : List Nat) : Packed :=
  let m := b.cb - 1
  if xs.any (fun x => (f32.decode false x).isNan) then (b.pack 255 0 [], [1])
  else if xs.all (fun x => mag32 x == 0) then (b.pack 0 0 [], [])
  else
    let r := sxExponent rm m xs
    let octets := (List.range (b.n / 8)).map (fun o => sxShift rm m r.1 ((xs.drop (8 * o)).take 8))
    let codes := xs.zipIdx.map (fun (x, i) => sxCode rm m r.1 (octets.getD (i / 8) 0) x)
    (b.pack r.1 ((octets.zipIdx.map (fun (g, o) => g * 2 ^ (2 * o))).sum) (codes.map (·.1)), r.2 ++ codes.flatMap (·.2))

/-- A binary32 operand in units of 2^−149, an infinity as a number beyond every finite one. -/
def units149 (x : Nat) : Int :=
  let v : Nat := match f32.decode false (mag32 x) with
    | .fin _ m e => m * 2 ^ (e + 149).toNat
    | _ => 2 ^ 600
  if neg32 x then -(v : Int) else v

/-- v / 2^k rounded to an integer under RM. -/
def roundUnits (rm : Nat) (v : Int) (k : Nat) : Int :=
  let q := roundTo rm (decide (v < 0)) v.natAbs 0 false k
  if v < 0 then -(q : Int) else q

/-- Clamp into 0 … q. -/
def clampTo (q : Nat) (x : Int) : Nat := if x < 0 then 0 else if (q : Int) < x then q else x.toNat

/-- `zpk` of one block (R149). -/
def BlockFmt.zPack (b : BlockFmt) (rm : Nat) (xs : List Nat) : Packed :=
  let q := 2 ^ b.cb - 1
  let vs := xs.map units149
  let lo := vs.foldl min 0
  let hi := vs.foldl max 0
  if xs.any (fun x => (f32.decode false x).isNan) then (b.pack 255 0 [], [1])
  else if hi = lo then (b.pack 0 0 [], [])
  else
    let e0 := (List.range 255).find? (fun e => decide (hi - lo ≤ (q * 2 ^ (e + 22) : Nat)))
    let r : Nat × List Nat := match e0 with
      | none => (254, [4])
      | some e => if e = 0 then (1, [4]) else (e, [])
    let k := r.1 + 22
    let z := clampTo q (roundUnits rm (-lo) k)
    let codes := vs.map (fun v =>
      let u := roundUnits rm v k + (z : Int)
      let c := clampTo q u
      (c, (if (c : Int) ≠ u then [2] else []) ++ (if v ≠ 0 ∧ c = z then [3] else [])))
    (b.pack r.1 z (codes.map (·.1)), r.2 ++ codes.flatMap (·.2))

/-- Pack under a format. -/
def BlockFmt.packed (b : BlockFmt) (rm : Nat) (xs : List Nat) : Packed := if b.sx then b.sxPack rm xs else b.zPack rm xs

/-! ### Instructions (R146, R147, R150) -/

/-- `sxpk` and `zpk`: lanes outside T contribute +0. -/
def State.packBlocks (s : State) (st : BitVec 3) (d a : Nat) (b : BlockFmt) : Host.Outcome State Fault Refusal :=
  let f := s.grp.cur
  let u : Use := { stall := st.toNat, lat := 6, srcs := [a], dsts := [d] }
  s.run u (fun io =>
    let input := fun (l : Nat) => if io.t.getLsbD l then f32.prepare f.ftz (io.see.reg a l).toNat else 0
    let blocks := (List.range (32 / b.n)).map (fun k => b.packed f.rm ((List.range b.n).map (fun i => input (b.n * k + i))))
    let out := fun (l : Nat) => BitVec.ofNat 32 ((blocks.getD (l / b.n) (0, [])).1 / 2 ^ (32 * (l % b.n)))
    s.finish u io (s.grp.setLanes d out (lanesOf io.t)) (blocks.flatMap (·.2)))

/-- `sxupk` and `zupk`: the bytes come from the block's first lanes, whatever their state. -/
def State.unpackBlocks (s : State) (st : BitVec 3) (d a : Nat) (b : BlockFmt) : Host.Outcome State Fault Refusal :=
  let u : Use :=
    { stall := st.toNat, lat := 3, srcs := [a], dsts := [d]
      redirect := some (fun _ l => (List.range b.words).map (fun p => l / b.n * b.n + p)) }
  s.lanewise u false d (fun see l =>
    let blk := ((List.range b.words).map (fun p => (see.reg a (l / b.n * b.n + p)).toNat * 2 ^ (32 * p))).sum
    match b.value blk (l % b.n) with
    | none => (f32.qnan, [])
    | some x => f32.deliver s.grp.cur.fmode x)

def execSxpk (st : BitVec 3) (d a : BitVec 6) (l : BitVec 1) (f : BitVec 2) (s : State) : Host.Outcome State Fault Refusal :=
  s.packBlocks st d.toNat a.toNat (sxFmt l f)

def execSxupk (st : BitVec 3) (d a : BitVec 6) (l : BitVec 1) (f : BitVec 2) (s : State) : Host.Outcome State Fault Refusal :=
  s.unpackBlocks st d.toNat a.toNat (sxFmt l f)

def execZpk (st : BitVec 3) (d a : BitVec 6) (l : BitVec 1) (f : BitVec 2) (s : State) : Host.Outcome State Fault Refusal :=
  s.packBlocks st d.toNat a.toNat (zFmt l f)

def execZupk (st : BitVec 3) (d a : BitVec 6) (l : BitVec 1) (f : BitVec 2) (s : State) : Host.Outcome State Fault Refusal :=
  s.unpackBlocks st d.toNat a.toNat (zFmt l f)

end Sys2Proof.Machine
end

