-- ==== Sys2Proof/Machine/Matrix.lean ====
section
/-! DEFINITION. Matrix instructions, operand slots, the pair engine and the arithmetic of a pass (R333 to R352, R414). -/

namespace Sys2Proof.Machine

/-! ### Shapes and images (R336, R337) -/

/-- The fields of a shape record. -/
def shapeRole (r : Nat) : Nat := bits r 31 30
def shapeFmt (r : Nat) : Nat := bits r 29 27
def shapeBl (r : Nat) : Bool := bit r 26
def shapeMn (r : Nat) : Nat := bits r 11 8 + 1
def shapeKb (r : Nat) : Nat := bits r 3 0
def shapeK (r : Nat) : Nat := 16 * (shapeKb r + 1)
/-- Values of k in a block. -/
def shapeN (r : Nat) : Nat := if shapeBl r then 32 else 16

/-- The block format of an FMT code from 2 to 6. -/
def tileFmt (fmt n : Nat) : BlockFmt :=
  { sx := decide (fmt < 5), cb := if fmt = 2 ∨ fmt = 5 then 8 else if fmt = 3 then 5 else if fmt = 4 then 3 else 4, n }

/-- L: bytes of a line. -/
def lineSize (r : Nat) : Nat :=
  if shapeFmt r < 2 then 2 * shapeK r else shapeK r / shapeN r * (tileFmt (shapeFmt r) (shapeN r)).size

/-- Rate classes (R341). -/
def rateClass (fmt : Nat) : Nat := if fmt < 2 then 0 else if fmt = 2 ∨ fmt = 5 then 1 else if fmt = 3 ∨ fmt = 6 then 2 else 3

/-! ### The arithmetic of a pass (R342) -/

/-- n bytes of a slot: of a loaded one the image's, of any other unpredictable values (R335, R345). DESIGN CHOICE, log 2. -/
def OpSlot.le (o : OpSlot) (a n : Nat) : Nat :=
  if o.st == .loaded then getLe o.image a n
  else ((List.range n).map (fun i => (Config.freeByte (2 ^ 60 + 2048 * o.seed + a + i)).toNat * 256 ^ i)).sum

/-- Element k of line i of an image. -/
def OpSlot.value (o : OpSlot) (i k : Nat) : FVal :=
  let r := o.shape.toNat
  let base := i * lineSize r
  if shapeFmt r < 2 then (if shapeFmt r = 0 then f16 else b16).decode false (o.le (base + 2 * k) 2)
  else
    let b := tileFmt (shapeFmt r) (shapeN r)
    match b.value (o.le (base + k / b.n * b.size) b.size) (k % b.n) with
    | some (.fin n m e _) => .fin n m e
    | _ => .nan false

/-- A step's value with the invalid events it counts. -/
abbrev StepVal := FVal × List Nat

def ofExact (x : Exact) : StepVal :=
  match x with
  | .invalid => (.nan false, [1])
  | .inf n => (.inf n, [])
  | .fin n m e _ => (.fin n m e, [])

/-- A product: a NaN operand makes it NaN, 0 × ∞ is invalid. -/
def mulStep (x y : FVal) : StepVal := if x.isNan || y.isNan then (.nan false, []) else ofExact (exactMul x y)

/-- An exact sum: a NaN operand makes it NaN, opposite infinities are invalid. -/
def sumStep (xs : List FVal) : StepVal := if xs.any FVal.isNan then (.nan false, []) else ofExact (exactSum 0 (xs.map FVal.exact))

/-- Deliver to binary32 under RNE, without SAT or FTZ: the pattern, and its events. -/
def deliverStep (x : FVal) : Nat × List Nat := if x.isNan then (f32.qnan, []) else f32.deliver {} x.exact

/-- The sum of one block of products added to t. -/
def blockStep (a b : OpSlot) (i j n : Nat) (t : Nat × List Nat) (blk : Nat) : Nat × List Nat :=
  let ps := (List.range n).map (fun k => mulStep (a.value i (n * blk + k)) (b.value j (n * blk + k)))
  let s := sumStep (ps.map (·.1))
  let x := sumStep [f32.decode false t.1, s.1]
  let d := deliverStep x.1
  (d.1, t.2 ++ ps.flatMap (·.2) ++ s.2 ++ x.2 ++ d.2)

/-- The new element (i, j) of the accumulator and the events of its steps. -/
def elementStep (a b : OpSlot) (sA sB : List Word) (old : Word) (i j : Nat) : Nat × List Nat :=
  let n := shapeN a.shape.toNat
  let t := (List.range (shapeK a.shape.toNat / n)).foldl (blockStep a b i j n) (0, [])
  let sc := mulStep (f32.decode false (sA.getD i 0).toNat) (f32.decode false (sB.getD j 0).toNat)
  let x := mulStep sc.1 (f32.decode false t.1)
  let y := sumStep [f32.decode false old.toNat, x.1]
  let d := deliverStep y.1
  (d.1, t.2 ++ sc.2 ++ x.2 ++ y.2 ++ d.2)

/-- A signalling NaN among the elements and scales that a pass reads. -/
def readsSignalling (a b : OpSlot) (sA sB : List Word) : Bool :=
  let any := fun (o : OpSlot) => (List.range (shapeMn o.shape.toNat)).any (fun i =>
    (List.range (shapeK o.shape.toNat)).any (fun k => o.value i k == .nan true))
  any a || any b || (sA ++ sB).any (fun w => f32.decode false w.toNat == .nan true)

/-- The accumulator after a pass, and its events: at most one of each class. -/
def passResult (a b : OpSlot) (sA sB : List Word) (acc : Nat → Word) : Table Word × List Nat :=
  let cells : List (Nat × Nat × List Nat) := (List.range (shapeMn a.shape.toNat)).flatMap (fun i => (List.range (shapeMn b.shape.toNat)).map (fun j =>
    (16 * i + j, elementStep a b sA sB (acc (16 * i + j)) i j)))
  (cells.map (fun (c : Nat × Nat × List Nat) => (c.1, BitVec.ofNat 32 c.2.1)),
    (cells.flatMap (fun (c : Nat × Nat × List Nat) => c.2.2) ++ (if readsSignalling a b sA sB then [1] else [])).eraseDups)

/-! ### Slots and engines -/

/-- The number of slot n of the issuing core, and its pair engine. -/
def State.slotNum (s : State) (n : Nat) : Nat := 8 * s.grp.core + n
def State.engineNum (s : State) : Nat := s.grp.core / 2
def State.opSlot (s : State) (n : Nat) : OpSlot := tget {} s.cluster.slots (s.slotNum n)
def State.setOpSlot (s : State) (n : Nat) (o : OpSlot) : State :=
  let c := s.cluster
  s.setCluster { c with slots := mset {} c.slots (s.slotNum n) o }

/-- The checks that come first (R343). -/
def State.matrixCheck (s : State) (io : Issue) : Option (Nat × Nat) :=
  (s.maskCheck io).orElse (fun _ => if s.team.matrix then none else some (6, 0))

/-- The slot is being read or written (R338). -/
def OpSlot.engaged (o : OpSlot) : Bool := o.busy || o.readers != 0

/-- A matrix instruction: the first checks, the wait, its own checks, its effect. -/
def State.matrixOp (s : State) (srcs : List Nat) (hold : Bool) (check : Issue → Option (Nat × Nat)) (act : Use → Issue → State) :
    Host.Outcome State Fault Refusal :=
  let u : Use := { srcs }
  s.run u (fun io =>
    match s.matrixCheck io with
    | some (c, x) => s.trap c x
    | none =>
      if io.t = 0 then s.finish u io s.grp
      else if hold then s.stand
      else match check io with
        | some (c, x) => s.trap c x
        | none => act u io)

/-- `mclaim` (R344). -/
def execMclaim (d : BitVec 6) (s : State) : Host.Outcome State Fault Refusal :=
  s.matrixOp [] false (fun _ => if (s.opSlot d.toNat).st == .free then none else some (6, 1))
    (fun u io => ({ s with free := s.free + 1 }.finish u io s.grp).setOpSlot d.toNat { s.opSlot d.toNat with st := .claimed, seed := s.free })

/-- `mrel` (R344). -/
def execMrel (d : BitVec 6) (s : State) : Host.Outcome State Fault Refusal :=
  s.matrixOp [] (s.opSlot d.toNat).engaged (fun _ => if (s.opSlot d.toNat).st == .free then some (6, 2) else none)
    (fun u io => (s.finish u io s.grp).setOpSlot d.toNat {})

/-- The checks of a shape record (R345). -/
def shapeCheck (r : Nat) : Option (Nat × Nat) :=
  if 1 < shapeRole r ∨ shapeFmt r = 7 ∨ bits r 25 12 ≠ 0 ∨ bits r 7 4 ≠ 0 then some (5, 1)
  else if shapeBl r ∧ (shapeFmt r < 2 ∨ shapeKb r % 2 = 0) then some (5, 2)
  else if 2048 < shapeMn r * lineSize r then some (5, 3)
  else none

/-- `mshape` (R345): what the slot held becomes unpredictable values. -/
def execMshape (d a : BitVec 6) (s : State) : Host.Outcome State Fault Refusal :=
  let rec_ := fun (io : Issue) => io.see.reg a.toNat (lowest io.t)
  s.matrixOp [a.toNat] (s.opSlot d.toNat).engaged
    (fun io => if (s.opSlot d.toNat).st == .free then some (6, 2) else shapeCheck (rec_ io).toNat)
    (fun u io => ({ s with free := s.free + 1 }.finish u io s.grp).setOpSlot d.toNat
      { s.opSlot d.toNat with st := .shaped, shape := rec_ io, image := [], seed := s.free })

/-! ### Matrix transfers (R346 to R348) -/

/-- Offset and stride of a descriptor, and whether it fails: `size` is the line size. -/
def tileDescriptor (g : Group) (b l size : Nat) (store : Bool) : Nat × Nat × Bool :=
  let (w0, w1, w2, w3) := g.quadWords b l
  let ctl := ctrlOf w3
  (w0 + bits w1 7 0 * 2 ^ 32, w2,
    bits w1 31 8 != 0 || bits w3 14 0 != 0 || ctl.bad || decide (w2 < size) ||
      (if store then !(decide (8 ≤ ctl.et) && decide (ctl.et ≤ 10)) else bit w3 15 || ctl.et != 0))

/-- The checks of a matrix transfer on its region operand: `lines` are the offsets of its lines. -/
def State.tileCheck (s : State) (code : Nat) (write bad : Bool) (ctl : Ctrl) (lines : List Nat) (size l : Nat) : Option (Nat × Nat) :=
  firstTrap ([if bad then some (0x10, 192) else none, s.barrierCheck ctl, s.operandCheck code write] ++
    lines.map (fun o => s.regionLeft code o size l) ++ lines.map (fun o => s.windowLeft code o size l))

/-- Pieces of lines between a region operand and a packed image. -/
def State.tilePieces (s : State) (code l size : Nat) (lines : List Nat) (store : Bool) : List Piece :=
  lines.zipIdx.flatMap (fun (o, r) =>
    let a := s.operandAddr code o
    (piecesOf (size + 1) a 0 size).map (fun (p, k) =>
      let loc := s.operandLoc code (a + p)
      if store then { lane := l, src := r * size + p, dst := a + p, dloc := loc.1, dtype := loc.2, n := k }
      else { lane := l, src := a + p, dst := r * size + p, sloc := loc.1, stype := loc.2, n := k }))

/-- `mld` (R348). -/
def execMld (d a b : BitVec 6) (s : State) : Host.Outcome State Fault Refusal :=
  let o := s.opSlot d.toNat
  let size := lineSize o.shape.toNat
  let src := a.toNat
  let desc := fun (io : Issue) => tileDescriptor io.see b.toNat (lowest io.t) size false
  let ctl := fun (io : Issue) => ctrlOf (io.see.quadWords b.toNat (lowest io.t)).2.2.2
  let lines := fun (io : Issue) => (List.range (shapeMn o.shape.toNat)).map (fun r => (desc io).1 + r * (desc io).2.1)
  s.matrixOp (operandCodes src ++ quadRegs b.toNat) o.engaged
    (fun io =>
      if o.st == .free then some (6, 2) else if o.st == .claimed then some (6, 3)
      else s.tileCheck src false (desc io).2.2 (ctl io) (lines io) size (lowest io.t))
    (fun u io =>
      let ps := s.tilePieces src (lowest io.t) size (lines io) false
      let reads := (lines io).map (fun x => (s.operandAddr src x, size))
      let c := { s.copyOf .mld src 34 (ctl io) with
        pieces := ps, bytes := (lines io).length * size, slot := s.slotNum d.toNat, strong := ps.any (fun p => p.stype == 3) }
      if s.transferHeld c reads [] then s.stand
      else
        let q := s.enterTransfer u io c reads []
        (q.1.setOpSlot d.toNat { o with busy := true, image := [] }).owe (.copyComplete q.2))

/-! ### The reservation table (R334) -/

/-- An entry may be taken for the issuing core's engine. -/
def State.reserveRoom (s : State) : Bool :=
  decide (s.cluster.reserve.length < Config.reservations) &&
    decide ((s.cluster.reserve.filter (fun r => r.engine == s.engineNum)).length < 12)

/-- Post a request to the engine. -/
def State.postOp (s : State) (k : Nat) (op : EngOp) : State :=
  let g := s.group k
  let t := s.teamOf g.team
  let e := g.core / 2
  let c := s.clusterOf t.cluster
  let r : Reserve :=
    { engine := e, group := k, frag := g.cur.id, core := g.core, op, since := s.cycle, prio := (s.launchOf t.launch).lcb.prio
      pos := g.pos, id := s.nextId }
  ({ s with nextId := s.nextId + 1 }.putCluster t.cluster { c with reserve := c.reserve ++ [r] }).owe (.passGrant t.cluster e)

/-- `mst` (R348). -/
def execMst (d a b : BitVec 6) (s : State) : Host.Outcome State Fault Refusal :=
  let dst := d.toNat
  let ctl := fun (io : Issue) => ctrlOf (io.see.quadWords b.toNat (lowest io.t)).2.2.2
  let size := fun (io : Issue) => if (ctl io).et = 8 then 64 else 32
  let desc := fun (io : Issue) => tileDescriptor io.see b.toNat (lowest io.t) (size io) true
  let lines := fun (io : Issue) => (List.range 16).map (fun r => (desc io).1 + r * (desc io).2.1)
  s.matrixOp (operandCodes dst ++ quadRegs b.toNat) false
    (fun io => s.tileCheck dst true (desc io).2.2 (ctl io) (lines io) (size io) (lowest io.t))
    (fun u io =>
      let ps := s.tilePieces dst (lowest io.t) (size io) (lines io) true
      let writes := (lines io).map (fun x => (s.operandAddr dst x, size io))
      let c := { s.copyOf .mst 34 dst (ctl io) with
        pieces := ps, bytes := 16 * size io, sat := bit (io.see.quadWords b.toNat (lowest io.t)).2.2.2 15
        strong := ps.any (fun p => p.dtype == 3) }
      if s.transferHeld c [] writes || !s.reserveRoom then s.stand
      else
        let q := s.enterTransfer u io c [] writes
        q.1.postOp s.cur (.snap a.toNat q.2))

/-- `mzero` (R350). -/
def execMzero (d : BitVec 6) (s : State) : Host.Outcome State Fault Refusal :=
  s.matrixOp [] (!s.reserveRoom) (fun _ => none) (fun u io => (s.finish u io s.grp).postOp s.cur (.zero d.toNat))

/-- `macc` (R350). -/
def execMacc (d a : BitVec 6) (s : State) : Host.Outcome State Fault Refusal :=
  s.matrixOp [] (!s.reserveRoom) (fun _ => none) (fun u io => (s.finish u io s.grp).postOp s.cur (.acc d.toNat a.toNat))

/-- The checks of `mma` on its slots and its format-block operand (R349). -/
def State.mmaCheck (s : State) (a b : OpSlot) (f : Nat) : Option (Nat × Nat) :=
  let ra := a.shape.toNat
  let rb := b.shape.toNat
  let soff := 64 * bits f 25 16
  if a.st == .free || b.st == .free then some (6, 2)
  else if a.st != .loaded || b.st != .loaded then some (6, 4)
  else if shapeRole ra ≠ 0 ∨ shapeRole rb ≠ 1 then some (5, 4)
  else if shapeKb ra ≠ shapeKb rb then some (5, 5)
  else if bits f 31 26 ≠ 0 ∨ bits f 15 10 ≠ 0 ∨ bits f 2 0 ≠ shapeFmt ra ∨ bit f 3 ≠ shapeBl ra ∨ bits f 6 4 ≠ shapeFmt rb ∨
      bit f 7 ≠ shapeBl rb then some (5, 6)
  else if rateClass (shapeFmt ra) ≠ rateClass (shapeFmt rb) ∨ shapeBl ra ≠ shapeBl rb then some (5, 7)
  else if (bit f 8 ∧ s.team.scr < soff + 64) ∨ (bit f 9 ∧ s.team.scr < soff + 128) then some (0x10, 194)
  else none

/-- A scale vector in team scratch (R340); 1.0 throughout where it is not enabled. -/
def State.scales (s : State) (on : Bool) (o : Nat) : List Word :=
  (List.range 16).map (fun i => if on then BitVec.ofNat 32 (getLe s.team.scratch (o + 4 * i) 4) else 0x3F800000)

/-- A scale vector that a format block enables holds poisoned words (R417). -/
def State.scalesBad (s : State) (f : Nat) : Bool :=
  let o := 0x20000 + 64 * bits f 25 16
  (bit f 8 && s.bytesBad true s.grp.team o 64) || (bit f 9 && s.bytesBad true s.grp.team (o + 64) 64)

/-- One more, or one fewer, pass is to read a slot of a cluster. -/
def Cluster.addReader (c : Cluster) (n : Nat) (up : Bool) : Cluster :=
  let o : OpSlot := tget {} c.slots n
  { c with slots := tput c.slots n { o with readers := if up then o.readers + 1 else o.readers - 1 } }

/-- `mma` (R349): it reads its scale vectors from team scratch, so it waits for a copy of the group that is to write them (R298). -/
def execMma (d a b : BitVec 6) (c : BitVec 5) (s : State) : Host.Outcome State Fault Refusal :=
  let sa := s.opSlot a.toNat
  let sb := s.opSlot b.toNat
  let word := fun (io : Issue) => io.see.reg c.toNat (lowest io.t)
  s.matrixOp [c.toNat] (sa.busy || sb.busy) (fun io => s.mmaCheck sa sb (word io).toNat)
    (fun u io =>
      if !s.reserveRoom then s.stand
      else if s.scalesBad (word io).toNat then s.meetBad.stand
      else
        let f := (word io).toNat
        let o := 64 * bits f 25 16
        let s1 := s.finish u io s.grp
        let c1 := (s1.cluster.addReader (s.slotNum a.toNat) true).addReader (s.slotNum b.toNat) true
        (s1.setCluster c1).postOp s.cur (.pass d.toNat (s.slotNum a.toNat) (s.slotNum b.toNat) s.grp.core (word io)
          (s.scales (bit f 8) o) (s.scales (bit f 9) (o + 64))))

/-! ### The engine at work -/

/-- The entry's group holds the oldest unretired item of an ordered launch (R160). -/
def State.holdsOldest (s : State) (k : Nat) : Bool :=
  let g := s.group k
  let l := s.launchOf (s.teamOf g.team).launch
  l.ordered && g.ord == l.low / 32

/-- The order of grants (R334). -/
def State.grantBefore (s : State) (x y : Reserve) : Bool :=
  let late := fun (r : Reserve) => decide (r.since + 8192 ≤ s.cycle)
  if late x != late y then late x
  else if s.holdsOldest x.group != s.holdsOldest y.group then s.holdsOldest x.group
  else if x.prio ≠ y.prio then decide (y.prio < x.prio)
  else if x.since / 1024 ≠ y.since / 1024 then decide (x.since < y.since)
  else if x.core ≠ y.core then decide (x.core < y.core)
  else decide (x.pos < y.pos)

/-- The entries that the arbiter considers: the oldest of each group. -/
def oldestEach (rs : List Reserve) : List Reserve := rs.filter (fun r => rs.all (fun q => q.group != r.group || decide (r.id ≤ q.id)))

/-- The entry granted next on an engine that is free. DESIGN CHOICE, log 25. -/
def State.nextGrant (s : State) (cl e : Nat) : Option Reserve :=
  let rs := (s.clusterOf cl).reserve.filter (fun r => r.engine == e)
  if rs.any (·.granted) then none else pickBest s.grantBefore (oldestEach rs)

def State.putReserve (s : State) (cl : Nat) (r : Reserve) : State :=
  let c := s.clusterOf cl
  s.putCluster cl { c with reserve := c.reserve.map (fun q => if q.id == r.id then r else q) }

/-- An entry leaves the table; the engine may take another, and the team may end. -/
def State.dropReserve (s : State) (cl : Nat) (r : Reserve) : State :=
  let c := s.clusterOf cl
  let s1 := s.putCluster cl { c with reserve := c.reserve.filter (fun q => q.id != r.id) }
  (if c.reserve.any (fun q => q.engine == r.engine && q.id != r.id) then s1.owe (.passGrant cl r.engine) else s1).endTeam
    (r.group / 16)

def State.engine (s : State) (cl e : Nat) : Engine := tget {} (s.clusterOf cl).engines e
def State.putEngine (s : State) (cl e : Nat) (x : Engine) : State :=
  let c := s.clusterOf cl
  s.putCluster cl { c with engines := tput c.engines e x }

/-- Element k of accumulator a. -/
def Engine.acc (x : Engine) (a k : Nat) : Word := tget 0 x.accs (256 * a + k)
def Engine.setAcc (x : Engine) (a : Nat) (ws : List (Nat × Word)) : Engine :=
  { x with accs := ws.foldl (fun m (k, w) => mset 0 m (256 * a + k) w) x.accs }

/-- A snapshot converted for an `mst` (R348): its bytes, row by row, and the events. -/
def convertSnap (x : Engine) (a et : Nat) (sat : Bool) : Table Byte × List Nat :=
  let f := if et = 9 then f16 else b16
  (List.range 256).foldl (fun (q : Table Byte × List Nat) k =>
    let w := (x.acc a k).toNat
    if et = 8 then (putLe q.1 (4 * k) w 4, q.2)
    else
      let v := f32.decode false w
      let r := f.result { rm := 0, sat, ftz := false } [v] v.exact
      (putLe q.1 (2 * k) r.1 2, q.2 ++ r.2)) ([], [])

/-- Start of the power-up wave of a C-die, in cycles (R413): 3 ms and 40 µs for each column before it. -/
def waveStart (die : Nat) : Nat := 5700000 + 76000 * (die % 18)

/-- The cycle from which an engine of cluster cl is idle (R414). -/
def Engine.idleFrom (x : Engine) (cl : Nat) : Nat := if x.idleSince = 0 then waveStart (cl / 2048) else x.idleSince

/-- PASS_GRANT (R334, R348, R351, R414): the engine takes its next operation, but in an idle slot of a device that throttles itself. A pass after more than 10 µs of idling meets a ramp;
only one engine of a cluster ramps at a time. -/
def execPassGrant (cl e : Nat) (s : State) : Host.Outcome State Fault Refusal :=
  .next (match (if s.idleSlot then none else s.nextGrant cl e) with
    | none => s
    | some r =>
      let x := s.engine cl e
      match r.op with
      | .pass _ _ _ _ _ _ _ =>
        if (s.clusterOf cl).engines.any (fun (_, y) => y.ramping) then s
        else if 19000 < s.cycle - x.idleFrom cl then (s.putEngine cl e { x with ramping := true }).owe (.rampEnd cl e)
        else (s.putReserve cl { r with granted := true }).owe (.computePhaseEnd cl e)
      | .snap a c =>
        let cp : Copy := tget {} s.copies c
        let v := convertSnap x a cp.et cp.sat
        ({ s with copies := tput s.copies c { cp with snap := some v.1, evs := v.2 } }.dropReserve cl r).owe (.copyComplete c)
      | .zero _ | .acc _ _ => (s.putReserve cl { r with granted := true }).owe (.passComplete cl e))

/-- RAMP_END (R414): the engine may start its pass; the cluster's other engine may ramp. -/
def execRampEnd (cl e : Nat) (s : State) : Host.Outcome State Fault Refusal :=
  let x := s.engine cl e
  .next (if x.ramping then
    ((s.putEngine cl e { x with ramping := false, idleSince := s.cycle }).owe (.passGrant cl e)).owe (.passGrant cl (1 - e))
  else s)

/-- The granted entry of an engine. -/
def State.granted (s : State) (cl e : Nat) : Option Reserve := (s.clusterOf cl).reserve.find? (fun r => r.engine == e && r.granted)

/-- COMPUTE_PHASE_END (R338, R351): the pass has read its slots; poisoned data in one stops the domain (R417). -/
def execComputePhaseEnd (cl e : Nat) (s : State) : Host.Outcome State Fault Refusal :=
  .next (match s.granted cl e with
    | none => s
    | some r => match r.op, r.read with
      | .pass _ sa sb _ _ _ _, none =>
        let c := s.clusterOf cl
        let s0 := if (tget ({} : OpSlot) c.slots sa).bad || (tget ({} : OpSlot) c.slots sb).bad then
            let t := s.teamOf (r.group / 16); s.stopDomain (t.ctx, (s.launchOf t.launch).lcb.fdom)
          else s
        let s1 := s0.putReserve cl { r with read := some (tget {} c.slots sa, tget {} c.slots sb) }
        (s1.putCluster cl (((s1.clusterOf cl).addReader sa false).addReader sb false)).owe (.passComplete cl e)
      | _, _ => s)

/-- The engine after an operation, and the events it counts. -/
def Engine.after (x : Engine) (r : Reserve) : Engine × List Nat :=
  match r.op, r.read with
  | .pass d _ _ _ _ sA sB, some (a, b) => let v := passResult a b sA sB (x.acc d); (x.setAcc d v.1, v.2)
  | .zero d, _ => (x.setAcc d ((List.range 256).map (fun k => (k, 0))), [])
  | .acc d a, _ =>
    let vs := (List.range 256).map (fun k =>
      let y := sumStep [f32.decode false (x.acc d k).toNat, f32.decode false (x.acc a k).toNat]
      let w := deliverStep y.1
      (k, BitVec.ofNat 32 w.1, y.2 ++ w.2))
    (x.setAcc d (vs.map (fun v => (v.1, v.2.1))), (vs.flatMap (fun v => v.2.2)).eraseDups)
  | _, _ => (x, [])

/-- An entry can complete: a pass has been read. -/
def Reserve.finished (r : Reserve) : Bool :=
  match r.op with
  | .pass _ _ _ _ _ _ _ => r.read.isSome
  | .zero _ | .acc _ _ => true
  | .snap _ _ => false

/-- PASS_COMPLETE (R342, R350, R351): the accumulator is written and the entry freed; idle time counts from a pass (R414). -/
def execPassComplete (cl e : Nat) (s : State) : Host.Outcome State Fault Refusal :=
  .next (match s.granted cl e with
    | none => s
    | some r =>
      if r.finished then
        let v := (s.engine cl e).after r
        let s1 := (s.putEngine cl e { v.1 with idleSince := if r.read.isSome then s.cycle else v.1.idleSince })
        let s2 := if s.hasGroup r.group then s1.countEvents r.group r.frag v.2 else s1
        s2.dropReserve cl r
      else s)

end Sys2Proof.Machine
end

