-- ==== Sys2Proof/Machine/Launch.lean ====
section
/-! DEFINITION. Launch control blocks and their resolution (R354 to R356), launch records, placement of teams in the range tables
and task queues (R359, R367), the start of teams (R357, R368), their end (R358), and the completion of launches (R360). -/

namespace Sys2Proof.Machine

/-! ### Reading a launch control block -/

/-- n bytes at an aligned virtual address of a context, as the last performed writes leave them. -/
def State.readVirt (s : State) (c va n : Nat) : Option Nat :=
  if va < 2 ^ 56 then (s.walkPage c va).map (fun p => s.latestLe (p.at_ va) n) else none

/-- The pages of a range of a context, if each is mapped and as `ok` demands. -/
def State.mapRange (s : State) (c va n : Nat) (ok : PagePin → Bool) : Option (List PagePin) :=
  if n = 0 then some []
  else if 2 ^ 56 < va + n then none
  else match s.walkRange c va n with
    | .ok ps => if ps.all ok then some ps else none
    | .error _ => none

/-- A field of a block read as one number: n bytes at an offset. -/
def fieldAt (x off n : Nat) : Nat := x / 2 ^ (8 * off) % 2 ^ (8 * n)

/-- Bytes of an LCB that are zero (R354), as (offset, bytes). -/
def lcbZeros : List (Nat × Nat) :=
  [(0x24, 4), (0x4C, 4), (0x53, 5), (0x63, 5), (0x73, 5), (0x83, 5), (0x9C, 4), (0xBC, 4), (0xC8, 56)]

/-- Bits of an LCB that are zero: OVR [15:10], FLAGS [7:1], PRIO [7:3] and [7] of each slot record. -/
def lcbSane (x : Nat) : Bool :=
  lcbZeros.all (fun z => fieldAt x z.1 z.2 == 0) && fieldAt x 8 2 / 2 ^ 10 == 0 && fieldAt x 10 1 / 2 == 0 &&
    fieldAt x 11 1 / 8 == 0 && [0x50, 0x60, 0x70, 0x80].all (fun o => fieldAt x o 1 / 128 == 0)

/-- The chain of LCBs from an address (R355), followed while one of the field groups `todo` is unset. -/
def State.lcbChain (s : State) (c : Nat) : Nat → List Nat → Nat → Option (List Nat)
  | 0, _, _ => none
  | n + 1, todo, a =>
    if a % 256 ≠ 0 then none
    else match s.readVirt c a 256 with
      | none => none
      | some x =>
        let left := todo.filter (fun g => !bit (fieldAt x 8 2) g)
        if !lcbSane x then none
        else if left.isEmpty then some [x]
        else if fieldAt x 0 8 = 0 then none
        else (s.lcbChain c n left (fieldAt x 0 8)).map (fun xs => x :: xs)

/-- A field of a resolved chain: from the first block that sets its group. -/
def chainField (xs : List Nat) (g off n : Nat) : Nat := ((xs.find? (fun x => bit (fieldAt x 8 2) g)).map (fun x => fieldAt x off n)).getD 0

/-- The context's symmetric entry that a peer load or a symmetric register names (R356, R378). -/
def Ctx.symFor (c : Ctx) (kind : Kind) (base len : Nat) : Option Sym :=
  (c.syms.find? (fun (_, e) => e.kind != .empty && !e.busy && e.kind == kind && e.base == base && e.len == len)).map (·.2)

/-- A region-load entry (R356) for register g, none where it fails R355. -/
def State.regionLoad (s : State) (c g x : Nat) : Option RegionLoad :=
  let lw := fieldAt x 8 8
  let e : RegionLoad :=
    { reg := g, base := fieldAt x 0 8, len := bits lw 40 7 * 128, cls := bits lw 1 0, kind := kindOf (bits lw 3 2)
      peer := bit lw 4, tstride := fieldAt x 16 8 }
  if e.base % 128 ≠ 0 ∨ bits lw 6 5 ≠ 0 ∨ bits lw 63 41 ≠ 0 ∨ e.cls = 3 ∨ e.kind = .empty ∨ e.len = 0 ∨ 2 ^ 40 < e.len ∨
      e.tstride % 128 ≠ 0 ∨ fieldAt x 24 8 ≠ 0 then none
  else if e.peer && (decide (g < 24) || e.kind == .x || ((s.ctxOf c).symFor e.kind e.base e.len).isNone) then none
  else some e

/-- The entries of a region-load table for a list of registers. -/
def State.regionLoads (s : State) (c : Nat) : Nat → List Nat → Option (List RegionLoad)
  | _, [] => some []
  | a, g :: gs =>
    match s.readVirt c a 32 with
    | none => none
    | some x => match s.regionLoad c g x, s.regionLoads c (a + 32) gs with
      | some e, some es => some (e :: es)
      | _, _ => none

/-- Carry slot record j of a chain (R354). -/
def slotRecord (xs : List Nat) (j : Nat) : CarrySlot :=
  let x := chainField xs 7 (0x50 + 16 * j) 16
  { valid := bit x 0, reg := bits x 6 1, k := bits x 23 8 + 1, seed := bits x 127 64 }

/-- The fields of a resolved chain; SCR is in bytes. -/
def lcbFields (addr : Nat) (xs : List Nat) (loads : List RegionLoad) : Lcb :=
  { addr, matrix := bit (chainField xs 1 0x0A 1) 0, prio := chainField xs 2 0x0B 1, nb := chainField xs 1 0x0C 1
    scr := 1024 * chainField xs 1 0x0D 1, teamSize := chainField xs 1 0x0E 2, codeBase := chainField xs 0 0x10 8
    entry := chainField xs 0 0x18 4, codeLen := chainField xs 0 0x1C 4, fdom := chainField xs 3 0x20 4
    handler := chainField xs 4 0x28 8, budget := chainField xs 5 0x30 8, maxTeams := chainField xs 5 0x38 4
    spawns := chainField xs 5 0x3C 4, loads, carry := (List.range 4).map (fun j => (j, slotRecord xs j))
    spill := chainField xs 7 0x90 8, spillN := chainField xs 7 0x98 4, arg := chainField xs 8 0xA0 8
    bin := chainField xs 9 0xA8 8, binBuf := chainField xs 9 0xB0 8, binCap := chainField xs 9 0xB8 4
    done := fieldAt (xs.headD 0) 0xC0 8 }

/-- Banks of a footprint of n groups and scr bytes of team scratch (R355). -/
def footBanksOf (n scr : Nat) : Nat := (n * 8960 + scr + 16383) / 16384

/-- A power of two from 2,048 to 1,048,576. -/
def spillSizeOk (n : Nat) : Bool := (List.range 10).any (fun i => n == 2048 * 2 ^ i)

/-- The ranges of R354 and R355, apart from those that need the page tables. -/
def Lcb.inRange (l : Lcb) : Bool :=
  decide (l.nb ≤ 8) && decide (l.scr ≤ 65536) && decide (1 ≤ l.teamSize) && decide (l.teamSize ≤ 16) && l.codeBase % 4096 == 0 &&
    l.entry % 4 == 0 && l.codeLen % 4 == 0 && l.codeLen != 0 && l.handler % 4 == 0 && decide (l.codeBase ≤ l.handler) &&
    decide (l.handler < l.codeBase + l.codeLen) && l.done % 8 == 0 && l.binBuf % 4096 == 0 &&
    (if l.binBuf = 0 then l.binCap == 0 else decide (1 ≤ l.binCap) && decide (l.binCap ≤ 2 ^ 24)) &&
    decide (footBanksOf l.teamSize l.scr + l.nb ≤ 16) &&
    l.carry.all (fun (_, c) => !c.valid || (decide (c.reg ≤ 59) && decide (c.k ≤ 1024) && (c.seed == 2 ^ 64 - 1 || c.seed % 4 == 0))) &&
    (!l.carry.any (·.2.valid) || (l.spill % 4096 == 0 && spillSizeOk l.spillN))

/-- All pages of several ranges, if each range gives its pages. -/
def joinPins : List (Option (List PagePin)) → Option (List PagePin)
  | [] => some []
  | none :: _ => none
  | some ps :: xs => (joinPins xs).map (fun qs => ps ++ qs)

/-- The pages that a launch pins (R60, R173): code, which needs RD and XP, seeds and the spill area. -/
def State.launchPins (s : State) (c : Nat) (l : Lcb) : Option (List PagePin) :=
  let slots := l.carry.filter (·.2.valid)
  let top := (slots.map (·.1)).foldl max 0
  joinPins (s.mapRange c l.codeBase l.codeLen (fun p => p.rd && p.xp) ::
    (if slots.isEmpty then some [] else s.mapRange c l.spill (16 * l.spillN * (top + 1)) (fun _ => true)) ::
    slots.map (fun (_, x) => if x.seed = 2 ^ 64 - 1 then some [] else s.mapRange c x.seed (4 * x.k) (fun _ => true)))

/-- Resolve an LCB (R355): its fields and the pages to pin. A queue launch does not consult field group 8 (R354).
DESIGN CHOICE, log 24. -/
def State.resolve (s : State) (c a : Nat) (queued : Bool) : Option (Lcb × List PagePin) :=
  let groups := (List.range 10).filter (fun g => !(queued && g == 8))
  match s.lcbChain c 8 groups a with
  | none => none
  | some xs =>
    let mask := chainField xs 6 0x48 4
    let tab := chainField xs 6 0x40 8
    if tab % 32 ≠ 0 then none
    else match s.regionLoads c tab ((List.range 32).filter (fun g => bit mask g)) with
      | none => none
      | some loads =>
        let l := lcbFields a xs loads
        if l.inRange then (s.launchPins c l).map (fun ps => (l, ps)) else none

/-! ### Launch records (R359) -/

/-- Teams of a launch (R367). -/
def Launch.teams (l : Launch) : Nat := ((l.items + 31) / 32 + l.lcb.teamSize - 1) / l.lcb.teamSize

/-- Groups of the team of an ordinal: the last team holds those that remain. -/
def Launch.sizeOf (l : Launch) (ord : Nat) : Nat := min l.lcb.teamSize ((l.items + 31) / 32 - ord * l.lcb.teamSize)

/-- The home of the record of an LCB: that of its shelf. -/
def State.lcbHome (s : State) (c a : Nat) : Nat := ((s.walkPage c a).map (fun p => s.home (p.at_ a))).getD 0

/-- A free record at a home. -/
def State.recordFree (s : State) (home : Nat) : Bool :=
  decide ((s.launches.filter (fun (_, l) => l.st != .none && l.home == home)).length < 256)

/-- The held launch of an LCB address in a context. -/
def State.heldLaunch (s : State) (c a : Nat) : Option (Nat × Launch) :=
  s.launches.find? (fun (_, l) => l.st == .held && l.ctx == c && l.lcb.addr == a)

/-- Create a record: the launch is held until it starts. -/
def State.newLaunch (s : State) (l : Launch) : State × Nat :=
  ({ s with nextId := s.nextId + 1, launches := tput s.launches s.nextId { l with st := .held, age := s.nextId } }, s.nextId)

/-- The launch is live (R359). -/
def Launch.live (l : Launch) : Bool := l.st == .running || l.st == .completing

/-! ### Relocation (R197) -/

/-- The holder of a borrow has moved: RELOC to every home that records it, on other devices too. -/
def State.relocate (s : State) (team cl handle : Nat) : State :=
  let mine := s.circ.filter (fun (_, e) => e.team == team && e.handle == handle && e.st == .held)
  let q := s.newReq { purpose := .reloc, team, handle, ident := identOf s.ownNum (cl / 2048) (cl % 2048) 0, issued := s.cycle,
                      parts := mine.map (fun (_, e) => (e.home, e.spans)) }
  if mine.isEmpty then s else q.1.ask q.2 9 (q.1.req q.2)

/-- The requester of a pending request has moved: its replies go to the new cluster, and its entries are relocated. -/
def State.relocateReq (s : State) (cl n : Nat) : State :=
  let r := s.req n
  let id := identOf s.ownNum (cl / 2048) (cl % 2048) (r.ident % 2 ^ 8)
  let q := (s.putReq n { r with ident := id }).newReq
    { purpose := .reloc, team := r.team, reg := r.reg, ident := id, issued := s.cycle, parts := r.parts, moves := n }
  if r.parts.isEmpty then s else q.1.ask q.2 9 (q.1.req q.2)

/-- Give a borrow of a team back, apart from its registers (R357, R358). -/
def State.giveBack (s : State) (team cl : Nat) (r : Region) (spans : List (Nat × Nat)) : State :=
  let q := s.newReq { purpose := .free, team, handle := r.handle, kind := r.kind, issued := s.cycle, age := ageOf s.cycle,
                      ident := identOf s.ownNum (cl / 2048) (cl % 2048) 0, parts := s.partsOf spans }
  q.1.ask q.2 6 (q.1.req q.2)

/-! ### Placement (R367) -/

/-- Chunk size. -/
def chunkSize (teams nc : Nat) : Nat := max 1 (min 64 ((teams + nc - 1) / nc))

/-- The range of the k-th C-die of a launch's rotation. DESIGN CHOICE, log 31. -/
def rangeFor (l teams nc k : Nat) : Range :=
  let ch := chunkSize teams nc
  let chunks := (teams + ch - 1) / ch
  let n := if k < chunks then (chunks - 1 - k) / nc + 1 else 0
  { launch := l, base := ch * k, ch, stride := ch * nc, lo := 0
    hi := if n = 0 then 0 else if (chunks - 1) % nc = k then (n - 1) * ch + (teams - (chunks - 1) * ch) else n * ch }

/-- The ordinal of team number n of a range. -/
def Range.ordinal (r : Range) (n : Nat) : Nat := r.base + n / r.ch * r.stride + n % r.ch

/-- The ranges of a launch, with their dies. -/
def State.rangesFor (s : State) (l : Nat) (ln : Launch) : List (Nat × Range) :=
  let ds := s.cdies
  let first := (ds.idxOf? ln.die).getD 0
  ((List.range (min ds.length ln.teams)).map (fun k => (ds.getD ((first + k) % ds.length) 0, rangeFor l ln.teams ds.length k))).filter
    (fun x => x.2.hi != 0)

/-- Every range table that the launch needs has room. -/
def State.rangeRoom (s : State) (l : Nat) (ln : Launch) : Bool :=
  (s.rangesFor l ln).all (fun x => decide ((tget [] s.ranges x.1).length < 4096))

/-- Clusters of a C-die (R18). -/
def dieClusters : Nat := 1920

/-- Tasks in a cluster's queue. -/
def State.depth (s : State) (cl : Nat) : Nat := (s.clusterOf cl).queue.length

/-- The shallowest queue of a die, the lowest cluster where several are. -/
def State.shallowest (s : State) (die : Nat) : Nat :=
  match (List.range dieClusters).find? (fun c => s.depth (2048 * die + c) == 0) with
  | some c => 2048 * die + c
  | none => 2048 * die + (pickBest (fun a b => decide (s.depth (2048 * die + a) < s.depth (2048 * die + b)))
      (List.range dieClusters)).getD 0

/-! ### Loads and starts (R357, R368) -/

def State.taskOf (s : State) (k : Nat) : Task := tget {} s.tasks k
def State.putTask (s : State) (k : Nat) (t : Task) : State := { s with tasks := tput s.tasks k t }

/-- Teams of a launch that count under MAXTEAMS. -/
def State.counted (s : State) (l : Nat) : Nat :=
  (s.tasks.filter (fun (_, t) => t.launch == l && t.st != .queued)).length +
    (s.teams.filter (fun (_, t) => t.launch == l && t.st != .absent)).length

/-- Begin a task's loads, if the launch may have one more team. -/
def State.beginLoads (s : State) (k : Nat) : State :=
  let t := s.taskOf k
  let l := (s.launchOf t.launch).lcb
  if t.st == .queued && (l.maxTeams == 0 || decide (s.counted t.launch < l.maxTeams)) then
    (s.putTask k { t with st := .loading, age := s.cycle, left := l.loads }).owe (.regionLoad k)
  else s

/-- Begin the loads of the launch's waiting tasks, lowest ordinals first. -/
def State.beginWaiting (s : State) (l : Nat) : State :=
  let mine := s.tasks.filter (fun (_, t) => t.launch == l && t.st == .queued)
  let sorted := mine.foldl (fun (xs : List (Nat × Task)) x =>
    let before := xs.takeWhile (fun y => decide (y.2.ord < x.2.ord))
    before ++ x :: xs.drop before.length) []
  sorted.foldl (fun s' (k, _) => s'.beginLoads k) s

/-- The range that a die feeds from: the oldest launch's, and of its ranges the one with the lowest ordinal (R367). DESIGN CHOICE, log 31. -/
def feedRange : List Range → Option Range
  | [] => none
  | r :: rs => pickBest (fun a b : Range => decide (a.ordinal a.lo < b.ordinal b.lo)) ((r :: rs).filter (fun q => q.launch == r.launch))

/-- Feed the tasks of a die's ranges to its clusters' queues, ascending. -/
def State.feed (s : State) (die : Nat) : Nat → State
  | 0 => s
  | n + 1 =>
    let rs := tget [] s.ranges die
    match feedRange rs with
    | none => s
    | some r =>
      if (s.launchOf r.launch).st != .running || r.lo == r.hi then { s with ranges := tput s.ranges die (rs.erase r) }.feed die n
      else
        let cl := s.shallowest die
        if 64 ≤ s.depth cl then s
        else
          let k := s.nextId
          let c := s.clusterOf cl
          let s1 := { s with
            nextId := k + 1
            ranges := tput s.ranges die (rs.map (fun q => if q == r then { r with lo := r.lo + 1 } else q))
            tasks := tput s.tasks k { launch := r.launch, ord := r.ordinal r.lo, cluster := cl, fed := s.cycle } }
          ((s1.putCluster cl { c with queue := c.queue ++ [k] }).beginLoads k).feed die n

/-- Fuel for `feed`: a die's queues hold 64 tasks per cluster. -/
def feedFuel : Nat := 64 * dieClusters + 4096

/-- The seed words of a launch as they stand (R161). -/
def State.seedsOf (s : State) (ln : Launch) : Table Word :=
  (ln.lcb.carry.filter (·.2.valid)).foldl (fun m (j, c) => (List.range c.k).foldl (fun m i =>
    match ln.seedAt j i with
    | none => m
    | some pa => mset 0 m (1024 * j + i) (BitVec.ofNat 32 (s.latestLe pa 4))) m) []

/-- Invalidations of commons writes that are still on their way are applied: the writes are globally performed (R317, R360). -/
def State.settleWrites (s : State) : State := s.cdies.foldl (fun s' d => s'.settleDie d none) s

/-- Start a launch (R367), the writes of its bin buffer performed before (R366); the group of item 0 of an ordered one is boosted (R371), and
one without an item completes (R359). DESIGN CHOICE, log 37. -/
def State.startLaunch (s0 : State) (l : Nat) : State :=
  let ln := s0.launchOf l
  let s := if ln.fromBin then s0.settleWrites else s0
  let s1 := s.putLaunch l { ln with
    st := if ln.items = 0 then .completing else .running, seeds := s.seedsOf ln, boosted := if ln.ordered then some 0 else none }
  let rs := s1.rangesFor l ln
  let s2 := rs.foldl (fun s' x => { s' with ranges := tput s'.ranges x.1 (tget [] s'.ranges x.1 ++ [x.2]) }) s1
  let s3 := rs.foldl (fun s' x => s'.feed x.1 feedFuel) s2
  if ln.items = 0 then s3.owe (.launchComplete l) else s3

/-- Residents of each core of a cluster: its groups' cores. -/
def State.coresUsed (s : State) (cl : Nat) : List Nat :=
  (s.groups.filter (fun (_, g) => (s.teamOf g.team).cluster == cl && (s.teamOf g.team).st != .saved)).map (fun (_, g) => g.core)

/-- Cores that a team may use (R333): a matrix-flagged team only those of engines that no other such team uses. -/
def State.coresFor (s : State) (cl : Nat) (matrix : Bool) : List Nat :=
  (List.range 4).filter (fun c => !matrix || (s.engine cl (c / 2)).owner.isNone)

/-- Assign n groups to cores: the fewest residents, lowest first, at most 8. -/
def assignCores (cores : List Nat) : Nat → List Nat → Option (List Nat)
  | 0, _ => some []
  | n + 1, used =>
    match pickBest (fun a b => decide (used.count a < used.count b)) (cores.filter (fun c => decide (used.count c < 8))) with
    | none => none
    | some c => (assignCores cores n (c :: used)).map (fun cs => c :: cs)

/-- Free banks of a cluster, beside those of its resident teams (R213). -/
def State.freeBanks (s : State) (cl : Nat) : Nat :=
  16 - ((s.teams.filter (fun (_, t) => t.cluster == cl && t.st != .absent && t.st != .saved)).map (fun (_, t) =>
    t.footBanks + t.banks.length)).sum

/-- A team of n groups of a launch fits on a cluster: the cores of its groups. -/
def State.fits (s : State) (cl n : Nat) (l : Lcb) : Option (List Nat) :=
  if footBanksOf n l.scr + l.nb ≤ s.freeBanks cl then assignCores (s.coresFor cl l.matrix) n (s.coresUsed cl) else none

/-- R160 lets the team of an ordinal of an ordered launch start. -/
def Launch.mayStart (l : Launch) (ord : Nat) : Bool :=
  !l.ordered || (ord == l.next && decide (32 * (ord * l.lcb.teamSize + l.sizeOf ord - 1) + 1088 < l.low + l.lcb.spillN))

/-- The team holds the lowest unretired item of its ordered launch (R371). -/
def State.holdsLow (s : State) (t : Team) : Bool :=
  let l := s.launchOf t.launch
  l.ordered && l.low / 32 / l.lcb.teamSize == t.ix

/-- A saved team waits for residency: one pre-empted over a borrow does once its requests have ended (R196). -/
def State.waitsResidency (s : State) (k : Nat) (t : Team) : Bool :=
  t.st == .saved && !(t.forBorrow && s.reqs.any (fun (_, r) => r.team == k && r.ended.isNone))

/-- A pre-empted team that holds item u waits for residency: no other team becomes resident before it (R371). -/
def State.lowWaits (s : State) : Bool := s.teams.any (fun (k, t) => s.waitsResidency k t && s.holdsLow t)

/-- A task can start on a cluster: the cores of its groups. -/
def State.startable (s : State) (cl : Nat) (t : Task) : Option (List Nat) :=
  let l := s.launchOf t.launch
  if s.dieUp (cl / 2048) && t.st == .ready && l.st == .running && l.mayStart t.ord && !s.lowWaits then s.fits cl (l.sizeOf t.ord) l.lcb else none

/-- The order in which a cluster takes startable tasks (R368). -/
def State.taskBefore (s : State) (a b : Task) : Bool :=
  let prio := fun (t : Task) => if t.promoted then 7 else (s.launchOf t.launch).lcb.prio
  let age := fun (t : Task) => (s.launchOf t.launch).age
  if prio a ≠ prio b then decide (prio b < prio a)
  else if age a ≠ age b then decide (age a < age b)
  else decide (a.ord < b.ord)

/-- The task that a cluster starts next. -/
def State.nextTask (s : State) (cl : Nat) : Option Nat :=
  (pickBest (fun x y : Nat × Task => s.taskBefore x.2 y.2) (((s.clusterOf cl).queue.map (fun k => (k, s.taskOf k))).filter
    (fun x => (s.startable cl x.2).isSome))).map (·.1)

/-- A cluster with a startable task starts it. -/
def State.pump (s : State) (cl : Nat) : State :=
  match s.nextTask cl with
  | some k => if s.agenda.contains (.teamStart k) then s else s.owe (.teamStart k)
  | none => s

/-- Pump every cluster with a ready task. -/
def State.pumpAll (s : State) : State :=
  (((s.tasks.filter (fun (_, t) => t.st == .ready)).map (fun (_, t) => t.cluster)).eraseDups).foldl State.pump s

/-- The region register of a load: a borrow of group 0 (R357), or a symmetric entry (R356). -/
def RegionLoad.symRegion (e : RegionLoad) (handle : Nat) : Region :=
  { base := e.base, len := e.len, kind := e.kind, cls := e.cls, holder := 0, all := true, peer := true, handle }

/-- Return the loads that a task has taken (R357). -/
def State.returnLoads (s : State) (k : Nat) (t : Task) : State :=
  (t.got.filter (fun (_, r) => !r.peer)).foldl (fun s' (_, r) => s'.giveBack k t.cluster r (s'.regionSpans r)) s

/-- A load ends with a status. -/
def State.loadEnded (s : State) (k : Nat) (t : Task) (n : Nat) (r : Request) (status : Nat) : State :=
  let s1 := { s with reqs := tdel s.reqs n }
  if status ≤ 1 then
    let s2 := if r.kind == .c then s1 else s1.selfInvalidate t.cluster (pageSpans r.pins r.base r.len)
    let s3 := if status = 1 then s2.interrupt 4 t.launch r.reg 0 else s2
    (s3.putTask k { t with got := mset {} t.got r.reg (r.region 0) }).owe (.regionLoad k)
  else if status = 5 then
    let l := s.launchOf t.launch
    s1.beginKill { ctx := l.ctx, whole := false, fdom := l.lcb.fdom, cause := 5 }
  else
    (s1.returnLoads k t).putTask k { t with st := .retry, refused := s.cycle, left := [], got := [] }

/-- A load is refused for the team's range, or faults: the fault domain is killed (R357, R393). -/
def State.loadTrap (s : State) (t : Task) (reg code detail : Nat) : State :=
  let l := s.launchOf t.launch
  s.beginKill { ctx := l.ctx, whole := false, fdom := l.lcb.fdom, cause := 6, code, detail, lcb := l.lcb.addr, pc := reg + 256 * t.ord }

/-- The pages of a range for a load: through the cluster's translation cache, or by a walk (R402). -/
def State.lookLoad (s : State) (c cl base len : Nat) (k : Kind) : Look :=
  if aperture base == .peer then s.lookPeer c base len k
  else
    let page := fun (va : Nat) => match (s.clusterOf cl).tlb.find? (fun p => p.ctx == c && p.holds va) with
      | some p => some p
      | none => s.walkPage c va
    let r := collectPages page (len / 4096 + 2) base (base + len)
    match deniedAt r.1 k base, r.2 with
    | some a, _ => .fault 2 a
    | none, some va => .fault 1 (va / 4096 * 4096)
    | none, none => .pages r.1

/-- Request the borrow of a load, as a blocking `bor` of group 0 (R357). -/
def State.askLoad (s : State) (k : Nat) (t : Task) (e : RegionLoad) : State :=
  let l := s.launchOf t.launch
  let base := (e.base + t.ord * e.tstride) % 2 ^ 64
  let key := s.importKey l.ctx base
  let go := fun (ps : List PagePin) (parts : List (Nat × List (Nat × Nat))) =>
    let q := s.newReq
      { purpose := .load k, key := key.1, rva := key.2, team := k, reg := e.reg, kind := e.kind, wait := true, base, len := e.len, cls := e.cls, ctx := l.ctx
        age := ageOf t.age, issued := s.cycle, ident := identOf s.ownNum (t.cluster / 2048) (t.cluster % 2048) 0, pins := ps, parts }
    q.1.ask q.2 1 (q.1.req q.2)
  if !inOneSpan base e.len then s.loadTrap t e.reg 0x10 34
  else match s.lookLoad l.ctx t.cluster base e.len e.kind with
    | .fault d _ => s.loadTrap t e.reg 0x13 d
    | .miss => s
    | .silent dev => go [] [(1000 + dev, [])]
    | .pages ps =>
      let parts := s.partsOf (pageSpans ps base e.len)
      if s.selfConflict k e.kind parts then
        s.beginKill { ctx := l.ctx, whole := false, fdom := l.lcb.fdom, cause := 5 }
      else go ps parts

/-- REGION_LOAD (R357): the scheduler takes a task's next load, or finds the last one ended. -/
def execRegionLoad (k : Nat) (s : State) : Host.Outcome State Fault Refusal :=
  let t := s.taskOf k
  .next (if t.st != .loading then s
  else match s.reqs.find? (fun (_, r) => r.purpose == .load k) with
    | some (n, r) => match r.ended with | some status => s.loadEnded k t n r status | none => s
    | none => match t.left with
      | [] => (s.putTask k { t with st := .ready }).pump t.cluster
      | e :: es =>
        if e.peer then
          let h := ((((s.ctxOf (s.launchOf t.launch).ctx).symFor e.kind e.base e.len).map (·.handle))).getD 0
          (s.putTask k { t with left := es, got := mset {} t.got e.reg (e.symRegion h) }).owe (.regionLoad k)
        else (s.putTask k { t with left := es }).askLoad k { t with left := es } e)

/-- LOAD_RETRY (R357): 4,096 cycles after a refusal, with the age of the first attempt. -/
def execLoadRetry (k : Nat) (s : State) : Host.Outcome State Fault Refusal :=
  let t := s.taskOf k
  .next (if t.st == .retry && decide (t.refused + 4096 ≤ s.cycle) && !s.reqs.any (fun (_, r) => r.team == k) then
    (s.putTask k { t with st := .loading, left := (s.launchOf t.launch).lcb.loads }).owe (.regionLoad k)
  else s)

/-! ### Teams start and end -/

/-- The lanes of a group that are absent (R13). -/
def absentLanes (items ord : Nat) : Mask := maskOf ((List.range 32).filter (fun l => decide (items ≤ 32 * ord + l)))

/-- The lowest residency place of a core that no group of a list has (R377). -/
def freePlace (gs : List (Nat × Nat)) (core : Nat) : Nat := ((List.range 8).find? (fun p => !gs.contains (core, p))).getD 0

/-- Cores and places of the groups of a cluster. -/
def State.placesUsedOn (s : State) (cl : Nat) : List (Nat × Nat) :=
  (s.groups.filter (fun (_, g) => (s.teamOf g.team).cluster == cl && (s.teamOf g.team).st != .saved)).map (fun (_, g) => (g.core, g.place))

/-- Give each core of a list a place. -/
def givePlaces : List (Nat × Nat) → List Nat → List (Nat × Nat)
  | _, [] => []
  | used, c :: cs => let p := freePlace used c; (c, p) :: givePlaces ((c, p) :: used) cs

/-- A pair engine is allotted to a team: accumulators at +0, slots free (R335, R339). -/
def Cluster.allot (c : Cluster) (e team : Nat) : Cluster :=
  { c with
    engines := tmod ({} : Engine) c.engines e (fun x => { x with owner := some team, accs := [] })
    slots := c.slots.filter (fun (n, _) => n / 16 != e) }

/-- The engines of a list of cores. -/
def enginesOf (cores : List Nat) : List Nat := (cores.map (· / 2)).eraseDups

/-- A group at its start (R62, R93). -/
def Launch.freshGroup (l : Launch) (team ord pos : Nat) (cp : Nat × Nat) (now : Nat) : Group :=
  let off := absentLanes l.items ord
  { cur := { mask := ~~~off, pc := BitVec.ofNat 64 (l.lcb.codeBase + l.lcb.entry), st := .ready, id := 1 }
    absent := off, ord, pos, core := cp.1, place := cp.2, team, last := now
    deferred := if l.budgetAt.isSome then [{ code := 0x38, detail := 1, frag := 0 }] else []
    budgeted := l.budgetAt.isSome }

/-- Start a task as a team on its cluster. The first team of its launch there finds no instruction word fetched before (R330), and a
cluster left without a cache way empties its cache (R217). -/
def State.startTeam (s : State) (k : Nat) (t : Task) (cores : List Nat) : State :=
  let l := s.launchOf t.launch
  let n := l.sizeOf t.ord
  let cl := t.cluster
  let cps := givePlaces (s.placesUsedOn cl) cores
  let c := s.clusterOf cl
  let c1 := { c with queue := c.queue.erase k }
  let c2 := if l.lcb.matrix then (enginesOf cores).foldl (fun c' e => c'.allot e k) c1 else c1
  let team : Team :=
    { st := .resident, launch := t.launch, ctx := l.ctx, ix := t.ord, size := n, cluster := cl, start := s.cycle
      matrix := l.lcb.matrix, g := t.got, scr := l.lcb.scr, banks := List.replicate l.lcb.nb {} }
  let s1 := (s.putCluster cl c2).putTeam k team
  let s2 := cps.zipIdx.foldl (fun s' (cp, pos) =>
    s'.putGroup (groupKey k pos) (l.freshGroup k (t.ord * l.lcb.teamSize + pos) pos cp s.cycle)) s1
  let s2a := if s.teams.any (fun (_, x) => x.launch == t.launch && x.cluster == cl) then s2 else s2.dropCode cl l
  let s3 := (t.got.filter (fun (_, r) => r.kind != .c && !r.peer)).foldl (fun s' (_, r) => s'.selfInvalidate cl (s'.regionSpans r))
    (s2a.settleWays cl)
  ({ s3 with tasks := tdel s3.tasks k }.putLaunch t.launch { l with started := l.started + 1, next := max l.next (t.ord + 1) }).feed
    (cl / 2048) feedFuel

/-- TEAM_START (R368): a cluster starts a startable task, the first in its order. -/
def execTeamStart (k : Nat) (s : State) : Host.Outcome State Fault Refusal :=
  let t := s.taskOf k
  .next (if s.nextTask t.cluster = some k then
    match s.startable t.cluster t with
    | some cores => (s.startTeam k t cores).pumpAll
    | none => s
  else s.pump t.cluster)

/-- The pieces of a borrow that a team's registers hold, joined (R358). -/
def Team.pieces (t : Team) : List (Nat × List Region) :=
  let rs := (t.g.map (·.2)).filter (fun r => r.kind != .empty && !r.peer)
  ((rs.map (·.handle)).eraseDups).map (fun h => (h, rs.filter (fun r => r.handle == h)))

/-- Return every borrow of an ending team (R358). -/
def State.returnAll (s : State) (k : Nat) : State :=
  let t := s.teamOf k
  let s1 := t.pieces.foldl (fun s' (_, rs) =>
    match rs with
    | [] => s'
    | r :: _ =>
      let spans := rs.flatMap s'.regionSpans
      let o := s'.writeOut k r.kind spans true
      let q := o.1.newReq { purpose := .free, team := k, handle := r.handle, kind := r.kind, issued := s.cycle, age := ageOf s.cycle,
                            ident := identOf s.ownNum (t.cluster / 2048) (t.cluster % 2048) 0, parts := s.partsOf spans, backs := o.2 }
      q.1.ask q.2 6 (q.1.req q.2)) s
  s1.putTeam k { s1.teamOf k with g := [] }

/-- The launch that ended teams belong to may complete: its record says so (R359). -/
def State.checkLaunch (s : State) (l : Nat) : State :=
  let ln := s.launchOf l
  if ln.live && ln.ended == ln.teams && ln.children == 0 && !s.agenda.contains (.launchComplete l) then
    (s.putLaunch l { ln with st := .completing }).owe (.launchComplete l)
  else s

/-- A team that no longer needs them frees its residency, banks and pair engines. -/
def Cluster.release (c : Cluster) (team : Nat) : Cluster :=
  { c with engines := c.engines.map (fun (e, x) => (e, if x.owner == some team then { x with owner := none, accs := [] } else x))
           slots := c.slots.filter (fun (n, _) => (tget ({} : Engine) c.engines (n / 16)).owner != some team) }

/-- Saved teams that wait for residency are tried again, the one with the oldest item first (R371, R399). -/
def State.tryResume (s : State) : State :=
  let ready := s.teams.filter (fun (k, t) => t.st == .saved && !s.agenda.contains (.resume k))
  let first := ready.filter (fun (_, t) => s.holdsLow t)
  let rest := ready.filter (fun x => !first.any (fun y => y.1 == x.1))
  (first ++ rest).foldl (fun s' (k, _) => s'.owe (.resume k)) s

/-- The team has ended: what it held is free. -/
def State.dropTeam (s : State) (k : Nat) : State :=
  let t := s.teamOf k
  let l := s.launchOf t.launch
  let s1 := { s with groups := s.groups.filter (fun (_, g) => g.team != k), teams := tdel s.teams k }
  let s2 := (s1.putCluster t.cluster ((s1.clusterOf t.cluster).release k)).putLaunch t.launch { l with ended := l.ended + 1 }
  let s3 := ((s2.beginWaiting t.launch).checkLaunch t.launch).tryResume
  s3.pumpAll

/-- TEAM_END (R358): once the team's accesses and copies are complete, its borrows are returned; once they are, it is gone. -/
def execTeamEnd (k : Nat) (s0 : State) : Host.Outcome State Fault Refusal :=
  let s := s0.raiseTrips k none
  let t := s.teamOf k
  .next (if t.st != .ending then s
  else if s.txns.any (fun (_, x) => x.team == k) then
    (((s.clusterOf t.cluster).wc.filter (fun (x : Nat × WcLine) => !x.2.leaving)).map (·.1)).foldl (fun s' l =>
      if s'.agenda.contains (.wcDrain t.cluster l) then s' else s'.owe (.wcDrain t.cluster l)) s
  else if s.reqs.any (fun (_, r) => r.team == k) || s.copies.any (fun (_, c) => c.team == k) then s
  else if t.pieces.isEmpty then s.dropTeam k
  else
    let s1 := s.returnAll k
    if s1.reqs.any (fun (_, r) => r.team == k) || s1.agenda.contains (.teamEnd k) then s1 else s1.owe (.teamEnd k))

/-! ### Completion (R360) -/

/-- Start a held launch (R365): with no item it completes at once. A creator that still runs waits for it. That a release finds room in every range
table is a DESIGN CHOICE, log 31: the manual gives a full one no effect here. -/
def State.releaseLaunch (s : State) (l : Nat) (orphan : Bool) : State :=
  let ln := s.launchOf l
  let s1 := match ln.creator with
    | some c => if orphan then s else s.putLaunch c { s.launchOf c with children := (s.launchOf c).children + 1 }
    | none => s
  (s1.putLaunch l { ln with creator := if orphan then none else ln.creator }).startLaunch l

/-- Step 1 of a completion: held launches that the launch created are released, or discarded. -/
def State.settleHeld (s : State) (l : Nat) : State :=
  (s.launches.filter (fun (_, h) => h.st == .held && h.creator == some l)).foldl (fun s' (k, h) =>
    if h.items = 0 then { s' with launches := tdel s'.launches k } else s'.releaseLaunch k true) s

/-- A counter of the device is written: waiting queues read theirs again (R362). -/
def State.counterWritten (s : State) : State :=
  (s.queues.filter (fun (_, q) => q.waiting)).foldl (fun s' (n, _) =>
    if s'.agenda.contains (.waitRecheck n) then s' else s'.owe (.waitRecheck n)) s

/-- A page that other devices hold comes back to its home for a write that the device itself makes (R271): its recall and the holders' answers
take no step of their own. DESIGN CHOICE, log 32. -/
def State.pullPage (s : State) (pa : Nat) : State :=
  if (tfind s.catalogue (pageKey pa)).isNone then s
  else
    let s1 : State := (s.pageData pa).foldl (fun (s' : State) (x : Nat × Byte) => s'.setHomeByte x.1 x.2)
      { s with
        free := s.free + 1
        cmsgs := s.cmsgs.filter (fun (x : Nat × CMsg) => !(x.2.kind == .pageRecall && 128 * x.2.line / 4096 == pa / 4096)) }
    s1.pageBack pa

/-- A write of n bytes that the device itself makes at their home: copies of a commons line are invalidated. DESIGN CHOICE, log 32. -/
def State.deviceWrite (s : State) (pa v n : Nat) : State :=
  let line := lineOf pa
  let s1 := ((s.pullPage pa).settleLine line).setHomeLe pa v n
  match tfind s1.catalogue line with
  | none => s1
  | some c =>
    let s2 := ((c.copies.map (· / 2048)).eraseDups).foldl (fun s' d => s'.sendC { kind := .invalidate, line, die := d } .invalidate) s1
    s2.putCat line { c with st := if c.st == .sh then .h else c.st, copies := [] }

/-- Bytes of the spill area of an ordered launch that is over hold unpredictable values (R173). DESIGN CHOICE, log 50. -/
def State.scrubSpill (s : State) (l : Launch) : State :=
  let slots := l.lcb.carry.filter (·.2.valid)
  if slots.isEmpty then s
  else { s with
    free := s.free + 1
    mem := (List.range (l.lcb.spillN * ((slots.map (·.1)).foldl max 0 + 1))).foldl (fun m e =>
      match translate l.pins (l.lcb.spill + 16 * e) with
      | none => m
      | some pa => (List.range 16).foldl (fun m' i => writeByte m' (pa + i) (Config.freeByte (s.free * 2 ^ 28 + 16 * e + i))) m) s.mem }

/-- Steps 2 and 3: DONE is incremented, the record freed, and the creator has one live child less. -/
def State.closeRecord (s : State) (l : Nat) (killed : Bool) : State :=
  let ln := s.launchOf l
  let s0 := s.scrubSpill ln
  let s1 := match ln.doneAt with
    | some pa => if killed then s0 else (s0.deviceWrite pa ((s0.latestLe pa 8 + 1) % 2 ^ 64) 8).counterWritten
    | none => s0
  let s2 := { s1 with
    launches := (tdel s1.launches l).map (fun (k, x) => (k, if x.creator == some l then { x with creator := none } else x))
    carried := s1.carried.filter (fun v => v.launch != l) }
  match ln.creator with
  | some c =>
    if (tfind s2.launches c).isSome then
      (s2.putLaunch c { s2.launchOf c with children := (s2.launchOf c).children - 1 }).checkLaunch c
    else s2
  | none => s2

end Sys2Proof.Machine
end

