-- ==== Sys2Proof/Machine/Queue.lean ====
section
/-! DEFINITION. Launch queues: their entries and what makes one malformed (R56, R57, R362), their registers (R361), and the
completion of launches with what follows for their queues (R330, R360). -/

namespace Sys2Proof.Machine

/-! ### Entries -/

/-- One bit of a CRC-32C, least significant first. -/
def crcBit (c : Nat) : Nat := if c % 2 = 1 then c / 2 ^^^ 0x82F63B78 else c / 2

/-- One byte of a CRC-32C. -/
def crcByte (c b : Nat) : Nat := crcBit (crcBit (crcBit (crcBit (crcBit (crcBit (crcBit (crcBit (c ^^^ b))))))))

/-- CRC-32C (Castagnoli) over the n low bytes of a block. -/
def crc32c (x n : Nat) : Nat := ((List.range n).foldl (fun c i => crcByte c (fieldAt x i 1)) 0xFFFFFFFF) ^^^ 0xFFFFFFFF

def State.queue (s : State) (q : Nat) : Queue := tget {} s.queues q
def State.putQueue (s : State) (q : Nat) (x : Queue) : State := { s with queues := tput s.queues q x }

/-- Ring index of the next entry. -/
def Queue.ringIndex (q : Queue) : Nat := q.head % 2 ^ q.log2n

/-- The next entry of a queue that is served, as one number of 64 bytes (R56). -/
def State.entry (s : State) (n : Nat) : Option Nat :=
  let q := s.queue n
  if q.en && !q.halt && q.head != q.tail then some (s.latestLe (q.base + 64 * q.ringIndex) 64) else none

/-- The page of a counter, if it is in the global aperture, mapped and permitted. -/
def State.counterPage (s : State) (c va : Nat) (write : Bool) : Option PagePin :=
  if va < 2 ^ 56 then (s.walkPage c va).filter (fun p => if write then p.w else p.rd) else none

/-- Why an entry's own bytes are malformed, causes 1 to 6 (R57): what shows before any address is translated. -/
def Queue.formCause (q : Queue) (x : Nat) : Nat :=
  let ty := fieldAt x 0 1
  let addr := fieldAt x 8 8
  let val := fieldAt x 16 8
  let done := fieldAt x 24 8
  let arg := fieldAt x 32 8
  if crc32c x 60 ≠ fieldAt x 60 4 then 6
  else if ty = 0 ∨ 4 < ty then 1
  else if fieldAt x 1 1 / 4 ≠ 0 ∨ fieldAt x 2 2 ≠ 0 ∨ fieldAt x 40 20 ≠ 0 ∨ (ty ≠ 1 ∧ (done ≠ 0 ∨ arg ≠ 0)) ∨
      (ty = 4 ∧ (addr ≠ 0 ∨ val ≠ 0)) then 2
  else if fieldAt x 4 4 ≠ q.seq then 3
  else if (ty = 1 ∧ (addr % 256 ≠ 0 ∨ done % 8 ≠ 0)) ∨ ((ty = 2 ∨ ty = 3) ∧ addr % 8 ≠ 0) then 4
  else if ty = 1 ∧ (val = 0 ∨ 2 ^ 62 < val) then 5
  else 0

/-- A counter of an entry, translated when the entry starts (R56), lies outside the aperture or on a page not mapped or not permitted (R57). -/
def State.entryUnmapped (s : State) (q : Queue) (x : Nat) : Bool :=
  let ty := fieldAt x 0 1
  (ty == 1 && fieldAt x 24 8 != 0 && (s.counterPage q.ctx (fieldAt x 24 8) true).isNone) ||
    (ty == 2 && (s.counterPage q.ctx (fieldAt x 8 8) false).isNone) ||
    (ty == 3 && (s.counterPage q.ctx (fieldAt x 8 8) true).isNone)

/-- Why an entry is malformed, causes 1 to 6 (R57), once it starts: an alignment or a page is cause 4, which comes before cause 5. -/
def State.entryCause (s : State) (q : Queue) (x : Nat) : Nat :=
  let c := q.formCause x
  if (c = 0 ∨ c = 5) ∧ s.entryUnmapped q x then 4 else c

/-- The next entry is fenced, an earlier one of its queue is not complete, and it has not started (R56); an entry whose own bytes are
malformed with causes 1 to 4 or 6 is never found fenced. DESIGN CHOICE, log 48. -/
def Queue.fenced (q : Queue) (x : Nat) : Bool :=
  bit (fieldAt x 1 1) 0 && !q.live.isEmpty && !q.waiting && (q.formCause x == 0 || q.formCause x == 5)

/-- The event that a queue's next entry is to bring about. -/
def entryEvent (ty n : Nat) : Event :=
  if ty = 2 then .waitEntry n else if ty = 3 then .signalEntry n else if ty = 4 then .nopEntry n else .launchEntry n

/-- A queue's next entry waits for the front end's next turn, behind the entries of the other queues (R362); a fenced entry waits for
the earlier ones, its addresses not yet translated (R56). DESIGN CHOICE, log 48. -/
def State.kick (s : State) (n : Nat) : State :=
  match s.entry n with
  | none => s
  | some x =>
    let e := entryEvent (fieldAt x 0 1) n
    if s.agenda.contains e || (s.queue n).fenced x then s else s.owe e

/-- A malformed entry halts its queue alone (R57). -/
def State.haltQueue (s : State) (n cause : Nat) : State :=
  let q := s.queue n
  (s.putQueue n { q with halt := true, cause, index := q.ringIndex % 2 ^ 16, waiting := false }).interrupt 6 n cause q.ringIndex

/-- Signals whose earlier entries are complete are written, oldest first (R56). DESIGN CHOICE, log 32. -/
def State.settleQueue (s : State) (n : Nat) : Nat → State
  | 0 => s
  | fuel + 1 =>
    match (s.queue n).live with
    | { signal := some (pa, v), intr, index, launch := _ } :: es =>
      let s1 := (((s.putQueue n { s.queue n with live := es }).deviceWrite pa v 8).counterWritten)
      (if intr then s1.interrupt 7 n index 0 else s1).settleQueue n fuel
    | _ => s

/-- Consume the next entry; `e` is what of it has still to complete, if anything. -/
def State.consume (s : State) (n : Nat) (x : Nat) (e : Option QEntry) : State :=
  let q := s.queue n
  let s1 := s.putQueue n { q with head := (q.head + 1) % 2 ^ 32, seq := (q.seq + 1) % 2 ^ 32, waiting := false, live := q.live ++ e.toList }
  let s2 := if e.isNone && bit (fieldAt x 1 1) 1 then s1.interrupt 7 n q.ringIndex 0 else s1
  (s2.settleQueue n (q.live.length + 1)).kick n

/-- The queue whose next entry an owed event is to bring about. -/
def Event.entryOf : Event → Option Nat
  | .launchEntry n | .waitEntry n | .signalEntry n | .nopEntry n => some n
  | _ => none

/-- In the front end's rotation no other queue with an entry to visit comes before queue n (R362). -/
def State.inTurn (s : State) (n : Nat) : Bool :=
  let place := fun (q : Nat) => (q + 64 - s.rotor) % 64
  (s.agenda.filterMap Event.entryOf).all (fun q => q == n || decide (place n ≤ place q))

/-- Act on a queue's next entry of a TYPE when the front end's rotation comes to it (R362): halt on a malformed one, leave a fenced one until
the earlier ones complete before its addresses are translated; a WAIT that has started is not translated again (R56). A queue out of
turn is visited later. DESIGN CHOICE, log 48. -/
def State.onEntry (s0 : State) (n ty : Nat) (act : State → Queue → Nat → State) : Host.Outcome State Fault Refusal :=
  let s := { s0 with rotor := (n + 1) % 64 }
  .next (if !s0.inTurn n then s0.oweOnce (entryEvent ty n)
  else match s.entry n with
    | none => s
    | some x =>
      let q := s.queue n
      let t := fieldAt x 0 1
      if 1 ≤ t ∧ t ≤ 4 ∧ t ≠ ty then s
      else
        if q.fenced x then s
        else
          let c := if q.waiting then 0 else s.entryCause q x
          if c ≠ 0 then s.haltQueue n c else act s q x)

/-- LAUNCH_ENTRY (R362): a launch record is created and the launch starts; the entry waits where there is no room. -/
def execLaunchEntry (n : Nat) (s : State) : Host.Outcome State Fault Refusal :=
  s.onEntry n 1 (fun s q x =>
    let a := fieldAt x 8 8
    match s.resolve q.ctx a true with
    | none => s.haltQueue n 7
    | some (l, pins) =>
      if q.pcap < l.prio ∨ l.done ≠ 0 then s.haltQueue n 7
      else
        let page := if fieldAt x 24 8 = 0 then none else s.counterPage q.ctx (fieldAt x 24 8) true
        let ln : Launch :=
          { lcb := { l with arg := fieldAt x 32 8 }, ctx := q.ctx, items := fieldAt x 16 8, home := s.lcbHome q.ctx a
            die := s.cdies.headD 0, doneAt := page.map (fun p => p.at_ (fieldAt x 24 8)), pins := pins ++ page.toList
            queue := some n, intr := bit (fieldAt x 1 1) 1 }
        if !s.recordFree ln.home || !s.rangeRoom s.nextId ln then s
        else
          let r := s.newLaunch ln
          (r.1.startLaunch r.2).consume n x (some { launch := some r.2, intr := ln.intr, index := q.ringIndex }))

/-- The physical address of a WAIT entry's counter: translated when the entry starts, and kept while it waits (R56). -/
def State.counterAt (s : State) (q : Queue) (x : Nat) : Nat :=
  if q.waiting then q.waitAt else ((s.counterPage q.ctx (fieldAt x 8 8) false).map (fun p => p.at_ (fieldAt x 8 8))).getD 0

/-- A WAIT entry proceeds once its counter has reached its value, or its queue waits. -/
def State.tryWait (s : State) (n : Nat) (q : Queue) (x : Nat) : State :=
  if fieldAt x 16 8 ≤ s.latestLe (s.counterAt q x) 8 then s.consume n x none
  else s.putQueue n { q with waiting := true, waitAt := s.counterAt q x }

/-- WAIT_ENTRY (R56, R362). -/
def execWaitEntry (n : Nat) (s : State) : Host.Outcome State Fault Refusal := s.onEntry n 2 (fun s q x => s.tryWait n q x)

/-- WAIT_RECHECK (R362): the counter is read again. -/
def execWaitRecheck (n : Nat) (s : State) : Host.Outcome State Fault Refusal :=
  if (s.queue n).waiting then s.onEntry n 2 (fun s q x => s.tryWait n q x) else .next s

/-- SIGNAL_ENTRY (R56): the value is written once all earlier entries complete. -/
def execSignalEntry (n : Nat) (s : State) : Host.Outcome State Fault Refusal :=
  s.onEntry n 3 (fun s q x =>
    let va := fieldAt x 8 8
    match s.counterPage q.ctx va true with
    | none => s
    | some p => s.consume n x (some { signal := some (p.at_ va, fieldAt x 16 8), intr := bit (fieldAt x 1 1) 1, index := q.ringIndex }))

/-- NOP_ENTRY (R56). -/
def execNopEntry (n : Nat) (s : State) : Host.Outcome State Fault Refusal := s.onEntry n 4 (fun s _ x => s.consume n x none)

/-! ### Registers (R361) -/

/-- A write of QCTL. While EN is 1 only PCAP and EN change; EN stays 0 under a LOG2N outside 6 to 16; clearing EN resets QHEAD. -/
def Queue.control (q : Queue) (v : Nat) : Queue :=
  let en := bit v 31
  if q.en then
    if en then { q with pcap := bits v 30 28 }
    else { q with en := false, pcap := bits v 30 28, head := q.tail, seq := 0, waiting := false }
  else
    let n := bits v 27 23
    { q with en := en && decide (6 ≤ n) && decide (n ≤ 16), pcap := bits v 30 28, log2n := n, ctx := bits v 19 0 }

/-- QCTL_WRITE (R361). -/
def execQctlWrite (n val : Nat) (s : State) : Host.Outcome State Fault Refusal :=
  .next (if n < 64 then (s.putQueue n ((s.queue n).control val)).kick n else s)

/-- QTAIL_WRITE (R361): a write that would exceed the ring is refused. -/
def execQtailWrite (n val : Nat) (s : State) : Host.Outcome State Fault Refusal :=
  let q := s.queue n
  let v := val % 2 ^ 32
  .next (if 64 ≤ n then s
  else if 2 ^ q.log2n < (v + 2 ^ 32 - q.head) % 2 ^ 32 then (s.putQueue n { q with ovf := true }).interrupt 5 n 0 0
  else (s.putQueue n { q with tail := v, waiting := q.waiting && v != q.head }).kick n)

/-- HALT_CLEAR (R361): the queue resumes at the same entry. -/
def execHaltClear (n : Nat) (s : State) : Host.Outcome State Fault Refusal :=
  .next (if (s.queue n).halt then (s.putQueue n { s.queue n with halt := false }).kick n else s)

/-- OVF_CLEAR (R361). -/
def execOvfClear (n : Nat) (s : State) : Host.Outcome State Fault Refusal :=
  .next (if (s.queue n).ovf then s.putQueue n { s.queue n with ovf := false } else s)

/-! ### Completion -/

/-- The queue entry of a launch is complete: its interrupt, and the signals behind it (R56, R330). -/
def State.entryDone (s : State) (l : Nat) : State :=
  s.queues.foldl (fun s' (n, q) =>
    match q.live.find? (fun e => e.launch == some l) with
    | none => s'
    | some e =>
      let s1 := s'.putQueue n { s'.queue n with live := (s'.queue n).live.filter (fun e => e.launch != some l) }
      ((if e.intr then s1.interrupt 7 n e.index l else s1).settleQueue n (q.live.length + 1)).kick n) s

/-- Entries that wait for a launch record or a range table are tried again. -/
def State.kickAll (s : State) : State := s.queues.foldl (fun s' (n, _) => s'.kick n) s

/-- What follows the end of a launch: held launches, DONE, the record, its queue (R360). -/
def State.completeLaunch (s : State) (l : Nat) (killed : Bool) : State :=
  ((((s.settleWrites).settleHeld l).closeRecord l killed).entryDone l).kickAll

/-- LAUNCH_COMPLETE (R360): every team has ended and every launch it created, but for held ones, is complete. -/
def execLaunchComplete (l : Nat) (s : State) : Host.Outcome State Fault Refusal :=
  let ln := s.launchOf l
  .next (if ln.live && ln.ended == ln.teams && ln.children == 0 then s.completeLaunch l false else s)

end Sys2Proof.Machine
end

