-- ==== Sys2Proof/Machine/Tasks.lean ====
section
/-! DEFINITION. The task instructions (R363 to R366), the boost and the budget of a launch (R371, R372), and the balancing of
tasks among clusters and dies (R369). -/

namespace Sys2Proof.Machine

/-! ### Task instructions -/

/-- A failure status (R363). -/
def failed (code : Nat) : Nat := 2 ^ 31 + code

/-- A launch and its ancestors. -/
def State.lineage (s : State) : Nat → Nat → List Nat
  | 0, _ => []
  | n + 1, l => l :: (match (s.launchOf l).creator with | some c => s.lineage n c | none => [])

def State.ancestors (s : State) (l : Nat) : List Nat := s.lineage (s.launches.length + 1) l

/-- The SPAWNS limit of a launch or an ancestor is reached. -/
def State.spawnsOut (s : State) (l : Nat) : Bool :=
  (s.ancestors l).any (fun k => decide ((s.launchOf k).lcb.spawns ≤ (s.launchOf k).spawned))

/-- One launch more counts against a launch and its ancestors. -/
def State.countSpawn (s : State) (l : Nat) : State :=
  (s.ancestors l).foldl (fun s' k => s'.putLaunch k { s'.launchOf k with spawned := (s'.launchOf k).spawned + 1 }) s

/-- Create a launch for the issuing one, or fail (R364); the item count is checked by the caller. DESIGN CHOICE, log 30. -/
def State.create (s : State) (a n : Nat) (hold : Bool) : State × Nat :=
  let c := s.team.ctx
  let by_ := s.team.launch
  match (if a % 256 = 0 then s.resolve c a false else none) with
  | none => (s, failed 3)
  | some (l, pins) =>
    let page := if l.done = 0 then none else if l.done < 2 ^ 56 then s.walkPage c l.done else none
    let buf := if l.binBuf = 0 then [] else (s.mapRange c l.binBuf (4 * l.binCap) (fun _ => true)).getD []
    let ln : Launch :=
      { lcb := { l with prio := min l.prio s.launch.lcb.prio }, ctx := c, items := n, home := s.lcbHome c a
        die := s.team.cluster / 2048, doneAt := page.map (fun p => p.at_ l.done), pins := pins ++ page.toList ++ buf, creator := some by_ }
    if s.spawnsOut by_ then (s, failed 2)
    else if hold && (s.heldLaunch c a).isSome then (s, failed 4)
    else if !s.recordFree ln.home || (!hold && !s.rangeRoom s.nextId ln) then (s, failed 1)
    else
      let r := (s.countSpawn by_).newLaunch ln
      if hold then (r.1, 0)
      else ((r.1.putLaunch by_ { r.1.launchOf by_ with children := (r.1.launchOf by_).children + 1 }).startLaunch r.2, 0)

/-- `spawn` and `spawnh`, lanes ascending (R364). -/
def State.spawnLanes (s : State) (io : Issue) (d a b : Nat) (hold : Bool) : State :=
  (lanesOf io.t).foldl (fun s' l =>
    let n := (io.see.reg b l).toNat
    let r := if n = 0 then (s', failed 5) else s'.create (io.see.val true a l) n hold
    r.1.setGrp (r.1.grp.setReg d l (BitVec.ofNat 32 r.2))) s

/-- What every task instruction waits for: `fence.st` with every class (R363). -/
def State.taskOp (s : State) (u : Use) (effect : Issue → State → State) : Host.Outcome State Fault Refusal :=
  s.run u (fun io => s.fenceOp u io { classes := 7, loads := false, stores := true } (fun _ => s.wholeScope) true .slot (effect io))

/-- `spawn` (R364). -/
def execSpawn (d a b : BitVec 6) (s : State) : Host.Outcome State Fault Refusal :=
  s.taskOp { srcs := regs true a.toNat ++ [b.toNat], dsts := [d.toNat] } (fun io s' => s'.spawnLanes io d.toNat a.toNat b.toNat false)

/-- `spawnh` (R364). -/
def execSpawnh (d a b : BitVec 6) (s : State) : Host.Outcome State Fault Refusal :=
  s.taskOp { srcs := regs true a.toNat ++ [b.toNat], dsts := [d.toNat] } (fun io s' => s'.spawnLanes io d.toNat a.toNat b.toNat true)

/-- A launch of an LCB started from its bin buffer is live (R366). -/
def State.binLive (s : State) (c a : Nat) : Bool := s.launches.any (fun (_, l) => l.live && l.fromBin && l.ctx == c && l.lcb.addr == a)

/-- Append one value to a held launch's bin buffer (R366): the state and the status. DESIGN CHOICE, log 30. -/
def State.append (s : State) (k v : Nat) : State × Nat :=
  let h := s.launchOf k
  if h.items = h.lcb.binCap then (s, failed 6)
  else
    let s1 := match translate h.pins (h.lcb.binBuf + 4 * h.items) with | some pa => s.deviceWrite pa v 4 | none => s
    (s1.putLaunch k { h with items := h.items + 1 }, h.items)

/-- Write one status to lanes. -/
def State.statusAll (s : State) (io : Issue) (d st : Nat) : State :=
  s.setGrp (s.grp.setLanes d (fun _ => BitVec.ofNat 32 st) (lanesOf io.t))

/-- `bin` (R366). -/
def State.binLanes (s : State) (io : Issue) (d a : Nat) : State :=
  let c := s.team.ctx
  let b := s.launch.lcb.bin
  let buf := match s.heldLaunch c b with
    | some (_, h) => some h.lcb.binBuf
    | none => (if b % 256 = 0 then s.resolve c b false else none).map (fun r => r.1.binBuf)
  let fill := fun (s0 : State) (k : Nat) =>
    let s1 := s0.putLaunch k { s0.launchOf k with fromBin := true }
    (lanesOf io.t).foldl (fun s' l =>
      let r := s'.append k (io.see.reg a l).toNat
      r.1.setGrp (r.1.grp.setReg d l (BitVec.ofNat 32 r.2))) s1
  if io.t = 0 then s
  else if b = 0 ∨ buf = some 0 then s.statusAll io d (failed 3)
  else if s.binLive c b then s.statusAll io d (failed 7)
  else match s.heldLaunch c b with
    | some (k, _) => fill s k
    | none =>
      let r := s.create b 0 true
      match r.1.heldLaunch c b with
      | some (k, _) => fill r.1 k
      | none => s.statusAll io d r.2

/-- `bin` (R366). -/
def execBin (d a : BitVec 6) (s : State) : Host.Outcome State Fault Refusal :=
  s.taskOp { srcs := [a.toNat], dsts := [d.toNat] } (fun io s' => s'.binLanes io d.toNat a.toNat)

/-- The held launch of an address in the issuing context (R365). -/
def State.namedHeld (s : State) (a : Nat) : Option (Nat × Launch) := if a % 256 = 0 then s.heldLaunch s.team.ctx a else none

/-- `patch` (R365): the count stops at 2^62. -/
def execPatch (a b : BitVec 6) (s : State) : Host.Outcome State Fault Refusal :=
  s.taskOp { srcs := regs true a.toNat ++ [b.toNat] } (fun io s' =>
    let l := lowest io.t
    if io.t = 0 then s'
    else match s'.namedHeld (io.see.val true a.toNat l) with
      | some (k, h) => s'.putLaunch k { h with items := min (h.items + (io.see.reg b.toNat l).toNat) (2 ^ 62) }
      | none => s')

/-- `release` (R365). -/
def execRelease (a : BitVec 6) (s : State) : Host.Outcome State Fault Refusal :=
  s.taskOp { srcs := regs true a.toNat } (fun io s' =>
    if io.t = 0 then s'
    else match s'.namedHeld (io.see.val true a.toNat (lowest io.t)) with
      | some (k, _) => s'.releaseLaunch k false
      | none => s')

/-! ### Boost and budget -/

/-- BOOST (R371): the launch home boosts the group that holds item u; teams that its window now allows may start. -/
def execBoost (l : Nat) (s : State) : Host.Outcome State Fault Refusal :=
  let ln := s.launchOf l
  .next (if ln.live then ((s.putLaunch l { ln with boosted := some (ln.low / 32) }).tryResume).pumpAll else s)

/-- The live groups of a launch whose teams are not saved. -/
def State.groupsOf (s : State) (l : Nat) : List Nat :=
  (s.groups.filter (fun (_, g) => (s.teamOf g.team).launch == l && (s.teamOf g.team).st != .saved && g.live != 0)).map (·.1)

/-- BUDGET_EXCEEDED (R372): each live group owes one BUDGET trap. -/
def execBudgetExceeded (l : Nat) (s : State) : Host.Outcome State Fault Refusal :=
  let ln := s.launchOf l
  .next (if ln.budgetAt.isNone && ln.lcb.budget != 0 && decide (ln.lcb.budget < ln.slots) then
    ((s.groupsOf l).filter (fun k => !(s.group k).budgeted)).foldl (fun s' k =>
      s'.putGroup k { (s'.group k).defer 0x38 1 0 with budgeted := true })
      (s.putLaunch l { ln with budgetAt := some ln.slots })
  else s)

/-- End every lane of a group (R170). -/
def State.endGroup (s : State) (k : Nat) : State :=
  let s1 := ({ s with cur := k }.exitLanes (s.group k) (s.group k).live true)
  let s2 := if s1.hasGroup k then s1.putGroup k (s1.group k).reselect else s1
  { s2 with cur := s.cur }

/-- BUDGET_END (R372): groups still live 2^20 slots later are ended. -/
def execBudgetEnd (l : Nat) (s : State) : Host.Outcome State Fault Refusal :=
  let ln := s.launchOf l
  .next (match ln.budgetAt with
    | some b => if b + 2 ^ 20 ≤ ln.slots then (s.groupsOf l).foldl State.endGroup s else s
    | none => s)

/-! ### Balancing (R369) -/

/-- The task of the highest ordinal of a list. -/
def State.highest (s : State) (ks : List Nat) : Option Nat := pickBest (fun a b => decide ((s.taskOf b).ord < (s.taskOf a).ord)) ks

/-- Move a task to another cluster whose queue has a place (R9): it keeps its ordinal, loads and age, and its loads, pending ones too, move
by RELOC. -/
def State.moveTask (s : State) (k cl : Nat) : State :=
  if 64 ≤ s.depth cl then s else
  let t := s.taskOf k
  let c := s.clusterOf t.cluster
  let s1 := s.putCluster t.cluster { c with queue := c.queue.erase k }
  let d := s1.clusterOf cl
  let s2 := (s1.putCluster cl { d with queue := d.queue ++ [k] }).putTask k { t with cluster := cl }
  let s3 := (t.got.filter (fun (_, r) => !r.peer)).foldl (fun s' (_, r) => s'.relocate k cl r.handle) s2
  (s3.reqs.filter (fun (_, r) => r.purpose == .load k && r.ended.isNone)).foldl (fun s' (n, _) => s'.relocateReq cl n) s3

/-- The clusters of a die. -/
def clustersOf (die : Nat) : List Nat := (List.range dieClusters).map (fun c => 2048 * die + c)

/-- Tasks in the queues of a die. -/
def State.dieDepth (s : State) (die : Nat) : Nat := ((s.clusters.filter (fun (k, _) => k / 2048 == die)).map (fun (_, c) => c.queue.length)).sum

/-- DEPTH_EXCHANGE (R369): a queue deeper than the die mean by 8 or more gives its highest-ordinal task to the shallowest. -/
def execDepthExchange (die : Nat) (s : State) : Host.Outcome State Fault Refusal :=
  let total := s.dieDepth die
  let deep := (s.clusters.filter (fun (k, c) => k / 2048 == die && decide (total + 8 * dieClusters ≤ c.queue.length * dieClusters))).map (·.1)
  .next (deep.foldl (fun s' cl =>
    match s'.highest (s'.clusterOf cl).queue with
    | some k => let to_ := s'.shallowest die; if to_ = cl then s' else (s'.moveTask k to_).pump to_
    | none => s') s)

/-- Queued teams of a die: in its clusters' queues and its range table. -/
def State.queuedTeams (s : State) (die : Nat) : Nat :=
  s.dieDepth die + ((tget [] s.ranges die).map (fun r => r.hi - r.lo)).sum

/-- The C-dies at (x ± 2, y), (x, y ± 2) and (x ± 1, y ± 1), by die number. -/
def State.neighbours (s : State) (die : Nat) : List Nat :=
  s.cdies.filter (fun d =>
    let dx := ((d % 18 : Nat) : Int) - (die % 18 : Nat)
    let dy := ((d / 18 : Nat) : Int) - (die / 18 : Nat)
    (dx.natAbs == 2 && dy == 0) || (dx == 0 && dy.natAbs == 2) || (dx.natAbs == 1 && dy.natAbs == 1))

/-- Move the top n teams of a die's largest range to another die whose range table has a place (R367). -/
def State.moveTop (s : State) (src dst n : Nat) : State :=
  let rs := tget [] s.ranges src
  match pickBest (fun a b : Range => decide (b.hi - b.lo < a.hi - a.lo)) rs with
  | none => s
  | some r =>
    let k := min n (r.hi - r.lo)
    if k = 0 ∨ Config.rangeEntries ≤ (tget [] s.ranges dst).length then s
    else
      let s1 := { s with ranges := tput s.ranges src (rs.map (fun q => if q == r then { r with hi := r.hi - k } else q)) }
      { s1 with ranges := tput s1.ranges dst (tget [] s1.ranges dst ++ [{ r with lo := r.hi - k }]) }.feed dst feedFuel

/-- DIE_DEPTH_EXCHANGE (R369): half the difference moves to a neighbour whose total is lower by 64 or more. -/
def execDieDepthExchange (die : Nat) (s : State) : Host.Outcome State Fault Refusal :=
  .next ((s.neighbours die).foldl (fun s' d =>
    let mine := s'.queuedTeams die
    let its := s'.queuedTeams d
    if its + 64 ≤ mine then s'.moveTop die d ((mine - its) / 2) else s') s)

/-- A task of another queue that a cluster could start. -/
def State.couldStart (s : State) (cl k : Nat) : Bool := (s.startable cl (s.taskOf k)).isSome

/-- A cluster has the cores and banks for the top team of a range of another die. -/
def State.takesTop (s : State) (cl src : Nat) : Bool :=
  match pickBest (fun a b : Range => decide (b.hi - b.lo < a.hi - a.lo)) (tget [] s.ranges src) with
  | none => false
  | some r => let l := s.launchOf r.launch; (s.fits cl (l.sizeOf (r.ordinal (r.hi - 1))) l.lcb).isSome

/-- STEAL (R369): an idle cluster gets the highest-ordinal startable task of the die's deepest queue; or, where it could start a team
of it, a range comes from the deepest neighbouring die. DESIGN CHOICE, log 31. -/
def execSteal (cl : Nat) (s : State) : Host.Outcome State Fault Refusal :=
  let die := cl / 2048
  let deeper := fun (a b : Nat) => decide (s.depth b < s.depth a)
  .next (if s.depth cl ≠ 0 then s
  else
    let found := match pickBest deeper ((s.clusters.filter (fun (k, c) => k / 2048 == die && !c.queue.isEmpty)).map (·.1)) with
      | some d => s.highest ((s.clusterOf d).queue.filter (s.couldStart cl))
      | none => none
    match found with
    | some k => (s.moveTask k cl).pump cl
    | none => match pickBest (fun a b => decide (s.queuedTeams b < s.queuedTeams a)) (s.neighbours die) with
      | some d => if s.takesTop cl d then s.moveTop d die (64 : Nat) else s
      | none => s)

/-- TASK_AGE_PROMOTE (R368): a task that has waited 2^20 cycles counts as priority 7. -/
def execTaskAgePromote (k : Nat) (s : State) : Host.Outcome State Fault Refusal :=
  let t := s.taskOf k
  .next (if (tfind s.tasks k).isSome && decide (t.fed + 2 ^ 20 ≤ s.cycle) then s.putTask k { t with promoted := true } else s)

end Sys2Proof.Machine
end

