-- ==== Sys2Proof/Machine/System.lean ====
section
/-! DEFINITION. The system instructions (R373 to R391), the system registers as fragments and the control complex reach them (R374
to R378), `halt` and RUN (R389), and the watchdog (R392). -/

namespace Sys2Proof.Machine

/-! ### Software traps (R386) -/

/-- `trap` (R386). -/
def execTrap (st : BitVec 3) (n : BitVec 6) (s : State) : Host.Outcome State Fault Refusal :=
  let u : Use := { stall := st.toNat }
  s.run u (fun io => if io.t = 0 then s.finish u io s.grp else s.softTrap u 0x40 n.toNat)

/-- Stop issue from every group of a context (R389): the interrupt names the group and the address given. -/
def State.haltContext (s : State) (pc : Nat) : State :=
  (s.putCtx s.team.ctx { s.ctx with halted := true }).interrupt 9 (placeName s.team s.grp) pc 0

/-- `brk` (R386): it halts the context where BRKH is set. -/
def execBrk (st : BitVec 3) (n : BitVec 6) (s : State) : Host.Outcome State Fault Refusal :=
  let u : Use := { stall := st.toNat }
  s.run u (fun io =>
    if io.t = 0 then s.finish u io s.grp
    else if s.ctx.exctl.getLsbD 1 then (s.finish u io s.grp).haltContext s.grp.cur.pc.toNat
    else s.softTrap u 0x41 n.toNat)

/-! ### Privilege (R373) -/

/-- The issuing context is a system context. -/
def State.inSystem (s : State) : Bool := s.isSystem s.team.ctx

/-- `tlbi`, `preempt` and `halt` need a system context. -/
def State.systemOnly (s : State) : Option Nat := if s.inSystem then none else some 3

/-- Does a system register have a view at the fragment's privilege, and may it be written there (R374)? -/
def State.sysView (s : State) (n : Nat) : Bool := decide (n < 0x40) || (n == 0x40 && s.inSystem)
def State.sysWritable (s : State) (n : Nat) : Bool := n == 0x11 || n == 0x14 || (s.inSystem && (n == 0 || n == 0x40))

/-- The detail of PRIVILEGE that `rdsp` or `wrsp` draws. DEDUCED, log 14. -/
def State.sysCheck (s : State) (n : Nat) (write : Bool) : Option Nat :=
  if !(s.grp.cur.handler || s.inSystem) then some 1
  else if !s.sysView n || (write && !s.sysWritable n) then some 4
  else none

/-! ### System registers (R374) -/

/-- The per-group registers. -/
def Group.sysReg (g : Group) (n : Nat) : Nat :=
  if n = 0x10 then g.tcause.toNat else if n = 0x11 then g.tpc.toNat else if n = 0x12 then g.taddr.toNat
  else if n = 0x13 then g.tmask.toNat else g.tmode.toNat

/-- A system register as a fragment of the issuing group reads it. -/
def State.sysReg (s : State) (n : Nat) : Nat :=
  if n = 0 then s.ctx.exctl.toNat
  else if n = 1 then (if s.grp.cur.handler then 1 else 0) + (if s.inSystem then 2 else 0)
  else if n = 2 then s.team.ctx
  else if n = 3 then s.launch.lcb.fdom
  else if n = 0x40 then s.cluster.dropped.toNat
  else s.grp.sysReg n

/-- Write TPC or TMODE: a mode that R31 refuses leaves TMODE as it was (R388). -/
def Group.setSysReg (g : Group) (n v : Nat) : Group :=
  if n = 0x11 then { g with tpc := BitVec.ofNat 64 v }
  else if n = 0x14 ∧ modeOk (v % 2 ^ 16) then { g with tmode := BitVec.ofNat 32 (v % 2 ^ 16) }
  else g

/-- Write EXCTL of a context (R375). -/
def State.setExctl (s : State) (c v : Nat) : State := s.putCtx c { s.ctxOf c with exctl := BitVec.ofNat 32 (v % 8) }

/-- Write DROPCNT of a cluster. -/
def State.setDropped (s : State) (cl v : Nat) : State := s.putCluster cl { s.clusterOf cl with dropped := BitVec.ofNat 64 v }

/-- Write a system register from the issuing group. -/
def State.setSysReg (s : State) (n v : Nat) : State :=
  if n = 0 then s.setExctl s.team.ctx v
  else if n = 0x40 then s.setDropped s.team.cluster v
  else s.setGrp (s.grp.setSysReg n v)

/-- `rdsp` (R388). -/
def execRdsp (d : BitVec 6) (n : BitVec 12) (s : State) : Host.Outcome State Fault Refusal :=
  let wd := systemWide n.toNat
  let u : Use := { priv := s.sysCheck n.toNat false, dsts := regs wd d.toNat }
  s.lanewise u wd d.toNat (fun _ _ => (s.sysReg n.toNat, []))

/-- `wrsp` (R388): the value in the lowest lane of T. -/
def execWrsp (d : BitVec 6) (n : BitVec 12) (s : State) : Host.Outcome State Fault Refusal :=
  let wd := systemWide n.toNat
  let u : Use := { priv := s.sysCheck n.toNat true, srcs := regs wd d.toNat }
  s.run u (fun io =>
    let s1 := s.finish u io s.grp
    if io.t = 0 then s1 else s1.setSysReg n.toNat (io.see.val wd d.toNat (lowest io.t)))

/-! ### `tret`, `tlbi`, `halt`, `preempt` -/

/-- The other handler fragments all wait in `tret`. -/
def Group.othersTret (g : Group) : Bool := (g.rest.filter (fun f => f.handler && f.st != .free)).all (fun f => f.wait == .tret)

/-- `tret` (R387): the last handler fragment to issue it ends the handler; the others wait. -/
def execTret (s : State) : Host.Outcome State Fault Refusal :=
  let u : Use := { guarded := false, priv := if s.grp.cur.handler then none else some 2 }
  s.run u (fun io =>
    if s.grp.othersTret then s.settle u io s.grp.returnFromTrap []
    else s.settle u io { s.grp with cur := { s.grp.cur with wait := .tret } }.reselect [])

/-- A page is to leave the translation caches (R391). -/
def PagePin.flushed (p : PagePin) (scope ctx va : Nat) : Bool :=
  if scope = 0 then p.ctx == ctx && p.holds va
  else if scope = 1 then p.ctx == ctx
  else if scope = 2 then p.ctx == va % 2 ^ 20
  else true

/-- The translations of a scope leave every cluster's translation cache (R391). -/
def State.flushTlbs (s : State) (scope ctx va : Nat) : State :=
  { s with clusters := s.clusters.map (fun (k, c) => (k, { c with tlb := c.tlb.filter (fun p => !p.flushed scope ctx va) })) }

/-- The walks in progress. -/
def State.walking (s : State) : List Nat := (s.walks.filter (fun (_, w) => !w.done)).map (·.1)

/-- `tlbi` (R391): the translations go at its issue, and walks in progress then leave none behind; it completes when those walks have
ended. -/
def execTlbi (a b : BitVec 6) (s : State) : Host.Outcome State Fault Refusal :=
  let u : Use := { guarded := false, priv := s.systemOnly, srcs := regs true a.toNat }
  s.run u (fun io =>
    match s.grp.cur.wait with
    | .flush ws => if ws.any s.walking.contains then s.stand else s.finish u io s.grp
    | _ =>
      let s1 := s.flushTlbs b.toNat s.team.ctx (io.see.val true a.toNat (lowest s.active))
      if s.walking.isEmpty then s1.finish u io s1.grp
      else
        { s1 with walks := s1.walks.map (fun (x : Nat × Walk) => (x.1, if x.2.done then x.2 else { x.2 with stale := true })) }.stand
          (.flush s.walking))

/-- `halt` (R389). -/
def execHalt (s : State) : Host.Outcome State Fault Refusal :=
  let u : Use := { guarded := false, priv := s.systemOnly }
  s.run u (fun io => (s.finish u io s.grp).haltContext s.grp.cur.pc.toNat)

/-- Request pre-emption of every resident team of a cluster, those of one launch apart (R390). -/
def State.requestPreempt (s : State) (w : Nat) (but : Option Nat) : State :=
  let die := bits w 8 0
  let cl := bits w 19 9
  if bits w 31 20 ≠ 0 ∨ dieClusters ≤ cl ∨ !s.cdies.contains die then s
  else (s.teams.filter (fun (_, t) => t.cluster == 2048 * die + cl && t.st == .resident && some t.launch != but)).foldl
    (fun s' (k, _) => if s'.agenda.contains (.preemption k) then s' else s'.owe (.preemption k)) s

/-- `preempt` (R390). -/
def execPreempt (a : BitVec 6) (s : State) : Host.Outcome State Fault Refusal :=
  let u : Use := { guarded := false, priv := s.systemOnly, srcs := [a.toNat] }
  s.run u (fun io =>
    let s1 := s.finish u io s.grp
    if io.t = 0 then s1 else s1.requestPreempt (io.see.reg a.toNat (lowest io.t)).toNat (some s.team.launch))

/-- PREQ (R377, R390): no team is exempt. -/
def execPreq (val : Nat) (s : State) : Host.Outcome State Fault Refusal := .next (s.requestPreempt (val % 2 ^ 32) none)

/-- RUN (R377, R389): the context resumes; traps that were due while it was halted are taken at the groups' first issue (R382). -/
def execRun (val : Nat) (s : State) : Host.Outcome State Fault Refusal :=
  let c := val % 2 ^ 20
  .next (if (s.ctxOf c).halted then s.resumeContext c else s)

/-! ### The control complex's registers (R376, R377) -/

/-- The resident group at the place that GRPSEL names, if it belongs to the selected context (R376). -/
def State.selectedGroup (s : State) : Option (Nat × Group) :=
  s.groups.find? (fun (_, g) =>
    let t := s.teamOf g.team
    t.st != .saved && t.ctx == s.cc.ctxsel && placeName t g == s.cc.grpsel)

/-- The cluster that GRPSEL names. -/
def State.selectedCluster (s : State) : Nat := 2048 * bits s.cc.grpsel 8 0 + bits s.cc.grpsel 19 9

/-- A write of a register that the control complex alone reaches and that only holds what is written. DEDUCED, log 36. -/
def CcRegs.write (c : CcRegs) (n v : Nat) : CcRegs :=
  if n = 0x100 then { c with ctxtab := v % 2 ^ 64 / 4096 * 4096 }
  else if n = 0x101 then { c with ctxn := v % 2 ^ 32 }
  else if n = 0x102 then { c with ctxsel := v % 2 ^ 20 }
  else if n = 0x103 then { c with phsel := v % 2 ^ 12 }
  else if n = 0x106 then { c with tclrbase := v % 2 ^ 64 / 128 * 128 }
  else if n = 0x10B then { c with symsel := v % 8 }
  else if n = 0x10C then { c with symbase := v % 2 ^ 64 }
  else if n = 0x10D then { c with symlen := v % 2 ^ 64 }
  else if n = 0x110 then { c with grpsel := v % 2 ^ 25 }
  else if n = 0x112 then { c with exsel := v % 2 ^ 12 }
  else c

/-- A write to the system-register page (R376, R377). -/
def State.writeSysPage (s : State) (n v : Nat) : State :=
  if n = 0 then s.setExctl s.cc.ctxsel v
  else if n = 0x11 ∨ n = 0x14 then
    match s.selectedGroup with
    | some (k, g) => s.putGroup k (g.setSysReg n v)
    | none => s
  else if n = 0x40 then s.setDropped s.selectedCluster v
  else { s with cc := s.cc.write n v }

/-- A CXL host is linked to a port of a host edge die (R408). -/
def State.hostLinked (s : State) (he : Nat) : Bool := (List.range 4).any (fun i => (tget Port.down s.ports (4 * he + i)) == .cxl)

/-- A write to the register page of a host edge die (R408): it takes effect only while no CXL host is linked. DEDUCED, log 36. -/
def State.writeEdge (s : State) (he n v : Nat) : State :=
  let h : HostEdge := tget {} s.hostEdges he
  let gib := v % 2 ^ 52 / 2 ^ 30 * 2 ^ 30
  if s.hostLinked he then s
  else if n = 0 then { s with hostEdges := tput s.hostEdges he { h with hdmBase := gib } }
  else if n = 8 then { s with hostEdges := tput s.hostEdges he { h with hdmLen := gib } }
  else if n = 0x10 then { s with hostEdges := tput s.hostEdges he { h with biasBase := v % 2 ^ 52 / 4096 * 4096 } }
  else s

/-- REGISTER_WRITE (R361, R376, R408): page 0 is the system-register page, num a register number; page 1 the front end's QBASE of
queue num; pages 2 and 3 those of HE0 and HE1, num an offset. -/
def execRegisterWrite (page num val : Nat) (s : State) : Host.Outcome State Fault Refusal :=
  .next (if page = 0 then s.writeSysPage num val
  else if page = 1 then
    (if num < 64 ∧ !(s.queue num).en then s.putQueue num { s.queue num with base := val % 2 ^ 64 / 64 * 64 } else s)
  else if page = 2 ∨ page = 3 then s.writeEdge (page - 2) num val
  else s)

/-- A register of the system-register page as the control complex reads it (R374, R376, R377): the selected context's, the selected group's
or the selected cluster's copy, the reserved registers, and the views of the tables; a register that is only written, and a number
that names none, reads as zero. -/
def State.sysPageRead (s : State) (n : Nat) : Nat :=
  let c := s.cc
  let x := s.ctxOf c.ctxsel
  let ph : Handle := tget {} x.handles c.phsel
  let ex : ExportRec := tget {} s.exps c.exsel
  let sym : Sym := tget {} x.syms c.symsel
  let group := fun (f : Group → Nat) => (s.selectedGroup.map (fun (y : Nat × Group) => f y.2)).getD 0
  if n = 0 then x.exctl.toNat
  else if n = 1 then group (fun g => (if g.cur.handler then 1 else 0) + (if s.isSystem c.ctxsel then 2 else 0))
  else if n = 2 then c.ctxsel
  else if n = 3 then group (fun g => (s.launchOf (s.teamOf g.team).launch).lcb.fdom)
  else if 0x10 ≤ n ∧ n ≤ 0x14 then group (fun g => g.sysReg n)
  else if n = 0x40 then (s.clusterOf s.selectedCluster).dropped.toNat
  else if n = 0x100 then c.ctxtab else if n = 0x101 then c.ctxn else if n = 0x102 then c.ctxsel
  else if n = 0x103 then c.phsel else if n = 0x104 then ph.lo else if n = 0x105 then ph.hi
  else if n = 0x106 then c.tclrbase else if n = 0x107 then c.tclrlen else if n = 0x108 then c.killReg
  else if n = 0x10B then c.symsel else if n = 0x10C then c.symbase else if n = 0x10D then c.symlen
  else if n = 0x10F then sym.handle * 2 ^ 32 + (if c.symBusy then 2 ^ 8 else 0) + c.symStatus
  else if n = 0x110 then c.grpsel else if n = 0x111 then group (fun g => 2 ^ 63 + g.ord)
  else if n = 0x112 then c.exsel else if n = 0x113 then ex.lo else if n = 0x114 then ex.hi
  else 0

/-- A register of queue q's block as it is read (R361), by its offset. -/
def State.queueRead (s : State) (q off : Nat) : Nat :=
  let x := s.queue q
  let flag := fun (b : Bool) (i : Nat) => if b then 2 ^ i else 0
  if off = 0 then x.base
  else if off = 8 then flag x.en 31 + x.pcap * 2 ^ 28 + x.log2n * 2 ^ 23 + x.ctx
  else if off = 0x0C then flag x.halt 31 + x.cause * 2 ^ 28 + flag x.ovf 27 + x.index
  else if off = 0x10 then x.tail
  else if off = 0x14 then x.head
  else 0

/-- A register of a host edge die as it is read (R408), by its offset. -/
def State.edgeRead (s : State) (he off : Nat) : Nat :=
  let h : HostEdge := tget {} s.hostEdges he
  if off = 0 then h.hdmBase else if off = 8 then h.hdmLen else if off = 0x10 then h.biasBase else if off = 0x18 then h.biasCmd
  else if off = 0x20 then h.biasPage * 4096 + h.biasSt
  else 0

/-- PHLO_WRITE (R377): the low half is staged. -/
def execPhloWrite (val : Nat) (s : State) : Host.Outcome State Fault Refusal := .next { s with cc := { s.cc with phlo := val % 2 ^ 64 } }

/-- Reserved bits read zero: [26:24] and [1] of a peer-handle entry, [7:4] and [1] of an export record (R253, R431). -/
def handleLow (v : Nat) : Nat := bits v 63 27 * 2 ^ 27 + bits v 23 2 * 4 + v % 2
def exportLow (v : Nat) : Nat := bits v 63 8 * 2 ^ 8 + bits v 3 2 * 4 + v % 2

/-- PHHI_WRITE (R253, R377): the entry is committed as one step. -/
def execPhhiWrite (val : Nat) (s : State) : Host.Outcome State Fault Refusal :=
  let c := s.ctxOf s.cc.ctxsel
  .next (s.putCtx s.cc.ctxsel { c with
    handles := mset {} c.handles s.cc.phsel { lo := handleLow s.cc.phlo, hi := val % 2 ^ 52 } })

/-- EXLO_WRITE (R377). -/
def execExloWrite (val : Nat) (s : State) : Host.Outcome State Fault Refusal := .next { s with cc := { s.cc with exlo := val % 2 ^ 64 } }

/-- EXHI_WRITE (R377, R431). -/
def execExhiWrite (val : Nat) (s : State) : Host.Outcome State Fault Refusal :=
  .next { s with exps := mset {} s.exps s.cc.exsel { lo := exportLow s.cc.exlo, hi := val % 2 ^ 64 } }

/-- TAINT_CLEAR (R377): the clear of every taint entry that lies wholly in the range, as TCLRBASE stands now, starts. -/
def execTaintClear (val : Nat) (s : State) : Host.Outcome State Fault Refusal :=
  .next ({ s with cc := { s.cc with tclrlen := val % 2 ^ 64, clears := s.cc.clears ++ [(s.cc.tclrbase, val % 2 ^ 64)] } }.owe .taintClearDone)

/-- Spans lie wholly in a range. -/
def spansInside (spans : List (Nat × Nat)) (base len : Nat) : Bool :=
  spans.all (fun (a, n) => decide (base ≤ a) && decide (a + n ≤ base + len))

/-- TAINT_CLEAR_DONE (R377): every home has finished the oldest clear, and TCLRLEN reads zero when none is left. -/
def execTaintClearDone (s : State) : Host.Outcome State Fault Refusal :=
  .next (match s.cc.clears with
  | [] => s
  | (base, len) :: rest => { s with
    circ := s.circ.filter (fun (_, e) => !(e.st == .taint && decide (e.home < 1000) && spansInside e.spans base len))
    cc := { s.cc with clears := rest, tclrlen := if rest.isEmpty then 0 else s.cc.tclrlen } })

/-! ### Symmetric borrows (R378) -/

/-- The team number under which a symmetric entry holds its borrow. -/
def symTeam (ctx entry : Nat) : Nat := 2 ^ 40 + 8 * ctx + entry

def State.sym (s : State) (c n : Nat) : Sym := tget {} (s.ctxOf c).syms n
def State.putSym (s : State) (c n : Nat) (e : Sym) : State := s.putCtx c { s.ctxOf c with syms := mset {} (s.ctxOf c).syms n e }

/-- A take that makes no request (R378). -/
def CcRegs.badTake (c : CcRegs) (e : Sym) : Bool :=
  let kind := bits c.symlen 3 2
  let len := bits c.symlen 40 7 * 128
  e.kind != .empty || kind == 0 || kind == 1 || bits c.symlen 1 0 == 3 || c.symbase % 128 != 0 || len == 0 || decide (2 ^ 40 < len) ||
    bits c.symlen 6 4 != 0 || bits c.symlen 63 41 != 0 || !(decide (c.symbase + len ≤ 2 ^ 56))

/-- The range conflicts with another symmetric entry of the context (R186). -/
def State.symConflict (s : State) (c : Nat) (k : Kind) (parts : List (Nat × List (Nat × Nat))) : Bool :=
  (List.range 8).any (fun i => s.circ.any (fun (_, e) => e.team == symTeam c i && e.st != .taint &&
    parts.any (fun p => p.1 == e.home && spansMeet p.2 e.spans) && waitsHeld k e.kind))

/-- A command of SYMCMD ends with a status, which SYMSTAT shows (R377, R378). -/
def State.symEnds (s : State) (st : Nat) : State := { s with cc := { s.cc with symBusy := false, symStatus := st } }

/-- SYMCMD_TAKE (R378). -/
def execSymcmdTake (s : State) : Host.Outcome State Fault Refusal :=
  let c := s.cc.ctxsel
  let n := s.cc.symsel
  let e := s.sym c n
  let k := kindOf (bits s.cc.symlen 3 2)
  let base := s.cc.symbase
  let len := bits s.cc.symlen 40 7 * 128
  .next (if s.cc.symBusy then s
  else if s.cc.badTake e then s.symEnds 0x80
  else
    let r := collectPages (s.walkPage c) (len / 4096 + 2) base (base + len)
    if r.1.any (fun p => !p.permits k) then s.symEnds 0x82
    else if r.2.isSome then s.symEnds 0x81
    else
      let parts := s.partsOf (pageSpans r.1 base len)
      if s.symConflict c k parts then s.symEnds 5
      else
        let s1 := { s with cc := { s.cc with symBusy := true } }
        let q := s1.newReq
          { purpose := .sym c n, team := symTeam c n, kind := k, wait := true, base, len, cls := bits s.cc.symlen 1 0, ctx := c
            age := ageOf s.cycle, issued := s.cycle, ident := identOf s.ownNum 0x1FF 0x7FF 0, pins := r.1, parts }
        q.1.ask q.2 1 (q.1.req q.2))

/-- SYMCMD_RETURN (R378): BUSY while any launch of the context lives, INVALID on an empty entry. DEDUCED, log 35. -/
def execSymcmdReturn (s : State) : Host.Outcome State Fault Refusal :=
  let c := s.cc.ctxsel
  let n := s.cc.symsel
  let e := s.sym c n
  .next (if s.cc.symBusy then s
  else if e.kind == .empty then s.symEnds 0x80
  else if s.launches.any (fun (_, l) => l.st != .none && l.ctx == c) then s.symEnds 2
  else
    let mine := s.circ.filter (fun (_, x) => x.team == symTeam c n && x.handle == e.handle && x.st == .held)
    let s1 := { s.putSym c n { e with busy := true } with cc := { s.cc with symBusy := true } }
    let q := s1.newReq
      { purpose := .sym c n, team := symTeam c n, handle := e.handle, ctx := c, issued := s.cycle, age := ageOf s.cycle
        ident := identOf s.ownNum 0x1FF 0x7FF 0, parts := mine.map (fun (_, x) => (x.home, x.spans)) }
    q.1.ask q.2 6 (q.1.req q.2))

/-- SYM_TAKE_END (R378): a take or a return ends. -/
def execSymTakeEnd (s : State) : Host.Outcome State Fault Refusal :=
  .next (match s.reqs.find? (fun (_, r) => (match r.purpose with | .sym _ _ => r.ended.isSome | _ => false)) with
    | none => s
    | some (k, r) =>
      let st := r.ended.getD 0
      let s1 := { s with reqs := tdel s.reqs k }
      match r.purpose with
      | .sym c n =>
        if r.kind = .empty then (s1.putSym c n {}).symEnds 0
        else if st ≤ 1 then
          (s1.putSym c n { kind := r.kind, base := r.base, len := r.len, cls := r.cls, handle := r.handle }).symEnds 0
        else s1.symEnds st
      | _ => s1)

/-! ### The watchdog (R392) -/

/-- WDLIMIT × 2^16 of the group's context. -/
def State.dogLimit (s : State) (g : Group) : Nat := s.ctxField (s.teamOf g.team).ctx 0x2C 2 * 2 ^ 16

/-- The detail that names what a fragment waits for. -/
def Frag.waitDetail (f : Frag) : Nat :=
  if f.st == .joinWait then 1
  else match f.wait with
    | .barrier _ => 2
    | .fifo _ => 3
    | .tret => 4
    | _ => 5

/-- The fragment waits: at a `join`, in its instruction, or for the scoreboard. -/
def Frag.waits (f : Frag) : Bool := f.st == .joinWait || (f.st == .ready && f.wait != .none)

/-- The waiting fragment with the lowest selection key; where none has tried to issue, a ready one. -/
def Group.waiter (g : Group) : Option Frag :=
  (pickBest Frag.before (g.frags.filter Frag.waits)).orElse (fun _ => pickBest Frag.before (g.frags.filter (fun f => f.st == .ready)))

/-- Make a fragment the selected one, its wait withdrawn; what it kept busy is free. -/
def Group.selectFrag (g : Group) (f : Frag) : Group :=
  (g.unmark f).choose f { f with st := .ready, wait := .none }

/-- A group runs its watchdog (R392). -/
def Group.watched (g : Group) : Bool :=
  g.frags.any (fun f => f.st == .joinWait || (f.st == .ready && (match f.wait with | .borrow _ => false | _ => true))) &&
    !g.frags.any (fun f => match f.wait with | .borrow _ => true | _ => false)

/-- WATCHDOG (R392): the waiting fragment traps; where a fragment is trapped already, the group is ended. -/
def execWatchdog (k : Nat) (s : State) : Host.Outcome State Fault Refusal :=
  let g := s.group k
  let lim := s.dogLimit g
  .next (if lim = 0 || decide (g.dog < lim) || s.teamStopped (s.teamOf g.team) || !g.watched then s
  else if g.record.isSome then s.endGroup k
  else match g.waiter with
    | none => s
    | some f =>
      let s1 := { s.putGroup k { g.selectFrag f with dog := 0 } with cur := k }
      let s2 := (s1.trap 0x39 f.waitDetail)
      { (if s2.hasGroup k then s2.putGroup k (s2.group k).reselect else s2) with cur := s.cur })

end Sys2Proof.Machine
end

