-- ==== Sys2Proof/Machine/Kill.lean ====
section
/-! DEFINITION. Kills (R198, R281, R393 to R395): a write to KILL, the inventory walk of the homes, the settling of commons lines,
the launches' completion as killed, and the kill record. -/

namespace Sys2Proof.Machine

/-- KILL (R377, R393): issue stops and what the domain holds is torn down; the rest follows in KILL_COMPLETE. -/
def execKill (val : Nat) (s : State) : Host.Outcome State Fault Refusal :=
  let v := val % 2 ^ 64
  .next ({ s with cc := { s.cc with killReg := if v = 0 then 1 else v } }.beginKill
    { ctx := bits v 19 0, whole := bit v 31, fdom := bits v 63 32, cause := 1 })

/-! ### The inventory walk (R198) -/

/-- The holder that a table entry names is gone: no team, task or symmetric entry stands behind it. -/
def State.orphan (s : State) (job : KillJob) (e : Circ) : Bool :=
  e.ctx == job.ctx && e.dev == s.ownNum && e.st != .taint &&
    (if 2 ^ 40 ≤ e.team then job.whole else (tfind s.teams e.team).isNone && (tfind s.tasks e.team).isNone)

/-- A command of SYMCMD for a context is in progress (R378). -/
def State.commands (s : State) (c : Nat) : Bool :=
  s.reqs.any (fun (_, r) => match r.purpose with | .sym c' _ => c' == c | _ => false)

/-- Orphaned X entries become taint entries, the others go; homes re-evaluate their waiters (R186, R198). DEDUCED, log 33. -/
def State.inventory (s : State) (job : KillJob) : State :=
  let homes := ((s.circ.filter (fun (_, e) => s.orphan job e)).map (fun (_, e) => e.home)).eraseDups
  let settle := fun (x : Nat × Circ) =>
    if s.orphan job x.2 then
      (if x.2.kind == .x && x.2.st != .waiting then some (x.1, { x.2 with st := .taint, hold := false, proxy := false }) else none)
    else some x
  let dead := fun (r : Request) => r.ctx == job.ctx && r.dev == s.ownNum &&
    (if 2 ^ 40 ≤ r.team then job.whole else (tfind s.teams r.team).isNone && (tfind s.tasks r.team).isNone)
  let s1 := { s with circ := s.circ.filterMap settle, reqs := s.reqs.filter (fun (_, r) => !dead r) }
  homes.foldl State.reevaluate s1

/-- A line whose owner has dropped it reverts to its home (R281); the requests behind it are served. -/
def State.settleOwners (s : State) : State :=
  let lost := s.catalogue.filter (fun (l, c) => c.st == .ow &&
    !(s.clusterOf c.owner).cache.any (fun (a, b) => b.commons && lineOf a == l) &&
    (s.backsOf l).isEmpty)
  lost.foldl (fun s' (l, c) => (s'.putCat l { c with st := .h, owner := 0 }).freeLine l) s

/-! ### The kill record (R395) -/

/-- The code of a copy kind. -/
def CopyKind.code (k : CopyKind) : Nat := match k with | .cpl => 0 | .cpb => 1 | .cpr => 2 | .mld => 3 | .mst => 4

/-- The header entry, without SEQ. -/
def KillJob.header (j : KillJob) : Nat :=
  2 ^ 32 + j.cause * 2 ^ 40 + j.code * 2 ^ 48 + j.detail * 2 ^ 56 + j.fdom % 2 ^ 32 * 2 ^ 64 + j.copies.length * 2 ^ 96 +
    j.lcb * 2 ^ 128 + j.pc % 2 ^ 64 * 2 ^ 192

/-- The entry of a copy, without SEQ. -/
def Copy.entry (c : Copy) : Nat :=
  let lo := if c.kind = .mld then 0 else (c.pieces.map (·.dst)).foldl min (((c.pieces.map (·.dst)).headD 0))
  let hi := (c.pieces.map (fun p => p.dst + p.n)).foldl max 0
  2 * 2 ^ 32 + c.kind.code * 2 ^ 40 + (if c.kind = .cpr then 2 ^ 48 else 0) + c.fdom % 2 ^ 32 * 2 ^ 64 + lo % 2 ^ 64 * 2 ^ 128 +
    (if c.kind = .mld then c.slot % 8 else hi - lo) % 2 ^ 64 * 2 ^ 192

/-- Write entries into the context's kill ring, if it has one. -/
def State.writeRing (s : State) (c : Nat) : List Nat → State
  | [] => s
  | x :: xs =>
    let n := s.ctxField c 0x28 4
    let q := (s.ctxOf c).killSeq
    let s1 := if n = 0 then s else s.setHomeLe (s.ctxField c 0x20 8 + 64 * (q % n)) (q % 2 ^ 32 + x) 64
    (s1.putCtx c { s1.ctxOf c with killSeq := q + 1 }).writeRing c xs

/-- The launches of a kill, children before parents: a child is created after its parent. -/
def State.killedLaunches (s : State) (job : KillJob) : List Nat :=
  ((s.launches.filter (fun (_, l) => l.st == .killed && l.ctx == job.ctx && (job.whole || l.lcb.fdom == job.fdom))).map (·.1)).reverse

/-- KILL_COMPLETE (R393): the homes have walked, the launches complete as killed, and the record is written. A killed copy whose completion
is still on its way stays until it is dropped there (R294). -/
def execKillComplete (s : State) : Host.Outcome State Fault Refusal :=
  .next (match s.kill with
    | [] => s
    | job :: rest =>
      let ids := job.copies.map (·.1)
      let s1 := { s with
        kill := rest
        copies := s.copies.filter (fun (k, _) => !ids.contains k || s.agenda.contains (.copyComplete k))
        streams := s.streams.filter (fun (k, _) => !ids.contains (k / 4096))
        walks := s.walks.filter (fun (_, w) => match w.group with | some g => s.hasGroup g | none => true)
        stopped := s.stopped.filter (fun d => !(d.1 == job.ctx && (job.whole || d.2 == job.fdom))) }
      let s2 := (s1.inventory job).settleOwners
      let s3 := if job.whole then
        { s2.putCtx job.ctx { s2.ctxOf job.ctx with syms := [] } with cc := { s2.cc with symBusy := s2.cc.symBusy && !s1.commands job.ctx } }
        else s2
      let s4 := (s3.killedLaunches job).foldl (fun s' l => s'.completeLaunch l true) s3
      let s5 := s4.writeRing job.ctx (job.header :: job.copies.map (fun (_, c) => c.entry))
      let s6 := s5.interrupt 8 job.ctx job.fdom job.cause
      let s7 := if rest.isEmpty then { s6 with cc := { s6.cc with killReg := 0 } } else s6
      (s7.tryResume).pumpAll)

end Sys2Proof.Machine
end

