-- ==== Sys2Proof/Machine/Preempt.lean ====
section
/-! DEFINITION. Pre-emption (R196, R396), the save frame (R397, R398) with the images it holds (R68, R69, R180, R308), and
resumption (R399). -/

namespace Sys2Proof.Machine

/-! ### Images -/

/-- The state codes of R63. -/
def FState.code (f : FState) : Nat := match f with | .free => 0 | .ready => 1 | .joinWait => 2 | .parked => 3 | .trapped => 4
def fstateOf (n : Nat) : FState :=
  if n = 1 then .ready else if n = 2 then .joinWait else if n = 3 then .parked else if n = 4 then .trapped else .free

/-- A split-table entry (R68). -/
def Frag.image (f : Frag) : Nat :=
  f.mask.toNat * 2 ^ 96 + f.pc.toNat / 4 % 2 ^ 54 * 2 ^ 42 + f.mode.toNat * 2 ^ 26 + f.depth % 64 * 2 ^ 20 + f.ftop % 64 * 2 ^ 14 +
    (if f.fv then 2 ^ 13 else 0) + f.st.code * 2 ^ 10

/-- The fragment of an entry; the level stands elsewhere in the frame. A parked fragment checks its back views again (R175).
DESIGN CHOICE, log 34. -/
def fragOfImage (x id : Nat) : Frag :=
  { mask := BitVec.ofNat 32 (bits x 127 96), pc := BitVec.ofNat 64 (bits x 95 42 * 4), mode := BitVec.ofNat 16 (bits x 41 26)
    depth := bits x 25 20, ftop := bits x 19 14, fv := bit x 13, st := fstateOf (bits x 12 10), id
    wait := if bits x 12 10 = 3 then .carry [] else .none }

/-- A fuse-pool entry (R69). -/
def Fuse.image (p : Fuse) : Nat :=
  p.exp.toNat * 2 ^ 96 + p.tgt.toNat / 4 % 2 ^ 54 * 2 ^ 42 + p.depth % 64 * 2 ^ 36 + p.parent % 64 * 2 ^ 30 +
    (if p.pv then 2 ^ 29 else 0) + (if p.live then 2 ^ 28 else 0)

def fuseOfImage (x : Nat) : Fuse :=
  { exp := BitVec.ofNat 32 (bits x 127 96), tgt := BitVec.ofNat 64 (bits x 95 42 * 4), depth := bits x 41 36
    parent := bits x 35 30, pv := bit x 29, live := bit x 28 }

/-- A barrier register (R308). -/
def Barrier.image (b : Barrier) : Nat :=
  b.phase % 2 ^ 16 * 2 ^ 112 + b.expm % 2 ^ 12 * 2 ^ 100 + b.arrm % 2 ^ 12 * 2 ^ 88 + wrap 40 b.bal * 2 ^ 48 +
    (if b.init then 2 ^ 47 else 0) + (if b.err then 2 ^ 46 else 0)

def barrierOfImage (x : Nat) : Barrier :=
  { phase := bits x 127 112, expm := bits x 111 100, arrm := bits x 99 88, bal := signed 40 (bits x 87 48), init := bit x 47
    err := bit x 46 }

/-! ### The frame -/

/-- Values of n bytes to be written at offsets. -/
abbrev Fields := List (Nat × Nat × Nat)

/-- A list of values of n bytes each, from an offset on. -/
def fieldsFrom (off n : Nat) (vs : List Nat) : Fields := vs.zipIdx.map (fun (v, i) => (off + n * i, v, n))

/-- Modes of banks by their codes (R230). -/
def BankMode.code (m : BankMode) : Nat := match m with | .scratch => 0 | .cacheWay => 1 | .fifo => 2

/-- Fragments that a group block holds as resident, and as spilled. -/
def Group.resident (g : Group) : List Frag := g.frags.filter (fun f => !f.spilled)
def Group.spilledFrags (g : Group) : List Frag := g.frags.filter (·.spilled)

/-- Code d of the deferred traps of a group, and its detail: 0 for none. -/
def Group.deferredAt (g : Group) (i : Nat) : Nat × Nat := ((g.deferred[i]?).map (fun d => (d.code, d.detail))).getD (0, 0)

/-- A group block (R398), from offset o. The images of the resident fragments fill its resident places from the first on, the selected
fragment's first, and those of the spilled ones its spill places in the order in which the group holds them: R74 and R398 give no
order. DESIGN CHOICE, log 34. -/
def Group.block (g : Group) (l : Launch) (o : Nat) : Fields :=
  let regs := g.regs.map (fun (k, w) => (o + 4 * k, w.toNat, 4))
  let handler := g.frags.filter (·.handler)
  regs ++ fieldsFrom (o + 0x1E00) 16 (g.spilledFrags.map Frag.image) ++ g.pool.map (fun (k, p) => (o + 0x1F00 + 16 * k, p.image, 16)) ++
    fieldsFrom (o + 0x2300) 16 (g.resident.map Frag.image) ++
    fieldsFrom (o + 0x2400) 4 ((List.range 7).map (fun i => (g.pred (i + 1)).toNat)) ++
    fieldsFrom (o + 0x2420) 4 ((List.range 4).map (fun i => (tget 0 g.user i).toNat)) ++
    [(o + 0x2430, (g.deferredAt 0).2 + (g.deferredAt 1).2 * 2 ^ 8 + (g.deferredAt 2).2 * 2 ^ 16, 4),
     (o + 0x2438, (if handler.isEmpty then 0 else 1) + (if handler.any (fun f => f.wait == .tret) then 2 else 0) +
        (g.deferredAt 0).1 * 2 ^ 8 + (g.deferredAt 1).1 * 2 ^ 16 + (g.deferredAt 2).1 * 2 ^ 24, 4),
     (o + 0x2440, g.tcause.toNat, 4), (o + 0x2444, g.tmask.toNat, 4), (o + 0x2448, g.tmode.toNat, 4),
     (o + 0x2450, g.tpc.toNat, 8), (o + 0x2458, g.taddr.toNat, 8), (o + 0x2530, g.handlerLanes.toNat, 4),
     (o + 0x2540, ((g.record.map Frag.image).getD 0), 16)] ++
    fieldsFrom (o + 0x2460) 4 ((List.range 16).map (fun i => match tget none g.wt i with | some w => w % 2 ^ 16 + 2 ^ 16 | none => 0)) ++
    (List.range 4).flatMap (fun j => (o + 0x24A0 + 36 * j, (tget 0 g.pub j).toNat, 4) ::
      (List.range 32).map (fun i => (o + 0x24A0 + 36 * j + 4 + i, if l.ordered then g.binding l j i else 0, 1)))

/-- Engines of a team, ascending. -/
def State.enginesOfTeam (s : State) (k : Nat) : List Nat :=
  (List.range 2).filter (fun e => (s.engine (s.teamOf k).cluster e).owner == some k)

/-- The block of a pair engine (R397), from offset o. -/
def Cluster.engineBlock (c : Cluster) (e o : Nat) : Fields :=
  let x : Engine := tget {} c.engines e
  let slot := fun (i : Nat) => tget ({} : OpSlot) c.slots (16 * e + i)
  let code := fun (st : SlotState) => match st with | .free => 0 | .claimed => 1 | .shaped => 2 | .loaded => 3
  x.accs.map (fun (k, w) => (o + 4 * k, w.toNat, 4)) ++
    (List.range 16).map (fun i => (o + 0x1000 + 8 * i, (slot i).shape.toNat + code (slot i).st * 2 ^ 32, 8)) ++
    (List.range 16).flatMap (fun i =>
      if (slot i).st == .loaded then (slot i).image.map (fun (a, b) => (o + 0x2000 + 2048 * i + a, b.toNat, 1)) else [])

/-- Offsets of the blocks behind the groups': scratch, banks, engines; and the frame's end (R397). -/
def Team.scratchAt (t : Team) : Nat := 0x400 + t.size * 0x2800
def Team.banksAt (t : Team) : Nat := t.scratchAt + t.scr
def Team.enginesAt (t : Team) : Nat := t.banksAt + t.banks.length * 0x4000

/-- The whole frame of a team (R397). A FIFO's entries stand at their places in the bank, the oldest at the head index. DESIGN CHOICE,
log 34. -/
def State.frameFields (s : State) (k : Nat) : Fields :=
  let t := s.teamOf k
  let l := s.launchOf t.launch
  let c := s.clusterOf t.cluster
  let es := s.enginesOfTeam k
  let grp := fun (p : Nat) => s.group (groupKey k p)
  let region := fun (i : Nat) => (tget ({} : Region) t.g i).image
  let barrier := fun (i : Nat) => (tget ({} : Barrier) t.w i).image
  [(0, 0x31565358, 4), (4, t.size, 2), (6, t.banks.length, 1), (7, t.scr / 1024, 1), (8, l.lcb.addr, 8), (0x10, t.ix, 8),
   (0x18, (if t.matrix then 1 else 0) + 2 * es.length, 4), (0xC8, t.evstat.toNat, 4)] ++
    fieldsFrom 0x20 1 ((List.range t.size).map (fun p => (grp p).core)) ++
    fieldsFrom 0x40 8 (t.banks.map (fun b => b.mode.code + b.fifo.length * 2 ^ 16 + b.head % 2 ^ 16 * 2 ^ 32)) ++
    fieldsFrom 0x80 4 ((List.range 6).map (fun i => tget 0 t.total i)) ++
    fieldsFrom 0x98 4 ((List.range 6).map (fun i => tget 0 t.window i)) ++
    fieldsFrom 0xB0 4 ((List.range 6).map (fun i => (tget 0 t.evth i).toNat)) ++
    fieldsFrom 0x100 16 ((List.range 32).map region) ++ fieldsFrom 0x300 16 ((List.range 16).map barrier) ++
    (List.range t.size).flatMap (fun p => (grp p).block l (0x400 + 0x2800 * p)) ++
    t.scratch.map (fun (a, b) => (t.scratchAt + a, b.toNat, 1)) ++
    t.banks.zipIdx.flatMap (fun (b, i) =>
      match b.mode with
      | .scratch => b.data.map (fun (a, x) => (t.banksAt + 0x4000 * i + a, x.toNat, 1))
      | .fifo => b.fifo.zipIdx.map (fun (x, j) => (t.banksAt + 0x4000 * i + 4 * ((b.head + j) % 4096), x.toNat, 4))
      | .cacheWay => []) ++
    es.zipIdx.flatMap (fun (e, i) => c.engineBlock e (t.enginesAt + 40 * 1024 * i))

/-- Clear n bytes of memory: an unlisted byte reads zero (Config.ramByte). -/
def clearMem (m : List Host.Cell) (a n : Nat) : List Host.Cell := m.filter (fun c => !(decide (a ≤ c.1) && decide (c.1 < a + n)))

/-- Write a frame's fields over zeros. -/
def State.writeFrame (s : State) (base size : Nat) (fs : Fields) : State :=
  { s with mem := fs.foldl (fun m (o, v, n) => writeLe m (base + o) v n) (clearMem s.mem base size) }

/-! ### Pre-empting a team (R396) -/

/-- Physical address of frame f of a context's pool (R379). -/
def State.frameAt (s : State) (c f : Nat) : Nat := s.ctxField c 8 8 + 0x80000 * f

/-- A free frame of the pool. -/
def State.freeFrame (s : State) (c : Nat) : Option Nat :=
  (List.range ((s.ctxOf c).frames.length + 1)).find? (fun f => decide (f < s.ctxField c 0x10 4) && !(s.ctxOf c).frames.contains f)

/-- An instruction of a fragment is withdrawn at a pre-emption: a wait at issue, and an `fput` or `fget` that waits (R233). A blocking
borrow goes on waiting (R196), a walk and a fence or `tlbi` that has issued go on to their end (R197, R324). -/
def State.withdraws (_s : State) (f : Frag) : Bool :=
  match f.wait with
  | .barrier _ | .fifo _ | .slot => true
  | _ => false

/-- The selected fragment of a group that drains: one whose instruction goes on, if there is one. -/
def Group.front (g : Group) : Group :=
  if g.cur.wait.goesOn then g
  else match g.rest.find? (fun f => f.st == .ready && f.wait.goesOn) with
    | some f => g.choose f f
    | none => g

/-- A group at its stopping boundary: a due trap is entered first; waits are withdrawn (R74, R233, R396). -/
def State.stopGroup (s00 : State) (k : Nat) : State :=
  let s := s00.raiseTrips (s00.group k).team none
  let s1 := match (s.group k).dueTrap with
    | some d =>
      let s0 := { s with cur := k }
      { (s0.setGrp { s0.grp with deferred := s0.grp.deferred.erase d }).trapWith d.code d.detail 0 (d.code != 0x38) with cur := s.cur }
    | none => s
  if s1.hasGroup k then
    let g0 := s1.group k
    let g := (g0.frags.filter s1.withdraws).foldl Group.unmark g0
    let back := fun (f : Frag) => if s1.withdraws f then { f with wait := .none } else f
    s1.putGroup k { g with
      cur := back g.cur, rest := g.rest.map back, yielded := 0
      sweeping := if g.frags.any (fun f : Frag => f.wait == Wait.fence) then g.sweeping else none }.front
  else s1

/-- Keys of a team's groups. -/
def State.groupKeys (s : State) (k : Nat) : List Nat := (s.groups.filter (fun (_, g) => g.team == k)).map (·.1)

/-- A request lets a team be saved: a blocking `bor` (R197). -/
def Request.mayWait (r : Request) : Bool := r.purpose == .bor && r.wait

/-- A fragment has a fence or a walk that is to end before the save (R197, R324). -/
def Frag.unfinished (f : Frag) : Bool := f.wait.goesOn || (match f.wait with | .walk _ => true | _ => false)

/-- The drain of a team is over (R396). -/
def State.drained (s : State) (k : Nat) : Bool :=
  let t := s.teamOf k
  let gs := s.groupKeys k
  !s.groups.any (fun (_, g) => g.team == k && g.frags.any Frag.unfinished) &&
  !s.txns.any (fun (_, x) => x.team == k) && !s.copies.any (fun (_, c) => c.team == k) &&
    !(s.clusterOf t.cluster).reserve.any (fun r => r.group / 16 == k) &&
    !s.reqs.any (fun (_, r) => r.team == k && !r.mayWait) &&
    !(s.clusterOf t.cluster).divq.any (fun (_, ds) => ds.any (fun d => gs.contains d.group))

/-- The save is due: it is owed once. -/
def State.oweSave (s : State) (k : Nat) : State :=
  if (s.teamOf k).st == .draining && s.drained k && !s.agenda.contains (.preemptSave k) then s.owe (.preemptSave k) else s

/-- PREEMPTION (R396): a free frame is allotted, issue stops, and the drain starts. A team for which no frame is free stays as it was. -/
def execPreemption (k : Nat) (s : State) : Host.Outcome State Fault Refusal :=
  let t := s.teamOf k
  .next (match (if t.st == .resident then s.freeFrame t.ctx else none) with
    | none => if (tfind s.teams k).isSome then s.putTeam k { t with forBorrow := false } else s
    | some f =>
      let c := s.ctxOf t.ctx
      let s1 := (s.putCtx t.ctx { c with frames := c.frames ++ [f] }).putTeam k { t with st := .draining, frame := f }
      let s2 := (s1.groupKeys k).foldl State.stopGroup s1
      let s4 := (s2.clusterOf t.cluster).wc.foldl (fun s' (n, l) =>
        if l.leaving || s'.agenda.contains (.wcDrain t.cluster n) then s' else s'.owe (.wcDrain t.cluster n)) s2
      s4.oweSave k)

/-- BORROW_WAIT_PREEMPT (R196): a team that has waited 4,096 cycles, while another waits for residency, may be pre-empted. -/
def State.borrowStuck (s : State) (k : Nat) : Bool :=
  let t := s.teamOf k
  t.st == .resident && s.reqs.any (fun (_, r) => r.team == k && r.mayWait && r.ended.isNone && decide (r.issued + 4096 ≤ s.cycle)) &&
    (s.clusterOf t.cluster).queue.any (fun j => (s.taskOf j).st == .ready)

def execBorrowWaitPreempt (k : Nat) (s : State) : Host.Outcome State Fault Refusal :=
  .next (if s.borrowStuck k && (s.freeFrame (s.teamOf k).ctx).isSome && !s.agenda.contains (.preemption k) then
    (s.putTeam k { s.teamOf k with forBorrow := true }).owe (.preemption k)
  else s)

/-- Dirty X lines are written back, and every commons line tagged with the team that it owns is written back and given up, whichever
register it was reached through (R197, R282). -/
def State.flushTeam (s : State) (k : Nat) : State :=
  let cl := (s.teamOf k).cluster
  let s1 := (s.teamOf k).pieces.foldl (fun s' (_, rs) => match rs with
    | [] => s'
    | r :: _ => (s'.writeOut k r.kind (rs.flatMap s'.regionSpans) true).1) s
  let owned := ((s1.clusterOf cl).cache.filter (fun (a, b) => b.commons && b.team == k && s1.owns cl (lineOf a))).map (fun (a, _) => lineOf a)
  (owned.eraseDups).foldl (fun s' l => s'.evict cl l) s1

/-- Values held for the team's consumers go to the spill area (R175). -/
def State.spillCarried (s : State) (k : Nat) : State :=
  let t := s.teamOf k
  let ln := s.launchOf t.launch
  let mine := fun (c : Carried) => c.launch == t.launch && (c.place == .buffer t.cluster || c.place == .fetched t.cluster) &&
    ln.consumer c.item c.slot / 32 / ln.lcb.teamSize == t.ix
  let s1 := (s.carried.filter mine).foldl State.writeSpill s
  { s1 with carried := s1.carried.map (fun c => if mine c then { c with place := .spill } else c) }

/-- What stays of a group in the device while its team is in a frame: which group it is, and which lanes have ended. -/
def Group.stub (g : Group) : Group :=
  { ord := g.ord, pos := g.pos, core := g.core, team := g.team, absent := g.absent, exited := g.exited, budgeted := g.budgeted }

/-- PREEMPT_SAVE (R396 steps 4 to 6). -/
def execPreemptSave (k : Nat) (s0 : State) : Host.Outcome State Fault Refusal :=
  let s := s0.raiseTrips k none
  let t := s.teamOf k
  .next (if t.st != .draining || !s.drained k then s
  else
    let spoilt := !t.soft.isEmpty || s.groups.any (fun (_, g) => g.team == k && !g.bad.isEmpty)
    let s0 := if spoilt then s.stopDomain (t.ctx, (s.launchOf t.launch).lcb.fdom) else s
    let s1 := ((s0.flushTeam k).spillCarried k).settleWrites
    let size := t.enginesAt + 40 * 1024 * (s.enginesOfTeam k).length
    let s2 := s1.writeFrame (s1.frameAt t.ctx t.frame) size (s1.frameFields k)
    let s3 := { s2 with groups := s2.groups.map (fun (x : Nat × Group) => if x.2.team == k then (x.1, x.2.stub) else x) }
    let s4 := s3.putTeam k
      { st := .saved, launch := t.launch, ctx := t.ctx, ix := t.ix, size := t.size, cluster := t.cluster, start := t.start
        matrix := t.matrix, scr := t.scr, banks := List.replicate t.banks.length {}, frame := t.frame, forBorrow := t.forBorrow }
    ((s4.putCluster t.cluster ((s4.clusterOf t.cluster).release k)).tryResume).pumpAll)

/-! ### Resuming a team (R399) -/

/-- Bytes of a frame as numbers. -/
def State.frameLe (s : State) (base off n : Nat) : Nat := readLe s.mem (base + off) n

/-- n bytes of a frame as a table. -/
def State.frameBytes (s : State) (base off n : Nat) : Table Byte :=
  (List.range n).foldl (fun m i => mset 0 m i (readByte s.mem (base + off + i))) []

/-- n words of a frame as a table. -/
def State.frameWords (s : State) (base off n : Nat) : Table Word :=
  (List.range n).foldl (fun m i => mset 0 m i (BitVec.ofNat 32 (s.frameLe base (off + 4 * i) 4))) []

/-- The split-table entries of a group block, resident then spilled; a fragment of handler lanes is at handler level. -/
def State.frameFrags (s : State) (base o : Nat) : List Frag :=
  let handler := BitVec.ofNat 32 (s.frameLe base (o + 0x2530) 4)
  let read := fun (off : Nat) (i : Nat) (sp : Bool) =>
    let f := fragOfImage (s.frameLe base (o + off + 16 * i) 16) (i + 1 + (if sp then 16 else 0))
    { f with handler := f.mask != 0 && within f.mask handler, spilled := sp }
  (((List.range 16).map (fun i => read 0x2300 i false)) ++ ((List.range 16).map (fun i => read 0x1E00 i true))).filter (fun f => f.st != .free)

/-- The deferred traps of a group block: held ones belong to no fragment (R382). -/
def State.frameDeferred (s : State) (base o : Nat) : List Deferred :=
  let codes := s.frameLe base (o + 0x2438) 4
  let details := s.frameLe base (o + 0x2430) 4
  ((List.range 3).map (fun i => ({ code := fieldAt codes (i + 1) 1, detail := fieldAt details i 1, frag := 0 } : Deferred))).filter
    (fun d => d.code != 0)

/-- Read a group block (R398) into a group: the 16 fragments with the lowest keys are resident (R74). -/
def State.readGroup (s : State) (base o : Nat) (old : Group) (l : Launch) (team : Nat) (cp : Nat × Nat) : Group :=
  let fs := residents (s.frameFrags base o)
  let rec_ := s.frameLe base (o + 0x2540) 16
  let lanes := fs.foldl (fun m f => m ||| f.mask) 0
  let due := if l.budgetAt.isSome && !old.budgeted then [{ code := 0x38, detail := 1, frag := 0 }] else []
  { regs := s.frameWords base o (60 * 32)
    preds := (List.range 7).foldl (fun m i => mset 0 m (i + 1) (BitVec.ofNat 32 (s.frameLe base (o + 0x2400 + 4 * i) 4))) []
    cur := fs.headD {}, rest := fs.drop 1
    pool := ((List.range 64).map (fun i => (i, fuseOfImage (s.frameLe base (o + 0x1F00 + 16 * i) 16)))).filter (fun (_, p) => p.live)
    absent := old.absent, exited := ~~~(old.absent ||| lanes), ord := old.ord, pos := old.pos, core := cp.1, place := cp.2, team
    user := s.frameWords base (o + 0x2420) 4
    tcause := BitVec.ofNat 32 (s.frameLe base (o + 0x2440) 4), tmask := BitVec.ofNat 32 (s.frameLe base (o + 0x2444) 4)
    tmode := BitVec.ofNat 32 (s.frameLe base (o + 0x2448) 4), tpc := BitVec.ofNat 64 (s.frameLe base (o + 0x2450) 8)
    taddr := BitVec.ofNat 64 (s.frameLe base (o + 0x2458) 8)
    record := if rec_ = 0 then none else some (fragOfImage rec_ 33)
    deferred := s.frameDeferred base o ++ due
    wt := (List.range 16).foldl (fun m i =>
      let x := s.frameLe base (o + 0x2460 + 4 * i) 4
      if bit x 16 then tput m i (some (x % 2 ^ 16)) else m) []
    pub := (List.range 4).foldl (fun m j => mset 0 m j (BitVec.ofNat 32 (s.frameLe base (o + 0x24A0 + 36 * j) 4))) []
    bind := if l.ordered then (List.range 128).foldl (fun m i =>
        tput m i (s.frameLe base (o + 0x24A0 + 36 * (i / 32) + 4 + i % 32) 1)) [] else []
    last := s.cycle, budgeted := old.budgeted || !due.isEmpty }

/-- Read the banks of a frame. -/
def State.readBanks (s : State) (base : Nat) (t : Team) : List Bank :=
  (List.range t.banks.length).map (fun i =>
    let r := s.frameLe base (0x40 + 8 * i) 8
    let o := t.banksAt + 0x4000 * i
    let m := bankMode (r % 4)
    { mode := m
      data := if m = .scratch then s.frameBytes base o 0x4000 else []
      head := if m = .fifo then bits r 47 32 % 4096 else 0
      fifo := if m = .fifo then (List.range (bits r 28 16)).map (fun j =>
          BitVec.ofNat 32 (s.frameLe base (o + 4 * ((bits r 47 32 + j) % 4096)) 4)) else [] })

/-- Read the block of a pair engine into a cluster's engine e. -/
def State.readEngine (s : State) (base o : Nat) (c : Cluster) (e team : Nat) : Cluster :=
  let slot := fun (i : Nat) =>
    let r := s.frameLe base (o + 0x1000 + 8 * i) 8
    let st : SlotState := if bits r 33 32 = 1 then .claimed else if bits r 33 32 = 2 then .shaped
      else if bits r 33 32 = 3 then .loaded else .free
    ({ st, shape := BitVec.ofNat 32 (r % 2 ^ 32), image := if st = .loaded then s.frameBytes base (o + 0x2000 + 2048 * i) 2048 else [] } : OpSlot)
  { c with
    engines := tmod ({} : Engine) c.engines e (fun x => { x with owner := some team, accs := s.frameWords base o 1024 })
    slots := (List.range 16).foldl (fun m i => mset {} m (16 * e + i) (slot i)) (c.slots.filter (fun (n, _) => n / 16 != e)) }

/-- Where each core tag goes: code m sends tag i to core m / 4^i mod 4. -/
def tagCore (m i : Nat) : Nat := m / 4 ^ i % 4

/-- A placement of tags is allowed: every core has room, and a matrix-flagged team keeps leaders and followers, its engines apart
and on engines that no other such team uses (R352, R368). -/
def State.tagsFit (s : State) (cl : Nat) (t : Team) (tags : List Nat) (m : Nat) : Bool :=
  let used := s.coresUsed cl
  let cores := tags.map (tagCore m)
  (List.range 4).all (fun c => decide (used.count c + cores.count c ≤ 8)) &&
    (!t.matrix || tags.all (fun i => (s.coresFor cl true).contains (tagCore m i) && tagCore m i % 2 == i % 2 &&
      tags.all (fun j => (i / 2 == j / 2) == (tagCore m i / 2 == tagCore m j / 2))))

/-- A placement of a team on a cluster, if it can take it. -/
def State.placement (s : State) (cl : Nat) (t : Team) (tags : List Nat) : Option Nat :=
  if footBanksOf t.size t.scr + t.banks.length ≤ s.freeBanks cl then (List.range 256).find? (s.tagsFit cl t tags) else none

/-- The lowest cluster of a die that the state does not list: all such are alike, none has had work. -/
def State.freshCluster (s : State) (die : Nat) : Option Nat :=
  if !s.dieUp die then none else
  ((List.range dieClusters).find? (fun c => (tfind s.clusters (2048 * die + c)).isNone)).map (2048 * die + ·)

/-- Clusters that may take the team back: any may be chosen (R399); of the unlisted ones of a die, the lowest stands for all. DESIGN CHOICE,
log 34. -/
def State.placesFor (s : State) (t : Team) (tags : List Nat) : List (Nat × Nat) :=
  ((s.clusters.map (fun (x : Nat × Cluster) => x.1)) ++ s.cdies.filterMap s.freshCluster).filterMap (fun cl =>
    if s.cdies.contains (cl / 2048) && s.dieUp (cl / 2048) then (s.placement cl t tags).map (fun m => (cl, m)) else none)

/-- Make room for a pre-empted team that holds item u: the team that started last is pre-empted (R371, R396). DESIGN CHOICE, log 34. -/
def State.makeRoom (s : State) (t : Team) : State :=
  if s.holdsLow t && !s.teams.any (fun (_, x) => x.st == .draining) then
    match pickBest (fun x y : Nat × Team => decide (y.2.start < x.2.start))
        (s.teams.filter (fun (_, x) => x.st == .resident && !s.holdsLow x)) with
    | some (j, _) => if s.agenda.contains (.preemption j) then s else s.owe (.preemption j)
    | none => s
  else s

/-- The fragment that a pending blocking borrow keeps waiting waits again; what the borrow writes is busy. -/
def Group.rewait (g : Group) (n : Nat) (r : Request) : Group :=
  let mark := fun (f : Frag) => if f.mask.getLsbD (lowest r.lanes) then { f with wait := .borrow n } else f
  { g with cur := mark g.cur, rest := g.rest.map mark, busy := g.busy ++ [(r.dst, n), (128 + r.reg, n)] }

/-- Restore a team from its frame on a cluster under a placement of its tags: the blocks of its pair engines stand ascending (R352,
R397), and a cluster left without a cache way empties its cache (R217). -/
def State.restore (s : State) (k cl m : Nat) (t : Team) (tags : List Nat) : State :=
  let base := s.frameAt t.ctx t.frame
  let l := s.launchOf t.launch
  let cps := givePlaces (s.placesUsedOn cl) (tags.map (tagCore m))
  let image := fun (i : Nat) => regionOfImage (s.frameLe base (0x100 + 16 * i) 16)
  let team : Team :=
    { t with
      st := .resident, cluster := cl, forBorrow := false, frame := 0, start := s.cycle
      g := (List.range 32).foldl (fun x i => mset {} x i (image i)) []
      w := (List.range 16).foldl (fun x i => mset {} x i (barrierOfImage (s.frameLe base (0x300 + 16 * i) 16))) []
      scratch := s.frameBytes base t.scratchAt t.scr, banks := s.readBanks base t
      total := (List.range 6).foldl (fun x i => mset 0 x i (s.frameLe base (0x80 + 4 * i) 4)) []
      window := (List.range 6).foldl (fun x i => mset 0 x i (s.frameLe base (0x98 + 4 * i) 4)) []
      evth := s.frameWords base 0xB0 6, evstat := BitVec.ofNat 32 (s.frameLe base 0xC8 4) }
  let es := (List.range 2).filter (fun e => (enginesOf tags).contains e)
  let c := if t.matrix then (es.zipIdx).foldl (fun c' (e, i) =>
      s.readEngine base (t.enginesAt + 40 * 1024 * i) c' (tagCore m (2 * e + (if tags.contains (2 * e) then 0 else 1)) / 2) k) (s.clusterOf cl)
    else s.clusterOf cl
  let s1 := (s.putCluster cl c).putTeam k team
  let s1a := (if s.teams.any (fun (j, x) => j != k && x.launch == t.launch && x.cluster == cl) then s1 else s1.dropCode cl l).settleWays cl
  let s2 := cps.zipIdx.foldl (fun s' (cp, p) =>
    s'.putGroup (groupKey k p) (s.readGroup base (0x400 + 0x2800 * p) (s.group (groupKey k p)) l k cp)) s1a
  let x := s2.ctxOf t.ctx
  s2.putCtx t.ctx { x with frames := x.frames.erase t.frame }

/-- Deliver the borrows that ended meanwhile, and put the others' fragments back to waiting (R196, R399). -/
def State.rejoin (s : State) (k : Nat) : State :=
  (s.reqs.filter (fun (_, r) => r.team == k && r.purpose == .bor)).foldl (fun s' (n, r) =>
    match r.ended with
    | some st => s'.deliver n r st
    | none => s'.putGroup r.group ((s'.group r.group).rewait n r)) s

/-- RESUME (R399): a pre-empted team is placed, its borrows relocated, its frame restored and freed; one that holds item u comes first (R371). -/
def execResume (k : Nat) (s : State) : Host.Outcome State Fault Refusal :=
  let t := s.teamOf k
  let tags := (List.range t.size).map (fun p => s.frameLe (s.frameAt t.ctx t.frame) (0x20 + p) 1 % 4)
  .next (if !s.waitsResidency k t || (s.lowWaits && !s.holdsLow t) then s
  else
    let ps := s.placesFor t tags
    match ps[Config.freePick s.free ps.length % (ps.length + 1)]?.orElse (fun _ => ps.head?) with
    | none => s.makeRoom t
    | some (cl, m) =>
      let s1 := ({ s with free := s.free + 1 }.restore k cl m t tags)
      let s2 := s1.rejoin k
      let moved := (s2.teamOf k).pieces.foldl (fun s' (h, rs) =>
        (s'.selfInvalidate cl (rs.flatMap s'.regionSpans)).relocate k cl h) s2
      let s3 := (moved.reqs.filter (fun (_, r) => r.team == k && r.purpose == .bor && r.ended.isNone)).foldl (fun s' (n, _) =>
        s'.relocateReq cl n) moved
      let s4 := (s3.groupKeys k).foldl (fun s' j => (s'.putGroup j (s'.group j).reselect).wakeGroup j) s3
      let s5 := (s4.groupKeys k).foldl (fun s' j => s'.afterExit j) s4
      let s6 := if s.holdsLow t then s5.tryResume.pumpAll else s5
      match (s6.launchOf t.launch).budgetAt with
      | some b => if b + 2 ^ 20 ≤ (s6.launchOf t.launch).slots then s6.owe (.budgetEnd t.launch) else s6
      | none => s6)

end Sys2Proof.Machine
end

