-- ==== Sys2Proof/Machine/Attach.lean ====
section
/-! DEFINITION. The device in its system: bias and the CXL hosts (R407 to R410), the control complex's accesses (R406), the roots
of trust (R412), power-up and power (R413, R414), the topology block (R415) and soft errors (R417). -/

namespace Sys2Proof.Machine

/-! ### The topology block (R415) -/

/-- The fields of the topology block: offset, bytes and value. Bytes not listed are zero. -/
def State.topologyFields (s : State) : List (Nat × Nat × Nat) :=
  let t := s.topo
  [(0x000, 4, 0x314F5458), (0x004, 1, if t.gradeB then 2 else 1), (0x005, 1, if t.ready then 1 else 0),
   (0x006, 2, s.cdies.length), (0x008, 2, s.nm), (0x00A, 2, Config.clustersPerDie), (0x00C, 4, 1900),
   (0x010, 40, ((List.range 288).map (fun d => if t.enabled d then 2 ^ d else 0)).sum),
   (0x038, 2, t.devNum.getD 0xFFFF), (0x03A, 2, t.devices), (0x040, 8, t.planes.toNat), (0x048, 8, s.dramBytes),
   (0x050, 8, Config.registerPage 0), (0x058, 8, Config.registerPage 1), (0x060, 8, Config.registerPage 2),
   (0x068, 8, Config.registerPage 3)] ++
  (List.range 8).flatMap (fun p => [(0x070 + 16 * p, 8, Config.hostWindow + 2 ^ 47 * p), (0x078 + 16 * p, 8, 2 ^ 47)]) ++
  [(0x0F0, 4, min t.retired.length 64), (0x0F4, 4, t.generation)] ++
  (t.retired.take 64).zipIdx.map (fun (e, i) => (0x100 + 4 * i, 4, e))

/-- A byte of the topology block. -/
def State.topologyByte (s : State) (off : Nat) : Byte :=
  match s.topologyFields.find? (fun (o, n, _) => decide (o ≤ off) && decide (off < o + n)) with
  | some (o, _, v) => BitVec.ofNat 8 (v / 256 ^ (off - o))
  | none => 0

/-! ### Bias (R408, R409) -/

def State.edge (s : State) (he : Nat) : HostEdge := tget {} s.hostEdges he
def State.putEdge (s : State) (he : Nat) (h : HostEdge) : State := { s with hostEdges := tput s.hostEdges he h }

/-- The page lies in the exported range. -/
def HostEdge.exports (h : HostEdge) (page : Nat) : Bool :=
  decide (h.hdmBase ≤ 4096 * page) && decide (4096 * page < h.hdmBase + h.hdmLen)

/-- The page's number in the bias table. -/
def HostEdge.index (h : HostEdge) (page : Nat) : Nat := page - h.hdmBase / 4096

/-- The page is in host bias. -/
def State.pageHost (s : State) (h : HostEdge) (page : Nat) : Bool := h.exports page && s.hostBias h (h.index page)

/-- Set the bias of a page, in the table and as the last one set. -/
def State.setBias (s : State) (he page : Nat) (host : Bool) : State :=
  let h := s.edge he
  let p := h.index page
  let a := h.biasBase + p / 8
  let old := (readByte s.mem a).toNat
  let cleared := old - (if bit old (p % 8) then 2 ^ (p % 8) else 0)
  { s with
    mem := writeByte s.mem a (BitVec.ofNat 8 (cleared + (if host then 2 ^ (p % 8) else 0)))
    hostEdges := tput s.hostEdges he { h with bias := (h.bias.filter (· != p)) ++ (if host then [p] else []), direct := h.direct.filter (· != p) } }

/-- First page and number of pages of a BIASCMD value (R408). -/
def biasFirst (v : Nat) : Nat := bits v 51 12
def biasCount (v : Nat) : Nat := bits v 11 1 + 1

/-- Go on with a command to device bias: pages in device bias are passed, one whose bit was written directly being in device bias from
then on (R408); the next one in host bias starts its flip (R409). -/
def State.biasOn (s : State) (he : Nat) : Nat → State
  | 0 => s
  | n + 1 =>
    let h := s.edge he
    if h.biasSt ≠ 1 ∨ h.flipping.isSome then s
    else if biasFirst h.biasCmd + biasCount h.biasCmd ≤ h.biasNext then s.putEdge he { h with biasSt := 2 }
    else if s.pageHost h h.biasNext then s.startFlip he h.biasNext
    else
      let s1 : State :=
        if h.exports h.biasNext && s.unsureBias h (h.index h.biasNext) then { s.setBias he h.biasNext false with free := s.free + 1 } else s
      (s1.putEdge he { s1.edge he with biasNext := h.biasNext + 1 }).biasOn he n

/-- BIAS_TO_DEVICE (R408, R409): BIASCMD with TGT 0. -/
def execBiasToDevice (he val : Nat) (s : State) : Host.Outcome State Fault Refusal :=
  let h := s.edge he
  .next (if 2 ≤ he ∨ h.biasSt = 1 ∨ bit val 0 then s
  else (s.putEdge he { h with biasCmd := val % 2 ^ 52, biasPage := 0, biasSt := 1, biasNext := biasFirst val }).biasOn he 2049)

/-- A borrow of any kind covers part of the page, or a request for one has come first and waits, in the table or for a flip (R409). -/
def State.pageCovered (s : State) (h : HostEdge) (page : Nat) : Bool :=
  let meets := fun (spans : List (Nat × Nat)) => spans.any (fun x => linesMeet x.1 x.2 (4096 * page) 4096)
  s.circ.any (fun (_, e) => e.st != .taint && meets e.spans) || (h.flipping.map (fun f => f.1 == page)).getD false ||
    h.waiting.any (fun n => meets (tget {} s.slips n).spans)

/-- Flip pages to host bias in ascending order; the command stops at the first covered page (R409). -/
def State.toHost (s : State) (he : Nat) : List Nat → State
  | [] => s.putEdge he { s.edge he with biasSt := 2 }
  | page :: ps =>
    let h := s.edge he
    if !h.exports page then s.toHost he ps
    else if s.pageCovered h page then s.putEdge he { h with biasSt := 3, biasPage := page }
    else (s.setBias he page true).toHost he ps

/-- BIAS_TO_HOST (R408, R409): BIASCMD with TGT 1. -/
def execBiasToHost (he val : Nat) (s : State) : Host.Outcome State Fault Refusal :=
  let h := s.edge he
  .next (if 2 ≤ he ∨ h.biasSt = 1 ∨ !bit val 0 then s
  else (s.putEdge he { h with biasCmd := val % 2 ^ 52, biasPage := 0 }).toHost he
    ((List.range (biasCount val)).map (fun i => biasFirst val + i)))

/-- BIRSPI (R409): a host has answered the BISnpInv of a page's lines. Its dirty data goes home, the page becomes device bias, and
the borrow requests and the command that waited go on. -/
def execBirspi (he : Nat) (data : List (Nat × BitVec 8)) (s : State) : Host.Outcome State Fault Refusal :=
  let h := s.edge he
  .next (match h.flipping with
    | none => s
    | some (page, _) =>
      let mine := (data ++ h.cached).filter (fun x => x.1 / 4096 == page)
      let s1 := mine.foldl (fun s' (a, b) => s'.deviceWrite a b.toNat 1) s
      let s2 := (s1.cleansed (mine.map (·.1))).setBias he page false
      let s3 := s2.putEdge he { s2.edge he with
        flipping := none, cached := h.cached.filter (fun x => x.1 / 4096 != page), waiting := [], again := [] }
      (h.again.foldl State.reevaluate (h.waiting.foldl (fun s' n => s'.owe (.req n)) s3)).biasOn he 2049)

/-! ### Accesses of the hosts and of the control complex (R406, R409) -/

/-- Write n bytes at their homes as the control complex does; whole lines so written are poisoned no more (R406, R417). -/
def State.outsideWrite (s : State) (pa v n : Nat) : State :=
  let s1 := ((List.range n).foldl (fun s' i => s'.deviceWrite (pa + i) (v / 256 ^ i % 256) 1) s).counterWritten
  { s1 with poison := s1.poison.filter (fun l => !(decide (pa ≤ 128 * l) && decide (128 * l + 128 ≤ pa + n))) }

/-- Read n bytes at their home as the control complex does: data that another cluster or device owns comes back first, and poisoned
data is not read (R406, R417). -/
def State.outsideRead (s : State) (pa n : Nat) : State × Option Nat :=
  let s1 := (s.pullPage pa).settleLine (lineOf pa)
  if s1.poison.contains (lineOf pa) then (s1.interrupt 14 (lineOf pa) 0 0, none) else (s1, some (s1.homeLe pa n))

/-- A byte of register space as the control complex reads it (R405): the topology block at offset 0 (R415), the launch queues' blocks (R361),
the system registers at 8 times their number (R376), and the pages of the host edge dies (R408). -/
def State.regByte (s : State) (pa : Nat) : Nat :=
  let off := pa - Config.regSpace
  let byteOf := fun (v i : Nat) => v / 256 ^ i % 256
  match (List.range 4).find? (fun k => decide (Config.registerPage k ≤ pa) && decide (pa < Config.registerPage k + 4096)) with
  | none => (s.topologyByte off).toNat
  | some k =>
    let o := pa - Config.registerPage k
    if k = 0 then
      let r := if o % 64 < 8 then 0 else o % 64 / 4 * 4
      byteOf (s.queueRead (o / 64) r) (o % 64 - r)
    else if k = 1 then byteOf (s.sysPageRead (o / 8)) (o % 8)
    else byteOf (s.edgeRead (k - 2) (o / 8 * 8)) (o % 8)

/-- n bytes of register space, little-endian. -/
def State.regLe (s : State) (pa : Nat) : Nat → Nat
  | 0 => 0
  | n + 1 => s.regByte pa + 256 * s.regLe (pa + 1) n

/-- CXL_HOST_ACCESS (R407, R409): a linked host reads or writes a line of 64 bytes of exported memory. A page in host bias is
cached by the host, which holds what it writes and reads what it holds; in device bias the access is served at the home. -/
def execCxlHostAccess (port : Nat) (wr : Bool) (pa val : Nat) (s : State) : Host.Outcome State Fault Refusal :=
  let he := port / 4
  let h := s.edge he
  let a := pa / 64 * 64
  .next (if 8 ≤ port ∨ (tget Port.down s.ports port != .cxl) ∨ !h.exports (a / 4096) then s
  else if s.pageHost h (a / 4096) then
    s.putEdge he (if wr then
      { h with cached := (List.range 64).foldl (fun m i => tput m (a + i) (BitVec.ofNat 8 (val / 256 ^ i))) h.cached }
      else
        let held := (List.range 64).foldr (fun i v => ((tfind h.cached (a + i)).getD (s.homeByte (a + i))).toNat + 256 * v) 0
        { h with data := if s.poison.contains (lineOf a) then none else some held })
  else if wr then s.outsideWrite a val 64
  else
    let r := s.outsideRead a 64
    r.1.putEdge he { r.1.edge he with data := r.2 })

/-- CC_ACCESS (R405, R406): an access of the control complex to DRAM is served at its home, without a borrow, and a read brings the
home's value; a read of register space brings what the registers hold. Writes of registers are events of their own. -/
def execCcAccess (wr : Bool) (pa n val : Nat) (s : State) : Host.Outcome State Fault Refusal :=
  .next (if 64 < n ∨ n = 0 ∨ pa / 64 ≠ (pa + n - 1) / 64 then s
  else if s.isDram pa then
    if wr then s.outsideWrite pa val n
    else let r := s.outsideRead pa n; { r.1 with cc := { r.1.cc with data := r.2 } }
  else if !wr && isRegSpace pa then { s with cc := { s.cc with data := some (s.regLe pa n) } }
  else s)

/-- CXL_HOST_LINK (R407, R408): a port trains with a CXL host (1), as PCIe without CXL (2), or loses its host (0). PRESUMED, log 40. -/
def execCxlHostLink (port st : Nat) (s : State) : Host.Outcome State Fault Refusal :=
  .next (if 8 ≤ port then s
  else { s with ports := mset .down s.ports port (if st = 1 then .cxl else if st = 2 then .pcie else .down) })

/-! ### Management and trust (R412) -/

/-- A port on which the device answers SPDM requests: a CXL port whose link is up, by its DOE mailbox, or a management port. -/
def State.spdmPort (s : State) (port : Nat) : Bool := port == 8 || port == 9 || (decide (port < 8) && tget Port.down s.ports port != .down)

def State.answer (s : State) (port : Nat) (a : SpdmAnswer) : State :=
  if s.spdmPort port then { s with spdm := s.spdm ++ [{ port, answer := a }], free := s.free + 1 } else s

/-- GET_VERSION (R412): SPDM 1.3. -/
def execGetVersion (port : Nat) (s : State) : Host.Outcome State Fault Refusal := .next (s.answer port (.version 1 3))

/-- GET_CAPABILITIES (R412). -/
def execGetCapabilities (port : Nat) (s : State) : Host.Outcome State Fault Refusal := .next (s.answer port .capabilities)

/-- NEGOTIATE_ALGORITHMS (R412): Falcon-1024 and SHAKE256 where bit 0 of the requester's lists offers them; no other algorithm.
DEDUCED, log 45. -/
def execNegotiateAlgorithms (port asym hash : Nat) (s : State) : Host.Outcome State Fault Refusal :=
  .next (s.answer port (.algorithms (bit asym 0) (bit hash 0)))

/-- GET_DIGESTS (R412). -/
def execGetDigests (port : Nat) (s : State) : Host.Outcome State Fault Refusal :=
  .next (s.answer port (.digests (Config.freeMessage s.free)))

/-- GET_CERTIFICATE (R412). -/
def execGetCertificate (port : Nat) (s : State) : Host.Outcome State Fault Refusal :=
  .next (s.answer port (.certificate (Config.freeMessage s.free)))

/-- CHALLENGE (R412): signed with the identity key, which never leaves the root of trust. -/
def execChallenge (port nonce : Nat) (s : State) : Host.Outcome State Fault Refusal :=
  .next (s.answer port (.challengeAuth nonce (Config.freeMessage s.free)))

/-- GET_MEASUREMENTS (R412): 1 to 8 are the firmware stages, 9 is a digest of the topology block. -/
def execGetMeasurements (port idx : Nat) (s : State) : Host.Outcome State Fault Refusal :=
  .next (s.answer port (
    if idx = 9 then .measurement 9 (Config.digest ((List.range 512).map s.topologyByte))
    else if 1 ≤ idx ∧ idx ≤ 8 then .measurement idx (Config.freeMessage s.free)
    else .refused))

/-- KEY_EXCHANGE (R412): key exchange and sessions are refused. -/
def execKeyExchange (port : Nat) (s : State) : Host.Outcome State Fault Refusal := .next (s.answer port .refused)

/-- RESET (R412): the roots of trust verify their chains. With both the device leaves reset and powers up; otherwise the dies stay
unpowered and both management ports report it. The build of the part is what it was, and free values go on. -/
def execReset (ok0 ok1 : Bool) (s : State) : Host.Outcome State Fault Refusal :=
  let s0 : State := { State.reset with
    topo := { gradeB := s.topo.gradeB, disabled := s.topo.disabled, retired := s.topo.retired, generation := s.topo.generation }
    hostEdges := [(0, { verified := ok0 }), (1, { verified := ok1 })]
    free := s.free, turns := s.turns }
  .next (if ok0 && ok1 then { s0 with awake := true }.owe .powerUpWave
  else { s0 with spdm := [{ port := 8, answer := .bootFailure }, { port := 9, answer := .bootFailure }] })

/-! ### Power (R413, R414) -/

/-- Cycle at which power-up stage n takes place, from the pass of the roots of trust (R413): power, links, and 18 waves.
DESIGN CHOICE, log 38. -/
def stageCycle (n : Nat) : Nat := if n = 0 then 0 else if n = 1 then 3800000 else waveStart (n - 2)

/-- POWER_UP_WAVE (R413): the next stage takes place, and clusters that start with it take their tasks; with the last wave the topology
block reports the device ready. -/
def execPowerUpWave (s : State) : Host.Outcome State Fault Refusal :=
  .next (if !s.awake ∨ 20 ≤ s.stage then s
  else
    let s1 := { s with stage := s.stage + 1, cycle := max s.cycle (stageCycle s.stage) }
    if s1.stage = 20 then { s1 with topo := { s1.topo with ready := true, generation := s1.topo.generation + 2 } }.pumpAll
    else (s1.owe .powerUpWave).pumpAll)

/-- POWER_METER (R414): the projected draw in watts; above 38 kW the arbiters insert idle slots until it
falls below. -/
def execPowerMeter (draw : Nat) (s : State) : Host.Outcome State Fault Refusal :=
  .next { s with throttled := if draw = 38000 then s.throttled else decide (38000 < draw) }

/-- DOMAIN_START (R243, R415): the domain gives the device its number, and has devs devices. -/
def execDomainStart (num devs : Nat) (s : State) : Host.Outcome State Fault Refusal :=
  .next (if 512 ≤ num ∨ 512 < devs ∨ devs = 0 then s
  else { s with topo := { s.topo with devNum := some num, devices := devs, generation := s.topo.generation + 2 } })

/-! ### Soft errors (R417) -/

/-- The poison of a word of a cluster's memories (R417): 3 of a team's local window and 4 of its banks, pa being the team times 2^20 and the
word; 5 of an operand slot, pa being the cluster times 64 and the slot; 6 of a value in a carry buffer, by its place in the list. -/
def State.spoilWord (s : State) (wh pa : Nat) : State :=
  if wh = 3 ∨ wh = 4 then s.markWord (wh == 3) (pa / 2 ^ 20) true (pa % 2 ^ 20)
  else if wh = 5 then
    let c := s.clusterOf (pa / 64)
    match tfind c.slots (pa % 64) with
    | some o => s.putCluster (pa / 64) { c with slots := tput c.slots (pa % 64) { o with bad := true } }
    | none => s
  else { s with carried := s.carried.modify pa (fun c => match c.place with
    | .buffer _ | .fetched _ => { c with bad := true }
    | _ => c) }

/-- UNCORRECTABLE_ERROR (R417): 0 in the line of an address, whose data is poisoned; 1 in the transfer unit, with the chunk's
number (R305); 3 to 6 in a word of a cluster's memories; otherwise in a router or circulation table of die pa, which interrupts the
control complex. -/
def execUncorrectableError (wh pa : Nat) (s : State) : Host.Outcome State Fault Refusal :=
  .next (if wh = 0 then { s with poison := if s.poison.contains (lineOf pa) then s.poison else s.poison ++ [lineOf pa] }
  else if wh = 1 then (if (tfind s.chunks pa).isSome then s.owe (.chunkResend pa) else s)
  else if 3 ≤ wh ∧ wh ≤ 6 then s.spoilWord wh pa
  else s.interrupt 13 pa 0 0)

/-- CORRECTED_ERROR (R417): only the count changes. -/
def execCorrectedError (s : State) : Host.Outcome State Fault Refusal := .next { s with corrected := s.corrected + 1 }

end Sys2Proof.Machine
end

