-- ==== Sys2Proof/Machine/Messages.lean ====
section
/-! DEFINITION. Carry messages and fetches from the carry spill area (R173, R174), on the buffered lane (R12, R173). -/

namespace Sys2Proof.Machine

/-- A published value that stands in a place or is on its way. -/
def State.carriedIn (s : State) (l i j : Nat) (ps : List CarryPlace) : Option Carried :=
  s.carried.find? (fun c => c.launch == l && c.item == i && c.slot == j && ps.contains c.place)

/-- The fault domain of a launch. -/
def State.launchDomain (s : State) (l : Nat) : Option (Nat × Nat) :=
  (tfind s.launches l).map (fun n => (n.ctx, n.lcb.fdom))

/-- The die at which the entry of a value in the spill area is homed. -/
def State.spillDie (s : State) (c : Carried) : Nat := ((s.spillAt c).map s.home).getD 1

/-- Send a message about a value from one die to another, on the request or the response channel (R239). -/
def State.sendCarry (s : State) (vc : Nat) (c : Carried) (src dst : Nat) (e : Event) : State :=
  s.sendLane vc (bits c.issued 25 6) 16 (s.ownNum, src) (s.ownNum, dst) (s.launchDomain c.launch) e

/-- A value that has left its cluster reaches its consumer's cluster, or the spill area (R174). -/
def State.landCarry (s : State) (l i j dest : Nat) (c : Carried) : State :=
  match s.holder l dest with
  | none => (s.writeSpill c).setPlace l i j .spill
  | some (k, g) =>
    let cl := (s.teamOf g.team).cluster
    if s.carryUsed cl < Config.carryPlaces then (s.setPlace l i j (.buffer cl)).wakeGroup k
    else
      let s1 := (s.writeSpill c).setPlace l i j .spill
      if (g.cur :: g.rest).any (fun f => match f.wait with | .carry needs => needs.any (fun x => x.2 == (j, i)) | _ => false)
      then s1.owe (.carryFetch l i j k) else s1

/-- CARRY_MESSAGE (R174): a published value leaves for its consumer's cluster, for the spill area, or for nowhere; then it arrives. For a
consumer whose group has retired while its team is still resident the table has no row: the value goes to the carry buffer all the same,
where no lane reads it. DESIGN CHOICE, log 50. -/
def execCarryMessage (l i j : Nat) (s : State) : Host.Outcome State Fault Refusal :=
  let dest := (s.launchOf l).consumer i j
  .next (match s.carriedIn l i j [.sent, .moving] with
    | none => s
    | some c =>
      if (s.launchOf l).items ≤ dest then s.setPlace l i j .nowhere
      else if c.place == .sent then
        let die := match s.holder l dest with
          | some (_, g) => (s.teamOf g.team).cluster / 2048
          | none => s.spillDie c
        (s.setPlace l i j .moving).sendCarry 0 c (c.cluster / 2048) die (.carryMessage l i j)
      else s.landCarry l i j dest c)

/-- CARRY_FETCH (R174): a group asks the spill area for a value that it waits for; the value leaves its home there; it comes to the
group's cluster. It is the value that was published, also where software has written over the entry, which R173 leaves undefined. For a group
that is not there any more it stays in the spill area. DESIGN CHOICE, log 50. -/
def execCarryFetch (l i j k : Nat) (s : State) : Host.Outcome State Fault Refusal :=
  let t := s.teamOf (s.group k).team
  let there := s.hasGroup k && t.launch == l && t.st == .resident
  .next (match s.carriedIn l i j [.spill, .asked, .coming] with
    | none => s
    | some c =>
      if !there then
        let s1 := s.setPlace l i j .spill
        if c.place == .spill then s1
        else match s.holder l ((s.launchOf l).consumer i j) with
          | some (k', _) => s1.oweOnce (.carryFetch l i j k')
          | none => s1
      else
        let e := Event.carryFetch l i j k
        match c.place with
        | .spill => (s.setPlace l i j .asked).sendCarry 0 c (t.cluster / 2048) (s.spillDie c) e
        | .asked => (s.setPlace l i j .coming).sendCarry 1 c (s.spillDie c) (t.cluster / 2048) e
        | _ => (s.setPlace l i j (.fetched t.cluster)).wakeGroup k)

end Sys2Proof.Machine
end

