-- ==== Sys2Proof/Machine/Agenda.lean ====
section
/-! DEFINITION. An event of the agenda runs the meaning of the event of the same name. -/

namespace Sys2Proof.Machine

/-- Run an event that the device owes. -/
def runEvent (e : Event) (s : State) : Host.Outcome State Fault Refusal :=
  match e with
  | .deferredTrap g => execDeferredTrap g s
  | .yieldEnd g => execYieldEnd g s
  | .carryMessage l im j => execCarryMessage l im j s
  | .carryFetch l im j g => execCarryFetch l im j g s
  | .eventWindowReset t c => execEventWindowReset t c s
  | .loadReply x => execLoadReply x s
  | .storeAck x => execStoreAck x s
  | .homeRequest x => execHomeRequest x s
  | .wcDrain cl n => execWcDrain cl n s
  | .req n => execReq n s
  | .grant n => execGrant n s
  | .refuse n => execRefuse n s
  | .recall n => execRecall n s
  | .giveup n => execGiveup n s
  | .retSlip n => execRetSlip n s
  | .down n => execDown n s
  | .up n => execUp n s
  | .reloc n => execReloc n s
  | .hold n => execHold n s
  | .ack n => execAck n s
  | .slipResend n => execSlipResend n s
  | .invalidate n => execInvalidate n s
  | .forward n => execForward n s
  | .gone n => execGone n s
  | .writeBack n => execWriteBack n s
  | .pageRecall n => execPageRecall n s
  | .commonsResend n => execCommonsResend n s
  | .sweepMarker n => execSweepMarker n s
  | .sweepAck n => execSweepAck n s
  | .packetArrive die => execPacketArrive die s
  | .packetOld p => execPacketOld p s
  | .injectStarve die => execInjectStarve die s
  | .fabricPacket p => execFabricPacket p s
  | .creditReturn dev plane => execCreditReturn dev plane s
  | .reachLimit x => execReachLimit x s
  | .flitReceive lk q crcOk => execFlitReceive lk q crcOk s
  | .replayRequest lk q => execReplayRequest lk q s
  | .linkRetrain lk => execLinkRetrain lk s
  | .linkSettle lk sideband => execLinkSettle lk sideband s
  | .linkRetire lk => execLinkRetire lk s
  | .chunk n => execChunk n s
  | .chunkAck n => execChunkAck n s
  | .chunkRetry n => execChunkRetry n s
  | .chunkResend n => execChunkResend n s
  | .close home st => execClose home st s
  | .copyComplete c => execCopyComplete c s
  | .passGrant cl e => execPassGrant cl e s
  | .passComplete cl e => execPassComplete cl e s
  | .rampEnd cl e => execRampEnd cl e s
  | .launchEntry q => execLaunchEntry q s
  | .waitEntry q => execWaitEntry q s
  | .waitRecheck q => execWaitRecheck q s
  | .signalEntry q => execSignalEntry q s
  | .nopEntry q => execNopEntry q s
  | .qctlWrite q val => execQctlWrite q val s
  | .qtailWrite q val => execQtailWrite q val s
  | .haltClear q => execHaltClear q s
  | .ovfClear q => execOvfClear q s
  | .registerWrite page num val => execRegisterWrite page num val s
  | .phloWrite val => execPhloWrite val s
  | .phhiWrite val => execPhhiWrite val s
  | .exloWrite val => execExloWrite val s
  | .exhiWrite val => execExhiWrite val s
  | .taintClear val => execTaintClear val s
  | .taintClearDone => execTaintClearDone s
  | .kill val => execKill val s
  | .killComplete => execKillComplete s
  | .run val => execRun val s
  | .preq val => execPreq val s
  | .symcmdTake => execSymcmdTake s
  | .symcmdReturn => execSymcmdReturn s
  | .symTakeEnd => execSymTakeEnd s
  | .biasToDevice he val => execBiasToDevice he val s
  | .biasToHost he val => execBiasToHost he val s
  | .cxlHostAccess port wr pa val => execCxlHostAccess port wr pa val s
  | .ccAccess wr pa n val => execCcAccess wr pa n val s
  | .getVersion port => execGetVersion port s
  | .getCapabilities port => execGetCapabilities port s
  | .negotiateAlgorithms port asym hash => execNegotiateAlgorithms port asym hash s
  | .getDigests port => execGetDigests port s
  | .getCertificate port => execGetCertificate port s
  | .challenge port nonce => execChallenge port nonce s
  | .getMeasurements port idx => execGetMeasurements port idx s
  | .keyExchange port => execKeyExchange port s
  | .reset ok0 ok1 => execReset ok0 ok1 s
  | .powerUpWave => execPowerUpWave s
  | .powerMeter draw => execPowerMeter draw s
  | .teamStart k => execTeamStart k s
  | .regionLoad k => execRegionLoad k s
  | .loadRetry k => execLoadRetry k s
  | .teamEnd t => execTeamEnd t s
  | .launchComplete l => execLaunchComplete l s
  | .depthExchange die => execDepthExchange die s
  | .dieDepthExchange die => execDieDepthExchange die s
  | .steal cl => execSteal cl s
  | .taskAgePromote k => execTaskAgePromote k s
  | .boost l => execBoost l s
  | .budgetExceeded l => execBudgetExceeded l s
  | .budgetEnd l => execBudgetEnd l s
  | .watchdog g => execWatchdog g s
  | .borrowWaitPreempt t => execBorrowWaitPreempt t s
  | .preemption t => execPreemption t s
  | .preemptSave t => execPreemptSave t s
  | .resume t => execResume t s
  | .dividerComplete cl core => execDividerComplete cl core s
  | .computePhaseEnd cl e => execComputePhaseEnd cl e s
  | .tableWalkEnd w => execTableWalkEnd w s
  | .birspi he data => execBirspi he data s
  | .cxlHostLink port st => execCxlHostLink port st s
  | .domainStart num devs => execDomainStart num devs s
  | .uncorrectableError wh pa => execUncorrectableError wh pa s
  | .correctedError => execCorrectedError s

end Sys2Proof.Machine
end

