-- ==== Sys2Proof/Machine/Clock.lean ====
section
/-! DEFINITION. The passing of time and the events it brings due: windows (R152), the divider (R103), write-combining drains (R219), queue rechecks
(R362), the reach limit (R246), the ends of teams and saves (R358, R396), task ages and balancing (R357, R368, R369), the
watchdog (R392), packets' ages and injection (R240, R241) and the power meter (R414). -/

namespace Sys2Proof.Machine

/-- A multiple of n lies in the cycles after `was`, up to `now`. -/
def crosses (n was now : Nat) : Bool := decide (was / n < now / n)

/-- Windows of event classes that start (R152). -/
def State.dueWindows (s : State) (was now : Nat) : List Event :=
  (s.teams.filter (fun (_, t) => t.st == .resident || t.st == .draining)).flatMap (fun (k, t) =>
    ((List.range 6).filter (fun c => crosses (windowCycles (tget 0 t.evth c)) was now && tget 0 t.window c != 0)).map (fun c =>
      .eventWindowReset k c))

/-- Lines of write-combining buffers that are 1,024 cycles old (R219). -/
def State.dueDrains (s : State) (now : Nat) : List Event :=
  s.clusters.flatMap (fun (cl, c) => (c.wc.filter (fun (_, l) => decide (l.since + 1024 ≤ now) && !l.leaving)).map (fun (n, _) => .wcDrain cl n))

/-- Operations of dividers whose slots have passed (R103). -/
def State.dueDivides (s : State) (now : Nat) : List Event :=
  s.clusters.flatMap (fun (cl, c) => (c.divq.filter (fun (_, ops) => (ops.head?.map (fun op => decide (op.due ≤ now))).getD false)).map
    (fun (core, _) => .dividerComplete cl core))

/-- Requests to other devices that have had no reply within the reach limit (R246), and copies in that case (R259). -/
def State.dueLimits (s : State) (now : Nat) : List Event :=
  let late := fun (n : Nat) => decide (n + Config.reachLimit ≤ now)
  ((s.txns.filter (fun (_, t) => late (t.left.getD t.issued) && t.lanes.any (fun p => !p.arrived && (locDev p.loc).isSome))).map (fun (x, _) =>
    .reachLimit x)) ++
  ((s.reqs.filter (fun (x, r) => late r.issued && r.ended.isNone && s.unanswered x r)).map (fun (x, _) =>
    .reachLimit x)) ++
  ((s.chunks.filter (fun (_, k) => late k.issued && !k.work.isEmpty && decide (1000 ≤ k.home))).map (fun (x, _) => .reachLimit x))

/-- Engines that may take a request that waits (R334, R414). -/
def State.dueGrants (s : State) : List Event :=
  s.clusters.flatMap (fun (cl, c) =>
    (((c.reserve.filter (fun r => !r.granted)).map (·.engine)).eraseDups.filter (fun e =>
      (s.nextGrant cl e).isSome && !c.engines.any (fun (_, x) => x.ramping))).map (Event.passGrant cl))

/-- Ends and saves of teams, and borrows waited for too long (R196, R358, R396). -/
def State.dueTeams (s : State) : List Event :=
  s.teams.flatMap (fun (k, t) =>
    (if t.st == .ending then [Event.teamEnd k] else []) ++
    (if t.st == .draining && s.drained k then [.preemptSave k] else []) ++
    (if s.borrowStuck k then [.borrowWaitPreempt k] else []))

/-- Tasks whose loads are tried again, and tasks that have waited long (R357, R368). -/
def State.dueTasks (s : State) (now : Nat) : List Event :=
  s.tasks.flatMap (fun (k, t) =>
    (if t.st == .retry && decide (t.refused + 4096 ≤ now) then [Event.loadRetry k] else []) ++
    (if !t.promoted && t.st != .queued && decide (t.fed + 2 ^ 20 ≤ now) then [.taskAgePromote k] else []))

/-- Clusters of a die that the state does not list, the lowest m: they have never had work. -/
def State.freshClusters (s : State) (die m : Nat) : List Nat :=
  if !s.dieUp die then [] else
  let listed := (s.clusters.filter (fun (x : Nat × Cluster) => x.1 / 2048 == die)).map (fun (x : Nat × Cluster) => x.1)
  (((List.range (min Config.clustersPerDie (listed.length + m))).map (fun i => 2048 * die + i)).filter (fun k => !listed.contains k)).take m

/-- Idle clusters to which a steal may bring a task: those of the dies that have work and of their neighbours. Of the clusters that have never
had work, as many as their die has tasks in queues, and at least one, are asked. -/
def State.idleClusters (s : State) (dies : List Nat) : List Nat :=
  let queued := fun (d : Nat) => ((s.clusters.filter (fun (x : Nat × Cluster) => x.1 / 2048 == d)).map (fun (x : Nat × Cluster) => x.2.queue.length)).sum
  (s.clusters.filter (fun (_, c) => c.queue.isEmpty)).map (·.1) ++
    ((dies ++ dies.flatMap s.neighbours).eraseDups).flatMap (fun d => s.freshClusters d (max 1 (queued d)))

/-- Balancing (R369). -/
def State.dueBalance (s : State) (was now : Nat) : List Event :=
  let dies := ((s.clusters.filter (fun (x : Nat × Cluster) => !x.2.queue.isEmpty)).map (fun (x : Nat × Cluster) => x.1 / 2048) ++
    (s.ranges.filter (fun (x : Nat × List Range) => !x.2.isEmpty)).map (fun (x : Nat × List Range) => x.1)).eraseDups
  (if crosses 64 was now then dies.map Event.depthExchange else []) ++
  (if crosses 1024 was now then dies.map Event.dieDepthExchange else []) ++
  (if crosses 256 was now && !dies.isEmpty then (s.idleClusters dies).map Event.steal else [])

/-- Queues that read their counters again (R362). -/
def State.dueQueues (s : State) (was now : Nat) : List Event :=
  if crosses 4096 was now then (s.queues.filter (fun (_, q) => q.waiting)).map (fun (n, _) => .waitRecheck n) else []

/-- Packets that become old, and sources that starve (R240, R241). -/
def State.duePackets (s : State) (now : Nat) : List Event :=
  (s.net.packets.filter (fun (_, k) => !k.old && decide (2 ^ 19 ≤ s.ageUnits k))).map (fun (p, _) => Event.packetOld p) ++
  (s.net.packets.filter (fun (_, k) => k.waiting && decide (k.since + 64 ≤ now) && !s.net.starving.contains k.at_)).map (fun (_, k) =>
    .injectStarve k.at_)

/-- The power meter of an awake device: what it draws is a free value (R414). -/
def State.dueMeter (s : State) (was now : Nat) : List Event :=
  if s.awake && crosses 1024 was now then [.powerMeter (Config.freePick s.free 40000)] else []

/-- The watchdog count of a group over the cycles passed in which it issued nothing (R392). -/
def State.watch (s : State) (was now : Nat) (g : Group) : Group :=
  if s.dogLimit g = 0 || s.teamStopped (s.teamOf g.team) || !g.watched then g
  else { g with dog := g.dog + (now - max was (g.last + 2)) }

/-- Groups whose watchdog has reached its limit. -/
def State.dueDogs (s : State) : List Event :=
  (s.groups.filter (fun (_, g) => s.dogLimit g != 0 && decide (s.dogLimit g ≤ g.dog))).map (fun (k, _) => .watchdog k)

/-- A group that is not ready starts to count its wait from now (R370). -/
def State.notReady (s : State) (now k : Nat) (g : Group) : Group :=
  if s.canTry k g && g.yielded == 0 then g else { g with stood := now }

/-- The group's team drains for its save. -/
def State.draining (s : State) (g : Group) : Bool := (s.teamOf g.team).st == .draining

/-- Borrows that other devices hold at homes of a peer come back when their holders choose, one at a time, and the home re-evaluates its waiting
requests (R186, R427). DESIGN CHOICE, log 53. -/
def State.peerReturns (s : State) : State :=
  s.peers.foldl (fun s' (d, p) =>
    if p.holds.isEmpty || !Config.freeBit (s.free + d) then s'
    else ({ s' with peers := tput s'.peers d { s'.peer d with holds := p.holds.drop 1 } }).reevaluate (1000 + d)) s

/-- Time passes: where the timers are behind the clock they are brought up to it, otherwise one slot goes by. Trips of earlier cycles
fall due (R155). -/
def State.tick (s : State) : State :=
  let was := s.ticked
  let now := if s.ticked < s.cycle then s.cycle else s.cycle + 2
  let s0 := s.teams.foldl (fun s' (x : Nat × Team) => s'.raiseTrips x.1 (some now)) s
  let s1 := { s0 with cycle := now, ticked := now, stalled := [], free := s0.free + 1 }
  let s2 := { s1 with groups := s1.groups.map (fun (x : Nat × Group) =>
    (x.1, s.notReady now x.1 (if s.draining x.2 then (s1.watch was now x.2).front else s1.watch was now x.2))) }
  let s3 := s2.pumpRequests.peerReturns
  (s3.dueWindows was now ++ s3.dueDrains now ++ s3.dueDivides now ++ s3.dueGrants ++ s3.dueLimits now ++ s3.dueTeams ++ s3.dueTasks now ++ s3.dueBalance was now ++
    s3.dueQueues was now ++ s3.duePackets now ++ s3.dueMeter was now ++ s3.dueDogs).foldl State.oweOnce s3

end Sys2Proof.Machine
end

