-- ==== Sys2Proof/Machine/Loading.lean ====
section
/-! DEFINITION. Placing one instruction where the next step fetches it: in the code of the group that issues next, or, where no
group can issue (as after reset), in the code of a small launch of 32 items that stands loaded (DESIGN CHOICE, log 6). -/

namespace Sys2Proof.Machine

/-- The code base of the canonical launch, and its page. -/
def loadBase : Nat := 0x10000

/-- The canonical launch: one team of one group on the first cluster of die 0, context 0, its code page pinned as it stands. -/
def State.canonical (s : State) : State :=
  let pin : PagePin := { ctx := 0, va := loadBase, pa := loadBase, bits := 12, ptype := 0, xp := true, w := false, rd := true }
  let lcb : Lcb := { codeBase := loadBase, codeLen := 0x1000, handler := loadBase }
  { s with
    cur := 0
    groups := [(0, { cur := { mask := BitVec.allOnes 32, pc := BitVec.ofNat 64 loadBase, st := .ready, id := 1 } })]
    stalled := []
    teams := tput s.teams 0 { st := .resident, launch := 0 }
    launches := tput s.launches 0 { st := .running, items := 32, started := 1, next := 1, pins := [pin], lcb := lcb }
    ctxs := tput s.ctxs 0 { s.ctxOf 0 with halted := false }
    stopped := []
    awake := true
    stage := 20 }

/-- Group k can fetch its next word now. -/
def State.canFetch (s : State) (k : Nat) : Bool :=
  let s1 := { s with cur := k }
  s1.grp.dueTrap.isNone && (s1.codePa s1.grp.cur.pc.toNat).isSome

/-- Store a word at the PC of group k, drop the cached copy of it, have the group's instruction buffer hold it, and the next step issue. -/
def State.storeAtPc (s : State) (k w : Nat) : State :=
  let s1 := { s with cur := k, turns := [1] }
  match s1.codePa s1.grp.cur.pc.toNat with
  | none => s1
  | some pa =>
    let c := s1.cluster
    { (s1.setGrp { s1.grp with ibuf := [(pa, BitVec.ofNat 32 w)] }).setCluster { c with icache := tdel c.icache pa } with mem := writeLe s1.mem pa w 4 }

/-- The state whose next step runs the instruction of word w. -/
def State.placeWord (s : State) (w : Nat) : State :=
  match s.pick with
  | some k => if s.canFetch k then s.storeAtPc k w else s.canonical.storeAtPc 0 w
  | none => s.canonical.storeAtPc 0 w

end Sys2Proof.Machine
end

