-- ==== Sys2Proof/Machine/Dispatch.lean ====
section
/-! DEFINITION. The meaning of every instruction and event, one arm each. -/

namespace Sys2Proof.Machine

def exec (i : Instr) (s : State) : Host.Outcome State Fault Refusal :=
  match i with
  | .br sc o => Sys2Proof.Machine.execBr sc o s
  | .call sc o => Sys2Proof.Machine.execCall sc o s
  | .fuse sc o => Sys2Proof.Machine.execFuse sc o s
  | .brt a n => Sys2Proof.Machine.execBrt a n s
  | .bra sc a => Sys2Proof.Machine.execBra sc a s
  | .calla sc a => Sys2Proof.Machine.execCalla sc a s
  | .ret sc => Sys2Proof.Machine.execRet sc s
  | .join sc => Sys2Proof.Machine.execJoin sc s
  | .yield sc => Sys2Proof.Machine.execYield sc s
  | .exit sc => Sys2Proof.Machine.execExit sc s
  | .nop sc => Sys2Proof.Machine.execNop sc s
  | .mode sc m => Sys2Proof.Machine.execMode sc m s
  | .modg sc n p => Sys2Proof.Machine.execModg sc n p s
  | .add sc d a b => Sys2Proof.Machine.execAdd sc d a b s
  | .sub sc d a b => Sys2Proof.Machine.execSub sc d a b s
  | .mul sc d a b => Sys2Proof.Machine.execMul sc d a b s
  | .mulh sc d a b => Sys2Proof.Machine.execMulh sc d a b s
  | .div d a b => Sys2Proof.Machine.execDiv d a b s
  | .rem d a b => Sys2Proof.Machine.execRem d a b s
  | .min sc d a b => Sys2Proof.Machine.execMin sc d a b s
  | .max sc d a b => Sys2Proof.Machine.execMax sc d a b s
  | .abs sc d a => Sys2Proof.Machine.execAbs sc d a s
  | .neg sc d a => Sys2Proof.Machine.execNeg sc d a s
  | .lea sc d a b x => Sys2Proof.Machine.execLea sc d a b x s
  | .and sc d a b => Sys2Proof.Machine.execAnd sc d a b s
  | .or sc d a b => Sys2Proof.Machine.execOr sc d a b s
  | .xor sc d a b => Sys2Proof.Machine.execXor sc d a b s
  | .andn sc d a b => Sys2Proof.Machine.execAndn sc d a b s
  | .not sc d a => Sys2Proof.Machine.execNot sc d a s
  | .shl sc d a b => Sys2Proof.Machine.execShl sc d a b s
  | .shr sc d a b => Sys2Proof.Machine.execShr sc d a b s
  | .sra sc d a b => Sys2Proof.Machine.execSra sc d a b s
  | .rotl sc d a b => Sys2Proof.Machine.execRotl sc d a b s
  | .clz sc d a => Sys2Proof.Machine.execClz sc d a s
  | .ctz sc d a => Sys2Proof.Machine.execCtz sc d a s
  | .popc sc d a => Sys2Proof.Machine.execPopc sc d a s
  | .brev sc d a => Sys2Proof.Machine.execBrev sc d a s
  | .bext sc d a b => Sys2Proof.Machine.execBext sc d a b s
  | .bins sc d a b => Sys2Proof.Machine.execBins sc d a b s
  | .mov sc d a => Sys2Proof.Machine.execMov sc d a s
  | .ext sc d a w => Sys2Proof.Machine.execExt sc d a w s
  | .cvti sc d a e => Sys2Proof.Machine.execCvti sc d a e s
  | .mad sc d a b c => Sys2Proof.Machine.execMad sc d a b c s
  | .madh sc d a b c => Sys2Proof.Machine.execMadh sc d a b c s
  | .cmpEq sc d a b => Sys2Proof.Machine.execCmpEq sc d a b s
  | .cmpNe sc d a b => Sys2Proof.Machine.execCmpNe sc d a b s
  | .cmpLt sc d a b => Sys2Proof.Machine.execCmpLt sc d a b s
  | .cmpLe sc d a b => Sys2Proof.Machine.execCmpLe sc d a b s
  | .cmpGt sc d a b => Sys2Proof.Machine.execCmpGt sc d a b s
  | .cmpGe sc d a b => Sys2Proof.Machine.execCmpGe sc d a b s
  | .sel sc d a b n p => Sys2Proof.Machine.execSel sc d a b n p s
  | .shflAt sc d a b => Sys2Proof.Machine.execShflAt sc d a b s
  | .shflRise sc d a b => Sys2Proof.Machine.execShflRise sc d a b s
  | .shflFall sc d a b => Sys2Proof.Machine.execShflFall sc d a b s
  | .shflFlip sc d a b => Sys2Proof.Machine.execShflFlip sc d a b s
  | .voteAny sc d a => Sys2Proof.Machine.execVoteAny sc d a s
  | .voteAll sc d a => Sys2Proof.Machine.execVoteAll sc d a s
  | .voteBallot sc d a => Sys2Proof.Machine.execVoteBallot sc d a s
  | .scanAdd sc d a => Sys2Proof.Machine.execScanAdd sc d a s
  | .scanMin sc d a => Sys2Proof.Machine.execScanMin sc d a s
  | .scanMax sc d a => Sys2Proof.Machine.execScanMax sc d a s
  | .scanAddx sc d a => Sys2Proof.Machine.execScanAddx sc d a s
  | .pand sc d a b => Sys2Proof.Machine.execPand sc d a b s
  | .por sc d a b => Sys2Proof.Machine.execPor sc d a b s
  | .pxor sc d a b => Sys2Proof.Machine.execPxor sc d a b s
  | .pnot sc d a => Sys2Proof.Machine.execPnot sc d a s
  | .movi sc d im => Sys2Proof.Machine.execMovi sc d im s
  | .movu sc d im => Sys2Proof.Machine.execMovu sc d im s
  | .addi sc d a im => Sys2Proof.Machine.execAddi sc d a im s
  | .andi sc d a im => Sys2Proof.Machine.execAndi sc d a im s
  | .ori sc d a im => Sys2Proof.Machine.execOri sc d a im s
  | .xori sc d a im => Sys2Proof.Machine.execXori sc d a im s
  | .shli sc d a c => Sys2Proof.Machine.execShli sc d a c s
  | .shri sc d a c => Sys2Proof.Machine.execShri sc d a c s
  | .fma sc d a b c => Sys2Proof.Machine.execFma sc d a b c s
  | .fadd sc d a b => Sys2Proof.Machine.execFadd sc d a b s
  | .fsub sc d a b => Sys2Proof.Machine.execFsub sc d a b s
  | .fmul sc d a b => Sys2Proof.Machine.execFmul sc d a b s
  | .fmin sc d a b => Sys2Proof.Machine.execFmin sc d a b s
  | .fmax sc d a b => Sys2Proof.Machine.execFmax sc d a b s
  | .fabs sc d a => Sys2Proof.Machine.execFabs sc d a s
  | .fneg sc d a => Sys2Proof.Machine.execFneg sc d a s
  | .fdiv d a b => Sys2Proof.Machine.execFdiv d a b s
  | .fsqrt d a => Sys2Proof.Machine.execFsqrt d a s
  | .frcp sc d a => Sys2Proof.Machine.execFrcp sc d a s
  | .frsq sc d a => Sys2Proof.Machine.execFrsq sc d a s
  | .fexp2 sc d a => Sys2Proof.Machine.execFexp2 sc d a s
  | .flog2 sc d a => Sys2Proof.Machine.execFlog2 sc d a s
  | .fdot2 sc d a b => Sys2Proof.Machine.execFdot2 sc d a b s
  | .fclass sc d a => Sys2Proof.Machine.execFclass sc d a s
  | .fcmpEq sc d a b => Sys2Proof.Machine.execFcmpEq sc d a b s
  | .fcmpNe sc d a b => Sys2Proof.Machine.execFcmpNe sc d a b s
  | .fcmpLt sc d a b => Sys2Proof.Machine.execFcmpLt sc d a b s
  | .fcmpLe sc d a b => Sys2Proof.Machine.execFcmpLe sc d a b s
  | .fcmpGt sc d a b => Sys2Proof.Machine.execFcmpGt sc d a b s
  | .fcmpGe sc d a b => Sys2Proof.Machine.execFcmpGe sc d a b s
  | .fcmpUn sc d a b => Sys2Proof.Machine.execFcmpUn sc d a b s
  | .fcmpOr sc d a b => Sys2Proof.Machine.execFcmpOr sc d a b s
  | .fcvt sc d a e => Sys2Proof.Machine.execFcvt sc d a e s
  | .sxpk sc d a l f => Sys2Proof.Machine.execSxpk sc d a l f s
  | .sxupk sc d a l f => Sys2Proof.Machine.execSxupk sc d a l f s
  | .zpk sc d a l f => Sys2Proof.Machine.execZpk sc d a l f s
  | .zupk sc d a l f => Sys2Proof.Machine.execZupk sc d a l f s
  | .evrd d c => Sys2Proof.Machine.execEvrd d c s
  | .evclr c => Sys2Proof.Machine.execEvclr c s
  | .rds sc d n => Sys2Proof.Machine.execRds sc d n s
  | .wrs sc d n => Sys2Proof.Machine.execWrs sc d n s
  | .pub a j => Sys2Proof.Machine.execPub a j s
  | .cdef d j k => Sys2Proof.Machine.execCdef d j k s
  | .borX d a b => Sys2Proof.Machine.execBorX d a b s
  | .borS d a b => Sys2Proof.Machine.execBorS d a b s
  | .borC d a b => Sys2Proof.Machine.execBorC d a b s
  | .borXW d a b => Sys2Proof.Machine.execBorXW d a b s
  | .borSW d a b => Sys2Proof.Machine.execBorSW d a b s
  | .borCW d a b => Sys2Proof.Machine.execBorCW d a b s
  | .bdown b => Sys2Proof.Machine.execBdown b s
  | .bup d b => Sys2Proof.Machine.execBup d b s
  | .bsplit d a b => Sys2Proof.Machine.execBsplit d a b s
  | .bjoin d b => Sys2Proof.Machine.execBjoin d b s
  | .bhand a b => Sys2Proof.Machine.execBhand a b s
  | .bret b => Sys2Proof.Machine.execBret b s
  | .bquery d b => Sys2Proof.Machine.execBquery d b s
  | .ld d g a k z h => Sys2Proof.Machine.execLd d g a k z h s
  | .st d g a k z h => Sys2Proof.Machine.execSt d g a k z h s
  | .pref g a k h => Sys2Proof.Machine.execPref g a k h s
  | .ldl d a z => Sys2Proof.Machine.execLdl d a z s
  | .stl d a z => Sys2Proof.Machine.execStl d a z s
  | .ldc d a z => Sys2Proof.Machine.execLdc d a z s
  | .stc d a z => Sys2Proof.Machine.execStc d a z s
  | .cvtaGl sc d a => Sys2Proof.Machine.execCvtaGl sc d a s
  | .cvtaGc sc d a => Sys2Proof.Machine.execCvtaGc sc d a s
  | .cvtaLg sc d a => Sys2Proof.Machine.execCvtaLg sc d a s
  | .cvtaCg sc d a => Sys2Proof.Machine.execCvtaCg sc d a s
  | .inapGlobal sc d a => Sys2Proof.Machine.execInapGlobal sc d a s
  | .inapPeer sc d a => Sys2Proof.Machine.execInapPeer sc d a s
  | .inapCluster sc d a => Sys2Proof.Machine.execInapCluster sc d a s
  | .inapLocal sc d a => Sys2Proof.Machine.execInapLocal sc d a s
  | .bankset a b => Sys2Proof.Machine.execBankset a b s
  | .fput a b => Sys2Proof.Machine.execFput a b s
  | .fget d a => Sys2Proof.Machine.execFget d a s
  | .waitc m => Sys2Proof.Machine.execWaitc m s
  | .rld d p o k g => Sys2Proof.Machine.execRld d p o k g s
  | .rst d p o k g => Sys2Proof.Machine.execRst d p o k g s
  | .ratmAdd d p o k g => Sys2Proof.Machine.execRatmAdd d p o k g s
  | .ratmXchg d p o k g => Sys2Proof.Machine.execRatmXchg d p o k g s
  | .ratmCas d p o k g => Sys2Proof.Machine.execRatmCas d p o k g s
  | .aadd q d g a k => Sys2Proof.Machine.execAadd q d g a k s
  | .asub q d g a k => Sys2Proof.Machine.execAsub q d g a k s
  | .amin q d g a k => Sys2Proof.Machine.execAmin q d g a k s
  | .amax q d g a k => Sys2Proof.Machine.execAmax q d g a k s
  | .aand q d g a k => Sys2Proof.Machine.execAand q d g a k s
  | .aor q d g a k => Sys2Proof.Machine.execAor q d g a k s
  | .axor q d g a k => Sys2Proof.Machine.execAxor q d g a k s
  | .axchg q d g a k => Sys2Proof.Machine.execAxchg q d g a k s
  | .acas q d g a k => Sys2Proof.Machine.execAcas q d g a k s
  | .ainc q d g a k => Sys2Proof.Machine.execAinc q d g a k s
  | .adec q d g a k => Sys2Proof.Machine.execAdec q d g a k s
  | .afadd q d g a k => Sys2Proof.Machine.execAfadd q d g a k s
  | .ald q d g a k => Sys2Proof.Machine.execAld q d g a k s
  | .ast q d g a k => Sys2Proof.Machine.execAst q d g a k s
  | .ahint h g => Sys2Proof.Machine.execAhint h g s
  | .cpl d a b => Sys2Proof.Machine.execCpl d a b s
  | .cpb d a b => Sys2Proof.Machine.execCpb d a b s
  | .cprAdd d a b => Sys2Proof.Machine.execCprAdd d a b s
  | .cprMin d a b => Sys2Proof.Machine.execCprMin d a b s
  | .cprMax d a b => Sys2Proof.Machine.execCprMax d a b s
  | .cprFadd d a b => Sys2Proof.Machine.execCprFadd d a b s
  | .winit d a b => Sys2Proof.Machine.execWinit d a b s
  | .wexp d a => Sys2Proof.Machine.execWexp d a s
  | .warr d => Sys2Proof.Machine.execWarr d s
  | .wwait d => Sys2Proof.Machine.execWwait d s
  | .wtest d a => Sys2Proof.Machine.execWtest d a s
  | .fence r k => Sys2Proof.Machine.execFence r k s
  | .fencei => Sys2Proof.Machine.execFencei s
  | .fencer a b r k => Sys2Proof.Machine.execFencer a b r k s
  | .mclaim d => Sys2Proof.Machine.execMclaim d s
  | .mrel d => Sys2Proof.Machine.execMrel d s
  | .mld d a b => Sys2Proof.Machine.execMld d a b s
  | .mst d a b => Sys2Proof.Machine.execMst d a b s
  | .mzero d => Sys2Proof.Machine.execMzero d s
  | .macc d a => Sys2Proof.Machine.execMacc d a s
  | .mshape d a => Sys2Proof.Machine.execMshape d a s
  | .mma d a b c => Sys2Proof.Machine.execMma d a b c s
  | .spawn d a b => Sys2Proof.Machine.execSpawn d a b s
  | .spawnh d a b => Sys2Proof.Machine.execSpawnh d a b s
  | .bin d a => Sys2Proof.Machine.execBin d a s
  | .patch a b => Sys2Proof.Machine.execPatch a b s
  | .release a => Sys2Proof.Machine.execRelease a s
  | .trap sc n => Sys2Proof.Machine.execTrap sc n s
  | .tret => Sys2Proof.Machine.execTret s
  | .tlbi a b => Sys2Proof.Machine.execTlbi a b s
  | .preempt a => Sys2Proof.Machine.execPreempt a s
  | .halt => Sys2Proof.Machine.execHalt s
  | .brk sc n => Sys2Proof.Machine.execBrk sc n s
  | .rdsp d n => Sys2Proof.Machine.execRdsp d n s
  | .wrsp d n => Sys2Proof.Machine.execWrsp d n s
  | .deferredTrap g => Sys2Proof.Machine.execDeferredTrap g s
  | .yieldEnd g => Sys2Proof.Machine.execYieldEnd g s
  | .carryMessage l im j => Sys2Proof.Machine.execCarryMessage l im j s
  | .carryFetch l im j g => Sys2Proof.Machine.execCarryFetch l im j g s
  | .eventWindowReset t c => Sys2Proof.Machine.execEventWindowReset t c s
  | .loadReply x => Sys2Proof.Machine.execLoadReply x s
  | .storeAck x => Sys2Proof.Machine.execStoreAck x s
  | .homeRequest x => Sys2Proof.Machine.execHomeRequest x s
  | .wcDrain cl n => Sys2Proof.Machine.execWcDrain cl n s
  | .req n => Sys2Proof.Machine.execReq n s
  | .grant n => Sys2Proof.Machine.execGrant n s
  | .refuse n => Sys2Proof.Machine.execRefuse n s
  | .recall n => Sys2Proof.Machine.execRecall n s
  | .giveup n => Sys2Proof.Machine.execGiveup n s
  | .retSlip n => Sys2Proof.Machine.execRetSlip n s
  | .down n => Sys2Proof.Machine.execDown n s
  | .up n => Sys2Proof.Machine.execUp n s
  | .reloc n => Sys2Proof.Machine.execReloc n s
  | .hold n => Sys2Proof.Machine.execHold n s
  | .ack n => Sys2Proof.Machine.execAck n s
  | .slipResend n => Sys2Proof.Machine.execSlipResend n s
  | .invalidate n => Sys2Proof.Machine.execInvalidate n s
  | .forward n => Sys2Proof.Machine.execForward n s
  | .gone n => Sys2Proof.Machine.execGone n s
  | .writeBack n => Sys2Proof.Machine.execWriteBack n s
  | .pageRecall n => Sys2Proof.Machine.execPageRecall n s
  | .commonsResend n => Sys2Proof.Machine.execCommonsResend n s
  | .sweepMarker n => Sys2Proof.Machine.execSweepMarker n s
  | .sweepAck n => Sys2Proof.Machine.execSweepAck n s
  | .packetArrive die => Sys2Proof.Machine.execPacketArrive die s
  | .packetOld p => Sys2Proof.Machine.execPacketOld p s
  | .injectStarve die => Sys2Proof.Machine.execInjectStarve die s
  | .fabricPacket p => Sys2Proof.Machine.execFabricPacket p s
  | .creditReturn dev plane => Sys2Proof.Machine.execCreditReturn dev plane s
  | .reachLimit x => Sys2Proof.Machine.execReachLimit x s
  | .flitReceive lk q crcOk => Sys2Proof.Machine.execFlitReceive lk q crcOk s
  | .replayRequest lk q => Sys2Proof.Machine.execReplayRequest lk q s
  | .linkRetrain lk => Sys2Proof.Machine.execLinkRetrain lk s
  | .linkSettle lk sideband => Sys2Proof.Machine.execLinkSettle lk sideband s
  | .linkRetire lk => Sys2Proof.Machine.execLinkRetire lk s
  | .chunk n => Sys2Proof.Machine.execChunk n s
  | .chunkAck n => Sys2Proof.Machine.execChunkAck n s
  | .chunkRetry n => Sys2Proof.Machine.execChunkRetry n s
  | .chunkResend n => Sys2Proof.Machine.execChunkResend n s
  | .close home st => Sys2Proof.Machine.execClose home st s
  | .copyComplete c => Sys2Proof.Machine.execCopyComplete c s
  | .passGrant cl e => Sys2Proof.Machine.execPassGrant cl e s
  | .passComplete cl e => Sys2Proof.Machine.execPassComplete cl e s
  | .rampEnd cl e => Sys2Proof.Machine.execRampEnd cl e s
  | .launchEntry q => Sys2Proof.Machine.execLaunchEntry q s
  | .waitEntry q => Sys2Proof.Machine.execWaitEntry q s
  | .waitRecheck q => Sys2Proof.Machine.execWaitRecheck q s
  | .signalEntry q => Sys2Proof.Machine.execSignalEntry q s
  | .nopEntry q => Sys2Proof.Machine.execNopEntry q s
  | .qctlWrite q val => Sys2Proof.Machine.execQctlWrite q val s
  | .qtailWrite q val => Sys2Proof.Machine.execQtailWrite q val s
  | .haltClear q => Sys2Proof.Machine.execHaltClear q s
  | .ovfClear q => Sys2Proof.Machine.execOvfClear q s
  | .registerWrite page num val => Sys2Proof.Machine.execRegisterWrite page num val s
  | .phloWrite val => Sys2Proof.Machine.execPhloWrite val s
  | .phhiWrite val => Sys2Proof.Machine.execPhhiWrite val s
  | .exloWrite val => Sys2Proof.Machine.execExloWrite val s
  | .exhiWrite val => Sys2Proof.Machine.execExhiWrite val s
  | .taintClear val => Sys2Proof.Machine.execTaintClear val s
  | .taintClearDone => Sys2Proof.Machine.execTaintClearDone s
  | .kill val => Sys2Proof.Machine.execKill val s
  | .killComplete => Sys2Proof.Machine.execKillComplete s
  | .run val => Sys2Proof.Machine.execRun val s
  | .preq val => Sys2Proof.Machine.execPreq val s
  | .symcmdTake => Sys2Proof.Machine.execSymcmdTake s
  | .symcmdReturn => Sys2Proof.Machine.execSymcmdReturn s
  | .symTakeEnd => Sys2Proof.Machine.execSymTakeEnd s
  | .biasToDevice he val => Sys2Proof.Machine.execBiasToDevice he val s
  | .biasToHost he val => Sys2Proof.Machine.execBiasToHost he val s
  | .cxlHostAccess port wr pa val => Sys2Proof.Machine.execCxlHostAccess port wr pa val s
  | .ccAccess wr pa n val => Sys2Proof.Machine.execCcAccess wr pa n val s
  | .getVersion port => Sys2Proof.Machine.execGetVersion port s
  | .getCapabilities port => Sys2Proof.Machine.execGetCapabilities port s
  | .negotiateAlgorithms port asym hash => Sys2Proof.Machine.execNegotiateAlgorithms port asym hash s
  | .getDigests port => Sys2Proof.Machine.execGetDigests port s
  | .getCertificate port => Sys2Proof.Machine.execGetCertificate port s
  | .challenge port nonce => Sys2Proof.Machine.execChallenge port nonce s
  | .getMeasurements port idx => Sys2Proof.Machine.execGetMeasurements port idx s
  | .keyExchange port => Sys2Proof.Machine.execKeyExchange port s
  | .reset ok0 ok1 => Sys2Proof.Machine.execReset ok0 ok1 s
  | .powerUpWave => Sys2Proof.Machine.execPowerUpWave s
  | .powerMeter draw => Sys2Proof.Machine.execPowerMeter draw s
  | .teamStart k => Sys2Proof.Machine.execTeamStart k s
  | .regionLoad k => Sys2Proof.Machine.execRegionLoad k s
  | .loadRetry k => Sys2Proof.Machine.execLoadRetry k s
  | .teamEnd t => Sys2Proof.Machine.execTeamEnd t s
  | .launchComplete l => Sys2Proof.Machine.execLaunchComplete l s
  | .depthExchange die => Sys2Proof.Machine.execDepthExchange die s
  | .dieDepthExchange die => Sys2Proof.Machine.execDieDepthExchange die s
  | .steal cl => Sys2Proof.Machine.execSteal cl s
  | .taskAgePromote k => Sys2Proof.Machine.execTaskAgePromote k s
  | .boost l => Sys2Proof.Machine.execBoost l s
  | .budgetExceeded l => Sys2Proof.Machine.execBudgetExceeded l s
  | .budgetEnd l => Sys2Proof.Machine.execBudgetEnd l s
  | .watchdog g => Sys2Proof.Machine.execWatchdog g s
  | .borrowWaitPreempt t => Sys2Proof.Machine.execBorrowWaitPreempt t s
  | .preemption t => Sys2Proof.Machine.execPreemption t s
  | .preemptSave t => Sys2Proof.Machine.execPreemptSave t s
  | .resume t => Sys2Proof.Machine.execResume t s
  | .dividerComplete cl core => Sys2Proof.Machine.execDividerComplete cl core s
  | .computePhaseEnd cl e => Sys2Proof.Machine.execComputePhaseEnd cl e s
  | .tableWalkEnd w => Sys2Proof.Machine.execTableWalkEnd w s
  | .birspi he data => Sys2Proof.Machine.execBirspi he data s
  | .cxlHostLink port st => Sys2Proof.Machine.execCxlHostLink port st s
  | .domainStart num devs => Sys2Proof.Machine.execDomainStart num devs s
  | .uncorrectableError wh pa => Sys2Proof.Machine.execUncorrectableError wh pa s
  | .correctedError => Sys2Proof.Machine.execCorrectedError s

end Sys2Proof.Machine
end

