-- ==== Sys2Proof/Machine/Ready.lean ====
section
/-! DEFINITION. The issue of one group, and which groups can issue in the cycle (R370). -/

namespace Sys2Proof.Machine

/-- The group k issues: a trip of its team falls due (R155) and a due deferred trap is taken first (R382); then the word at the selected fragment's PC is fetched (R60),
decoded (R35) and run. A word that is poisoned stops the fault domain (R417). -/
def issueStep (s : State) (k : Nat) : Host.Outcome State Fault Refusal :=
  let s1 := { s with cur := k }.raiseTrips (s.group k).team none
  match s1.grp.dueTrap with
  | some _ => execDeferredTrap k s1
  | none =>
    match s1.fetch s1.grp.cur.pc.toNat with
    | .outside => .next (s1.trap 1 1)
    | .poisoned => .next (s1.stopDomain (s1.team.ctx, s1.launch.lcb.fdom))
    | .word w s2 =>
      match decode w.toNat with
      | .error d => .next (s2.trap 1 d)
      | .ok i => exec i s2

/-- The group's fragment would stand in its slot if it were tried now: a source, a destination or a unit it needs is not ready (R25, R26,
R370). A fence and the like that begin to wait have issued. -/
def State.wouldStand (s : State) (k : Nat) : Bool :=
  match issueStep s k with
  | .next t => t.stalled.contains k && ((t.group k).cur.wait == .slot || (s.group k).cur.wait.goesOn)
  | _ => false

/-- A group that cannot issue in this cycle has not been ready in it (R370): its wait counts from now. Where at most one group can be tried, there
is nothing to choose. DEDUCED, log 15. -/
def State.readied (s : State) : State :=
  if s.ready.length ≤ 1 then s
  else { s with groups := s.groups.map (fun (x : Nat × Group) =>
    (x.1, if s.canTry x.1 x.2 && s.wouldStand x.1 then { x.2 with stood := s.cycle } else x.2)) }

end Sys2Proof.Machine
end

