-- ==== Sys2Proof/Machine/Step.lean ====
section
/-! DEFINITION. One step of the machine, and placing an instruction where the next step fetches. -/

namespace Sys2Proof.Machine

/-- One step: an event the device owes, the issue of one group, or the passing of time; groups that cannot issue in the cycle lose the wait
that R370 counts. -/
def step (s : State) : Host.Outcome State Fault Refusal :=
  match s.readied.move with
  | (.event e, s1) => runEvent e { s1 with stalled := [] }
  | (.issue k, s1) => issueStep s1 k
  | (.tick, s1) => .next s1.tick

/-- The state with an instruction word placed where the next step fetches. -/
def State.withFetchWord (s : State) (nbits w : Nat) : State := s.placeWord (w % 2 ^ nbits)

end Sys2Proof.Machine
end

