-- ==== Sys2Proof/Safety.lean ====
section
/-! DEFINITION. The terms in which claims about the machine are stated: what an instruction that retires leaves alone, when an
instruction's operands stand ready, and the instruction that an event of the agenda runs. -/

namespace Sys2Proof.Machine

/-! ### Frames -/

/-- A group apart from what every instruction of its own may change: registers and their poison, predicates, fragments, counted gaps, deferred traps
and the marks of its last issue. -/
def Group.fixed (g : Group) : Group :=
  { g with regs := [], bad := [], preds := [], cur := {}, rest := [], deferred := [], owed := [], dog := 0, last := 0, budgeted := false,
           sweeping := none }

/-- A team apart from its event counts (R152, R154). -/
def Team.fixed (t : Team) : Team := { t with total := [], window := [], evstat := 0, lowest := [] }

/-- A group apart from its deferred traps: a trip of its team's threshold may move one to another group of the same cycle (R155). -/
def Group.calm (g : Group) : Group := { g with deferred := [] }

/-- A launch apart from its count of slots (R372) and the note of seed bytes changed (R161). -/
def Launch.fixed (l : Launch) : Launch := { l with slots := 0, changed := [] }

/-- The device apart from its groups, teams and launches, the time, the events owed and the interrupts raised. -/
def State.fixed (s : State) : State :=
  { s with cycle := 0, groups := [], teams := [], launches := [], interrupts := [], agenda := [], free := 0, stalled := [] }

/-- From s to t nothing changed outside group k but time, slot and event counts, interrupts raised, deferred traps and events owed: not
memory, no cluster, accumulator or special register, no context, and nothing else of another group. -/
structure Frame (k : Nat) (s t : State) : Prop where
  rest : t.fixed = s.fixed
  groups : ∀ j, j ≠ k → (t.group j).calm = (s.group j).calm
  teams : ∀ j, (t.teamOf j).fixed = (s.teamOf j).fixed
  launches : ∀ j, (t.launchOf j).fixed = (s.launchOf j).fixed

/-- The issuing group goes on at the next word (R62), its other fragments as they were, and nothing of it changed but registers,
predicates and the marks of issuing; no register takes poison (R417). -/
structure Advances (s t : State) : Prop where
  cur : t.grp.cur = { s.grp.cur with pc := s.grp.cur.pc + 4, wait := .none }
  rest : t.grp.rest = s.grp.rest
  group : t.grp.fixed = s.grp.fixed
  bad : ∀ x ∈ t.grp.bad, x ∈ s.grp.bad

/-- Every vector register of the issuing group is as it was but those listed, in the lanes of T. -/
def RegsKept (s t : State) (ds : List Nat) (m : Mask) : Prop :=
  ∀ r l, l < 32 → ¬ (r ∈ ds ∧ m.getLsbD l = true) → t.grp.reg r l = s.grp.reg r l

/-- The events of a list are counted by class in the team's totals, which saturate (R152). -/
def Counted (s t : State) (evs : List Nat) : Prop :=
  ∀ c, c < 6 → tget 0 t.team.total c =
    if evs.count c = 0 then tget 0 s.team.total c else min (tget 0 s.team.total c + evs.count c) (2 ^ 32 - 1)

/-- An instruction of the issuing group completes from s to t: it changes no vector register but those of `ds` in the lanes of `m`,
no predicate, and nothing outside the group but time and counts; it counts the events `evs`; the fragment goes on at the next
word. -/
structure Completes (s t : State) (ds : List Nat) (m : Mask) (evs : List Nat) : Prop where
  frame : Frame s.cur s t
  advances : Advances s t
  regs : RegsKept s t ds m
  preds : t.grp.preds = s.grp.preds
  counted : Counted s t evs

/-- As above for an instruction that writes predicate `p` in lanes of `m` and no vector register. -/
structure CompletesPred (s t : State) (p : Nat) (m : Mask) (evs : List Nat) : Prop where
  frame : Frame s.cur s t
  advances : Advances s t
  regs : t.grp.regs = s.grp.regs
  preds : ∀ n, n ≠ p ∨ n = 0 → t.grp.pred n = s.grp.pred n
  off : ∀ l, m.getLsbD l = false → (t.grp.pred p).getLsbD l = (s.grp.pred p).getLsbD l
  counted : Counted s t evs

/-- From s, which already holds an instruction's own effect, its slot passes to t: no register or predicate changes, nothing outside
the group but time and counts, and the fragment goes on at the next word. -/
structure Passes (s t : State) (evs : List Nat) : Prop where
  frame : Frame s.cur s t
  advances : Advances s t
  regs : t.grp.regs = s.grp.regs
  preds : t.grp.preds = s.grp.preds
  counted : Counted s t evs

/-! ### Where lanes stand -/

/-- Where a lane stands (R61): all that a fragment holds for its lanes but the name the model gives it. -/
structure Place where
  pc : BitVec 64
  depth : Nat
  mode : BitVec 16
  ftop : Nat
  fv : Bool
  st : FState
  handler : Bool

def Frag.place (f : Frag) : Place :=
  { pc := f.pc, depth := f.depth, mode := f.mode, ftop := f.ftop, fv := f.fv, st := f.st, handler := f.handler }

/-- Lane l of a group stands at a place. -/
def Group.holds (g : Group) (l : Nat) (p : Place) : Prop :=
  ∃ f ∈ g.cur :: g.rest, f.st ≠ .free ∧ f.mask.getLsbD l = true ∧ f.place = p

/-- The selection stands as a re-evaluation leaves it (R65): no fragment that may be selected comes before the selected one. -/
def Group.selects (g : Group) : Prop :=
  (∃ f ∈ g.cur :: g.rest, g.selectable f = true) →
    g.selectable g.cur = true ∧ ∀ f ∈ g.rest, g.selectable f = true → f.before g.cur = false

/-- The issuing fragment's place, ready. -/
def State.here (s : State) : Place := { s.grp.cur.place with st := .ready }

/-- The issuing fragment's lanes go where `goes` says, every other fragment's lanes stay where they stood, and the selection is
re-evaluated (R64 to R66); nothing else of the group changes but registers and the marks of issuing, and nothing outside it but time
and counts. -/
structure Transfers (s t : State) (goes : Nat → Place → Prop) : Prop where
  frame : Frame s.cur s t
  group : t.grp.fixed = s.grp.fixed
  bad : ∀ x ∈ t.grp.bad, x ∈ s.grp.bad
  preds : t.grp.preds = s.grp.preds
  lanes : ∀ l p, l < 32 → (t.grp.holds l p ↔
    (s.active.getLsbD l = true ∧ goes l p) ∨ ∃ f ∈ s.grp.rest, f.st ≠ .free ∧ f.mask.getLsbD l = true ∧ f.place = p)
  selects : t.grp.selects
  counted : Counted s t []

/-! ### Readiness -/

/-- What lane l reads of a source (R161): a register, or the value of a back view. -/
def State.source (s : State) (n l : Nat) : Word :=
  if 60 ≤ n ∧ n < 64 then (match s.view (n - 60) l with | .val x => x | _ => 0) else s.grp.reg n l

/-- What lane l reads of an operand: one source, or a pair with the low word first. -/
def State.operand (s : State) (wide : Bool) (n l : Nat) : Nat :=
  if wide then (s.source n l).toNat + 2 ^ 32 * (s.source (n + 1) l).toNat else (s.source n l).toNat

/-- Nothing hinders the issuing group in reading and writing registers of these codes: no incomplete instruction is to write one
(R26), no counted gap is owed for one (R25, R27), and no copy of the group touches its local window (R298). -/
structure Unhindered (s : State) (codes : List Nat) : Prop where
  busy : ∀ c ∈ (64 + s.grp.cur.gp) :: codes, ∀ b ∈ s.grp.busy, b.1 ≠ c
  owed : ∀ c ∈ (64 + s.grp.cur.gp) :: codes, ∀ e ∈ s.grp.owed, e.code ≠ c
  foot : s.grp.foot = []

/-- Every back view among the sources is of a declared slot of an ordered launch, and published or seeded for every lane of T
(R161 to R163). -/
def State.viewsReady (s : State) (srcs : List Nat) : Prop :=
  ∀ n ∈ srcs, 60 ≤ n → n < 64 → s.launch.ordered = true ∧ (tget ({} : CarrySlot) s.launch.lcb.carry (n - 60)).valid = true ∧
    ∀ l, s.lanesT.getLsbD l = true → ∃ x, s.view (n - 60) l = .val x

/-- No register and no back view among the sources is poisoned in the lanes of m (R417). -/
def State.whole (s : State) (srcs : List Nat) (m : Mask) : Prop :=
  ∀ n ∈ srcs, ∀ l, m.getLsbD l = true → (n < 60 → 32 * n + l ∉ s.grp.bad) ∧ (60 ≤ n → n < 64 → s.viewBad (n - 60) l = false)

/-- The operands of an instruction stand ready. -/
structure Ready (s : State) (srcs dsts : List Nat) : Prop where
  free : Unhindered s (srcs ++ dsts)
  views : s.viewsReady srcs
  whole : s.whole srcs s.lanesT

/-- The operands of an instruction without a guard stand ready: it reads them for the lanes of Active(). -/
structure ReadyAll (s : State) (srcs dsts : List Nat) : Prop where
  free : Unhindered s (srcs ++ dsts)
  views : ∀ n ∈ srcs, 60 ≤ n → n < 64 → s.launch.ordered = true ∧ (tget ({} : CarrySlot) s.launch.lcb.carry (n - 60)).valid = true ∧
    ∀ l, s.active.getLsbD l = true → ∃ x, s.view (n - 60) l = .val x
  whole : s.whole srcs s.active

/-! ### Shapes of results -/

/-- An integer instruction with destination d and source fields fs can act: the element type is one of `ok`, 64-bit operands are
even pairs (R24), and the operands stand ready. -/
structure IntReady (s : State) (ok : List Nat) (d : Nat) (fs : List Nat) : Prop where
  type : s.et ∈ ok
  pairs : s.wide = true → isPair d = true ∧ ∀ f ∈ fs, isPair f = true
  ready : Ready s (fs.flatMap (regs s.wide)) (regs s.wide d)

/-- The element type in force (R30, R96). -/
def State.ity (s : State) : IntTy := intTy s.et s.grp.cur.sat

/-- The value of element e of source field k in lane l. -/
def State.elemOf (s : State) (fs : List Nat) (l e k : Nat) : Int :=
  s.ity.value (s.ity.raw (s.operand s.wide (fs.getD k 0) l) e)

/-- The instruction completes, and each element of d in each lane of T is f of the same element of the sources. -/
def Elementwise (s : State) (i : Instr) (d : Nat) (fs : List Nat) (f : IntTy → (Nat → Int) → Nat × List Nat) : Prop :=
  ∃ t, exec i s = .next t ∧
    (∀ l, s.lanesT.getLsbD l = true → ∀ e, e < s.ity.n → s.ity.raw (t.grp.val s.wide d l) e = (f s.ity (s.elemOf fs l e)).1) ∧
    Completes s t (regs s.wide d) s.lanesT
      ((lanesOf s.lanesT).flatMap (fun l => (List.range s.ity.n).flatMap (fun e => (f s.ity (s.elemOf fs l e)).2)))

/-- The instruction completes without an event, and each element of d in each lane of T stands in the relation R to the same
elements of the sources, as patterns. -/
def Elementrel (s : State) (i : Instr) (d : Nat) (fs : List Nat) (R : IntTy → (Nat → Nat) → Nat → Prop) : Prop :=
  ∃ t, exec i s = .next t ∧
    (∀ l, s.lanesT.getLsbD l = true → ∀ e, e < s.ity.n →
      R s.ity (fun k => s.ity.raw (s.operand s.wide (fs.getD k 0) l) e) (s.ity.raw (t.grp.val s.wide d l) e)) ∧
    Completes s t (regs s.wide d) s.lanesT []

/-- The instruction completes, and the operand d holds f of each lane of T. -/
def Lanewise (s : State) (i : Instr) (wide : Bool) (d : Nat) (f : Nat → Nat × List Nat) : Prop :=
  ∃ t, exec i s = .next t ∧
    (∀ l, s.lanesT.getLsbD l = true → t.grp.val wide d l = (f l).1 % 2 ^ (if wide then 64 else 32)) ∧
    Completes s t (regs wide d) s.lanesT ((lanesOf s.lanesT).flatMap (fun l => (f l).2))

/-- The instruction completes, and predicate d holds f of each lane of T, unless it is `p0`, which nothing changes (R95). -/
def Predwise (s : State) (i : Instr) (d : Nat) (f : Nat → Bool × List Nat) : Prop :=
  ∃ t, exec i s = .next t ∧
    (d ≠ 0 → ∀ l, s.lanesT.getLsbD l = true → (t.grp.pred d).getLsbD l = (f l).1) ∧
    CompletesPred s t d s.lanesT ((lanesOf s.lanesT).flatMap (fun l => (f l).2))

/-- The pattern of element e of source field k in lane l, under the float type in force (R126). -/
def State.floatElem (s : State) (fs : List Nat) (l e k : Nat) : Nat :=
  (s.source (fs.getD k 0) l).toNat / 2 ^ ((fmtOf s.et).width * e) % 2 ^ (fmtOf s.et).width

/-- A float instruction can act: the element type is one of `ok` (R33), and the operands stand ready. -/
structure FloatReady (s : State) (ok : List Nat) (d : Nat) (fs : List Nat) : Prop where
  type : s.et ∈ ok
  ready : Ready s fs [d]

/-- The events that f counts over the elements of the lanes of T (R129). -/
def State.floatEvents (s : State) (fs : List Nat) (f : (Nat → Nat) → Nat × List Nat) : List Nat :=
  (lanesOf s.lanesT).flatMap (fun l => (List.range (floatCount s.et)).flatMap (fun e => (f (s.floatElem fs l e)).2))

/-- The instruction completes, and each element of d in each lane of T is f of the same element of the sources. -/
def Floatwise (s : State) (i : Instr) (d : Nat) (fs : List Nat) (f : (Nat → Nat) → Nat × List Nat) : Prop :=
  ∃ t, exec i s = .next t ∧
    (∀ l, s.lanesT.getLsbD l = true → ∀ e, e < floatCount s.et →
      (t.grp.reg d l).toNat / 2 ^ ((fmtOf s.et).width * e) % 2 ^ (fmtOf s.et).width = (f (s.floatElem fs l e)).1) ∧
    Completes s t [d] s.lanesT (s.floatEvents fs f)

/-- The operation enters the divider of the issuing group's core, and its destination is not to be read before it completes (R26,
R103). -/
def State.divideQueued (s : State) (op : DivOp) (dsts : List Nat) : State :=
  let c := s.cluster
  let s1 : State := { s.setCluster { c with divq := tput c.divq s.grp.core (tget [] c.divq s.grp.core ++ [op]) } with
    nextId := s.nextId + 1 }
  s1.setGrp { s1.grp with busy := s1.grp.busy ++ dsts.map (fun x => (x, op.id)) }

/-- The instruction hands an operation to the divider, which holds f of each lane of T for d and is to take at least so many slots. -/
def Divides (s : State) (i : Instr) (wide : Bool) (d slots : Nat) (f : Nat → Nat × List Nat) : Prop :=
  ∃ t op, exec i s = .next t ∧ op.group = s.cur ∧ op.id = s.nextId ∧ op.frag = s.grp.cur.id ∧ s.cycle + 2 * slots ≤ op.due ∧
    (∀ l, s.lanesT.getLsbD l = true →
      tfind op.words (32 * d + l) = some (BitVec.ofNat 32 (f l).1) ∧
      (wide = true → tfind op.words (32 * (d + 1) + l) = some (BitVec.ofNat 32 ((f l).1 / 2 ^ 32)))) ∧
    (∀ x ∈ op.words, ∃ r ∈ regs wide d, ∃ l, s.lanesT.getLsbD l = true ∧ x.1 = 32 * r + l) ∧
    op.events = (lanesOf s.lanesT).flatMap (fun l => (f l).2) ∧
    Passes (s.divideQueued op (regs wide d)) t []

/-! ### Accesses -/

/-- A group apart also from what it keeps of its memory instructions in flight: registers awaited, counters, unswept writes. -/
def Group.still (g : Group) : Group := { g.fixed with busy := [], count := [], unswept := [] }

/-- An access with what has become of its pieces left out. -/
def Txn.asked (x : Txn) : Txn :=
  { x with lanes := x.lanes.map (fun p => { p with result := none, going := false, coming := false, done := false, cont := none, granted := false }) }

/-- The cluster holds at a location a byte that the accessing team has written under C and the access reads under S: it is written back first
(R319, R328). -/
def State.backs (s : State) (x : Txn) (loc : Nat) (b : CByte) : Prop :=
  x.kind = .s ∧ (loc, b) ∈ (s.clusterOf x.cluster).cache ∧ b.commons = true ∧ b.dirty = true ∧ b.team = x.team ∧
    ∃ p ∈ x.lanes, lineOf loc = lineOf p.loc

/-- The cluster serves every piece of the access in the line of a piece: no other line leaves it (R220). -/
def State.serves (s : State) (x : Txn) (p : LaneAcc) : Bool := x.lanes.all (fun q => lineOf q.loc != lineOf p.loc || s.hits x q)

/-- An access instruction of the issuing group has gone from s to t with the access x: no memory changed but where the team's own commons
writes are written back before a read under S, no other group changed, the fragment goes on at the next word; and either every piece was served in the cluster, with nothing outstanding, or the access is
outstanding under the next number, counted and with its destinations marked (R222, R26), and no register has changed. -/
structure Issued (s t : State) (x : Txn) : Prop where
  mem : (∀ loc b, ¬ s.backs x loc b) → t.mem = s.mem ∧ t.peers = s.peers
  home : ∀ loc, t.homeByte loc ≠ s.homeByte loc → ∃ b, s.backs x loc b ∧ t.homeByte loc = b.val
  groups : ∀ j, j ≠ s.cur → (t.group j).calm = (s.group j).calm
  teams : ∀ j, (t.teamOf j).fixed = (s.teamOf j).fixed
  launches : ∀ j, (t.launchOf j).fixed = (s.launchOf j).fixed
  cur : t.grp.cur = { s.grp.cur with pc := s.grp.cur.pc + 4, wait := .none }
  rest : t.grp.rest = s.grp.rest
  still : t.grp.still = s.grp.still
  bad : ∀ x ∈ t.grp.bad, x ∈ s.grp.bad
  preds : t.grp.preds = s.grp.preds
  outcome :
    (t.txns = s.txns ∧ t.grp.busy = s.grp.busy ∧ t.grp.count = s.grp.count ∧
      RegsKept s t (if x.op.returns then wordRegs x.dst x.bytes else []) (maskOf x.laneList)) ∨
    (∃ y, tfind t.txns s.nextId = some y ∧ y.asked = x.asked ∧ (∃ p ∈ y.lanes, p.result = none) ∧ t.grp.regs = s.grp.regs ∧
      t.grp.busy = s.grp.busy ++ (if x.op.returns then (wordRegs x.dst x.bytes).map (fun r => (r, s.nextId)) else []) ∧
      ∀ c, tget 0 t.grp.count c = tget 0 s.grp.count c + if x.counter = some c then 1 else 0)

/-- Instruction i issues the access x: it stands while something holds the access, and otherwise goes with P holding of the state it
leaves. -/
def Accesses (s : State) (i : Instr) (x : Txn) (P : State → Prop) : Prop :=
  (s.accessHeld x = true → exec i s = .next s.stand) ∧
  (s.accessHeld x = false → ∃ t, exec i s = .next t ∧ Issued s t x ∧ P t)

/-- The offset of each lane of T in a 64-bit or a 32-bit operand. -/
def State.lanesAt (s : State) (wide : Bool) (a : Nat) : List (Nat × Nat) := (lanesOf s.lanesT).map (fun l => (l, s.operand wide a l))

/-- The n bytes that lane l reads of the registers from d. -/
def State.elementAt (s : State) (d n l : Nat) : Nat :=
  ((List.range (wordsOf n)).map (fun i => (s.source (d + i) l).toNat * 2 ^ (32 * i))).sum

/-- The byte that the last of some pieces to cover a location stores there, or what stood there (R221). -/
def stored (ps : List LaneAcc) (loc : Nat) (old : Byte) : Byte :=
  match ps.reverse.find? (fun p => decide (p.loc ≤ loc ∧ loc < p.loc + p.n)) with
  | some p => BitVec.ofNat 8 (p.a / 256 ^ (loc - p.loc))
  | none => old

/-- A region register serves an access (R184): it holds a borrow that is not pending, for the group, and one that allows it. -/
structure Region.Serves (r : Region) (pos : Nat) (write commons : Bool) : Prop where
  held : r.kind ≠ .empty ∧ r.pend = false
  holder : r.all = true ∨ r.holder = pos
  kind : (write = true → r.kind ≠ .s) ∧ (commons = true → r.kind = .c)

/-- Every lane of T stays inside the region with its n bytes. -/
def State.inside (s : State) (r : Region) (a n : Nat) : Prop :=
  ∀ l, s.lanesT.getLsbD l = true → s.operand true a l + n ≤ r.len

/-! ### Events -/

/-- The instruction of Instr that an event of the agenda stands for: the one of its name, with its arguments. -/
inductive Event.Means : Event → Instr → Prop where
  | deferredTrap (g : Nat) : Means (.deferredTrap g) (.deferredTrap g)
  | yieldEnd (g : Nat) : Means (.yieldEnd g) (.yieldEnd g)
  | carryMessage (l i j : Nat) : Means (.carryMessage l i j) (.carryMessage l i j)
  | carryFetch (l i j g : Nat) : Means (.carryFetch l i j g) (.carryFetch l i j g)
  | eventWindowReset (t c : Nat) : Means (.eventWindowReset t c) (.eventWindowReset t c)
  | loadReply (x : Nat) : Means (.loadReply x) (.loadReply x)
  | storeAck (x : Nat) : Means (.storeAck x) (.storeAck x)
  | homeRequest (x : Nat) : Means (.homeRequest x) (.homeRequest x)
  | wcDrain (cl n : Nat) : Means (.wcDrain cl n) (.wcDrain cl n)
  | req (n : Nat) : Means (.req n) (.req n)
  | grant (n : Nat) : Means (.grant n) (.grant n)
  | refuse (n : Nat) : Means (.refuse n) (.refuse n)
  | recall (n : Nat) : Means (.recall n) (.recall n)
  | giveup (n : Nat) : Means (.giveup n) (.giveup n)
  | retSlip (n : Nat) : Means (.retSlip n) (.retSlip n)
  | down (n : Nat) : Means (.down n) (.down n)
  | up (n : Nat) : Means (.up n) (.up n)
  | reloc (n : Nat) : Means (.reloc n) (.reloc n)
  | hold (n : Nat) : Means (.hold n) (.hold n)
  | ack (n : Nat) : Means (.ack n) (.ack n)
  | slipResend (n : Nat) : Means (.slipResend n) (.slipResend n)
  | invalidate (n : Nat) : Means (.invalidate n) (.invalidate n)
  | forward (n : Nat) : Means (.forward n) (.forward n)
  | gone (n : Nat) : Means (.gone n) (.gone n)
  | writeBack (n : Nat) : Means (.writeBack n) (.writeBack n)
  | pageRecall (n : Nat) : Means (.pageRecall n) (.pageRecall n)
  | commonsResend (n : Nat) : Means (.commonsResend n) (.commonsResend n)
  | sweepMarker (n : Nat) : Means (.sweepMarker n) (.sweepMarker n)
  | sweepAck (n : Nat) : Means (.sweepAck n) (.sweepAck n)
  | packetArrive (die : Nat) : Means (.packetArrive die) (.packetArrive die)
  | packetOld (p : Nat) : Means (.packetOld p) (.packetOld p)
  | injectStarve (die : Nat) : Means (.injectStarve die) (.injectStarve die)
  | fabricPacket (p : Nat) : Means (.fabricPacket p) (.fabricPacket p)
  | creditReturn (dev plane : Nat) : Means (.creditReturn dev plane) (.creditReturn dev plane)
  | reachLimit (x : Nat) : Means (.reachLimit x) (.reachLimit x)
  | flitReceive (lk q : Nat) (crcOk : Bool) : Means (.flitReceive lk q crcOk) (.flitReceive lk q crcOk)
  | replayRequest (lk q : Nat) : Means (.replayRequest lk q) (.replayRequest lk q)
  | linkRetrain (lk : Nat) : Means (.linkRetrain lk) (.linkRetrain lk)
  | linkSettle (lk : Nat) (sideband : Bool) : Means (.linkSettle lk sideband) (.linkSettle lk sideband)
  | linkRetire (lk : Nat) : Means (.linkRetire lk) (.linkRetire lk)
  | chunk (n : Nat) : Means (.chunk n) (.chunk n)
  | chunkAck (n : Nat) : Means (.chunkAck n) (.chunkAck n)
  | chunkRetry (n : Nat) : Means (.chunkRetry n) (.chunkRetry n)
  | chunkResend (n : Nat) : Means (.chunkResend n) (.chunkResend n)
  | close (home st : Nat) : Means (.close home st) (.close home st)
  | copyComplete (c : Nat) : Means (.copyComplete c) (.copyComplete c)
  | passGrant (cl e : Nat) : Means (.passGrant cl e) (.passGrant cl e)
  | passComplete (cl e : Nat) : Means (.passComplete cl e) (.passComplete cl e)
  | rampEnd (cl e : Nat) : Means (.rampEnd cl e) (.rampEnd cl e)
  | launchEntry (q : Nat) : Means (.launchEntry q) (.launchEntry q)
  | waitEntry (q : Nat) : Means (.waitEntry q) (.waitEntry q)
  | waitRecheck (q : Nat) : Means (.waitRecheck q) (.waitRecheck q)
  | signalEntry (q : Nat) : Means (.signalEntry q) (.signalEntry q)
  | nopEntry (q : Nat) : Means (.nopEntry q) (.nopEntry q)
  | qctlWrite (q val : Nat) : Means (.qctlWrite q val) (.qctlWrite q val)
  | qtailWrite (q val : Nat) : Means (.qtailWrite q val) (.qtailWrite q val)
  | haltClear (q : Nat) : Means (.haltClear q) (.haltClear q)
  | ovfClear (q : Nat) : Means (.ovfClear q) (.ovfClear q)
  | registerWrite (page num val : Nat) : Means (.registerWrite page num val) (.registerWrite page num val)
  | phloWrite (val : Nat) : Means (.phloWrite val) (.phloWrite val)
  | phhiWrite (val : Nat) : Means (.phhiWrite val) (.phhiWrite val)
  | exloWrite (val : Nat) : Means (.exloWrite val) (.exloWrite val)
  | exhiWrite (val : Nat) : Means (.exhiWrite val) (.exhiWrite val)
  | taintClear (val : Nat) : Means (.taintClear val) (.taintClear val)
  | taintClearDone : Means .taintClearDone .taintClearDone
  | kill (val : Nat) : Means (.kill val) (.kill val)
  | killComplete : Means .killComplete .killComplete
  | run (val : Nat) : Means (.run val) (.run val)
  | preq (val : Nat) : Means (.preq val) (.preq val)
  | symcmdTake : Means .symcmdTake .symcmdTake
  | symcmdReturn : Means .symcmdReturn .symcmdReturn
  | symTakeEnd : Means .symTakeEnd .symTakeEnd
  | biasToDevice (he val : Nat) : Means (.biasToDevice he val) (.biasToDevice he val)
  | biasToHost (he val : Nat) : Means (.biasToHost he val) (.biasToHost he val)
  | cxlHostAccess (port : Nat) (wr : Bool) (pa val : Nat) : Means (.cxlHostAccess port wr pa val) (.cxlHostAccess port wr pa val)
  | ccAccess (wr : Bool) (pa n val : Nat) : Means (.ccAccess wr pa n val) (.ccAccess wr pa n val)
  | getVersion (port : Nat) : Means (.getVersion port) (.getVersion port)
  | getCapabilities (port : Nat) : Means (.getCapabilities port) (.getCapabilities port)
  | negotiateAlgorithms (port asym hash : Nat) : Means (.negotiateAlgorithms port asym hash) (.negotiateAlgorithms port asym hash)
  | getDigests (port : Nat) : Means (.getDigests port) (.getDigests port)
  | getCertificate (port : Nat) : Means (.getCertificate port) (.getCertificate port)
  | challenge (port nonce : Nat) : Means (.challenge port nonce) (.challenge port nonce)
  | getMeasurements (port idx : Nat) : Means (.getMeasurements port idx) (.getMeasurements port idx)
  | keyExchange (port : Nat) : Means (.keyExchange port) (.keyExchange port)
  | reset (ok0 ok1 : Bool) : Means (.reset ok0 ok1) (.reset ok0 ok1)
  | powerUpWave : Means .powerUpWave .powerUpWave
  | powerMeter (draw : Nat) : Means (.powerMeter draw) (.powerMeter draw)
  | teamStart (k : Nat) : Means (.teamStart k) (.teamStart k)
  | regionLoad (k : Nat) : Means (.regionLoad k) (.regionLoad k)
  | loadRetry (k : Nat) : Means (.loadRetry k) (.loadRetry k)
  | teamEnd (t : Nat) : Means (.teamEnd t) (.teamEnd t)
  | launchComplete (l : Nat) : Means (.launchComplete l) (.launchComplete l)
  | depthExchange (die : Nat) : Means (.depthExchange die) (.depthExchange die)
  | dieDepthExchange (die : Nat) : Means (.dieDepthExchange die) (.dieDepthExchange die)
  | steal (cl : Nat) : Means (.steal cl) (.steal cl)
  | taskAgePromote (k : Nat) : Means (.taskAgePromote k) (.taskAgePromote k)
  | boost (l : Nat) : Means (.boost l) (.boost l)
  | budgetExceeded (l : Nat) : Means (.budgetExceeded l) (.budgetExceeded l)
  | budgetEnd (l : Nat) : Means (.budgetEnd l) (.budgetEnd l)
  | watchdog (g : Nat) : Means (.watchdog g) (.watchdog g)
  | borrowWaitPreempt (t : Nat) : Means (.borrowWaitPreempt t) (.borrowWaitPreempt t)
  | preemption (t : Nat) : Means (.preemption t) (.preemption t)
  | preemptSave (t : Nat) : Means (.preemptSave t) (.preemptSave t)
  | resume (t : Nat) : Means (.resume t) (.resume t)
  | dividerComplete (cl core : Nat) : Means (.dividerComplete cl core) (.dividerComplete cl core)
  | computePhaseEnd (cl e : Nat) : Means (.computePhaseEnd cl e) (.computePhaseEnd cl e)
  | tableWalkEnd (w : Nat) : Means (.tableWalkEnd w) (.tableWalkEnd w)
  | birspi (he : Nat) (data : List (Nat × BitVec 8)) : Means (.birspi he data) (.birspi he data)
  | cxlHostLink (port st : Nat) : Means (.cxlHostLink port st) (.cxlHostLink port st)
  | domainStart (num devs : Nat) : Means (.domainStart num devs) (.domainStart num devs)
  | uncorrectableError (where_ pa : Nat) : Means (.uncorrectableError where_ pa) (.uncorrectableError where_ pa)
  | correctedError : Means .correctedError .correctedError

end Sys2Proof.Machine
end

