-- ==== Sys2Proof/Certificates/Slice0/Obligations.lean ====
section
/-! DEFINITION. The statements for the provers: what the manual's rules say of decoding, of a step, and of each instruction. -/

open Sys2Proof Sys2Proof.Machine

/-! ### Words and steps -/

/-- R20 to R24, R37 to R48: decoding the word of a well-formed instruction gives the instruction back, with every field. -/
def Rules.DecodeEncode : Prop :=
  ∀ i : Instr, i.wf = true → encode i < 2 ^ 32 ∧ decode (encode i) = .ok i

/-- R22, R36: a word that decodes stands for one well-formed instruction whose word it is: no field is ignored. -/
def Rules.DecodeIsFaithful : Prop :=
  ∀ (w : Nat) (i : Instr), w < 2 ^ 32 → decode w = .ok i → i.wf = true ∧ encode i = w

/-- R36, R37: a word of an unassigned major opcode is refused with detail 1, and a variable-latency instruction with a stall count
with detail 5. -/
def Rules.RefusedWords : Prop :=
  (∀ w : Nat, w < 2 ^ 32 → w / 2 ^ 26 ∈ [0x00, 0x23, 0x29, 0x2F, 0x38, 0x3F] → decode w = .error 1) ∧
    ∀ (i : Instr) (n : Nat), i.wf = true → i.isVariable = true → 0 < n → n < 8 → decode (encode i + n * 2 ^ 23) = .error 5

/-- R37 to R48: words that the manual writes out, or that its opcode map gives, one or more of each family. -/
def Rules.ManualWords : Prop :=
  ∀ x ∈ [(0x047FFFFD, Instr.br 0 (-3)), (0x10002802, .brt 5 2), (0x14000005, .exit 0), (0x1780_0006, .nop 7),
      (0x1C000009, .modg 0 1 1), (0x48041001, .addi 0 2 2 1), (0x30021062, .cmpLt 0 1 2 3), (0x3408084B, .sel 0 4 1 2 1 3),
      (0x38861121, .shflRise 1 3 2 9), (0x3C020001, .por 0 1 0 0), (0x400E5678, .movi 0 7 0x5678), (0x78040000, .rds 0 2 0),
      (0x64060840, .fadd 0 3 1 2), (0x60021064, .fma 0 1 2 3 4), (0x6C0A3000, .fcvt 0 5 6 0), (0x70102001, .sxpk 0 8 4 0 1),
      (0x74060040, .evrd 3 2), (0xF00000A0, .trap 0 5), (0xF0000001, .tret), (0xF4640010, .rdsp 50 0x10),
      (0xF86C0011, .wrsp 54 0x11), (0xF0002022, .tlbi 4 1),
      (0x80003040, .pub 6 2), (0x840C001F, .cdef 6 0 31), (0x88044024, .borXW 2 8 1), (0x88000068, .bdown 3),
      (0x88040069, .bup 2 3), (0x8808286A, .bsplit 4 5 3), (0x8806008B, .bjoin 3 4), (0x8800308C, .bhand 6 4),
      (0x8800006D, .bret 3), (0x8818006E, .bquery 12 3), (0x90102114, .ld 8 2 4 1 2 0), (0x940C2114, .st 6 2 4 1 2 0),
      (0xA0002110, .pref 2 4 1 0), (0x98061002, .ldl 3 2 2), (0x9C142002, .cvtaLg 0 10 4), (0x9C025007, .inapLocal 0 1 10),
      (0x9C001068, .bankset 2 3), (0x9C0010E9, .fput 2 7), (0x9C12100A, .fget 9 2), (0x9C00004B, .waitc 2),
      (0xA8101088, .rld 8 2 4 1 0), (0xAC0C1081, .rst 6 2 4 0 1), (0xB014108A, .ratmAdd 10 2 4 1 2),
      (0xB8181082, .ratmCas 12 2 4 0 2), (0xC0105110, .aadd 0 8 5 4 1), (0xC0125119, .ainc 0 9 5 4 1),
      (0xC004512B, .afadd 0 2 5 4 2), (0xC0105108, .acas 0 8 5 4 0), (0xC406610C, .ald 1 3 6 4 0),
      (0xC80E610D, .ast 1 7 6 4 0), (0xCC145108, .acas 3 10 5 4 0), (0xC002300E, .ahint 1 3), (0xD0401100, .cpl 32 2 8),
      (0xD0400901, .cpb 32 1 8), (0xD0090984, .cprAdd 4 33 12), (0xD0082987, .cprFadd 4 5 12), (0xD4021060, .winit 1 2 3),
      (0xD4022001, .wexp 1 4), (0xD4000002, .warr 0), (0xD4000003, .wwait 0), (0xD4040804, .wtest 2 1),
      (0xD800001F, .fence 3 7), (0xDC0020D2, .fencer 4 6 2 2), (0xD8000000, .fencei), (0xE4060000, .mclaim 3),
      (0xE4060001, .mrel 3), (0xE4042902, .mld 2 5 8), (0xE40C0A03, .mst 6 1 16), (0xE4040004, .mzero 2),
      (0xE4000805, .macc 0 1), (0xE4021806, .mshape 1 3), (0xE8021064, .mma 1 2 3 4), (0xEC04A0C0, .spawn 2 20 6),
      (0xEC04A0C1, .spawnh 2 20 6), (0xEC062002, .bin 3 4), (0xEC00A0C3, .patch 20 6), (0xEC00A004, .release 20),
      (0xF0001003, .preempt 2), (0x9841080A, .stl 32 33 2)], decode x.1 = .ok x.2

/-- R20, R35, R60, R155, R382, R417: when a group issues, trips of its team fall due and a due deferred trap comes first; otherwise the word at its selected fragment's PC is
fetched, and step runs the instruction it decodes to; a word that is none, or lies outside the code range, traps; a poisoned word that no
instruction cache holds stops the fault domain. -/
def Rules.StepRunsDecodedWord : Prop :=
  ∀ (s s1 : State) (k : Nat), s.readied.move = (.issue k, s1) →
    let s2 : State := { s1 with cur := k }.raiseTrips (s1.group k).team none
    ((s2.grp.dueTrap ≠ none → step s = exec (.deferredTrap k) s2) ∧
      (s2.grp.dueTrap = none → s2.codePa s2.grp.cur.pc.toNat = none → step s = .next (s2.trap 1 1)) ∧
      ∀ pa, s2.grp.dueTrap = none → s2.codePa s2.grp.cur.pc.toNat = some pa →
        (s2.codePoisoned pa = false → ∀ i, decode (s2.codeAt pa).toNat = .ok i → step s = exec i (s2.takeCode pa)) ∧
        (s2.codePoisoned pa = false → ∀ d, decode (s2.codeAt pa).toNat = .error d → step s = .next ((s2.takeCode pa).trap 1 d)) ∧
        (s2.codePoisoned pa = true → step s = .next (s2.stopDomain (s2.team.ctx, s2.launch.lcb.fdom))))

/-- Each event of the agenda runs the instruction of its name, every event of the opcode table is one, and when the device's next move
is an event the step runs it. The agenda and its order are the model's (log 4). -/
def Rules.StepRunsEvents : Prop :=
  (∀ (e : Event) (i : Instr) (s : State), e.Means i → runEvent e s = exec i s) ∧
    (∀ i : Instr, i.isEvent = true → ∃ e : Event, e.Means i) ∧
    ∀ (s s1 : State) (e : Event) (i : Instr), s.readied.move = (.event e, s1) → e.Means i → step s = exec i { s1 with stalled := [] }

/-- R85, R370: the group that issues may issue and does not yield; a group that has been ready for 64 cycles or more without issuing comes
before others, longest first; otherwise a boosted group, then a higher priority, an earlier team, a lower position. The cycles ready count
from the last issue or from the last cycle in which the group was not ready, whichever is later (log 15). -/
def Rules.IssueOrder : Prop :=
  ∀ (s : State) (k : Nat), s.pick = some k → ∃ g, (k, g) ∈ s.groups ∧ s.canTry k g = true ∧ g.yielded = 0 ∧
    ∀ x ∈ s.groups, s.canTry x.1 x.2 = true → x.2.yielded = 0 →
      let h := x.2
      let waited (g : Group) : Nat := s.cycle - max g.last g.stood
      let prio (g : Group) : Nat := (s.launchOf (s.teamOf g.team).launch).lcb.prio
      let start (g : Group) : Nat := (s.teamOf g.team).start
      (64 ≤ waited g ∧ waited h < waited g) ∨ (64 ≤ waited g ∧ waited h = waited g ∧ g.pos ≤ h.pos) ∨
        (waited g < 64 ∧ waited h < 64 ∧
          ((s.boosted g = true ∧ s.boosted h = false) ∨
            (s.boosted g = s.boosted h ∧ (prio h < prio g ∨
              (prio h = prio g ∧ (start g < start h ∨ (start g = start h ∧ g.pos ≤ h.pos)))))))

/-- R26, R370: before the device moves, where two or more groups can be tried, each that would stand if its word issued now counts its wait
from now; nothing else changes. The words are tried by issuing them (log 15). -/
def Rules.ReadyGroups : Prop :=
  ∀ (s : State),
    (s.ready.length ≤ 1 → s.readied = s) ∧
    (1 < s.ready.length → s.readied = { s with groups := s.readied.groups } ∧
      ∀ k g, (k, g) ∈ s.readied.groups ↔ ∃ h, (k, h) ∈ s.groups ∧
        let stands := s.canTry k h = true ∧ ∃ t, issueStep s k = .next t ∧ k ∈ t.stalled ∧
          ((t.group k).cur.wait = .slot ∨ (s.group k).cur.wait.goesOn = true)
        ((stands ∧ g = { h with stood := s.cycle }) ∨ (¬ stands ∧ g = h)))

/-- Right after reset nothing is resident, allotted, held, queued or in flight, and the cycle counter stands at zero (R196, R375,
R378, R412). The values are the model's where the manual gives none (log 7). -/
def Rules.ResetState : Prop :=
  let s := State.reset
  s.cycle = 0 ∧ s.groups = [] ∧ s.teams = [] ∧ s.launches = [] ∧ s.circ = [] ∧ s.copies = [] ∧ s.mem = [] ∧ s.awake = false ∧
    (∀ c, (s.ctxOf c).exctl = 0 ∧ (s.ctxOf c).syms = []) ∧ (∀ q, (s.queue q).en = false ∧ (s.queue q).halt = false) ∧
    ∀ c, (s.clusterOf c).cache = [] ∧ (s.clusterOf c).dropped = 0

/-! ### Integer instructions -/

/-- R98 to R101, R112: sums, differences, products, negation and absolute value, each element fitted to its type (R97). -/
def Rules.IntegerArithmetic : Prop :=
  ∀ (s : State) (st : BitVec 3) (d a b : BitVec 6) (c : BitVec 5) (m : BitVec 11),
    (IntReady s intTypes d.toNat [a.toNat, b.toNat] →
      Elementwise s (.add st d a b) d.toNat [a.toNat, b.toNat] (fun ty x => ty.fit (x 0 + x 1)) ∧
      Elementwise s (.sub st d a b) d.toNat [a.toNat, b.toNat] (fun ty x => ty.fit (x 0 - x 1)) ∧
      Elementwise s (.mul st d a b) d.toNat [a.toNat, b.toNat] (fun ty x => ty.fit (x 0 * x 1))) ∧
    (IntReady s intTypes d.toNat [a.toNat] →
      Elementwise s (.abs st d a) d.toNat [a.toNat] (fun ty x => ty.fit (x 0).natAbs) ∧
      Elementwise s (.neg st d a) d.toNat [a.toNat] (fun ty x => ty.fit (-x 0)) ∧
      Elementwise s (.addi st d a m) d.toNat [a.toNat] (fun ty x => ty.fit (x 0 + ty.imm m))) ∧
    (IntReady s intTypes d.toNat [a.toNat, b.toNat, c.toNat] →
      Elementwise s (.mad st d a b c) d.toNat [a.toNat, b.toNat, c.toNat] (fun ty x => ty.fit (x 0 * x 1 + x 2)))

/-- R98 to R100: minimum, maximum and high halves, by the signedness of the type and without regard to SAT. -/
def Rules.IntegerOrderAndHighHalves : Prop :=
  ∀ (s : State) (st : BitVec 3) (d a b : BitVec 6) (c : BitVec 5),
    (IntReady s intTypes d.toNat [a.toNat, b.toNat] →
      Elementwise s (.min st d a b) d.toNat [a.toNat, b.toNat] (fun ty x => (wrap ty.w (if x 0 ≤ x 1 then x 0 else x 1), [])) ∧
      Elementwise s (.max st d a b) d.toNat [a.toNat, b.toNat] (fun ty x => (wrap ty.w (if x 0 ≤ x 1 then x 1 else x 0), [])) ∧
      Elementwise s (.mulh st d a b) d.toNat [a.toNat, b.toNat]
        (fun ty x => (wrap (2 * ty.w) (x 0 * x 1) / 2 ^ ty.w, []))) ∧
    (IntReady s intTypes d.toNat [a.toNat, b.toNat, c.toNat] →
      Elementwise s (.madh st d a b c) d.toNat [a.toNat, b.toNat, c.toNat]
        (fun ty x => (wrap ty.w ((x 0 * x 1).fdiv (2 ^ ty.w : Nat) + x 2), [])))

/-- R104, R112: the logical instructions, bit by bit; an immediate counts as every element of b. -/
def Rules.BitLogic : Prop :=
  ∀ (s : State) (st : BitVec 3) (d a b : BitVec 6) (m : BitVec 11),
    let bitwise (i : Instr) (fs : List Nat) (f : IntTy → (Nat → Nat → Bool) → Nat → Bool) : Prop :=
      Elementrel s i d.toNat fs (fun ty x r => ∀ k, k < ty.w → r.testBit k = f ty (fun j => (x j).testBit) k)
    (IntReady s intTypes d.toNat [a.toNat, b.toNat] →
      bitwise (.and st d a b) [a.toNat, b.toNat] (fun _ x k => x 0 k && x 1 k) ∧
      bitwise (.or st d a b) [a.toNat, b.toNat] (fun _ x k => x 0 k || x 1 k) ∧
      bitwise (.xor st d a b) [a.toNat, b.toNat] (fun _ x k => x 0 k ^^ x 1 k) ∧
      bitwise (.andn st d a b) [a.toNat, b.toNat] (fun _ x k => x 0 k && !x 1 k)) ∧
    (IntReady s intTypes d.toNat [a.toNat] →
      bitwise (.not st d a) [a.toNat] (fun _ x k => !x 0 k) ∧
      bitwise (.andi st d a m) [a.toNat] (fun ty x k => x 0 k && (wrap ty.w (ty.imm m)).testBit k) ∧
      bitwise (.ori st d a m) [a.toNat] (fun ty x k => x 0 k || (wrap ty.w (ty.imm m)).testBit k) ∧
      bitwise (.xori st d a m) [a.toNat] (fun ty x k => x 0 k ^^ (wrap ty.w (ty.imm m)).testBit k))

/-- R105, R112: shifts by the count that the element of b holds, read unsigned, or by an immediate below the width. -/
def Rules.Shifts : Prop :=
  ∀ (s : State) (st : BitVec 3) (d a b c : BitVec 6),
    (IntReady s intTypes d.toNat [a.toNat, b.toNat] →
      Elementwise s (.shl st d a b) d.toNat [a.toNat, b.toNat] (fun ty x => ty.fit (x 0 * (2 ^ wrap ty.w (x 1) : Nat))) ∧
      Elementrel s (.shr st d a b) d.toNat [a.toNat, b.toNat] (fun _ x r => r = x 0 / 2 ^ x 1) ∧
      Elementrel s (.sra st d a b) d.toNat [a.toNat, b.toNat]
        (fun ty x r => r = wrap ty.w ((signed ty.w (x 0)).fdiv (2 ^ x 1 : Nat))) ∧
      Elementrel s (.rotl st d a b) d.toNat [a.toNat, b.toNat]
        (fun ty x r => ∀ k, k < ty.w → r.testBit ((k + x 1) % ty.w) = (x 0).testBit k)) ∧
    (IntReady s intTypes d.toNat [a.toNat] → c.toNat < s.ity.w →
      Elementwise s (.shli st d a c) d.toNat [a.toNat] (fun ty x => ty.fit (x 0 * (2 ^ c.toNat : Nat))) ∧
      Elementrel s (.shri st d a c) d.toNat [a.toNat] (fun _ x r => r = x 0 / 2 ^ c.toNat))

/-- R106: leading and trailing zeros, ones, and reversal of each element. -/
def Rules.BitCounts : Prop :=
  ∀ (s : State) (st : BitVec 3) (d a : BitVec 6), IntReady s intTypes d.toNat [a.toNat] →
    Elementrel s (.clz st d a) d.toNat [a.toNat]
      (fun ty x r => r ≤ ty.w ∧ x 0 < 2 ^ (ty.w - r) ∧ (r < ty.w → 2 ^ (ty.w - 1 - r) ≤ x 0)) ∧
    Elementrel s (.ctz st d a) d.toNat [a.toNat]
      (fun ty x r => r ≤ ty.w ∧ x 0 % 2 ^ r = 0 ∧ (r < ty.w → (x 0).testBit r = true)) ∧
    Elementrel s (.popc st d a) d.toNat [a.toNat]
      (fun ty x r => r = ((List.range ty.w).filter (fun k => (x 0).testBit k)).length) ∧
    Elementrel s (.brev st d a) d.toNat [a.toNat]
      (fun ty x r => ∀ k, k < ty.w → r.testBit k = (x 0).testBit (ty.w - 1 - k))

/-- R107, R113 to R115: bit fields, address arithmetic, extension, and conversion between integer types. -/
def Rules.FieldsAndConversions : Prop :=
  ∀ (s : State) (st : BitVec 3) (d a b : BitVec 6) (x : BitVec 2),
    (IntReady s scalarInts d.toNat [a.toNat, b.toNat] →
      Elementrel s (.bext st d a b) d.toNat [a.toNat, b.toNat]
        (fun ty x r => ∀ k, k < ty.w → r.testBit k =
          if k < fieldLen ty.w (x 1) then (x 0).testBit (x 1 % 256 + k)
          else ty.sg && decide (0 < fieldLen ty.w (x 1)) && (x 0).testBit (x 1 % 256 + fieldLen ty.w (x 1) - 1))) ∧
    (IntReady s scalarInts d.toNat [d.toNat, a.toNat, b.toNat] →
      Elementrel s (.bins st d a b) d.toNat [d.toNat, a.toNat, b.toNat]
        (fun ty x r => ∀ k, k < ty.w → r.testBit k =
          if x 2 % 256 ≤ k ∧ k < x 2 % 256 + fieldLen ty.w (x 2) then (x 1).testBit (k - x 2 % 256) else (x 0).testBit k)) ∧
    (s.et < 2 → Ready s (regs true a.toNat ++ [b.toNat]) (regs true d.toNat) →
      Lanewise s (.lea st d a b x) true d.toNat
        (fun l => (wrap 64 ((s.operand true a.toNat l : Int) + s.ity.value (s.operand false b.toNat l) * (2 ^ x.toNat : Nat)), []))) ∧
    (IntReady s [0, 1] d.toNat [a.toNat] → 1 ≤ b.toNat → b.toNat ≤ 32 →
      Elementrel s (.ext st d a b) d.toNat [a.toNat]
        (fun ty x r => r = if ty.sg then wrap 32 (signed b.toNat (x 0)) else x 0 % 2 ^ b.toNat)) ∧
    (s.et < 8 → b.toNat < 8 → cvtiSet s.et = cvtiSet b.toNat →
      let ws := decide (b.toNat = 2 ∨ b.toNat = 3)
      let ts := intTy b.toNat false
      (s.wide = true → isPair d.toNat = true) → (ws = true → isPair a.toNat = true) →
      Ready s (regs ws a.toNat) (regs s.wide d.toNat) →
      Lanewise s (.cvti st d a b) s.wide d.toNat (fun l => joinElems s.ity.w ((List.range s.ity.n).map (fun e =>
        s.ity.fit (ts.value (ts.raw (s.operand ws a.toNat l) e))))))

/-- R108: a comparison writes the relation of each lane's operands, by the signedness of the type. -/
def Rules.Comparisons : Prop :=
  ∀ (s : State) (st : BitVec 3) (d a b : BitVec 6), s.et ∈ scalarInts →
    (s.wide = true → isPair a.toNat = true ∧ isPair b.toNat = true) →
    Ready s ([a.toNat, b.toNat].flatMap (regs s.wide)) [64 + d.toNat] →
    let by_ (i : Instr) (rel : Int → Int → Prop) [DecidableRel rel] : Prop := Predwise s i d.toNat
      (fun l => (decide (rel (s.elemOf [a.toNat, b.toNat] l 0 0) (s.elemOf [a.toNat, b.toNat] l 0 1)), []))
    by_ (.cmpEq st d a b) (· = ·) ∧ by_ (.cmpNe st d a b) (· ≠ ·) ∧ by_ (.cmpLt st d a b) (· < ·) ∧
      by_ (.cmpLe st d a b) (· ≤ ·) ∧ by_ (.cmpGt st d a b) (· > ·) ∧ by_ (.cmpGe st d a b) (· ≥ ·)

/-- R109 to R111: select, move and the two immediates. -/
def Rules.Moves : Prop :=
  ∀ (s : State) (st : BitVec 3) (d a b : BitVec 6) (n : BitVec 1) (p : BitVec 3) (m : BitVec 17),
    ((s.wide = true → isPair d.toNat = true ∧ isPair a.toNat = true ∧ isPair b.toNat = true) →
      Ready s ([a.toNat, b.toNat].flatMap (regs s.wide)) (regs s.wide d.toNat ++ [64 + p.toNat]) →
      Lanewise s (.sel st d a b n p) s.wide d.toNat (fun l =>
        (s.operand s.wide (if ((s.grp.pred p.toNat).getLsbD l ^^ decide (n = 1)) = true then a.toNat else b.toNat) l, []))) ∧
    ((s.wide = true → isPair d.toNat = true ∧ isPair a.toNat = true) → Ready s (regs s.wide a.toNat) (regs s.wide d.toNat) →
      Lanewise s (.mov st d a) s.wide d.toNat (fun l => (s.operand s.wide a.toNat l, []))) ∧
    (Ready s [] [d.toNat] → Lanewise s (.movi st d m) false d.toNat (fun _ => ((m.signExtend 32).toNat, []))) ∧
    (d.toNat < 60 → Ready s [d.toNat] [d.toNat] → Lanewise s (.movu st d m) false d.toNat
      (fun l => (m.toNat * 2 ^ 15 + (s.grp.reg d.toNat l).toNat % 2 ^ 15, [])))

/-! ### Division -/

/-- R102, R103: quotients truncated toward zero and remainders, over scalar types; the divider takes 10 or 18 slots or more. -/
def Rules.Division : Prop :=
  ∀ (s : State) (d a b : BitVec 6), IntReady s scalarInts d.toNat [a.toNat, b.toNat] →
    let ty := s.ity
    let x (l : Nat) := s.elemOf [a.toNat, b.toNat] l 0 0
    let y (l : Nat) := s.elemOf [a.toNat, b.toNat] l 0 1
    Divides s (.div d a b) s.wide d.toNat (if s.wide then 18 else 10) (fun l =>
      if y l = 0 then (2 ^ ty.w - 1, [5])
      else if ty.sg = true ∧ x l = -(2 ^ (ty.w - 1) : Nat) ∧ y l = -1 then ty.fit (2 ^ (ty.w - 1) : Nat)
      else (wrap ty.w ((x l).tdiv (y l)), [])) ∧
    Divides s (.rem d a b) s.wide d.toNat (if s.wide then 18 else 10) (fun l =>
      if y l = 0 then (wrap ty.w (x l), [5]) else (wrap ty.w (x l - (x l).tdiv (y l) * y l), []))

/-- R26, R103, R152: the oldest operation of a divider completes once its slots have passed: its words are written, its registers
leave the scoreboard, its events are counted, and no other register or group changes. -/
def Rules.DividerCompletes : Prop :=
  ∀ (s : State) (cl core : Nat) (op : DivOp) (ops : List DivOp), tget [] (s.clusterOf cl).divq core = op :: ops →
    (s.cycle < op.due → exec (.dividerComplete cl core) s = .next s) ∧
    (op.due ≤ s.cycle → s.hasGroup op.group = true → (op.words.map (·.1)).Nodup →
      ∃ t, exec (.dividerComplete cl core) s = .next t ∧ tget [] (t.clusterOf cl).divq core = ops ∧
        (∀ x ∈ op.words, tget 0 (t.group op.group).regs x.1 = x.2) ∧
        (∀ n, n ∉ op.words.map (·.1) → tget 0 (t.group op.group).regs n = tget 0 (s.group op.group).regs n) ∧
        (t.group op.group).preds = (s.group op.group).preds ∧ (t.group op.group).cur = (s.group op.group).cur ∧
        (∀ b, b ∈ (t.group op.group).busy ↔ b ∈ (s.group op.group).busy ∧ b.2 ≠ op.id) ∧
        (∀ c, c < 6 → tget 0 (t.teamOf (s.group op.group).team).total c =
          if op.events.count c = 0 then tget 0 (s.teamOf (s.group op.group).team).total c
          else min (tget 0 (s.teamOf (s.group op.group).team).total c + op.events.count c) (2 ^ 32 - 1)) ∧
        (∀ k, k ≠ op.group → (t.group k).calm = (s.group k).calm) ∧ (∀ k, k ≠ cl → t.clusterOf k = s.clusterOf k) ∧ t.mem = s.mem)

/-! ### Lanes and predicates -/

/-- R116: a lane of T takes the operand of its source lane, or zero with its guard turned off where there is no such lane. -/
def Rules.Shuffles : Prop :=
  ∀ (s : State) (st : BitVec 3) (d a b : BitVec 6),
    (s.wide = true → isPair d.toNat = true ∧ isPair a.toNat = true) →
    Unhindered s (regs s.wide a.toNat ++ [b.toNat] ++ regs s.wide d.toNat) → s.viewsReady [b.toNat] → s.whole [b.toNat] s.lanesT →
    let shuffles (i : Instr) (from_ : Int → Int → Int) : Prop :=
      let x (l : Nat) : Int := from_ l (s.source b.toNat l).toNat
      (∀ l, s.lanesT.getLsbD l = true → 0 ≤ x l → x l ≤ 31 → s.whole (regs s.wide a.toNat) (BitVec.ofNat 32 (2 ^ (x l).toNat))) →
      (60 ≤ a.toNat → s.launch.ordered = true ∧ (tget ({} : CarrySlot) s.launch.lcb.carry (a.toNat - 60)).valid = true ∧
        ∀ l, s.lanesT.getLsbD l = true → 0 ≤ x l → x l ≤ 31 → ∃ v, s.view (a.toNat - 60) (x l).toNat = .val v) →
      ∃ t, exec i s = .next t ∧
        (∀ l, s.lanesT.getLsbD l = true →
          t.grp.val s.wide d.toNat l = if 0 ≤ x l ∧ x l ≤ 31 then s.operand s.wide a.toNat (x l).toNat else 0) ∧
        (∀ n, t.grp.pred n = s.grp.pred n ∨ n = s.grp.cur.gp) ∧
        (∀ l, l < 32 → (t.grp.pred s.grp.cur.gp).getLsbD l =
          if s.grp.cur.gp ≠ 0 ∧ s.lanesT.getLsbD l = true ∧ ¬ (0 ≤ x l ∧ x l ≤ 31) then s.grp.cur.gn
          else (s.grp.pred s.grp.cur.gp).getLsbD l) ∧
        RegsKept s t (regs s.wide d.toNat) s.lanesT ∧ Frame s.cur s t ∧ Advances s t ∧ Counted s t []
    shuffles (.shflAt st d a b) (fun _ x => x) ∧ shuffles (.shflRise st d a b) (fun l x => l - x) ∧
      shuffles (.shflFall st d a b) (fun l x => l + x) ∧
      shuffles (.shflFlip st d a b) (fun l x => ((l.toNat ^^^ x.toNat : Nat) : Int))

/-- R117, R119: votes over the lanes of T, and predicate logic. -/
def Rules.VotesAndPredicates : Prop :=
  ∀ (s : State) (st : BitVec 3) (d a b : BitVec 6),
    let m := s.grp.pred a.toNat &&& s.lanesT
    (Ready s [64 + a.toNat] [64 + d.toNat] →
      Predwise s (.voteAny st d a) d.toNat (fun _ => (decide (m ≠ 0), [])) ∧
      Predwise s (.voteAll st d a) d.toNat (fun _ => (decide (m = s.lanesT), [])) ∧
      Predwise s (.pnot st d a) d.toNat (fun l => (!(s.grp.pred a.toNat).getLsbD l, []))) ∧
    (Ready s [64 + a.toNat] [d.toNat] → Lanewise s (.voteBallot st d a) false d.toNat (fun _ => (m.toNat, []))) ∧
    (Ready s [64 + a.toNat, 64 + b.toNat] [64 + d.toNat] →
      let both (i : Instr) (f : Bool → Bool → Bool) : Prop := Predwise s i d.toNat
        (fun l => (f ((s.grp.pred a.toNat).getLsbD l) ((s.grp.pred b.toNat).getLsbD l), []))
      both (.pand st d a b) (fun x y => x && y) ∧ both (.por st d a b) (fun x y => x || y) ∧
        both (.pxor st d a b) (fun x y => x ^^ y))

/-- R118: scans over the lanes of T in ascending order, element by element. -/
def Rules.Scans : Prop :=
  ∀ (s : State) (st : BitVec 3) (d a : BitVec 6), IntReady s intTypes d.toNat [a.toNat] →
    let ty := s.ity
    let upTo (l e : Nat) : List Int := ((lanesOf s.lanesT).filter (fun j => decide (j ≤ l))).map (fun j => s.elemOf [a.toNat] j e 0)
    let below (l e : Nat) : List Int := ((lanesOf s.lanesT).filter (fun j => decide (j < l))).map (fun j => s.elemOf [a.toNat] j e 0)
    let scans (i : Instr) (f : Nat → Nat → Nat × List Nat) : Prop :=
      ∃ t, exec i s = .next t ∧
        (∀ l, s.lanesT.getLsbD l = true → ∀ e, e < ty.n → ty.raw (t.grp.val s.wide d.toNat l) e = (f l e).1) ∧
        Completes s t (regs s.wide d.toNat) s.lanesT
          ((lanesOf s.lanesT).flatMap (fun l => (List.range ty.n).flatMap (fun e => (f l e).2)))
    scans (.scanAdd st d a) (fun l e => ty.fit (upTo l e).sum) ∧
      scans (.scanAddx st d a) (fun l e => ty.fit (below l e).sum) ∧
      scans (.scanMin st d a) (fun l e => (wrap ty.w ((upTo l e).foldl min (s.elemOf [a.toNat] l e 0)), [])) ∧
      scans (.scanMax st d a) (fun l e => (wrap ty.w ((upTo l e).foldl max (s.elemOf [a.toNat] l e 0)), []))

/-! ### Special registers and event counters -/

/-- R120, R122, R123, R153, R154: what `rds` reads of each special register. -/
def Rules.SpecialRegisterReads : Prop :=
  ∀ (s : State) (st : BitVec 3) (d : BitVec 6),
    let g := s.grp
    let narrow (n : Nat) (f : Nat → Nat) : Prop := Ready s [] [d.toNat] →
      Lanewise s (.rds st d (BitVec.ofNat 12 n)) false d.toNat (fun l => (f l, []))
    let paired (n : Nat) (f : Nat → Nat) : Prop := Ready s [] [d.toNat, d.toNat + 1] →
      Lanewise s (.rds st d (BitVec.ofNat 12 n)) true d.toNat (fun l => (f l, []))
    narrow 0x000 (fun l => l) ∧ paired 0x001 (fun l => 32 * g.ord + l) ∧ paired 0x002 (fun _ => g.ord) ∧
      paired 0x003 (fun _ => s.team.ix) ∧ narrow 0x004 (fun _ => g.pos) ∧ narrow 0x005 (fun _ => s.team.size) ∧
      paired 0x006 (fun _ => s.launch.items) ∧ paired 0x007 (fun _ => s.launch.lcb.arg) ∧ narrow 0x008 (fun _ => s.active.toNat) ∧
      narrow 0x009 (fun _ => g.cur.mode.toNat) ∧
      narrow 0x00A (fun _ => g.core * 2 ^ 20 + s.team.cluster % 2048 * 2 ^ 9 + s.team.cluster / 2048) ∧
      paired 0x00B (fun _ => s.cycle) ∧ narrow 0x00C (fun _ => g.pos * 0x2000) ∧
      (∀ k, k < 4 → narrow (0x010 + k) (fun _ => (tget 0 g.user k).toNat)) ∧
      (∀ k, k < 6 → narrow (0x020 + k) (fun _ => (tget 0 s.team.evth k).toNat)) ∧ narrow 0x026 (fun _ => s.team.evstat.toNat)

/-- R121, R122, R153, R154: `wrs` writes the value of the lowest lane of T; a TRIP bit written as 1 is cleared. -/
def Rules.SpecialRegisterWrites : Prop :=
  ∀ (s : State) (st : BitVec 3) (d : BitVec 6), Ready s [d.toNat] [] →
    let x := s.source d.toNat (lowest s.lanesT)
    let writes (n : Nat) (s' : State) : Prop := ∃ t, exec (.wrs st d (BitVec.ofNat 12 n)) s = .next t ∧
      (if s.lanesT = 0 then Passes s t [] else Passes s' t [] ∧ t.team.evstat = s'.team.evstat)
    (∀ k, k < 4 → writes (0x010 + k) (s.setGrp { s.grp with user := mset 0 s.grp.user k x })) ∧
      (∀ c, c < 6 → writes (0x020 + c) (s.setTeam { s.team with evth := mset 0 s.team.evth c x })) ∧
      writes 0x026 (s.setTeam { s.team with evstat := s.team.evstat &&& ~~~(x &&& 0x3F) })

/-- R152, R156, R157: reading a total once the group's earlier instructions are complete, clearing counts, and a new window. -/
def Rules.EventCounters : Prop :=
  ∀ (s : State) (d c : BitVec 6),
    (Ready s [] [d.toNat] →
      (s.counting = false → Lanewise s (.evrd d c) false d.toNat (fun _ => (tget 0 s.team.total c.toNat, []))) ∧
      (s.counting = true → exec (.evrd d c) s = .next s.stand)) ∧
    (Ready s [] [] → ∃ t, exec (.evclr c) s = .next t ∧ Frame s.cur s t ∧ Advances s t ∧ t.grp.regs = s.grp.regs ∧
      t.grp.preds = s.grp.preds ∧ t.team.evstat = s.team.evstat ∧
      ∀ k, let cleared := s.lanesT ≠ 0 ∧ (c.toNat = 6 ∨ k = c.toNat)
        (tget 0 t.team.total k = if cleared then 0 else tget 0 s.team.total k) ∧
        (tget 0 t.team.window k = if cleared then 0 else tget 0 s.team.window k)) ∧
    (∀ k n, (s.teamOf k).st ≠ .absent → ∃ t, exec (.eventWindowReset k n) s = .next t ∧
      (∀ j, tget 0 (t.teamOf k).window j = if j = n then 0 else tget 0 (s.teamOf k).window j) ∧
      t = s.putTeam k { s.teamOf k with window := (t.teamOf k).window })

/-! ### Floating point -/

/-- R134 to R136, R139, R140: arithmetic forms the exact result of the prepared operands and delivers it with one rounding; a NaN
operand gives the canonical NaN, and `fma` counts its invalid product even beside a quiet NaN. What `fexp2` and `flog2` take as the exact
result is the model's: a number of 400 bits marked as inexact, taken to be enough for every rounding (log 9). -/
def Rules.FloatArithmetic : Prop :=
  ∀ (s : State) (st : BitVec 3) (d a b : BitVec 6) (c : BitVec 5),
    let fm := fmtOf s.et
    let md := s.grp.cur.fmode
    let v (x : Nat → Nat) (k : Nat) : FVal := fm.decode md.ftz (x k)
    (FloatReady s floatTypes d.toNat [a.toNat, b.toNat] →
      let delivers (i : Instr) (f : FVal → FVal → Exact) : Prop :=
        Floatwise s i d.toNat [a.toNat, b.toNat] (fun x => fm.result md [v x 0, v x 1] (f (v x 0) (v x 1)))
      delivers (.fadd st d a b) (fun p q => exactSum md.rm [p.exact, q.exact]) ∧
      delivers (.fsub st d a b) (fun p q => exactSum md.rm [p.exact, q.exact.negate]) ∧
      delivers (.fmul st d a b) exactMul) ∧
    (FloatReady s floatTypes d.toNat [a.toNat, b.toNat, c.toNat] →
      Floatwise s (.fma st d a b c) d.toNat [a.toNat, b.toNat, c.toNat] (fun x =>
        if ¬ (v x 0).isNan = true ∧ ¬ (v x 1).isNan = true ∧ exactMul (v x 0) (v x 1) = .invalid then (fm.qnan, [1])
        else fm.result md [v x 0, v x 1, v x 2] (exactSum md.rm [exactMul (v x 0) (v x 1), (v x 2).exact]))) ∧
    (FloatReady s floatTypes d.toNat [a.toNat] →
      let delivers (i : Instr) (f : FVal → Exact) : Prop :=
        Floatwise s i d.toNat [a.toNat] (fun x => fm.result md [v x 0] (f (v x 0)))
      delivers (.frcp st d a) (exactDiv (.fin false 1 0)) ∧ delivers (.frsq st d a) exactRsqrt ∧
        delivers (.fexp2 st d a) exactExp2 ∧ delivers (.flog2 st d a) exactLog2)

/-- R128, R30: a finite nonzero result is rounded to the precision of its format, subnormals included, by the direction in force;
beyond the largest finite number it saturates or overflows, and a result flushed or rounded to zero keeps its sign. An inexact result is
known to lie between m and m + 1 units, of which there are enough to decide the rounding, or it lies below or beyond the format's range. -/
def Rules.ResultsAreRounded : Prop :=
  ∀ (fm : FFmt) (md : FMode) (neg : Bool) (m : Nat) (e : Int) (more : Bool) (x : ℝ), fm ∈ [f32, f16, b16] → md.rm < 5 → 0 < m →
    (more = false → x = (m : ℝ) * 2 ^ e) →
    (more = true → (m : ℝ) * 2 ^ e < x ∧ x < ((m : ℝ) + 1) * 2 ^ e ∧
      (2 ^ (fm.fb + 1) ≤ m ∨ e < fm.emin ∨ (fm.bias : Int) < e)) →
    let k : Int := max (Int.log 2 x - fm.fb) fm.emin
    let y : ℝ := x / 2 ^ k
    let up : Prop :=
      (md.rm = 0 ∧ (1 / 2 < Int.fract y ∨ (Int.fract y = 1 / 2 ∧ ⌊y⌋ % 2 = 1))) ∨ (md.rm = 2 ∧ 0 < Int.fract y ∧ neg = false) ∨
      (md.rm = 3 ∧ 0 < Int.fract y ∧ neg = true) ∨ (md.rm = 4 ∧ 1 / 2 ≤ Int.fract y)
    ∃ q : Nat, ((up ∧ (q : Int) = ⌊y⌋ + 1) ∨ (¬ up ∧ (q : Int) = ⌊y⌋)) ∧
      let r := fm.deliver md (.fin neg m e more)
      let largest : ℝ := (2 - 2 ^ (-(fm.fb : Int))) * 2 ^ (fm.bias : Int)
      if largest < (q : ℝ) * 2 ^ k then
        r = if md.sat = true then (fm.maxFin neg, [2])
          else if md.rm = 1 ∨ (md.rm = 2 ∧ neg = true) ∨ (md.rm = 3 ∧ neg = false) then (fm.maxFin neg, [0]) else (fm.inf neg, [0])
      else if q = 0 ∨ (md.ftz = true ∧ (q : ℝ) * 2 ^ k < 2 ^ (1 - (fm.bias : Int))) then r = (fm.zero neg, [3])
      else ∃ m' e', fm.decode false r.1 = .fin neg m' e' ∧ (m' : ℝ) * 2 ^ e' = (q : ℝ) * 2 ^ k ∧ r.2 = []

/-- R128, R135: sums and products of finite operands are exact; sums that cancel are +0, or −0 under RDN; opposite infinities and
0 × ∞ are invalid. -/
def Rules.ExactSumsAndProducts : Prop :=
  let value (n : Bool) (m : Nat) (e : Int) : ℚ := (if n then -1 else 1) * (m : ℚ) * 2 ^ e
  ∀ (rm : Nat) (n n' : Bool) (m m' : Nat) (e e' : Int),
    (∃ n₀ m₀ e₀, exactSum rm [.fin n m e false, .fin n' m' e' false] = .fin n₀ m₀ e₀ false ∧
      value n₀ m₀ e₀ = value n m e + value n' m' e' ∧
      (m₀ = 0 → n₀ = if m = 0 ∧ m' = 0 ∧ n = n' then n else decide (rm = 3))) ∧
    (∃ e₀, exactMul (.fin n m e) (.fin n' m' e') = .fin (n ^^ n') (m * m') e₀ false ∧
      value (n ^^ n') (m * m') e₀ = value n m e * value n' m' e') ∧
    exactSum rm [.inf n, .inf n'] = (if n = n' then .inf n else .invalid) ∧
    exactSum rm [.inf n, .fin n' m' e' false] = .inf n ∧ exactSum rm [.fin n m e false, .inf n'] = .inf n' ∧
    exactMul (.inf n) (.fin n' m' e') = (if m' = 0 then .invalid else .inf (n ^^ n')) ∧
    exactMul (.fin n m e) (.inf n') = (if m = 0 then .invalid else .inf (n ^^ n')) ∧ exactMul (.inf n) (.inf n') = .inf (n ^^ n')

/-- R139, R140: quotients and roots by the tables, each bracketed between two neighbours of a precision of 26 bits or more, beyond every
format's, for operands of any format. 2^x of an integer and log2 of a power of two are exact; otherwise they are numbers of 400 bits behind the
point, marked as inexact, in the binade of the result (log 9). -/
def Rules.QuotientsAndRoots : Prop :=
  ∀ (n n' : Bool) (m m' : Nat) (e e' : Int),
    (0 < m' → ∃ q e₀ r, exactDiv (.fin n m e) (.fin n' m' e') = .fin (n ^^ n') q e₀ r ∧
      (q : ℚ) * 2 ^ e₀ ≤ (m : ℚ) * 2 ^ e / ((m' : ℚ) * 2 ^ e') ∧ (m : ℚ) * 2 ^ e / ((m' : ℚ) * 2 ^ e') < ((q : ℚ) + 1) * 2 ^ e₀ ∧
      (r = false ↔ (q : ℚ) * 2 ^ e₀ = (m : ℚ) * 2 ^ e / ((m' : ℚ) * 2 ^ e')) ∧ (0 < m → m' < 2 ^ 24 → 2 ^ 25 ≤ q)) ∧
    (0 < m → exactDiv (.fin n m e) (.fin n' 0 e') = .inf (n ^^ n')) ∧ exactDiv (.fin n 0 e) (.fin n' 0 e') = .invalid ∧
    exactDiv (.inf n) (.inf n') = .invalid ∧ exactDiv (.inf n) (.fin n' m' e') = .inf (n ^^ n') ∧
    exactDiv (.fin n m e) (.inf n') = .fin (n ^^ n') 0 0 false ∧
    (0 < m → m < 2 ^ 24 → ∃ q e₀ r, exactSqrt (.fin false m e) = .fin false q e₀ r ∧
      ((q : ℚ) * 2 ^ e₀) ^ 2 ≤ (m : ℚ) * 2 ^ e ∧ (m : ℚ) * 2 ^ e < (((q : ℚ) + 1) * 2 ^ e₀) ^ 2 ∧
      (r = false ↔ ((q : ℚ) * 2 ^ e₀) ^ 2 = (m : ℚ) * 2 ^ e) ∧ 2 ^ 25 ≤ q) ∧
    (0 < m → m < 2 ^ 24 → ∃ q e₀ r, exactRsqrt (.fin false m e) = .fin false q e₀ r ∧
      ((q : ℚ) * 2 ^ e₀) ^ 2 * ((m : ℚ) * 2 ^ e) ≤ 1 ∧ 1 < (((q : ℚ) + 1) * 2 ^ e₀) ^ 2 * ((m : ℚ) * 2 ^ e) ∧
      (r = false ↔ ((q : ℚ) * 2 ^ e₀) ^ 2 * ((m : ℚ) * 2 ^ e) = 1) ∧ 2 ^ 25 ≤ q) ∧
    (0 < m → -400 ≤ e →
      let x : ℚ := (if n then -1 else 1) * (m : ℚ) * 2 ^ e
      (|x| < 2 ^ 12 → (∀ k : Int, x = k → exactExp2 (.fin n m e) = .fin false 1 k false) ∧
        ((∀ k : Int, x ≠ k) → ∃ q, exactExp2 (.fin n m e) = .fin false q (⌊x⌋ - 400) true ∧ 2 ^ 400 ≤ q)) ∧
      (2 ^ 12 ≤ |x| → exactExp2 (.fin n m e) = .fin false 1 (if n then -5000 else 5000) true)) ∧
    (0 < m →
      let x : ℚ := (m : ℚ) * 2 ^ e
      (x = 2 ^ Int.log 2 x → exactLog2 (.fin false m e) = .fin (decide (Int.log 2 x < 0)) (Int.log 2 x).natAbs 0 false) ∧
      (x ≠ 2 ^ Int.log 2 x → ∃ b q, exactLog2 (.fin false m e) = .fin b q (-400) true ∧
        Int.log 2 x * 2 ^ 400 ≤ (if b then -(q : Int) else q))) ∧
    (0 < m → exactSqrt (.fin true m e) = .invalid ∧ exactRsqrt (.fin true m e) = .invalid) ∧
    exactSqrt (.fin n 0 e) = .fin n 0 0 false ∧ exactRsqrt (.fin n 0 e) = .inf n ∧ exactSqrt (.inf false) = .inf false ∧
    exactSqrt (.inf true) = .invalid ∧ exactRsqrt (.inf false) = .fin false 0 0 false ∧ exactRsqrt (.inf true) = .invalid ∧
    exactExp2 (.fin n 0 e) = .fin false 1 0 false ∧ exactExp2 (.inf false) = .inf false ∧ exactExp2 (.inf true) = .fin false 0 0 false ∧
    exactLog2 (.fin n 0 e) = .inf true ∧ exactLog2 (.inf false) = .inf false ∧ exactLog2 (.inf true) = .invalid ∧
    (0 < m → exactLog2 (.fin true m e) = .invalid)

/-- R137, R138, R142: minimum and maximum order −0 below +0 and prefer a number to a NaN; signs and classes act on raw bits. -/
def Rules.FloatSelection : Prop :=
  ∀ (s : State) (st : BitVec 3) (d a b : BitVec 6),
    let fm := fmtOf s.et
    let md := s.grp.cur.fmode
    let sign (x : Nat) : Bool := x.testBit (fm.eb + fm.fb)
    let mag (x : Nat) : Nat := x % 2 ^ (fm.eb + fm.fb)
    let nan (x : Nat) : Bool := decide ((2 ^ fm.eb - 1) * 2 ^ fm.fb < mag x)
    let signalling (x : Nat) : Bool := nan x && !x.testBit (fm.fb - 1)
    let flush (x : Nat) : Nat := if md.ftz = true ∧ mag x < 2 ^ fm.fb then x - mag x else x
    let order (x : Nat) : Int := if sign x = true then -(mag x : Int) - 1 else mag x
    (FloatReady s floatTypes d.toNat [a.toNat, b.toNat] →
      let selects (i : Instr) (first : Int → Int → Prop) [DecidableRel first] : Prop :=
        Floatwise s i d.toNat [a.toNat, b.toNat] (fun x =>
          (if nan (x 0) = true ∧ nan (x 1) = true then fm.qnan
           else if nan (x 0) = true then flush (x 1) else if nan (x 1) = true then flush (x 0)
           else if first (order (flush (x 0))) (order (flush (x 1))) then flush (x 0) else flush (x 1),
           if signalling (x 0) = true ∨ signalling (x 1) = true then [1] else []))
      selects (.fmin st d a b) (· ≤ ·) ∧ selects (.fmax st d a b) (· ≥ ·)) ∧
    (FloatReady s floatTypes d.toNat [a.toNat] →
      Floatwise s (.fabs st d a) d.toNat [a.toNat] (fun x => (mag (x 0), [])) ∧
      Floatwise s (.fneg st d a) d.toNat [a.toNat]
        (fun x => (if sign (x 0) = true then mag (x 0) else x 0 + 2 ^ (fm.eb + fm.fb), [])) ∧
      Floatwise s (.fclass st d a) d.toNat [a.toNat] (fun x =>
        (2 ^ (if nan (x 0) = true then (if signalling (x 0) = true then 8 else 9)
          else if mag (x 0) = (2 ^ fm.eb - 1) * 2 ^ fm.fb then (if sign (x 0) = true then 0 else 7)
          else if mag (x 0) = 0 then (if sign (x 0) = true then 3 else 4)
          else if mag (x 0) < 2 ^ fm.fb then (if sign (x 0) = true then 2 else 5)
          else if sign (x 0) = true then 1 else 6), [])))

/-- R139, R141: division and square root on the divider, and the dot product of two pairs added to a binary32 number. Of `fdot2`, that a quiet NaN
addend prevails over a product 0 × ∞ without an event (log 26), and the sign of a sum of three zeros (log 52), are deduced. -/
def Rules.FloatDividerAndDot : Prop :=
  ∀ (s : State) (st : BitVec 3) (d a b : BitVec 6),
    let fm := fmtOf s.et
    let md := s.grp.cur.fmode
    let joined (fs : List Nat) (l : Nat) (f : (Nat → Nat) → Nat × List Nat) : Nat × List Nat :=
      joinElems fm.width ((List.range (floatCount s.et)).map (fun e => f (s.floatElem fs l e)))
    let v (x : Nat → Nat) (k : Nat) : FVal := fm.decode md.ftz (x k)
    let slots := if s.et = 8 then 12 else 8
    (FloatReady s floatTypes d.toNat [a.toNat, b.toNat] → Divides s (.fdiv d a b) false d.toNat slots (fun l =>
      joined [a.toNat, b.toNat] l (fun x => fm.result md [v x 0, v x 1] (exactDiv (v x 0) (v x 1))))) ∧
    (FloatReady s floatTypes d.toNat [a.toNat] → Divides s (.fsqrt d a) false d.toNat slots (fun l =>
      joined [a.toNat] l (fun x => fm.result md [v x 0] (exactSqrt (v x 0))))) ∧
    (FloatReady s [9, 10] d.toNat [d.toNat, a.toNat, b.toNat] → d.toNat < 60 → Lanewise s (.fdot2 st d a b) false d.toNat (fun l =>
      let p (e : Nat) : FVal := fm.decode md.ftz ((s.source a.toNat l).toNat / 2 ^ (16 * e) % 2 ^ 16)
      let q (e : Nat) : FVal := fm.decode md.ftz ((s.source b.toNat l).toNat / 2 ^ (16 * e) % 2 ^ 16)
      let z := f32.decode md.ftz (s.grp.reg d.toNat l).toNat
      f32.result md [p 0, q 0, p 1, q 1, z] (exactSum md.rm [exactMul (p 0) (q 0), exactMul (p 1) (q 1), z.exact])))

/-- R143: the eight comparisons of binary32 numbers; −0 equals +0, and a signalling NaN counts one invalid event. -/
def Rules.FloatComparisons : Prop :=
  ∀ (s : State) (st : BitVec 3) (d a b : BitVec 6), s.et = 8 → Ready s [a.toNat, b.toNat] [64 + d.toNat] →
    let nan (x : Word) : Bool := decide (0x7F800000 < x.toNat % 2 ^ 31)
    let signalling (x : Word) : Bool := nan x && !x.getLsbD 22
    let mag (x : Word) : Nat := if s.grp.cur.ftz = true ∧ x.toNat % 2 ^ 31 < 2 ^ 23 then 0 else x.toNat % 2 ^ 31
    let order (x : Word) : Int := if x.getLsbD 31 = true then -(mag x : Int) else mag x
    let compares (i : Instr) (rel : Int → Int → Bool) (unordered : Bool) : Prop := Predwise s i d.toNat (fun l =>
      let x := s.source a.toNat l
      let y := s.source b.toNat l
      (if nan x = true ∨ nan y = true then unordered else rel (order x) (order y),
       if signalling x = true ∨ signalling y = true then [1] else []))
    compares (.fcmpEq st d a b) (fun x y => decide (x = y)) false ∧ compares (.fcmpNe st d a b) (fun x y => decide (x ≠ y)) true ∧
      compares (.fcmpLt st d a b) (fun x y => decide (x < y)) false ∧
      compares (.fcmpLe st d a b) (fun x y => decide (x ≤ y)) false ∧
      compares (.fcmpGt st d a b) (fun x y => decide (x > y)) false ∧
      compares (.fcmpGe st d a b) (fun x y => decide (x ≥ y)) false ∧ compares (.fcmpUn st d a b) (fun _ _ => false) true ∧
      compares (.fcmpOr st d a b) (fun _ _ => true) false

/-- R144, R145: the conversions listed, element by element: integers and floats are delivered; a float becomes an integer by
rounding, with its type's nearest limit where it lies outside. -/
def Rules.FloatConversions : Prop :=
  ∀ (s : State) (st : BitVec 3) (d a : BitVec 6) (e : BitVec 4) (n : Nat),
    let table : List (Nat × Nat × Nat) := [(8, 9, 2), (8, 10, 2), (9, 10, 2), (0, 8, 1), (1, 8, 1), (2, 8, 1), (3, 8, 1), (4, 9, 2),
      (4, 10, 2), (5, 9, 2), (5, 10, 2), (6, 9, 4), (6, 10, 4), (7, 9, 4), (7, 10, 4)]
    let x := e.toNat
    let y := s.et
    (x, y, n) ∈ table ∨ (y, x, n) ∈ table →
    let ws := decide (n * elemWidth x = 64)
    let wd := decide (n * elemWidth y = 64)
    (wd = true → isPair d.toNat = true) → (ws = true → isPair a.toNat = true) → Ready s (regs ws a.toNat) (regs wd d.toNat) →
    let md := s.grp.cur.fmode
    let one (p : Nat) : Nat × List Nat :=
      if x < 8 then
        let v := (intTy x false).value p
        (fmtOf y).deliver md (.fin (decide (v < 0)) v.natAbs 0 false)
      else if y < 8 then
        let ty := intTy y false
        match (fmtOf x).decode md.ftz p with
        | .nan _ => (0, [1])
        | .inf neg => (wrap ty.w (if neg = true then ty.lo else ty.hi), [2])
        | .fin neg m k =>
          let q : Int := (if neg = true then -1 else 1) * roundTo md.rm neg m k false 0
          if q < ty.lo then (wrap ty.w ty.lo, [2]) else if ty.hi < q then (wrap ty.w ty.hi, [2]) else (wrap ty.w q, [])
      else
        let v := (fmtOf x).decode md.ftz p
        (fmtOf y).result md [v] v.exact
    Lanewise s (.fcvt st d a e) wd d.toNat (fun l => joinElems (elemWidth y) ((List.range n).map (fun i =>
      one (s.operand ws a.toNat l / 2 ^ (elemWidth x * i) % 2 ^ elemWidth x))))

/-! ### Blocks -/

/-- R130, R132: in a packed block E stands in byte 0, the shift field or the zero point in byte 1, code i in its place after them,
and nothing beyond the block's size. -/
def Rules.BlockLayout : Prop :=
  ∀ (b : BlockFmt) (e second : Nat) (codes : List Nat), b.n ∈ [16, 32] → b.cb ∈ [3, 4, 5, 8] → e < 256 → second < 256 →
    codes.length = b.n → (∀ q ∈ codes, q < 2 ^ b.cb) →
    let blk := b.pack e second codes
    blk % 256 = e ∧ blk / 256 % 256 = second ∧ blk < 2 ^ (8 * b.size) ∧ ∀ i, i < b.n → b.code blk i = codes.getD i 0

/-- R30, R148: a number rounded to an integer: to nearest even, toward zero, up, down, or to nearest with ties away from zero. -/
def Rules.roundInt (rm : Nat) (y : ℚ) : Int :=
  if rm = 0 then (if Int.fract y < 1 / 2 ∨ (Int.fract y = 1 / 2 ∧ ⌊y⌋ % 2 = 0) then ⌊y⌋ else ⌊y⌋ + 1)
  else if rm = 1 then (if 0 ≤ y then ⌊y⌋ else ⌈y⌉)
  else if rm = 2 then ⌈y⌉
  else if rm = 3 then ⌊y⌋
  else if 0 ≤ y then ⌊y + 1 / 2⌋ else ⌈y - 1 / 2⌉

/-- The value of a binary32 pattern that is no NaN; an infinity counts as a number beyond every finite one. -/
def Rules.value32 (x : Nat) : ℚ :=
  match f32.decode false x with
  | .fin s m e => (if s then -1 else 1) * (m : ℚ) * 2 ^ e
  | .inf s => if s then -(2 ^ 451) else 2 ^ 451
  | .nan _ => 0

def Rules.isNan32 (x : Nat) : Bool := decide (0x7F800000 < x % 2 ^ 31)
def Rules.isInf32 (x : Nat) : Bool := decide (x % 2 ^ 31 = 0x7F800000)

/-- R148: how `sxpk` packs a block of mantissa width m: the shared exponent from the largest magnitude, each octet's shift, the codes rounded
and clamped, and the events counted. -/
def Rules.SxPacking : Prop :=
  ∀ (cb n rm : Nat) (xs : List Nat), cb ∈ [3, 5, 8] → n ∈ [16, 32] → rm < 5 → xs.length = n → (∀ x ∈ xs, x < 2 ^ 32) →
    let b : BlockFmt := ⟨true, cb, n⟩
    let m := cb - 1
    let v := Rules.value32
    let unit (e : Int) (sh : Nat) : ℚ := 2 ^ (e - 127 - ((m : Int) - 1) - sh)
    let octet (o : Nat) : List Nat := (xs.drop (8 * o)).take 8
    (xs.any Rules.isNan32 = true → b.packed rm xs = (255, [1])) ∧
    (xs.any Rules.isNan32 = false → (∀ x ∈ xs, v x = 0) → b.packed rm xs = (0, [])) ∧
    (xs.any Rules.isNan32 = false → (∃ x ∈ xs, v x ≠ 0) → ∀ (top : ℚ) (most : Nat → ℚ),
      (∃ x ∈ xs, |v x| = top) → (∀ x ∈ xs, |v x| ≤ top) →
      (∀ o, o < n / 8 → (∃ x ∈ octet o, |v x| = most o) ∧ ∀ x ∈ octet o, |v x| ≤ most o) →
      let e0 : Int := Int.log 2 top + 127
      let e1 := if Rules.roundInt rm (top / unit e0 0) = 2 ^ m then e0 + 1 else e0
      let e : Int := if xs.any Rules.isInf32 = true then 254 else max 1 (min 254 e1)
      let fits (o sh : Nat) : Prop := Rules.roundInt rm (most o / unit e sh) ≤ 2 ^ m - 1
      let shift (o : Nat) (sh : Nat) : Prop :=
        if (octet o).any Rules.isInf32 = true then sh = 0
        else (sh ≤ 3 ∧ fits o sh ∧ ∀ j, sh < j → j ≤ 3 → ¬ fits o j) ∨ (sh = 0 ∧ ∀ j, j ≤ 3 → ¬ fits o j)
      ∀ shs : Nat → Nat, (∀ o, o < n / 8 → shift o (shs o)) →
      let q (i : Nat) : Int := Rules.roundInt rm (v (xs.getD i 0) / unit e (shs (i / 8)))
      let code (i : Nat) : Nat :=
        (if q i < 0 ∨ (q i = 0 ∧ (xs.getD i 0).testBit 31 = true) then 2 ^ m else 0) + min (q i).natAbs (2 ^ m - 1)
      b.packed rm xs = (b.pack e.toNat ((List.range (n / 8)).map (fun o => shs o * 4 ^ o)).sum ((List.range n).map code),
        (if xs.any Rules.isInf32 = true then List.replicate (xs.filter Rules.isInf32).length 0 else if e = e1 then [] else [4]) ++
        (List.range n).flatMap (fun i => if 2 ^ m - 1 < (q i).natAbs then [2] else if v (xs.getD i 0) ≠ 0 ∧ q i = 0 then [3] else [])))

/-- R149: how `zpk` packs a block with code maximum Q: the scale from the span of the inputs and zero, the zero point, the codes rounded and
clamped, and the events counted. -/
def Rules.ZPacking : Prop :=
  ∀ (cb n rm : Nat) (xs : List Nat), cb ∈ [4, 8] → n ∈ [16, 32] → rm < 5 → xs.length = n → (∀ x ∈ xs, x < 2 ^ 32) →
    let b : BlockFmt := ⟨false, cb, n⟩
    let top : Int := 2 ^ cb - 1
    let v := Rules.value32
    (xs.any Rules.isNan32 = true → b.packed rm xs = (255, [1])) ∧
    (xs.any Rules.isNan32 = false → ∀ lo hi : ℚ, (lo = 0 ∨ ∃ x ∈ xs, v x = lo) → lo ≤ 0 → (∀ x ∈ xs, lo ≤ v x) →
      (hi = 0 ∨ ∃ x ∈ xs, v x = hi) → 0 ≤ hi → (∀ x ∈ xs, v x ≤ hi) →
      (hi = lo → b.packed rm xs = (0, [])) ∧
      (hi ≠ lo → ∀ e0 : Int, hi - lo ≤ (top : ℚ) * 2 ^ (e0 - 127) → (top : ℚ) * 2 ^ (e0 - 128) < hi - lo →
        let e : Int := max 1 (min 254 e0)
        let clamp (u : Int) : Int := max 0 (min top u)
        let z := clamp (Rules.roundInt rm (-lo / 2 ^ (e - 127)))
        let u (i : Nat) : Int := Rules.roundInt rm (v (xs.getD i 0) / 2 ^ (e - 127)) + z
        b.packed rm xs = (b.pack e.toNat z.toNat ((List.range n).map (fun i => (clamp (u i)).toNat)),
          (if e = e0 then [] else [4]) ++ (List.range n).flatMap (fun i =>
            (if clamp (u i) ≠ u i then [2] else []) ++ (if v (xs.getD i 0) ≠ 0 ∧ clamp (u i) = z then [3] else [])))))

/-- R146, R147: `sxpk` and `zpk` pack each block from the lanes of T, other lanes counting as +0, and write its words, zero beyond
them, in the lanes of T. -/
def Rules.BlockPacking : Prop :=
  ∀ (s : State) (st : BitVec 3) (d a : BitVec 6) (n : BitVec 1) (f : BitVec 2), Ready s [a.toNat] [d.toNat] →
    let packs (i : Instr) (b : BlockFmt) : Prop :=
      let input (l : Nat) : Nat := if s.lanesT.getLsbD l = true then f32.prepare s.grp.cur.ftz (s.source a.toNat l).toNat else 0
      let block (k : Nat) : Packed := b.packed s.grp.cur.rm ((List.range b.n).map (fun i => input (b.n * k + i)))
      ∃ t, exec i s = .next t ∧
        (∀ l, s.lanesT.getLsbD l = true →
          t.grp.reg d.toNat l = BitVec.ofNat 32 ((block (l / b.n)).1 / 2 ^ (32 * (l % b.n)))) ∧
        Completes s t [d.toNat] s.lanesT ((List.range (32 / b.n)).flatMap (fun k => (block k).2))
    let length := if n = 1 then 32 else 16
    packs (.sxpk st d a n f) ⟨true, if f = 0 then 8 else if f = 1 then 5 else 3, length⟩ ∧
      packs (.zpk st d a n f) ⟨false, if f = 0 then 8 else 4, length⟩

/-- R131, R133, R150: `sxupk` and `zupk` give each lane of T the value of its element, from the bytes in its block's first lanes. -/
def Rules.BlockUnpacking : Prop :=
  ∀ (s : State) (st : BitVec 3) (d a : BitVec 6) (n : BitVec 1) (f : BitVec 2), Unhindered s [a.toNat, d.toNat] → a.toNat < 60 →
    let length := if n = 1 then 32 else 16
    let byte (l j : Nat) : Nat := (s.grp.reg a.toNat (l / length * length + j / 4)).toNat / 2 ^ (8 * (j % 4)) % 256
    let code (cb l : Nat) : Nat :=
      ((List.range (cb * length / 8)).map (fun j => byte l (2 + j) * 2 ^ (8 * j))).sum / 2 ^ (cb * (l % length)) % 2 ^ cb
    let unpacks (i : Instr) (cb : Nat) (value : Nat → Bool × Nat × Int) : Prop :=
      (∀ l, s.lanesT.getLsbD l = true → ∀ j, j < cb * length / 8 + 2 → 32 * a.toNat + (l / length * length + j / 4) ∉ s.grp.bad) →
      Lanewise s i false d.toNat (fun l =>
        if byte l 0 = 255 then (f32.qnan, [])
        else if byte l 0 = 0 then (0, [])
        else f32.deliver s.grp.cur.fmode (.fin (value l).1 (value l).2.1 (value l).2.2 false))
    let sx := if f = 0 then 8 else if f = 1 then 5 else 3
    let z := if f = 0 then 8 else 4
    let difference (l : Nat) : Int := (code z l : Int) - (byte l 1 % 2 ^ z : Nat)
    unpacks (.sxupk st d a n f) sx (fun l => ((code sx l).testBit (sx - 1), code sx l % 2 ^ (sx - 1),
      (byte l 0 : Int) - 127 - ((sx : Int) - 2) - (byte l 1 / 4 ^ (l % length / 8) % 4 : Nat))) ∧
    unpacks (.zupk st d a n f) z (fun l => (decide (difference l < 0), (difference l).natAbs, (byte l 0 : Int) - 127))

/-! ### Control flow -/

/-- R64, R77 to R79: branches send the lanes of T to their targets and the fragment's other lanes to the next word; a `brt` lane
outside T goes with the default lanes. -/
def Rules.Branches : Prop :=
  ∀ (s : State) (st : BitVec 3) (o : BitVec 23) (a : BitVec 6) (n : BitVec 11),
    let pc := s.grp.cur.pc
    let goesTo (target : Nat → BitVec 64) (l : Nat) (p : Place) : Prop :=
      p = { s.here with pc := if s.lanesT.getLsbD l = true then target l else pc + 4 }
    (Ready s [] [] → ∃ t, exec (.br st o) s = .next t ∧ t.grp.regs = s.grp.regs ∧
      Transfers s t (goesTo (fun _ => pc + 4 * o.signExtend 64))) ∧
    (Ready s (regs true a.toNat) [] → ∃ t, exec (.bra st a) s = .next t ∧ t.grp.regs = s.grp.regs ∧
      Transfers s t (goesTo (fun l => BitVec.ofNat 64 (s.operand true a.toNat l) &&& ~~~3))) ∧
    (Ready s [a.toNat] [] →
      let word (ix : Nat) : Nat := pc.toNat + 4 + 4 * ix
      let target (l : Nat) : Nat :=
        let ix := (s.source a.toNat l).toNat
        if s.lanesT.getLsbD l = true ∧ ix ≤ n.toNat then
          match s.codePa (word ix) with
          | none => word ix
          | some pa => s.launch.lcb.codeBase + (s.codeAt pa).toNat / 4 * 4
        else word (n.toNat + 1)
      ∃ s' t, exec (.brt a n) s = .next t ∧ t.grp.regs = s.grp.regs ∧
        Transfers s' t (fun l p => p = { s.here with pc := BitVec.ofNat 64 (target l) }) ∧
        s' = { s with clusters := s'.clusters } ∧ (∀ k, k ≠ s.team.cluster → s'.clusterOf k = s.clusterOf k) ∧
        s'.cluster = { s.cluster with icache := s'.cluster.icache } ∧
        (s.cluster.icache.length + 32 ≤ Config.icacheWords →
          ∀ pa, tfind s'.cluster.icache pa = tfind s.cluster.icache pa ∨ tfind s'.cluster.icache pa = some (s.codeAt pa)))

/-- R80, R81: calls record the return address in `v58`-`v59` of the lanes of T and send them one depth down; at depth 63 they trap
with no effect. The targets of `calla` are read before the link is written. -/
def Rules.Calls : Prop :=
  ∀ (s : State) (st : BitVec 3) (o : BitVec 23) (a : BitVec 6),
    let pc := s.grp.cur.pc
    let calls (i : Instr) (target : Nat → BitVec 64) : Prop :=
      if s.lanesT ≠ 0 ∧ s.grp.cur.depth = 63 then exec i s = .next (s.trap 0x38 0x11)
      else ∃ t, exec i s = .next t ∧
        (∀ l, s.lanesT.getLsbD l = true → t.grp.val true 58 l = (pc + 4).toNat) ∧ RegsKept s t [58, 59] s.lanesT ∧
        Transfers s t (fun l p => p = if s.lanesT.getLsbD l = true then { s.here with pc := target l, depth := s.grp.cur.depth + 1 }
          else { s.here with pc := pc + 4 })
    (Ready s [] [58, 59] → calls (.call st o) (fun _ => pc + 4 * o.signExtend 64)) ∧
    (Ready s (regs true a.toNat) [58, 59] → calls (.calla st a) (fun l => BitVec.ofNat 64 (s.operand true a.toNat l) &&& ~~~3))

/-- R70, R82: `ret` below depth 0 sends the lanes of T to their return addresses one depth up, with the first entry of the chain of
a lesser depth as their fuse stack, and withdraws them from the chain's entries of their depth or more. -/
def Rules.Returns : Prop :=
  ∀ (s : State) (st : BitVec 3), Ready s [58, 59] [] → s.grp.cur.depth ≠ 0 →
    let f := s.grp.cur
    let chain := s.grp.chain 64 f.ftop f.fv
    let outer := chain.find? (fun e => decide ((tget {} s.grp.pool e).depth < f.depth))
    ∃ t, exec (.ret st) s = .next t ∧ Frame s.cur s t ∧ t.grp.regs = s.grp.regs ∧ t.grp.preds = s.grp.preds ∧
      t.grp.selects ∧
      (∀ l, s.active.getLsbD l = true → t.grp.holds l (if s.lanesT.getLsbD l = true then
        { s.here with pc := BitVec.ofNat 64 (s.operand true 58 l) &&& ~~~3, depth := f.depth - 1, ftop := outer.getD 0,
                      fv := outer.isSome }
        else { s.here with pc := f.pc + 4 })) ∧
      (∀ h ∈ s.grp.rest, h.st ≠ .free → h.st ≠ .joinWait → ∀ l, h.mask.getLsbD l = true → t.grp.holds l h.place) ∧
      ∀ e p, (e, p) ∈ t.grp.pool → ∃ q, (e, q) ∈ s.grp.pool ∧
        p = { q with exp := if e ∈ chain ∧ f.depth ≤ (tget {} s.grp.pool e).depth then q.exp &&& ~~~s.lanesT else q.exp }

/-- R83: `fuse` makes a pool entry for the fragment's lanes in the lowest free place, has no effect where the top entry already
serves, and traps where no place is free. -/
def Rules.Fuses : Prop :=
  ∀ (s : State) (st : BitVec 3) (o : BitVec 23), s.grp.selectable s.grp.cur = true →
    let f := s.grp.cur
    let tgt := f.pc + 4 * o.signExtend 64
    let entry (e : Nat) : Fuse := tget {} s.grp.pool e
    let met := f.fv = true ∧ (entry f.ftop).tgt = tgt ∧ (entry f.ftop).depth = f.depth ∧ f.mask &&& ~~~(entry f.ftop).exp = 0
    let new : Fuse := { exp := f.mask, tgt, depth := f.depth, parent := f.ftop, pv := f.fv, live := true }
    (met → ∃ t, exec (.fuse st o) s = .next t ∧ t.grp.regs = s.grp.regs ∧
      Transfers s t (fun _ p => p = { s.here with pc := f.pc + 4 })) ∧
    (¬ met → (∀ e, e < 64 → (entry e).live = true) → exec (.fuse st o) s = .next (s.trap 0x38 0x10)) ∧
    (∀ e, ¬ met → e < 64 → (entry e).live = false → (∀ j, j < e → (entry j).live = true) →
      ∃ t, exec (.fuse st o) s = .next t ∧ t.grp.regs = s.grp.regs ∧
        Transfers (s.setGrp { s.grp with pool := tput s.grp.pool e new }) t
          (fun _ p => p = { s.here with pc := f.pc + 4, ftop := e, fv := true }))

/-- R71, R84: `join` at a matching entry waits; when every lane expected has arrived, they go on as one fragment behind the join with
the mode of the one that holds the lowest lane, and the entry is freed. Elsewhere it has no effect. -/
def Rules.Joins : Prop :=
  ∀ (s : State) (st : BitVec 3), s.grp.selectable s.grp.cur = true →
    let f := s.grp.cur
    let top : Fuse := tget {} s.grp.pool f.ftop
    let met := f.fv = true ∧ top.tgt = f.pc ∧ top.depth = f.depth
    let waiting := { f with st := .joinWait, wait := .none } ::
      s.grp.rest.filter (fun h => h.st == .joinWait && h.fv && h.ftop == f.ftop)
    let arrived := waiting.foldl (fun m h => m ||| h.mask) 0
    let full := top.live = true ∧ top.exp ≠ 0 ∧ top.exp &&& ~~~arrived = 0
    (¬ met → ∃ t, exec (.join st) s = .next t ∧ t.grp.regs = s.grp.regs ∧
      Transfers s t (fun _ p => p = { s.here with pc := f.pc + 4 })) ∧
    (met → ¬ full → ∃ t, exec (.join st) s = .next t ∧ t.grp.regs = s.grp.regs ∧
      Transfers s t (fun _ p => p = { s.here with st := FState.joinWait })) ∧
    (met → full → ∃ t, exec (.join st) s = .next t ∧ Frame s.cur s t ∧ t.grp.regs = s.grp.regs ∧ t.grp.preds = s.grp.preds ∧
      t.grp.selects ∧ t.grp.pool = tdel s.grp.pool f.ftop ∧
      (∃ lead ∈ waiting, (∀ h ∈ waiting, lowest lead.mask ≤ lowest h.mask) ∧ ∀ l, top.exp.getLsbD l = true →
        t.grp.holds l { lead.place with pc := top.tgt + 4, depth := top.depth, ftop := top.parent, fv := top.pv, st := .ready }) ∧
      ∀ h ∈ s.grp.rest, h.st ≠ .free → h ∉ waiting → ∀ l, h.mask.getLsbD l = true → t.grp.holds l h.place)

/-- R70, R75, R82, R86, R169, R170: `exit`, and `ret` at depth 0, end the lanes of T: they are exited, stand nowhere and leave every
expectation; the fragment's other lanes go on. In an ordered launch each publishes the slots it owes, broken in a handler; where the group
has no lane left, what its own later lanes would have read goes with it. What an exit waits for is log 16. -/
def Rules.Exits : Prop :=
  ∀ (s : State) (st : BitVec 3),
    let f := s.grp.cur
    let owes (j l : Nat) : Prop := s.launch.ordered = true ∧ j < 4 ∧ s.lanesT.getLsbD l = true ∧
      (tget ({} : CarrySlot) s.launch.lcb.carry j).valid = true ∧ (tget 0 s.grp.pub j).getLsbD l = false
    let exits (i : Instr) (srcs : List Nat) : Prop :=
      Ready s srcs ((s.owesSlots s.lanesT).map (fun x => s.grp.binding s.launch x.1 x.2)) → s.grp.selectable f = true →
      (∀ x ∈ s.owesSlots s.lanesT, 32 * s.grp.binding s.launch x.1 x.2 + x.2 ∉ s.grp.bad) →
      (s.returning = true → s.owesSlots s.lanesT ≠ [] → exec i s = .next s.stand) ∧
      (s.returning = false ∨ s.owesSlots s.lanesT = [] →
        ∃ t, exec i s = .next t ∧ t.grp.exited = s.grp.exited ||| s.lanesT ∧ t.grp.regs = s.grp.regs ∧ t.grp.preds = s.grp.preds ∧
          t.mem = s.mem ∧ t.clusters = s.clusters ∧ (∀ k, k ≠ s.cur → t.group k = s.group k) ∧ t.grp.selects ∧
          (∀ l p, s.lanesT.getLsbD l = true → ¬ t.grp.holds l p) ∧
          (∀ l, s.active.getLsbD l = true → s.lanesT.getLsbD l = false → t.grp.holds l { s.here with pc := f.pc + 4 }) ∧
          (∀ x ∈ t.grp.pool, x.2.exp &&& s.lanesT = 0) ∧
          ∀ j l, owes j l →
            let item := 32 * s.grp.ord + l
            (.carryMessage s.team.launch item j) ∈ t.agenda ∧
            (t.grp.live ≠ 0 ∨ (item + (tget ({} : CarrySlot) s.launch.lcb.carry j).k) / 32 ≠ s.grp.ord →
              ∃ c ∈ t.carried, c.launch = s.team.launch ∧ c.item = item ∧ c.slot = j ∧ c.place = .sent ∧ c.cluster = s.team.cluster ∧
                c.value = if f.handler = true then none else some (s.grp.reg (s.grp.binding s.launch j l) l)))
    exits (.exit st) [] ∧ (f.depth = 0 → exits (.ret st) [58, 59])

/-- R31, R85, R87 to R89: `nop` has no effect beyond its slot; the mode instructions write the mode of the issuing fragment, and a
reserved code traps; `yield` gives up the group's turn until YIELD_END re-evaluates its selection. -/
def Rules.GroupControl : Prop :=
  ∀ (s : State) (st : BitVec 3) (m : BitVec 16) (n : BitVec 1) (p : BitVec 3),
    (∃ t, exec (.nop st) s = .next t ∧ Passes s t []) ∧
    (let ok := m.toNat / 2 ^ 7 % 16 ≤ 10 ∧ m.toNat / 2 ^ 11 % 8 ≤ 4 ∧ m.toNat % 8 = 0
     (ok → ∃ t, exec (.mode st m) s = .next t ∧ Passes (s.setGrp { s.grp with cur := { s.grp.cur with mode := m } }) t []) ∧
     (¬ ok → exec (.mode st m) s = .next (s.trap 2 1))) ∧
    (∃ t m', exec (.modg st n p) s = .next t ∧ Passes (s.setGrp { s.grp with cur := { s.grp.cur with mode := m' } }) t [] ∧
      ∀ k, k < 16 → m'.getLsbD k =
        if k = 6 then decide (n = 1) else if 3 ≤ k ∧ k ≤ 5 then p.getLsbD (k - 3) else s.grp.cur.mode.getLsbD k) ∧
    (∃ t, exec (.yield st) s = .next t ∧ Passes (s.setGrp { s.grp with yielded := 16 }) t []) ∧
    (∀ k, (s.group k).yielded ≠ 0 → (s.group k).cur.wait.pinned = false →
      ∃ t, exec (.yieldEnd k) s = .next t ∧ (t.group k).yielded = 0 ∧ (t.group k).selects ∧
      (∀ l q, (t.group k).holds l q ↔ (s.group k).holds l q) ∧ (t.group k).regs = (s.group k).regs ∧
      (t.group k).preds = (s.group k).preds ∧ t = s.putGroup k (t.group k)) ∧
    (∀ k, (s.group k).yielded = 0 → exec (.yieldEnd k) s = .next s)

/-! ### Traps -/

/-- R381: TCAUSE holds the code in [7:0], the detail in [15:8], and DEFER in [16]; its other bits are zero. It is zero when a group starts,
and cannot be written. -/
def Rules.TrapCause : Prop :=
  (∀ (s : State) (code detail : Nat) (addr : BitVec 64) (defer : Bool), code < 256 → detail < 256 → s.grp.cur.handler = false →
    let w := (s.trapWith code detail addr defer).grp.tcause.toNat
    w % 256 = code ∧ w / 256 % 256 = detail ∧ w / 65536 % 2 = (if defer then 1 else 0) ∧ w / 131072 = 0) ∧
  (∀ (l : Launch) (team ord pos now : Nat) (cp : Nat × Nat), (l.freshGroup team ord pos cp now).tcause = 0) ∧
  ∀ (s : State) (d : BitVec 6), exec (.wrsp d 0x10) s = .next (s.trap 0x48 1) ∨ exec (.wrsp d 0x10) s = .next (s.trap 0x48 4)

/-- R375, R380: a trap at user level saves the fragment in the trap record, its PC, mask and mode in the trap registers, and goes on
with a handler fragment of the same lanes at the launch's handler address; it changes no register, predicate or memory, and interrupts
the control complex where TRAPI is set. -/
def Rules.TrapEntry : Prop :=
  ∀ (s : State) (code detail : Nat) (addr : BitVec 64) (defer : Bool), s.grp.cur.handler = false →
    let f := s.grp.cur
    let t := s.trapWith code detail addr defer
    t.grp.tpc = f.pc ∧ t.grp.taddr = addr ∧ t.grp.tmask = f.mask ∧ t.grp.tmode = f.mode.setWidth 32 ∧
      t.grp.record = some { f with st := .trapped, wait := .none } ∧ t.grp.cur.mask = f.mask ∧
      t.grp.cur.place = ⟨BitVec.ofNat 64 s.launch.lcb.handler, 0, 0, 0, false, .ready, true⟩ ∧ t.grp.rest = s.grp.rest ∧
      t.grp.regs = s.grp.regs ∧ t.grp.preds = s.grp.preds ∧ t.grp.pool = s.grp.pool ∧ t.grp.busy = s.grp.busy ∧
      t.fixed = s.fixed ∧ (∀ k, k ≠ s.cur → t.group k = s.group k) ∧ t.teams = s.teams ∧ t.launches = s.launches ∧
      t.interrupts = if s.ctx.exctl.getLsbD 2 = true then s.interrupts ++ [⟨2, placeName s.team s.grp, code, detail⟩] else s.interrupts

/-- A kill of the issuing group's fault domain, or of its whole context, is in progress. -/
def Rules.killed (s : State) : Prop :=
  ∃ j ∈ s.kill, j.ctx = s.team.ctx ∧ (j.whole = true ∨ j.fdom = s.launch.lcb.fdom)

/-- R384: a trap at handler level enters no handler: the launch's fault domain is killed with cause 2, and the kill keeps the code, the
detail and the PC for its record. Of the groups none is entered or changed: those of the domain go, the others stand as they were. -/
def Rules.DoubleTrap : Prop :=
  ∀ (s : State) (code detail : Nat) (addr : BitVec 64) (defer : Bool), s.grp.cur.handler = true → ¬ Rules.killed s →
    let t := s.trapWith code detail addr defer
    (∀ x ∈ t.groups, x ∈ s.groups) ∧
    (∃ j ∈ t.kill, j.ctx = s.team.ctx ∧ j.whole = false ∧ j.fdom = s.launch.lcb.fdom ∧ j.cause = 2 ∧ j.code = code ∧
      j.detail = detail ∧ j.lcb = s.launch.lcb.addr ∧ j.pc = s.grp.cur.pc.toNat) ∧
    .killComplete ∈ t.agenda ∧ t.mem = s.mem ∧
    (∀ x ∈ s.teams, s.inDomain false s.team.ctx s.launch.lcb.fdom x.2 = true →
      x.1 ∉ t.teams.map (·.1) ∧ ∀ g ∈ t.groups, g.2.team ≠ x.1) ∧
    (∀ x ∈ s.teams, (∀ y ∈ s.teams, y.1 = x.1 → s.inDomain false s.team.ctx s.launch.lcb.fdom y.2 = false) → x ∈ t.teams) ∧
    ∀ x ∈ s.groups, (∀ y ∈ s.teams, y.1 = x.2.team → s.inDomain false s.team.ctx s.launch.lcb.fdom y.2 = false) → x ∈ t.groups

/-- R393, R394: where a kill of the domain is in progress, which has stopped it, a further double trap changes nothing. A double trap
leaves the copies, borrows, launches and carried values of other domains as they were. -/
def Rules.DoubleTrapSpares : Prop :=
  ∀ (s : State) (code detail : Nat) (addr : BitVec 64) (defer : Bool), s.grp.cur.handler = true →
    let t := s.trapWith code detail addr defer
    let mine (k : Nat) : Prop := ∃ y ∈ s.teams, y.1 = k ∧ s.inDomain false s.team.ctx s.launch.lcb.fdom y.2 = true
    let gone (k : Nat) : Prop := ∃ y ∈ s.launches, y.1 = k ∧ y.2.st ≠ .none ∧ y.2.ctx = s.team.ctx ∧ y.2.lcb.fdom = s.launch.lcb.fdom
    (Rules.killed s → t = s) ∧
    (¬ Rules.killed s → t.circ = s.circ ∧ t.reqs = s.reqs ∧ t.peers = s.peers ∧ t.queues = s.queues ∧
      (∀ x ∈ s.copies, ¬ mine x.2.team → x ∈ t.copies) ∧ (∀ x ∈ s.launches, ¬ gone x.1 → x ∈ t.launches) ∧
      (∀ x ∈ s.tasks, ¬ gone x.2.launch → x ∈ t.tasks) ∧ (∀ x ∈ s.carried, ¬ gone x.launch → x ∈ t.carried) ∧
      ∀ c, c ≠ s.team.ctx → t.ctxOf c = s.ctxOf c)

/-- R383, R387: `tret` of the last handler fragment returns every live handler lane to the trapped fragment, at TPC with TMODE and at
user level, and frees the handler fragments; before that it waits. Registers and memory stay. -/
def Rules.TrapReturn : Prop :=
  ∀ (s : State) (f : Frag), s.grp.cur.handler = true → s.grp.cur.st = .ready → s.grp.record = some f →
    let waits := ∃ h ∈ s.grp.rest, h.handler = true ∧ h.st ≠ .free ∧ h.wait ≠ .tret
    ∃ t, exec .tret s = .next t ∧ Frame s.cur s t ∧ t.grp.regs = s.grp.regs ∧ t.grp.preds = s.grp.preds ∧ t.grp.selects ∧
      (¬ waits → t.grp.record = none ∧ (∀ l p, t.grp.holds l p → p.handler = false) ∧
        (∀ l, s.grp.handlerLanes.getLsbD l = true → t.grp.holds l
          { f.place with pc := s.grp.tpc &&& ~~~3, mode := s.grp.tmode.setWidth 16, st := .ready, handler := false }) ∧
        ∀ h ∈ s.grp.rest, h.st ≠ .free → h.handler = false → ∀ l, h.mask.getLsbD l = true → t.grp.holds l h.place) ∧
      (waits → t.grp.record = some f ∧ (∃ h ∈ t.grp.cur :: t.grp.rest, h.mask = s.active ∧ h.pc = s.grp.cur.pc ∧ h.wait = .tret) ∧
        ∀ l p, t.grp.holds l p ↔ s.grp.holds l p)

/-- R25, R386, R389: `trap` and `brk` trap with their number where a lane is guarded-on, once their slots have passed, by which the gaps
owed are shorter, and have no effect beyond their slot elsewhere; with BRKH set `brk` halts its context as `halt` does, naming its own address, and RUN resumes it; deferred traps it then
holds stand as they were but for the fragment they wait for (R382). -/
def Rules.SoftwareTrapsAndHalt : Prop :=
  ∀ (s : State) (st : BitVec 3) (n : BitVec 6),
    let halts (i : Instr) : Prop := ∃ t, exec i s = .next t ∧ Passes (s.putCtx s.team.ctx { s.ctx with halted := true }) t [] ∧
      (t.ctxOf s.team.ctx).halted = true ∧ ⟨9, placeName s.team s.grp, s.grp.cur.pc.toNat, 0⟩ ∈ t.interrupts
    let traps (i : Instr) (code : Nat) : Prop := ∃ s1, exec i s = .next (s1.trap code n.toNat) ∧ Frame s.cur s s1 ∧
      s1.cycle = s.cycle + 2 * (1 + st.toNat) ∧ s1.grp.cur = s.grp.cur ∧ s1.grp.rest = s.grp.rest ∧ s1.grp.regs = s.grp.regs ∧
      s1.grp.preds = s.grp.preds ∧ s1.grp.fixed = s.grp.fixed ∧
      ∀ e ∈ s1.grp.owed, ∃ e0 ∈ s.grp.owed, e0.code = e.code ∧ e0.due = e.due ∧ e0.left = e.left + (1 + st.toNat)
    (Ready s [] [] →
      (s.lanesT = 0 → ∃ t, exec (.trap st n) s = .next t ∧ Passes s t []) ∧
      (s.lanesT ≠ 0 → traps (.trap st n) 0x40) ∧
      (s.lanesT = 0 → ∃ t, exec (.brk st n) s = .next t ∧ Passes s t []) ∧
      (s.lanesT ≠ 0 → s.ctx.exctl.getLsbD 1 = false → traps (.brk st n) 0x41) ∧
      (s.lanesT ≠ 0 → s.ctx.exctl.getLsbD 1 = true → halts (.brk st n))) ∧
    (s.inSystem = true → halts .halt) ∧
    ∀ v, let c := v % 2 ^ 20
      ∃ t, exec (.run v) s = .next t ∧ (t.ctxOf c).halted = false ∧ (∀ d, d ≠ c → t.ctxOf d = s.ctxOf d) ∧
        t = { s with ctxs := t.ctxs, stalled := t.stalled, groups := t.groups } ∧
        ∀ x ∈ t.groups, ∃ g, (x.1, g) ∈ s.groups ∧ x.2 = { g with deferred := x.2.deferred } ∧
          x.2.deferred.map (fun d => (d.code, d.detail)) = g.deferred.map (fun d => (d.code, d.detail))

/-- R35, R373: privileged instructions trap at decode without their privilege: handler level or a system context for the system
registers, handler level for `tret`, a system context for `tlbi`, `preempt` and `halt`; and a register without a view, or read-only in
the view, may not be reached. -/
def Rules.Privilege : Prop :=
  ∀ (s : State) (d a b : BitVec 6) (n : BitVec 12),
    let level := s.grp.cur.handler
    let system := s.isSystem s.team.ctx
    (level = false → system = false →
      exec (.rdsp d n) s = .next (s.trap 0x48 1) ∧ exec (.wrsp d n) s = .next (s.trap 0x48 1)) ∧
    (level = false → exec .tret s = .next (s.trap 0x48 2)) ∧
    (system = false → exec (.tlbi a b) s = .next (s.trap 0x48 3) ∧ exec (.preempt a) s = .next (s.trap 0x48 3) ∧
      exec .halt s = .next (s.trap 0x48 3)) ∧
    (level = true → system = false →
      (n = 0x040 → exec (.rdsp d n) s = .next (s.trap 0x48 4)) ∧
      (n ∈ ([0x000, 0x001, 0x002, 0x003, 0x010, 0x012, 0x013, 0x040] : List (BitVec 12)) →
        exec (.wrsp d n) s = .next (s.trap 0x48 4))) ∧
    (system = true → n ∈ ([0x001, 0x002, 0x003, 0x010, 0x012, 0x013] : List (BitVec 12)) →
      exec (.wrsp d n) s = .next (s.trap 0x48 4))

/-- R374, R388: what `rdsp` reads of each system register. -/
def Rules.SystemRegisterReads : Prop :=
  ∀ (s : State) (d : BitVec 6),
    let system := s.isSystem s.team.ctx
    let narrow (n x : Nat) : Prop := Ready s [] [d.toNat] → Lanewise s (.rdsp d (BitVec.ofNat 12 n)) false d.toNat (fun _ => (x, []))
    let paired (n x : Nat) : Prop := Ready s [] [d.toNat, d.toNat + 1] →
      Lanewise s (.rdsp d (BitVec.ofNat 12 n)) true d.toNat (fun _ => (x, []))
    (s.grp.cur.handler = true ∨ system = true →
      narrow 0x000 s.ctx.exctl.toNat ∧
      narrow 0x001 ((if s.grp.cur.handler = true then 1 else 0) + (if system = true then 2 else 0)) ∧ narrow 0x002 s.team.ctx ∧
      narrow 0x003 s.launch.lcb.fdom ∧ narrow 0x010 s.grp.tcause.toNat ∧ paired 0x011 s.grp.tpc.toNat ∧
      paired 0x012 s.grp.taddr.toNat ∧ narrow 0x013 s.grp.tmask.toNat ∧ narrow 0x014 s.grp.tmode.toNat) ∧
    (system = true → paired 0x040 s.cluster.dropped.toNat)

/-- R31, R374, R375, R388: `wrsp` writes the value of the lowest lane of T, and has no effect where T is empty; a value that R31
refuses leaves TMODE as it was, and reserved bits are ignored. -/
def Rules.SystemRegisterWrites : Prop :=
  ∀ (s : State) (d : BitVec 6),
    let system := s.isSystem s.team.ctx
    let writes (n : Nat) (wide : Bool) (after : Nat → State) : Prop := Ready s (regs wide d.toNat) [] →
      ∃ t, exec (.wrsp d (BitVec.ofNat 12 n)) s = .next t ∧
        Passes (if s.lanesT = 0 then s else after (s.operand wide d.toNat (lowest s.lanesT))) t []
    let legal (m : Nat) : Prop := m / 2 ^ 7 % 16 ≤ 10 ∧ m / 2 ^ 11 % 8 ≤ 4 ∧ m % 8 = 0
    (s.grp.cur.handler = true ∨ system = true →
      writes 0x011 true (fun x => s.setGrp { s.grp with tpc := BitVec.ofNat 64 x }) ∧
      writes 0x014 false (fun x => s.setGrp { s.grp with
        tmode := if legal (x % 2 ^ 16) then BitVec.ofNat 32 (x % 2 ^ 16) else s.grp.tmode })) ∧
    (system = true →
      writes 0x000 false (fun x => s.putCtx s.team.ctx { s.ctx with exctl := BitVec.ofNat 32 (x % 8) }) ∧
      writes 0x040 true (fun x => s.putCluster s.team.cluster { s.cluster with dropped := BitVec.ofNat 64 x }))

/-! ### Translations, pre-emption requests and the control complex -/

/-- R391: at its issue `tlbi` removes the translations that its scope names from every cluster's cache and changes no other translation;
where walks that began before it are in progress, it waits for these alone, whose pages then enter no cache. -/
def Rules.TranslationFlush : Prop :=
  ∀ (s : State) (a b : BitVec 6), s.isSystem s.team.ctx = true → ReadyAll s (regs true a.toNat) [] →
    let pending (x : Nat × Walk) : Prop := x ∈ s.walks ∧ x.2.done = false
    let va := s.operand true a.toNat (lowest s.active)
    let named (p : PagePin) : Prop :=
      (b = 0 ∧ p.ctx = s.team.ctx ∧ p.va ≤ va ∧ va < p.va + 2 ^ p.bits) ∨ (b = 1 ∧ p.ctx = s.team.ctx) ∨
        (b = 2 ∧ p.ctx = va % 2 ^ 20) ∨ (b ≠ 0 ∧ b ≠ 1 ∧ b ≠ 2)
    let flushed (s' : State) : Prop := ∀ k, (∀ p, p ∈ (s'.clusterOf k).tlb ↔ p ∈ (s.clusterOf k).tlb ∧ ¬ named p) ∧
      s'.clusterOf k = { s.clusterOf k with tlb := (s'.clusterOf k).tlb }
    (s.active ≠ 0 → (∀ ws, s.grp.cur.wait ≠ .flush ws) →
      ((∀ x, ¬ pending x) → ∃ s' t, exec (.tlbi a b) s = .next t ∧ Passes s' t [] ∧ s' = { s with clusters := s'.clusters } ∧
        flushed s') ∧
      ((∃ x, pending x) → ∃ s' ws, exec (.tlbi a b) s = .next (s'.stand (.flush ws)) ∧
        s' = { s with clusters := s'.clusters, walks := s'.walks } ∧ flushed s' ∧ (∀ n, n ∈ ws ↔ ∃ x, pending x ∧ x.1 = n) ∧
        s'.walks = s.walks.map (fun x => (x.1, if x.2.done then x.2 else { x.2 with stale := true })))) ∧
    ∀ ws, s.active ≠ 0 → s.grp.cur.wait = .flush ws →
      ((∃ x, pending x ∧ x.1 ∈ ws) → exec (.tlbi a b) s = .next s.stand) ∧
      ((∀ x, pending x → x.1 ∉ ws) → ∃ t, exec (.tlbi a b) s = .next t ∧ Passes s t [])

/-- R377, R390: `preempt` and PREQ request the pre-emption of every resident team of the cluster named, `preempt` those of its own
launch apart; a target that names no enabled cluster has no effect. -/
def Rules.PreemptionRequests : Prop :=
  ∀ (s : State) (a : BitVec 6) (v : Nat),
    let target (w : Nat) : Prop := w / 2 ^ 20 % 2 ^ 12 = 0 ∧ w / 2 ^ 9 % 2 ^ 11 < 1920 ∧ w % 2 ^ 9 ∈ s.cdies
    let at_ (w : Nat) (t : Team) : Prop := t.cluster = 2048 * (w % 2 ^ 9) + w / 2 ^ 9 % 2 ^ 11 ∧ t.st = .resident
    (s.isSystem s.team.ctx = true → ReadyAll s [a.toNat] [] → s.active ≠ 0 →
      let w := (s.source a.toNat (lowest s.active)).toNat
      ∃ t, exec (.preempt a) s = .next t ∧ Passes s t [] ∧
        ∀ k, .preemption k ∈ t.agenda ↔ .preemption k ∈ s.agenda ∨
          ∃ x ∈ s.teams, k = x.1 ∧ target w ∧ at_ w x.2 ∧ x.2.launch ≠ s.team.launch) ∧
    (let w := v % 2 ^ 32
     ∃ t, exec (.preq v) s = .next t ∧ t = { s with agenda := t.agenda } ∧
      ∀ e, e ∈ t.agenda ↔ e ∈ s.agenda ∨ ∃ x ∈ s.teams, e = .preemption x.1 ∧ target w ∧ at_ w x.2)

/-- R31, R376, R377, R408: writes of the control complex. The registers that hold what is written hold it; a peer-handle entry and an export
record are committed as one step by their high halves, reserved bits as zero; and TPC, TMODE, EXCTL and DROPCNT are reached through
CTXSEL and GRPSEL, where TMODE keeps its value against one that R31 refuses. Aligned bases keep their aligned bits (log 36). -/
def Rules.ControlComplexWrites : Prop :=
  ∀ (s : State) (v : Nat), v < 2 ^ 64 →
    let page (n : Nat) (cc : CcRegs) : Prop := exec (.registerWrite 0 n v) s = .next { s with cc := cc }
    page 0x100 { s.cc with ctxtab := v - v % 4096 } ∧ page 0x101 { s.cc with ctxn := v % 2 ^ 32 } ∧
    page 0x102 { s.cc with ctxsel := v % 2 ^ 20 } ∧ page 0x103 { s.cc with phsel := v % 2 ^ 12 } ∧
    page 0x106 { s.cc with tclrbase := v - v % 128 } ∧ page 0x10B { s.cc with symsel := v % 8 } ∧
    page 0x10C { s.cc with symbase := v } ∧ page 0x10D { s.cc with symlen := v } ∧ page 0x110 { s.cc with grpsel := v % 2 ^ 25 } ∧
    page 0x112 { s.cc with exsel := v % 2 ^ 12 } ∧
    exec (.registerWrite 0 0 v) s =
      .next (s.putCtx s.cc.ctxsel { s.ctxOf s.cc.ctxsel with exctl := BitVec.ofNat 32 (v % 8) }) ∧
    (∀ k g, s.selectedGroup = some (k, g) →
      exec (.registerWrite 0 0x11 v) s = .next (s.putGroup k { g with tpc := BitVec.ofNat 64 v })) ∧
    (∀ k g, s.selectedGroup = some (k, g) →
      let m := v % 2 ^ 16
      let legal : Prop := m / 2 ^ 7 % 16 ≤ 10 ∧ m / 2 ^ 11 % 8 ≤ 4 ∧ m % 8 = 0
      exec (.registerWrite 0 0x14 v) s = .next (s.putGroup k { g with tmode := if legal then BitVec.ofNat 32 m else g.tmode })) ∧
    (s.selectedGroup = none → exec (.registerWrite 0 0x11 v) s = .next s ∧ exec (.registerWrite 0 0x14 v) s = .next s) ∧
    (∀ cl, cl = 2048 * (s.cc.grpsel % 2 ^ 9) + s.cc.grpsel / 2 ^ 9 % 2 ^ 11 → exec (.registerWrite 0 0x40 v) s =
      .next (s.putCluster cl { s.clusterOf cl with dropped := BitVec.ofNat 64 v })) ∧
    exec (.phloWrite v) s = .next { s with cc := { s.cc with phlo := v } } ∧
    exec (.exloWrite v) s = .next { s with cc := { s.cc with exlo := v } } ∧
    (∃ t, exec (.phhiWrite v) s = .next t ∧ t = { s with ctxs := t.ctxs } ∧ (∀ c, c ≠ s.cc.ctxsel → t.ctxOf c = s.ctxOf c) ∧
      t.ctxOf s.cc.ctxsel = { s.ctxOf s.cc.ctxsel with handles := (t.ctxOf s.cc.ctxsel).handles } ∧
      ∀ n, tget {} (t.ctxOf s.cc.ctxsel).handles n = if n = s.cc.phsel then
        { lo := s.cc.phlo % 2 ^ 64 - s.cc.phlo / 2 ^ 24 % 8 * 2 ^ 24 - s.cc.phlo / 2 % 2 * 2, hi := v % 2 ^ 52 }
        else tget {} (s.ctxOf s.cc.ctxsel).handles n) ∧
    (∃ t, exec (.exhiWrite v) s = .next t ∧ t = { s with exps := t.exps } ∧
      ∀ n, tget {} t.exps n = if n = s.cc.exsel then
        { lo := s.cc.exlo % 2 ^ 64 - s.cc.exlo / 2 ^ 4 % 16 * 2 ^ 4 - s.cc.exlo / 2 % 2 * 2, hi := v } else tget {} s.exps n)

/-- R361, R376, R377, R408: what the control complex reads. Each register of the control complex reads as it is held; PHLO and EXLO read
the entry as committed, never what is staged; GRPID tells whether the selected place holds a group of the selected context, and its
ordinal; LEVEL, FDOMID and the trap registers are that group's; SYMSTAT holds the handle of the entry, and BUSY and the status of the last
command; QCTL, QSTAT and BIASSTAT have their fields at the bits of their tables. -/
def Rules.ControlComplexReads : Prop :=
  ∀ s : State,
    let c := s.cc
    (s.sysPageRead 0 = (s.ctxOf c.ctxsel).exctl.toNat ∧ s.sysPageRead 2 = c.ctxsel ∧ s.sysPageRead 0x107 = c.tclrlen ∧
      s.sysPageRead 0x108 = c.killReg ∧ s.sysPageRead 0x100 = c.ctxtab ∧ s.sysPageRead 0x101 = c.ctxn ∧
      s.sysPageRead 0x102 = c.ctxsel ∧ s.sysPageRead 0x103 = c.phsel ∧ s.sysPageRead 0x106 = c.tclrbase ∧
      s.sysPageRead 0x10B = c.symsel ∧ s.sysPageRead 0x10C = c.symbase ∧ s.sysPageRead 0x10D = c.symlen ∧
      s.sysPageRead 0x110 = c.grpsel ∧ s.sysPageRead 0x112 = c.exsel ∧
      (let h : Handle := tget {} (s.ctxOf c.ctxsel).handles c.phsel
       s.sysPageRead 0x104 = h.lo ∧ s.sysPageRead 0x105 = h.hi) ∧
      (let e : ExportRec := tget {} s.exps c.exsel
       s.sysPageRead 0x113 = e.lo ∧ s.sysPageRead 0x114 = e.hi) ∧
      let y : Sym := tget {} (s.ctxOf c.ctxsel).syms c.symsel
      y.handle < 2 ^ 23 → c.symStatus < 2 ^ 8 → s.sysPageRead 0x10F % 2 ^ 8 = c.symStatus ∧ s.sysPageRead 0x10F / 2 ^ 32 = y.handle ∧
        (s.sysPageRead 0x10F).testBit 8 = c.symBusy) ∧
    (∀ k g, s.selectedGroup = some (k, g) → s.sysPageRead 0x11 = g.tpc.toNat ∧ s.sysPageRead 0x10 = g.tcause.toNat ∧
      s.sysPageRead 1 = (if g.cur.handler = true then 1 else 0) + (if s.isSystem c.ctxsel = true then 2 else 0) ∧
      s.sysPageRead 3 = (s.launchOf (s.teamOf g.team).launch).lcb.fdom ∧ s.sysPageRead 0x12 = g.taddr.toNat ∧
      s.sysPageRead 0x13 = g.tmask.toNat ∧ s.sysPageRead 0x14 = g.tmode.toNat ∧ s.sysPageRead 0x111 = 2 ^ 63 + g.ord) ∧
    (s.selectedGroup = none → ∀ n ∈ [1, 3, 0x10, 0x11, 0x12, 0x13, 0x14, 0x111], s.sysPageRead n = 0) ∧
    (∀ cl, cl = 2048 * (c.grpsel % 2 ^ 9) + c.grpsel / 2 ^ 9 % 2 ^ 11 → s.sysPageRead 0x40 = (s.clusterOf cl).dropped.toNat) ∧
    (∀ q, let x := s.queue q
      s.queueRead q 0 = x.base ∧ s.queueRead q 0x10 = x.tail ∧ s.queueRead q 0x14 = x.head ∧
      (x.pcap < 8 → x.log2n < 32 → x.ctx < 2 ^ 20 →
        (s.queueRead q 8).testBit 31 = x.en ∧ s.queueRead q 8 / 2 ^ 28 % 8 = x.pcap ∧ s.queueRead q 8 / 2 ^ 23 % 32 = x.log2n ∧
          s.queueRead q 8 % 2 ^ 23 = x.ctx) ∧
      (x.cause < 8 → x.index < 2 ^ 16 →
        (s.queueRead q 0x0C).testBit 31 = x.halt ∧ s.queueRead q 0x0C / 2 ^ 28 % 8 = x.cause ∧ (s.queueRead q 0x0C).testBit 27 = x.ovf ∧
          s.queueRead q 0x0C % 2 ^ 27 = x.index)) ∧
    ∀ he, let h : HostEdge := tget {} s.hostEdges he
      s.edgeRead he 0 = h.hdmBase ∧ s.edgeRead he 8 = h.hdmLen ∧ s.edgeRead he 0x10 = h.biasBase ∧ s.edgeRead he 0x18 = h.biasCmd ∧
      s.edgeRead he 0x20 = h.biasPage * 4096 + h.biasSt

/-- R198, R377: a write of TCLRLEN starts a clear of the range with TCLRBASE as it then stands; when it is done, every taint entry of this
device's homes that lies wholly in the range is gone, no other entry is, and TCLRLEN reads zero once no clear is left. -/
def Rules.TaintClear : Prop :=
  ∀ (s : State) (v : Nat), v < 2 ^ 64 →
    exec (.taintClear v) s = .next { s with cc := { s.cc with tclrlen := v, clears := s.cc.clears ++ [(s.cc.tclrbase, v)] },
                                            agenda := s.agenda ++ [.taintClearDone] } ∧
    (s.cc.clears = [] → exec .taintClearDone s = .next s) ∧
    ∀ base len rest, s.cc.clears = (base, len) :: rest → ∃ t, exec .taintClearDone s = .next t ∧
      t = { s with cc := { s.cc with clears := rest, tclrlen := if rest.isEmpty then 0 else s.cc.tclrlen }, circ := t.circ } ∧
      ∀ x, x ∈ t.circ ↔ x ∈ s.circ ∧ ¬ (x.2.st = .taint ∧ x.2.home < 1000 ∧ ∀ sp ∈ x.2.spans, base ≤ sp.1 ∧ sp.1 + sp.2 ≤ base + len)

/-- R186, R195, R201, R378: commands on a symmetric-borrow entry. A command while another is busy is ignored; an invalid take, a page that is
not mapped or lacks the permission, and a conflict with another entry of the context end it with their codes; otherwise a request is made
and SYMSTAT is busy until it ends. A page that lacks the permission ends it before an unmapped one above it (log 24). A return stays BUSY
until the homes have answered (log 35). -/
def Rules.SymmetricBorrows : Prop :=
  ∀ s : State,
    let c := s.cc.ctxsel
    let n := s.cc.symsel
    let e := s.sym c n
    let len := s.cc.symlen / 2 ^ 7 % 2 ^ 34 * 128
    let kind := kindOf (s.cc.symlen / 4 % 4)
    let pages := collectPages (s.walkPage c) (len / 4096 + 2) s.cc.symbase (s.cc.symbase + len)
    let ended (u : State) (st : Nat) : State := { u with cc := { u.cc with symBusy := false, symStatus := st } }
    let ends (i : Instr) (st : Nat) : Prop := exec i s = .next (ended s st)
    let bad : Prop := e.kind ≠ .empty ∨ s.cc.symlen / 2 ^ 2 % 4 < 2 ∨ s.cc.symlen % 4 = 3 ∨ s.cc.symbase % 128 ≠ 0 ∨ len = 0 ∨ 2 ^ 40 < len ∨
      s.cc.symlen / 2 ^ 4 % 8 ≠ 0 ∨ s.cc.symlen / 2 ^ 41 % 2 ^ 23 ≠ 0 ∨ 2 ^ 56 < s.cc.symbase + len
    let spans := pageSpans pages.1 s.cc.symbase len
    let overlap (x y : Nat × Nat) : Prop := x.2 ≠ 0 ∧ y.2 ≠ 0 ∧ x.1 / 128 ≤ (y.1 + y.2 - 1) / 128 ∧ y.1 / 128 ≤ (x.1 + x.2 - 1) / 128
    let conflict : Prop := ∃ i < 8, ∃ x ∈ s.circ, x.2.team = 2 ^ 40 + 8 * c + i ∧ x.2.st ≠ .taint ∧
      (∃ sp ∈ spans, s.homeOf sp.1 = x.2.home ∧ ∃ y ∈ x.2.spans, overlap sp y) ∧
      (x.2.kind = .x ∨ (x.2.kind = .s ∧ kind = .c))
    (s.cc.symBusy = true → exec .symcmdTake s = .next s ∧ exec .symcmdReturn s = .next s) ∧
    (s.cc.symBusy = false →
      (bad → ends .symcmdTake 0x80) ∧
      (¬ bad → (∃ p ∈ pages.1, p.permits kind = false) → ends .symcmdTake 0x82) ∧
      (¬ bad → (∀ p ∈ pages.1, p.permits kind = true) →
        (pages.2 ≠ none → ends .symcmdTake 0x81) ∧
        (pages.2 = none → conflict → ends .symcmdTake 5) ∧
        (pages.2 = none → ¬ conflict → s.partsOf spans ≠ [] →
          ∃ t, exec .symcmdTake s = .next t ∧ t.cc.symBusy = true ∧
            ∃ r, tfind t.reqs s.nextId = some r ∧ r.purpose = .sym c n ∧ r.base = s.cc.symbase ∧ r.len = len ∧ r.kind = kind ∧
              r.cls = s.cc.symlen % 4 ∧ r.pins = pages.1)) ∧
      (e.kind = Kind.empty → ends .symcmdReturn 0x80) ∧
      (e.kind ≠ .empty → (∃ x ∈ s.launches, x.2.st ≠ .none ∧ x.2.ctx = c) → ends .symcmdReturn 2) ∧
      (e.kind ≠ .empty → (∀ x ∈ s.launches, x.2.st = .none ∨ x.2.ctx ≠ c) → ∃ t, exec .symcmdReturn s = .next t ∧
        t.mem = s.mem ∧ ∃ r, tfind t.reqs s.nextId = some r ∧ r.purpose = .sym c n ∧ r.kind = .empty ∧ r.handle = e.handle)) ∧
    ∀ (k : Nat) (r : Request) (ctx entry : Nat), s.reqs.find? (fun x => (match x.2.purpose with | .sym _ _ => x.2.ended.isSome | _ => false)) = some (k, r) →
      r.purpose = .sym ctx entry →
      let s1 := { s with reqs := tdel s.reqs k }
      exec .symTakeEnd s = .next (
        if r.kind = Kind.empty then ended (s1.putSym ctx entry {}) 0
        else if r.ended.getD 0 ≤ 1 then
          ended (s1.putSym ctx entry { kind := r.kind, base := r.base, len := r.len, cls := r.cls, handle := r.handle }) 0
        else ended s1 (r.ended.getD 0))

/-- R382, R385: the deferred trap that is due is taken by the group's next issue: it leaves the group, and the trap names the next
instruction with DEFER set, but for BUDGET, which names the instruction about to issue. -/
def Rules.DeferredTraps : Prop :=
  ∀ (s : State) (k : Nat),
    let g := s.group k
    (g.dueTrap = none → exec (.deferredTrap k) s = .next s) ∧
    ∀ d, g.dueTrap = some d → d ∈ g.deferred ∧ g.record = none ∧
      (d.code = 0x38 ∨ d.frag = g.cur.id ∨ ∀ f ∈ g.cur :: g.rest, f.st ≠ .free → f.id ≠ d.frag) ∧
      (∀ e ∈ g.deferred, e.code = 0x38 ∨ e.frag = g.cur.id → d.code ≤ e.code) ∧
      exec (.deferredTrap k) s = .next (({ s with cur := k }.setGrp { g with deferred := g.deferred.erase d }).trapWith
        d.code d.detail 0 (d.code != 0x38))

/-- R392: at its limit the watchdog traps the waiting fragment of the lowest key with WATCHDOG, naming what it waits for, or ends a
group in which a fragment is trapped already. -/
def Rules.Watchdog : Prop :=
  ∀ (s : State) (k : Nat),
    let g := s.group k
    let fires := s.dogLimit g ≠ 0 ∧ s.dogLimit g ≤ g.dog ∧ s.teamStopped (s.teamOf g.team) = false ∧ g.watched = true
    (¬ fires → exec (.watchdog k) s = .next s) ∧
    (fires → g.record ≠ none → ∃ t, exec (.watchdog k) s = .next t ∧ t.mem = s.mem ∧
      (t.group k).exited = g.exited ||| g.live ∧ ∀ l p, ¬ (t.group k).holds l p ∨ g.live.getLsbD l = false) ∧
    (fires → g.record = none → ∀ f, g.waiter = some f → f.handler = false →
      ∃ t, exec (.watchdog k) s = .next t ∧ t.mem = s.mem ∧ (t.group k).regs = g.regs ∧ (t.group k).tpc = f.pc ∧
        (t.group k).tmask = f.mask ∧ (t.group k).tcause = BitVec.ofNat 32 (0x39 + 256 * (if f.st = .joinWait then 1 else match f.wait with
          | .barrier _ => 2 | .fifo _ => 3 | .tret => 4 | _ => 5)) ∧ ∃ r, (t.group k).record = some r ∧ r.mask = f.mask ∧ r.pc = f.pc)

/-! ### Carries -/

/-- R161 to R163, R171: an instruction that reads a back view, shown by `mov`: it traps where the launch does not declare the slot,
traps where a lane reads a broken value, and otherwise acts in the lanes whose value is there while the others park at the same word.
Which view an unordered launch reports is log 17. -/
def Rules.BackViews : Prop :=
  ∀ (s : State) (st : BitVec 3) (d a : BitVec 6), s.wide = false → 60 ≤ a.toNat → Unhindered s [a.toNat, d.toNat] →
    s.whole [a.toNat] s.lanesT → s.grp.cur.st = .ready →
    let j := a.toNat - 60
    let valid := (tget ({} : CarrySlot) s.launch.lcb.carry j).valid
    (s.launch.ordered = false → exec (.mov st d a) s = .next (s.trap 0x22 (4 + j))) ∧
    (s.launch.ordered = true → valid = false → exec (.mov st d a) s = .next (s.trap 0x22 (8 + j))) ∧
    (s.launch.ordered = true → valid = true →
      (∀ l, s.lanesT.getLsbD l = true → s.view j l = .broken → (∀ i, i < l → s.lanesT.getLsbD i = true → s.view j i ≠ .broken) →
        exec (.mov st d a) s = .next (s.trap 0x20 (4 * l + j))) ∧
      ((∀ l, s.lanesT.getLsbD l = true → s.view j l ≠ .broken) →
        let waits (l : Nat) : Prop := s.lanesT.getLsbD l = true ∧ ∀ x, s.view j l ≠ .val x
        ∃ t, exec (.mov st d a) s = .next t ∧ Frame s.cur s t ∧ t.grp.preds = s.grp.preds ∧
          (∀ r l, l < 32 → (∀ x, s.lanesT.getLsbD l = true → s.view j l = .val x → r = d.toNat → t.grp.reg r l = x) ∧
            (r ≠ d.toNat ∨ s.lanesT.getLsbD l = false ∨ waits l → t.grp.reg r l = s.grp.reg r l)) ∧
          ∀ l, s.active.getLsbD l = true →
            (waits l → t.grp.holds l { s.here with st := .parked }) ∧ (¬ waits l → t.grp.holds l { s.here with pc := s.grp.cur.pc + 4 })))

/-- R34, R165, R167, R177: `pub` publishes its source for the item of each lane of T and sets the flags, once the group's `bret` has
ended; a slot not declared and a slot published before trap, before anything is published. Where T is empty it has no effect beyond its
slot (log 49). -/
def Rules.Publishing : Prop :=
  ∀ (s : State) (a n : BitVec 6), n.toNat < 4 →
    let j := n.toNat
    let valid := (tget ({} : CarrySlot) s.launch.lcb.carry j).valid
    let flags := tget 0 s.grp.pub j
    (Unhindered s [a.toNat] → s.whole [a.toNat] s.lanesT →
      (s.lanesT ≠ 0 → s.launch.ordered = false → exec (.pub a n) s = .next (s.trap 0x22 (4 + j))) ∧
      (s.lanesT ≠ 0 → s.launch.ordered = true → valid = false → exec (.pub a n) s = .next (s.trap 0x22 (8 + j))) ∧
      (s.launch.ordered = true → valid = true → s.lanesT &&& flags ≠ 0 →
        exec (.pub a n) s = .next (s.trap 0x21 (4 * lowest (s.lanesT &&& flags) + j)))) ∧
    (Ready s [a.toNat] [] →
      (s.launch.ordered = true → valid = true → s.lanesT &&& flags = 0 → s.lanesT ≠ 0 → s.returning = true →
        exec (.pub a n) s = .next s.stand) ∧
      (s.lanesT = 0 ∨ (s.launch.ordered = true ∧ valid = true ∧ s.lanesT &&& flags = 0 ∧ s.returning = false) → ∃ t, exec (.pub a n) s = .next t ∧
        Passes { s.setGrp { s.grp with pub := mset 0 s.grp.pub j (flags ||| s.lanesT) } with
          carried := s.carried ++ (lanesOf s.lanesT).map (fun l =>
            ({ launch := s.team.launch, item := 32 * s.grp.ord + l, slot := j, value := some (s.source a.toNat l), place := .sent,
               cluster := s.team.cluster, issued := t.cycle } : Carried)) } t [] ∧
        ∀ l, s.lanesT.getLsbD l = true → .carryMessage s.team.launch (32 * s.grp.ord + l) j ∈ t.agenda))

/-- R34, R159, R178: `cdef` binds the slot to a register in the lanes of T; the distance it restates must be the slot's. Where T is empty
it has no effect beyond its slot (log 49). -/
def Rules.Binding : Prop :=
  ∀ (s : State) (d : BitVec 6) (n : BitVec 2) (k : BitVec 10), Ready s [] [] →
    let j := n.toNat
    let slot : CarrySlot := tget {} s.launch.lcb.carry j
    (s.lanesT ≠ 0 → s.launch.ordered = false → exec (.cdef d n k) s = .next (s.trap 0x22 (4 + j))) ∧
    (s.lanesT ≠ 0 → s.launch.ordered = true → slot.valid = false → exec (.cdef d n k) s = .next (s.trap 0x22 (8 + j))) ∧
    (s.lanesT ≠ 0 → s.launch.ordered = true → slot.valid = true → k.toNat + 1 ≠ slot.k →
      exec (.cdef d n k) s = .next (s.trap 0x22 (12 + j))) ∧
    (s.lanesT = 0 ∨ (s.launch.ordered = true ∧ slot.valid = true ∧ k.toNat + 1 = slot.k) →
      ∃ t bind, exec (.cdef d n k) s = .next t ∧ Passes (s.setGrp { s.grp with bind := bind }) t [] ∧
        ∀ c l, l < 32 → tfind bind (32 * c + l) =
          if c = j ∧ s.lanesT.getLsbD l = true then some d.toNat else tfind s.grp.bind (32 * c + l))

/-- The parked fragments of group k of which some lane has every value it waits for became ready; nothing else of the group changed
(R164). -/
def Wakes (s t : State) (k : Nat) : Prop :=
  let g := s.group k
  let tm := s.teamOf g.team
  let ready (f : Frag) : Prop := f.st = .parked ∧ ∃ needs, f.wait = .carry needs ∧ ∃ l, f.mask.getLsbD l = true ∧
    ∀ x ∈ needs, x.1 = l → ∃ c ∈ t.carried, c.at_ tm.launch x.2.2 x.2.1 tm.cluster = true
  (t.group k).regs = g.regs ∧ (t.group k).preds = g.preds ∧ (∀ i, i ≠ k → t.group i = s.group i) ∧
    ∀ l p, l < 32 → ((t.group k).holds l p ↔ ∃ f ∈ g.cur :: g.rest, f.st ≠ .free ∧ f.mask.getLsbD l = true ∧
      ((ready f ∧ p = { f.place with st := .ready }) ∨ (¬ ready f ∧ p = f.place)))

/-- R164, R173, R174: a published value goes, as a message of the buffered lane, to the carry buffer of the cluster where its consumer's
group is resident, to the spill area where that buffer is full or no such group is, and nowhere where no item reads it; a group that waits
asks for it there, and it comes to the group's cluster. -/
def Rules.CarryTravel : Prop :=
  ∀ (s : State) (l i j : Nat),
    let lcb := (s.launchOf l).lcb
    let dest := i + (tget ({} : CarrySlot) lcb.carry j).k
    let named (c : Carried) : Bool := c.launch == l && c.item == i && c.slot == j
    let moved (p : CarryPlace) : List Carried := s.carried.map (fun c => if named c = true then { c with place := p } else c)
    let spilled (t : State) (c : Carried) : Prop :=
      match translate (s.launchOf l).pins (lcb.spill + 16 * (j * lcb.spillN + i % lcb.spillN)) with
      | none => t.mem = s.mem
      | some pa => (∀ q, q < pa ∨ pa + 16 ≤ q → readByte t.mem q = readByte s.mem q) ∧
        readLe t.mem (pa + 8) 8 = i % 2 ^ 64 ∧ readLe t.mem (pa + 4) 4 = (c.value.getD 0).toNat ∧
        readLe t.mem pa 4 = j % 4 * 2 ^ 30 + (if c.value.isSome then 1 else 2) * 2 ^ 28
    let goes (vc : Nat) (c : Carried) (p : CarryPlace) (src dst : Nat) (e : Event) : State :=
      { s with carried := moved p }.sendCarry vc c src dst e
    ((∀ c ∈ s.carried, named c = true → c.place ≠ .sent ∧ c.place ≠ .moving) → exec (.carryMessage l i j) s = .next s) ∧
    (∀ c, s.carried.find? (fun c => named c && (c.place == .sent || c.place == .moving)) = some c → j < 4 →
      ((s.launchOf l).items ≤ dest → exec (.carryMessage l i j) s = .next { s with carried := moved .nowhere }) ∧
      (dest < (s.launchOf l).items → c.place = .sent →
        exec (.carryMessage l i j) s = .next (goes 0 c .moving (c.cluster / 2048)
          (match s.holder l dest with | some x => (s.teamOf x.2.team).cluster / 2048 | none => s.spillDie c) (.carryMessage l i j))) ∧
      (dest < (s.launchOf l).items → c.place = .moving →
        (s.holder l dest = none → ∃ t, exec (.carryMessage l i j) s = .next t ∧ spilled t c ∧
          t = { s with carried := moved .spill, mem := t.mem }) ∧
        ∀ k g, s.holder l dest = some (k, g) → s.group k = g →
          let cl := (s.teamOf g.team).cluster
          ∃ t, exec (.carryMessage l i j) s = .next t ∧
            ((s.carried.filter (fun c => c.place == .buffer cl)).length < Config.carryPlaces →
              t.carried = moved (.buffer cl) ∧ t.mem = s.mem ∧ Wakes s t k) ∧
            (Config.carryPlaces ≤ (s.carried.filter (fun c => c.place == .buffer cl)).length →
              t.carried = moved .spill ∧ spilled t c ∧ ∀ i, t.group i = s.group i))) ∧
    ∀ k c, s.hasGroup k = true → (s.teamOf (s.group k).team).launch = l → (s.teamOf (s.group k).team).st = .resident →
      s.carried.find? (fun c => named c && (c.place == .spill || c.place == .asked || c.place == .coming)) = some c →
      let cl := (s.teamOf (s.group k).team).cluster
      let e := Event.carryFetch l i j k
      (c.place = .spill → exec (.carryFetch l i j k) s = .next (goes 0 c .asked (cl / 2048) (s.spillDie c) e)) ∧
      (c.place = .asked → exec (.carryFetch l i j k) s = .next (goes 1 c .coming (s.spillDie c) (cl / 2048) e)) ∧
      (c.place = .coming → ∃ t, exec (.carryFetch l i j k) s = .next t ∧ t.carried = moved (.fetched cl) ∧
        t.mem = s.mem ∧ Wakes s t k)

/-! ### Region accesses -/

/-- R35, R184, R224, R225: the checks of an access through a region register, in their order, shown by `ld` and `st`.
They are made where T is empty too (log 28). -/
def Rules.RegionChecks : Prop :=
  ∀ (s : State) (d : BitVec 6) (g : BitVec 5) (a : BitVec 6) (k : BitVec 2) (z : BitVec 3) (h : BitVec 1),
    let n := 2 ^ z.toNat
    let r := s.region g.toNat
    let out (l : Nat) : Prop := s.lanesT.getLsbD l = true ∧ r.len < s.operand true a.toNat l + n
    let checks (i : Instr) (write : Bool) : Prop :=
      (r.kind = .empty ∨ r.pend = true → exec i s = .next (s.trap 0x11 0)) ∧
      (r.kind ≠ .empty → r.pend = false → r.all = false → r.holder ≠ s.grp.pos → exec i s = .next (s.trap 0x12 0)) ∧
      (r.kind = .s → r.pend = false → (r.all = true ∨ r.holder = s.grp.pos) → write = true → exec i s = .next (s.trap 0x11 1)) ∧
      ∀ l, r.Serves s.grp.pos write false → out l → (∀ j, j < l → ¬ out j) → exec i s = .next (s.trap 0x10 l)
    (exec (.ld d g a 3 z h) s = .next (s.trap 0x19 0) ∧ exec (.st d g a 3 z h) s = .next (s.trap 0x19 0)) ∧
    (k ≠ 3 → s.memoryHeld = false →
      (Ready s ((128 + g.toNat) :: regs true a.toNat) (wordRegs d.toNat n) → checks (.ld d g a k z h) false) ∧
      (Ready s (wordRegs d.toNat n ++ (128 + g.toNat) :: regs true a.toNat) [] → checks (.st d g a k z h) true))

/-- R218, R222, R224, R262, R319: `ld` reads each lane's bytes as its cluster holds them where it holds them all, and otherwise leaves an
access outstanding for the lines that it does not hold; it changes nothing in any cluster and no memory, but that under S the team's own
commons writes to its lines are written back. -/
def Rules.RegionLoads : Prop :=
  ∀ (s : State) (d : BitVec 6) (g : BitVec 5) (a : BitVec 6) (k : BitVec 2) (z : BitVec 3) (h : BitVec 1),
    let n := 2 ^ z.toNat
    let r := s.region g.toNat
    let i := Instr.ld d g a k z h
    let pieces := s.regionPieces r n (s.lanesAt true a.toNat) (fun _ => 0) (fun _ => 0)
    let x := { s.txn .load n k.toNat g.toNat r with dst := d.toNat, counter := some 0, nalloc := h == 1, lanes := pieces }
    k ≠ 3 → Ready s ((128 + g.toNat) :: regs true a.toNat) (wordRegs d.toNat n) → s.memoryHeld = false →
    r.Serves s.grp.pos false false → s.inside r a.toNat n →
      (s.lanesT = 0 → ∃ t, exec i s = .next t ∧ Passes s t []) ∧
      let s0 := s.backOwn x
      (s.lanesT ≠ 0 → Accesses s i x (fun t => ((∀ loc b, ¬ s.backs x loc b) → ∀ c, t.clusterOf c = s.clusterOf c) ∧
        (∀ c, c ≠ s.team.cluster → t.clusterOf c = s.clusterOf c) ∧
        (∀ loc, t.seenByte s.team.cluster loc = s.seenByte s.team.cluster loc) ∧
        ((∃ p ∈ pieces, s0.hits x p = false) → ∃ y, tfind t.txns s.nextId = some y ∧ y.lanes.map (·.result) =
          pieces.map (fun p => if s0.serves x p then some (s.seenLe s.team.cluster p.loc p.n) else none)) ∧
        ((∀ p ∈ pieces, s0.hits x p = true) → t.txns = s.txns ∧ ∀ l, s.lanesT.getLsbD l = true →
          t.grp.element d.toNat n l =
            ((pieces.filter (fun p => p.lane == l)).map (fun p => s.seenLe s.team.cluster p.loc p.n * 256 ^ p.pos)).sum)))

/-- R183, R219, R220, R221, R225: `st` stores each lane's bytes, lanes ascending, in its cluster's cache for the lines that the cache serves;
bytes of a write-combining page go to that buffer, and the rest leaves for its homes. -/
def Rules.RegionStores : Prop :=
  ∀ (s : State) (d : BitVec 6) (g : BitVec 5) (a : BitVec 6) (k : BitVec 2) (z : BitVec 3) (h : BitVec 1),
    let n := 2 ^ z.toNat
    let r := s.region g.toNat
    let i := Instr.st d g a k z h
    let cl := s.team.cluster
    let pieces := s.regionPieces r n (s.lanesAt true a.toNat) (s.elementAt d.toNat n) (fun _ => 0)
    let x := { s.txn .store n k.toNat g.toNat r with counter := some 1, nalloc := h == 1, lanes := pieces }
    k ≠ 3 → Ready s (wordRegs d.toNat n ++ (128 + g.toNat) :: regs true a.toNat) [] → s.memoryHeld = false →
    r.Serves s.grp.pos true false → s.inside r a.toNat n →
      (s.lanesT = 0 → ∃ t, exec i s = .next t ∧ Passes s t []) ∧
      (s.lanesT ≠ 0 → Accesses s i x (fun t =>
        (∀ c, c ≠ cl → t.clusterOf c = s.clusterOf c) ∧
        (∀ loc, t.seenByte cl loc = stored (pieces.filter (s.serves x)) loc (s.seenByte cl loc)) ∧
        ((∀ p ∈ pieces, s.hits x p = true) → t.txns = s.txns) ∧
        ((∃ p ∈ pieces, s.hits x p = false) → ∃ y, tfind t.txns s.nextId = some y ∧
          y.lanes.map (fun p => p.result.isSome) = pieces.map (s.serves x)) ∧
        ∀ ps p qs, pieces = ps ++ p :: qs → p.ptype = 1 →
          ∀ j, j < p.n → (∀ q ∈ qs, ¬ (q.ptype = 1 ∧ q.loc ≤ p.loc + j ∧ p.loc + j < q.loc + q.n)) →
            (∀ q ∈ pieces, q.loc ≤ p.loc + j → p.loc + j < q.loc + q.n → lineOf q.loc = lineOf p.loc) →
            tfind (tget ({} : WcLine) (t.clusterOf cl).wc (lineOf p.loc)).bytes (p.loc + j) = some (BitVec.ofNat 8 (p.a / 256 ^ j))))

/-- R226: `pref` never traps at execution and changes no register, predicate or memory; where the check fails it has no effect. -/
def Rules.Prefetches : Prop :=
  ∀ (s : State) (g : BitVec 5) (a : BitVec 6) (k : BitVec 2) (h : BitVec 1),
    let r := s.region g.toNat
    let i := Instr.pref g a k h
    let pieces := (s.regionPieces r 1 (s.lanesAt true a.toNat) (fun _ => 0) (fun _ => 0)).filter (·.normal)
    let x := { s.txn .prefetch 1 k.toNat g.toNat r with counter := some 5, nalloc := h == 1, lanes := pieces }
    k ≠ 3 → Ready s ((128 + g.toNat) :: regs true a.toNat) [] → s.memoryHeld = false →
      (¬ (r.Serves s.grp.pos false false ∧ s.inside r a.toNat 1) ∨ pieces = [] → ∃ t, exec i s = .next t ∧ Passes s t []) ∧
      (r.Serves s.grp.pos false false → s.inside r a.toNat 1 → pieces ≠ [] →
        Accesses s i x (fun t => ((∀ loc b, ¬ s.backs x loc b) → ∀ c, t.clusterOf c = s.clusterOf c) ∧ t.grp.regs = s.grp.regs))

/-- R197, R218, R221, R222, R251, R280, R298, R328: what holds an access at issue: a `bret` or `bdown`, an acquire or a strongly ordered
access of the group that is outstanding; a relocation of the register; an access or copy of the group to the same line, or, for a pass, the
same device, that is of class A or V or of another class; one on its way to a line that the access would write in the write-combining
buffer, or that line itself on its way; a counter at its top; the footprint of a copy; and, for a strongly ordered access, a counter of the group that is not zero. -/
def Rules.AccessesHeld : Prop :=
  ∀ (s : State) (x : Txn),
    let mine (u : Txn) : Prop := u.group = s.cur
    let behind : Prop := (∃ r ∈ s.reqs, r.2.group = s.cur ∧ (r.2.purpose = .ret ∨ r.2.purpose = .down)) ∨
      (∃ u ∈ s.txns, mine u.2 ∧ (u.2.acquire = true ∨ ∃ q ∈ u.2.lanes, q.ptype = 3)) ∨
      ∃ c ∈ s.copies, c.2.group = s.cur ∧ c.2.strong = true
    let meets (f : Foot) (p : LaneAcc) : Prop := p.n ≠ 0 ∧ f.len ≠ 0 ∧ p.va / 128 ≤ (f.base + f.len - 1) / 128 ∧
      f.base / 128 ≤ (p.va + p.n - 1) / 128
    (s.memoryHeld = true ↔ behind) ∧
    (s.accessHeld x = true ↔ behind ∨
      ((s.region x.region).kind ≠ .empty ∧ ∃ q ∈ s.reqs, q.2.purpose = .reloc ∧ q.2.team = s.grp.team ∧
        if q.2.moves = 0 then q.2.handle = (s.region x.region).handle else q.2.reg = x.region) ∨
      (∃ u ∈ s.txns, mine u.2 ∧ u.2.copy = none ∧ ∃ q ∈ u.2.lanes, ∃ p ∈ x.lanes, s.sameLine x u.2 p q = true ∧
        (u.2.clsOf q ≠ 0 ∨ u.2.clsOf q ≠ x.clsOf p)) ∨
      (∃ c ∈ s.copies, c.2.group = s.cur ∧ ∃ q ∈ c.2.places, ∃ p ∈ x.lanes, s.meetsPlace x p q.1 = true ∧ (q.2 ≠ 0 ∨ q.2 ≠ x.clsOf p)) ∨
      (∃ p ∈ x.lanes, x.buffers p = true ∧ (tget ({} : WcLine) (s.clusterOf x.cluster).wc (lineOf p.loc)).leaving = true) ∨
      (∃ u ∈ s.txns, mine u.2 ∧ ∃ q ∈ u.2.lanes, u.2.buffers q = false ∧ q.result = none ∧ ∃ p ∈ x.lanes, x.buffers p = true ∧
        lineOf p.loc = lineOf q.loc) ∨
      (∃ c, x.counter = some c ∧ 63 ≤ tget 0 s.grp.count c) ∨
      (∃ f ∈ s.grp.foot, ∃ p ∈ x.lanes, (f.writes = true ∨ x.op.writes = true) ∧ meets f p) ∨
      ((∃ p ∈ x.lanes, p.ptype = 3) ∧ ∃ c, c < 6 ∧ s.inFlight c ≠ 0))

/-- The pieces of an access are cut as R220 cuts them: none crosses a 16-byte chunk, and a chunk lies in one page. -/
def Rules.Cut (x : Txn) : Prop :=
  ∀ p ∈ x.lanes, p.loc % 16 + p.n ≤ 16 ∧ ∀ q ∈ x.lanes, q.loc / 16 = p.loc / 16 → q.ptype = p.ptype

/-- R219, R221, R224, R225: what has arrived of a request under X or S is served at its homes: a store puts every byte there, lanes
ascending, and changes no other but what its cluster's write-combining buffer held; a load reads each piece, through its cluster's cache
or write-combining buffer where its page allows; prefetch reads nothing. Without a script all of it is served in one event (log 4). -/
def Rules.RequestsServed : Prop :=
  ∀ (s : State) (n : Nat) (x : Txn), tfind s.txns n = some x → x.kind ≠ .c → x.noBorrow = false → x.lost = false → s.picks = [] →
    (∀ p ∈ x.lanes, x.waits p = true → p.going = false ∧ s.answers p.loc = true ∧ s.behindOlder n x p = false) →
      let done (t : State) (y : Txn) : Prop := exec (.homeRequest n) s = .next t ∧ tfind t.txns n = some y ∧ y.asked = x.asked ∧
        (∀ p ∈ y.lanes, y.waits p = false) ∧ t.groups = s.groups ∧ t.teams = s.teams
      (x.op = .store → Rules.Cut x → ∃ t y, done t y ∧ ∀ loc, (∀ l ∈ (s.clusterOf x.cluster).wc, tfind l.2.bytes loc = none) →
        t.homeByte loc = stored (x.lanes.filter x.waits) loc (s.homeByte loc)) ∧
      (x.op = .load → (∀ p ∈ x.lanes, lineOf p.loc ∉ s.poison) → ∃ t y, done t y ∧ t.mem = s.mem ∧ t.peers = s.peers ∧
        y.lanes.map (·.result) = x.lanes.map (fun p => if p.result = none then
          some (if p.normal = true ∧ x.remote = false ∧ x.src = none ∧ s.hiddenFrom x p = false then s.seenLe x.cluster p.loc p.n
                else if p.ptype = 1 ∧ x.src = none then s.wcMerge x.cluster p.loc (s.homeLe p.loc p.n) p.n
                else s.homeLe p.loc p.n) else p.result)) ∧
      (x.op = .prefetch → ∃ t y, done t y ∧ t.mem = s.mem ∧ t.peers = s.peers)

/-- R222, R249, R250: replies write their values to the lanes of the access whose pieces are all in, and the last one takes the access off
its counter and off the scoreboard; no other group changes, and no memory. A store's acknowledgement that is not the last does nothing; a
reply for a dead team is counted as dropped. -/
def Rules.RepliesArrive : Prop :=
  ∀ (s : State) (n : Nat) (x : Txn), tfind s.txns n = some x → x.noBorrow = false → x.lost = false → x.src = none → x.copy = none →
    x.trap = none →
    (∀ p ∈ x.lanes, p.lane < 32) →
    let i := if x.op = .store then Instr.storeAck n else .loadReply n
    let g := s.group x.group
    let whole (l : Nat) : Prop := l ∈ x.laneList ∧ ∀ p ∈ x.lanes, p.lane = l → p.arrived = true ∧ p.done = false
    let value (l j : Nat) : Word := BitVec.ofNat 32
      (((x.lanes.filter (fun p => p.lane == l)).map (fun p => p.result.getD 0 * 256 ^ p.pos)).sum / 2 ^ (32 * j))
    let kept (t : State) : Prop := exec i s = .next t ∧ t.mem = s.mem ∧ t.clusters = s.clusters ∧
      (∀ j, j ≠ x.group → (t.group j).calm = (s.group j).calm) ∧ (t.group x.group).cur = g.cur ∧ (t.group x.group).rest = g.rest ∧
      (t.group x.group).preds = g.preds ∧
      (x.op.returns = true → ∀ l, whole l → ∀ j, j < wordsOf x.bytes → (t.group x.group).reg (x.dst + j) l = value l j) ∧
      ∀ r l, l < 32 → ¬ (x.op.returns = true ∧ whole l ∧ r ∈ wordRegs x.dst x.bytes) → (t.group x.group).reg r l = g.reg r l
    ((∃ p ∈ x.lanes, p.arrived = false) →
      (x.op = .store ∨ s.hasGroup x.group = false → exec i s = .next s) ∧
      (x.op ≠ .store → s.hasGroup x.group = true → ∃ t, kept t ∧ (t.group x.group).busy = g.busy ∧ (t.group x.group).count = g.count)) ∧
    ((∀ p ∈ x.lanes, p.arrived = true ∧ (∀ q ∈ x.lanes, q.lane = p.lane → q.done = p.done)) →
      (s.hasGroup x.group = true → ∃ t, kept t ∧
        (∀ j, tfind t.txns j = if j = n then none else tfind s.txns j) ∧
        (∀ b, b ∈ (t.group x.group).busy ↔ b ∈ g.busy ∧ b.2 ≠ n) ∧
        ∀ c, tget 0 (t.group x.group).count c = if x.counter = some c then tget 0 g.count c - 1 else tget 0 g.count c) ∧
      (s.hasGroup x.group = false → ∃ t, exec i s = .next t ∧ t.mem = s.mem ∧ t.groups = s.groups ∧
        (t.clusterOf x.cluster).dropped = (s.clusterOf x.cluster).dropped + 1))

/-- R219: a line of the write-combining buffer drains: it leaves for its home, and when it comes there its bytes are written and no others,
its stores are performed, and it is gone from the buffer. -/
def Rules.WriteCombining : Prop :=
  ∀ (s : State) (cl n : Nat) (l : WcLine), tfind (s.clusterOf cl).wc n = some l → l.bytes.Pairwise (fun a b => a.1 ≠ b.1) →
    (l.leaving = false → ∃ t, exec (.wcDrain cl n) s = .next t ∧ t.groups = s.groups ∧ t.mem = s.mem ∧ t.peers = s.peers ∧
      tfind (t.clusterOf cl).wc n = some { l with leaving := true } ∧
      (.wcDrain cl n ∈ t.agenda ∨ ∃ k ∈ t.net.packets, k.2.event = some (.wcDrain cl n))) ∧
    (l.leaving = true → ∃ t, exec (.wcDrain cl n) s = .next t ∧ t.groups = s.groups ∧ tfind (t.clusterOf cl).wc n = none ∧
      (∀ loc, t.homeByte loc = (tfind l.bytes loc).getD (s.homeByte loc)) ∧
      ∀ k x, tfind s.txns k = some x → x.cluster = cl → x.op = .store → x.remote = false → x.commons = false → x.src = none →
        x.copy = none → ∀ y, tfind t.txns k = some y → ∀ p ∈ y.lanes, p.ptype = 1 → lineOf p.loc = n → p.result.isSome = true)

/-! ### Windows, banks and FIFOs -/

/-- Byte o of a window of the issuing team, as R214 and R215 lay it out: the registers of its groups and its scratch, or the bytes of
its banks. -/
def Rules.windowByte (s : State) (loc : Bool) (o : Nat) : Byte :=
  if loc = true then
    if o < 0x20000 then
      (s.group (16 * s.grp.team + o / 0x2000)).reg (o % 0x2000 / 128) (o % 128 / 4) |>.extractLsb' (8 * (o % 4)) 8
    else tget 0 s.team.scratch (o - 0x20000)
  else ((s.team.banks[o / 0x4000]?).map (fun b => tget 0 b.data (o % 0x4000))).getD 0

/-- n bytes at an offset lie inside one piece of a window of the issuing team. -/
def Rules.inWindow (s : State) (loc : Bool) (o n : Nat) : Prop :=
  if loc = true then
    (o / 0x2000 < s.team.size ∧ o < 0x20000 ∧ o % 0x2000 + n ≤ 0x1E00) ∨ (0x20000 ≤ o ∧ o + n ≤ 0x20000 + s.team.scr)
  else o % 0x4000 + n ≤ 0x4000 ∧ ∃ b, s.team.banks[o / 0x4000]? = some b ∧ b.mode = .scratch

/-- R91, R214, R215, R221, R227, R235: window accesses. A lane outside the window traps the lowest such lane; loads read their bytes,
zero-extended; stores write theirs, lanes ascending, and no others. -/
def Rules.WindowAccesses : Prop :=
  ∀ (s : State) (d a : BitVec 6) (z : BitVec 3) (loc : Bool),
    let n := 2 ^ z.toNat
    let offs := s.lanesAt false a.toNat
    let out (l : Nat) : Prop := s.lanesT.getLsbD l = true ∧ ¬ Rules.inWindow s loc (s.operand false a.toNat l) n
    let load := if loc = true then Instr.ldl d a z else .ldc d a z
    let store := if loc = true then Instr.stl d a z else .stc d a z
    (Ready s [a.toNat] (wordRegs d.toNat n) →
      (∀ l, out l → (∀ j, j < l → ¬ out j) → exec load s = .next (s.trap 0x10 ((if loc = true then 64 else 96) + l))) ∧
      ((∀ l, ¬ out l) →
        (s.windowHeld loc false n offs = true → exec load s = .next s.stand) ∧
        (s.windowHeld loc false n offs = false → (∀ x ∈ offs, s.bytesBad loc s.grp.team x.2 n = false) → ∃ t, exec load s = .next t ∧
          (∀ l, s.lanesT.getLsbD l = true → t.grp.element d.toNat n l =
            ((List.range n).map (fun i => (Rules.windowByte s loc (s.operand false a.toNat l + i)).toNat * 256 ^ i)).sum) ∧
          Completes s t (wordRegs d.toNat n) s.lanesT []))) ∧
    (Ready s (wordRegs d.toNat n ++ [a.toNat]) [] →
      (∀ l, out l → (∀ j, j < l → ¬ out j) → exec store s = .next (s.trap 0x10 ((if loc = true then 64 else 96) + l))) ∧
      ((∀ l, ¬ out l) →
        (s.windowHeld loc true n offs = true → exec store s = .next s.stand) ∧
        (s.windowHeld loc true n offs = false → ∃ s' t, exec store s = .next t ∧ Passes s' t [] ∧
          s' = { s with groups := s'.groups, teams := s'.teams } ∧
          (∀ o, Rules.inWindow s loc o 1 → Rules.windowByte s' loc o =
            match (lanesOf s.lanesT).reverse.find? (fun l => decide (s.operand false a.toNat l ≤ o ∧ o < s.operand false a.toNat l + n)) with
            | some l => BitVec.ofNat 8 (s.elementAt d.toNat n l / 256 ^ (o - s.operand false a.toNat l))
            | none => Rules.windowByte s loc o) ∧
          (∀ k, (s'.group k).cur = (s.group k).cur ∧ (s'.group k).rest = (s.group k).rest ∧ (s'.group k).preds = (s.group k).preds ∧
            (s'.group k).fixed = (s.group k).fixed) ∧
          (∀ k, k / 16 ≠ s.grp.team → (s'.group k).regs = (s.group k).regs) ∧
          ∀ k, k ≠ s.grp.team → s'.teamOf k = s.teamOf k)))

/-- R211, R228, R229: conversions between generic addresses and window offsets, where an address outside the window gives an offset of
all ones; and the tests of an address's aperture. -/
def Rules.AddressConversions : Prop :=
  ∀ (s : State) (st : BitVec 3) (d a : BitVec 6),
    let off (base x : Nat) : Nat := if base ≤ x ∧ x < base + 2 ^ 32 then x - base else 2 ^ 32 - 1
    (Ready s (regs true a.toNat) [d.toNat] →
      Lanewise s (.cvtaGl st d a) false d.toNat (fun l => (off 0xFFFFFFF000000000 (s.operand true a.toNat l), [])) ∧
      Lanewise s (.cvtaGc st d a) false d.toNat (fun l => (off 0xFFFFFF0000000000 (s.operand true a.toNat l), []))) ∧
    (Ready s [a.toNat] (regs true d.toNat) →
      Lanewise s (.cvtaLg st d a) true d.toNat (fun l => (0xFFFFFFF000000000 + s.operand false a.toNat l, [])) ∧
      Lanewise s (.cvtaCg st d a) true d.toNat (fun l => (0xFFFFFF0000000000 + s.operand false a.toNat l, []))) ∧
    (Ready s (regs true a.toNat) [64 + d.toNat] →
      let tests (i : Instr) (lo n : Nat) : Prop := Predwise s i d.toNat (fun l =>
        (decide (lo ≤ s.operand true a.toNat l ∧ s.operand true a.toNat l < lo + n), []))
      tests (.inapGlobal st d a) 0 (2 ^ 56) ∧ tests (.inapPeer st d a) 0x4000000000000000 (4096 * 2 ^ 40) ∧
      tests (.inapCluster st d a) 0xFFFFFF0000000000 (2 ^ 32) ∧ tests (.inapLocal st d a) 0xFFFFFFF000000000 (2 ^ 32))

/-- R213, R216, R217, R230: `bankset` moves a bank of the team to a mode, which loses what it held; a bank the team has not, and a mode
that is none, trap. A fragment that waits in `fput` or `fget` on the bank traps when its mode changes.
Which lines leave with a bank is open; the model moves them all to the banks that stay (log 20). -/
def Rules.BankModes : Prop :=
  ∀ (s : State) (a b : BitVec 6), Ready s [a.toNat, b.toNat] [] →
    let bk := (s.source a.toNat (lowest s.lanesT)).toNat
    let m := (s.source b.toNat (lowest s.lanesT)).toNat
    let mode : BankMode := if m = 0 then .scratch else if m = 1 then .cacheWay else .fifo
    let free : Prop := s.memoryHeld = false ∧ s.copiesInBanks = false
    (s.lanesT = 0 → ∃ t, exec (.bankset a b) s = .next t ∧ Passes s t []) ∧
    (s.lanesT ≠ 0 → s.team.banks.length ≤ bk ∨ 2 < m → exec (.bankset a b) s = .next (s.trap 0x11 7)) ∧
    (s.lanesT ≠ 0 → m ≤ 2 → ¬ free → bk < s.team.banks.length → exec (.bankset a b) s = .next s.stand) ∧
    ∀ old, s.lanesT ≠ 0 → m ≤ 2 → free → s.team.banks[bk]? = some old →
      (old.mode = mode → ∃ t, exec (.bankset a b) s = .next t ∧ Passes s t []) ∧
      (old.mode ≠ mode → old.puts = [] → old.gets = [] →
        let s1 := s.setTeam { s.team with banks := s.team.banks.set bk { mode := mode } }
        ∃ t, exec (.bankset a b) s = .next t ∧ t.grp.cur = { s.grp.cur with pc := s.grp.cur.pc + 4, wait := .none } ∧
          t.grp.regs = s.grp.regs ∧ t.grp.preds = s.grp.preds ∧ (∀ j, j ≠ s.cur → t.group j = s.group j) ∧
          t.team.fixed = s1.team.fixed ∧ (∀ c, c ≠ s.team.cluster → t.clusterOf c = s.clusterOf c) ∧
          (s1.cacheWays s.team.cluster ≠ 0 → t.mem = s.mem ∧ t.clusters = s.clusters) ∧
          (s1.cacheWays s.team.cluster = 0 → t.cluster.cache = [])) ∧
      ∀ x f, old.mode ≠ mode → old.puts ++ old.gets = [x] → x.group ≠ s.cur → (s.group x.group).record = none →
        s.fifoFrag x = some f →
        f.handler = false → ∃ t, exec (.bankset a b) s = .next t ∧ (t.group x.group).tcause = 0x811 ∧ (t.group x.group).tpc = f.pc ∧
          (t.group x.group).tmask = f.mask ∧ (t.group x.group).record = some { f with st := .trapped, wait := .none, spilled := false }

/-- R231 to R233: `fput` appends the values of the lanes of T, lanes ascending, and `fget` takes as many in that order, when the bank
has the room or the entries and nothing waits before it; otherwise the fragment waits in the bank's queue, its operands read,
with what it is to write busy (R26), and takes effect as soon as an instruction of another group brings the entries or the room. Other
fragments of the group may go on (log 29). -/
def Rules.Fifos : Prop :=
  ∀ (s : State) (d a b : BitVec 6),
    let ls := lanesOf s.lanesT
    let bk := (s.source a.toNat (lowest s.lanesT)).toNat
    let bad (i : Instr) : Prop :=
      (s.team.banks.length ≤ bk → exec i s = .next (s.trap 0x11 7)) ∧
      ∀ bank, s.team.banks[bk]? = some bank → bank.mode ≠ .fifo → exec i s = .next (s.trap 0x11 8)
    let becomes (t : State) (bank : Bank) : Prop := t.team.banks = s.team.banks.set bk bank ∧ t.mem = s.mem ∧ t.clusters = s.clusters
    let moves (t : State) : Prop := ∀ l, s.active.getLsbD l = true → t.grp.holds l { s.here with pc := s.grp.cur.pc + 4 }
    let waits (i : Instr) (after : Bank) : Prop := ∃ t, exec i s = .next t ∧ becomes t after ∧ t.grp.regs = s.grp.regs ∧
      t.grp.preds = s.grp.preds ∧ ∃ f ∈ t.grp.cur :: t.grp.rest, { f with spilled := s.grp.cur.spilled } = { s.grp.cur with wait := .fifo s.nextId }
    -- the first fragment of another group that waits takes effect: its fragment goes on
    let served (t : State) (y : FifoOp) : Prop := ∀ f ∈ (s.group y.group).frags, f.st ≠ .free → f.wait = .fifo y.id →
      ∀ l, f.mask.getLsbD l = true → (t.group y.group).holds l { f.place with pc := f.pc + 4 }
    let other (y : FifoOp) : Prop := y.group ≠ s.cur ∧ s.stillWaits y = true
    s.grp.cur.st = .ready →
    (Ready s [a.toNat, b.toNat] [] →
      (s.lanesT = 0 → ∃ t, exec (.fput a b) s = .next t ∧ Passes s t []) ∧ (s.lanesT ≠ 0 → bad (.fput a b)) ∧
      ∀ bank, s.lanesT ≠ 0 → s.memoryHeld = false → s.team.banks[bk]? = some bank → bank.mode = .fifo → bank.puts = [] →
        let all := bank.fifo ++ ls.map (s.source b.toNat)
        (bank.gets = [] → all.length ≤ 4096 → ∃ t, exec (.fput a b) s = .next t ∧
          becomes t { bank with fifo := all } ∧ t.grp.regs = s.grp.regs ∧ t.grp.preds = s.grp.preds ∧ moves t) ∧
        (∀ y, bank.gets = [y] → other y → all.length ≤ 4096 → (lanesOf y.lanes).length ≤ all.length → s.team.soft = [] →
          ∃ t, exec (.fput a b) s = .next t ∧ t.grp.regs = s.grp.regs ∧ moves t ∧ served t y ∧
            becomes t { bank with fifo := all.drop (lanesOf y.lanes).length, gets := [],
                                  head := (bank.head + (lanesOf y.lanes).length) % 4096 } ∧
            ∀ z ∈ (lanesOf y.lanes).zip all, (t.group y.group).reg y.dst z.1 = z.2) ∧
        (4096 < all.length → waits (.fput a b) { bank with
          puts := [{ group := s.cur, id := s.nextId, lanes := s.lanesT, words := ls.map (s.source b.toNat) }] })) ∧
    (Ready s [a.toNat] [d.toNat] →
      (s.lanesT = 0 → ∃ t, exec (.fget d a) s = .next t ∧ Passes s t []) ∧ (s.lanesT ≠ 0 → bad (.fget d a)) ∧
      ∀ bank, s.lanesT ≠ 0 → s.memoryHeld = false → s.team.banks[bk]? = some bank → bank.mode = .fifo → bank.gets = [] →
        s.team.soft = [] →
        let took := { bank with fifo := bank.fifo.drop ls.length, head := (bank.head + ls.length) % 4096 }
        let takes (t : State) : Prop := exec (.fget d a) s = .next t ∧ RegsKept s t [d.toNat] s.lanesT ∧
          (∀ x ∈ ls.zip bank.fifo, t.grp.reg d.toNat x.1 = x.2) ∧ t.grp.preds = s.grp.preds ∧ moves t
        (bank.puts = [] → ls.length ≤ bank.fifo.length → ∃ t, takes t ∧ becomes t took) ∧
        (∀ y, bank.puts = [y] → other y → ls.length ≤ bank.fifo.length → took.fifo.length + y.words.length ≤ 4096 →
          ∃ t, takes t ∧ served t y ∧ becomes t { took with fifo := took.fifo ++ y.words, puts := [] }) ∧
        (bank.fifo.length < ls.length → waits (.fget d a) { bank with
            gets := [{ group := s.cur, id := s.nextId, lanes := s.lanesT, dst := d.toNat }] } ∧
          ∃ t, exec (.fget d a) s = .next t ∧ (d.toNat, s.nextId) ∈ t.grp.busy))

/-- R222, R234: `waitc` passes when the counters that its mask names are zero, and otherwise waits; where it names stores it sets the
write-combining lines of the group draining. -/
def Rules.WaitsForAccesses : Prop :=
  ∀ (s : State) (m : BitVec 6), Unhindered s [] →
    let idle := ∀ c, c < 6 → m.getLsbD c = true → s.inFlight c = 0
    (idle → ∃ t, exec (.waitc m) s = .next t ∧ Passes s t []) ∧
    (¬ idle → ∃ t, exec (.waitc m) s = .next t ∧ t.grp.cur = { s.grp.cur with wait := if s.goesOn then s.grp.cur.wait else .slot } ∧ t.grp.regs = s.grp.regs ∧
      t.mem = s.mem ∧ t.clusters = s.clusters ∧
      (m.getLsbD 1 = true → ∀ x ∈ s.cluster.wc, s.cur ∈ x.2.groups → x.2.leaving = false → .wcDrain s.team.cluster x.1 ∈ t.agenda))

/-! ### Remote instructions and commons -/

/-- R255 to R258: `rld`, `rst` and `ratm` check every lane of T before they act, and then leave one access outstanding for each device
that the lanes name, counted and tracked apart, each in a slot of its own; registers and memory stay until replies arrive.
A peer is what the state says of it (log 18). -/
def Rules.RemoteAccesses : Prop :=
  ∀ (s : State) (d p o : BitVec 6) (k : BitVec 2) (g : BitVec 3),
    let n := if s.wide = true then 8 else 4
    let w := if s.wide = true then 2 else 1
    let r := s.region (24 + g.toNat)
    let offs := s.lanesAt true o.toNat
    let dev (l : Nat) : Nat := (s.source p.toNat l).toNat
    let devs := (offs.map (fun x => dev x.1)).eraseDups
    let addr := p.toNat :: regs true o.toNat ++ [152 + g.toNat]
    let pair (q : Nat) : Prop := s.wide = true → isPair q = true
    let form (i : Instr) (op : AccOp) (types srcs dsts : List Nat) : Prop :=
      let write := decide (op = .store)
      let atomic := decide (op ≠ .load ∧ op ≠ .store)
      let ctr := if op = .store then 1 else 0
      let bad (l : Nat) : Prop := s.lanesT.getLsbD l = true ∧ atomic = true ∧ s.operand true o.toNat l % n ≠ 0
      let away (l : Nat) : Prop := s.lanesT.getLsbD l = true ∧ s.inJob (dev l) = false
      let x := { s.txn op n k.toNat (24 + g.toNat) r with
        remote := true, dst := d.toNat, counter := some ctr, nalloc := true, grant := false, first := s.nextId }
      let pass (v : Nat) : Txn := s.remotePass x r v (offs.filter (fun y => dev y.1 == v)) (s.operand s.wide d.toNat)
        (s.operand s.wide (d.toNat + w))
      let held : Prop := (∃ v ∈ devs, s.lineHeld (pass v) = true) ∨ 63 < tget 0 s.grp.count ctr + devs.length ∨
        ((∃ v ∈ devs, ∃ q ∈ (pass v).lanes, q.ptype = 3) ∧ ∃ c, c < 6 ∧ s.inFlight c ≠ 0)
      k ≠ 3 → s.et ∈ types → Ready s srcs dsts → s.memoryHeld = false → r.Serves s.grp.pos write atomic → s.inside r o.toNat n →
        (r.peer = false → exec i s = .next (s.trap 0x11 9)) ∧
        (r.peer = true → ∀ l, bad l → (∀ j, j < l → ¬ bad j) → exec i s = .next (s.trap 0x10 (128 + l))) ∧
        (r.peer = true → (∀ l, ¬ bad l) → ∀ l, away l → (∀ j, j < l → ¬ away j) → exec i s = .next (s.trap 0x18 l)) ∧
        (r.peer = true → (∀ l, ¬ bad l) → (∀ l, ¬ away l) →
          (s.lanesT = 0 → ∃ t, exec i s = .next t ∧ Passes s t []) ∧
          (s.lanesT ≠ 0 → held → exec i s = .next s.stand) ∧
          (s.lanesT ≠ 0 → ¬ held → ∃ t, exec i s = .next t ∧ t.mem = s.mem ∧ t.peers = s.peers ∧ t.clusters = s.clusters ∧
            (∀ j, j ≠ s.cur → t.group j = s.group j) ∧ t.grp.regs = s.grp.regs ∧ t.grp.preds = s.grp.preds ∧
            t.grp.cur = { s.grp.cur with pc := s.grp.cur.pc + 4, wait := .none } ∧
            tget 0 t.grp.count ctr = tget 0 s.grp.count ctr + devs.length ∧ t.cycle = s.cycle + 2 * devs.length ∧
            ∀ v ∈ devs, ∃ id y, s.nextId ≤ id ∧ tfind t.txns id = some y ∧ y.dev = some v ∧
              y.asked = { (pass v).asked with issued := y.issued } ∧
              (op ≠ .store → ∀ c ∈ regs s.wide d.toNat, (c, id) ∈ t.grp.busy)))
    let data := regs s.wide d.toNat
    (pair d.toNat →
      form (.rld d p o k g) .load allTypes addr data ∧ form (.rst d p o k g) .store allTypes (data ++ addr) [] ∧
      form (.ratmAdd d p o k g) .add scalarInts (data ++ addr) data ∧
      form (.ratmXchg d p o k g) .xchg scalarInts (data ++ addr) data) ∧
    ((if s.wide = true then d.toNat % 4 = 0 ∧ d.toNat ≤ 56 else isPair d.toNat = true) →
      form (.ratmCas d p o k g) .cas scalarInts (data ++ regs s.wide (d.toNat + w) ++ addr) data)

/-- R283 to R288: a commons instruction needs a commons borrow and aligned offsets; a relaxed or acquiring one issues its access, and a
releasing one first waits for the group's accesses, and sweeps the scope of its line, and what the owner has recorded of a line that the
cluster owns beyond it (R279). Where the cluster owns the line, the one lane of
T gets the old value and the location takes the new one at once. -/
def Rules.CommonsAccesses : Prop :=
  ∀ (s : State) (q : BitVec 2) (q1 : BitVec 1) (d : BitVec 6) (g : BitVec 5) (a : BitVec 6) (k : BitVec 2),
    let n := if s.wide = true then 8 else 4
    let w := if s.wide = true then 2 else 1
    let r := s.region g.toNat
    let cl := s.team.cluster
    let addr := (128 + g.toNat) :: regs true a.toNat
    let data := regs s.wide d.toNat
    let val (x : Nat) : Int := if s.et % 2 = 0 then signed (8 * n) x else x
    let form (i : Instr) (op : AccOp) (ord : Nat) (types srcs dsts : List Nat) (f : Nat → Nat → Nat → Nat) : Prop :=
      let bad (l : Nat) : Prop := s.lanesT.getLsbD l = true ∧ s.operand true a.toNat l % n ≠ 0
      let pieces := s.regionPieces r n (s.lanesAt true a.toNat) (s.operand s.wide d.toNat) (s.operand s.wide (d.toNat + w))
      let x := { s.txn op n k.toNat g.toNat r with
        commons := true, dst := d.toNat, counter := some (if op = .store then 1 else 0), signed := s.et % 2 == 0,
        acquire := ord % 2 == 1, release := ord / 2 == 1, lanes := pieces }
      let scope := s.releaseScope pieces
      let sweep (m : Nat) : Sweep := tget {} s.sweeps m
      let starts (scopes : List Scope) : Prop := ∃ t, exec i s = .next t ∧ t.grp.sweeping = some s.nextId ∧
        tfind t.sweeps s.nextId =
          some { group := s.cur, owing := (s.sweepTargets s.team.ctx scopes).flatMap ackCodes, scopes := scopes } ∧
        t.grp.regs = s.grp.regs ∧ t.grp.cur.pc = s.grp.cur.pc ∧ t.mem = s.mem ∧ t.txns = s.txns
      let here (t : State) : Prop := ∀ p, pieces = [p] → s.hits x p = true → lineOf (p.loc + p.n - 1) = lineOf p.loc →
        let old := s.seenLe cl p.loc p.n
        t.txns = s.txns ∧ (op ≠ .store → t.grp.val s.wide d.toNat p.lane = old) ∧
          (op ≠ .load → t.seenLe cl p.loc p.n = f old p.a p.b % 256 ^ p.n)
      k ≠ 3 → s.et ∈ types → Ready s srcs dsts → s.memoryHeld = false → r.Serves s.grp.pos (decide (op ≠ .load)) true →
      s.inside r a.toNat n →
        (∀ l, bad l → (∀ j, j < l → ¬ bad j) → exec i s = .next (s.trap 0x10 (128 + l))) ∧
        ((∀ l, ¬ bad l) →
          (s.lanesT = 0 → ∃ t, exec i s = .next t ∧ Passes s t []) ∧
          (s.lanesT ≠ 0 → ord / 2 = 0 → Accesses s i x here) ∧
          (s.lanesT ≠ 0 → ord / 2 = 1 → s.accessHeld x = true → exec i s = .next s.stand) ∧
          (s.lanesT ≠ 0 → ord / 2 = 1 → s.accessHeld x = false →
            ((∃ c, c < 5 ∧ s.inFlight c ≠ 0) → exec i s = .next s.drainWc.stand) ∧
            ((∀ c, c < 5 → s.inFlight c = 0) →
              (s.grp.sweeping = none → scope.spread = 0 → s.ownerScopes x [scope] = [] →
                ∃ t, exec i s = .next t ∧ Issued s t { x with carried := some scope } ∧ here t) ∧
              (s.grp.sweeping = none → scope.spread ≠ 0 ∨ s.ownerScopes x [scope] ≠ [] → starts (scope :: s.ownerScopes x [scope])) ∧
              ∀ m, s.grp.sweeping = some m →
                ((sweep m).owing ≠ [] → exec i s = .next s.stand) ∧
                ((sweep m).owing = [] → s.ownerScopes x (sweep m).scopes ≠ [] →
                  starts ((sweep m).scopes ++ s.ownerScopes x (sweep m).scopes)) ∧
                ((sweep m).owing = [] → s.ownerScopes x (sweep m).scopes = [] →
                  ∃ t, exec i s = .next t ∧ Issued s t { x with carried := (sweep m).scopes.head? } ∧ here t))))
    let pair : Prop := s.wide = true → isPair d.toNat = true
    let rmw (i : Instr) (op : AccOp) (types : List Nat) (f : Nat → Nat → Nat → Nat) : Prop :=
      form i op q.toNat types (data ++ addr) data f
    (pair →
      rmw (.aadd q d g a k) .add scalarInts (fun old x _ => old + x) ∧
      rmw (.asub q d g a k) .sub scalarInts (fun old x _ => old + 256 ^ n - x) ∧
      rmw (.amin q d g a k) .min scalarInts (fun old x _ => if val x < val old then x else old) ∧
      rmw (.amax q d g a k) .max scalarInts (fun old x _ => if val old < val x then x else old) ∧
      rmw (.aand q d g a k) .and scalarInts (fun old x _ => old &&& x) ∧
      rmw (.aor q d g a k) .or scalarInts (fun old x _ => old ||| x) ∧
      rmw (.axor q d g a k) .xor scalarInts (fun old x _ => old ^^^ x) ∧
      rmw (.axchg q d g a k) .xchg allTypes (fun _ x _ => x) ∧
      rmw (.ainc q d g a k) .inc [1, 3] (fun old x _ => if old < x then old + 1 else old) ∧
      rmw (.adec q d g a k) .dec [1, 3] (fun old x _ => if x < old then old - 1 else old) ∧
      rmw (.afadd q d g a k) .fadd [8] (fun old x _ =>
        (AccOp.fadd.result false s.grp.cur.fmode 4 old x 0).1) ∧
      form (.ald q1 d g a k) .load q1.toNat allTypes addr data (fun old _ _ => old) ∧
      form (.ast q1 d g a k) .store (2 * q1.toNat) allTypes (data ++ addr) [] (fun _ x _ => x)) ∧
    ((if s.wide = true then d.toNat % 4 = 0 ∧ d.toNat ≤ 56 else isPair d.toNat = true) →
      form (.acas q d g a k) .cas q.toNat allTypes (data ++ regs s.wide (d.toNat + w) ++ addr) data
        (fun old x y => if old = x then y else old))

/-- R263, R290: `ahint` pins the predictor of a register that holds a commons borrow of the group to the home or to grants, or gives it
back its count of 4; it never traps at execution and changes nothing else. -/
def Rules.Hints : Prop :=
  ∀ (s : State) (h : BitVec 6) (g : BitVec 5), Ready s [128 + g.toNat] [] →
    let r := s.region g.toNat
    let p : Predictor := tget {} s.team.predictor g.toNat
    let left : Predictor := if h = 0 then { p with pin := .home } else if h = 1 then { p with pin := .grant } else { cont := 4, pin := .none }
    ((s.lanesT = 0 ∨ ¬ r.Serves s.grp.pos false true) → ∃ t, exec (.ahint h g) s = .next t ∧ Passes s t []) ∧
    (s.lanesT ≠ 0 → r.Serves s.grp.pos false true →
      ∃ t, exec (.ahint h g) s = .next t ∧ Passes (s.setTeam { s.team with predictor := t.team.predictor }) t [] ∧
        ∀ n, tget {} t.team.predictor n = if n = g.toNat then left else tget {} s.team.predictor n)

/-- R262, R265, R266, R271 to R274, R279: a commons access of one piece is at its home. Where the home is another device and this one does
not hold the page as the access needs it, the page's grant goes to this device's edge proxy first. A line in a transaction, or one that
keeps its turn for another request, queues it, or refuses it when the queue is full; a line that another cluster owns is called forward
first, where the home has an egress slot; a release waits for the sweep of a recorded scope that it does not carry; otherwise the access is performed, on the bytes as its home or its owner has them, and what it leaves is what its home
or, where the line is cached, its cluster has from then on. -/
def Rules.CommonsService : Prop :=
  ∀ (s : State) (n : Nat) (x : Txn) (p : LaneAcc), tfind s.txns n = some x → x.lanes = [p] → p.result = none → p.going = false →
    x.kind = .c → x.noBorrow = false → x.lost = false → x.src = none → x.buffers p = false → s.picks = [] → s.answers p.loc = true →
    s.behindOlder n x p = false → s.parked n x p = false → lineOf p.loc ∉ s.poison → 0 < p.n →
    lineOf (p.loc + p.n - 1) = lineOf p.loc → lineOf p.loc < 2 ^ 70 → (tfind s.catalogue (lineOf p.loc)).isSome = true →
    let line := lineOf p.loc
    let c := s.cat line
    let cl := x.cluster
    let page := s.cat (pageKey p.loc)
    let slot : Prop := s.slotFor (s.homeOf (128 * line)) (some n) = true
    let keeps (t : State) : Prop := t.mem = s.mem ∧ t.peers = s.peers ∧ t.groups = s.groups ∧ t.clusters = s.clusters
    let refused (t : State) : Prop := ∃ id m, tfind t.cmsgs id = some m ∧ m.kind = .resend ∧ m.txn = n ∧
      (.commonsResend id ∈ t.agenda ∨ ∃ k ∈ t.net.packets, k.2.event = some (.commonsResend id))
    (s.grantFirst x p = true → ∃ t q y, exec (.homeRequest n) s = .next t ∧ keeps t ∧ tfind t.txns n = some y ∧ y.lanes = [q] ∧
      q.granted = true ∧ q.result = none) ∧
    (s.grantFirst x p = false → (c.busy = true ∨ (∃ y, c.fwd = some y ∧ y ≠ n) → ∃ t, exec (.homeRequest n) s = .next t ∧ keeps t ∧
      (c.queue.length < 8 → (t.cat line).queue = c.queue ++ [n]) ∧ (8 ≤ c.queue.length → t.cat line = c ∧ refused t))) ∧
    (s.grantFirst x p = false → c.busy = false → (c.fwd = some n ∨ (c.fwd = none ∧ (c.queue = [] ∨ s.headOf c = some n))) →
      (c.st = .ow → c.owner ≠ cl → ∃ t, exec (.homeRequest n) s = .next t ∧ keeps t ∧
        (slot → (t.cat line).busy = true ∧ (t.cat line).fwd = some n ∧ ∃ id m, tfind t.cmsgs id = some m ∧ m.kind = .forward ∧
          m.line = line ∧ m.cluster = c.owner ∧ m.txn = n) ∧
        (¬ slot → t.cat line = c ∧ refused t)) ∧
      ((c.st = .ow → c.owner = cl ∧ s.holdsBytes cl true p.loc p.n = true) → s.pageRecalled p.loc = false →
        (page.st ≠ .po ∧ (page.st = .ps → x.op.writes = false)) →
        (s.unswept line x.carried = none ∨ s.homeSwept line n = true) →
        (locDev p.loc = none ∨ tfind s.pages (p.loc / 4096) = some true ∨
          (tfind s.pages (p.loc / 4096) = none ∧ s.pages.length < Config.edgePages)) →
        let cached : Prop := c.st = .ow ∨ (x.grant = true ∧ p.normal = true ∧ x.nalloc = false ∧ 0 < s.cacheWays cl ∧ x.remote = false)
        let old := if c.st = .ow then s.seenLe cl p.loc p.n
          else if p.ptype = 1 then s.wcMerge cl p.loc (s.homeLe p.loc p.n) p.n else s.homeLe p.loc p.n
        let new := (x.op.result x.signed x.fmode p.n old p.a p.b).1
        ∃ t y, exec (.homeRequest n) s = .next t ∧ tfind t.txns n = some y ∧ y.asked = x.asked ∧ y.lanes.map (·.result) = [some old] ∧
          t.groups = s.groups ∧
          (x.op.writes = true → (cached → t.seenLe cl p.loc p.n = new % 256 ^ p.n) ∧
            (¬ cached → (t.cat line).copies = [] ∧
              ((x.op = .cas → old = p.a ∨ p.ptype ≠ 1) → t.homeLe p.loc p.n = new % 256 ^ p.n))) ∧
          ∀ loc, ¬ (p.loc ≤ loc ∧ loc < p.loc + p.n) → (∀ l ∈ (s.clusterOf cl).wc, tfind l.2.bytes loc = none) →
            t.homeByte loc = s.homeByte loc))

/-- R266, R269 to R274: the protocol's messages. An invalidation drops the clean copies of a C-die's clusters; a forward makes the owner give
the line up and answer with its data, or answer GONE; a whole line is written back, and with an owner's answer the home's transaction ends;
each device that holds a page which is recalled answers with what it wrote, and with the last answer the page is at its home again; one
recalled from this device is given up with every copy; a refused request travels to its home again. What a line serves next is the request
it was forwarded for. What other devices write back is open (log 18). -/
def Rules.CommonsMessages : Prop :=
  ∀ (s : State) (n : Nat) (m : CMsg), tfind s.cmsgs n = some m → n < s.nextId →
    let c := s.cat m.line
    let gone (t : State) : Prop := tfind t.cmsgs n = none
    let owned := s.owns m.cluster m.line = true ∧
      (s.clusterOf m.cluster).cache.any (fun x => x.2.commons && lineOf x.1 == m.line) = true
    let turns (t : State) : Prop := ∀ x, c.fwd = some x → (tfind s.txns x).isSome = true → tfind s.chunks x = none →
      .homeRequest x ∈ t.agenda
    let sent (t : State) (u : CMsg) : Prop := ∃ id a, tfind t.cmsgs id = some { u with age := some a }
    let line := (s.clusterOf m.cluster).cache.filter (fun x => x.2.commons && lineOf x.1 == m.line)
    (m.kind = .invalidate → ∃ t, exec (.invalidate n) s = .next t ∧ gone t ∧ t.mem = s.mem ∧ t.groups = s.groups ∧
      t.catalogue = s.catalogue ∧ ∀ k b, b ∈ (t.clusterOf k).cache ↔ b ∈ (s.clusterOf k).cache ∧
        ¬ (k / 2048 = m.die ∧ b.2.commons = true ∧ lineOf b.1 = m.line ∧ s.owns k m.line = false)) ∧
    (m.kind = .forward →
      (owned → ∃ t, exec (.forward n) s = .next t ∧ gone t ∧ t.groups = s.groups ∧ t.mem = s.mem ∧ t.peers = s.peers ∧
        ((t.cat m.line).st = if (tget {} s.txns m.txn).shares = true then .sh else .h) ∧ (t.cat m.line).busy = c.busy ∧
        (∀ b ∈ (t.clusterOf m.cluster).cache, b.2.commons = true → lineOf b.1 = m.line →
          (tget {} s.txns m.txn).shares = true ∧ b.2.dirty = false) ∧
        sent t { m with kind := .writeBack, answer := true, data := line.map (fun x => (x.1, x.2.val)) }) ∧
      (¬ owned → ∃ t, exec (.forward n) s = .next t ∧ t.mem = s.mem ∧ t.clusters = s.clusters ∧ sent t { m with kind := .gone })) ∧
    (m.kind = .gone → s.cmsgs.Pairwise (fun a b => a.1 ≠ b.1) → ∃ t, exec (.gone n) s = .next t ∧ gone t ∧ t.mem = s.mem ∧ t.clusters = s.clusters ∧
      (c.st = .ow → s.backsOf m.line ≠ [] → t.cat m.line = { c with gone := true }) ∧
      (c.st ≠ .ow ∨ s.backsOf m.line = [] → (t.cat m.line).busy = false ∧ (t.cat m.line).st = (if c.st = .ow then .h else c.st) ∧ turns t)) ∧
    (m.kind = .writeBack → m.data.Pairwise (fun a b => a.1 ≠ b.1) → ∃ t, exec (.writeBack n) s = .next t ∧ gone t ∧
      t.groups = s.groups ∧ (∀ loc, t.homeByte loc = (tfind m.data loc).getD (s.homeByte loc)) ∧
      (c.st = .ow → c.owner = m.cluster → (t.cat m.line).st = .h) ∧ (∀ r ∈ t.reqs, n ∉ r.2.backs) ∧
      (c.gone = true ∨ m.answer = true → (t.cat m.line).busy = false ∧ turns t)) ∧
    (m.kind = .pageRecall → locDev (128 * m.line) = none →
      (m.answer = false → ∃ t, exec (.pageRecall n) s = .next t ∧ gone t ∧ t.groups = s.groups ∧ t.mem = s.mem ∧
        t.catalogue = s.catalogue ∧ sent t { m with answer := true, data := s.pageData (128 * m.line) }) ∧
      (m.answer = true → m.data.Pairwise (fun a b => a.1 ≠ b.1) → ∃ t, exec (.pageRecall n) s = .next t ∧ gone t ∧ t.groups = s.groups ∧
        (∀ loc, t.homeByte loc = (tfind m.data loc).getD (s.homeByte loc)) ∧
        ((∀ x ∈ s.cmsgs, x.1 ≠ n → x.2.kind = .pageRecall → 128 * x.2.line / 4096 ≠ 128 * m.line / 4096) →
          tfind t.catalogue (pageKey (128 * m.line)) = none))) ∧
    (m.kind = .pageRecall → (locDev (128 * m.line)).isSome = true →
      (m.answer = true → exec (.pageRecall n) s = .next { s with cmsgs := tdel s.cmsgs n }) ∧
      (m.answer = false → ∃ t, exec (.pageRecall n) s = .next t ∧ t.groups = s.groups ∧ sent t { m with answer := true } ∧
        tfind t.pages (128 * m.line / 4096) = none ∧ ∀ l, l / 32 = m.line / 32 → (t.cat l).st = .h ∧ (t.cat l).copies = [])) ∧
    (m.kind = .resend → tfind s.chunks m.txn = none → ∃ t, exec (.commonsResend n) s = .next t ∧ gone t ∧ t.mem = s.mem ∧
      t.groups = s.groups ∧ t.clusters = s.clusters ∧ t.catalogue = s.catalogue ∧
      ∀ y, tfind s.txns m.txn = some y → ∃ z, tfind t.txns m.txn = some z ∧ z.asked = y.asked ∧
        ((∃ p ∈ y.lanes, y.waits p = true ∧ p.going = false ∧ lineOf p.loc = m.line) →
          .homeRequest m.txn ∈ t.agenda ∨ ∃ k ∈ t.net.packets, k.2.txn = m.txn ∧ k.2.response = false ∧ k.2.event = none))

/-- R274, R278, R279, R281: an M-die forwards a sweep's marker to the C-dies of the scope, one egress slot each; the agent of a C-die answers it
when it has applied every invalidation of that M-die that came before; another device answers as a whole. The sweep is over when every
acknowledgement is in, and one that nobody waits for is forgotten; a home's own sweep then lets its line go on. -/
def Rules.Sweeps : Prop :=
  ∀ (s : State) (n : Nat) (m : CMsg), tfind s.cmsgs n = some m →
    let keeps (t : State) : Prop := t.mem = s.mem ∧ t.groups = s.groups
    let acks (t : State) : Prop := ∃ id a, tfind t.cmsgs id = some { m with kind := .sweepAck, age := some a }
    let mine (u : CMsg) : Prop := u.kind = .invalidate ∧ u.die = m.die ∧ s.homeOf (128 * u.line) = m.home
    (m.kind = .marker →
      (1000 ≤ m.home → ∃ t, exec (.sweepMarker n) s = .next t ∧ keeps t ∧ t.clusters = s.clusters ∧ acks t) ∧
      (m.home < 1000 → m.dies = [] → ∃ t, exec (.sweepMarker n) s = .next t ∧ keeps t ∧ acks t ∧ (∀ x ∈ t.cmsgs, ¬ mine x.2) ∧
        ∀ j u, tfind s.cmsgs j = some u → mine u → ∀ k loc b, k / 2048 = m.die → s.owns k u.line = false →
          tfind (t.clusterOf k).cache loc = some b → lineOf loc = u.line → b.commons = false) ∧
      (m.home < 1000 → ∀ d ds, m.dies = d :: ds → n < s.nextId →
        (s.slotFor m.home none = false → exec (.sweepMarker n) s = .next (s.owe (.sweepMarker n))) ∧
        (s.slotFor m.home none = true → ∃ t, exec (.sweepMarker n) s = .next t ∧ keeps t ∧ t.clusters = s.clusters ∧
          (∃ id a, tfind t.cmsgs id = some { m with dies := [], die := d, age := some a }) ∧
          tfind t.cmsgs n = (if ds = [] then none else some { m with dies := ds }) ∧ (ds ≠ [] → .sweepMarker n ∈ t.agenda)))) ∧
    let left (w : Sweep) : List Nat := w.owing.filter (· ≠ if m.home < 1000 then 512 * m.home + m.die else 2 ^ 20 + (m.home - 1000))
    (m.kind = .sweepAck → ∀ w l, tfind s.sweeps m.sweep = some w → w.line = some l → ∃ t, exec (.sweepAck n) s = .next t ∧
      tfind t.cmsgs n = none ∧ keeps t ∧ tfind t.sweeps m.sweep = some { w with owing := left w } ∧
      (left w = [] → (t.cat l).busy = false) ∧ (left w ≠ [] → t.catalogue = s.catalogue)) ∧
    (m.kind = .sweepAck → (∀ w, tfind s.sweeps m.sweep = some w → w.line = none) → ∃ t, exec (.sweepAck n) s = .next t ∧ tfind t.cmsgs n = none ∧
      t = { s with cmsgs := t.cmsgs, sweeps := t.sweeps } ∧
      ∀ w, tfind s.sweeps m.sweep = some w →
        let left := left w
        tfind t.sweeps m.sweep = if left = [] ∧ (s.group w.group).sweeping ≠ some m.sweep then none else some { w with owing := left })

/-- R322 to R326: a fence waits until every access of its group that it covers has been performed, then sweeps the clusters that may
hold copies of the commons writes it covers, and passes; `fencer` covers a range only and sweeps the scopes of its lines, and `fencei` also
drops the code range from the instruction cache and the group's buffer, while the cluster's other groups go on seeing the words that they
could fetch before. Which sweeps count for a later fence is log 23. -/
def Rules.Fences : Prop :=
  ∀ (s : State) (a b : BitVec 6) (r : BitVec 2) (k : BitVec 3),
    let l := lowest s.active
    let base := s.operand true a.toNat l
    let len := s.operand true b.toNat l
    let cover (range : Option (Nat × Nat)) : Cover := { classes := k.toNat, loads := r.getLsbD 0, stores := r.getLsbD 1, range := range }
    let all : Cover := { classes := 7, loads := true, stores := true }
    let sweep (m : Nat) : Sweep := tget {} s.sweeps m
    let waits (i : Instr) (c : Cover) : Prop := ∃ t, exec i s = .next t ∧
      t.grp.cur = { s.grp.cur with wait := if s.goesOn then s.grp.cur.wait else .fence } ∧
      t.grp.regs = s.grp.regs ∧ t.mem = s.mem ∧ t.clusters = s.clusters ∧
      (c.stores = true → ∀ x ∈ s.cluster.wc, s.cur ∈ x.2.groups → x.2.leaving = false → .wcDrain s.team.cluster x.1 ∈ t.agenda)
    let sweeps (i : Instr) (scopes : List Scope) (ws : List CommonsWrite) : Prop := ∃ t, exec i s = .next t ∧
      t.grp.sweeping = some s.nextId ∧ tfind t.sweeps s.nextId =
        some { group := s.cur, owing := (s.sweepTargets s.team.ctx scopes).flatMap ackCodes, writes := ws, scopes := scopes } ∧
      t.grp.regs = s.grp.regs ∧ t.grp.cur.pc = s.grp.cur.pc ∧ t.mem = s.mem
    let passes (i : Instr) (swept : List CommonsWrite) : Prop := ∃ s' t, exec i s = .next t ∧ Passes s' t [] ∧
      s' = { s with sweeps := s'.sweeps, groups := s'.groups } ∧ (∀ j, j ≠ s.cur → s'.group j = s.group j) ∧
      s'.grp = { s.grp with unswept := swept.foldl (fun ws x => ws.erase x) s.grp.unswept }
    let whole : List Scope := [{ anchor := s.clusterKey s.team.cluster, spread := 3 }]
    Unhindered s [] →
      (s.coveredInFlight (cover none) = true → waits (.fence r k) (cover none)) ∧
      (s.coveredInFlight (cover none) = false → s.grp.sweeping = none →
        let ws := s.grp.coveredWrites (cover none)
        (ws = [] → passes (.fence r k) []) ∧ (ws ≠ [] → sweeps (.fence r k) whole ws)) ∧
      (∀ m, s.coveredInFlight (cover none) = false → s.grp.sweeping = some m →
        ((sweep m).owing ≠ [] → exec (.fence r k) s = .next (s.stand .fence)) ∧
        ((sweep m).owing = [] → passes (.fence r k) (sweep m).writes)) ∧
      (s.coveredInFlight all = true → waits .fencei all) ∧
      (s.coveredInFlight all = false → s.grp.sweeping = none → s.grp.coveredWrites all ≠ [] →
        sweeps .fencei whole (s.grp.coveredWrites all)) ∧
      (s.coveredInFlight all = false →
        (s.grp.sweeping = none ∧ s.grp.coveredWrites all = []) ∨ (∃ m, s.grp.sweeping = some m ∧ (sweep m).owing = []) →
        let spans := pageSpans s.launch.pins s.launch.lcb.codeBase s.launch.lcb.codeLen
        ∃ t, exec .fencei s = .next t ∧ t.grp.cur = { s.grp.cur with pc := s.grp.cur.pc + 4, wait := .none } ∧
          t.grp.regs = s.grp.regs ∧ t.grp.ibuf = [] ∧ t.grp.code = [] ∧
          (∀ j, j ≠ s.cur → { (t.group j).calm with code := [] } = { (s.group j).calm with code := [] } ∧
            (s.hasGroup j = true → (s.teamOf (s.group j).team).cluster = s.team.cluster → (s.teamOf (s.group j).team).st ≠ .saved →
              ∀ x, inSpans spans x = true →
                tfind (t.group j).code x = (tfind (s.group j).code x).orElse (fun _ => tfind s.cluster.icache x))) ∧ (∀ x ∈ t.cluster.icache, inSpans spans x.1 = false) ∧
          (∀ loc, inSpans spans loc = false → tfind t.cluster.icache loc = tfind s.cluster.icache loc) ∧
          ∀ loc, inSpans spans loc = false → t.homeByte loc = s.homeByte loc) ∧
      (s.active ≠ 0 → ReadyAll s (regs true a.toNat ++ regs true b.toNat) [] →
        (2 ^ 64 < base + len → exec (.fencer a b r k) s = .next (s.trap 0x10 193)) ∧
        (base + len ≤ 2 ^ 64 → len = 0 → ∃ t, exec (.fencer a b r k) s = .next t ∧ Passes s t []) ∧
        (base + len ≤ 2 ^ 64 → len ≠ 0 →
          let c := cover (some (base, len))
          let ws := s.grp.coveredWrites c
          let scopes := ((ws.map (fun w => s.tableScope (lineOf w.loc))).eraseDups).filter (fun x => x.spread ≠ 0)
          (s.coveredInFlight c = true → waits (.fencer a b r k) c) ∧
          (s.coveredInFlight c = false →
            (s.grp.sweeping = none → ws = [] ∨ scopes = [] → ∃ t, exec (.fencer a b r k) s = .next t ∧ Passes s t []) ∧
            (s.grp.sweeping = none → ws ≠ [] → scopes ≠ [] → sweeps (.fencer a b r k) scopes ws) ∧
            ∀ m, s.grp.sweeping = some m →
              ((sweep m).owing ≠ [] → exec (.fencer a b r k) s = .next (s.stand .fence)) ∧
              ((sweep m).owing = [] → passes (.fencer a b r k) []))))
/-! ### Borrows -/

/-- The six forms of `bor`, each with its kind and whether it waits. -/
def Rules.bors (d a b : BitVec 6) : List (Instr × Kind × Bool) :=
  [(.borX d a b, .x, false), (.borS d a b, .s, false), (.borC d a b, .c, false),
   (.borXW d a b, .x, true), (.borSW d a b, .s, true), (.borCW d a b, .c, true)]

/-- The issuing group has entered request n: it is outstanding, and the registers that it will write are marked. -/
def Rules.Entered (s t : State) (p : Purpose) (reg : Nat) (codes : List Nat) : Prop :=
  (∃ r, tfind t.reqs s.nextId = some r ∧ r.purpose = p ∧ r.reg = reg ∧ r.team = s.grp.team ∧ r.group = s.cur ∧ r.ended = none) ∧
  ∀ c ∈ codes, (c, s.nextId) ∈ t.grp.busy

/-- A slip of a type about request n is on its way to or from a home. -/
def Rules.Slipped (t : State) (ty n home : Nat) (P : Slip → Prop) : Prop :=
  ∃ m x, tfind t.slips m = some x ∧ x.ty = ty ∧ x.req = n ∧ x.seq = n % 2 ^ 16 ∧ x.home = home ∧ P x

/-- R201, R202: the checks of `bor` on the operands of its lowest lane and on its register, in their order; with a `bret` or `bdown` of
the group outstanding it waits. One that comes from its walk gives up what it kept busy. The order of the checks of one range is log 44. -/
def Rules.BorrowChecks : Prop :=
  ∀ (s : State) (d a b : BitVec 6), ∀ f ∈ Rules.bors d a b, Ready s (quadRegs a.toNat ++ [128 + b.toNat]) [d.toNat, 128 + b.toNat] →
    let l := lowest s.lanesT
    let base := s.operand true a.toNat l
    let word := s.operand true (a.toNat + 2) l
    let len := word / 128 * 128
    let peer := 0x4000000000000000
    let r := s.region b.toNat
    let s1 : State := match s.walkOf base len with
      | some w => { s.setGrp (s.grp.freeBusy w.1) with walks := tdel s.walks w.1 }
      | none => s
    (s.handing = true → exec f.1 s = .next s.stand) ∧
    (s.handing = false → s.lanesT = 0 → ∃ t, exec f.1 s = .next t ∧ Passes s t []) ∧
    (s.handing = false → s.lanesT ≠ 0 →
      if base % 128 ≠ 0 then exec f.1 s = .next (s1.trap 0x10 32)
      else if len = 0 ∨ 2 ^ 40 < len ∨ word / 4 % 32 ≠ 0 then exec f.1 s = .next (s1.trap 0x10 33)
      else if word % 4 = 3 then exec f.1 s = .next (s1.trap 0x19 1)
      else if ¬ (base + len ≤ 2 ^ 56 ∨ (peer ≤ base ∧ base < peer + 2 ^ 52 ∧ (base - peer) / 2 ^ 40 = (base + len - 1 - peer) / 2 ^ 40)) then
        exec f.1 s = .next (s1.trap 0x10 34)
      else r.kind ≠ .empty ∨ r.pend = true → exec f.1 s = .next (s1.trap 0x11 3))

/-- R26, R195, R200, R202, R402: `bor` translates its range. A page that is not mapped or lacks the permission traps; a translation that
the cluster does not hold starts a walk, or queues one where the home's 16 walkers are busy, for which the fragment waits; a range that conflicts with the team's own borrows gives status
SELF; otherwise a request goes to each home of the range, and the register is pending until it ends. -/
def Rules.BorrowRequests : Prop :=
  ∀ (s : State) (d a b : BitVec 6), ∀ f ∈ Rules.bors d a b, Ready s (quadRegs a.toNat ++ [128 + b.toNat]) [d.toNat, 128 + b.toNat] →
    let l := lowest s.lanesT
    let base := s.operand true a.toNat l
    let word := s.operand true (a.toNat + 2) l
    let len := word / 128 * 128
    let found := s.look s.team.ctx s.team.cluster base len f.2.1 none
    s.handing = false → s.lanesT ≠ 0 → borCheck base word (s.region b.toNat) = none → s.walkOf base len = none →
    s.team.st ≠ .absent → s.grp.cur.st = .ready →
      (∀ x addr, found = .fault x addr → exec f.1 s = .next (s.trapWith 0x13 x (BitVec.ofNat 64 addr) false)) ∧
      (found = .miss → ∃ t w, exec f.1 s = .next t ∧ tfind t.walks s.nextId = some w ∧ w.base = base ∧ w.len = len ∧
        w.ctx = s.team.ctx ∧ w.done = false ∧ w.started = s.cycle ∧
        (s.walksAt (s.home base) < Config.walkers → w.queued = false ∧ .tableWalkEnd s.nextId ∈ t.agenda) ∧
        (Config.walkers ≤ s.walksAt (s.home base) → w.queued = true) ∧
        (d.toNat, s.nextId) ∈ t.grp.busy ∧ (128 + b.toNat, s.nextId) ∈ t.grp.busy ∧ t.grp.regs = s.grp.regs ∧ t.mem = s.mem ∧
        ∃ h ∈ t.grp.cur :: t.grp.rest, h.wait = .walk s.nextId ∧ h.mask = s.active ∧ h.pc = s.grp.cur.pc) ∧
      (∀ dev, found = .silent dev → ∃ t r, exec f.1 s = .next t ∧ Rules.Entered s t .bor b.toNat [d.toNat, 128 + b.toNat] ∧
        tfind t.reqs s.nextId = some r ∧ r.owing = [1000 + dev] ∧ t.grp.regs = s.grp.regs ∧ t.mem = s.mem) ∧
      ∀ ps, found = .pages ps →
        let parts := s.partsOf (pageSpans ps base len)
        (s.selfConflict s.grp.team f.2.1 parts = true → ∃ t, exec f.1 s = .next t ∧
          (∀ j, s.lanesT.getLsbD j = true → t.grp.reg d.toNat j = 5) ∧ Completes s t [d.toNat] s.lanesT []) ∧
        (s.selfConflict s.grp.team f.2.1 parts = false → parts ≠ [] → ∃ t, exec f.1 s = .next t ∧
          Rules.Entered s t .bor b.toNat [d.toNat, 128 + b.toNat] ∧ t.mem = s.mem ∧ t.circ = s.circ ∧ t.grp.regs = s.grp.regs ∧
          (∀ n, tget {} t.team.g n = if n = b.toNat then { s.region n with pend := true } else s.region n) ∧
          (∀ r, tfind t.reqs s.nextId = some r → r.kind = f.2.1 ∧ r.wait = f.2.2 ∧ r.base = base ∧ r.len = len ∧ r.cls = word % 4 ∧
            r.owing = parts.map (·.1) ∧ r.lanes = s.lanesT ∧ r.dst = d.toNat ∧ r.pins = ps) ∧
          (∀ p ∈ parts, s.homeAnswers p.1 = true → Rules.Slipped t 1 s.nextId p.1 (fun x => x.spans = p.2)) ∧
          ∃ h ∈ t.grp.cur :: t.grp.rest, h.mask = s.active ∧ h.pc = s.grp.cur.pc + 4 ∧
            h.wait = if f.2.2 = true then .borrow s.nextId else .none)

/-- R182, R203, R204, R207, R208: `bdown`, `bup`, `bhand` and `bret` check their register in order; then a request is entered, which
first waits for the team's earlier accesses through the register (`bup` does not), and the register is pending (`bhand` leaves it).
The place of the PEND check behind kind and holder in `bdown` and `bup`, and of PEER, is log 44. -/
def Rules.BorrowChanges : Prop :=
  ∀ (s : State) (d a b : BitVec 6),
    let r := s.region b.toNat
    let to_ := (s.source a.toNat (lowest s.lanesT)).toNat
    let mine : Prop := r.all = true ∨ r.holder = s.grp.pos
    let trap (i : Instr) (c x : Nat) : Prop := exec i s = .next (s.trap c x)
    let quiet : Prop := (∀ x ∈ s.reqs, x.2.draining = false) ∧ s.team.st ≠ .absent ∧ s.hasGroup s.cur = true ∧
      ∀ f ∈ s.grp.rest, f.wait ≠ .borrow s.nextId
    let moves (t : State) : Prop := t.grp.cur = { s.grp.cur with pc := s.grp.cur.pc + 4, wait := .none } ∧ t.grp.regs = s.grp.regs ∧
      t.grp.preds = s.grp.preds
    let register (t : State) (now : Region) : Prop := ∀ n, tget {} t.team.g n = if n = b.toNat then now else s.region n
    let waiting (i : Instr) (p : Purpose) (now : Region) : Prop := ∃ t, exec i s = .next t ∧ moves t ∧
      Rules.Entered s t p b.toNat [128 + b.toNat] ∧ register t now ∧ t.mem = s.mem
    let asking (i : Instr) (p : Purpose) (ty : Nat) (codes : List Nat) : Prop :=
      let parts := s.partsOf (s.regionSpans r)
      parts ≠ [] → ∃ t, exec i s = .next t ∧ moves t ∧ Rules.Entered s t p b.toNat codes ∧ register t { r with pend := true } ∧
        (∀ q, tfind t.reqs s.nextId = some q → q.owing = parts.map (·.1)) ∧
        ∀ x ∈ parts, s.homeAnswers x.1 = true → Rules.Slipped t ty s.nextId x.1 (fun y => y.spans = x.2)
    let change (i : Instr) (want : Kind) (P : Prop) : Prop :=
      (s.handing = true → exec i s = .next s.stand) ∧
      (s.handing = false → s.lanesT = 0 → ∃ t, exec i s = .next t ∧ Passes s t []) ∧
      (s.handing = false → s.lanesT ≠ 0 →
        if r.peer = true then trap i 0x11 5 else if r.kind ≠ want then trap i 0x11 4
        else (¬ mine → trap i 0x12 0) ∧ (mine → r.pend = true → trap i 0x11 0) ∧
          (mine → r.pend = false → r.split = true → trap i 0x14 2) ∧ (mine → r.pend = false → r.split = false → quiet → P))
    (Ready s [128 + b.toNat] [128 + b.toNat] →
      change (.bdown b) .x
        ((s.throughDone s.grp.team b.toNat s.nextId = false → waiting (.bdown b) .down { r with pend := true }) ∧
         (s.throughDone s.grp.team b.toNat s.nextId = true → asking (.bdown b) .down 7 [128 + b.toNat]))) ∧
    (Ready s [128 + b.toNat] [d.toNat, 128 + b.toNat] →
      change (.bup d b) .s (asking (.bup d b) .up 8 [d.toNat, 128 + b.toNat])) ∧
    (Ready s [a.toNat, 128 + b.toNat] [128 + b.toNat] → s.handing = false → s.lanesT ≠ 0 →
      if r.kind = .empty ∨ r.pend = true then trap (.bhand a b) 0x11 0
      else (¬ mine → trap (.bhand a b) 0x12 0) ∧ (mine →
        if r.peer = true then trap (.bhand a b) 0x11 5
        else if 16 < to_ ∨ (to_ < 16 ∧ s.team.size ≤ to_) then trap (.bhand a b) 0x12 1
        else if to_ = 16 ∧ r.kind = .x then trap (.bhand a b) 0x11 6
        else quiet →
          (s.throughDone s.grp.team b.toNat s.nextId = false → waiting (.bhand a b) (.hand to_) r) ∧
          (s.throughDone s.grp.team b.toNat s.nextId = true → ∃ t, exec (.bhand a b) s = .next t ∧ moves t ∧ t.mem = s.mem ∧
            tfind t.reqs s.nextId = none ∧
            register t (if to_ = 16 then { r with all := true } else { r with holder := to_, all := false })))) ∧
    (Ready s [128 + b.toNat] [128 + b.toNat] → s.handing = false → s.lanesT ≠ 0 →
      let others (P : Region → Prop) : Prop := ∃ x ∈ s.team.g, x.2.kind ≠ .empty ∧ x.2.handle = r.handle ∧ P x.2
      let middle : Prop := r.split = true ∧ others (fun q => q.base < r.base) ∧ others (fun q => r.base < q.base)
      if r.kind = .empty ∨ r.pend = true then trap (.bret b) 0x11 0
      else (¬ mine → trap (.bret b) 0x12 0) ∧ (mine → middle → trap (.bret b) 0x14 1) ∧
        (mine → ¬ middle → quiet →
          (s.throughDone s.grp.team b.toNat s.nextId = false → waiting (.bret b) .ret { r with pend := true }) ∧
          (s.throughDone s.grp.team b.toNat s.nextId = true →
            (r.peer = false → asking (.bret b) .ret 6 [128 + b.toNat]) ∧
            (r.peer = true → ∃ t, exec (.bret b) s = .next t ∧ moves t ∧ (r.kind ≠ .x → t.mem = s.mem) ∧ tfind t.reqs s.nextId = none ∧
              tget {} t.team.g b.toNat = ({} : Region) ∧ ∀ x ∈ t.grp.busy, x.2 ≠ s.nextId))))

/-- R205, R206: `bsplit` cuts a borrow at an offset, and `bjoin` joins two adjacent pieces; SPLIT clears with the last piece. `bjoin`
checks gD before gB, and both before PEER (log 44). -/
def Rules.SplitsAndJoins : Prop :=
  ∀ (s : State) (d a b : BitVec 6), s.handing = false → s.team.st ≠ .absent →
    let r := s.region b.toNat
    let q := s.region d.toNat
    let o := (s.source a.toNat (lowest s.lanesT)).toNat
    let mine (x : Region) : Prop := x.all = true ∨ x.holder = s.grp.pos
    let sets (i : Instr) (now : Nat → Region) : Prop := ∃ t, exec i s = .next t ∧
      Passes (s.setTeam { s.team with g := t.team.g }) t [] ∧ ∀ n, tget {} t.team.g n = now n
    (Ready s [128 + d.toNat, a.toNat, 128 + b.toNat] [128 + d.toNat, 128 + b.toNat] →
      (s.lanesT = 0 → ∃ t, exec (.bsplit d a b) s = .next t ∧ Passes s t []) ∧
      (s.lanesT ≠ 0 →
        if r.kind = .empty ∨ r.pend = true then exec (.bsplit d a b) s = .next (s.trap 0x11 0)
        else (¬ mine r → exec (.bsplit d a b) s = .next (s.trap 0x12 0)) ∧ (mine r →
          if r.peer = true then exec (.bsplit d a b) s = .next (s.trap 0x11 5)
          else if o = 0 ∨ o % 128 ≠ 0 ∨ r.len ≤ o then exec (.bsplit d a b) s = .next (s.trap 0x10 35)
          else if q.kind ≠ .empty ∨ q.pend = true then exec (.bsplit d a b) s = .next (s.trap 0x11 3)
          else sets (.bsplit d a b) (fun n => if n = b.toNat then { r with len := o, split := true }
            else if n = d.toNat then { r with base := r.base + o, len := r.len - o, split := true } else s.region n)))) ∧
    (Ready s [128 + d.toNat, 128 + b.toNat] [128 + d.toNat, 128 + b.toNat] → d ≠ b →
      (s.lanesT = 0 → ∃ t, exec (.bjoin d b) s = .next t ∧ Passes s t []) ∧
      (s.lanesT ≠ 0 →
        if q.kind = .empty ∨ q.pend = true then exec (.bjoin d b) s = .next (s.trap 0x11 0)
        else (¬ mine q → exec (.bjoin d b) s = .next (s.trap 0x12 0)) ∧ (mine q →
          if r.kind = .empty ∨ r.pend = true then exec (.bjoin d b) s = .next (s.trap 0x11 0)
          else (¬ mine r → exec (.bjoin d b) s = .next (s.trap 0x12 0)) ∧ (mine r →
            if q.peer = true ∨ r.peer = true then exec (.bjoin d b) s = .next (s.trap 0x11 5)
            else if q.handle ≠ r.handle ∨ q.kind ≠ r.kind ∨ q.holder ≠ r.holder ∨ q.all ≠ r.all ∨
                ¬ (r.base = q.base + q.len ∨ q.base = r.base + r.len) then exec (.bjoin d b) s = .next (s.trap 0x14 3)
            else ∃ sp, sets (.bjoin d b) (fun n => if n = b.toNat then {}
                else if n = d.toNat then { q with base := min q.base r.base, len := q.len + r.len, split := sp } else s.region n) ∧
              let piece : Prop := ∃ x ∈ s.team.g, x.1 ≠ d.toNat ∧ x.1 ≠ b.toNat ∧ x.2.kind ≠ .empty ∧ x.2.handle = q.handle
              (piece → sp = q.split) ∧ (¬ piece → sp = false)))))

/-- R180, R209: `bquery` writes the image of a region register, four words, to the lanes of T, without a holder check. -/
def Rules.RegionImages : Prop :=
  ∀ (s : State) (d b : BitVec 6), Ready s [128 + b.toNat] (quadRegs d.toNat) →
    let r := s.region b.toNat
    let f (v lo n : Nat) : Nat := v / 2 ^ lo % 2 ^ n
    let one (x : Bool) : Nat := if x = true then 1 else 0
    (s.handing = true → exec (.bquery d b) s = .next s.stand) ∧
    (s.handing = false → ∃ t v, exec (.bquery d b) s = .next t ∧ Completes s t (quadRegs d.toNat) s.lanesT [] ∧ v < 2 ^ 128 ∧
      (∀ l j, s.lanesT.getLsbD l = true → j < 4 → t.grp.reg (d.toNat + j) l = BitVec.ofNat 32 (v / 2 ^ (32 * j))) ∧
      f v 0 1 = one r.pend ∧ f v 1 1 = one r.split ∧ f v 2 1 = one r.peer ∧ f v 3 2 = r.cls % 4 ∧
      f v 5 2 = (match r.kind with | .empty => 0 | .x => 1 | .s => 2 | .c => 3) ∧ f v 7 57 = r.base / 128 % 2 ^ 57 ∧ f v 64 2 = 0 ∧
      f v 66 1 = one r.all ∧ f v 67 4 = r.holder % 16 ∧ f v 71 34 = r.len / 128 % 2 ^ 34 ∧ f v 105 23 = r.handle % 2 ^ 23)

/-! ### Call slips -/

/-- R190, R191: a slip that arrives with a wrong type or bits that must be zero is discarded and reported; one to a home whose arrival
queue is full for its bucket is refused and sent again; and one that is there no more has no effect. The arrival queue of a bucket is full
of the slips for it that were sent before and are still in flight (log 8). R393: an answer to a request of a killed team is dropped and
counted. R191, R431: an answer to another device that reaches its edge has left this device. -/
def Rules.SlipsReceived : Prop :=
  ∀ (s : State) (n : Nat), ∀ f ∈ ([(1, .req n), (2, .grant n), (3, .refuse n), (4, .recall n), (5, .giveup n), (6, .retSlip n),
      (7, .down n), (8, .up n), (9, .reloc n), (10, .hold n), (11, .ack n)] : List (Nat × Instr)),
    (tfind s.slips n = none → exec f.2 s = .next s) ∧
    ∀ x, tfind s.slips n = some x →
      let malformed : Prop := x.ty = 0 ∨ 11 < x.ty ∨ 32 ≤ x.flags ∨ 2 ^ 34 ≤ x.lines ∨
        (if x.ty = 1 ∧ 1000 ≤ x.home then 2 ^ 20 else 2 ^ 23) ≤ x.handle
      let ahead := s.slips.filter (fun y => decide (y.1 < n) && y.2.home == x.home && toHome y.2.ty && y.2.status != 0x100 &&
        Config.bucket y.2.base == Config.bucket x.base)
      (x.ty ≠ f.1 ∨ malformed → exec f.2 s = .next { s with
        slips := tdel s.slips n, interrupts := s.interrupts ++ [⟨11, x.ty, x.home, 0⟩] }) ∧
      let own : Prop := s.foreign x = false ∨ f.1 ∈ [1, 5, 6, 7, 8, 9]
      (x.ty = f.1 → ¬ malformed → ¬ own → exec f.2 s = .next { s with slips := tdel s.slips n, abroad := s.abroad ++ [x] }) ∧
      (x.ty = f.1 → ¬ malformed → own → x.status ≠ 0x100 → x.dead = true → f.1 ∈ [2, 3, 11] →
        exec f.2 s = .next ({ s with slips := tdel s.slips n }.dropCompletion (2048 * x.die + x.cluster))) ∧
      (x.ty = f.1 → ¬ malformed → x.status ≠ 0x100 → f.1 ∈ [1, 5, 6, 7, 8, 9] → 9 ≤ ahead.length → exec f.2 s = .next { s with
        slips := tput s.slips n { x with status := 0x100 }, agenda := s.agenda ++ [.slipResend n] }) ∧
      (x.ty = f.1 → ¬ malformed → own → x.status = 0x100 → exec f.2 s = .next s) ∧
      (x.status = 0x100 → ∃ t, exec (.slipResend n) s = .next t ∧ tfind t.slips n = some { x with status := 0 } ∧
        t = { s with slips := t.slips, net := t.net, agenda := t.agenda, nextId := t.nextId, free := t.free })

/-- A slip is taken: of its type, well formed, with room in the arrival queue, and no answer to another device or to a killed team. -/
def Rules.Taken (s : State) (n ty : Nat) (x : Slip) : Prop :=
  tfind s.slips n = some x ∧ x.ty = ty ∧ x.bad = false ∧ x.status ≠ 0x100 ∧ (toHome ty = true → s.bucketAhead n x < 9) ∧
    (toHome ty = true ∨ (x.dead = false ∧ s.foreign x = false))

/-- R186 to R189: a request at a home is granted when no entry there makes it wait, tentatively if it has other homes; otherwise it is
refused BUSY, or, where it may wait, waits; a full table or wait queue refuses it FULL.
One entry stands for each holder and home (log 44). -/
def Rules.RequestsAtHomes : Prop :=
  ∀ (s : State) (n : Nat) (x : Slip) (r : Request), Rules.Taken s n 1 x → tfind s.reqs x.req = some r → x.home < 1000 →
    s.hostBiased (if x.home < 288 then x.spans else []) = none →
    let waitsFor (e : Circ) : Prop := match r.kind, e.st with
      | _, .taint => False
      | .x, .waiting => s.older (s.req e.req) r = true ∧ e.kind ≠ .empty
      | .x, _ => e.kind ≠ .empty
      | .s, .waiting => s.older (s.req e.req) r = true ∧ (e.kind = .x ∨ e.kind = .c)
      | .s, _ => e.kind = .x
      | .c, .waiting => s.older (s.req e.req) r = true ∧ (e.kind = .x ∨ e.kind = .s)
      | .c, _ => e.kind = .x ∨ e.kind = .s
      | .empty, _ => False
    let blocked : Prop := ∃ e ∈ s.circ, e.2.home = x.home ∧ e.2.req ≠ x.req ∧ spansMeet e.2.spans x.spans = true ∧ waitsFor e.2
    let st : CircState := if 1 < r.parts.length then .tentative else .held
    let place : Prop := s.placesUsed x.home < tableSize x.home
    let same (t : State) : Prop := t.mem = s.mem ∧ t.groups = s.groups ∧ t.teams = s.teams
    let entry (t : State) (st : CircState) : Prop := ∃ e ∈ t.circ, e.2.req = x.req ∧ e.2.home = x.home ∧ e.2.st = st ∧
      e.2.kind = r.kind ∧ e.2.spans = x.spans
    (¬ blocked → place → ∃ t, exec (.req n) s = .next t ∧ same t ∧ entry t st ∧ Rules.Slipped t 2 x.req x.home (fun _ => True)) ∧
    (¬ blocked → ¬ place → r.kind ≠ .s → ∃ t, exec (.req n) s = .next t ∧ same t ∧
      Rules.Slipped t 3 x.req x.home (fun y => y.status = 3)) ∧
    (blocked → r.wait = false → ∃ t, exec (.req n) s = .next t ∧ same t ∧ t.circ = s.circ ∧
      Rules.Slipped t 3 x.req x.home (fun y => y.status = 2)) ∧
    (blocked → r.wait = true → s.waitsUsed x.home < Config.waitPlaces → ∃ t, exec (.req n) s = .next t ∧ same t ∧ entry t .waiting) ∧
    (blocked → r.wait = true → Config.waitPlaces ≤ s.waitsUsed x.home → ∃ t, exec (.req n) s = .next t ∧ same t ∧ t.circ = s.circ ∧
      Rules.Slipped t 3 x.req x.home (fun y => y.status = 3))

/-- A `bor` of a group of a resident team has ended with a status: it is no longer outstanding, its lanes hold the status, and its
region register is as given. -/
def Rules.BorEnds (s t : State) (n : Nat) (r : Request) (status : Nat) (reg : Region) : Prop :=
  tfind t.reqs n = none ∧ (∀ l, r.lanes.getLsbD l = true → (t.group r.group).reg r.dst l = BitVec.ofNat 32 status) ∧
    (∀ b ∈ (t.group r.group).busy, b.2 ≠ n) ∧ tget {} (t.teamOf r.team).g r.reg = reg ∧
    (∀ i l, l < 32 → ¬ (i = r.dst ∧ r.lanes.getLsbD l = true) → (t.group r.group).reg i l = (s.group r.group).reg i l) ∧ t.mem = s.mem

/-- R188, R189, R193, R198, R202: the last grant of a `bor` completes it: GRANTED, or TAINTED where an X borrow takes over a taint, which
is gone then; a refusal, or the recall of a request that does not wait, ends it with its status; a waiting request that is recalled
gives the part up and waits there again, as soon as its grant arrives where the recall came first. The status BUSY of a recalled request
that does not wait, and the taint that goes with the last grant, are log 44. -/
def Rules.GrantsAndRefusals : Prop :=
  ∀ (s : State) (n : Nat) (x : Slip) (r : Request), tfind s.reqs x.req = some r → r.ended = none → r.purpose = .bor →
    s.hasGroup r.group = true → (s.teamOf r.team).st = .resident →
    let last : Prop := ∀ h ∈ r.owing, h = x.home
    let h := s.freshHandle
    let cl := (s.teamOf r.team).cluster
    let taints : Prop := r.kind = .x ∧ ∃ e ∈ s.circ, e.2.st = .taint ∧ ∃ p ∈ r.parts, p.1 = e.2.home ∧ spansMeet p.2 e.2.spans = true
    let reg : Region := { base := r.base, len := r.len, kind := r.kind, cls := r.cls, holder := (s.group r.group).pos,
                          all := decide (r.kind ≠ .x), handle := h }
    let givesUp (i : Instr) : Prop :=
      (r.wait = true → s.homeAnswers x.home = true → ∃ t, exec i s = .next t ∧ t.mem = s.mem ∧ t.groups = s.groups ∧
        tfind t.reqs x.req = some { r with granted := r.granted.filter (· ≠ x.home), early := r.early.filter (· ≠ x.home),
                                           owing := r.owing.filter (· ≠ x.home) ++ [x.home] } ∧
        Rules.Slipped t 5 x.req x.home (fun y => y.flags / 4 % 2 = 1)) ∧
      (r.wait = false → ∃ t, exec i s = .next t ∧ Rules.BorEnds s t x.req r 2 {})
    (Rules.Taken s n 2 x → x.home ∉ r.early →
      (¬ last → ∃ t, exec (.grant n) s = .next t ∧ t = { s with slips := t.slips, reqs := t.reqs } ∧
        tfind t.reqs x.req = some { r with owing := r.owing.filter (· ≠ x.home), granted := r.granted ++ [x.home] }) ∧
      (last → ∃ t status, exec (.grant n) s = .next t ∧ Rules.BorEnds s t x.req r status reg ∧ tfind t.pins h = some r.pins ∧
        (taints → status = 1) ∧ (¬ taints → status = 0) ∧
        (∀ e ∈ t.circ, e.2.req = x.req → e.2.st ≠ .taint → e.2.st = .held ∧ e.2.handle = h) ∧
        (r.kind = .x → ∀ e ∈ t.circ, e.2.st = .taint → ∀ p ∈ r.parts, p.1 = e.2.home → spansMeet p.2 e.2.spans = false) ∧
        (r.kind ≠ .c → ∀ b ∈ (t.clusterOf cl).cache, inSpans (pageSpans r.pins r.base r.len) b.1 = true →
          b.2.dirty = true ∨ (b.2.commons = true ∧ s.dirtyLine cl (lineOf b.1) = true)))) ∧
    (Rules.Taken s n 2 x → x.home ∈ r.early → givesUp (.grant n)) ∧
    (Rules.Taken s n 3 x → 1 < x.status → ∃ t, exec (.refuse n) s = .next t ∧ Rules.BorEnds s t x.req r x.status {} ∧
      ∀ p ∈ r.parts, p.1 ≠ x.home → s.homeAnswers p.1 = true → Rules.Slipped t 5 x.req p.1 (fun _ => True)) ∧
    (Rules.Taken s n 4 x →
      (x.home ∈ r.granted → givesUp (.recall n)) ∧
      (x.home ∉ r.granted → x.home ∈ r.owing → ∃ t, exec (.recall n) s = .next t ∧ t = { s with slips := t.slips, reqs := t.reqs } ∧
        tfind t.reqs x.req = some { r with early := r.early ++ [x.home] }))

/-- R188, R192, R197, R198, R203, R204, R208: what a home does with the slips of its holders, where no request waits there: an entry that is
given up is gone; one that is returned loses the part returned; a lowered one is shared, and a raised one exclusive where no other
party holds a part of it, with the taint there consumed (log 44); a relocated one names its holder's new cluster; and a held proxy serves no new
holder. -/
def Rules.HomesChange : Prop :=
  ∀ (s : State) (n : Nat) (x : Slip), (∀ e ∈ s.circ, ¬ (e.2.home = x.home ∧ e.2.st = .waiting)) → s.homeAnswers x.home = true →
    s.foreign x = false →
    let same (t : State) : Prop := t.mem = s.mem ∧ t.groups = s.groups ∧ t.teams = s.teams ∧ t.clusters = s.clusters ∧ t.reqs = s.reqs
    let its (e : Circ) : Prop := e.home = x.home ∧ e.handle = x.handle ∧ e.st ≠ .taint ∧ e.st ≠ .waiting
    let edits (t : State) (P : Circ → Prop) (f : Circ → Circ) : Prop :=
      ∀ k e, (k, e) ∈ t.circ ↔ ∃ e0, (k, e0) ∈ s.circ ∧ ((P e0 ∧ e = f e0) ∨ (¬ P e0 ∧ e = e0))
    let trims (t : State) (gone P : Circ → Prop) (f : Circ → Circ) : Prop :=
      ∀ k e, (k, e) ∈ t.circ ↔ e.spans ≠ [] ∧ ¬ gone e ∧ ∃ e0, (k, e0) ∈ s.circ ∧ ((P e0 ∧ e = f e0) ∨ (¬ P e0 ∧ e = e0))
    let acked (t : State) (st : Nat) : Prop := Rules.Slipped t 11 x.req x.home (fun y => y.status = st)
    let others : Prop := (∃ e ∈ s.circ, e.2.home = x.home ∧ e.2.st ≠ .taint ∧ e.2.handle ≠ x.handle ∧ spansMeet e.2.spans x.spans = true) ∨
      s.heldAbroad { s.req x.req with kind := .x } x.home x.spans = true
    let tainted (e : Circ) : Prop := e.st = .taint ∧ e.home = x.home ∧ spansMeet e.spans x.spans = true
    let moves := (s.req x.req).moves
    (Rules.Taken s n 5 x → x.flags / 4 % 2 = 0 → ∃ t, exec (.giveup n) s = .next t ∧ same t ∧
      ∀ e, e ∈ t.circ ↔ e ∈ s.circ ∧ ¬ (e.2.req = x.req ∧ e.2.home = x.home ∧ e.2.st ≠ .taint)) ∧
    (Rules.Taken s n 6 x → (s.req x.req).backs = [] → ∃ t, exec (.retSlip n) s = .next t ∧ same t ∧ acked t 0 ∧
      trims t (fun _ => False) its (fun e => { e with spans := spansWithout e.spans x.spans })) ∧
    (∀ (e : Circ) (loc : Nat), inSpans (spansWithout e.spans x.spans) loc = (inSpans e.spans loc && !inSpans x.spans loc)) ∧
    (Rules.Taken s n 6 x → (s.req x.req).backs ≠ [] → exec (.retSlip n) s = .next { s with
      slips := tput (tdel s.slips n) n x, agenda := s.agenda ++ [.retSlip n] }) ∧
    (Rules.Taken s n 7 x → ∃ t, exec (.down n) s = .next t ∧ same t ∧ acked t 0 ∧
      trims t (fun _ => False) its (fun e => { e with kind := .s })) ∧
    (Rules.Taken s n 8 x →
      (others → ∃ t, exec (.up n) s = .next t ∧ same t ∧ acked t 2 ∧ t.circ = s.circ) ∧
      (¬ others → ∃ t, exec (.up n) s = .next t ∧ same t ∧ trims t tainted its (fun e => { e with kind := .x }) ∧
        ((∃ e ∈ s.circ, tainted e.2) → acked t 1) ∧ ((∀ e ∈ s.circ, ¬ tainted e.2) → acked t 0))) ∧
    (Rules.Taken s n 9 x → ∃ t, exec (.reloc n) s = .next t ∧ same t ∧ acked t 0 ∧
      edits t (fun e => its e ∨ (e.home = x.home ∧ e.st ≠ .taint ∧ e.req = moves ∧ moves ≠ 0)) (fun e => { e with
        die := x.die, cluster := x.cluster
        proxy := e.kind == .s && s.proxyTakes (fun y => y.proxy && y.die == x.die) Config.dieProxyEntries e.home e.spans })) ∧
    (Rules.Taken s n 10 x → ∃ t, exec (.hold n) s = .next t ∧ same t ∧
      edits t (fun e => e.home = x.home ∧ ((e.proxy = true ∧ e.die = x.die) ∨ e.edge = true) ∧ e.spans = x.spans)
        (fun e => { e with hold := true }))

/-- R198, R203, R204, R206, R208: the last answer ends `bdown`, `bret` and `bup`: the register becomes S for every group, is given up, or
is X for the group where every home agreed, TAINTED where one of them consumed a taint, and otherwise S as before with status BUSY. A home
that agrees consumes its taint whatever the others answer (log 44). -/
def Rules.Answers : Prop :=
  ∀ (s : State) (n : Nat) (x : Slip) (r : Request), Rules.Taken s n 11 x → tfind s.reqs x.req = some r →
    s.hasGroup r.group = true → (s.teamOf r.team).st ≠ .absent →
    let reg : Region := tget {} (s.teamOf r.team).g r.reg
    let last : Prop := ∀ h ∈ r.owing, h = x.home
    let now (t : State) (y : Region) : Prop := tfind t.reqs x.req = none ∧ (∀ b ∈ (t.group r.group).busy, b.2 ≠ x.req) ∧
      tget {} (t.teamOf r.team).g r.reg = y ∧ t.mem = s.mem
    let lanes (t : State) (v : Nat) : Prop := ∀ l, r.lanes.getLsbD l = true → (t.group r.group).reg r.dst l = BitVec.ofNat 32 v
    (¬ last → ∃ t q, exec (.ack n) s = .next t ∧ t = { s with slips := t.slips, reqs := t.reqs } ∧ tfind t.reqs x.req = some q ∧
      q.owing = r.owing.filter (· ≠ x.home) ∧ (x.status ≤ 1 → x.home ∈ q.granted) ∧ (1 < x.status → q.ended = some x.status)) ∧
    (last → r.purpose = .down → ∃ t, exec (.ack n) s = .next t ∧ now t { reg with kind := .s, all := true, pend := false }) ∧
    (last → r.purpose = .ret → reg.handle = r.handle → ∃ t, exec (.ack n) s = .next t ∧ now t {}) ∧
    (last → r.purpose = .up →
      (x.status ≤ 1 → r.ended = none → ∃ t, exec (.ack n) s = .next t ∧
        now t { reg with kind := .x, holder := (s.group r.group).pos, all := false, pend := false } ∧
        lanes t (if r.taint = true ∨ x.status = 1 then 1 else 0)) ∧
      (1 < x.status ∨ r.ended ≠ none → ∃ t, exec (.ack n) s = .next t ∧ now t { reg with pend := false } ∧ lanes t 2))

/-- R9, R400 to R402: the end of a walk puts the pages found into the cluster's translation cache of 4,096 entries, keeps what was there
while there is room, and lets the fragment that waits for it go on. R391: one that began before a `tlbi` of its cluster puts nothing
there. A walk reads the tables as they stand when it ends (log 24). -/
def Rules.WalksEnd : Prop :=
  ∀ (s : State) (n k : Nat) (w : Walk), tfind s.walks n = some w → w.group = some k → s.hasGroup k = true →
    let cl := (s.teamOf (s.group k).team).cluster
    ∃ t v, exec (.tableWalkEnd n) s = .next t ∧ tfind t.walks n = some v ∧ v.done = true ∧ t.mem = s.mem ∧
      (t.group k).regs = (s.group k).regs ∧ (∀ j, j ≠ k → t.group j = s.group j) ∧
      (w.stale = true → (t.clusterOf cl).tlb = (s.clusterOf cl).tlb) ∧
      (w.stale = false → (s.clusterOf cl).tlb.length + v.found.length ≤ Config.tlbEntries → ∀ p ∈ (s.clusterOf cl).tlb ++ v.found, p ∈ (t.clusterOf cl).tlb) ∧
      (∀ p ∈ (t.clusterOf cl).tlb, p ∈ (s.clusterOf cl).tlb ∨ p ∈ v.found) ∧
      (w.stale = false → (t.clusterOf cl).tlb.length ≤ Config.tlbEntries) ∧
      (∀ p ∈ v.found, p ∈ (s.clusterOf cl).tlb ∨ ∃ va, s.walkPage w.ctx va = some p) ∧
      (v.fail = none ∨ ∃ va, v.fail = some va ∧ s.walkPage w.ctx va = none) ∧
      (∀ f ∈ (t.group k).cur :: (t.group k).rest, f.wait ≠ .walk n) ∧
      ∀ f ∈ (s.group k).cur :: (s.group k).rest, f.st ≠ .free → ∀ l, f.mask.getLsbD l = true → (t.group k).holds l f.place

/-- R200, R246, R259, R305: at the reach limit an access to another device is given up, and its group owes PEER_UNREACHABLE with detail
32, once the last pass of its instruction ends; a `bor` that another device has not answered ends UNREACHABLE, while one that waits there
goes on waiting (R187; log 53); a chunk of a reducing copy is sent again, and the second time its fault domain is killed, but one of an
ended copy is dropped. A reply that found no borrow at its device brings detail 33. -/
def Rules.ReachLimits : Prop :=
  ∀ (s : State) (n : Nat),
    (∀ x, tfind s.txns n = some x → x.src = none → x.copy = none → s.hasGroup x.group = true → (s.group x.group).live ≠ 0 →
      let ends (i : Instr) (P : State → Prop) : Prop := ∃ t, exec i s = .next t ∧ tfind t.txns n = none ∧
        ((∀ p ∈ x.lanes, p.ptype ≠ 1) → t.mem = s.mem) ∧
        (∀ b ∈ (t.group x.group).busy, b.2 ≠ n) ∧ (t.group x.group).cur = (s.group x.group).cur ∧
        (∀ j, j ≠ x.group → (t.group j).calm = (s.group j).calm) ∧ P t
      let other : Prop := x.remote = true ∧ ∃ u ∈ s.txns, u.1 ≠ n ∧ u.2.remote = true ∧ u.2.group = x.group ∧ u.2.first = x.first
      let owes (i : Instr) (d : Nat) : Prop :=
        (¬ other → ends i (fun t => ∃ e ∈ (t.group x.group).deferred, e.code = 0x18 ∧ e.detail ≤ d)) ∧
        (other → ends i (fun t => ∃ u ∈ t.txns, u.2.first = x.first ∧ u.2.group = x.group ∧ ∃ e, u.2.trap = some e ∧ e ≤ d))
      ((∃ p ∈ x.lanes, p.arrived = false) → (∀ p ∈ x.lanes, p.arrived = true ∨ (locDev p.loc).isSome = true) → owes (.reachLimit n) 32) ∧
      (x.noBorrow = true → x.lost = false → (∀ p ∈ x.lanes, p.going = false ∧ p.coming = false) →
        owes (if x.op = .store then .storeAck n else .loadReply n) 33)) ∧
    (∀ r, tfind s.txns n = none → tfind s.reqs n = some r → r.ended = none → r.owing ≠ [] → r.purpose = .bor →
      s.hasGroup r.group = true → (s.teamOf r.team).st = .resident →
      (s.unanswered n r = true → ∃ t, exec (.reachLimit n) s = .next t ∧ Rules.BorEnds s t n r 4 {}) ∧
      (s.unanswered n r = false → exec (.reachLimit n) s = .next s)) ∧
    ∀ k, tfind s.txns n = none → tfind s.reqs n = none → tfind s.chunks n = some k →
      let alive : Prop := ∃ c, tfind s.copies k.copy = some c ∧ c.killed = false
      (¬ alive → exec (.reachLimit n) s = .next { s with chunks := tdel s.chunks n }) ∧
      (alive → k.abandoned = false → exec (.reachLimit n) s = .next { s with
        chunks := tput s.chunks n { k with issued := s.cycle, abandoned := true }, agenda := s.agenda ++ [.chunkResend n] }) ∧
      (alive → k.abandoned = true → exec (.reachLimit n) s = .next ({ s with chunks := tdel s.chunks n }.beginKill
        { ctx := (s.teamOf k.team).ctx, whole := false, fdom := (s.launchOf (s.teamOf k.team).launch).lcb.fdom, cause := 4 }))
/-! ### Barriers and copies -/

/-- R308, R309, R311, R312: barrier registers. `winit` starts one, `wexp` and `warr` add expected bytes and an arrival, which may
complete the phase; `wwait` waits until the phase has moved on from the group's target, its checks made once, and `wtest` tells whether it has.
The checks of a barrier are made where T is empty too (log 28). -/
def Rules.Barriers : Prop :=
  ∀ (s : State) (d a b : BitVec 6),
    let n := d.toNat
    let w : Barrier := tget {} s.team.w n
    let l := lowest s.lanesT
    let va := (s.source a.toNat l).toNat
    let vb := (s.source b.toNat l).toNat
    let settled (x : Barrier) : Barrier :=
      if x.arrm = x.expm ∧ x.bal = 0 then { x with phase := (x.phase + 1) % 2 ^ 16, arrm := 0, bal := 0 } else x
    let off (i : Instr) : Prop := s.lanesT = 0 → ∃ t, exec i s = .next t ∧ Passes s t []
    let becomes (i : Instr) (x : Barrier) (target : Option Nat) : Prop := ∃ t, exec i s = .next t ∧
      Passes ((s.setTeam { s.team with w := t.team.w }).setGrp { s.grp with wt := t.grp.wt }) t [] ∧
      (∀ k, tget {} t.team.w k = if k = n then x else tget {} s.team.w k) ∧
      ∀ k, tget none t.grp.wt k = if k = n then target else tget none s.grp.wt k
    let busy : Prop := w.arrm ≠ 0 ∨ w.bal ≠ 0 ∨ ∃ c ∈ s.copies, c.2.team = s.grp.team ∧ c.2.bs = true ∧ c.2.bar = n
    let old := tget none s.grp.wt n
    (Ready s [a.toNat, b.toNat, 160 + n] [160 + n] → off (.winit d a b) ∧ (s.lanesT ≠ 0 →
      (w.err = false → busy → exec (.winit d a b) s = .next (s.trap 0x28 1)) ∧
      (w.err = true ∨ ¬ busy → va = 0 ∨ 4095 < va → exec (.winit d a b) s = .next (s.trap 0x28 2)) ∧
      (w.err = true ∨ ¬ busy → va ≠ 0 → va ≤ 4095 →
        becomes (.winit d a b) { w with expm := va, arrm := 0, bal := vb, init := true, err := false } old))) ∧
    (Ready s [a.toNat, 160 + n] [160 + n] → off (.wexp d a) ∧ (s.lanesT ≠ 0 →
      if w.init = false then exec (.wexp d a) s = .next (s.trap 0x28 3)
      else if w.err = true then exec (.wexp d a) s = .next (s.trap 0x28 6)
      else if (2 ^ 39 : Int) - 1 < w.bal + va then exec (.wexp d a) s = .next (s.trap 0x28 5)
      else becomes (.wexp d a) (settled { w with bal := w.bal + va }) old)) ∧
    (Ready s [160 + n] [160 + n] → off (.warr d) ∧ (s.lanesT ≠ 0 →
      ((∃ c, c < 4 ∧ s.inFlight c ≠ 0) → exec (.warr d) s = .next (s.stand (.barrier n))) ∧
      ((∀ c, c < 4 → s.inFlight c = 0) →
        if w.init = false then exec (.warr d) s = .next (s.trap 0x28 3)
        else if w.err = true then exec (.warr d) s = .next (s.trap 0x28 6)
        else if w.arrm = w.expm then exec (.warr d) s = .next (s.trap 0x28 4)
        else becomes (.warr d) (settled { w with arrm := w.arrm + 1 }) (some w.phase)))) ∧
    (Ready s [160 + n] [160 + n] → off (.wwait d) ∧ (s.lanesT ≠ 0 →
      if w.init = false ∧ s.grp.cur.wait ≠ .barrier n then exec (.wwait d) s = .next (s.trap 0x28 3)
      else if w.err = true ∧ s.grp.cur.wait ≠ .barrier n then exec (.wwait d) s = .next (s.trap 0x28 6)
      else (w.phase ≠ old.getD w.phase → becomes (.wwait d) w none) ∧
        (w.phase = old.getD w.phase → ∃ t, exec (.wwait d) s = .next t ∧
          t.grp.cur = { s.grp.cur with wait := if s.goesOn = true then s.grp.cur.wait else .barrier n } ∧
          tget none t.grp.wt n = some w.phase ∧ t.grp.regs = s.grp.regs ∧ t.mem = s.mem ∧ t.teams = s.teams))) ∧
    (Ready s [160 + n] [64 + a.toNat] →
      if w.init = false then exec (.wtest a d) s = .next (s.trap 0x28 3)
      else if w.err = true then exec (.wtest a d) s = .next (s.trap 0x28 6)
      else Predwise s (.wtest a d) a.toNat (fun _ => ((match old with | some x => decide (x ≠ w.phase) | none => false), [])))

/-- An operand of a transfer serves n bytes at an offset: a region register (a code below 32) that allows it and holds them, or the local
window (32) or the cluster window (33) around them (R184, R297). -/
def Rules.operandServes (s : State) (code : Nat) (write : Bool) (o n : Nat) : Prop :=
  (code < 32 → (s.region code).Serves s.grp.pos write false ∧ o + n ≤ (s.region code).len) ∧
    (code = 32 → Rules.inWindow s true o n) ∧ (code = 33 → Rules.inWindow s false o n)

/-- R184: what a region operand of a transfer fails at before its bounds; a window operand fails at nothing there. -/
def Rules.operandTrap (s : State) (code : Nat) (write : Bool) : Option (Nat × Nat) :=
  let r := s.region code
  if 32 ≤ code then none
  else if r.kind = .empty ∨ r.pend = true then some (0x11, 0)
  else if r.all = false ∧ r.holder ≠ s.grp.pos then some (0x12, 0)
  else if write = true ∧ r.kind = .s then some (0x11, 1)
  else none

/-- n bytes at an offset leave a region operand, or a window operand (R184, R297). -/
def Rules.leavesRegion (s : State) (code o n : Nat) : Prop := code < 32 ∧ (s.region code).len < o + n
def Rules.leavesWindow (s : State) (code o n : Nat) : Prop :=
  (code = 32 ∧ ¬ Rules.inWindow s true o n) ∨ (code = 33 ∧ ¬ Rules.inWindow s false o n)

/-- The issuing group has entered a transfer: it stands in the copy table, on the counter, and its bytes are marked (R293, R298). -/
def Rules.Transferring (s t : State) (c : Copy) (reads writes : List (Nat × Nat)) : Prop :=
  tget 0 t.grp.count 4 = tget 0 s.grp.count 4 + 1 ∧ t.grp.regs = s.grp.regs ∧ t.grp.preds = s.grp.preds ∧
    t.grp.cur = { s.grp.cur with pc := s.grp.cur.pc + 4, wait := .none } ∧ (∀ j, j ≠ s.cur → t.group j = s.group j) ∧
    (∀ x ∈ reads, ∃ f ∈ t.grp.foot, f.copy = s.nextId ∧ f.base = x.1 ∧ f.len = x.2 ∧ f.writes = false) ∧
    (∀ x ∈ writes, ∃ f ∈ t.grp.foot, f.copy = s.nextId ∧ f.base = x.1 ∧ f.len = x.2 ∧ f.writes = true) ∧
    ∃ y, tfind t.copies s.nextId = some y ∧ { y with sent := 0, got := [] } = c

/-- R294 to R299: `cpl`. A fragment that lacks a live lane traps; so do a bad descriptor, a bad control word, a barrier that is not
initialised, and operands that do not serve every lane: an operand's register first (R184), the source's before the destination's, then the
lowest lane whose bytes leave a region, then the lowest whose bytes leave a window; otherwise the copy of each lane's bytes is entered. -/
def Rules.LaneCopies : Prop :=
  ∀ (s : State) (d a b : BitVec 6), Ready s (operandCodes d.toNat ++ operandCodes a.toNat ++ quadRegs b.toNat) [] →
    let i := Instr.cpl d a b
    let w (j l : Nat) : Nat := (s.source (b.toNat + j) l).toNat
    let n (l : Nat) : Nat := 2 ^ (w 3 l / 2 ^ 8 % 16)
    let so (l : Nat) : Nat := w 0 l + w 1 l % 2 ^ 8 * 2 ^ 32
    let d_o (l : Nat) : Nat := w 2 l + w 3 l % 2 ^ 8 * 2 ^ 32
    let on (l : Nat) : Prop := s.lanesT.getLsbD l = true
    let bad (l : Nat) : Prop := on l ∧ (w 1 l / 2 ^ 8 ≠ 0 ∨ w 3 l / 2 ^ 12 % 16 ≠ 0 ∨ 4 < w 3 l / 2 ^ 8 % 16 ∨ so l % n l ≠ 0 ∨ d_o l % n l ≠ 0)
    let ctl := w 3 (lowest s.lanesT)
    let badCtl : Prop := (ctl / 2 ^ 30 % 4 = 1) ∨ ctl / 2 ^ 28 % 4 ≠ 0 ∨ ctl / 2 ^ 16 % 16 ≠ 0 ∨ ctl / 2 ^ 20 % 16 ≠ 0
    let ls := lanesOf s.lanesT
    let ps := ls.flatMap (fun l => s.movePieces l a.toNat (so l) d.toNat (d_o l) [(0, n l)])
    let reads := ls.map (fun l => (s.operandAddr a.toNat (so l), n l))
    let writes := ls.map (fun l => (s.operandAddr d.toNat (d_o l), n l))
    let c := { s.copyOf .cpl a.toNat d.toNat (ctrlOf ctl) with
      pieces := ps, ranges := ls.map (fun l => (l, s.operandAddr a.toNat (so l), n l)), bytes := (ls.map n).sum,
      strong := ps.any (fun p => p.stype == 3 || p.dtype == 3) }
    (s.fullyOn = false → exec i s = .next (s.trap 4 0)) ∧
    (s.fullyOn = true → s.lanesT = 0 → ∃ t, exec i s = .next t ∧ Passes s t []) ∧
    (s.fullyOn = true → s.lanesT ≠ 0 →
      (∀ l, bad l → (∀ j, j < l → ¬ bad j) → exec i s = .next (s.trap 0x10 (160 + l))) ∧
      ((∀ l, ¬ bad l) → badCtl → exec i s = .next (s.trap 0x10 192)) ∧
      ((∀ l, ¬ bad l) → ¬ badCtl → ctl / 2 ^ 31 = 1 → (tget ({} : Barrier) s.team.w (ctl / 2 ^ 24 % 16)).init = false →
        exec i s = .next (s.trap 0x28 3)) ∧
      ((∀ l, ¬ bad l) → ¬ badCtl → (ctl / 2 ^ 31 = 1 → (tget ({} : Barrier) s.team.w (ctl / 2 ^ 24 % 16)).init = true) →
        let ofSource := Rules.operandTrap s a.toNat false
        let ofTarget := Rules.operandTrap s d.toNat true
        let left (l : Nat) : Prop := on l ∧ (Rules.leavesRegion s a.toNat (so l) (n l) ∨ Rules.leavesRegion s d.toNat (d_o l) (n l))
        let beyond (l : Nat) : Prop := on l ∧ (Rules.leavesWindow s a.toNat (so l) (n l) ∨ Rules.leavesWindow s d.toNat (d_o l) (n l))
        let window (code : Nat) : Nat := if code = 32 then 64 else 96
        (∀ x, ofSource = some x → exec i s = .next (s.trap x.1 x.2)) ∧
        (∀ x, ofSource = none → ofTarget = some x → exec i s = .next (s.trap x.1 x.2)) ∧
        (ofSource = none → ofTarget = none →
          (∀ l, left l → (∀ j, j < l → ¬ left j) → exec i s = .next (s.trap 0x10 l)) ∧
          ((∀ l, ¬ left l) → ∀ l, beyond l → (∀ j, j < l → ¬ beyond j) →
            (Rules.leavesWindow s a.toNat (so l) (n l) → exec i s = .next (s.trap 0x10 (window a.toNat + l))) ∧
            (¬ Rules.leavesWindow s a.toNat (so l) (n l) → exec i s = .next (s.trap 0x10 (window d.toNat + l))))) ∧
        ((∀ l, on l → Rules.operandServes s a.toNat false (so l) (n l) ∧ Rules.operandServes s d.toNat true (d_o l) (n l)) →
        (s.transferHeld c reads writes = true → exec i s = .next s.stand) ∧
        (s.transferHeld c reads writes = false → ∃ t, exec i s = .next t ∧ Rules.Transferring s t c reads writes ∧ t.mem = s.mem ∧
          t.clusters = s.clusters ∧ .copyComplete s.nextId ∈ t.agenda))))

/-- R294 to R298, R300, R302: `cpb` and `cpr`, the bulk copies of the lowest lane's descriptor: their checks, with an operand's register
first (R184), the source's before the destination's, then regions and windows, the source before the destination; and the entry of the copy.
A reducing copy takes up its first chunk at once, and where its source is a window, the chunk carries its bytes at once. -/
def Rules.BulkCopies : Prop :=
  ∀ (s : State) (d a b : BitVec 6), Ready s (operandCodes d.toNat ++ operandCodes a.toNat ++ quadRegs b.toNat) [] →
    ∀ f ∈ ([(.cpb d a b, .cpb, .store, []), (.cprAdd d a b, .cpr, .add, List.range 8), (.cprMin d a b, .cpr, .min, List.range 8),
        (.cprMax d a b, .cpr, .max, List.range 8), (.cprFadd d a b, .cpr, .fadd, [8, 9, 10])] :
        List (Instr × CopyKind × AccOp × List Nat)),
    let i := f.1
    let l := lowest s.lanesT
    let w (j : Nat) : Nat := (s.source (b.toNat + j) l).toNat
    let so := w 0 + w 1 % 2 ^ 8 * 2 ^ 32
    let d_o := w 2 + w 3 % 2 ^ 8 * 2 ^ 32
    let len := w 1 / 2 ^ 8 * 16
    let et := w 3 / 2 ^ 20 % 16
    let bad : Prop := w 3 / 2 ^ 8 % 256 ≠ 0 ∨ len = 0 ∨ so % 16 ≠ 0 ∨ d_o % 16 ≠ 0 ∨ w 3 / 2 ^ 30 % 4 = 1 ∨ w 3 / 2 ^ 28 % 4 ≠ 0 ∨
      w 3 / 2 ^ 16 % 16 ≠ 0 ∨ (f.2.1 = .cpb ∧ et ≠ 0)
    let ps := s.movePieces l a.toNat so d.toNat d_o ((List.range (len / 16)).map (fun j => (16 * j, 16)))
    let reads := [(s.operandAddr a.toNat so, len)]
    let writes := [(s.operandAddr d.toNat d_o, len)]
    let c := { s.copyOf f.2.1 a.toNat d.toNat (ctrlOf (w 3)) with
      op := f.2.2.1, pieces := ps, ranges := if f.2.1 = .cpb then [(l, s.operandAddr a.toNat so, len)] else [], bytes := len,
      strong := ps.any (fun p => p.stype == 3 || p.dtype == 3) }
    let sound : Prop := ¬ bad ∧ (f.2.1 = .cpr → et ∈ f.2.2.2)
    (s.fullyOn = false → exec i s = .next (s.trap 4 0)) ∧
    (s.fullyOn = true → s.lanesT = 0 → ∃ t, exec i s = .next t ∧ Passes s t []) ∧
    (s.fullyOn = true → s.lanesT ≠ 0 →
      (bad → exec i s = .next (s.trap 0x10 192)) ∧ (¬ bad → f.2.1 = .cpr → et ∉ f.2.2.2 → exec i s = .next (s.trap 2 3)) ∧
      (sound → w 3 / 2 ^ 31 = 1 → (tget ({} : Barrier) s.team.w (w 3 / 2 ^ 24 % 16)).init = false → exec i s = .next (s.trap 0x28 3)) ∧
      (sound → (w 3 / 2 ^ 31 = 1 → (tget ({} : Barrier) s.team.w (w 3 / 2 ^ 24 % 16)).init = true) →
        let ofSource := Rules.operandTrap s a.toNat false
        let ofTarget := Rules.operandTrap s d.toNat true
        let window (code : Nat) : Nat := if code = 32 then 64 else 96
        let left : Prop := Rules.leavesRegion s a.toNat so len ∨ Rules.leavesRegion s d.toNat d_o len
        (∀ x, ofSource = some x → exec i s = .next (s.trap x.1 x.2)) ∧
        (∀ x, ofSource = none → ofTarget = some x → exec i s = .next (s.trap x.1 x.2)) ∧
        (ofSource = none → ofTarget = none →
          (left → exec i s = .next (s.trap 0x10 l)) ∧
          (¬ left → Rules.leavesWindow s a.toNat so len → exec i s = .next (s.trap 0x10 (window a.toNat + l))) ∧
          (¬ left → ¬ Rules.leavesWindow s a.toNat so len → Rules.leavesWindow s d.toNat d_o len →
            exec i s = .next (s.trap 0x10 (window d.toNat + l)))) ∧
        (Rules.operandServes s a.toNat false so len → Rules.operandServes s d.toNat true d_o len →
        (s.transferHeld c reads writes = true → exec i s = .next s.stand) ∧
        (s.transferHeld c reads writes = false → ∃ t, exec i s = .next t ∧ Rules.Transferring s t c reads writes ∧
          (f.2.1 = .cpb → t.mem = s.mem ∧ t.clusters = s.clusters ∧ .copyComplete s.nextId ∈ t.agenda) ∧
          (f.2.1 = .cpr → ∃ m k, tfind t.chunks m = some k ∧ k.copy = s.nextId ∧ k.tag = 0 ∧ k.home = s.homeOf (ps.headD {}).dloc ∧
            (32 ≤ a.toNat → (∀ p ∈ ps, s.bytesBad (aperture p.src == .local_) s.grp.team
                (p.src - if aperture p.src = .local_ then localBase else clusterBase) p.n = false) →
              some (k.work.map (fun x => x.1)) = (chunkLists ps).head?))))))

/-- R306: a transfer has completed: its entry is free, its group's counter falls and its footprint is lifted, its barrier is signalled; where
the reach limit has passed for a part of it, its group owes PEER_UNREACHABLE. -/
def Rules.CopyEnds (s t : State) (x : Nat) (c : Copy) : Prop :=
  let w : Barrier := tget {} (s.teamOf c.team).w c.bar
  let settled (y : Barrier) : Barrier :=
    if y.arrm = y.expm ∧ y.bal = 0 then { y with phase := (y.phase + 1) % 2 ^ 16, arrm := 0, bal := 0 } else y
  tfind t.copies x = none ∧ tget 0 (t.group c.group).count 4 = tget 0 (s.group c.group).count 4 - 1 ∧
    (∀ f ∈ (t.group c.group).foot, f.copy ≠ x) ∧ (t.group c.group).cur = (s.group c.group).cur ∧
    (t.group c.group).preds = (s.group c.group).preds ∧
    ((s.teamOf c.team).st ≠ .absent → tget {} (t.teamOf c.team).w c.bar =
      if c.bs = false then w
      else if c.ma = true ∧ w.arrm = w.expm then { w with err := true }
      else settled { w with bal := w.bal - c.bytes, arrm := if c.ma = true then w.arrm + 1 else w.arrm }) ∧
    (c.lost = true → (s.group c.group).live ≠ 0 → ∃ e ∈ (t.group c.group).deferred, e.code = 0x18 ∧ e.detail ≤ 32)

/-- R301, R306, R312: `cpl` and `cpb` move their bytes by accesses, which the rules of accesses serve. A copy asks for the sources that it reads
through a region register; with every source read it writes its destination, in a window at once, otherwise by an access with the bytes read;
with that done it completes. An access of a transfer that has its answer gives what it read to the transfer, which goes on. Poisoned words
of a window are not read: issue from the copy's domain stops (R417). When a copy goes on is the model's choice (log 41). -/
def Rules.CopiesComplete : Prop :=
  ∀ (s : State) (x : Nat) (c : Copy), tfind s.copies x = some c → c.killed = false → s.hasGroup c.group = true →
    let go := Instr.copyComplete x
    let busy : Prop := ∃ u ∈ s.txns, u.2.copy = some x
    let value (p : Piece) : Option Nat := match aperture p.src with
      | .local_ => some (s.windowLe true c.team (p.src - localBase) p.n)
      | .cluster => some (s.windowLe false c.team (p.src - clusterBase) p.n)
      | _ => tfind c.got (32 * p.dst + p.lane)
    let bad (p : Piece) : Prop := (aperture p.src = .local_ ∧ s.bytesBad true c.team (p.src - localBase) p.n = true) ∨
      (aperture p.src = .cluster ∧ s.bytesBad false c.team (p.src - clusterBase) p.n = true)
    let read : Prop := ∀ p ∈ c.pieces, (value p).isSome = true
    let alone (p : Piece) : Prop := ∀ r ∈ c.ranges, c.kind = .cpb ∨ r.1 ≠ p.lane → p.dst + p.n ≤ r.2.1 ∨ r.2.1 + r.2.2 ≤ p.dst
    let cached (loc : Nat) : Prop := ∃ a ∈ (s.clusterOf c.cluster).cache, lineOf a.1 = lineOf loc
    (c.kind = .cpl ∨ c.kind = .cpb →
      (c.asked = true → busy → exec go s = .next s) ∧
      (c.asked = true → ¬ busy → c.writing = true → ∃ t, exec go s = .next t ∧ Rules.CopyEnds s t x c ∧ t.mem = s.mem) ∧
      (c.asked = false → ¬ busy → c.src < 32 → c.got = [] → c.pieces ≠ [] →
        (∀ p ∈ c.pieces, aperture p.src ≠ .local_ ∧ aperture p.src ≠ .cluster ∧ p.n ≠ 0 ∧ ¬ cached p.sloc) →
        ∃ t n u, exec go s = .next t ∧ tfind t.copies x = some { c with asked := true } ∧ t.groups = s.groups ∧ t.mem = s.mem ∧
          tfind t.txns n = some u ∧ u.copy = some x ∧ u.op = .load ∧
          u.lanes.map (fun p => (p.lane, p.loc, p.n)) = c.pieces.map (fun p => (32 * p.dst + p.lane, p.sloc, p.n))) ∧
      (read → ¬ busy → c.writing = false →
        ((∃ p ∈ c.pieces, bad p) → c.asked = true → exec go s = .next (s.stopDomain ((s.teamOf c.team).ctx, c.fdom))) ∧
        ((∀ p ∈ c.pieces, ¬ bad p) →
          (32 ≤ c.dst → ∃ t, exec go s = .next t ∧ Rules.CopyEnds s t x c ∧
            ∀ p v, c.pieces = [p] → value p = some v → alone p → match aperture p.dst with
              | .local_ => t.windowLe true c.team (p.dst - localBase) p.n = v % 256 ^ p.n ∧ t.mem = s.mem ∧ t.clusters = s.clusters
              | .cluster => (∀ j, j < p.n → (p.dst - clusterBase + j) / 0x4000 < (s.teamOf c.team).banks.length) →
                t.windowLe false c.team (p.dst - clusterBase) p.n = v % 256 ^ p.n ∧ t.mem = s.mem ∧ t.clusters = s.clusters
              | _ => True) ∧
          (c.dst < 32 → ∀ p v, c.pieces = [p] → value p = some v → alone p → p.n ≠ 0 →
            (¬ cached p.dloc → ∃ t n u q, exec go s = .next t ∧ tfind t.copies x = some { c with asked := true, writing := true } ∧
              tfind t.txns n = some u ∧ u.copy = some x ∧ u.op = .store ∧ u.lanes = [q] ∧ q.loc = p.dloc ∧ q.n = p.n ∧
              q.a = v % 256 ^ p.n ∧ (t.group c.group).regs = (s.group c.group).regs) ∧
            (cached p.dloc → p.dtype = 0 → lineOf p.dloc ∉ s.poison → ∃ t, exec go s = .next t ∧
              (tfind t.copies x = none → Rules.CopyEnds s t x c ∧ t.seenLe c.cluster p.dloc p.n = v % 256 ^ p.n ∧
                ∀ loc, ¬ (p.dloc ≤ loc ∧ loc < p.dloc + p.n) → t.seenByte c.cluster loc = s.seenByte c.cluster loc)))))) ∧
    ∀ n u, tfind s.txns n = some u → u.copy = some x → u.src = none →
      u.lost = true ∨ (u.noBorrow = false ∧ ∀ p ∈ u.lanes, p.arrived = true) →
      ∃ t y, exec (if u.op = .store then .storeAck n else .loadReply n) s = .next t ∧ tfind t.txns n = none ∧ .copyComplete x ∈ t.agenda ∧
        t.mem = s.mem ∧ t.groups = s.groups ∧ tfind t.copies x = some y ∧ y = { c with got := y.got, lost := c.lost || u.lost } ∧
        (u.op ≠ .load → y.got = c.got) ∧
        (u.op = .load → ∀ p ∈ u.lanes, ∀ v, p.result = some v → (∀ q ∈ u.lanes, q.lane = p.lane → q.result = some v) →
          tfind y.got p.lane = some v)

/-- R294, R303 to R306: chunks of a reducing copy. One that was applied before is acknowledged and not applied again; one for which its
home has no record place is refused and sent again; otherwise it is applied element by element and acknowledged; the answers travel
as the chunk did. Under C it waits for its turn at its line, as an access does (R262, R271, R272). A chunk that has not left asks for its sources
again, one that has is sent again under its tag, with the LOW of the moment, and none of a killed copy is sent. The last
acknowledgement completes the copy; one for a copy that is gone is counted as dropped; and a home closes the stream's record. -/
def Rules.ReducingChunks : Prop :=
  ∀ (s : State) (n : Nat) (k : Chunk), tfind s.chunks n = some k →
    let key := 4096 * k.copy + k.home
    let old := tfind s.streams key
    let rec_ : Stream := old.getD { base := k.low }
    let slid : Stream := if rec_.base < k.low then { base := k.low, map := rec_.map >>> (k.low - rec_.base) } else rec_
    let seen : Prop := k.tag < slid.base ∨ slid.map.getLsbD (k.tag - slid.base) = true
    let limit := if s.oldestRefused n k = true ∧ k.refused = true then Config.dedupRecords else Config.dedupRecords - 1
    let full : Prop := old = none ∧ limit ≤ s.streamsAt k.home
    let gone : Prop := ∀ c, tfind s.copies k.copy = some c → c.killed = true
    let dropped (i : Instr) : Prop := ∃ t, exec i s = .next t ∧ tfind t.chunks n = none ∧ t.mem = s.mem ∧ t.groups = s.groups ∧
      (t.clusterOf k.cluster).dropped = (s.clusterOf k.cluster).dropped + 1
    (tfind s.copies k.copy = none → exec (.chunk n) s = .next (s.sendChunk n k true (.chunkAck n))) ∧
    (∀ c, tfind s.copies k.copy = some c →
      (full → exec (.chunk n) s = .next
        ({ s with chunks := tput s.chunks n { k with refused := true } }.sendChunk n k true (.chunkRetry n))) ∧
      (¬ full → seen → exec (.chunk n) s = .next ({ s with streams := tput s.streams key slid }.sendChunk n k true (.chunkAck n))) ∧
      let line := lineOf (k.work.headD ({}, 0)).1.dloc
      let page := pageKey (k.work.headD ({}, 0)).1.dloc
      let l := s.cat line
      let turn : Prop := l.fwd = some n ∨ (l.fwd = none ∧ (l.queue = [] ∨ s.headOf l = some n))
      let free_ : Prop := c.dstKind ≠ .c ∨ ((tfind s.catalogue line).isSome = true ∧ l.busy = false ∧ turn ∧ l.st ≠ .ow ∧
        s.pageRecalled (k.work.headD ({}, 0)).1.dloc = false ∧ (s.cat page).st ≠ .po ∧ (s.cat page).st ≠ .ps)
      let stays (t : State) : Prop := t.mem = s.mem ∧ t.streams = s.streams ∧ t.groups = s.groups ∧ tfind t.chunks n = some k
      let told (t : State) (kind : CMsgKind) : Prop := ∃ id m, tfind t.cmsgs id = some m ∧ m.kind = kind ∧ m.line = line ∧ m.txn = n
      (¬ full → ¬ seen → c.dstKind = .c → (tfind s.catalogue line).isSome = true → l.busy = true → n ∉ l.queue →
        ∃ t, exec (.chunk n) s = .next t ∧ stays t ∧
          (l.queue.length < 8 → (t.cat line).queue = l.queue ++ [n]) ∧ (8 ≤ l.queue.length → told t .resend)) ∧
      (¬ full → ¬ seen → c.dstKind = .c → (tfind s.catalogue line).isSome = true → l.busy = false → turn → l.st = .ow →
        ∃ t, exec (.chunk n) s = .next t ∧ stays t ∧ (told t .forward ∨ told t .resend ∨ (l.owner = 2 ^ 40))) ∧
      (¬ full → ¬ seen → free_ → ∃ t, ∃ u : State, exec (.chunk n) s = .next t ∧
        t = (u.sendChunk n k true (.chunkAck n)).leaveQueue line n ∧ t.groups = s.groups ∧
        (k.tag - slid.base < 64 → ∃ r, tfind t.streams key = some r ∧ r.map.getLsbD (k.tag - r.base) = true) ∧
        ∀ p v, k.work = [(p, v)] →
          let h := if c.dstKind ≠ .c ∧ p.dtype = 1 then s.drainLine c.cluster (lineOf p.dloc) else s
          (∀ loc, ¬ (p.dloc ≤ loc ∧ loc < p.dloc + p.n) → t.homeByte loc = h.homeByte loc) ∧
          (c.op ≠ .fadd → let ty := intTy c.et false
            ∀ e, ty.w * (e + 1) ≤ 8 * p.n → (8 * p.n) % ty.w = 0 →
              let x := ty.value (ty.raw (h.homeLe p.dloc p.n) e)
              let y := ty.value (ty.raw v e)
              ty.raw (t.homeLe p.dloc p.n) e = wrap ty.w (match c.op with | .min => min x y | .max => max x y | _ => x + y)))) ∧
    (∀ c, tfind s.copies k.copy = some c → c.killed = false →
      let acked := if k.tag ∈ c.acked then c.acked else c.acked ++ [k.tag]
      (acked.length = (chunkLists c.pieces).length → ∃ t, exec (.chunkAck n) s = .next t ∧ tfind t.chunks n = none ∧
        t.mem = s.mem ∧ .copyComplete k.copy ∈ t.agenda)) ∧
    (gone → dropped (.chunkAck n) ∧ dropped (.chunkRetry n) ∧ exec (.chunkResend n) s = .next s) ∧
    (∀ c, tfind s.copies k.copy = some c → c.killed = false →
      let k1 := { k with low := c.low }
      let again (s : State) : State := { s with chunks := tput s.chunks n k1 }.sendChunk n k1 false (.chunk n)
      (k.refused = true → exec (.chunkRetry n) s = .next (again s)) ∧
      (∀ id m, tfind s.cmsgs id = some m → m.kind = .resend → m.txn = n →
        exec (.commonsResend id) s = .next (again { s with cmsgs := tdel s.cmsgs id })) ∧
      (s.unsent n = true → ∃ t k', exec (.chunkResend n) s = .next t ∧ tfind t.chunks n = some k' ∧ k'.tag = k.tag ∧
        k'.resent = k.resent ∧ (k'.work ≠ [] → some (k'.work.map (fun x => x.1)) = (chunkLists c.pieces)[k.tag]?) ∧
        (k'.work = [] → ∀ j ∈ t.net.packets, ¬ (j.2.waiting = true ∧ j.2.event = some (.chunk n)))) ∧
      (s.unsent n = false → let k' := { k with low := c.low, resent := k.resent + 1, issued := s.cycle }
        exec (.chunkResend n) s = .next ({ s with chunks := tput s.chunks n k' }.sendChunk n k' false (.chunk n)))) ∧
    ∀ home st, ∃ t, exec (.close home st) s = .next t ∧ t = { s with streams := t.streams } ∧
      tfind t.streams (4096 * st + home) = none ∧ ∀ j, j ≠ 4096 * st + home → tfind t.streams j = tfind s.streams j

/-! ### Matrix instructions -/

/-- R335, R343 to R345: the first checks of a matrix instruction, and claiming, releasing and shaping an operand slot of the group's
core. What a slot holds after `mclaim` and `mshape` is free: its image lists nothing, and its seed names the free values (log 2). -/
def Rules.OperandSlots : Prop :=
  ∀ (s : State) (d a : BitVec 6),
    let key := 8 * s.grp.core + d.toNat
    let o : OpSlot := tget {} s.cluster.slots key
    let engaged : Prop := o.busy = true ∨ o.readers ≠ 0
    let r := (s.source a.toNat (lowest s.lanesT)).toNat
    let first (i : Instr) : Prop :=
      (s.fullyOn = false → exec i s = .next (s.trap 4 0)) ∧
      (s.fullyOn = true → s.team.matrix = false → exec i s = .next (s.trap 6 0)) ∧
      (s.fullyOn = true → s.team.matrix = true → s.lanesT = 0 → ∃ t, exec i s = .next t ∧ Passes s t [])
    let goes : Prop := s.fullyOn = true ∧ s.team.matrix = true ∧ s.lanesT ≠ 0
    let leaves (i : Instr) (x : OpSlot) : Prop := ∃ t, exec i s = .next t ∧
      Passes (s.setCluster { s.cluster with slots := t.cluster.slots }) t [] ∧
      ∀ n, tget {} t.cluster.slots n = if n = key then x else tget {} s.cluster.slots n
    (Ready s [] [] →
      first (.mclaim d) ∧ first (.mrel d) ∧
      (goes → o.st ≠ .free → exec (.mclaim d) s = .next (s.trap 6 1)) ∧
      (goes → o.st = .free → leaves (.mclaim d) { o with st := .claimed, seed := s.free }) ∧
      (goes → engaged → exec (.mrel d) s = .next s.stand) ∧
      (goes → ¬ engaged → o.st = .free → exec (.mrel d) s = .next (s.trap 6 2)) ∧
      (goes → ¬ engaged → o.st ≠ .free → leaves (.mrel d) {})) ∧
    (Ready s [a.toNat] [] →
      first (.mshape d a) ∧ (goes → engaged → exec (.mshape d a) s = .next s.stand) ∧
      (goes → ¬ engaged →
        if o.st = .free then exec (.mshape d a) s = .next (s.trap 6 2)
        else if 1 < r / 2 ^ 30 ∨ r / 2 ^ 27 % 8 = 7 ∨ r / 2 ^ 12 % 2 ^ 14 ≠ 0 ∨ r / 2 ^ 4 % 16 ≠ 0 then
          exec (.mshape d a) s = .next (s.trap 5 1)
        else if r / 2 ^ 26 % 2 = 1 ∧ (r / 2 ^ 27 % 8 < 2 ∨ r % 2 = 0) then exec (.mshape d a) s = .next (s.trap 5 2)
        else if 2048 < (r / 2 ^ 8 % 16 + 1) * lineSize r then exec (.mshape d a) s = .next (s.trap 5 3)
        else leaves (.mshape d a) { o with st := .shaped, shape := s.source a.toNat (lowest s.lanesT), image := [], seed := s.free }))

/-- R346 to R348: `mld` and `mst`: the checks of their descriptors, and the entry of the transfer; an `mld` empties its slot and keeps
it engaged, and an `mst` asks the engine for a snapshot of its accumulator. -/
def Rules.MatrixTransfers : Prop :=
  ∀ (s : State) (d a b : BitVec 6), s.fullyOn = true → s.team.matrix = true → s.lanesT ≠ 0 →
    let l := lowest s.lanesT
    let w (j : Nat) : Nat := (s.source (b.toNat + j) l).toNat
    let so := w 0 + w 1 % 2 ^ 8 * 2 ^ 32
    let et := w 3 / 2 ^ 20 % 16
    let wrong (size : Nat) : Prop := w 1 / 2 ^ 8 ≠ 0 ∨ w 3 % 2 ^ 15 ≠ 0 ∨ w 3 / 2 ^ 30 = 1 ∨ w 3 / 2 ^ 28 % 4 ≠ 0 ∨
      w 3 / 2 ^ 16 % 16 ≠ 0 ∨ w 2 < size
    let started : Prop := w 3 / 2 ^ 31 = 1 → (tget ({} : Barrier) s.team.w (w 3 / 2 ^ 24 % 16)).init = true
    let lines (n : Nat) : List Nat := (List.range n).map (fun r => so + r * w 2)
    (Ready s (operandCodes a.toNat ++ quadRegs b.toNat) [] →
      let i := Instr.mld d a b
      let key := 8 * s.grp.core + d.toNat
      let o : OpSlot := tget {} s.cluster.slots key
      let size := lineSize o.shape.toNat
      let ls := lines (o.shape.toNat / 2 ^ 8 % 16 + 1)
      let bad : Prop := wrong size ∨ w 3 / 2 ^ 15 % 2 = 1 ∨ et ≠ 0
      let ps := s.tilePieces a.toNat l size ls false
      let reads := ls.map (fun x => (s.operandAddr a.toNat x, size))
      let c := { s.copyOf .mld a.toNat 34 (ctrlOf (w 3)) with
        pieces := ps, bytes := ls.length * size, slot := key, strong := ps.any (fun p => p.stype == 3) }
      (o.busy = true ∨ o.readers ≠ 0 → exec i s = .next s.stand) ∧
      (o.busy = false → o.readers = 0 →
        (o.st = .free → exec i s = .next (s.trap 6 2)) ∧ (o.st = .claimed → exec i s = .next (s.trap 6 3)) ∧
        (o.st = .shaped ∨ o.st = .loaded →
          (bad → exec i s = .next (s.trap 0x10 192)) ∧ (¬ bad → ¬ started → exec i s = .next (s.trap 0x28 3)) ∧
          (¬ bad → started → (∀ x ∈ ls, Rules.operandServes s a.toNat false x size) →
            (s.transferHeld c reads [] = true → exec i s = .next s.stand) ∧
            (s.transferHeld c reads [] = false → ∃ t, exec i s = .next t ∧ Rules.Transferring s t c reads [] ∧ t.mem = s.mem ∧
              .copyComplete s.nextId ∈ t.agenda ∧
              ∀ n, tget {} t.cluster.slots n = if n = key then { o with busy := true, image := [] } else tget {} s.cluster.slots n))))) ∧
    (Ready s (operandCodes d.toNat ++ quadRegs b.toNat) [] →
      let i := Instr.mst d a b
      let size := if et = 8 then 64 else 32
      let ls := lines 16
      let bad : Prop := wrong size ∨ et < 8 ∨ 10 < et
      let ps := s.tilePieces d.toNat l size ls true
      let writes := ls.map (fun x => (s.operandAddr d.toNat x, size))
      let c := { s.copyOf .mst 34 d.toNat (ctrlOf (w 3)) with
        pieces := ps, bytes := 16 * size, sat := w 3 / 2 ^ 15 % 2 == 1, strong := ps.any (fun p => p.dtype == 3) }
      (bad → exec i s = .next (s.trap 0x10 192)) ∧ (¬ bad → ¬ started → exec i s = .next (s.trap 0x28 3)) ∧
      (¬ bad → started → (∀ x ∈ ls, Rules.operandServes s d.toNat true x size) →
        (s.transferHeld c [] writes = true ∨ s.reserveRoom = false → exec i s = .next s.stand) ∧
        (s.transferHeld c [] writes = false → s.reserveRoom = true → ∃ t, exec i s = .next t ∧
          Rules.Transferring s t c [] writes ∧ t.mem = s.mem ∧ .passGrant s.team.cluster (s.grp.core / 2) ∈ t.agenda ∧
          ∃ r ∈ t.cluster.reserve, r.op = .snap a.toNat s.nextId ∧ r.group = s.cur ∧ r.engine = s.grp.core / 2)))

/-- R334, R349, R350: `mzero`, `macc` and `mma` ask the engine of their core for an operation; without a place they wait. `mma` checks
its slots and its format word, and its slots are engaged until the pass has read them; with poisoned words in a scale vector that it would
read it does not act, and issue from its domain stops (R417). -/
def Rules.EngineRequests : Prop :=
  ∀ (s : State) (d a b : BitVec 6) (c : BitVec 5), s.fullyOn = true → s.team.matrix = true → s.lanesT ≠ 0 →
    let e := s.grp.core / 2
    let room : Prop := s.cluster.reserve.length < Config.reservations ∧ (s.cluster.reserve.filter (fun r => r.engine == e)).length < 12
    let posts (i : Instr) (op : EngOp) (slots : State → Prop) : Prop := ∃ t r, exec i s = .next t ∧
      Passes ({ s with nextId := s.nextId + 1 }.setCluster { s.cluster with
        slots := t.cluster.slots, reserve := s.cluster.reserve ++ [r] }) t [] ∧
      r.op = op ∧ r.engine = e ∧ r.group = s.cur ∧ r.id = s.nextId ∧ r.core = s.grp.core ∧ r.granted = false ∧ r.read = none ∧
      .passGrant s.team.cluster e ∈ t.agenda ∧ slots t
    let kept (t : State) : Prop := t.cluster.slots = s.cluster.slots
    (Ready s [] [] →
      (¬ room → exec (.mzero d) s = .next s.stand ∧ exec (.macc d a) s = .next s.stand) ∧
      (room → posts (.mzero d) (.zero d.toNat) kept ∧ posts (.macc d a) (.acc d.toNat a.toNat) kept)) ∧
    (Ready s [c.toNat] [] →
      let i := Instr.mma d a b c
      let ka := 8 * s.grp.core + a.toNat
      let kb := 8 * s.grp.core + b.toNat
      let x : OpSlot := tget {} s.cluster.slots ka
      let y : OpSlot := tget {} s.cluster.slots kb
      let ra := x.shape.toNat
      let rb := y.shape.toNat
      let word := s.source c.toNat (lowest s.lanesT)
      let f := word.toNat
      let so := 64 * (f / 2 ^ 16 % 2 ^ 10)
      let fmt (r : Nat) : Nat := r / 2 ^ 27 % 8
      let bl (r : Nat) : Nat := r / 2 ^ 26 % 2
      let cls (r : Nat) : Nat := match fmt r with | 0 | 1 => 0 | 2 | 5 => 1 | 3 | 6 => 2 | _ => 3
      let scale (on : Nat) (o : Nat) : List Word :=
        (List.range 16).map (fun j => if on = 1 then BitVec.ofNat 32 (getLe s.team.scratch (o + 4 * j) 4) else 0x3F800000)
      let trap (k : Nat) (n : Nat) : Prop := exec i s = .next (s.trap k n)
      (x.busy = true ∨ y.busy = true → exec i s = .next s.stand) ∧
      (x.busy = false → y.busy = false →
        if x.st = .free ∨ y.st = .free then trap 6 2
        else if x.st ≠ .loaded ∨ y.st ≠ .loaded then trap 6 4
        else if ra / 2 ^ 30 ≠ 0 ∨ rb / 2 ^ 30 ≠ 1 then trap 5 4
        else if ra % 16 ≠ rb % 16 then trap 5 5
        else if f / 2 ^ 26 ≠ 0 ∨ f / 2 ^ 10 % 64 ≠ 0 ∨ f % 8 ≠ fmt ra ∨ f / 8 % 2 ≠ bl ra ∨ f / 16 % 8 ≠ fmt rb ∨ f / 128 % 2 ≠ bl rb then
          trap 5 6
        else if cls ra ≠ cls rb ∨ bl ra ≠ bl rb then trap 5 7
        else if (f / 2 ^ 8 % 2 = 1 ∧ s.team.scr < so + 64) ∨ (f / 2 ^ 9 % 2 = 1 ∧ s.team.scr < so + 128) then trap 0x10 194
        else (¬ room → exec i s = .next s.stand) ∧
          let bad : Prop := (f / 2 ^ 8 % 2 = 1 ∧ s.bytesBad true s.grp.team (0x20000 + so) 64 = true) ∨
            (f / 2 ^ 9 % 2 = 1 ∧ s.bytesBad true s.grp.team (0x20000 + so + 64) 64 = true)
          (room → bad → exec i s = .next (s.stopDomain (s.team.ctx, s.launch.lcb.fdom)).stand) ∧
          (room → ¬ bad → posts i (.pass d.toNat ka kb s.grp.core word (scale (f / 2 ^ 8 % 2) so) (scale (f / 2 ^ 9 % 2) (so + 64)))
            (fun t => ∀ n, tget {} t.cluster.slots n = if n = ka then { x with readers := x.readers + 1 }
              else if n = kb then { y with readers := y.readers + 1 } else tget {} s.cluster.slots n))))

/-- R334, R338, R342, R348, R350, R351, R414: the engine at work. It takes the oldest entry of a group, by age, order and priority; a
pass after long idling ramps first, one engine of the cluster at a time; a pass has read its slots when its compute phase ends; and
its end writes the accumulator and frees the entry, and idle time counts from it. A pass that has read poisoned data stops its domain (R417). In an idle slot of a device that throttles itself it takes none (R19). Passes are granted one at a time on an engine (log 25). -/
def Rules.EngineWork : Prop :=
  ∀ (s : State) (cl e : Nat),
    let c := s.clusterOf cl
    let x : Engine := tget {} c.engines e
    let mine := c.reserve.filter (fun r => r.engine == e)
    let same (t : State) : Prop := t.mem = s.mem ∧ t.groups = s.groups ∧ ∀ k, k ≠ cl → t.clusterOf k = s.clusterOf k
    let isPass (r : Reserve) : Prop := ∃ d sa sb k w u v, r.op = .pass d sa sb k w u v
    let idle := s.cycle - (if x.idleSince = 0 then 5700000 + 76000 * (cl / 2048 % 18) else x.idleSince)
    let late (r : Reserve) : Prop := r.since + 8192 ≤ s.cycle
    let first (r : Reserve) : Prop := s.holdsOldest r.group = true
    let before (r q : Reserve) : Prop :=
      (late r ∧ ¬ late q) ∨ ((late r ↔ late q) ∧ ((first r ∧ ¬ first q) ∨ ((first r ↔ first q) ∧ (q.prio < r.prio ∨ (q.prio = r.prio ∧
        (r.since / 1024 < q.since / 1024 ∨ (r.since / 1024 = q.since / 1024 ∧ (r.core < q.core ∨ (r.core = q.core ∧ r.pos ≤ q.pos)))))))))
    (mine = [] ∨ (∃ r ∈ mine, r.granted = true) ∨ s.idleSlot = true → exec (.passGrant cl e) s = .next s) ∧
    (∀ r, s.idleSlot = false → s.nextGrant cl e = some r →
      (r ∈ mine ∧ ∀ q ∈ mine, (∀ p ∈ c.reserve, p.group = q.group → q.id ≤ p.id) → before r q) ∧
      (isPass r → (∃ y ∈ c.engines, y.2.ramping = true) → exec (.passGrant cl e) s = .next s) ∧
      (isPass r → (∀ y ∈ c.engines, y.2.ramping = false) → 19000 < idle → ∃ t, exec (.passGrant cl e) s = .next t ∧ same t ∧
        t.clusterOf cl = { c with engines := (t.clusterOf cl).engines } ∧
        tget {} (t.clusterOf cl).engines e = { x with ramping := true } ∧ .rampEnd cl e ∈ t.agenda) ∧
      (isPass r → (∀ y ∈ c.engines, y.2.ramping = false) → idle ≤ 19000 → ∃ t, exec (.passGrant cl e) s = .next t ∧ same t ∧
        t.clusterOf cl = { c with reserve := c.reserve.map (fun q => if q.id = r.id then { r with granted := true } else q) } ∧
        .computePhaseEnd cl e ∈ t.agenda) ∧
      (∀ d a, r.op = .zero d ∨ r.op = .acc d a → ∃ t, exec (.passGrant cl e) s = .next t ∧ same t ∧
        t.clusterOf cl = { c with reserve := c.reserve.map (fun q => if q.id = r.id then { r with granted := true } else q) } ∧
        .passComplete cl e ∈ t.agenda) ∧
      (∀ a k y, r.op = .snap a k → tfind s.copies k = some y → ∃ t z, exec (.passGrant cl e) s = .next t ∧ same t ∧
        tfind t.copies k = some z ∧ z = { y with snap := z.snap, evs := z.evs } ∧ .copyComplete k ∈ t.agenda ∧
        (∀ q ∈ (t.clusterOf cl).reserve, q.id ≠ r.id) ∧
        (y.et = 8 → ∀ i, i < 256 → ∃ m, z.snap = some m ∧ getLe m (4 * i) 4 = (x.acc a i).toNat))) ∧
    (x.ramping = true → ∃ t, exec (.rampEnd cl e) s = .next t ∧ same t ∧ t.clusterOf cl = { c with engines := (t.clusterOf cl).engines } ∧
      tget {} (t.clusterOf cl).engines e = { x with ramping := false, idleSince := s.cycle } ∧ .passGrant cl e ∈ t.agenda) ∧
    (x.ramping = false → exec (.rampEnd cl e) s = .next s) ∧
    (∀ r, s.granted cl e = some r →
      let writes (d : Nat) (P : Nat → Word → Prop) : Prop := ∃ t, exec (.passComplete cl e) s = .next t ∧ t.mem = s.mem ∧
          (∀ q ∈ (t.clusterOf cl).reserve, q.id ≠ r.id) ∧ (∀ k, k ≠ cl → t.clusterOf k = s.clusterOf k) ∧
          (∀ k i, k ≠ d → i < 256 → (tget ({} : Engine) (t.clusterOf cl).engines e).acc k i = x.acc k i) ∧
          ∀ i, i < 256 → P i ((tget ({} : Engine) (t.clusterOf cl).engines e).acc d i)
      (∀ d sa sb k w u v, r.op = .pass d sa sb k w u v → r.read = none → sa ≠ sb → ∃ t, exec (.computePhaseEnd cl e) s = .next t ∧ same t ∧
        (t.clusterOf cl).reserve = c.reserve.map (fun q => if q.id = r.id then
          { r with read := some (tget {} c.slots sa, tget {} c.slots sb) } else q) ∧ .passComplete cl e ∈ t.agenda ∧
        ∀ n, tget {} (t.clusterOf cl).slots n = if n = sa ∨ n = sb then
          { tget ({} : OpSlot) c.slots n with readers := (tget ({} : OpSlot) c.slots n).readers - 1 } else tget {} c.slots n) ∧
      (isPass r → r.read = none → exec (.passComplete cl e) s = .next s) ∧
      (∀ d sa sb k w u v, r.op = .pass d sa sb k w u v → r.read = none →
        (tget ({} : OpSlot) c.slots sa).bad = true ∨ (tget ({} : OpSlot) c.slots sb).bad = true → ∃ t, exec (.computePhaseEnd cl e) s = .next t ∧
          ((s.teamOf (r.group / 16)).ctx, (s.launchOf (s.teamOf (r.group / 16)).launch).lcb.fdom) ∈ t.stopped) ∧
      (∀ t, exec (.passComplete cl e) s = .next t → (∃ q ∈ c.reserve, q.id = r.id) → (∀ q ∈ (t.clusterOf cl).reserve, q.id ≠ r.id) →
        (tget ({} : Engine) (t.clusterOf cl).engines e).idleSince = if r.read.isSome = true then s.cycle else x.idleSince) ∧
      (∀ d, r.op = .zero d → writes d (fun _ y => y = 0)) ∧
        (∀ d a, r.op = .acc d a → writes d (fun i y => y = BitVec.ofNat 32 (deliverStep
          (sumStep [f32.decode false (x.acc d i).toNat, f32.decode false (x.acc a i).toNat]).1).1)) ∧
        ∀ d sa sb k w u v m n, r.op = .pass d sa sb k w u v → r.read = some (m, n) → writes d (fun i y =>
          if i / 16 < m.shape.toNat / 2 ^ 8 % 16 + 1 ∧ i % 16 < n.shape.toNat / 2 ^ 8 % 16 + 1 then
            y = BitVec.ofNat 32 (elementStep m n u v (x.acc d i) (i / 16) (i % 16)).1
          else y = x.acc d i))

/-- The product of two elements or scales (R342): exact; a NaN, or 0 × ∞, makes it NaN. -/
def Rules.times (x y : FVal) : FVal :=
  match x, y with
  | .fin n m e, .fin n' m' e' => .fin (n ^^ n') (m * m') (e + e')
  | .inf n, .fin n' m' _ => if m' = 0 then .nan false else .inf (n ^^ n')
  | .fin n m _, .inf n' => if m = 0 then .nan false else .inf (n ^^ n')
  | .inf n, .inf n' => .inf (n ^^ n')
  | _, _ => .nan false

/-- w is the binary32 pattern of a sum, exact and delivered with one rounding, to nearest even (R342): a NaN or opposite infinities give the
canonical NaN; a zero sum is −0 only where every term is (log 52). -/
def Rules.Adds (xs : List FVal) (w : Nat) : Prop :=
  let value (x : FVal) : ℚ := match x with | .fin n m e => (if n then -1 else 1) * (m : ℚ) * 2 ^ e | _ => 0
  let wrong : Prop := (∃ b, .nan b ∈ xs) ∨ (.inf true ∈ xs ∧ .inf false ∈ xs)
  (wrong → w = f32.qnan) ∧ (¬ wrong → ∀ n, .inf n ∈ xs → w = f32.inf n) ∧
    (¬ wrong → (∀ n, .inf n ∉ xs) → ∃ n m e, value (.fin n m e) = (xs.map value).sum ∧
      (m = 0 → (n = true ↔ ∀ x ∈ xs, ∃ k, x = .fin true 0 k)) ∧ w = (f32.deliver {} (.fin n m e false)).1)

/-- R126, R131, R133, R341, R342: the arithmetic of a pass. An element of the accumulator takes, block by block, the exact sum of the block's
products and what the blocks before it gave, rounded once a block; the scaled total, exact, is added to what it held and rounded once. `macc`
adds two elements with one rounding. A pass counts at most one event of a class, and an invalid one where it reads a signalling NaN.
The elements of a loaded slot are those of its image, in its format. -/
def Rules.PassArithmetic : Prop :=
  let f (w : Word) : FVal := f32.decode false w.toNat
  (∀ (a b : OpSlot) (u v : List Word) (old : Word) (i j : Nat),
    let n := if a.shape.toNat / 2 ^ 26 % 2 = 1 then 32 else 16
    let blocks := 16 * (a.shape.toNat % 16 + 1) / n
    ∃ t : Nat → Nat, t 0 = 0 ∧
      (∀ c, c < blocks → Rules.Adds (f32.decode false (t c) ::
        (List.range n).map (fun k => Rules.times (a.value i (n * c + k)) (b.value j (n * c + k)))) (t (c + 1))) ∧
      Rules.Adds [f old, Rules.times (Rules.times (f (u.getD i 0)) (f (v.getD j 0))) (f32.decode false (t blocks))]
        (elementStep a b u v old i j).1) ∧
  (∀ x y : Word, Rules.Adds [f x, f y] (deliverStep (sumStep [f x, f y]).1).1) ∧
  (∀ (a b : OpSlot) (u v : List Word) (acc : Nat → Word),
    let evs := (passResult a b u v acc).2
    let rows (o : OpSlot) : Nat := o.shape.toNat / 2 ^ 8 % 16 + 1
    evs.Nodup ∧
    ((∃ i, i < rows a ∧ ∃ k, k < 16 * (a.shape.toNat % 16 + 1) ∧ a.value i k = .nan true) ∨
      (∃ j, j < rows b ∧ ∃ k, k < 16 * (b.shape.toNat % 16 + 1) ∧ b.value j k = .nan true) ∨
      (∃ w ∈ u ++ v, f w = .nan true) → 1 ∈ evs)) ∧
  ∀ (o : OpSlot) (i k : Nat), o.st = .loaded →
    let fmt := o.shape.toNat / 2 ^ 27 % 8
    let n := if o.shape.toNat / 2 ^ 26 % 2 = 1 then 32 else 16
    let depth := 16 * (o.shape.toNat % 16 + 1)
    let bf := tileFmt fmt n
    (fmt < 2 → o.value i k = (if fmt = 0 then f16 else b16).decode false (getLe o.image (i * (2 * depth) + 2 * k) 2)) ∧
    (2 ≤ fmt → let blk := getLe o.image (i * (depth / n * bf.size) + k / n * bf.size) bf.size
      (∀ g m e more, bf.value blk (k % n) = some (.fin g m e more) → o.value i k = .fin g m e) ∧
      (bf.value blk (k % n) = none → o.value i k = .nan false))
/-! ### Queues -/

/-- A queue with its next entry consumed (R56). -/
def Rules.consumed (q : Queue) (e : List QEntry) : Queue :=
  { q with head := (q.head + 1) % 2 ^ 32, seq := (q.seq + 1) % 2 ^ 32, waiting := false, live := q.live ++ e }

/-- R361: the registers of a launch queue. A write of QCTL, of QTAIL, and the clearing of HALT and OVF change that queue alone; an
entry that can then be taken is owed. -/
def Rules.QueueRegisters : Prop :=
  ∀ (s : State) (n v : Nat), n < 64 →
    let q := s.queue n
    let becomes (i : Instr) (x : Queue) : Prop := ∃ t, exec i s = .next t ∧ t = { s with queues := t.queues, agenda := t.agenda } ∧
      (∀ k, t.queue k = if k = n then x else s.queue k) ∧
      ∀ e, t.entry n = some e → bit (fieldAt e 1 1) 0 = false ∨ x.live = [] → entryEvent (fieldAt e 0 1) n ∈ t.agenda
    let on := bit v 31
    let log := bits v 27 23
    let tail := v % 2 ^ 32
    (q.en = true → on = true → becomes (.qctlWrite n v) { q with pcap := bits v 30 28 }) ∧
    (q.en = true → on = false →
      becomes (.qctlWrite n v) { q with en := false, pcap := bits v 30 28, head := q.tail, seq := 0, waiting := false }) ∧
    (q.en = false → becomes (.qctlWrite n v)
      { q with en := on && decide (6 ≤ log ∧ log ≤ 16), pcap := bits v 30 28, log2n := log, ctx := bits v 19 0 }) ∧
    (2 ^ q.log2n < (tail + 2 ^ 32 - q.head) % 2 ^ 32 → ∃ t, exec (.qtailWrite n v) s = .next t ∧
      t = { s with queues := t.queues, interrupts := s.interrupts ++ [{ what := 5, a := n, b := 0, c := 0 }] } ∧
      ∀ k, t.queue k = if k = n then { q with ovf := true } else s.queue k) ∧
    ((tail + 2 ^ 32 - q.head) % 2 ^ 32 ≤ 2 ^ q.log2n →
      becomes (.qtailWrite n v) { q with tail := tail, waiting := q.waiting && tail != q.head }) ∧
    (q.halt = true → becomes (.haltClear n) { q with halt := false }) ∧ (q.halt = false → exec (.haltClear n) s = .next s) ∧
    (q.ovf = true → ∃ t, exec (.ovfClear n) s = .next t ∧ t = { s with queues := t.queues } ∧
      ∀ k, t.queue k = if k = n then { q with ovf := false } else s.queue k) ∧
    (q.ovf = false → exec (.ovfClear n) s = .next s)

/-- R56, R57: a malformed entry is left unconsumed and halts its queue alone, with the cause and the ring index in its status and an
interrupt. CHECK counts first, then the lowest cause. The addresses are translated when the entry starts: one that is fenced while earlier
entries are incomplete has not started, so that a page or a count does not halt it yet (log 48). The queue is in turn: no other comes before it
in the front end's rotation. -/
def Rules.MalformedEntries : Prop :=
  ∀ (s : State) (n x : Nat), s.entry n = some x → s.inTurn n = true → (s.queue n).waiting = false →
    let q := s.queue n
    let ty := fieldAt x 0 1
    let addr := fieldAt x 8 8
    let val := fieldAt x 16 8
    let done := fieldAt x 24 8
    let sum := crc32c x 60 ≠ fieldAt x 60 4
    let noType : Prop := ty = 0 ∨ 4 < ty
    let notZero : Prop := fieldAt x 1 1 / 4 ≠ 0 ∨ fieldAt x 2 2 ≠ 0 ∨ fieldAt x 40 20 ≠ 0 ∨
      (ty ≠ 1 ∧ (done ≠ 0 ∨ fieldAt x 32 8 ≠ 0)) ∨ (ty = 4 ∧ (addr ≠ 0 ∨ val ≠ 0))
    let noPage (va : Nat) (write : Bool) : Prop := 2 ^ 56 ≤ va ∨ s.walkPage q.ctx va = none ∨
      ∃ p, s.walkPage q.ctx va = some p ∧ (if write = true then p.w else p.rd) = false
    let misaligned : Prop := (ty = 1 ∧ (addr % 256 ≠ 0 ∨ done % 8 ≠ 0)) ∨ ((ty = 2 ∨ ty = 3) ∧ addr % 8 ≠ 0)
    let unmapped : Prop := (ty = 1 ∧ done ≠ 0 ∧ noPage done true) ∨ (ty = 2 ∧ noPage addr false) ∨ (ty = 3 ∧ noPage addr true)
    let badAddr : Prop := misaligned ∨ unmapped
    let held : Prop := bit (fieldAt x 1 1) 0 = true ∧ q.live ≠ []
    let badCount : Prop := ty = 1 ∧ (val = 0 ∨ 2 ^ 62 < val)
    let halts (cause : Nat) : Prop :=
      ∀ i ∈ [(1, Instr.launchEntry n), (2, Instr.waitEntry n), (3, Instr.signalEntry n), (4, Instr.nopEntry n)],
        noType ∨ i.1 = ty → ∃ t, exec i.2 s = .next t ∧
        t = { s with queues := t.queues, rotor := (n + 1) % 64,
                     interrupts := s.interrupts ++ [{ what := 6, a := n, b := cause, c := q.head % 2 ^ q.log2n }] } ∧
        ∀ k, t.queue k = if k = n then
          { q with halt := true, cause := cause, index := q.head % 2 ^ q.log2n % 2 ^ 16, waiting := false } else s.queue k
    (sum → halts 6) ∧ (¬ sum → noType → halts 1) ∧ (¬ sum → ¬ noType → notZero → halts 2) ∧
    (¬ sum → ¬ noType → ¬ notZero →
      (fieldAt x 4 4 ≠ q.seq → halts 3) ∧ (fieldAt x 4 4 = q.seq → misaligned → halts 4) ∧
      (fieldAt x 4 4 = q.seq → ¬ held → unmapped → halts 4) ∧ (fieldAt x 4 4 = q.seq → ¬ held → ¬ badAddr → badCount → halts 5) ∧
      (fieldAt x 4 4 = q.seq → held → ¬ misaligned →
        ∀ i ∈ [(1, Instr.launchEntry n), (2, Instr.waitEntry n), (3, Instr.signalEntry n), (4, Instr.nopEntry n)],
          i.1 = ty → exec i.2 s = .next { s with rotor := (n + 1) % 64 }) ∧
      (fieldAt x 4 4 = q.seq → ¬ badAddr → (badCount ↔ s.entryCause q x = 5) ∧ (¬ badCount ↔ s.entryCause q x = 0)))

/-- R56, R362: a well-formed entry when the front end's rotation comes to its queue. A queue out of turn is visited later, a fenced entry
is left while earlier ones are incomplete. NOP is consumed; WAIT is consumed when its counter has reached its value and
waits otherwise, to be read again where its address was translated at its start; SIGNAL is consumed, and writes its value once the entries before it are complete; LAUNCH is cause 7
where its block does not resolve, holds a DONE or outranks PCAP, waits where there is no record or no room for its ranges, and
otherwise makes a running launch and is consumed. The rotation passes on (log 48). A SIGNAL does not hold its queue (log 32); DONE is looked up at the start (log 30). -/
def Rules.QueueEntries : Prop :=
  ∀ (s : State) (n x : Nat), s.entry n = some x →
    let q := s.queue n
    let ty := fieldAt x 0 1
    let addr := fieldAt x 8 8
    let val := fieldAt x 16 8
    let intr := bit (fieldAt x 1 1) 1
    let at_ := q.head % 2 ^ q.log2n
    let next : State := { s with rotor := (n + 1) % 64 }
    s.entryCause q x = 0 →
    (s.inTurn n = false → ∀ i ∈ [(Instr.launchEntry n, 1), (.waitEntry n, 2), (.signalEntry n, 3), (.nopEntry n, 4)],
      exec i.1 s = .next (if entryEvent i.2 n ∈ s.agenda then s else s.owe (entryEvent i.2 n))) ∧
    (s.inTurn n = true → bit (fieldAt x 1 1) 0 = true → q.live ≠ [] → q.waiting = false →
      ∀ i ∈ [Instr.launchEntry n, .waitEntry n, .signalEntry n, .nopEntry n], exec i s = .next next) ∧
    (s.inTurn n = true → bit (fieldAt x 1 1) 0 = false ∨ q.live = [] → (∀ e, q.live.head? = some e → e.signal = none) →
      let raised := if intr = true then [{ what := 7, a := n, b := at_, c := 0 }] else ([] : List Interrupt)
      let passes (i : Instr) : Prop := ∃ t, exec i s = .next t ∧
        t = { next with queues := t.queues, agenda := t.agenda, interrupts := s.interrupts ++ raised } ∧
        ∀ k, t.queue k = if k = n then Rules.consumed q [] else s.queue k
      (ty = 4 → passes (.nopEntry n)) ∧
      (ty = 2 → ∀ pa, (q.waiting = true ∧ pa = q.waitAt) ∨
          (q.waiting = false ∧ ∃ p, s.counterPage q.ctx addr false = some p ∧ pa = p.at_ addr) →
        ∀ i ∈ [Instr.waitEntry n, .waitRecheck n], i = .waitEntry n ∨ q.waiting = true →
          (val ≤ s.latestLe pa 8 → passes i) ∧
          (s.latestLe pa 8 < val → exec i s = .next (next.putQueue n { q with waiting := true, waitAt := pa }))) ∧
      (ty = 2 → q.waiting = false → exec (.waitRecheck n) s = .next s) ∧
      (ty = 3 → ∀ p, s.counterPage q.ctx addr true = some p → ∃ t, exec (.signalEntry n) s = .next t ∧
        (q.live = [] → t.queue n = Rules.consumed q [] ∧ t.homeLe (p.at_ addr) 8 = val ∧ t.interrupts = s.interrupts ++ raised) ∧
        (q.live ≠ [] → t.queue n = Rules.consumed q [{ signal := some (p.at_ addr, val), intr := intr, index := at_ }] ∧
          t.mem = s.mem ∧ t.interrupts = s.interrupts)) ∧
      (ty = 1 →
        let i := Instr.launchEntry n
        (s.resolve q.ctx addr true = none → exec i s = .next (next.haltQueue n 7)) ∧
        ∀ l pins, s.resolve q.ctx addr true = some (l, pins) →
          let die := s.cdies.headD 0
          let room : Prop := s.recordFree (s.lcbHome q.ctx addr) = true ∧
            s.rangeRoom s.nextId { lcb := l, items := val, die := die : Launch } = true
          (q.pcap < l.prio ∨ l.done ≠ 0 → exec i s = .next (next.haltQueue n 7)) ∧
          (l.prio ≤ q.pcap → l.done = 0 → ¬ room → exec i s = .next next) ∧
          (l.prio ≤ q.pcap → l.done = 0 → room → ∃ t ln, exec i s = .next t ∧ tfind t.launches s.nextId = some ln ∧
            ln.st = .running ∧ ln.ctx = q.ctx ∧ ln.items = val ∧ ln.lcb = { l with arg := fieldAt x 32 8 } ∧ ln.creator = none ∧
            ln.started = 0 ∧ ln.ended = 0 ∧
            (fieldAt x 24 8 = 0 → ln.doneAt = none) ∧
            (∀ p, fieldAt x 24 8 ≠ 0 → s.counterPage q.ctx (fieldAt x 24 8) true = some p → ln.doneAt = some (p.at_ (fieldAt x 24 8))) ∧
            t.queue n = Rules.consumed q [{ launch := some s.nextId, intr := intr, index := at_ }] ∧ t.mem = s.mem ∧
            t.groups = s.groups ∧ t.teams = s.teams)))

/-- The CRC of the entries is CRC-32C: its check value over the digits 1 to 9, and the CRC of nothing. -/
def Rules.EntryCheck : Prop :=
  crc32c 0x393837363534333231 9 = 0xE3069283 ∧ crc32c 0 0 = 0

/-! ### Task instructions -/

/-- The issuing group has every store performed and swept, as R363 asks of task instructions. -/
def Rules.performed (s : State) : Prop :=
  s.coveredInFlight { classes := 7, loads := false, stores := true } = false ∧ s.grp.sweeping = none ∧
    s.grp.coveredWrites { classes := 7, loads := false, stores := true } = []

/-- The launch that an instruction creates (R364): its block's fields at the creator's priority at most, its count, state and creator. -/
def Rules.Created (s t : State) (l : Lcb) (n : Nat) (st : LaunchState) : Prop :=
  ∃ ln, tfind t.launches s.nextId = some ln ∧ ln.st = st ∧ ln.items = n ∧ ln.ctx = s.team.ctx ∧
    ln.lcb = { l with prio := min l.prio s.launch.lcb.prio } ∧ ln.creator = some s.team.launch

/-- R363, R364: `spawn` and `spawnh` with one lane in T. The failures come in their order; a launch that can be created runs or is held,
counts against the SPAWNS of the creator and its ancestors, and a running one is a live child. Stores of the group come first.
Pages of DONE and of a bin buffer are looked up at creation (log 30). -/
def Rules.Spawns : Prop :=
  ∀ (s : State) (d a b : BitVec 6) (l : Nat), Ready s (regs true a.toNat ++ [b.toNat]) [d.toNat] → lanesOf s.lanesT = [l] →
    ∀ f ∈ [(Instr.spawn d a b, false), (Instr.spawnh d a b, true)],
    let addr := s.operand true a.toNat l
    let n := (s.source b.toNat l).toNat
    let me := s.team.launch
    let fails (code : Nat) : Prop := ∃ t, exec f.1 s = .next t ∧ (t.grp.reg d.toNat l).toNat = 2 ^ 31 + code ∧
      Completes s t [d.toNat] s.lanesT []
    (s.coveredInFlight { classes := 7, loads := false, stores := true } = true → ∃ t, exec f.1 s = .next t ∧
      t.grp.cur = { s.grp.cur with wait := if s.goesOn = true then s.grp.cur.wait else .slot } ∧ t.grp.regs = s.grp.regs ∧
      t.launches = s.launches) ∧
    (Rules.performed s → risesFrom 0 s.launches = true →
      (n = 0 → fails 5) ∧ (n ≠ 0 → addr % 256 ≠ 0 ∨ s.resolve s.team.ctx addr false = none → fails 3) ∧
      ∀ lcb pins, n ≠ 0 → addr % 256 = 0 → s.resolve s.team.ctx addr false = some (lcb, pins) →
        let out : Prop := s.spawnsOut me = true
        let dup : Prop := f.2 = true ∧ (s.heldLaunch s.team.ctx addr).isSome = true
        let room : Prop := s.recordFree (s.lcbHome s.team.ctx addr) = true ∧ (f.2 = true ∨ s.rangeRoom s.nextId
          { lcb := { lcb with prio := min lcb.prio s.launch.lcb.prio }, items := n, die := s.team.cluster / 2048 : Launch } = true)
        (out → fails 2) ∧ (¬ out → dup → fails 4) ∧ (¬ out → ¬ dup → ¬ room → fails 1) ∧
        (¬ out → ¬ dup → room → s.nextId ∉ s.ancestors me → (s.ancestors me).Nodup → ∃ t, exec f.1 s = .next t ∧
          t.grp.reg d.toNat l = 0 ∧ Rules.Created s t lcb n (if f.2 = true then .held else .running) ∧
          (∀ k ∈ s.ancestors me, (t.launchOf k).spawned = (s.launchOf k).spawned + 1) ∧
          (t.launchOf me).children = (s.launchOf me).children + (if f.2 = true then 0 else 1) ∧ t.mem = s.mem ∧
          t.grp.cur = { s.grp.cur with pc := s.grp.cur.pc + 4, wait := .none } ∧ ∀ j, j ≠ s.cur → t.group j = s.group j))

/-- R364: one lane of `spawn` or `spawnh` takes the machine from v to w and has a status: its failures in their order, or the launch created. -/
def Rules.SpawnLane (v w : State) (hold : Bool) (addr n status : Nat) : Prop :=
  let me := v.team.launch
  let fails (code : Nat) : Prop := status = 2 ^ 31 + code ∧ w.launches = v.launches ∧ w.mem = v.mem
  (n = 0 → fails 5) ∧ (n ≠ 0 → addr % 256 ≠ 0 ∨ v.resolve v.team.ctx addr false = none → fails 3) ∧
    ∀ lcb pins, n ≠ 0 → addr % 256 = 0 → v.resolve v.team.ctx addr false = some (lcb, pins) →
      let out : Prop := ∃ k ∈ v.ancestors me, (v.launchOf k).lcb.spawns ≤ (v.launchOf k).spawned
      let dup : Prop := hold = true ∧ (v.heldLaunch v.team.ctx addr).isSome = true
      let room : Prop := v.recordFree (v.lcbHome v.team.ctx addr) = true ∧ (hold = true ∨ v.rangeRoom v.nextId
        { lcb := { lcb with prio := min lcb.prio v.launch.lcb.prio }, items := n, die := v.team.cluster / 2048 : Launch } = true)
      (out → fails 2) ∧ (¬ out → dup → fails 4) ∧ (¬ out → ¬ dup → ¬ room → fails 1) ∧
      (¬ out → ¬ dup → room → v.nextId ∉ v.ancestors me → (v.ancestors me).Nodup → risesFrom 0 v.launches = true →
        status = 0 ∧ Rules.Created v w lcb n (if hold = true then .held else .running) ∧
        (∀ k ∈ v.ancestors me, (w.launchOf k).spawned = (v.launchOf k).spawned + 1) ∧
        (w.launchOf me).children = (v.launchOf me).children + (if hold = true then 0 else 1) ∧ w.mem = v.mem)

/-- R363, R364: `spawn` and `spawnh` over the lanes of T, ascending: each lane meets what the earlier lanes created, and its destination holds
its status. -/
def Rules.SpawnsInOrder : Prop :=
  ∀ (s : State) (d a b : BitVec 6), Ready s (regs true a.toNat ++ [b.toNat]) [d.toNat] → Rules.performed s →
    ∀ f ∈ [(Instr.spawn d a b, false), (Instr.spawnh d a b, true)],
    let lanes := lanesOf s.lanesT
    ∃ t, ∃ u : Nat → State, exec f.1 s = .next t ∧ t = u lanes.length ∧
      (u 0).launches = s.launches ∧ (u 0).mem = s.mem ∧ (u 0).nextId = s.nextId ∧ (u 0).team = s.team ∧
      (∀ j l, lanes[j]? = some l → Rules.SpawnLane (u j) (u (j + 1)) f.2 (s.operand true a.toNat l) (s.source b.toNat l).toNat
        (t.grp.reg d.toNat l).toNat) ∧
      t.grp.cur = { s.grp.cur with pc := s.grp.cur.pc + 4, wait := .none } ∧ (∀ j, j ≠ s.cur → t.group j = s.group j) ∧
      ∀ i l, l < 32 → i ≠ d.toNat ∨ s.lanesT.getLsbD l = false → t.grp.reg i l = s.grp.reg i l

/-- R365: `patch` adds to the count of the held launch of an address, up to 2^62, and `release` starts it, or, with no item, lets it
complete (R359); with no such launch neither has an effect. -/
def Rules.HeldLaunches : Prop :=
  ∀ (s : State) (a b : BitVec 6),
    let l := lowest s.lanesT
    let addr := s.operand true a.toNat l
    let n := (s.source b.toNat l).toNat
    let idle (i : Instr) : Prop := ∃ t, exec i s = .next t ∧ Passes s t []
    let none_ : Prop := s.lanesT = 0 ∨ addr % 256 ≠ 0 ∨ s.heldLaunch s.team.ctx addr = none
    Rules.performed s → risesFrom 0 s.launches = true →
    (Ready s (regs true a.toNat ++ [b.toNat]) [] → (none_ → idle (.patch a b)) ∧
      ∀ k h, ¬ none_ → s.heldLaunch s.team.ctx addr = some (k, h) → ∃ t, exec (.patch a b) s = .next t ∧
        Passes (s.putLaunch k { h with items := min (h.items + n) (2 ^ 62) }) t []) ∧
    (Ready s (regs true a.toNat) [] → (none_ → idle (.release a)) ∧
      ∀ k h, ¬ none_ → s.heldLaunch s.team.ctx addr = some (k, h) → s.launchOf k = h → h.creator ≠ some k →
        ∃ t, exec (.release a) s = .next t ∧
          (t.launchOf k).st = (if h.items = 0 then .completing else .running) ∧ (t.launchOf k).items = h.items ∧
          (t.launchOf k).lcb = h.lcb ∧ (t.launchOf k).creator = h.creator ∧
          (∀ c, h.creator = some c → (t.launchOf c).children = (s.launchOf c).children + 1) ∧
          (h.items = 0 → .launchComplete k ∈ t.agenda) ∧ t.mem = s.mem ∧ t.grp.regs = s.grp.regs ∧
          t.grp.cur = { s.grp.cur with pc := s.grp.cur.pc + 4, wait := .none })

/-- R366: `bin`. Without a BIN, or with one that has no buffer, every lane gets INVALID; while a launch started from the buffer is live,
BUSY. Otherwise each lane of T appends its value at the count of the held launch and gets that count, or BINFULL at the capacity; a
held launch is made where there is none. A word of the buffer that is not mapped is log 30. -/
def Rules.Bins : Prop :=
  ∀ (s : State) (d a : BitVec 6), Ready s [a.toNat] [d.toNat] → Rules.performed s →
    risesFrom 0 s.launches = true →
    let i := Instr.bin d a
    let c := s.team.ctx
    let b := s.launch.lcb.bin
    let me := s.team.launch
    let rank (l : Nat) : Nat := ((lanesOf s.lanesT).filter (· < l)).length
    let all (code : Nat) : Prop := ∃ t, exec i s = .next t ∧
      (∀ l, s.lanesT.getLsbD l = true → (t.grp.reg d.toNat l).toNat = 2 ^ 31 + code) ∧ Completes s t [d.toNat] s.lanesT []
    let filled (t : State) (k from_ cap : Nat) : Prop :=
      (∀ l, s.lanesT.getLsbD l = true → t.grp.reg d.toNat l =
        if from_ + rank l < cap then BitVec.ofNat 32 (from_ + rank l) else BitVec.ofNat 32 (2 ^ 31 + 6)) ∧
      (t.launchOf k).items = min cap (from_ + (lanesOf s.lanesT).length) ∧ (t.launchOf k).fromBin = true ∧ (t.launchOf k).st = .held ∧
      t.grp.cur = { s.grp.cur with pc := s.grp.cur.pc + 4, wait := .none }
    (s.lanesT = 0 → ∃ t, exec i s = .next t ∧ Passes s t []) ∧
    (s.lanesT ≠ 0 →
      (b = 0 → all 3) ∧
      (∀ k h, b ≠ 0 → s.heldLaunch c b = some (k, h) → s.launchOf k = h →
        (h.lcb.binBuf = 0 → all 3) ∧ (h.lcb.binBuf ≠ 0 → s.binLive c b = true → all 7) ∧
        (h.lcb.binBuf ≠ 0 → s.binLive c b = false → h.items ≤ h.lcb.binCap → ∃ t, exec i s = .next t ∧
          filled t k h.items h.lcb.binCap ∧
          ∀ l pa, lanesOf s.lanesT = [l] → h.items < h.lcb.binCap → translate h.pins (h.lcb.binBuf + 4 * h.items) = some pa →
            t.homeLe pa 4 = (s.source a.toNat l).toNat)) ∧
      (b ≠ 0 → s.heldLaunch c b = none →
        (b % 256 ≠ 0 ∨ s.resolve c b false = none → s.binLive c b = false → all 3) ∧
        ∀ lcb pins, b % 256 = 0 → s.resolve c b false = some (lcb, pins) →
          (lcb.binBuf = 0 → all 3) ∧ (lcb.binBuf ≠ 0 → s.binLive c b = true → all 7) ∧
          (lcb.binBuf ≠ 0 → s.binLive c b = false →
            (s.spawnsOut me = true → all 2) ∧
            (s.spawnsOut me = false → s.recordFree (s.lcbHome c b) = false → all 1) ∧
            (s.spawnsOut me = false → s.recordFree (s.lcbHome c b) = true → s.nextId ∉ s.ancestors me →
              tfind s.launches s.nextId = none → ∃ t, exec i s = .next t ∧ filled t s.nextId 0 lcb.binCap ∧
              (t.launchOf s.nextId).creator = some me))))

/-! ### Teams and launches -/

/-- R367: the ranges into which a launch of some teams is cut over nc C-dies hold each ordinal once and no other. -/
def Rules.Placement : Prop :=
  ∀ l teams nc : Nat, 0 < nc →
    (∀ o, o < teams ↔ ∃ k n, k < nc ∧ n < (rangeFor l teams nc k).hi ∧ (rangeFor l teams nc k).ordinal n = o) ∧
    (∀ k k' n n', k < nc → k' < nc → n < (rangeFor l teams nc k).hi → n' < (rangeFor l teams nc k').hi →
      (rangeFor l teams nc k).ordinal n = (rangeFor l teams nc k').ordinal n' → k = k' ∧ n = n') ∧
    ∀ k n, k < nc → n < (rangeFor l teams nc k).hi →
      (rangeFor l teams nc k).ordinal n / max 1 (min 64 ((teams + nc - 1) / nc)) % nc = k

/-- R357: a task's region loads. The next load is asked for as a blocking borrow of group 0, a symmetric one is taken as it is, and with
none left the task is ready; a granted one is kept, a tainted one with an interrupt; FULL and UNREACHABLE return what was taken and
wait 4,096 cycles, and SELF or a refused range kills the fault domain. -/
def Rules.TeamLoads : Prop :=
  ∀ (s : State) (k : Nat) (t : Task), tfind s.tasks k = some t →
    let i := Instr.regionLoad k
    let ln := s.launchOf t.launch
    (t.st ≠ .loading → exec i s = .next s) ∧
    (t.st = .loading → (∀ r ∈ s.reqs, r.2.purpose ≠ .load k) →
      (t.left = [] → ∃ u, exec i s = .next u ∧ u = { s with tasks := u.tasks, agenda := u.agenda } ∧
        tfind u.tasks k = some { t with st := .ready }) ∧
      ∀ e es, t.left = e :: es →
        let base := (e.base + t.ord * e.tstride) % 2 ^ 64
        let bad (code detail : Nat) : Prop := exec i s = .next ((s.putTask k { t with left := es }).beginKill
          { ctx := ln.ctx, whole := false, fdom := ln.lcb.fdom, cause := 6, code := code, detail := detail, lcb := ln.lcb.addr,
            pc := e.reg + 256 * t.ord })
        let seen := (s.putTask k { t with left := es }).lookLoad ln.ctx t.cluster base e.len e.kind
        (e.peer = true → ∃ u, exec i s = .next u ∧ u = { s with tasks := u.tasks, agenda := s.agenda ++ [.regionLoad k] } ∧
          ∃ h : Nat,
            let r : Region := { base := e.base, len := e.len, kind := e.kind, cls := e.cls, holder := 0, all := true, peer := true, handle := h }
            tfind u.tasks k = some { t with left := es, got := mset {} t.got e.reg r }) ∧
        (e.peer = false → inOneSpan base e.len = false → bad 0x10 34) ∧
        (e.peer = false → inOneSpan base e.len = true →
          (∀ x y, seen = .fault x y → bad 0x13 x) ∧
          ∀ ps, seen = .pages ps →
            let parts := s.partsOf (pageSpans ps base e.len)
            parts ≠ [] → s.selfConflict k e.kind parts = false → ∃ u, exec i s = .next u ∧
              tfind u.tasks k = some { t with left := es } ∧
              (∃ r, tfind u.reqs s.nextId = some r ∧ r.purpose = .load k ∧ r.reg = e.reg ∧ r.kind = e.kind ∧ r.wait = true ∧
                r.base = base ∧ r.len = e.len ∧ r.cls = e.cls ∧ r.team = k ∧ r.ended = none) ∧
              u.mem = s.mem ∧ u.groups = s.groups ∧ u.teams = s.teams)) ∧
    (∀ n r status, t.st = .loading → s.reqs.find? (fun x => x.2.purpose == .load k) = some (n, r) → r.ended = some status →
      (status ≤ 1 → ∃ u, exec i s = .next u ∧ tfind u.reqs n = none ∧
        tfind u.tasks k = some { t with got := mset {} t.got r.reg (r.region 0) } ∧
        u.interrupts = s.interrupts ++ (if status = 1 then [{ what := 4, a := t.launch, b := r.reg, c := 0 }] else []) ∧
        .regionLoad k ∈ u.agenda ∧ u.groups = s.groups ∧ u.mem = s.mem) ∧
      (status = 5 → exec i s = .next (State.beginKill { s with reqs := tdel s.reqs n }
        { ctx := ln.ctx, whole := false, fdom := ln.lcb.fdom, cause := 5 })) ∧
      (status = 2 ∨ status = 3 ∨ status = 4 → ∃ u, exec i s = .next u ∧
        tfind u.tasks k = some { t with st := .retry, refused := s.cycle, left := [], got := [] } ∧ u.groups = s.groups ∧ u.teams = s.teams)) ∧
    (t.st = .retry → t.refused + 4096 ≤ s.cycle → (∀ r ∈ s.reqs, r.2.team ≠ k) → ∃ u, exec (.loadRetry k) s = .next u ∧
      u = { s with tasks := u.tasks, agenda := s.agenda ++ [.regionLoad k] } ∧
      tfind u.tasks k = some { t with st := .loading, left := ln.lcb.loads }) ∧
    (t.st ≠ .retry ∨ s.cycle < t.refused + 4096 → exec (.loadRetry k) s = .next s)

/-- R62, R93, R367, R368: a startable task, the first in its cluster's order, becomes a resident team of its ordinal: its groups stand at the
launch's entry with every present lane ready, its registers hold the loads, and the launch counts one team more. Where it takes the cluster's last cache way, what was dirty in the
cache goes home (R217); no other memory changes. -/
def Rules.TeamStarts : Prop :=
  ∀ (s : State) (k : Nat) (t : Task) (cores : List Nat), tfind s.tasks k = some t → k < s.nextId → s.nextTask t.cluster = some k →
    s.startable t.cluster t = some cores →
    let ln := s.launchOf t.launch
    let n := min ln.lcb.teamSize ((ln.items + 31) / 32 - t.ord * ln.lcb.teamSize)
    ∃ u, exec (.teamStart k) s = .next u ∧ tfind u.tasks k = none ∧ cores.length = n ∧
      (∀ loc, u.homeByte loc ≠ s.homeByte loc →
        ∃ b ∈ (s.clusterOf t.cluster).cache, b.1 = loc ∧ b.2.dirty = true ∧ u.homeByte loc = b.2.val) ∧
      (∃ x, tfind u.teams k = some x ∧ x.st = .resident ∧ x.launch = t.launch ∧ x.ctx = ln.ctx ∧ x.ix = t.ord ∧ x.size = n ∧
        x.cluster = t.cluster ∧ x.start = s.cycle ∧ x.g = t.got ∧ x.scr = ln.lcb.scr ∧ x.matrix = ln.lcb.matrix ∧
        x.banks = List.replicate ln.lcb.nb {}) ∧
      (∀ p, p < n → ∃ g, tfind u.groups (16 * k + p) = some g ∧
        let ord := t.ord * ln.lcb.teamSize + p
        g.team = k ∧ g.pos = p ∧ g.ord = ord ∧ g.core = cores.getD p 0 ∧ g.regs = [] ∧ g.preds = [] ∧ g.rest = [] ∧
        g.cur.pc.toNat = (ln.lcb.codeBase + ln.lcb.entry) % 2 ^ 64 ∧ g.cur.st = .ready ∧ g.cur.depth = 0 ∧ g.cur.mode = 0 ∧
        (∀ l, l < 32 → (g.cur.mask.getLsbD l = true ↔ 32 * ord + l < ln.items)) ∧
        ∀ l, l < 32 → (g.absent.getLsbD l = true ↔ ln.items ≤ 32 * ord + l)) ∧
      (u.launchOf t.launch).started = ln.started + 1 ∧ (∀ j, (∀ p, p < n → j ≠ 16 * k + p) → u.group j = s.group j)

/-- R358, R360: a team that is ending, with its accesses, copies and returns complete, first returns the borrows that its registers hold,
and then is gone with its groups; the launch whose last team ends completes. R155: a trip that waits for the end of its cycle is raised first. -/
def Rules.TeamsEnd : Prop :=
  ∀ (s : State) (k : Nat) (t : Team), tfind s.teams k = some t →
    let i := Instr.teamEnd k
    let ln := s.launchOf t.launch
    let due : Prop := ∃ x ∈ t.lowest, x.2.2.2.2 = true
    (t.st ≠ .ending → ¬ due → exec i s = .next s) ∧
    (t.st ≠ .ending → ∀ c was j f, c < 6 → tfind t.lowest c = some (was, j, f, true) → (s.group j).live ≠ 0 →
      ∃ u, exec i s = .next u ∧ ∃ e ∈ (u.group j).deferred, e.code = 0x30 ∧ e.detail ≤ c) ∧
    (t.st = .ending → ¬ due → (∀ x ∈ s.txns, x.2.team ≠ k) → (∀ r ∈ s.reqs, r.2.team ≠ k) → (∀ c ∈ s.copies, c.2.team ≠ k) →
      ((∀ g ∈ t.g, g.2.kind = .empty ∨ g.2.peer = true) → ∃ u, exec i s = .next u ∧ tfind u.teams k = none ∧
        (∀ j g, tfind u.groups j = some g → g.team ≠ k) ∧ (∀ j, j ≠ k → u.teamOf j = s.teamOf j) ∧
        (u.launchOf t.launch).ended = ln.ended + 1 ∧ u.mem = s.mem ∧
        (ln.st = .running → ln.ended + 1 = ln.teams → ln.children = 0 → .launchComplete t.launch ∈ u.agenda ∧
          (.launchComplete t.launch ∉ s.agenda → (u.launchOf t.launch).st = .completing))) ∧
      ((∃ g ∈ t.g, g.2.kind ≠ .empty ∧ g.2.peer = false) → ∃ u, exec i s = .next u ∧ (u.teamOf k).st = .ending ∧ (u.teamOf k).g = [] ∧
        u.groups = s.groups ∧ ((∃ r ∈ u.reqs, r.2.team = k) ∨ .teamEnd k ∈ u.agenda)))

/-- R330, R360: a launch whose teams have all ended and which has no live child completes: its record is gone, DONE is one higher, its
creator has one live child less, the queue entry is complete; and what it held is released or discarded.
The device writes DONE at its home (log 32). The carry spill area of a launch with carry slots holds free bytes from then on (log 50). -/
def Rules.LaunchesComplete : Prop :=
  ∀ (s : State) (l : Nat) (ln : Launch), tfind s.launches l = some ln →
    let i := Instr.launchComplete l
    let past : Prop := (ln.st = .running ∨ ln.st = .completing) ∧ ln.ended = ln.teams ∧ ln.children = 0
    (¬ past → exec i s = .next s) ∧
    (past → s.launches.Pairwise (fun a b => a.1 ≠ b.1) → ∃ t, exec i s = .next t ∧ tfind t.launches l = none ∧ t.groups = s.groups ∧ t.teams = s.teams ∧
      (∀ n, ∀ e ∈ (t.queue n).live, e.launch ≠ some l) ∧ (∀ v ∈ t.carried, v.launch ≠ l) ∧
      (∀ c, ln.creator = some c → c ≠ l → (tfind s.launches c).isSome = true → (s.launchOf c).st ≠ .held →
        (t.launchOf c).children = (s.launchOf c).children - 1) ∧
      (∀ h x, tfind s.launches h = some x → x.st = .held → x.creator = some l →
        (x.items = 0 → tfind t.launches h = none) ∧
        (x.items ≠ 0 → (t.launchOf h).st = .running ∧ (t.launchOf h).creator = none ∧ (t.launchOf h).items = x.items)) ∧
      ((∀ q ∈ s.queues, ∀ e ∈ q.2.live, e.launch ≠ some l) → (∀ x ∈ s.cmsgs, x.2.kind ≠ .invalidate) →
        (∀ h ∈ s.launches, h.2.st = .held → h.2.creator ≠ some l) →
        let u := s.scrubSpill ln
        (∀ pa, ln.doneAt = some pa → t.homeLe pa 8 = (u.latestLe pa 8 + 1) % 2 ^ 64) ∧ (ln.doneAt = none → t.mem = u.mem) ∧
        ((∀ x ∈ ln.lcb.carry, x.2.valid = false) → u = s)))

/-- R371, R372: the boost goes to the group that holds the lowest unretired item; the budget, once exceeded, marks each live group of the
launch with one BUDGET trap; groups still live 2^20 slots later are ended. When the other groups owe their trap is log 42. -/
def Rules.BoostAndBudget : Prop :=
  ∀ (s : State) (l : Nat),
    let ln := s.launchOf l
    let past : Prop := ln.budgetAt = none ∧ ln.lcb.budget ≠ 0 ∧ ln.lcb.budget < ln.slots
    let mine (k : Nat) (g : Group) : Prop :=
      (s.teamOf g.team).launch = l ∧ (s.teamOf g.team).st ≠ .saved ∧ g.live ≠ 0 ∧ tfind s.groups k = some g
    (ln.st ≠ .running ∧ ln.st ≠ .completing → exec (.boost l) s = .next s) ∧
    (ln.st = .running ∨ ln.st = .completing → ∃ t, exec (.boost l) s = .next t ∧
      t = { s with launches := t.launches, agenda := t.agenda } ∧
      ∀ k, t.launchOf k = if k = l then { ln with boosted := some (ln.low / 32) } else s.launchOf k) ∧
    (¬ past → exec (.budgetExceeded l) s = .next s) ∧
    (past → s.groups.Pairwise (fun a b => a.1 ≠ b.1) → ∃ t, exec (.budgetExceeded l) s = .next t ∧
      t = { s with launches := t.launches, groups := t.groups } ∧
      (∀ k, t.launchOf k = if k = l then { ln with budgetAt := some ln.slots } else s.launchOf k) ∧
      (∀ k g, mine k g → g.budgeted = false → (t.group k).budgeted = true ∧ ∃ d ∈ (t.group k).deferred, d.code = 0x38 ∧ d.detail ≤ 1) ∧
      ∀ k, (∀ g, mine k g → g.budgeted = true) → t.group k = s.group k) ∧
    (ln.budgetAt = none → exec (.budgetEnd l) s = .next s) ∧
    (∀ b, ln.budgetAt = some b → ln.slots < b + 2 ^ 20 → exec (.budgetEnd l) s = .next s) ∧
    ∀ b, ln.budgetAt = some b → b + 2 ^ 20 ≤ ln.slots → ∃ t, exec (.budgetEnd l) s = .next t ∧
      (∀ k g, mine k g → (t.group k).live = 0) ∧ ∀ k, (∀ g, ¬ mine k g) → (t.group k).regs = (s.group k).regs

/-- R368, R369: balancing moves tasks of the highest ordinal: within a die to its shallowest queue, from the deepest queue to an idle
cluster, and between dies as the top of the largest range, where the queue or the range table has room, and, for an idle cluster, where it could
start that range's top team; a task that has waited 2^20 cycles is promoted.
How many teams a steal takes is log 31. -/
def Rules.Balancing : Prop :=
  ∀ (s : State) (x : Nat),
    let moved (t : State) (k cl : Nat) : Prop := (t.taskOf k).cluster = cl ∧ (t.taskOf k).ord = (s.taskOf k).ord ∧
      (t.taskOf k).got = (s.taskOf k).got ∧ k ∈ (t.clusterOf cl).queue ∧ t.mem = s.mem ∧ t.groups = s.groups ∧ t.teams = s.teams
    let highestOf (k : Nat) (ks : List Nat) : Prop := k ∈ ks ∧ ∀ j ∈ ks, (s.taskOf j).ord ≤ (s.taskOf k).ord
    let depth (cl : Nat) : Nat := (s.clusterOf cl).queue.length
    let deep (c : Nat × Cluster) : Prop := c.1 / 2048 = x ∧ s.dieDepth x + 8 * 1920 ≤ c.2.queue.length * 1920
    ((∀ c ∈ s.clusters, ¬ deep c) → exec (.depthExchange x) s = .next s) ∧
    (∀ c ∈ s.clusters, deep c → s.clusterOf c.1 = c.2 → (∀ c' ∈ s.clusters, deep c' → c' = c) →
      depth (s.shallowest x) < 64 → s.clusters.Pairwise (fun a b => a.1 ≠ b.1) → ∃ t k, exec (.depthExchange x) s = .next t ∧ highestOf k c.2.queue ∧
        (s.shallowest x ≠ c.1 → moved t k (s.shallowest x)) ∧ ∀ j, j < 1920 → depth (s.shallowest x) ≤ depth (2048 * x + j)) ∧
    ((∀ d ∈ s.neighbours x, s.queuedTeams x < s.queuedTeams d + 64) → exec (.dieDepthExchange x) s = .next s) ∧
    (∀ d r, s.neighbours x = [d] → s.queuedTeams d + 64 ≤ s.queuedTeams x → tget [] s.ranges x = [r] →
      (tget [] s.ranges d).length < 4096 → let k := min ((s.queuedTeams x - s.queuedTeams d) / 2) (r.hi - r.lo)
      ∃ t, exec (.dieDepthExchange x) s = .next t ∧ t.mem = s.mem ∧ t.groups = s.groups ∧ t.teams = s.teams ∧
        tget [] t.ranges x = [{ r with hi := r.hi - k }]) ∧
    (depth x ≠ 0 → exec (.steal x) s = .next s) ∧
    (∀ c, depth x = 0 → c ∈ s.clusters → s.clusterOf c.1 = c.2 → c.1 / 2048 = x / 2048 → c.2.queue ≠ [] →
      (∀ c' ∈ s.clusters, c'.1 / 2048 = x / 2048 → c'.1 ≠ c.1 → c'.2.queue.length < c.2.queue.length) →
      s.clusters.Pairwise (fun a b => a.1 ≠ b.1) → (∃ k ∈ c.2.queue, (s.startable x (s.taskOf k)).isSome = true) →
      ∃ t k, exec (.steal x) s = .next t ∧ highestOf k (c.2.queue.filter (fun k => (s.startable x (s.taskOf k)).isSome)) ∧ moved t k x) ∧
    (depth x = 0 → (∀ c ∈ s.clusters, c.1 / 2048 = x / 2048 → c.2.queue = []) → s.neighbours (x / 2048) = [] →
      exec (.steal x) s = .next s) ∧
    (∀ d r, depth x = 0 → (∀ c ∈ s.clusters, c.1 / 2048 = x / 2048 → c.2.queue = []) → s.neighbours (x / 2048) = [d] →
      tget [] s.ranges d = [r] → r.lo < r.hi →
      let l := s.launchOf r.launch
      let takes := s.fits x (l.sizeOf (r.ordinal (r.hi - 1))) l.lcb
      (takes = none → exec (.steal x) s = .next s) ∧
      (takes.isSome = true → (tget [] s.ranges (x / 2048)).length < 4096 → ∃ t, exec (.steal x) s = .next t ∧ t.mem = s.mem ∧
        t.groups = s.groups ∧ t.teams = s.teams ∧ tget [] t.ranges d = [{ r with hi := r.hi - min 64 (r.hi - r.lo) }])) ∧
    (∀ t, tfind s.tasks x = some t →
      (t.fed + 2 ^ 20 ≤ s.cycle → exec (.taskAgePromote x) s = .next (s.putTask x { t with promoted := true })) ∧
      (s.cycle < t.fed + 2 ^ 20 → exec (.taskAgePromote x) s = .next s))

/-! ### Kills and pre-emption -/

/-- A team number belongs to a resident, draining or saved team of the domain that a kill names (R393). -/
def Rules.Doomed (s : State) (ctx fdom : Nat) (whole : Bool) (k : Nat) : Prop :=
  ∃ t, (k, t) ∈ s.teams ∧ t.st ≠ .absent ∧ t.ctx = ctx ∧ (whole = true ∨ (s.launchOf t.launch).lcb.fdom = fdom)

/-- R393 steps 1 to 3, R394: a write to KILL tears the domain down: its groups, teams and held launches are gone, its other launches are
killed, its copies stop, none of their chunks that has not left leaves, answers to its borrow requests are dead, and what the cluster caches hold under
its teams is dropped (R281); what belongs to other domains stays. A kill of a domain whose
kill is in progress changes nothing but the register. -/
def Rules.Kills : Prop :=
  ∀ (s : State) (v : Nat), v < 2 ^ 64 →
    let ctx := bits v 19 0
    let fdom := bits v 63 32
    let whole := bit v 31
    let s0 : State := { s with cc := { s.cc with killReg := if v = 0 then 1 else v } }
    let dead := Rules.Doomed s ctx fdom whole
    let gone (n : Nat) : Prop := ∃ l, (n, l) ∈ s.launches ∧ l.st ≠ .none ∧ l.ctx = ctx ∧ (whole = true ∨ l.lcb.fdom = fdom)
    ((∃ j ∈ s.kill, j.ctx = ctx ∧ (j.whole = true ∨ (j.fdom = fdom ∧ whole = false))) → exec (.kill v) s = .next s0) ∧
    ((∀ j ∈ s.kill, ¬ (j.ctx = ctx ∧ (j.whole = true ∨ (j.fdom = fdom ∧ whole = false)))) → ∃ t, exec (.kill v) s = .next t ∧
      t.cc.killReg ≠ 0 ∧ t.mem = s.mem ∧ t.circ = s.circ ∧ t.catalogue = s.catalogue ∧ t.agenda = s.agenda ++ [.killComplete] ∧
      (∃ job, t.kill = s.kill ++ [job] ∧ job.ctx = ctx ∧ job.fdom = fdom ∧ job.whole = whole ∧ job.cause = 1 ∧
        ∀ x, x ∈ job.copies ↔ x ∈ s.copies ∧ dead x.2.team) ∧
      (∀ x, x ∈ t.groups ↔ x ∈ s.groups ∧ ¬ dead x.2.team) ∧ (∀ x, x ∈ t.teams ↔ x ∈ s.teams ∧ ¬ dead x.1) ∧
      (∀ x, x ∈ t.tasks ↔ x ∈ s.tasks ∧ ¬ gone x.2.launch) ∧ (∀ x, x ∈ t.carried ↔ x ∈ s.carried ∧ ¬ gone x.launch) ∧
      (∀ x, x ∈ t.launches ↔ (x ∈ s.launches ∧ ¬ gone x.1) ∨
        ∃ l, (x.1, l) ∈ s.launches ∧ gone x.1 ∧ l.st ≠ .held ∧ x.2 = { l with st := .killed }) ∧
      (∀ n c, (n, c) ∈ s.copies → (dead c.team → (n, { c with killed := true }) ∈ t.copies) ∧ (¬ dead c.team → (n, c) ∈ t.copies)) ∧
      (∀ p ∈ t.net.packets, p.2.waiting = true → ∀ n c, p.2.event = some (.chunk n) → tfind s.chunks n = some c → ¬ dead c.team) ∧
      (∀ n x r, (n, x) ∈ s.slips → tfind s.reqs x.req = some r → dead r.team → (n, { x with dead := true }) ∈ t.slips) ∧
      (∀ k x, x ∈ (t.clusterOf k).cache ↔ x ∈ (s.clusterOf k).cache ∧ ¬ dead x.2.team) ∧
      ∀ k n, n ∈ (t.clusterOf k).queue ↔ n ∈ (s.clusterOf k).queue ∧ ¬ gone (s.taskOf n).launch)

/-- R198, R360, R393 steps 4 to 6, R395: a kill completes: no entry of a dead holder stands at the homes but as taint, the killed launches
are gone, the kill record is written into the context's ring, the control complex is interrupted, and KILL reads zero when no other
kill is in progress. The entry of a copy bears the copy's own fault domain; a command of SYMCMD for a context that is killed whole is over.
A killed copy whose completion is on its way stays until it is dropped there (R294). Tentative entries are log 33,
and the spill areas of killed launches with carry slots hold free bytes (log 50). -/
def Rules.KillsComplete : Prop :=
  ∀ (s : State),
    let i := Instr.killComplete
    (s.kill = [] → exec i s = .next s) ∧
    ∀ job rest, s.kill = job :: rest → ∃ t, exec i s = .next t ∧ t.kill = rest ∧ t.groups = s.groups ∧ t.teams = s.teams ∧
      (rest = [] → t.cc.killReg = 0) ∧
      (job.whole = true → (∃ r ∈ s.reqs, ∃ n, r.2.purpose = .sym job.ctx n) → t.cc.symBusy = false) ∧ { what := 8, a := job.ctx, b := job.fdom, c := job.cause } ∈ t.interrupts ∧
      (∀ x ∈ t.copies, ∀ y ∈ job.copies, x.1 = y.1 → .copyComplete x.1 ∈ s.agenda) ∧
      (∀ n l, (n, l) ∈ s.launches → l.st = .killed → l.ctx = job.ctx → job.whole = true ∨ l.lcb.fdom = job.fdom →
        tfind t.launches n = none) ∧
      ((∀ x ∈ s.circ, x.2.st = .held ∨ x.2.st = .taint) →
        (∀ x ∈ t.circ, x.2.ctx = job.ctx → x.2.dev = s.ownNum → x.2.st = .held → x.2.team < 2 ^ 40 →
          (tfind s.teams x.2.team).isSome = true ∨ (tfind s.tasks x.2.team).isSome = true) ∧
        ∀ x ∈ s.circ, x.2.ctx = job.ctx → x.2.dev = s.ownNum → x.2.team < 2 ^ 40 → x.2.st = .held → tfind s.teams x.2.team = none →
          tfind s.tasks x.2.team = none → x.2.kind = .x → (x.1, { x.2 with st := .taint, hold := false, proxy := false }) ∈ t.circ) ∧
      ((∀ q ∈ s.queues, q.2.live = []) →
        (∀ x ∈ s.launches, x.2.st = .killed → ∀ c ∈ x.2.lcb.carry, c.2.valid = false) →
        let base := s.ctxField job.ctx 0x20 8
        let n := s.ctxField job.ctx 0x28 4
        let seq := (s.ctxOf job.ctx).killSeq
        (t.ctxOf job.ctx).killSeq = seq + 1 + job.copies.length ∧ (n = 0 → t.mem = s.mem) ∧
        (n ≠ 0 → job.copies = [] → job.code < 256 → job.detail < 256 → job.cause < 256 → job.lcb < 2 ^ 64 →
          let at_ := base + 64 * (seq % n)
          locDev at_ = none → locDev (at_ + 63) = none →
          readLe t.mem at_ 4 = seq % 2 ^ 32 ∧ readLe t.mem (at_ + 4) 1 = 1 ∧ readLe t.mem (at_ + 5) 1 = job.cause ∧
          readLe t.mem (at_ + 6) 1 = job.code ∧ readLe t.mem (at_ + 7) 1 = job.detail ∧
          readLe t.mem (at_ + 8) 4 = job.fdom % 2 ^ 32 ∧ readLe t.mem (at_ + 12) 4 = 0 ∧ readLe t.mem (at_ + 16) 8 = job.lcb ∧
          readLe t.mem (at_ + 24) 8 = job.pc % 2 ^ 64 ∧ (∀ o, 32 ≤ o → o < 64 → readByte t.mem (at_ + o) = 0) ∧
          ∀ a, a < at_ ∨ at_ + 64 ≤ a → readByte t.mem a = readByte s.mem a) ∧
        (∀ id c, 1 < n → job.copies = [(id, c)] →
          let at_ := base + 64 * ((seq + 1) % n)
          (∀ v, let r : State := { s with mem := writeLe s.mem (base + 64 * (seq % n)) v 64 }
            r.ctxField job.ctx 0x20 8 = base ∧ r.ctxField job.ctx 0x28 4 = n) →
          locDev at_ = none → locDev (at_ + 63) = none →
          readLe t.mem at_ 4 = (seq + 1) % 2 ^ 32 ∧ readLe t.mem (at_ + 4) 1 = 2 ∧ readLe t.mem (at_ + 8) 4 = c.fdom % 2 ^ 32))

/-- R196, R233, R396 steps 1 to 3: a resident team for which a frame is free is stopped and drains, with the waits that a pre-emption
withdraws withdrawn and its fragments otherwise as they were; one for which none is free stays. A team stuck in a blocking borrow asks for its pre-emption
where a frame is free for it. A trip that waits for the end of its cycle is raised first (R155). -/
def Rules.Preemptions : Prop :=
  ∀ (s : State) (k : Nat) (t : Team), tfind s.teams k = some t →
    let i := Instr.preemption k
    let cx := s.ctxOf t.ctx
    let frames := s.ctxField t.ctx 0x10 4
    let free (f : Nat) : Prop := f < frames ∧ f ∉ cx.frames
    let stops (w : Wait) : Prop := w = .slot ∨ (∃ n, w = .fifo n) ∨ ∃ n, w = .barrier n
    (t.st ≠ .resident ∨ (∀ f, ¬ free f) → ∃ u, exec i s = .next u ∧ u = { s with teams := u.teams } ∧
      tfind u.teams k = some { t with forBorrow := false } ∧ ∀ j, j ≠ k → tfind u.teams j = tfind s.teams j) ∧
    (t.st = .resident → (∃ f, free f) → s.groups.Pairwise (fun a b => a.1 ≠ b.1) →
      (∀ g ∈ s.groups, g.2.team = k → g.2.dueTrap = none) → (∀ x ∈ t.lowest, x.2.2.2.2 = false) → ∃ u f, exec i s = .next u ∧ free f ∧ u.mem = s.mem ∧
        tfind u.teams k = some { t with st := .draining, frame := f } ∧ (u.ctxOf t.ctx).frames = cx.frames ++ [f] ∧
        (∀ j, j ≠ k → u.teamOf j = s.teamOf j) ∧
        (∀ j g, tfind s.groups j = some g → g.team ≠ k → u.group j = g) ∧
        (∀ j g, tfind s.groups j = some g → g.team = k → (u.group j).regs = g.regs ∧ (u.group j).preds = g.preds ∧
          ∃ fs : List Frag, ((u.group j).cur :: (u.group j).rest).Perm fs ∧ (g.cur :: g.rest).Forall₂ (fun f f' =>
            f' = { f with wait := f'.wait, spilled := f'.spilled } ∧ (stops f.wait → f'.wait = .none) ∧ (¬ stops f.wait → f'.wait = f.wait)) fs) ∧
        (∀ x ∈ (s.clusterOf t.cluster).wc, x.2.leaving = false → .wcDrain t.cluster x.1 ∈ u.agenda) ∧ (u.drained k = true → .preemptSave k ∈ u.agenda)) ∧
    (s.borrowStuck k = true → (∃ f, free f) → .preemption k ∉ s.agenda → ∃ u, exec (.borrowWaitPreempt k) s = .next u ∧
      u = { s with teams := u.teams, agenda := s.agenda ++ [.preemption k] } ∧ tfind u.teams k = some { t with forBorrow := true } ∧
      ∀ j, j ≠ k → u.teamOf j = s.teamOf j) ∧
    (s.borrowStuck k = false ∨ (∀ f, ¬ free f) ∨ .preemption k ∈ s.agenda → exec (.borrowWaitPreempt k) s = .next s)

/-- R396 steps 4 to 6, R397, R398: once the drain is over the team's state stands in its frame: the header, the registers, predicates,
USER and trap registers of each group, the deferred traps aside, and the records of its banks; the team is saved, its groups hold nothing, and it is
queued to resume. A trip that waits for the end of its cycle is raised first (R155). With poisoned data in the team, issue from its domain stops
(R417). -/
def Rules.Saves : Prop :=
  ∀ (s : State) (k : Nat) (t : Team), tfind s.teams k = some t →
    let i := Instr.preemptSave k
    let due : Prop := ∃ x ∈ t.lowest, x.2.2.2.2 = true
    (t.st ≠ .draining ∨ s.drained k = false → ¬ due → exec i s = .next s) ∧
    (t.st = .draining → ¬ due → s.drained k = true → (∀ g ∈ t.g, g.2.kind = .empty ∨ g.2.peer = true) → s.carried = [] →
      let base := s.ctxField t.ctx 8 8 + 0x80000 * t.frame
      let reads (u : State) (o n v : Nat) : Prop := readLe u.mem (base + o) n = v % 256 ^ n
      ∃ u, exec i s = .next u ∧ (u.teamOf k).st = .saved ∧ (u.teamOf k).frame = t.frame ∧ (u.teamOf k).launch = t.launch ∧
        (u.teamOf k).ix = t.ix ∧ (u.teamOf k).g = [] ∧ (∀ j, j ≠ k → u.teamOf j = s.teamOf j) ∧ .resume k ∈ u.agenda ∧
        (∀ x ∈ u.groups, x.2.team = k → x.2.regs = [] ∧ x.2.preds = [] ∧ ∃ g, (x.1, g) ∈ s.groups ∧ x.2.exited = g.exited ∧
          x.2.absent = g.absent ∧ x.2.ord = g.ord) ∧
        (∀ x, x.2.team ≠ k → (x ∈ u.groups ↔ x ∈ s.groups)) ∧
        (t.soft ≠ [] ∨ (∃ g ∈ s.groups, g.2.team = k ∧ g.2.bad ≠ []) → (t.ctx, (s.launchOf t.launch).lcb.fdom) ∈ u.stopped) ∧
        ((s.frameFields k).Pairwise (fun a b => a.1 + a.2.2 ≤ b.1 ∨ b.1 + b.2.2 ≤ a.1) →
          reads u 0 4 0x31565358 ∧ reads u 4 2 t.size ∧ reads u 6 1 t.banks.length ∧ reads u 7 1 (t.scr / 1024) ∧
          reads u 8 8 (s.launchOf t.launch).lcb.addr ∧ reads u 0x10 8 t.ix ∧ reads u 0xC8 4 t.evstat.toNat ∧
          (∀ j, j < 6 → reads u (0x80 + 4 * j) 4 (tget 0 t.total j) ∧ reads u (0x98 + 4 * j) 4 (tget 0 t.window j) ∧
            reads u (0xB0 + 4 * j) 4 (tget 0 t.evth j).toNat) ∧
          (∀ j b, t.banks[j]? = some b →
            reads u (0x40 + 8 * j) 8 (b.mode.code + b.fifo.length * 2 ^ 16 + b.head % 2 ^ 16 * 2 ^ 32)) ∧
          ∀ p, p < t.size →
            let g := s.group (16 * k + p)
            let o := 0x400 + 0x2800 * p
            reads u (0x20 + p) 1 g.core ∧ (∀ x ∈ g.regs, reads u (o + 4 * x.1) 4 x.2.toNat) ∧
            (∀ j, j < 7 → reads u (o + 0x2400 + 4 * j) 4 (g.pred (j + 1)).toNat) ∧
            (∀ j, j < 4 → reads u (o + 0x2420 + 4 * j) 4 (tget 0 g.user j).toNat) ∧
            reads u (o + 0x2440) 4 g.tcause.toNat ∧ reads u (o + 0x2444) 4 g.tmask.toNat ∧ reads u (o + 0x2448) 4 g.tmode.toNat ∧
            reads u (o + 0x2450) 8 g.tpc.toNat ∧ reads u (o + 0x2458) 8 g.taddr.toNat))

/-- R399: a saved team that can be placed is resident again, on a cluster that can take it, with its groups as the frame holds them, and
the frame is free; a FIFO's head index is the frame's. While a team that holds item u of an ordered launch waits for residency, no other
resumes (R371). Memory changes only where the team takes the cluster's last cache way (R217). One that cannot be placed stays saved. The cluster is a free choice among those that the model considers (log 34). -/
def Rules.Resumes : Prop :=
  ∀ (s : State) (k : Nat) (t : Team), tfind s.teams k = some t →
    let i := Instr.resume k
    let base := s.ctxField t.ctx 8 8 + 0x80000 * t.frame
    let tags := (List.range t.size).map (fun p => readLe s.mem (base + (0x20 + p)) 1 % 4)
    let ends : Prop := t.forBorrow = true ∧ ∃ r ∈ s.reqs, r.2.team = k ∧ r.2.ended = none
    let low (x : Team) : Prop := (s.launchOf x.launch).ordered = true ∧
      (s.launchOf x.launch).low / 32 / (s.launchOf x.launch).lcb.teamSize = x.ix
    let behind : Prop := ¬ low t ∧ ∃ x ∈ s.teams, x.2.st = .saved ∧ low x.2 ∧
      ¬ (x.2.forBorrow = true ∧ ∃ r ∈ s.reqs, r.2.team = x.1 ∧ r.2.ended = none)
    (t.st ≠ .saved → exec i s = .next s) ∧ (ends ∨ behind → exec i s = .next s) ∧
    (t.st = .saved → ¬ ends → ¬ behind →
      (s.placesFor t tags = [] → ∃ u, exec i s = .next u ∧ u = { s with agenda := u.agenda }) ∧
      (s.placesFor t tags ≠ [] → (∀ r ∈ s.reqs, r.2.team ≠ k) → ∃ u x, exec i s = .next u ∧ x ∈ s.placesFor t tags ∧
        (∀ loc, u.homeByte loc ≠ s.homeByte loc →
          ∃ b ∈ (s.clusterOf x.1).cache, b.1 = loc ∧ b.2.dirty = true ∧ u.homeByte loc = b.2.val) ∧
        (u.teamOf k).st ≠ .saved ∧ (u.teamOf k).cluster = x.1 ∧ (u.teamOf k).ix = t.ix ∧ (u.teamOf k).launch = t.launch ∧
        (u.ctxOf t.ctx).frames = (s.ctxOf t.ctx).frames.erase t.frame ∧
        (∀ j b, (u.teamOf k).banks[j]? = some b → b.mode = .fifo →
          b.head = readLe s.mem (base + (0x40 + 8 * j)) 8 / 2 ^ 32 % 2 ^ 16 % 4096) ∧
        ∀ p, p < t.size → p < 16 →
          let g := u.group (16 * k + p)
          let o := base + (0x400 + 0x2800 * p)
          g.team = k ∧ g.core = tagCore x.2 (tags.getD p 0) ∧ g.ord = (s.group (16 * k + p)).ord ∧
          (∀ r l, r < 60 → l < 32 → g.reg r l = BitVec.ofNat 32 (readLe s.mem (o + 4 * (32 * r + l)) 4)) ∧
          (∀ j, j < 7 → g.pred (j + 1) = BitVec.ofNat 32 (readLe s.mem (o + 0x2400 + 4 * j) 4)) ∧
          (∀ j, j < 4 → tget 0 g.user j = BitVec.ofNat 32 (readLe s.mem (o + 0x2420 + 4 * j) 4)) ∧
          g.tpc.toNat = readLe s.mem (o + 0x2450) 8 ∧ g.taddr.toNat = readLe s.mem (o + 0x2458) 8))

/-! ### The device in its system -/

/-- R407 to R409: BIASCMD of one page. To host bias, a page outside the exported range is passed, one that a borrow covers stops the command
with ST 3 and is named, and another has its bit set; to device bias, a page already there completes the command and one in host bias
starts its back-invalidation. A page whose bit was written directly is what a command leaves it (R408). A command while one is in progress is ignored.
That a page outside the exported range is passed, and what a bit written directly reads as, are log 46. -/
def Rules.BiasCommands : Prop :=
  ∀ (s : State) (he v : Nat), he < 2 →
    let h := s.edge he
    let page := bits v 51 12
    let p := page - h.hdmBase / 4096
    let exported : Prop := h.hdmBase ≤ 4096 * page ∧ 4096 * page < h.hdmBase + h.hdmLen
    let meets (spans : List (Nat × Nat)) : Prop := ∃ x ∈ spans, linesMeet x.1 x.2 (4096 * page) 4096 = true
    let covered : Prop := (∃ e ∈ s.circ, e.2.st ≠ .taint ∧ meets e.2.spans) ∨ (∃ n, h.flipping = some (page, n)) ∨
      ∃ n ∈ h.waiting, ∃ x, tfind s.slips n = some x ∧ meets x.spans
    let sure : Prop := p ∉ h.direct ∧ (bit (readByte s.mem (h.biasBase + p / 8)).toNat (p % 8) = true ↔ p ∈ h.bias)
    let begun (x : HostEdge) : HostEdge := { x with biasCmd := v % 2 ^ 52, biasPage := 0 }
    let same (t : State) : Prop := t = { s with hostEdges := t.hostEdges } ∧ ∀ k, k ≠ he → t.edge k = s.edge k
    (h.biasSt = 1 → exec (.biasToDevice he v) s = .next s ∧ exec (.biasToHost he v) s = .next s) ∧
    (h.biasSt ≠ 1 → bit v 0 = true → bits v 11 1 = 0 →
      (¬ exported → ∃ t, exec (.biasToHost he v) s = .next t ∧ same t ∧ t.edge he = { begun h with biasSt := 2 }) ∧
      (exported → covered → ∃ t, exec (.biasToHost he v) s = .next t ∧ same t ∧
        t.edge he = { begun h with biasSt := 3, biasPage := page }) ∧
      (exported → ¬ covered → ∃ t, exec (.biasToHost he v) s = .next t ∧ (t.edge he).biasSt = 2 ∧
        (∀ a j, j < 8 → bit (readByte t.mem a).toNat j = if a = h.biasBase + p / 8 ∧ j = p % 8 then true else bit (readByte s.mem a).toNat j) ∧
        t.pageHost (t.edge he) page = true ∧ t.groups = s.groups)) ∧
    (h.biasSt ≠ 1 → bit v 0 = false → bits v 11 1 = 0 → h.flipping = none →
      (s.pageHost h page = false → ¬ exported ∨ sure → ∃ t, exec (.biasToDevice he v) s = .next t ∧ same t ∧
        t.edge he = { begun h with biasSt := 2, biasNext := page + 1 }) ∧
      (s.pageHost h page = false → exported → ¬ sure → ∃ t, exec (.biasToDevice he v) s = .next t ∧ (t.edge he).biasSt = 2 ∧
        p ∉ (t.edge he).direct ∧ p ∉ (t.edge he).bias ∧ bit (readByte t.mem (h.biasBase + p / 8)).toNat (p % 8) = false ∧
        t.groups = s.groups) ∧
      (s.pageHost h page = true → ∃ t, exec (.biasToDevice he v) s = .next t ∧ t.mem = s.mem ∧ (t.edge he).biasSt = 1 ∧
        (t.edge he).flipping = some (page, 64) ∧ .birspi he (h.cached.filter (fun x => x.1 / 4096 == page)) ∈ t.agenda))

/-- R409: the host's answer to a page's back-invalidation: its dirty bytes are at their homes, the page is in device bias, and the requests
that waited arrive again. -/
def Rules.BackInvalidations : Prop :=
  ∀ (s : State) (he : Nat),
    let h := s.edge he
    (∀ data, h.flipping = none → exec (.birspi he data) s = .next s) ∧
    ∀ page n, h.flipping = some (page, n) → h.biasSt ≠ 1 → h.again = [] → h.cached.Pairwise (fun a b => a.1 ≠ b.1) →
      (∀ m ∈ s.cmsgs, m.2.kind ≠ .writeBack) →
      let at_ := h.biasBase + (page - h.hdmBase / 4096) / 8
      let j := (page - h.hdmBase / 4096) % 8
      ∃ t, exec (.birspi he []) s = .next t ∧ (t.edge he).flipping = none ∧ (t.edge he).waiting = [] ∧
        (∀ x ∈ h.cached, x.1 / 4096 = page → x.1 ≠ at_ → t.homeByte x.1 = x.2) ∧
        (∀ x, x ∈ (t.edge he).cached ↔ x ∈ h.cached ∧ x.1 / 4096 ≠ page) ∧
        bit (readByte t.mem at_).toNat j = false ∧ t.pageHost (t.edge he) page = false ∧ (∀ m ∈ h.waiting, .req m ∈ t.agenda) ∧
        t.groups = s.groups

/-- R361, R376, R405 to R409, R415, R417: what the hosts and the control complex do to memory. A host's write of a line of exported memory stays in the host
where the page is in host bias and is performed at its home where it is not; the control complex writes DRAM at its home. A read brings the home's
value, or what the host itself holds; of a poisoned line it brings nothing, and at its home the control complex is interrupted. A read of register
space brings the topology block, the queues' registers, the system registers and the host edges'. -/
def Rules.OutsideAccesses : Prop :=
  ∀ (s : State) (port pa n v : Nat),
    let h := s.edge (port / 4)
    let a := pa / 64 * 64
    let exported : Prop := h.hdmBase ≤ 4096 * (a / 4096) ∧ 4096 * (a / 4096) < h.hdmBase + h.hdmLen
    let written (t : State) (b m : Nat) : Prop := (∀ i, i < m → t.homeByte (b + i) = BitVec.ofNat 8 (v / 256 ^ i)) ∧ t.groups = s.groups ∧
      t.circ = s.circ ∧ t.poison = s.poison
    let reads (t : State) (b m : Nat) (data : Option Nat) : Prop := t.groups = s.groups ∧ t.circ = s.circ ∧ t.poison = s.poison ∧
      (lineOf b ∈ s.poison → data = none ∧ { what := 14, a := lineOf b, b := 0, c := 0 } ∈ t.interrupts) ∧
      (lineOf b ∉ s.poison → data = some (t.homeLe b m)) ∧
      (tfind s.catalogue (pageKey b) = none → (s.cat (lineOf b)).st ≠ .ow → t.mem = s.mem)
    let whole : Prop := 0 < n ∧ n ≤ 64 ∧ pa / 64 = (pa + n - 1) / 64
    (∀ wr, 8 ≤ port ∨ tget Port.down s.ports port ≠ .cxl ∨ ¬ exported → exec (.cxlHostAccess port wr pa v) s = .next s) ∧
    (port < 8 → tget Port.down s.ports port = .cxl → exported →
      (s.pageHost h (a / 4096) = true → ∃ t x, exec (.cxlHostAccess port false pa v) s = .next t ∧ t = { s with hostEdges := t.hostEdges } ∧
        t.edge (port / 4) = { h with data := x } ∧ (lineOf a ∈ s.poison → x = none) ∧
        (lineOf a ∉ s.poison → ∃ y, x = some y ∧ y < 2 ^ 512 ∧
          ∀ i, i < 64 → y / 256 ^ i % 256 = ((tfind h.cached (a + i)).getD (s.homeByte (a + i))).toNat)) ∧
      (s.pageHost h (a / 4096) = false → ∃ t, exec (.cxlHostAccess port false pa v) s = .next t ∧ reads t a 64 (t.edge (port / 4)).data)) ∧
    (whole → s.isDram pa = true → ∃ t, exec (.ccAccess false pa n v) s = .next t ∧ reads t pa n t.cc.data) ∧
    (whole → s.isDram pa = false → isRegSpace pa = true → ∃ x, exec (.ccAccess false pa n v) s = .next { s with cc := { s.cc with data := some x } } ∧
      ∀ i, i < n →
        let at_ := pa + i
        let in_ (k : Nat) : Prop := Config.registerPage k ≤ at_ ∧ at_ < Config.registerPage k + 4096
        let holds (w j : Nat) : Prop := x / 256 ^ i % 256 = w / 256 ^ j % 256
        let o (k : Nat) : Nat := at_ - Config.registerPage k
        ((∀ k, k < 4 → ¬ in_ k) → x / 256 ^ i % 256 = (s.topologyByte (at_ - Config.regSpace)).toNat) ∧
        (in_ 0 → o 0 % 64 < 8 → holds (s.queueRead (o 0 / 64) 0) (o 0 % 64)) ∧
        (in_ 0 → 8 ≤ o 0 % 64 → holds (s.queueRead (o 0 / 64) (o 0 % 64 / 4 * 4)) (o 0 % 4)) ∧
        (¬ in_ 0 → in_ 1 → holds (s.sysPageRead (o 1 / 8)) (o 1 % 8)) ∧
        (¬ in_ 0 → ¬ in_ 1 → in_ 2 → holds (s.edgeRead 0 (o 2 / 8 * 8)) (o 2 % 8)) ∧
        (¬ in_ 0 → ¬ in_ 1 → ¬ in_ 2 → in_ 3 → holds (s.edgeRead 1 (o 3 / 8 * 8)) (o 3 % 8))) ∧
    (¬ whole ∨ (s.isDram pa = false ∧ isRegSpace pa = false) → exec (.ccAccess false pa n v) s = .next s) ∧
    (port < 8 → tget Port.down s.ports port = .cxl → exported →
      (s.pageHost h (a / 4096) = true → ∃ t, exec (.cxlHostAccess port true pa v) s = .next t ∧ t = { s with hostEdges := t.hostEdges } ∧
        (∀ i, i < 64 → tfind (t.edge (port / 4)).cached (a + i) = some (BitVec.ofNat 8 (v / 256 ^ i))) ∧
        ∀ x, x < a ∨ a + 64 ≤ x → tfind (t.edge (port / 4)).cached x = tfind h.cached x) ∧
      (s.pageHost h (a / 4096) = false → ∃ t, exec (.cxlHostAccess port true pa v) s = .next t ∧ written t a 64)) ∧
    (whole → s.isDram pa = true → ∃ t, exec (.ccAccess true pa n v) s = .next t ∧ written t pa n) ∧
    (¬ whole ∨ s.isDram pa = false → exec (.ccAccess true pa n v) s = .next s)

/-- R412: the SPDM requests on a port that answers them: version 1.3, the algorithms Falcon-1024 and SHAKE256 and no other, measurements of
indices 1 to 9, and no key exchange. The bodies of digests, certificates and signatures are free values of the model (log 2).
Which bits of a list offer the algorithms is log 45. -/
def Rules.Attestation : Prop :=
  ∀ (s : State) (port : Nat),
    let open_ : Prop := port = 8 ∨ port = 9 ∨ (port < 8 ∧ tget Port.down s.ports port ≠ .down)
    let answers (i : Instr) (P : SpdmAnswer → Prop) : Prop :=
      (¬ open_ → exec i s = .next s) ∧ (open_ → ∃ t x, exec i s = .next t ∧ P x ∧
        t = { s with spdm := s.spdm ++ [{ port := port, answer := x }], free := s.free + 1 })
    answers (.getVersion port) (fun x => x = .version 1 3) ∧ answers (.getCapabilities port) (fun x => x = .capabilities) ∧
    (∀ asym hash, answers (.negotiateAlgorithms port asym hash) (fun x => x = .algorithms (bit asym 0) (bit hash 0))) ∧
    answers (.getDigests port) (fun x => ∃ m, x = .digests m) ∧ answers (.getCertificate port) (fun x => ∃ m, x = .certificate m) ∧
    (∀ nonce, answers (.challenge port nonce) (fun x => ∃ m, x = .challengeAuth nonce m)) ∧
    (∀ k, answers (.getMeasurements port k) (fun x =>
      (k = 9 → x = .measurement 9 (Config.digest ((List.range 512).map s.topologyByte))) ∧
      (1 ≤ k → k ≤ 8 → ∃ m, x = .measurement k m) ∧ (k = 0 ∨ 9 < k → x = .refused))) ∧
    answers (.keyExchange port) (fun x => x = .refused)

/-- R18, R415: the machine after reset has the dies of a part that exists; and the topology block's first fields: its magic, the grade,
ready, the dies and clusters, the clock, and a bit for each die. -/
def Rules.Topology : Prop :=
  State.reset.topo.legal = true ∧ ∀ (s : State),
    let b (o : Nat) : Nat := (s.topologyByte o).toNat
    b 0 = 0x58 ∧ b 1 = 0x54 ∧ b 2 = 0x4F ∧ b 3 = 0x31 ∧ b 4 = (if s.topo.gradeB = true then 2 else 1) ∧
    b 5 = (if s.topo.ready = true then 1 else 0) ∧ b 6 + 256 * b 7 = s.cdies.length % 65536 ∧ b 8 + 256 * b 9 = s.nm % 65536 ∧
    b 0xA + 256 * b 0xB = 1920 ∧ b 0xC + 256 * b 0xD = 1900 ∧ b 0xE = 0 ∧ b 0xF = 0 ∧
    (∀ n, n < 320 → ((s.topologyByte (0x10 + n / 8)).getLsbD (n % 8) = true ↔ n < 288 ∧ s.topo.enabled n = true)) ∧
    b 0x38 + 256 * b 0x39 = s.topo.devNum.getD 0xFFFF % 65536 ∧ ∀ o, 0x200 ≤ o → b o = 0

/-- R243, R407, R412 to R414: reset, power-up and the links. Only with both roots of trust does the device leave reset; it then powers up in
twenty stages at the given times, and the topology block reports it ready with the last; a C-die's clusters take tasks from its column's wave on.
Above 38 kW the device throttles itself, until the draw falls below. The typical times are taken as the stages' times (log 38). What a reset leaves as
it is, of the part and its grade, is log 7; that memory then lists nothing is log 1. -/
def Rules.PowerAndLinks : Prop :=
  ∀ (s : State),
    (∃ t, exec (.reset true true) s = .next t ∧ t.awake = true ∧ t.stage = 0 ∧ t.cycle = 0 ∧ t.agenda = [.powerUpWave] ∧ t.mem = [] ∧
      t.groups = [] ∧ t.teams = [] ∧ t.launches = [] ∧ t.queues = [] ∧ t.circ = [] ∧ t.catalogue = [] ∧ t.spdm = [] ∧
      t.topo.ready = false ∧ t.topo.disabled = s.topo.disabled ∧ t.topo.gradeB = s.topo.gradeB ∧ t.topo.retired = s.topo.retired) ∧
    (∀ a b, (a && b) = false → ∃ t, exec (.reset a b) s = .next t ∧ t.awake = false ∧ t.agenda = [] ∧ t.mem = [] ∧ t.groups = [] ∧
      t.spdm = [{ port := 8, answer := .bootFailure }, { port := 9, answer := .bootFailure }]) ∧
    (s.awake = false ∨ 20 ≤ s.stage → exec .powerUpWave s = .next s) ∧
    (s.awake = true → s.stage < 20 →
      let at_ := if s.stage = 0 then 0 else if s.stage = 1 then 3800000 else 5700000 + 76000 * (s.stage - 2)
      ∃ t, exec .powerUpWave s = .next t ∧ t.stage = s.stage + 1 ∧ at_ ≤ t.cycle ∧ s.cycle ≤ t.cycle ∧ (t.cycle = at_ ∨ t.cycle = s.cycle) ∧
        ∃ more : List Event, (∀ e ∈ more, ∃ k, e = .teamStart k) ∧
        (s.stage < 19 → t.agenda = s.agenda ++ [.powerUpWave] ++ more ∧ t.topo = s.topo) ∧
        (s.stage = 19 → t.agenda = s.agenda ++ more ∧ t.topo = { s.topo with ready := true, generation := s.topo.generation + 2 })) ∧
    (∀ k t, tfind s.tasks k = some t → s.awake = true → s.stage ≤ 2 + t.cluster / 2048 % 18 → s.stage < 20 →
      ∃ u, exec (.teamStart k) s = .next u ∧ u.teams = s.teams ∧ u.groups = s.groups ∧ u.tasks = s.tasks) ∧
    (∀ draw, draw ≠ 38000 → exec (.powerMeter draw) s = .next { s with throttled := decide (38000 < draw) }) ∧
    exec (.powerMeter 38000) s = .next s ∧
    (∀ num devs, (num < 512 → devs ≤ 512 → 0 < devs → exec (.domainStart num devs) s =
        .next { s with topo := { s.topo with devNum := some num, devices := devs, generation := s.topo.generation + 2 } }) ∧
      (512 ≤ num ∨ 512 < devs ∨ devs = 0 → exec (.domainStart num devs) s = .next s)) ∧
    ∀ port st, (8 ≤ port → exec (.cxlHostLink port st) s = .next s) ∧
      (port < 8 → ∃ t, exec (.cxlHostLink port st) s = .next t ∧ t = { s with ports := t.ports } ∧
        ∀ k, tget Port.down t.ports k = if k = port then (if st = 1 then .cxl else if st = 2 then .pcie else .down) else tget Port.down s.ports k)

/-- R305, R417: soft errors. A corrected one changes nothing but its count; an uncorrectable one in a line poisons it, in the transfer unit
has the chunk sent again, in a register, scratch or bank word of a team poisons the word, and in a router or circulation table interrupts the control
complex. An instruction that would read a poisoned word does not act, and issue from its domain stops. -/
def Rules.SoftErrors : Prop :=
  ∀ (s : State) (pa : Nat),
    exec .correctedError s = .next { s with corrected := s.corrected + 1 } ∧
    (∃ t, exec (.uncorrectableError 0 pa) s = .next t ∧ t = { s with poison := t.poison } ∧
      ∀ l, l ∈ t.poison ↔ l ∈ s.poison ∨ l = pa / 128) ∧
    ((tfind s.chunks pa).isSome = true → exec (.uncorrectableError 1 pa) s = .next (s.owe (.chunkResend pa))) ∧
    (tfind s.chunks pa = none → exec (.uncorrectableError 1 pa) s = .next s) ∧
    (∀ w, w = 2 ∨ 6 < w → exec (.uncorrectableError w pa) s = .next (s.interrupt 13 pa 0 0)) ∧
    (∀ team w, w < 2 ^ 20 → (s.teamOf team).st ≠ .absent → (w < 0x8000 → s.hasGroup (16 * team + w / 0x800) = true) →
      ∃ t, exec (.uncorrectableError 3 (2 ^ 20 * team + w)) s = .next t ∧ t.bytesBad true team (4 * w) 4 = true ∧ t.mem = s.mem ∧
        (∀ k, (t.group k).regs = (s.group k).regs) ∧ ∀ v, v < 2 ^ 20 → v ≠ w → t.wordBad true team v = s.wordBad true team v) ∧
    (∀ team w, w < 2 ^ 20 → (s.teamOf team).st ≠ .absent →
      ∃ t, exec (.uncorrectableError 4 (2 ^ 20 * team + w)) s = .next t ∧ t.bytesBad false team (4 * w) 4 = true ∧ t.mem = s.mem ∧
        t.groups = s.groups) ∧
    ∀ (st : BitVec 3) (d a b : BitVec 6), ∀ i ∈ [Instr.fadd st d a b, .fsub st d a b, .fmul st d a b, .fmin st d a b, .fmax st d a b],
      s.et ∈ floatTypes → a.toNat < 60 → b.toNat < 60 → s.grp.cur.wait = .none → Unhindered s [a.toNat, b.toNat, d.toNat] →
      (∃ l, s.lanesT.getLsbD l = true ∧ (32 * a.toNat + l ∈ s.grp.bad ∨ 32 * b.toNat + l ∈ s.grp.bad)) →
      exec i s = .next (s.stopDomain (s.team.ctx, s.launch.lcb.fdom)).stand

/-! ### Routers, fabric and links -/

/-- R239: away from retirements, the channel that the buffered lane takes from an M-die toward another is one of the router's, brings the
packet nearer, and stays in the row while the columns differ by two or more. R238, R243: flits of a packet, on the panel and on the
fabric, for no data, for 32 bytes and for 128. -/
def Rules.Routes : Prop :=
  (∀ m d, m < 288 → d < 288 → isMdie m = true → isMdie d = true → m ≠ d →
    let c := laneChannel m d
    c ∈ channelsOf m ∧ dieHops c.2 d < dieHops m d ∧
    (2 ≤ (m % 18 - d % 18) + (d % 18 - m % 18) → c.2 / 18 = m / 18) ∧ (m % 18 = d % 18 → c.2 % 18 = m % 18)) ∧
  (∀ (s : State) m d down, s.topo.retired = [] → s.laneHop m d down = some (laneChannel m d, down)) ∧
  panelFlits 0 = 1 ∧ panelFlits 32 = 2 ∧ panelFlits 128 = 5 ∧ fabricFlits 0 = 1 ∧ fabricFlits 32 = 1 ∧ fabricFlits 128 = 3

/-- A packet of the deflection plane stands at an M-die's router in transit and is the first in rank of those there (R240). -/
def Rules.FirstAt (s : State) (die p : Nat) (k : Packet) : Prop :=
  tfind s.net.packets p = some k ∧ k.at_ = die ∧ k.path = [] ∧ k.fabric = false ∧ k.waiting = false ∧ k.cls ≠ 0 ∧
    s.net.packets.Pairwise (fun a b => a.1 ≠ b.1) ∧
    ∀ x ∈ s.net.packets, x.1 ≠ p → x.2.at_ = die → x.2.path = [] → x.2.fabric = false → x.2.waiting = false → x.2.cls ≠ 0 →
      s.outranks k x.2 = true ∧ s.outranks x.2 k = false

/-- A packet's flits, n at least, are in the replay buffer of a link, and one will be received (R247). -/
def Rules.Flying (t : State) (lk p n : Nat) : Prop :=
  n ≤ ((t.linkOf lk).buffer.filter (fun f => f.packet == p)).length ∧
    ∃ f ∈ (t.linkOf lk).buffer, f.packet = p ∧ .flitReceive lk f.seq true ∈ t.agenda

/-- What a packet brings about where it arrives: its event, or what its pieces of an access do. -/
def Rules.brings (s : State) (k : Packet) (e : Event) : Prop :=
  k.event = some e ∨ (k.event = none ∧ ∃ x, tfind s.txns k.txn = some x ∧
    e = if k.response = false then .homeRequest k.txn else if x.op = .store then .storeAck k.txn else .loadReply k.txn)

/-- A transit channel of a router that is in use. -/
def Rules.usableChannel (s : State) (die : Nat) (c : Nat × Nat) : Prop :=
  c ∈ channelsOf die ∧ s.linkLive (linkBetween die c.1) = true ∧ s.linkLive (linkBetween c.1 c.2) = true

/-- R237, R240 to R242: in a slot in which the deflection plane chooses first, the first packet in rank at a router takes a channel that
brings it nearer its destination where one is usable, and any usable one otherwise; where its route ends it leaves by the local
channel or the edge die's link, or is delivered; a request, of an access or of a copy's chunk, enters the queue of 64 of its home, an
M-die or a host edge die, of which one place is for the highest-ranked one refused, and is deflected where it has none. A packet at its
source enters only by a channel that brings it nearer, and else waits. A packet moves as one body, and which usable channel it takes is
the model's choice (log 8). -/
def Rules.Routers : Prop :=
  ∀ (s : State) (die p : Nat) (k : Packet),
    let i := Instr.packetArrive die
    let usable := Rules.usableChannel s die
    (isMdie die = false → exec i s = .next s) ∧
    (isMdie die = true → s.cycle % 8 ≠ 0 → Rules.FirstAt s die p k →
      let via := if k.via = some die then none else k.via
      let aim := via.getD k.dst
      let nearer (c : Nat × Nat) : Prop := usable c ∧ s.hopsTo c.2 aim < s.hopsTo die aim
      let goes (full : Bool) (P : Nat × Nat → Prop) : Prop := ∃ t c, exec i s = .next t ∧ P c ∧ tfind t.net.packets p = some
          { k with via := via, refused := full || k.refused, path := [linkBetween die c.1, linkBetween c.1 c.2], next := c.2 } ∧
        Rules.Flying t (linkBetween die c.1) p (panelFlits k.bytes) ∧ t.mem = s.mem ∧ t.groups = s.groups
      let here : Prop := via = none ∧ die ∈ s.landings k.dst
      let request : Prop := k.response = false ∧ (k.event = none ∨ ∃ n, k.event = some (.chunk n))
      let room : Prop := (s.queued k.dst).length < 63 ∨ ((s.queued k.dst).length < 64 ∧ ∀ j ∈ s.net.packets,
        j.2.refused = true → j.2.dst = k.dst → j.2.response = false → s.outranks j.2 k = false)
      let queues (t : State) : Prop := request → s.net.packets = [(p, k)] →
        tget [] t.net.queues k.dst = s.queued k.dst ++ [match k.event with | some (.chunk n) => n | _ => k.txn]
      (¬ here → (∃ c, nearer c) → goes false nearer) ∧ (¬ here → (∀ c, ¬ nearer c) → (∃ c, usable c) → goes false usable) ∧
      (here → k.dst ≠ die → k.dst < 298 → ¬ request ∨ room → ∃ t, exec i s = .next t ∧ queues t ∧
        tfind t.net.packets p = some { k with via := via, path := [linkBetween die k.dst], next := k.dst } ∧
        Rules.Flying t (linkBetween die k.dst) p (panelFlits k.bytes)) ∧
      (here → k.dst = die → s.deviceAnswers k.dstDev = true → ¬ request ∨ room → ∀ e, Rules.brings s k e → ∃ t, exec i s = .next t ∧
        queues t ∧ tfind t.net.packets p = none ∧ e ∈ t.agenda ∧ t.mem = s.mem ∧ t.groups = s.groups) ∧
      (here → k.dst < 298 → request → ¬ room → (∃ c, usable c) → goes true usable)) ∧
    (isMdie die = true → s.net.packets = [(p, k)] → k.at_ = die → k.path = [] → k.fabric = false → k.cls ≠ 0 → k.waiting = true →
      k.via ≠ some die → (k.via = none → die ∉ s.landings k.dst) →
      (k.srcDie = die ∨ linkBetween k.srcDie die ∈ (s.slots die).2) →
      let aim := k.via.getD k.dst
      let nearer (c : Nat × Nat) : Prop := usable c ∧ s.hopsTo c.2 aim < s.hopsTo die aim
      let local_ := if k.srcDie = die then [] else [linkBetween k.srcDie die]
      ((∃ c, nearer c) → ∃ t c, exec i s = .next t ∧ nearer c ∧ tfind t.net.packets p = some
        { k with path := local_ ++ [linkBetween die c.1, linkBetween c.1 c.2], next := c.2, waiting := false }) ∧
      ((∀ c, ¬ nearer c) → ∃ t, exec i s = .next t ∧ tfind t.net.packets p = some k))

/-- R237, R239, R244: in the slot in eight in which the buffered lane chooses first, the oldest packet of it at a router, unless an earlier
one of its virtual channel, source and destination stands there, takes the channel of its route where it is usable and the next input
has credit for its flits, and waits where it is not; where its route ends it leaves or is delivered. One that enters takes its local
channel too; one that has come over the fabric then returns the credit of its plane. -/
def Rules.BufferedLane : Prop :=
  ∀ (s : State) (die p : Nat) (k : Packet) (rest : List (Nat × Packet)), isMdie die = true → s.cycle % 8 = 0 →
    s.standing die true = (p, k) :: rest → s.net.packets.Pairwise (fun a b => a.1 ≠ b.1) → s.laneBehind p k = false →
    (k.waiting = false ∨ k.srcDie = die ∨ linkBetween k.srcDie die ∈ (s.slots die).2) →
    let i := Instr.packetArrive die
    let usable := Rules.usableChannel s die
    let enters := if k.waiting = true ∧ k.srcDie ≠ die then [linkBetween k.srcDie die] else []
    let ends : Prop := (k.via = none ∧ k.dst = die) ∨ ((k.via = some die ∨ (k.via = none ∧ isMdie k.dst = false)) ∧ die ∈ s.landings k.dst)
    let credit (c : Nat × Nat) : Prop := s.inputUsed (linkBetween c.1 c.2, die) k.vc + min 4 (panelFlits k.bytes) ≤ 4
    let returned (t : State) : Prop := rest = [] → ∀ a b pl, k.owes = some (a, b, pl) →
      tget [] t.net.used (creditKey a b pl) = (tget [] s.net.used (creditKey a b pl)).drop 1
    (k.via = none → k.dst = die → k.waiting = false → s.deviceAnswers k.dstDev = true → ∀ e, Rules.brings s k e → ∃ t, exec i s = .next t ∧
      tfind t.net.packets p = none ∧ e ∈ t.agenda ∧ t.mem = s.mem ∧ t.groups = s.groups) ∧
    (ends → ¬ (k.via = none ∧ k.dst = die) → enters = [] → k.dst < 298 → ∃ t, exec i s = .next t ∧ returned t ∧ tfind t.net.packets p = some
        { k with input := none, owes := none, path := [linkBetween die k.dst], next := k.dst, waiting := false } ∧
      Rules.Flying t (linkBetween die k.dst) p (panelFlits k.bytes)) ∧
    (¬ ends → ∀ c down, s.laneHop die (k.via.getD k.dst) k.down = some (c, down) →
      (usable c → credit c → ∃ t, exec i s = .next t ∧ returned t ∧ tfind t.net.packets p = some
          { k with input := some (linkBetween c.1 c.2, die), down := down, owes := none, waiting := false, next := c.2
                   path := enters ++ [linkBetween die c.1, linkBetween c.1 c.2] } ∧
        Rules.Flying t (enters.head?.getD (linkBetween die c.1)) p (panelFlits k.bytes) ∧ t.mem = s.mem ∧ t.groups = s.groups) ∧
      (¬ usable c ∨ ¬ credit c → ∃ t, exec i s = .next t ∧ tfind t.net.packets p = some k ∧ t.mem = s.mem ∧ t.groups = s.groups))

/-- R240, R241: a packet whose age reaches 2^19 units is marked OLD, and a source of the deflection plane that has waited 64 cycles to
inject stops injection. -/
def Rules.AgeAndStarvation : Prop :=
  ∀ (s : State) (n : Nat),
    let age (k : Packet) : Nat := (s.cycle / 64 % 2 ^ 20 + 2 ^ 20 - k.age) % 2 ^ 20
    let starves : Prop := ∃ x ∈ s.net.packets, x.2.waiting = true ∧ x.2.cls ≠ 0 ∧ x.2.at_ = n ∧ x.2.since + 64 ≤ s.cycle
    (tfind s.net.packets n = none → exec (.packetOld n) s = .next s) ∧
    (∀ k, tfind s.net.packets n = some k →
      (age k < 2 ^ 19 → exec (.packetOld n) s = .next s) ∧
      (2 ^ 19 ≤ age k → exec (.packetOld n) s = .next (s.putPacket n { k with old := true }))) ∧
    (n ∈ s.net.starving ∨ ¬ starves → exec (.injectStarve n) s = .next s) ∧
    (n ∉ s.net.starving → starves → ∃ t, exec (.injectStarve n) s = .next t ∧ t.net = { s.net with starving := s.net.starving ++ [n] } ∧
      .packetArrive n ∈ t.agenda ∧ t.mem = s.mem ∧ t.groups = s.groups)

/-- A fabric plane is in use: neither it nor a link of its port is retired. -/
def Rules.planeUp (s : State) (pl : Nat) : Prop :=
  s.topo.planes.getLsbD pl = true ∧ s.linkLive (1200 + 2 * pl) = true ∧ s.linkLive (1200 + 2 * pl + 1) = true

/-- R242, R244, R245, R416: a packet at the switch of its plane. On a retired plane it takes another one, of the edge die where one is
live. Of class A or V, and not outranked at its output, it leaves by it: into this device, to the device it is for, or on from its
intermediate device by a live plane of the same edge die; outranked, it is deflected, never waits, and stays what it was. Of class O it
waits without its pair's credit, and with it leaves by its output, or waits while an older one of class O asks for that. -/
def Rules.Switches : Prop :=
  ∀ (s : State) (p : Nat) (k : Packet),
    let i := Instr.fabricPacket p
    let out := k.viaDev.getD k.dstDev
    let won : Prop := ∀ x ∈ s.net.packets, x.1 ≠ p → x.2.fabric = true → x.2.at_ = 1000 → x.2.path = [] → x.2.plane = k.plane →
      x.2.viaDev.getD x.2.dstDev = out → (x.2.cls = 0 → x.2.credited = true → k.cls = 0 ∧ s.outranks x.2 k = false) ∧
        (x.2.cls ≠ 0 → k.cls ≠ 0 → s.outranks x.2 k = false)
    let kept (t : State) : Prop := t.mem = s.mem ∧ t.groups = s.groups
    let there : Prop := tfind s.net.packets p = some k ∧ k.fabric = true ∧ k.path = [] ∧ k.at_ = 1000
    let up := Rules.planeUp s
    let near (pl : Nat) : Prop := up pl ∧ pl / 8 = k.plane / 8
    let takes (P : Nat → Prop) : Prop := ∃ pl, P pl ∧ exec i s = .next ((s.putPacket p { k with plane := pl }).owe (.fabricPacket p))
    let comes (t : State) : Prop := tfind t.net.packets p = some
        { k with credited := false, path := [1200 + 2 * k.plane + 1], next := 290 + k.plane / 8, waiting := false } ∧
      Rules.Flying t (1200 + 2 * k.plane + 1) p (fabricFlits k.bytes)
    (tfind s.net.packets p = none → exec i s = .next s) ∧
    (tfind s.net.packets p = some k → k.fabric = false ∨ k.path ≠ [] → exec i s = .next s) ∧
    (there → ¬ up k.plane → ((∀ pl, ¬ up pl) → exec i s = .next s) ∧ ((∃ pl, near pl) → takes near) ∧
      ((∀ pl, ¬ near pl) → (∃ pl, up pl) → takes up)) ∧
    (there → up k.plane →
      (k.cls ≠ 0 → won → out = s.ownNum → ∃ t, exec i s = .next t ∧ kept t ∧ comes t) ∧
      (k.cls ≠ 0 → won → out ≠ s.ownNum → k.viaDev = none → ∃ t, exec i s = .next t ∧ tfind t.net.packets p = none ∧ kept t ∧
        (s.deviceAnswers k.dstDev = true → ∀ e, Rules.brings s k e → e ∈ t.agenda)) ∧
      (k.cls ≠ 0 → won → out ≠ s.ownNum → k.viaDev ≠ none → ∃ t pl, exec i s = .next t ∧ near pl ∧ kept t ∧
        tfind t.net.packets p = some { k with viaDev := none, plane := pl } ∧ .fabricPacket p ∈ t.agenda) ∧
      (k.cls ≠ 0 → ¬ won → ∃ t, exec i s = .next t ∧ kept t ∧ ∀ k', tfind t.net.packets p = some k' →
        (k'.path ≠ [] ∨ .fabricPacket p ∈ t.agenda) ∧ k'.age = k.age ∧ k'.old = k.old ∧ k'.txn = k.txn ∧ k'.pieces = k.pieces ∧
        k'.event = k.event ∧ k'.dst = k.dst ∧ k'.dstDev = k.dstDev) ∧
      (k.cls = 0 → k.credited = false →
        let key := creditKey k.srcDev k.dstDev k.plane
        6 < (tget [] s.net.used key).sum + fabricFlits k.bytes ∨ (∃ q, (tget [] s.net.held key).head? = some q ∧ q ≠ p) ∨
            s.slotTaken k.plane k.srcDev p = true →
          ∃ t, exec i s = .next t ∧ kept t ∧ tfind t.net.packets p = some k ∧ p ∈ tget [] t.net.held key) ∧
      (k.cls = 0 → k.credited = true → k.viaDev = none →
        (won → out = s.ownNum → ∃ t, exec i s = .next t ∧ kept t ∧ comes t) ∧
        (won → out ≠ s.ownNum → ∃ t, exec i s = .next t ∧ tfind t.net.packets p = none ∧ kept t ∧ .creditReturn out k.plane ∈ t.agenda ∧
          (s.deviceAnswers k.dstDev = true → ∀ e, Rules.brings s k e → e ∈ t.agenda)) ∧
        (¬ won → exec i s = .next (s.owe (.fabricPacket p)))))

/-- A packet of class A or V stands at a fabric edge and is the first in rank of those there (R245). -/
def Rules.FirstEdge (s : State) (p : Nat) (k : Packet) : Prop :=
  tfind s.net.packets p = some k ∧ k.fabric = true ∧ k.path = [] ∧ k.at_ ≠ 1000 ∧ k.cls ≠ 0 ∧ p < s.nextId ∧
    s.net.packets.Pairwise (fun a b => a.1 ≠ b.1) ∧
    ∀ x ∈ s.net.packets, x.1 ≠ p → x.2.at_ = k.at_ → x.2.path = [] → x.2.fabric = true → x.2.cls ≠ 0 →
      s.outranks k x.2 = true ∧ s.outranks x.2 k = false

/-- R244, R245, R416: packets at this device's fabric edge. The first in rank of class A or V there goes onto the panel over a free link
of the edge die where it is for this device, and else takes a free port: its own plane's where it is new there, else any. A new one
waits for a free port; any other leaves by a live plane of the die. Without one it goes over the panel to the edge of a live plane.
Class O for this device goes onto the panel by the buffered lane and owes its credit until then; for another it takes its pair's credit
of 6 flits in order and its slot, and leaves by its plane. Returned credit lets the first packet held for each pair of the plane try
again. That a link is free when its replay buffer is empty is the model's choice (log 8). -/
def Rules.FabricEdges : Prop :=
  ∀ (s : State) (p : Nat) (k : Packet),
    let i := Instr.fabricPacket p
    let there : Prop := tfind s.net.packets p = some k ∧ k.fabric = true ∧ k.path = [] ∧ k.at_ ≠ 1000 ∧ k.cls = 0 ∧ k.viaDev = none ∧ p < s.nextId
    let key := creditKey k.srcDev k.dstDev k.plane
    let n := fabricFlits k.bytes
    let used := tget [] s.net.used key
    let held := tget [] s.net.held key
    let via := if k.viaDev = some s.ownNum then none else k.viaDev
    let ours : Prop := k.dstDev = s.ownNum ∧ via = none
    let kept (t : State) : Prop := t.mem = s.mem ∧ t.groups = s.groups
    let free (m : Nat) : Prop := m ∈ s.landings k.at_ ∧ (s.linkOf (linkBetween k.at_ m)).buffer = []
    let up := Rules.planeUp s
    let near (pl : Nat) : Prop := up pl ∧ 290 + pl / 8 = k.at_
    let port (pl : Nat) : Prop := near pl ∧ (s.linkOf (1200 + 2 * pl)).buffer = []
    let leaves (P : Nat → Prop) : Prop := ∃ t pl, exec i s = .next t ∧ P pl ∧ kept t ∧ tfind t.net.packets p = some
        { k with viaDev := via, plane := pl, fresh := false, path := [1200 + 2 * pl], next := 1000, waiting := false } ∧
      Rules.Flying t (1200 + 2 * pl) p n
    let panel (t : State) (k' : Packet) : Prop := tfind t.net.packets s.nextId = some k' ∧ tfind t.net.packets p = none ∧ k'.fabric = false ∧
      k'.waiting = true ∧ k'.srcDie = k.at_ ∧ k'.cls = k.cls ∧ k'.event = k.event ∧ k'.txn = k.txn ∧ k'.pieces = k.pieces ∧
      k'.response = k.response ∧ k'.dstDev = k.dstDev ∧ k'.age = k.age ∧ k'.old = k.old ∧ .packetArrive k'.at_ ∈ t.agenda
    (Rules.FirstEdge s p k →
      (ours → (∃ m, free m) → ∃ t m, exec i s = .next t ∧ free m ∧ kept t ∧ tfind t.net.packets p = some
          { k with viaDev := none, fabric := false, fresh := false, path := [linkBetween k.at_ m], next := m, waiting := false } ∧
        (linkBetween k.at_ m < 1200 → Rules.Flying t (linkBetween k.at_ m) p (panelFlits k.bytes))) ∧
      (¬ ours ∨ (∀ m, ¬ free m) →
        (k.fresh = true → port k.plane → leaves (fun pl => pl = k.plane)) ∧
        (k.fresh = false ∨ ¬ port k.plane → (∃ pl, port pl) → leaves port) ∧
        ((∀ pl, ¬ port pl) → (∃ pl, near pl) → k.fresh = true → ∃ t, exec i s = .next t ∧ kept t ∧ tfind t.net.packets p = some k ∧
          .fabricPacket p ∈ t.agenda) ∧
        ((∀ pl, ¬ port pl) → (∃ pl, near pl) → k.fresh = false → leaves near) ∧
        ((∀ pl, ¬ near pl) → (∃ pl, up pl) → k.dstDev ≠ s.ownNum → ∃ t k', exec i s = .next t ∧ kept t ∧ panel t k' ∧ up k'.plane ∧
          k'.dst = 290 + k'.plane / 8))) ∧
    (there → k.dstDev = s.ownNum → k.srcDev ≠ s.ownNum → k.dst ≠ k.at_ → ∃ t k', exec i s = .next t ∧ kept t ∧ panel t k' ∧ k'.dst = k.dst ∧
      k'.owes = some (k.srcDev, k.dstDev, k.plane) ∧ tget [] t.net.used key = used) ∧
    (there → k.dstDev ≠ s.ownNum → k.credited = false → up k.plane →
      (held.head?.getD p = p → used.sum + n ≤ 6 → s.slotTaken k.plane k.srcDev p = false → ∃ t, exec i s = .next t ∧
        tfind t.net.packets p = some { k with credited := true, path := [1200 + 2 * k.plane], next := 1000, waiting := false } ∧
        tget [] t.net.used key = used ++ [n] ∧ Rules.Flying t (1200 + 2 * k.plane) p n ∧ kept t) ∧
      (held.head?.getD p ≠ p ∨ 6 < used.sum + n ∨ s.slotTaken k.plane k.srcDev p = true → ∃ t, exec i s = .next t ∧
        tfind t.net.packets p = some k ∧ p ∈ tget [] t.net.held key ∧ tget [] t.net.used key = used)) ∧
    ∀ dev plane, ∃ t, exec (.creditReturn dev plane) s = .next t ∧ t.mem = s.mem ∧ t.groups = s.groups ∧
      (∀ x, tget [] t.net.used x = if x = creditKey s.ownNum dev plane then (tget [] s.net.used x).drop 1 else tget [] s.net.used x) ∧
      ∀ x ∈ s.net.held, x.1 % 64 = plane → ∀ q, x.2.head? = some q → .fabricPacket q ∈ t.agenda

/-- R247: a link delivers each flit once and in order. A flit that its receiver does not expect yet waits for the earlier ones; one whose CRC
fails has the link replayed from it, in order; one that passes leaves the replay buffer, and with its packet's last the packet
stands at the next router or fabric edge, arrives, or crosses its next link, and goes another way where that one is retired (R416). -/
def Rules.Replay : Prop :=
  ∀ (s : State) (lk q : Nat) (ok : Bool),
    let l := s.linkOf lk
    let resent (t : State) (from_ : Nat) : Prop :=
      t.agenda = s.agenda.filter (fun e => match e with | .flitReceive k _ _ => k != lk | _ => true) ++
        ((l.buffer.filter (fun f => from_ ≤ f.seq)).map (fun f => .flitReceive lk f.seq true))
    ((∀ f ∈ l.buffer, f.seq ≠ q) ∨ l.retired = true → exec (.flitReceive lk q ok) s = .next s) ∧
    ((∃ f ∈ l.buffer, f.seq = q) → q ≠ l.expect → l.retired = false → exec (.flitReceive lk q ok) s = .next (s.owe (.flitReceive lk q ok))) ∧
    ((∃ f ∈ l.buffer, f.seq = q) → q = l.expect → l.retired = false →
      exec (.flitReceive lk q false) s = .next ((s.putLink lk { l with replays := l.replays + 1 }).owe (.replayRequest lk q))) ∧
    (∀ f rest, l.buffer = f :: rest → f.seq = q → q = l.expect → l.retired = false → ∃ t, exec (.flitReceive lk q true) s = .next t ∧
      t.mem = s.mem ∧ (t.linkOf lk).expect = q + 1 ∧ (t.linkOf lk).replays = 0 ∧
      (f.last = false → (t.linkOf lk).buffer = rest ∧ t.net.packets = s.net.packets) ∧
      ∀ k, f.last = true → tfind s.net.packets f.packet = some k →
        (k.path.drop 1 = [] → k.next < 288 → isMdie k.next = true → (t.linkOf lk).buffer = rest ∧
          tfind t.net.packets f.packet = some { k with path := [], at_ := k.next } ∧ .packetArrive k.next ∈ t.agenda) ∧
        (k.path.drop 1 = [] → 290 ≤ k.next → tfind t.net.packets f.packet = some
          { k with path := [], at_ := k.next, fabric := true, fresh := !k.fabric } ∧ .fabricPacket f.packet ∈ t.agenda) ∧
        (k.path.drop 1 = [] → k.next < 290 → isMdie k.next = false → s.deviceAnswers k.dstDev = true → tfind t.net.packets f.packet = none ∧
          ∀ e, Rules.brings s k e → e ∈ t.agenda) ∧
        ∀ lk2 more, k.path.drop 1 = lk2 :: more →
          (s.linkLive lk2 = true → tfind t.net.packets f.packet = some { k with path := lk2 :: more } ∧
            Rules.Flying t lk2 f.packet (if 1200 ≤ lk2 then fabricFlits k.bytes else panelFlits k.bytes)) ∧
          (s.linkLive lk2 = false → ∃ k', tfind t.net.packets f.packet = some k' ∧ k'.path = [] ∧ k'.at_ = k.at_ ∧ k'.event = k.event ∧
            k'.txn = k.txn ∧ k'.pieces = k.pieces ∧
            (if k'.fabric = true then .fabricPacket f.packet else .packetArrive k.at_) ∈ t.agenda)) ∧
    (16 ≤ l.replays → exec (.replayRequest lk q) s = .next (s.owe (.linkRetrain lk))) ∧
    (l.replays < 16 → ∃ t, exec (.replayRequest lk q) s = .next t ∧ t = { s with agenda := t.agenda } ∧ resent t q) ∧
    (l.retired = true → exec (.linkRetrain lk) s = .next s) ∧
    (l.retired = false → ∃ t, exec (.linkRetrain lk) s = .next t ∧ resent t l.expect ∧ t.net.packets = s.net.packets ∧ t.mem = s.mem ∧
      ∀ n, t.linkOf n = if n = lk then { l with replays := 0, retrained := l.retrained + 1 } else s.linkOf n)

/-- R248, R305, R416: a link that cannot be retrained is settled with every context halted: packets not received stand where they were,
or, where the sideband fails too, a chunk is sent again and anything else is reported and its fault domain killed. Then the link is
retired, its edge or plane named in the topology block, every standing packet goes on by the new routes, and the contexts resume. That
the routes are loaded in one event is the model's choice (log 39). -/
def Rules.LinkRetirement : Prop :=
  ∀ (s : State) (lk : Nat),
    let l := s.linkOf lk
    let known (c : Nat) : Prop := (∃ x ∈ s.ctxs, x.1 = c) ∨ ∃ x ∈ s.teams, x.2.ctx = c
    let gone (t : State) : Prop := (t.linkOf lk).retired = true ∧ .linkRetire lk ∈ t.agenda ∧ (t.linkOf lk).buffer = [] ∧ t.mem = s.mem
    (∃ t, exec (.linkSettle lk true) s = .next t ∧ gone t ∧ t.groups = s.groups ∧
      (∀ c, known c → (t.ctxOf c).halted = true) ∧
      (∀ c, c ∈ t.net.halting ↔ c ∈ s.net.halting ∨ (known c ∧ (s.ctxOf c).halted = false)) ∧
      ∀ f ∈ l.buffer, ∀ k, tfind s.net.packets f.packet = some k → ∃ k', tfind t.net.packets f.packet = some k' ∧
        (k'.fabric = true ↔ k.fabric = true ∨ 290 ≤ k.at_) ∧
        (k'.waiting = true ↔ k.srcDie ≠ k.at_ ∧ k.path.head? = some (linkBetween k.srcDie k.at_)) ∧
        k' = { k with path := [], input := none, fabric := k'.fabric, waiting := k'.waiting }) ∧
    (∃ t, exec (.linkSettle lk false) s = .next t ∧ gone t ∧
      ∀ f k, l.buffer = [f] → tfind s.net.packets f.packet = some k → tfind t.net.packets f.packet = none ∧
        (∀ n, k.event = some (.chunk n) → .chunkResend n ∈ t.agenda ∧ t.groups = s.groups) ∧
        ((∀ n, k.event ≠ some (.chunk n)) →
          (∃ x ∈ t.interrupts, x = { what := 12, a := lk, b := (k.issuer.getD (0, 0)).1, c := (k.issuer.getD (0, 0)).2 }) ∧
          ∀ c d, k.issuer = some (c, d) → ∃ j ∈ t.kill, j.ctx = c ∧ (j.whole = true ∨ j.fdom = d))) ∧
    (∃ t, exec (.linkRetire lk) s = .next t ∧ t.mem = s.mem ∧ (t.linkOf lk).retired = true ∧
      t.topo.generation = s.topo.generation + 2 ∧ s.topo.disabled = t.topo.disabled ∧
      (∀ e, e ∈ t.topo.retired ↔ e ∈ s.topo.retired ∨ (lk < 1084 ∧ e = lk / 2)) ∧
      (∀ p, p < 64 → (t.topo.planes.getLsbD p = true ↔ s.topo.planes.getLsbD p = true ∧ ¬ (1200 ≤ lk ∧ p = (lk - 1200) / 2))) ∧
      t.net.halting = [] ∧ (∀ c ∈ s.net.halting, (t.ctxOf c).halted = false) ∧
      (∀ c, c ∉ s.net.halting → t.ctxOf c = s.ctxOf c) ∧
      (∀ n g, tfind s.groups n = some g → (s.teamOf g.team).ctx ∉ s.net.halting → tfind t.groups n = some g) ∧
      ∀ p k, tfind s.net.packets p = some k → k.path = [] → (k.fabric = true → .fabricPacket p ∈ t.agenda) ∧
        (k.fabric = false → ∃ k', tfind t.net.packets p = some k' ∧ k' = { k with at_ := k'.at_, down := false } ∧
          (k.waiting = false → k'.at_ = k.at_) ∧ .packetArrive k'.at_ ∈ t.agenda))
/-! ### Admission, latency and the whole machine -/

/-- R24, R26, R27, R33, R35: before an instruction acts: an element type outside its column traps with ILLEGAL_MODE, 2; a field that must
name a pair under a 64-bit type and does not, with ILLEGAL_INSTRUCTION, 3; while SCHK is 1 a source whose counted gap falls short, with
STALL_SHORT and its code, first in field order; and a register that an incomplete instruction is to write holds it back. Neither meets a fragment whose instruction
has issued already and goes on. -/
def Rules.Admission : Prop :=
  ∀ (s : State) (st : BitVec 3) (d a b : BitVec 6),
    (∀ i ∈ [Instr.add st d a b, .sub st d a b, .mul st d a b, .min st d a b, .max st d a b, .and st d a b, .or st d a b, .xor st d a b,
        .shl st d a b, .shr st d a b],
      let pairs : Prop := s.wide = true → isPair d.toNat = true ∧ isPair a.toNat = true ∧ isPair b.toNat = true
      let srcs := [a.toNat, b.toNat].flatMap (regs s.wide) ++ [64 + s.grp.cur.gp]
      let short (c : Nat) : Prop := ∃ e ∈ s.grp.owed, e.code = c
      (8 ≤ s.et → exec i s = .next (s.trap 2 2)) ∧ (s.et < 8 → ¬ pairs → exec i s = .next (s.trap 1 3)) ∧
      (s.et < 8 → pairs →
        (s.goesOn = false → ∀ before c after, s.ctx.exctl.getLsbD 0 = true → srcs = before ++ c :: after → short c → (∀ x ∈ before, ¬ short x) →
          exec i s = .next (s.trap 3 c)) ∧
        (s.goesOn = false → s.ctx.exctl.getLsbD 0 = false ∨ (∀ c ∈ srcs, ¬ short c) → (∃ c ∈ srcs ++ regs s.wide d.toNat, ∃ x ∈ s.grp.busy, x.1 = c) →
          exec i s = .next s.stand))) ∧
    ∀ i ∈ [Instr.fadd st d a b, .fsub st d a b, .fmul st d a b], s.et < 8 ∨ 10 < s.et → exec i s = .next (s.trap 2 2)

/-- R25: a result of latency L written by a word of stall count st leaves a counted gap of L - (1 + st) slots where L is more, those of
earlier words shrink by 1 + st, and the group's next issue is 1 + st slots of two cycles later (the clock by log 5). -/
def Rules.CountedGaps : Prop :=
  ∀ (s : State) (st : BitVec 3) (d a b : BitVec 6), IntReady s intTypes d.toNat [a.toNat, b.toNat] → d.toNat < 59 →
    ∀ f ∈ [(Instr.add st d a b, 1, 2), (.sub st d a b, 1, 2), (.mul st d a b, 3, 5), (.min st d a b, 1, 2), (.and st d a b, 1, 2)],
    let lat := if s.wide = true then f.2.2 else f.2.1
    let n := 1 + st.toNat
    ∃ t, exec f.1 s = .next t ∧ t.cycle = s.cycle + 2 * n ∧
      (∀ e ∈ s.grp.owed, n < e.left → ∃ x ∈ t.grp.owed, x.code = e.code ∧ x.left = e.left - n ∧ x.due = e.due) ∧
      (∀ e ∈ t.grp.owed, (∃ x ∈ s.grp.owed, n < x.left ∧ e = { x with left := x.left - n, lanes := e.lanes } ∧
          ∀ l, e.lanes.getLsbD l = true → x.lanes.getLsbD l = true) ∨
        (n < lat ∧ e.code ∈ regs s.wide d.toNat ∧ e.left = lat - n ∧ e.lanes = s.lanesT)) ∧
      (n < lat → ∀ r ∈ regs s.wide d.toNat, ∃ e ∈ t.grp.owed, e.code = r ∧ e.left = lat - n ∧ e.due = s.cycle + 2 * lat ∧ e.lanes = s.lanesT ∧
        ∀ l, s.lanesT.getLsbD l = true → tget 0 e.old l = s.grp.reg r l)

/-- R28: while SCHK is 0 a lane that reads a register before its producer's latency has passed reads, lane by lane, the value before the
producer's write or the one after it. -/
def Rules.EarlyReads : Prop :=
  ∀ (s : State) (st : BitVec 3) (d a : BitVec 6) (e : Owed),
    s.ctx.exctl.getLsbD 0 = false → s.wide = false → a.toNat < 60 → s.grp.owed = [e] → e.code = a.toNat → s.grp.busy = [] → s.grp.foot = [] →
    ∃ t, exec (.mov st d a) s = .next t ∧
      (∀ l, s.lanesT.getLsbD l = true → t.grp.reg d.toNat l = s.grp.reg a.toNat l ∨
        (e.lanes.getLsbD l = true ∧ t.grp.reg d.toNat l = tget 0 e.old l)) ∧
      Completes s t [d.toNat] s.lanesT []

/-- Every step keeps memory (R212, R405) in its canonical form, which is the model's own representation (log 1). -/
def Rules.StepKeepsMemoryWf : Prop :=
  ∀ s t : State, Memory.wf s.mem = true → step s = .next t → Memory.wf t.mem = true

/-- Memory right after reset is in its canonical form, and lists nothing: every byte reads the model's choice (log 1). -/
def Rules.ResetMemoryWf : Prop := Memory.wf State.reset.mem = true ∧ ∀ a, readByte State.reset.mem a = Config.ramByte

/-- R373, R374, R377, R386, R389: an instruction of a fragment at user level in a context that is not a system context leaves every context's EXCTL,
handles, symmetric entries and halt as they are, and so the registers of the control complex, the launch queues and the topology; `brk` alone, where BRKH is set and a lane is
guarded-on, as the guard is then read (R28), halts a context, its own. -/
def Rules.UserLevelIsConfined : Prop :=
  ∀ (i : Instr) (s t : State), i.isEvent = false → s.grp.cur.handler = false → s.isSystem s.team.ctx = false → exec i s = .next t →
    let breaks : Prop := (∃ st n, i = .brk st n) ∧ s.ctx.exctl.getLsbD 1 = true ∧
      (s.lanesT ≠ 0 ∨ ∃ e ∈ s.grp.owed, e.code = 64 + s.grp.cur.gp)
    (∀ c, (t.ctxOf c).exctl = (s.ctxOf c).exctl ∧ (t.ctxOf c).handles = (s.ctxOf c).handles ∧ (t.ctxOf c).syms = (s.ctxOf c).syms ∧
      (¬ (breaks ∧ c = s.team.ctx) → (t.ctxOf c).halted = (s.ctxOf c).halted)) ∧ t.cc = s.cc ∧ t.queues = s.queues ∧ t.topo = s.topo

/-- R87: `nop` has no effect beyond its slot and its stall count; `nop !7` encodes as 0x1780_0006. -/
def Rules.NoOperation : Prop :=
  decode 0x17800006 = .ok (.nop 7) ∧ encode (.nop 7) = 0x17800006 ∧
    ∀ (s : State) (st : BitVec 3), ∃ t, exec (.nop st) s = .next t ∧ Passes s t []

/-! ### Where instructions and events complete -/

/-- R34, R165, R177, R178: `pub` of a lane of T whose value is not published yet sets its flag and sends the value; `cdef` with the slot's
own distance binds the slot; a value that no item consumes goes nowhere, another sets out, and one that comes where its consumer is resident goes
to that cluster's carry buffer while it has room; one in the spill area is asked for, answered, and fetched. -/
def Rules.CarriesComplete : Prop :=
  ∀ (s : State) (a d n : BitVec 6) (m : BitVec 2) (k : BitVec 10),
    let slot (j : Nat) : CarrySlot := tget {} s.launch.lcb.carry j
    let placed (t : State) (l i j : Nat) (p : CarryPlace) : Prop :=
      ∀ c ∈ t.carried, c.launch = l → c.item = i → c.slot = j → c.place = p
    (Ready s [a.toNat] [] → s.lanesT ≠ 0 → s.launch.ordered = true → n.toNat < 4 → (slot n.toNat).valid = true →
      s.lanesT &&& tget 0 s.grp.pub n.toNat = 0 → s.returning = false → ∃ t, exec (.pub a n) s = .next t ∧
        tget 0 t.grp.pub n.toNat = tget 0 s.grp.pub n.toNat ||| s.lanesT ∧
        ∀ l, s.lanesT.getLsbD l = true → .carryMessage s.team.launch (32 * s.grp.ord + l) n.toNat ∈ t.agenda) ∧
    (Ready s [] [] → s.lanesT ≠ 0 → s.launch.ordered = true → (slot m.toNat).valid = true → k.toNat + 1 = (slot m.toNat).k →
      ∃ t, exec (.cdef d m k) s = .next t ∧
        ∀ l, s.lanesT.getLsbD l = true → tfind t.grp.bind (32 * m.toNat + l) = some d.toNat) ∧
    ∀ l i j : Nat,
      let dest := i + (tget ({} : CarrySlot) (s.launchOf l).lcb.carry j).k
      let all (p : CarryPlace) : Prop := (∃ c ∈ s.carried, c.launch = l ∧ c.item = i ∧ c.slot = j) ∧
        ∀ c ∈ s.carried, c.launch = l → c.item = i → c.slot = j → c.place = p
      let goes (a : Instr) (p : CarryPlace) : Prop := ∃ t, exec a s = .next t ∧ placed t l i j p
      (all .sent ∨ all .moving → (s.launchOf l).items ≤ dest → goes (.carryMessage l i j) .nowhere) ∧
      (dest < (s.launchOf l).items → (all .sent → goes (.carryMessage l i j) .moving) ∧
        (all .moving → ∀ h g, s.holder l dest = some (h, g) →
          let cl := (s.teamOf g.team).cluster
          (s.carried.filter (fun c => c.place == .buffer cl)).length < Config.carryPlaces → goes (.carryMessage l i j) (.buffer cl))) ∧
      ∀ h, s.hasGroup h = true → (s.teamOf (s.group h).team).launch = l → (s.teamOf (s.group h).team).st = .resident →
        (all .spill → goes (.carryFetch l i j h) .asked) ∧ (all .asked → goes (.carryFetch l i j h) .coming) ∧
        (all .coming → goes (.carryFetch l i j h) (.fetched (s.teamOf (s.group h).team).cluster))

/-- R293, R295, R299, R300, R302: a copy whose descriptor is sound and whose operands serve it, while nothing holds it, stands in the copy
table and its instruction goes on; the bytes of `cpl` and `cpb` move by its accesses. -/
def Rules.CopiesEnter : Prop :=
  ∀ (s : State) (d a b : BitVec 6), Ready s (operandCodes d.toNat ++ operandCodes a.toNat ++ quadRegs b.toNat) [] → s.fullyOn = true →
    s.lanesT ≠ 0 →
    let w (j l : Nat) : Nat := (s.source (b.toNat + j) l).toNat
    let so (l : Nat) : Nat := w 0 l + w 1 l % 2 ^ 8 * 2 ^ 32
    let started (c : Nat) : Prop := c / 2 ^ 31 = 1 → (tget ({} : Barrier) s.team.w (c / 2 ^ 24 % 16)).init = true
    let plain (c : Nat) : Prop := c / 2 ^ 30 % 4 ≠ 1 ∧ c / 2 ^ 28 % 4 = 0 ∧ c / 2 ^ 16 % 16 = 0
    let serves (o p n : Nat) : Prop := Rules.operandServes s a.toNat false o n ∧ Rules.operandServes s d.toNat true p n
    let l := lowest s.lanesT
    let enters (i : Instr) : Prop := ∃ t, exec i s = .next t ∧ (tfind t.copies s.nextId).isSome = true ∧
      tget 0 t.grp.count 4 = tget 0 s.grp.count 4 + 1 ∧ t.grp.cur.pc = s.grp.cur.pc + 4
    (let n (x : Nat) : Nat := 2 ^ (w 3 x / 2 ^ 8 % 16)
     let p (x : Nat) : Nat := w 2 x + w 3 x % 2 ^ 8 * 2 ^ 32
     let ls := lanesOf s.lanesT
     let c := { s.copyOf .cpl a.toNat d.toNat (ctrlOf (w 3 l)) with
       pieces := ls.flatMap (fun x => s.movePieces x a.toNat (so x) d.toNat (p x) [(0, n x)])
       ranges := ls.map (fun x => (x, s.operandAddr a.toNat (so x), n x)), bytes := (ls.map n).sum,
       strong := (ls.flatMap (fun x => s.movePieces x a.toNat (so x) d.toNat (p x) [(0, n x)])).any (fun q => q.stype == 3 || q.dtype == 3) }
     (∀ x, s.lanesT.getLsbD x = true → w 1 x / 2 ^ 8 = 0 ∧ w 3 x / 2 ^ 12 % 16 = 0 ∧ w 3 x / 2 ^ 8 % 16 ≤ 4 ∧ so x % n x = 0 ∧ p x % n x = 0 ∧
       serves (so x) (p x) (n x)) → plain (w 3 l) → w 3 l / 2 ^ 20 % 16 = 0 → started (w 3 l) →
     s.transferHeld c (ls.map (fun x => (s.operandAddr a.toNat (so x), n x))) (ls.map (fun x => (s.operandAddr d.toNat (p x), n x))) = false →
       enters (.cpl d a b)) ∧
    ∀ f ∈ ([(.cpb d a b, .cpb, .store, [0]), (.cprAdd d a b, .cpr, .add, List.range 8), (.cprMin d a b, .cpr, .min, List.range 8),
        (.cprMax d a b, .cpr, .max, List.range 8), (.cprFadd d a b, .cpr, .fadd, [8, 9, 10])] :
        List (Instr × CopyKind × AccOp × List Nat)),
      let n := w 1 l / 2 ^ 8 * 16
      let p := w 2 l + w 3 l % 2 ^ 8 * 2 ^ 32
      let ps := s.movePieces l a.toNat (so l) d.toNat p ((List.range (n / 16)).map (fun j => (16 * j, 16)))
      let c := { s.copyOf f.2.1 a.toNat d.toNat (ctrlOf (w 3 l)) with
        op := f.2.2.1, pieces := ps, ranges := if f.2.1 = .cpb then [(l, s.operandAddr a.toNat (so l), n)] else [], bytes := n,
        strong := ps.any (fun q => q.stype == 3 || q.dtype == 3) }
      w 3 l / 2 ^ 8 % 256 = 0 → n ≠ 0 → so l % 16 = 0 → p % 16 = 0 → plain (w 3 l) → w 3 l / 2 ^ 20 % 16 ∈ f.2.2.2 → started (w 3 l) →
      serves (so l) p n → s.transferHeld c [(s.operandAddr a.toNat (so l), n)] [(s.operandAddr d.toNat p, n)] = false →
        enters f.1

/-- R322, R324 to R326: with nothing in flight that it covers and no commons write to sweep, a fence passes; `fencei` also leaves no word of
the code range in the cluster's instruction cache and none in the group's buffer. R390, R391: in a system context `preempt` passes with its
request made, and `tlbi` passes with the translations removed when no walk that began before it is in progress. -/
def Rules.FencesPass : Prop :=
  (∀ (s : State) (a b : BitVec 6), s.isSystem s.team.ctx = true → s.active ≠ 0 →
    (ReadyAll s [a.toNat] [] → ∃ t, exec (.preempt a) s = .next t ∧ Passes s t []) ∧
    (ReadyAll s (regs true a.toNat) [] →
      ((∀ ws, s.grp.cur.wait ≠ .flush ws) → (∀ x ∈ s.walks, x.2.done = true) → ∃ s' t, exec (.tlbi a b) s = .next t ∧ Passes s' t [] ∧
        s' = { s with clusters := s'.clusters } ∧ ∀ j, ∀ p ∈ (s'.clusterOf j).tlb, p ∈ (s.clusterOf j).tlb ∧ (b = 1 → p.ctx ≠ s.team.ctx)) ∧
      ∀ ws, s.grp.cur.wait = .flush ws → (∀ x ∈ s.walks, x.2.done = true ∨ x.1 ∉ ws) → ∃ t, exec (.tlbi a b) s = .next t ∧ Passes s t [])) ∧
  ∀ (s : State) (a b : BitVec 6) (r : BitVec 2) (k : BitVec 3), s.grp.sweeping = none →
    let cover (range : Option (Nat × Nat)) : Cover := { classes := k.toNat, loads := r.getLsbD 0, stores := r.getLsbD 1, range := range }
    let all : Cover := { classes := 7, loads := true, stores := true }
    let clear (c : Cover) : Prop := s.coveredInFlight c = false ∧ s.grp.coveredWrites c = []
    let base := s.operand true a.toNat (lowest s.active)
    let len := s.operand true b.toNat (lowest s.active)
    (Ready s [] [] → clear (cover none) → ∃ t, exec (.fence r k) s = .next t ∧ Passes s t []) ∧
    (Ready s [] [] → clear all → ∃ t, exec .fencei s = .next t ∧ t.grp.cur.pc = s.grp.cur.pc + 4 ∧ t.grp.ibuf = [] ∧
      ∀ x ∈ t.cluster.icache, inSpans (pageSpans s.launch.pins s.launch.lcb.codeBase s.launch.lcb.codeLen) x.1 = false) ∧
    (ReadyAll s (regs true a.toNat ++ regs true b.toNat) [] → s.active ≠ 0 → base + len ≤ 2 ^ 64 → clear (cover (some (base, len))) →
      ∃ t, exec (.fencer a b r k) s = .next t ∧ Passes s t [])

/-- R334, R349, R350: while there is room, `mzero`, `macc` and `mma` (with loaded slots of matching shapes and a format word that names
them) enter the engine's queue, and the engine will look at it. -/
def Rules.EngineOperationsEnter : Prop :=
  ∀ (s : State) (d a b : BitVec 6) (c : BitVec 5), s.fullyOn = true → s.team.matrix = true → s.lanesT ≠ 0 →
    let e := s.grp.core / 2
    s.cluster.reserve.length < Config.reservations → (s.cluster.reserve.filter (fun r => r.engine == e)).length < 12 →
    let enters (i : Instr) (P : EngOp → Prop) : Prop := ∃ t r, exec i s = .next t ∧ r ∈ t.cluster.reserve ∧ P r.op ∧ r.engine = e ∧
      r.group = s.cur ∧ r.id = s.nextId ∧ .passGrant s.team.cluster e ∈ t.agenda ∧ t.grp.cur.pc = s.grp.cur.pc + 4
    (Ready s [] [] → enters (.mzero d) (· = .zero d.toNat) ∧ enters (.macc d a) (· = .acc d.toNat a.toNat)) ∧
    (Ready s [c.toNat] [] →
      let ka := 8 * s.grp.core + a.toNat
      let kb := 8 * s.grp.core + b.toNat
      let x : OpSlot := tget {} s.cluster.slots ka
      let y : OpSlot := tget {} s.cluster.slots kb
      let ra := x.shape.toNat
      let rb := y.shape.toNat
      let f := (s.source c.toNat (lowest s.lanesT)).toNat
      let cls (r : Nat) : Nat := match r / 2 ^ 27 % 8 with | 0 | 1 => 0 | 2 | 5 => 1 | 3 | 6 => 2 | _ => 3
      x.st = .loaded → y.st = .loaded → x.busy = false → y.busy = false → ra / 2 ^ 30 = 0 → rb / 2 ^ 30 = 1 → ra % 16 = rb % 16 →
      f / 2 ^ 26 = 0 → f / 2 ^ 10 % 64 = 0 → f / 2 ^ 8 % 4 = 0 → f % 8 = ra / 2 ^ 27 % 8 → f / 8 % 2 = ra / 2 ^ 26 % 2 →
      f / 16 % 8 = rb / 2 ^ 27 % 8 → f / 128 % 2 = rb / 2 ^ 26 % 2 → cls ra = cls rb → ra / 2 ^ 26 % 2 = rb / 2 ^ 26 % 2 →
        enters (.mma d a b c) (fun op => ∃ u v, op = .pass d.toNat ka kb s.grp.core (s.source c.toNat (lowest s.lanesT)) u v))

/-- R85, R109, R154, R219, R221, R250, R382: a deferred trap that is due is taken; a yield ends; a counting window is zero again; the pieces of a
load under X or S that have arrived are served; an access whose last reply is in is complete; a write-combining line leaves, and drains at
its home; a walk ends; a division leaves the divider. -/
def Rules.AccessEventsComplete : Prop :=
  ∀ (s : State) (k : Nat),
    (∀ d, (s.group k).dueTrap = some d → exec (.deferredTrap k) s = .next
      (({ s with cur := k }.setGrp { s.group k with deferred := (s.group k).deferred.erase d }).trapWith d.code d.detail 0 (d.code != 0x38))) ∧
    ((s.group k).yielded ≠ 0 → ∃ t, exec (.yieldEnd k) s = .next t ∧ (t.group k).yielded = 0) ∧
    (∀ c, (s.teamOf k).st ≠ .absent → ∃ t, exec (.eventWindowReset k c) s = .next t ∧ tget 0 (t.teamOf k).window c = 0) ∧
    (∀ x, tfind s.txns k = some x → x.noBorrow = false → x.lost = false →
      (x.kind ≠ .c → x.op = .load → s.picks = [] → (∀ p ∈ x.lanes, lineOf p.loc ∉ s.poison) →
        (∀ p ∈ x.lanes, x.waits p = true → p.going = false ∧ s.answers p.loc = true ∧ s.behindOlder k x p = false) →
        ∃ t y, exec (.homeRequest k) s = .next t ∧ tfind t.txns k = some y ∧ ∀ p ∈ y.lanes, y.waits p = false) ∧
      (x.src = none → x.copy = none → x.trap = none → s.hasGroup x.group = true → (∀ p ∈ x.lanes, p.arrived = true) →
        ∃ t, exec (if x.op = .store then .storeAck k else .loadReply k) s = .next t ∧ tfind t.txns k = none ∧
          ∀ b ∈ (t.group x.group).busy, b.2 ≠ k)) ∧
    (∀ n l, tfind (s.clusterOf k).wc n = some l → ∃ t, exec (.wcDrain k n) s = .next t ∧
      tfind (t.clusterOf k).wc n = if l.leaving = true then none else some { l with leaving := true }) ∧
    (∀ w j, tfind s.walks k = some w → w.group = some j → s.hasGroup j = true →
      ∃ t v, exec (.tableWalkEnd k) s = .next t ∧ tfind t.walks k = some v ∧ v.done = true) ∧
    (∀ core op ops, tget [] (s.clusterOf k).divq core = op :: ops → op.due ≤ s.cycle → s.hasGroup op.group = true →
      ∃ t, exec (.dividerComplete k core) s = .next t ∧ tget [] (t.clusterOf k).divq core = ops ∧
        ∀ b ∈ (t.group op.group).busy, b.2 ≠ op.id)

/-- R186 to R190, R197, R198, R203, R204, R208: the slips of the circulation protocol where nothing waits at the home: a request that may be
granted has its entry; grants, refusals, recalls and answers reach their request; and what a holder gives up, returns, lowers, raises
or moves is so at the home. -/
def Rules.SlipsComplete : Prop :=
  ∀ (s : State) (n : Nat) (x : Slip),
    let home (t : State) (P : Circ → Prop) : Prop :=
      ∀ e ∈ t.circ, e.2.home = x.home → e.2.handle = x.handle → e.2.st = .held → P e.2
    let quiet : Prop := (∀ e ∈ s.circ, e.2.st ≠ .waiting) ∧ s.foreign x = false
    let alive (r : Request) : Prop := (tfind s.teams r.team).isSome = true ∨ 2 ^ 40 ≤ r.team
    (∀ r, Rules.Taken s n 1 x → tfind s.reqs x.req = some r → s.foreign x = false → s.hostBiased (if x.home < 288 then x.spans else []) = none →
      s.grantable x.req r x.home x.spans = true → s.placesUsed x.home < tableSize x.home → ∃ t, exec (.req n) s = .next t ∧
        ∃ e ∈ t.circ, e.2.req = x.req ∧ e.2.home = x.home ∧ e.2.kind = r.kind ∧ e.2.spans = x.spans) ∧
    (∀ r, tfind s.reqs x.req = some r → r.ended = none →
      (Rules.Taken s n 2 x → alive r → x.home ∉ r.early → (∃ h ∈ r.owing, h ≠ x.home) → exec (.grant n) s = .next { s with
        slips := tdel s.slips n
        reqs := tput s.reqs x.req { r with owing := r.owing.filter (· != x.home), granted := r.granted ++ [x.home] } }) ∧
      (Rules.Taken s n 2 x → x.home ∉ r.early → (∀ h ∈ r.owing, h = x.home) → r.purpose = .bor → s.hasGroup r.group = true →
        (s.teamOf r.team).st = .resident → ∃ t, exec (.grant n) s = .next t ∧ tfind t.reqs x.req = none ∧
          tfind t.pins s.freshHandle = some r.pins) ∧
      (Rules.Taken s n 3 x → r.purpose = .bor → s.hasGroup r.group = true → (s.teamOf r.team).st = .resident →
        ∃ t, exec (.refuse n) s = .next t ∧ tfind t.reqs x.req = none) ∧
      (Rules.Taken s n 4 x → x.home ∉ r.granted → x.home ∈ r.owing → exec (.recall n) s = .next { s with
        slips := tdel s.slips n, reqs := tput s.reqs x.req { r with early := r.early ++ [x.home] } })) ∧
    (Rules.Taken s n 5 x → x.flags / 4 % 2 = 0 → (∀ e ∈ s.circ, e.2.st ≠ .waiting) → ∃ t, exec (.giveup n) s = .next t ∧
      ∀ e ∈ t.circ, e.2.req = x.req → e.2.home = x.home → e.2.st = .taint) ∧
    (Rules.Taken s n 6 x → quiet → (s.req x.req).backs = [] → ∃ t, exec (.retSlip n) s = .next t ∧
      home t (fun e => ∀ loc, inSpans x.spans loc = true → inSpans e.spans loc = false)) ∧
    (Rules.Taken s n 7 x → quiet → ∃ t, exec (.down n) s = .next t ∧ home t (fun e => e.kind = .s)) ∧
    (Rules.Taken s n 8 x → quiet → s.heldAbroad { s.req x.req with kind := .x } x.home x.spans = false →
      (∀ e ∈ s.circ, e.2.st = .taint ∨ (e.2.home = x.home ∧ e.2.handle = x.handle)) → ∃ t, exec (.up n) s = .next t ∧
        home t (fun e => e.kind = .x)) ∧
    (Rules.Taken s n 9 x → quiet → ∃ t, exec (.reloc n) s = .next t ∧ home t (fun e => e.die = x.die ∧ e.cluster = x.cluster)) ∧
    (Rules.Taken s n 10 x → ∃ t, exec (.hold n) s = .next t ∧
      ∀ e ∈ t.circ, e.2.home = x.home → e.2.proxy = true → e.2.die = x.die → e.2.spans = x.spans → e.2.hold = true) ∧
    (∀ r, Rules.Taken s n 11 x → tfind s.reqs x.req = some r → alive r → (∃ h ∈ r.owing, h ≠ x.home) → ∃ t q, exec (.ack n) s = .next t ∧
      tfind t.reqs x.req = some q ∧ x.home ∉ q.owing) ∧
    (∀ r, Rules.Taken s n 11 x → tfind s.reqs x.req = some r → alive r → (∀ h ∈ r.owing, h = x.home) → r.purpose = .down ∨ r.purpose = .ret →
      ∃ t, exec (.ack n) s = .next t ∧ tfind t.reqs x.req = none) ∧
    (∀ y, tfind s.slips n = some y → y.status = 0x100 → ∃ t, exec (.slipResend n) s = .next t ∧
      tfind t.slips n = some { y with status := 0 })

/-- R266, R271 to R274, R278: the messages of the commons protocol: an invalidated copy is gone, an owner's line is forwarded with its data or,
gone, said to be so, a written-back line is at its home, a recalled page is returned, a refused request tries again, and a sweep's marker
is acknowledged and its acknowledgement counted. -/
def Rules.CommonsMessagesComplete : Prop :=
  ∀ (s : State) (n : Nat) (m : CMsg), tfind s.cmsgs n = some m →
    (m.kind = .invalidate → ∃ t, exec (.invalidate n) s = .next t ∧ tfind t.cmsgs n = none ∧
      ∀ k, k / 2048 = m.die → s.owns k m.line = false → ∀ b ∈ (t.clusterOf k).cache, b.2.commons = true → lineOf b.1 ≠ m.line) ∧
    (m.kind = .forward → s.owns m.cluster m.line = true →
      (∃ b ∈ (s.clusterOf m.cluster).cache, b.2.commons = true ∧ lineOf b.1 = m.line) → ∃ t, exec (.forward n) s = .next t ∧
        ((t.cat m.line).st = if (tget {} s.txns m.txn).shares = true then .sh else .h) ∧
        ∃ id u, tfind t.cmsgs id = some u ∧ u.kind = .writeBack ∧ u.line = m.line ∧ u.answer = true) ∧
    (m.kind = .gone → s.cmsgs.Pairwise (fun a b => a.1 ≠ b.1) → (s.cat m.line).st = .ow → s.backsOf m.line = [] → ∃ t, exec (.gone n) s = .next t ∧
      (t.cat m.line).st = .h ∧ (t.cat m.line).busy = false) ∧
    (m.kind = .writeBack → m.data.Pairwise (fun a b => a.1 ≠ b.1) → ∃ t, exec (.writeBack n) s = .next t ∧
      ∀ x ∈ m.data, t.homeByte x.1 = x.2) ∧
    (m.kind = .pageRecall → m.answer = false → ∃ t, exec (.pageRecall n) s = .next t ∧
      ((locDev (128 * m.line)).isSome = true → tfind t.pages (128 * m.line / 4096) = none) ∧
      ∃ id u, tfind t.cmsgs id = some u ∧ u.kind = .pageRecall ∧ u.line = m.line ∧ u.answer = true) ∧
    (∀ y, m.kind = .resend → tfind s.chunks m.txn = none → tfind s.txns m.txn = some y →
      (∃ p ∈ y.lanes, y.waits p = true ∧ p.going = false ∧ lineOf p.loc = m.line) → ∃ t, exec (.commonsResend n) s = .next t ∧
        (.homeRequest m.txn ∈ t.agenda ∨ ∃ k ∈ t.net.packets, k.2.txn = m.txn ∧ k.2.response = false ∧ k.2.event = none)) ∧
    (m.kind = .marker → 1000 ≤ m.home ∨ m.dies = [] → ∃ t, exec (.sweepMarker n) s = .next t ∧
      ∃ id a, tfind t.cmsgs id = some { m with kind := .sweepAck, age := some a }) ∧
    (m.kind = .sweepAck → ∀ w, tfind s.sweeps m.sweep = some w → ∃ t, exec (.sweepAck n) s = .next t ∧ tfind t.cmsgs n = none ∧
      ∀ v, tfind t.sweeps m.sweep = some v → m.ackCode ∉ v.owing)

/-- R239 to R248, R416: a packet of the buffered lane that stands alone at its destination is delivered; an old one is marked; a source that
starves stops injection; a packet of class A or V alone at its plane's switch goes on; credit comes back; and a link receives its next flit,
replays, is retrained, settled and retired. -/
def Rules.NetworkEventsComplete : Prop :=
  ∀ (s : State) (n lk : Nat) (k : Packet),
    let l := s.linkOf lk
    (∀ e, s.net.packets = [(n, k)] → isMdie k.at_ = true → k.path = [] → k.fabric = false → k.waiting = false → k.cls = 0 → k.via = none →
      k.dst = k.at_ → s.deviceAnswers k.dstDev = true → k.event = some e → ∃ t, exec (.packetArrive k.at_) s = .next t ∧
        tfind t.net.packets n = none ∧ e ∈ t.agenda) ∧
    (tfind s.net.packets n = some k → 2 ^ 19 ≤ s.ageUnits k → exec (.packetOld n) s = .next (s.putPacket n { k with old := true })) ∧
    (n ∉ s.net.starving → (∃ x ∈ s.net.packets, x.2.waiting = true ∧ x.2.cls ≠ 0 ∧ x.2.at_ = n ∧ x.2.since + 64 ≤ s.cycle) →
      ∃ t, exec (.injectStarve n) s = .next t ∧ n ∈ t.net.starving) ∧
    (s.net.packets = [(n, k)] → k.fabric = true → k.path = [] → k.at_ = 1000 → Rules.planeUp s k.plane → k.cls ≠ 0 →
      k.viaDev = none → k.dstDev = s.ownNum → ∃ t j, exec (.fabricPacket n) s = .next t ∧ tfind t.net.packets n = some j ∧
        j.path = [1200 + 2 * k.plane + 1] ∧ j.next = 290 + k.plane / 8) ∧
    (∀ dev plane, ∃ t, exec (.creditReturn dev plane) s = .next t ∧
      tget [] t.net.used (creditKey s.ownNum dev plane) = (tget [] s.net.used (creditKey s.ownNum dev plane)).drop 1) ∧
    (∀ f rest, l.buffer = f :: rest → l.expect = f.seq → l.retired = false → f.last = false →
      ∃ t, exec (.flitReceive lk f.seq true) s = .next t ∧ (t.linkOf lk).buffer = rest ∧ (t.linkOf lk).expect = f.seq + 1) ∧
    (l.replays < 16 → ∀ q, ∃ t, exec (.replayRequest lk q) s = .next t ∧
      ∀ f ∈ l.buffer, q ≤ f.seq → .flitReceive lk f.seq true ∈ t.agenda) ∧
    (l.retired = false → ∃ t, exec (.linkRetrain lk) s = .next t ∧ (t.linkOf lk).replays = 0 ∧ (t.linkOf lk).retrained = l.retrained + 1) ∧
    (∃ t, exec (.linkSettle lk true) s = .next t ∧ (t.linkOf lk).buffer = [] ∧ .linkRetire lk ∈ t.agenda) ∧
    ∃ t, exec (.linkRetire lk) s = .next t ∧ (t.linkOf lk).retired = true

/-- R246, R301 to R305, R334, R350: a `bor` that the reach limit ends, a chunk at its home, on its way back and sent again, a closed
record, a copy that completes, and the engine's grants and completions. -/
def Rules.TransferEventsComplete : Prop :=
  ∀ (s : State) (n : Nat),
    (∀ r, tfind s.txns n = none → tfind s.reqs n = some r → r.ended = none → s.unanswered n r = true → r.purpose = .bor → s.hasGroup r.group = true →
      (s.teamOf r.team).st = .resident → ∃ t, exec (.reachLimit n) s = .next t ∧ tfind t.reqs n = none) ∧
    (∀ k c, tfind s.chunks n = some k → tfind s.copies k.copy = some c → c.killed = false →
      (c.dstKind ≠ .c → tfind s.streams (4096 * k.copy + k.home) = none → s.streamsAt k.home + 1 < Config.dedupRecords → k.low = k.tag →
        ∃ t, exec (.chunk n) s = .next t ∧ ∃ r, tfind t.streams (4096 * k.copy + k.home) = some r ∧ r.base = k.tag ∧ r.map.getLsbD 0 = true) ∧
      (k.tag ∉ c.acked → c.acked.length + 1 = (chunkLists c.pieces).length → ∃ t, exec (.chunkAck n) s = .next t ∧
        tfind t.chunks n = none ∧ .copyComplete k.copy ∈ t.agenda) ∧
      (k.refused = true → exec (.chunkRetry n) s = .next
        ({ s with chunks := tput s.chunks n { k with low := c.low } }.sendChunk n { k with low := c.low } false (.chunk n))) ∧
      (s.unsent n = false → ∃ t, exec (.chunkResend n) s = .next t ∧
        tfind t.chunks n = some { k with low := c.low, resent := k.resent + 1, issued := s.cycle })) ∧
    (∀ st, ∃ t, exec (.close n st) s = .next t ∧ tfind t.streams (4096 * st + n) = none) ∧
    (∀ c, tfind s.copies n = some c → c.killed = false → c.kind = .cpl ∨ c.kind = .cpb → c.asked = true → c.writing = true →
      s.hasGroup c.group = true → (∀ u ∈ s.txns, u.2.copy ≠ some n) → ∃ t, exec (.copyComplete n) s = .next t ∧ tfind t.copies n = none) ∧
    ∀ e r,
      (s.idleSlot = false → s.nextGrant n e = some r → (∃ d, r.op = .zero d) → exec (.passGrant n e) s = .next
        ((s.putReserve n { r with granted := true }).owe (.passComplete n e))) ∧
      (∀ d, s.granted n e = some r → r.op = .zero d → ∃ t, exec (.passComplete n e) s = .next t ∧
        ∀ i, i < 256 → (tget ({} : Engine) (t.clusterOf n).engines e).acc d i = 0) ∧
      ((tget ({} : Engine) (s.clusterOf n).engines e).ramping = true → ∃ t, exec (.rampEnd n e) s = .next t ∧
        (tget ({} : Engine) (t.clusterOf n).engines e).ramping = false ∧ .passGrant n e ∈ t.agenda) ∧
      (∀ d sa sb k w u v, s.granted n e = some r → r.op = .pass d sa sb k w u v → r.read = none → ∃ t, exec (.computePhaseEnd n e) s = .next t ∧
        .passComplete n e ∈ t.agenda ∧ ∃ q ∈ (t.clusterOf n).reserve, q.id = r.id ∧ q.read.isSome = true)

/-- R56, R359, R362, R365: launch queues: a sound entry in its turn that nothing holds is consumed, a LAUNCH makes its launch; and the queue
registers take what is written. -/
def Rules.QueueEventsComplete : Prop :=
  ∀ (s : State) (n v : Nat), n < 64 →
    let q := s.queue n
    let consumed (t : State) : Prop := (t.queue n).head = (q.head + 1) % 2 ^ 32
    (∀ x, s.entry n = some x → s.entryCause q x = 0 → s.inTurn n = true → bit (fieldAt x 1 1) 0 = false ∨ q.live = [] →
      let ty := fieldAt x 0 1
      let addr := fieldAt x 8 8
      let val := fieldAt x 16 8
      (ty = 4 → ∃ t, exec (.nopEntry n) s = .next t ∧ consumed t) ∧
      (ty = 3 → (s.counterPage q.ctx addr true).isSome = true → ∃ t, exec (.signalEntry n) s = .next t ∧ consumed t) ∧
      (∀ pa, ty = 2 → ((q.waiting = true ∧ pa = q.waitAt) ∨
          (q.waiting = false ∧ ∃ p, s.counterPage q.ctx addr false = some p ∧ pa = p.at_ addr)) → val ≤ s.latestLe pa 8 →
        (∃ t, exec (.waitEntry n) s = .next t ∧ consumed t) ∧
        (q.waiting = true → ∃ t, exec (.waitRecheck n) s = .next t ∧ consumed t)) ∧
      ∀ l pins, ty = 1 → s.resolve q.ctx addr true = some (l, pins) → l.prio ≤ q.pcap → l.done = 0 →
        s.recordFree (s.lcbHome q.ctx addr) = true → s.rangeRoom s.nextId { lcb := l, items := val, die := s.cdies.headD 0 : Launch } = true →
        ∃ t ln, exec (.launchEntry n) s = .next t ∧ consumed t ∧ tfind t.launches s.nextId = some ln ∧ ln.items = val ∧ ln.ctx = q.ctx) ∧
    (q.en = true → bit v 31 = true → ∃ t, exec (.qctlWrite n v) s = .next t ∧ (t.queue n).pcap = bits v 30 28) ∧
    ((v % 2 ^ 32 + 2 ^ 32 - q.head) % 2 ^ 32 ≤ 2 ^ q.log2n → ∃ t, exec (.qtailWrite n v) s = .next t ∧ (t.queue n).tail = v % 2 ^ 32) ∧
    (q.halt = true → ∃ t, exec (.haltClear n) s = .next t ∧ (t.queue n).halt = false) ∧
    (q.ovf = true → ∃ t, exec (.ovfClear n) s = .next t ∧ (t.queue n).ovf = false)

/-- R255, R374, R377, R393, R396: what the control complex writes takes effect: queue bases, handles, exports, taint clearing, a kill and its
completion, RUN, PREQ and the commands of symmetric borrows. -/
def Rules.ControlEventsComplete : Prop :=
  ∀ (s : State) (n v : Nat),
    let c := s.cc.ctxsel
    let e := s.sym c s.cc.symsel
    let ctx := bits v 19 0
    let fdom := bits v 63 32
    let whole := bit v 31
    let run := v % 2 ^ 20
    (n < 64 → (s.queue n).en = false → ∃ t, exec (.registerWrite 1 n v) s = .next t ∧ (t.queue n).base = v % 2 ^ 64 / 64 * 64) ∧
    exec (.phloWrite v) s = .next { s with cc := { s.cc with phlo := v % 2 ^ 64 } } ∧
    (∃ t, exec (.phhiWrite v) s = .next t ∧
      tget {} (t.ctxOf c).handles s.cc.phsel = { lo := handleLow s.cc.phlo, hi := v % 2 ^ 52 }) ∧
    exec (.exloWrite v) s = .next { s with cc := { s.cc with exlo := v % 2 ^ 64 } } ∧
    (∃ t, exec (.exhiWrite v) s = .next t ∧ tget {} t.exps s.cc.exsel = { lo := exportLow s.cc.exlo, hi := v % 2 ^ 64 }) ∧
    (∃ t, exec (.taintClear v) s = .next t ∧ t.cc.tclrlen = v % 2 ^ 64 ∧ .taintClearDone ∈ t.agenda) ∧
    (∀ base len rest, s.cc.clears = (base, len) :: rest → ∃ t, exec .taintClearDone s = .next t ∧ t.cc.clears = rest ∧
      (rest = [] → t.cc.tclrlen = 0) ∧ ∀ x ∈ t.circ, x.2.st = .taint → x.2.home < 1000 → spansInside x.2.spans base len = false) ∧
    (v < 2 ^ 64 → (∀ j ∈ s.kill, j.ctx ≠ ctx) → ∃ t, exec (.kill v) s = .next t ∧ .killComplete ∈ t.agenda ∧
      (∀ x ∈ t.teams, ¬ Rules.Doomed s ctx fdom whole x.1) ∧ ∃ j ∈ t.kill, j.ctx = ctx ∧ j.fdom = fdom ∧ j.whole = whole ∧ j.cause = 1) ∧
    (∀ j js, s.kill = j :: js → ∃ t, exec .killComplete s = .next t ∧ t.kill = js ∧
      { what := 8, a := j.ctx, b := j.fdom, c := j.cause } ∈ t.interrupts) ∧
    ((s.ctxOf run).halted = true → ∃ t, exec (.run v) s = .next t ∧ (t.ctxOf run).halted = false) ∧
    (v < 2 ^ 20 → bits v 19 9 < 1920 → bits v 8 0 ∈ s.cdies → ∃ t, exec (.preq v) s = .next t ∧
      ∀ x ∈ s.teams, x.2.cluster = 2048 * bits v 8 0 + bits v 19 9 → x.2.st = .resident → .preemption x.1 ∈ t.agenda) ∧
    (let len := s.cc.symlen / 2 ^ 7 % 2 ^ 34 * 128
     let kind := kindOf (s.cc.symlen / 4 % 4)
     let pages := collectPages (s.walkPage c) (len / 4096 + 2) s.cc.symbase (s.cc.symbase + len)
     let parts := s.partsOf (pageSpans pages.1 s.cc.symbase len)
     s.cc.symBusy = false → s.cc.badTake e = false → (∀ p ∈ pages.1, p.permits kind = true) → pages.2 = none → parts ≠ [] →
       s.symConflict c kind parts = false → ∃ t, exec .symcmdTake s = .next t ∧
         ∃ r, tfind t.reqs s.nextId = some r ∧ r.purpose = .sym c s.cc.symsel ∧ r.kind = kind ∧ r.base = s.cc.symbase ∧ r.len = len) ∧
    (s.cc.symBusy = false → e.kind ≠ .empty → (∀ x ∈ s.launches, x.2.st = .none ∨ x.2.ctx ≠ c) → ∃ t, exec .symcmdReturn s = .next t ∧
      ∃ r, tfind t.reqs s.nextId = some r ∧ r.purpose = .sym c s.cc.symsel ∧ r.kind = .empty ∧ r.handle = e.handle) ∧
    ∀ (k : Nat) (r : Request) (x y : Nat),
      s.reqs.find? (fun z => (match z.2.purpose with | .sym _ _ => z.2.ended.isSome | _ => false)) = some (k, r) → r.purpose = .sym x y →
      r.kind ≠ .empty → r.ended.getD 0 ≤ 1 → ∃ t, exec .symTakeEnd s = .next t ∧ tfind t.reqs k = none ∧
        t.cc.symBusy = false ∧ t.cc.symStatus = 0 ∧
        t.sym x y = { kind := r.kind, base := r.base, len := r.len, cls := r.cls, handle := r.handle }

/-- R243, R305, R406 to R409, R412 to R414, R417: bias commands of one page, the host's answer to a back-invalidation, outside writes and
reads, SPDM requests on the sideband, reset, power-up, links, and soft errors. -/
def Rules.HostEventsComplete : Prop :=
  ∀ (s : State) (he port pa n v : Nat),
    let h := s.edge he
    let page := bits v 51 12
    let a := pa / 64 * 64
    let exported (p : Nat) (x : HostEdge) : Prop := x.hdmBase ≤ 4096 * p ∧ 4096 * p < x.hdmBase + x.hdmLen
    let answers (i : Instr) (x : SpdmAnswer) : Prop :=
      exec i s = .next { s with spdm := s.spdm ++ [{ port := port, answer := x }], free := s.free + 1 }
    (he < 2 → h.biasSt ≠ 1 → bits v 11 1 = 0 → h.flipping = none →
      (bit v 0 = false → s.pageHost h page = false → ∃ t, exec (.biasToDevice he v) s = .next t ∧ (t.edge he).biasSt = 2) ∧
      (bit v 0 = false → s.pageHost h page = true → ∃ t, exec (.biasToDevice he v) s = .next t ∧ (t.edge he).biasSt = 1 ∧
        (t.edge he).flipping = some (page, 64)) ∧
      (bit v 0 = true → exported page h → (∀ e ∈ s.circ, e.2.st = .taint) → h.waiting = [] →
        ∃ t, exec (.biasToHost he v) s = .next t ∧ (t.edge he).biasSt = 2 ∧ t.pageHost (t.edge he) page = true)) ∧
    (∀ p m, h.flipping = some (p, m) → h.biasSt ≠ 1 → h.again = [] → ∃ t, exec (.birspi he []) s = .next t ∧ (t.edge he).flipping = none ∧
      ∀ x ∈ h.waiting, .req x ∈ t.agenda) ∧
    (port < 8 → tget Port.down s.ports port = .cxl → exported (a / 4096) (s.edge (port / 4)) →
      s.pageHost (s.edge (port / 4)) (a / 4096) = false → ∃ t, exec (.cxlHostAccess port true pa v) s = .next t ∧
        ∀ i, i < 64 → t.homeByte (a + i) = BitVec.ofNat 8 (v / 256 ^ i)) ∧
    (port < 8 → tget Port.down s.ports port = .cxl → exported (a / 4096) (s.edge (port / 4)) → lineOf a ∉ s.poison →
      s.pageHost (s.edge (port / 4)) (a / 4096) = false → ∃ t, exec (.cxlHostAccess port false pa v) s = .next t ∧
        (t.edge (port / 4)).data = some (t.homeLe a 64)) ∧
    (0 < n → n ≤ 64 → pa / 64 = (pa + n - 1) / 64 → s.isDram pa = true →
      (∃ t, exec (.ccAccess true pa n v) s = .next t ∧ ∀ i, i < n → t.homeByte (pa + i) = BitVec.ofNat 8 (v / 256 ^ i)) ∧
      (lineOf pa ∉ s.poison → ∃ t, exec (.ccAccess false pa n v) s = .next t ∧ t.cc.data = some (t.homeLe pa n))) ∧
    (port = 8 ∨ port = 9 → answers (.getVersion port) (.version 1 3) ∧ answers (.getCapabilities port) .capabilities ∧
      (∀ x y, answers (.negotiateAlgorithms port x y) (.algorithms (bit x 0) (bit y 0))) ∧
      (∃ m, answers (.getDigests port) (.digests m)) ∧ (∃ m, answers (.getCertificate port) (.certificate m)) ∧
      (∀ nonce, ∃ m, answers (.challenge port nonce) (.challengeAuth nonce m)) ∧
      (∀ k, 1 ≤ k → k ≤ 8 → ∃ m, answers (.getMeasurements port k) (.measurement k m)) ∧ answers (.keyExchange port) .refused) ∧
    (∃ t, exec (.reset true true) s = .next t ∧ t.awake = true ∧ t.stage = 0 ∧ t.agenda = [.powerUpWave] ∧ t.groups = [] ∧ t.mem = []) ∧
    (s.awake = true → s.stage < 20 → ∃ t, exec .powerUpWave s = .next t ∧ t.stage = s.stage + 1) ∧
    (v ≠ 38000 → exec (.powerMeter v) s = .next { s with throttled := decide (38000 < v) }) ∧
    (port < 8 → ∃ t, exec (.cxlHostLink port 1) s = .next t ∧ tget Port.down t.ports port = .cxl) ∧
    (v < 512 → n ≤ 512 → 0 < n → exec (.domainStart v n) s =
      .next { s with topo := { s.topo with devNum := some v, devices := n, generation := s.topo.generation + 2 } }) ∧
    (∃ t, exec (.uncorrectableError 0 pa) s = .next t ∧ lineOf pa ∈ t.poison) ∧
    exec .correctedError s = .next { s with corrected := s.corrected + 1 }

/-- R357, R358, R360, R367 to R369: teams and launches: a startable task becomes a resident team, its loads end, a team that has ended is
gone, a launch that is past completes, and balancing moves tasks. -/
def Rules.TeamEventsComplete : Prop :=
  ∀ (s : State) (k : Nat),
    let deep (c : Nat × Cluster) : Prop := c.1 / 2048 = k ∧ s.dieDepth k + 8 * 1920 ≤ c.2.queue.length * 1920
    (∀ t cores, tfind s.tasks k = some t → k < s.nextId → s.nextTask t.cluster = some k → s.startable t.cluster t = some cores →
      ∃ u x, exec (.teamStart k) s = .next u ∧ tfind u.tasks k = none ∧ tfind u.teams k = some x ∧ x.st = .resident ∧ x.ix = t.ord) ∧
    (∀ t, tfind s.tasks k = some t →
      (t.st = .loading → (∀ r ∈ s.reqs, r.2.purpose ≠ .load k) → t.left = [] → ∃ u, exec (.regionLoad k) s = .next u ∧
        tfind u.tasks k = some { t with st := .ready }) ∧
      (t.st = .retry → t.refused + 4096 ≤ s.cycle → (∀ r ∈ s.reqs, r.2.team ≠ k) → ∃ u, exec (.loadRetry k) s = .next u ∧
        tfind u.tasks k = some { t with st := .loading, left := (s.launchOf t.launch).lcb.loads }) ∧
      (t.fed + 2 ^ 20 ≤ s.cycle → exec (.taskAgePromote k) s = .next (s.putTask k { t with promoted := true }))) ∧
    (∀ t, tfind s.teams k = some t → t.st = .ending → (∀ x ∈ t.lowest, x.2.2.2.2 = false) → (∀ x ∈ s.txns, x.2.team ≠ k) → (∀ r ∈ s.reqs, r.2.team ≠ k) →
      (∀ c ∈ s.copies, c.2.team ≠ k) → (∀ g ∈ t.g, g.2.kind = .empty ∨ g.2.peer = true) →
      ∃ u, exec (.teamEnd k) s = .next u ∧ tfind u.teams k = none) ∧
    (∀ l, tfind s.launches k = some l → l.st = .running ∨ l.st = .completing → l.ended = l.teams → l.children = 0 →
      s.launches.Pairwise (fun a b => a.1 ≠ b.1) → ∃ t, exec (.launchComplete k) s = .next t ∧ tfind t.launches k = none) ∧
    (∀ c ∈ s.clusters, deep c → s.clusterOf c.1 = c.2 → (∀ x ∈ s.clusters, deep x → x = c) → s.shallowest k ≠ c.1 →
      (s.clusterOf (s.shallowest k)).queue.length < 64 → s.clusters.Pairwise (fun a b => a.1 ≠ b.1) →
      ∃ t j, exec (.depthExchange k) s = .next t ∧ j ∈ c.2.queue ∧ j ∈ (t.clusterOf (s.shallowest k)).queue) ∧
    (∀ d r, s.neighbours k = [d] → s.queuedTeams d + 64 ≤ s.queuedTeams k → tget [] s.ranges k = [r] → (tget [] s.ranges d).length < 4096 →
      ∃ t, exec (.dieDepthExchange k) s = .next t ∧
        tget [] t.ranges k = [{ r with hi := r.hi - min ((s.queuedTeams k - s.queuedTeams d) / 2) (r.hi - r.lo) }]) ∧
    ∀ c ∈ s.clusters, (s.clusterOf k).queue = [] → s.clusterOf c.1 = c.2 → c.1 / 2048 = k / 2048 →
      (∀ x ∈ s.clusters, x.1 / 2048 = k / 2048 → x.1 ≠ c.1 → x.2.queue.length < c.2.queue.length) →
      s.clusters.Pairwise (fun a b => a.1 ≠ b.1) → (∃ j ∈ c.2.queue, (s.startable k (s.taskOf j)).isSome = true) →
      ∃ t j, exec (.steal k) s = .next t ∧ j ∈ c.2.queue ∧ j ∈ (t.clusterOf k).queue

/-- R371, R372, R392, R396, R399: boosts, budgets, the watchdog, and pre-emption: each takes effect where it is due. -/
def Rules.TurnEventsComplete : Prop :=
  ∀ (s : State) (k : Nat),
    let l := s.launchOf k
    let g := s.group k
    let mine (j : Nat) (x : Group) : Prop :=
      (s.teamOf x.team).launch = k ∧ (s.teamOf x.team).st ≠ .saved ∧ x.live ≠ 0 ∧ tfind s.groups j = some x
    (l.st = .running ∨ l.st = .completing → ∃ t, exec (.boost k) s = .next t ∧ (t.launchOf k).boosted = some (l.low / 32)) ∧
    (l.budgetAt = none → l.lcb.budget ≠ 0 → l.lcb.budget < l.slots → ∃ t, exec (.budgetExceeded k) s = .next t ∧
      (t.launchOf k).budgetAt = some l.slots) ∧
    (∀ b, l.budgetAt = some b → b + 2 ^ 20 ≤ l.slots → ∃ t, exec (.budgetEnd k) s = .next t ∧ ∀ j x, mine j x → (t.group j).live = 0) ∧
    (∀ f, s.dogLimit g ≠ 0 → s.dogLimit g ≤ g.dog → s.teamStopped (s.teamOf g.team) = false → g.watched = true → g.record = none →
      g.waiter = some f → f.handler = false → ∃ t, exec (.watchdog k) s = .next t ∧ (t.group k).tpc = f.pc ∧ (t.group k).tmask = f.mask) ∧
    (s.borrowStuck k = true → (s.freeFrame (s.teamOf k).ctx).isSome = true → .preemption k ∉ s.agenda → ∃ t, exec (.borrowWaitPreempt k) s = .next t ∧ .preemption k ∈ t.agenda) ∧
    ∀ t, tfind s.teams k = some t →
      (∀ f, t.st = .resident → f < s.ctxField t.ctx 0x10 4 → f ∉ (s.ctxOf t.ctx).frames → s.groups.Pairwise (fun a b => a.1 ≠ b.1) →
        (∀ x ∈ s.groups, x.2.team = k → x.2.dueTrap = none) → (∀ x ∈ t.lowest, x.2.2.2.2 = false) → ∃ u, exec (.preemption k) s = .next u ∧ (u.teamOf k).st = .draining) ∧
      (t.st = .draining → (∀ x ∈ t.lowest, x.2.2.2.2 = false) → s.drained k = true → ∃ u, exec (.preemptSave k) s = .next u ∧ (u.teamOf k).st = .saved ∧ .resume k ∈ u.agenda) ∧
      (let base := s.ctxField t.ctx 8 8 + 0x80000 * t.frame
       let tags := (List.range t.size).map (fun p => readLe s.mem (base + (0x20 + p)) 1 % 4)
       t.st = .saved → (s.lowWaits = false ∨ s.holdsLow t = true) → (∀ r ∈ s.reqs, r.2.team ≠ k) → s.placesFor t tags ≠ [] → ∃ u x, exec (.resume k) s = .next u ∧ x ∈ s.placesFor t tags ∧
         (u.teamOf k).st ≠ .saved ∧ (u.teamOf k).cluster = x.1)
/-! ### The obligations -/

/-- Decoding the word of a well-formed instruction gives the instruction back. -/
def Obligations.DecodeEncode : Prop := Rules.DecodeEncode

/-- A word that decodes is the word of the well-formed instruction it stands for. -/
def Obligations.DecodeIsFaithful : Prop := Rules.DecodeIsFaithful

/-- Unassigned majors and stall counts of variable-latency instructions are refused by detail. -/
def Obligations.RefusedWords : Prop := Rules.RefusedWords

/-- Words written out in the manual decode to the instructions they stand for. -/
def Obligations.ManualWords : Prop := Rules.ManualWords

/-- A step runs the instruction that the fetched word, or the event due, stands for; queue, control, host and team events take effect. -/
def Obligations.StepRunsDecoded : Prop :=
  Rules.StepRunsDecodedWord ∧ Rules.StepRunsEvents ∧ Rules.QueueEventsComplete ∧ Rules.ControlEventsComplete ∧
    Rules.HostEventsComplete ∧ Rules.TeamEventsComplete ∧ Rules.TurnEventsComplete

/-- The group that issues comes first in the order of issue; the events of accesses, borrows, commons, network and transfers take effect. -/
def Obligations.IssueOrder : Prop :=
  Rules.IssueOrder ∧ Rules.ReadyGroups ∧ Rules.AccessEventsComplete ∧ Rules.SlipsComplete ∧ Rules.CommonsMessagesComplete ∧
    Rules.NetworkEventsComplete ∧ Rules.TransferEventsComplete

/-- The state after reset, and its memory in canonical form. -/
def Obligations.AfterReset : Prop := Rules.ResetState ∧ Rules.ResetMemoryWf

/-- Every step keeps memory in its canonical form. -/
def Obligations.StepKeepsMemoryWf : Prop := Rules.StepKeepsMemoryWf

/-- User-level code changes no system register, handle, queue or topology. -/
def Obligations.UserLevelIsConfined : Prop := Rules.UserLevelIsConfined

/-- nop has no effect beyond its slot and its stall count; carries, copies, fences and engine operations complete. -/
def Obligations.NoOperation : Prop :=
  Rules.NoOperation ∧ Rules.CarriesComplete ∧ Rules.CopiesEnter ∧ Rules.FencesPass ∧ Rules.EngineOperationsEnter

/-- Type, pair, latency and scoreboard checks before an instruction acts; gaps and early reads. -/
def Obligations.Admission : Prop := Rules.Admission ∧ Rules.CountedGaps ∧ Rules.EarlyReads

/-- Integer sums, products, minimum, maximum and high halves, element by element. -/
def Obligations.IntegerArithmetic : Prop := Rules.IntegerArithmetic ∧ Rules.IntegerOrderAndHighHalves

/-- Logical instructions and bit counts, element by element. -/
def Obligations.IntegerBits : Prop := Rules.BitLogic ∧ Rules.BitCounts

/-- Shifts, rotations, bit fields, extension and integer conversion. -/
def Obligations.IntegerShiftsAndFields : Prop := Rules.Shifts ∧ Rules.FieldsAndConversions

/-- Integer comparisons write a predicate; moves and selection copy operands. -/
def Obligations.ComparisonsAndMoves : Prop := Rules.Comparisons ∧ Rules.Moves

/-- Division and remainder enter the divider, which writes the quotient or remainder once its slots have passed. -/
def Obligations.Division : Prop := Rules.Division ∧ Rules.DividerCompletes

/-- Shuffles move values between lanes. -/
def Obligations.Shuffles : Prop := Rules.Shuffles

/-- Votes, predicate logic, scans and reductions over the lanes. -/
def Obligations.VotesAndScans : Prop := Rules.VotesAndPredicates ∧ Rules.Scans

/-- Reading and writing special registers and event counters. -/
def Obligations.SpecialRegisters : Prop := Rules.SpecialRegisterReads ∧ Rules.SpecialRegisterWrites ∧ Rules.EventCounters

/-- Floating-point arithmetic and selection, element by element. -/
def Obligations.FloatArithmetic : Prop := Rules.FloatArithmetic ∧ Rules.FloatSelection

/-- Delivered results are rounded as the mode says from exact sums, products, quotients and roots. -/
def Obligations.RoundingAndExactness : Prop := Rules.ResultsAreRounded ∧ Rules.ExactSumsAndProducts ∧ Rules.QuotientsAndRoots

/-- Float division and square root enter the divider; dot products. -/
def Obligations.FloatDividerAndDot : Prop := Rules.FloatDividerAndDot

/-- Float comparisons, classification and conversions. -/
def Obligations.FloatComparisonsAndConversions : Prop := Rules.FloatComparisons ∧ Rules.FloatConversions

/-- Packing and unpacking of block formats. -/
def Obligations.BlockFormats : Prop := Rules.BlockLayout ∧ Rules.SxPacking ∧ Rules.ZPacking ∧ Rules.BlockPacking ∧ Rules.BlockUnpacking

/-- Branches and calls send each lane where the rules say. -/
def Obligations.BranchesAndCalls : Prop := Rules.Branches ∧ Rules.Calls

/-- Returns and exits. -/
def Obligations.ReturnsAndExits : Prop := Rules.Returns ∧ Rules.Exits

/-- fuse and join: entries, waiting lanes and completion. -/
def Obligations.FusesAndJoins : Prop := Rules.Fuses ∧ Rules.Joins

/-- Mode, guard, yield and other control of a group. -/
def Obligations.GroupControl : Prop := Rules.GroupControl

/-- TCAUSE holds the code, the detail and DEFER of a trap, zeros elsewhere, is zero at the start, and cannot be written. -/
def Obligations.TrapCause : Prop := Rules.TrapCause

/-- What taking a trap saves and where it goes, and what a trap return restores. -/
def Obligations.TrapsAndReturns : Prop := Rules.TrapEntry ∧ Rules.TrapReturn

/-- A trap at handler level kills the fault domain and enters no handler. -/
def Obligations.DoubleTrap : Prop := Rules.DoubleTrap

/-- Software traps, halt and run, and the traps of privileged instructions. -/
def Obligations.SoftwareTrapsAndPrivilege : Prop := Rules.SoftwareTrapsAndHalt ∧ Rules.Privilege

/-- Reading and writing system registers. -/
def Obligations.SystemRegisters : Prop := Rules.SystemRegisterReads ∧ Rules.SystemRegisterWrites

/-- Translation flush, pre-emption requests, taint clear and the registers of the control complex. -/
def Obligations.ControlComplex : Prop :=
  Rules.TranslationFlush ∧ Rules.PreemptionRequests ∧ Rules.TaintClear ∧ Rules.ControlComplexWrites ∧ Rules.ControlComplexReads

/-- Symmetric borrows, deferred traps and the watchdog. -/
def Obligations.SymmetricBorrowsAndTimers : Prop := Rules.SymmetricBorrows ∧ Rules.DeferredTraps ∧ Rules.Watchdog

/-- Back views, publication, binding and the travel of carried values. -/
def Obligations.CarryValues : Prop := Rules.BackViews ∧ Rules.Publishing ∧ Rules.Binding ∧ Rules.CarryTravel

/-- Region loads, stores and prefetches: their checks, and what they issue. -/
def Obligations.RegionAccesses : Prop :=
  Rules.RegionChecks ∧ Rules.RegionLoads ∧ Rules.RegionStores ∧ Rules.Prefetches ∧ Rules.AccessesHeld

/-- Requests at their homes, replies and write combining. -/
def Obligations.AccessesServed : Prop := Rules.RequestsServed ∧ Rules.RepliesArrive ∧ Rules.WriteCombining

/-- Local and cluster windows, address conversion, bank modes, FIFOs and waiting for counters. -/
def Obligations.WindowsAndBanks : Prop :=
  Rules.WindowAccesses ∧ Rules.AddressConversions ∧ Rules.BankModes ∧ Rules.Fifos ∧ Rules.WaitsForAccesses

/-- Remote and commons accesses, atomics and hints: their checks, and what they issue. -/
def Obligations.RemoteAndCommonsAccesses : Prop := Rules.RemoteAccesses ∧ Rules.CommonsAccesses ∧ Rules.Hints

/-- How a home serves a commons access. -/
def Obligations.CommonsService : Prop := Rules.CommonsService

/-- The messages of the commons protocol and of sweeps. -/
def Obligations.CommonsMessages : Prop := Rules.CommonsMessages ∧ Rules.Sweeps

/-- Fences wait for what they cover and sweep. -/
def Obligations.Fences : Prop := Rules.Fences

/-- bor: its checks, its translation and its requests. -/
def Obligations.Borrows : Prop := Rules.BorrowChecks ∧ Rules.BorrowRequests

/-- Return, lowering, raising, handing, splitting, joining and reading of borrows. -/
def Obligations.BorrowChanges : Prop := Rules.BorrowChanges ∧ Rules.SplitsAndJoins ∧ Rules.RegionImages

/-- Slips at the homes: requests, grants, refusals and answers. -/
def Obligations.HomesOfBorrows : Prop :=
  Rules.SlipsReceived ∧ Rules.RequestsAtHomes ∧ Rules.GrantsAndRefusals ∧ Rules.HomesChange ∧ Rules.Answers

/-- Table walks end; requests beyond the reach limit are abandoned. -/
def Obligations.WalksAndReach : Prop := Rules.WalksEnd ∧ Rules.ReachLimits

/-- Barrier registers: init, expect, arrive, wait and test. -/
def Obligations.Barriers : Prop := Rules.Barriers

/-- Lane copies, bulk copies and reducing copies: their checks and their entry. -/
def Obligations.CopiesStart : Prop := Rules.LaneCopies ∧ Rules.BulkCopies

/-- Copies complete; chunks of reducing copies are applied once. -/
def Obligations.CopiesComplete : Prop := Rules.CopiesComplete ∧ Rules.ReducingChunks

/-- Operand slots and the transfers into and out of them. -/
def Obligations.MatrixSlots : Prop := Rules.OperandSlots ∧ Rules.MatrixTransfers

/-- Requests to the pair engine, its passes and their arithmetic. -/
def Obligations.MatrixEngine : Prop := Rules.EngineRequests ∧ Rules.EngineWork ∧ Rules.PassArithmetic

/-- Launch queues: registers, malformed entries, and what each entry does. -/
def Obligations.LaunchQueues : Prop := Rules.QueueRegisters ∧ Rules.MalformedEntries ∧ Rules.QueueEntries ∧ Rules.EntryCheck

/-- spawn, spawnh, patch, release and bin. -/
def Obligations.TaskInstructions : Prop := Rules.Spawns ∧ Rules.SpawnsInOrder ∧ Rules.HeldLaunches ∧ Rules.Bins

/-- Placement, loads, start and end of teams, and completion of launches. -/
def Obligations.TeamsAndLaunches : Prop :=
  Rules.Placement ∧ Rules.TeamLoads ∧ Rules.TeamStarts ∧ Rules.TeamsEnd ∧ Rules.LaunchesComplete

/-- Boost, budget and balancing. -/
def Obligations.Scheduling : Prop := Rules.BoostAndBudget ∧ Rules.Balancing

/-- A kill tears a fault domain down and records it. -/
def Obligations.Kills : Prop := Rules.Kills ∧ Rules.DoubleTrapSpares ∧ Rules.KillsComplete

/-- Pre-emption, the save frame and resumption. -/
def Obligations.Preemption : Prop := Rules.Preemptions ∧ Rules.Saves ∧ Rules.Resumes

/-- Bias, outside accesses, attestation, topology, power, links and soft errors. -/
def Obligations.DeviceInItsSystem : Prop :=
  Rules.BiasCommands ∧ Rules.BackInvalidations ∧ Rules.OutsideAccesses ∧ Rules.Attestation ∧ Rules.Topology ∧
    Rules.PowerAndLinks ∧ Rules.SoftErrors

/-- Routers, the fabric, replay and retirement of links. -/
def Obligations.Network : Prop :=
  Rules.Routes ∧ Rules.Routers ∧ Rules.BufferedLane ∧ Rules.AgeAndStarvation ∧ Rules.Switches ∧ Rules.FabricEdges ∧
    Rules.Replay ∧ Rules.LinkRetirement
end

