-- ==== Sys2Proof/Laws/Dispatch.lean ====
section
/-! SUPPORT. What exec calls for each constructor of Instr. -/

namespace Sys2Proof.Machine

theorem exec_br (sc : BitVec 3) (o : BitVec 23) (s : State) : exec (.br sc o) s = execBr sc o s := rfl
theorem exec_call (sc : BitVec 3) (o : BitVec 23) (s : State) : exec (.call sc o) s = execCall sc o s := rfl
theorem exec_fuse (sc : BitVec 3) (o : BitVec 23) (s : State) : exec (.fuse sc o) s = execFuse sc o s := rfl
theorem exec_brt (a : BitVec 6) (n : BitVec 11) (s : State) : exec (.brt a n) s = execBrt a n s := rfl
theorem exec_bra (sc : BitVec 3) (a : BitVec 6) (s : State) : exec (.bra sc a) s = execBra sc a s := rfl
theorem exec_calla (sc : BitVec 3) (a : BitVec 6) (s : State) : exec (.calla sc a) s = execCalla sc a s := rfl
theorem exec_ret (sc : BitVec 3) (s : State) : exec (.ret sc) s = execRet sc s := rfl
theorem exec_join (sc : BitVec 3) (s : State) : exec (.join sc) s = execJoin sc s := rfl
theorem exec_yield (sc : BitVec 3) (s : State) : exec (.yield sc) s = execYield sc s := rfl
theorem exec_exit (sc : BitVec 3) (s : State) : exec (.exit sc) s = execExit sc s := rfl
theorem exec_nop (sc : BitVec 3) (s : State) : exec (.nop sc) s = execNop sc s := rfl
theorem exec_mode (sc : BitVec 3) (m : BitVec 16) (s : State) : exec (.mode sc m) s = execMode sc m s := rfl
theorem exec_modg (sc : BitVec 3) (n : BitVec 1) (p : BitVec 3) (s : State) : exec (.modg sc n p) s = execModg sc n p s := rfl
theorem exec_add (sc : BitVec 3) (d : BitVec 6) (a : BitVec 6) (b : BitVec 6) (s : State) : exec (.add sc d a b) s = execAdd sc d a b s := rfl
theorem exec_sub (sc : BitVec 3) (d : BitVec 6) (a : BitVec 6) (b : BitVec 6) (s : State) : exec (.sub sc d a b) s = execSub sc d a b s := rfl
theorem exec_mul (sc : BitVec 3) (d : BitVec 6) (a : BitVec 6) (b : BitVec 6) (s : State) : exec (.mul sc d a b) s = execMul sc d a b s := rfl
theorem exec_mulh (sc : BitVec 3) (d : BitVec 6) (a : BitVec 6) (b : BitVec 6) (s : State) : exec (.mulh sc d a b) s = execMulh sc d a b s := rfl
theorem exec_div (d : BitVec 6) (a : BitVec 6) (b : BitVec 6) (s : State) : exec (.div d a b) s = execDiv d a b s := rfl
theorem exec_rem (d : BitVec 6) (a : BitVec 6) (b : BitVec 6) (s : State) : exec (.rem d a b) s = execRem d a b s := rfl
theorem exec_min (sc : BitVec 3) (d : BitVec 6) (a : BitVec 6) (b : BitVec 6) (s : State) : exec (.min sc d a b) s = execMin sc d a b s := rfl
theorem exec_max (sc : BitVec 3) (d : BitVec 6) (a : BitVec 6) (b : BitVec 6) (s : State) : exec (.max sc d a b) s = execMax sc d a b s := rfl
theorem exec_abs (sc : BitVec 3) (d : BitVec 6) (a : BitVec 6) (s : State) : exec (.abs sc d a) s = execAbs sc d a s := rfl
theorem exec_neg (sc : BitVec 3) (d : BitVec 6) (a : BitVec 6) (s : State) : exec (.neg sc d a) s = execNeg sc d a s := rfl
theorem exec_lea (sc : BitVec 3) (d : BitVec 6) (a : BitVec 6) (b : BitVec 6) (x : BitVec 2) (s : State) : exec (.lea sc d a b x) s = execLea sc d a b x s := rfl
theorem exec_and (sc : BitVec 3) (d : BitVec 6) (a : BitVec 6) (b : BitVec 6) (s : State) : exec (.and sc d a b) s = execAnd sc d a b s := rfl
theorem exec_or (sc : BitVec 3) (d : BitVec 6) (a : BitVec 6) (b : BitVec 6) (s : State) : exec (.or sc d a b) s = execOr sc d a b s := rfl
theorem exec_xor (sc : BitVec 3) (d : BitVec 6) (a : BitVec 6) (b : BitVec 6) (s : State) : exec (.xor sc d a b) s = execXor sc d a b s := rfl
theorem exec_andn (sc : BitVec 3) (d : BitVec 6) (a : BitVec 6) (b : BitVec 6) (s : State) : exec (.andn sc d a b) s = execAndn sc d a b s := rfl
theorem exec_not (sc : BitVec 3) (d : BitVec 6) (a : BitVec 6) (s : State) : exec (.not sc d a) s = execNot sc d a s := rfl
theorem exec_shl (sc : BitVec 3) (d : BitVec 6) (a : BitVec 6) (b : BitVec 6) (s : State) : exec (.shl sc d a b) s = execShl sc d a b s := rfl
theorem exec_shr (sc : BitVec 3) (d : BitVec 6) (a : BitVec 6) (b : BitVec 6) (s : State) : exec (.shr sc d a b) s = execShr sc d a b s := rfl
theorem exec_sra (sc : BitVec 3) (d : BitVec 6) (a : BitVec 6) (b : BitVec 6) (s : State) : exec (.sra sc d a b) s = execSra sc d a b s := rfl
theorem exec_rotl (sc : BitVec 3) (d : BitVec 6) (a : BitVec 6) (b : BitVec 6) (s : State) : exec (.rotl sc d a b) s = execRotl sc d a b s := rfl
theorem exec_clz (sc : BitVec 3) (d : BitVec 6) (a : BitVec 6) (s : State) : exec (.clz sc d a) s = execClz sc d a s := rfl
theorem exec_ctz (sc : BitVec 3) (d : BitVec 6) (a : BitVec 6) (s : State) : exec (.ctz sc d a) s = execCtz sc d a s := rfl
theorem exec_popc (sc : BitVec 3) (d : BitVec 6) (a : BitVec 6) (s : State) : exec (.popc sc d a) s = execPopc sc d a s := rfl
theorem exec_brev (sc : BitVec 3) (d : BitVec 6) (a : BitVec 6) (s : State) : exec (.brev sc d a) s = execBrev sc d a s := rfl
theorem exec_bext (sc : BitVec 3) (d : BitVec 6) (a : BitVec 6) (b : BitVec 6) (s : State) : exec (.bext sc d a b) s = execBext sc d a b s := rfl
theorem exec_bins (sc : BitVec 3) (d : BitVec 6) (a : BitVec 6) (b : BitVec 6) (s : State) : exec (.bins sc d a b) s = execBins sc d a b s := rfl
theorem exec_mov (sc : BitVec 3) (d : BitVec 6) (a : BitVec 6) (s : State) : exec (.mov sc d a) s = execMov sc d a s := rfl
theorem exec_ext (sc : BitVec 3) (d : BitVec 6) (a : BitVec 6) (w : BitVec 6) (s : State) : exec (.ext sc d a w) s = execExt sc d a w s := rfl
theorem exec_cvti (sc : BitVec 3) (d : BitVec 6) (a : BitVec 6) (e : BitVec 6) (s : State) : exec (.cvti sc d a e) s = execCvti sc d a e s := rfl
theorem exec_mad (sc : BitVec 3) (d : BitVec 6) (a : BitVec 6) (b : BitVec 6) (c : BitVec 5) (s : State) : exec (.mad sc d a b c) s = execMad sc d a b c s := rfl
theorem exec_madh (sc : BitVec 3) (d : BitVec 6) (a : BitVec 6) (b : BitVec 6) (c : BitVec 5) (s : State) : exec (.madh sc d a b c) s = execMadh sc d a b c s := rfl
theorem exec_cmpEq (sc : BitVec 3) (d : BitVec 6) (a : BitVec 6) (b : BitVec 6) (s : State) : exec (.cmpEq sc d a b) s = execCmpEq sc d a b s := rfl
theorem exec_cmpNe (sc : BitVec 3) (d : BitVec 6) (a : BitVec 6) (b : BitVec 6) (s : State) : exec (.cmpNe sc d a b) s = execCmpNe sc d a b s := rfl
theorem exec_cmpLt (sc : BitVec 3) (d : BitVec 6) (a : BitVec 6) (b : BitVec 6) (s : State) : exec (.cmpLt sc d a b) s = execCmpLt sc d a b s := rfl
theorem exec_cmpLe (sc : BitVec 3) (d : BitVec 6) (a : BitVec 6) (b : BitVec 6) (s : State) : exec (.cmpLe sc d a b) s = execCmpLe sc d a b s := rfl
theorem exec_cmpGt (sc : BitVec 3) (d : BitVec 6) (a : BitVec 6) (b : BitVec 6) (s : State) : exec (.cmpGt sc d a b) s = execCmpGt sc d a b s := rfl
theorem exec_cmpGe (sc : BitVec 3) (d : BitVec 6) (a : BitVec 6) (b : BitVec 6) (s : State) : exec (.cmpGe sc d a b) s = execCmpGe sc d a b s := rfl
theorem exec_sel (sc : BitVec 3) (d : BitVec 6) (a : BitVec 6) (b : BitVec 6) (n : BitVec 1) (p : BitVec 3) (s : State) : exec (.sel sc d a b n p) s = execSel sc d a b n p s := rfl
theorem exec_shflAt (sc : BitVec 3) (d : BitVec 6) (a : BitVec 6) (b : BitVec 6) (s : State) : exec (.shflAt sc d a b) s = execShflAt sc d a b s := rfl
theorem exec_shflRise (sc : BitVec 3) (d : BitVec 6) (a : BitVec 6) (b : BitVec 6) (s : State) : exec (.shflRise sc d a b) s = execShflRise sc d a b s := rfl
theorem exec_shflFall (sc : BitVec 3) (d : BitVec 6) (a : BitVec 6) (b : BitVec 6) (s : State) : exec (.shflFall sc d a b) s = execShflFall sc d a b s := rfl
theorem exec_shflFlip (sc : BitVec 3) (d : BitVec 6) (a : BitVec 6) (b : BitVec 6) (s : State) : exec (.shflFlip sc d a b) s = execShflFlip sc d a b s := rfl
theorem exec_voteAny (sc : BitVec 3) (d : BitVec 6) (a : BitVec 6) (s : State) : exec (.voteAny sc d a) s = execVoteAny sc d a s := rfl
theorem exec_voteAll (sc : BitVec 3) (d : BitVec 6) (a : BitVec 6) (s : State) : exec (.voteAll sc d a) s = execVoteAll sc d a s := rfl
theorem exec_voteBallot (sc : BitVec 3) (d : BitVec 6) (a : BitVec 6) (s : State) : exec (.voteBallot sc d a) s = execVoteBallot sc d a s := rfl
theorem exec_scanAdd (sc : BitVec 3) (d : BitVec 6) (a : BitVec 6) (s : State) : exec (.scanAdd sc d a) s = execScanAdd sc d a s := rfl
theorem exec_scanMin (sc : BitVec 3) (d : BitVec 6) (a : BitVec 6) (s : State) : exec (.scanMin sc d a) s = execScanMin sc d a s := rfl
theorem exec_scanMax (sc : BitVec 3) (d : BitVec 6) (a : BitVec 6) (s : State) : exec (.scanMax sc d a) s = execScanMax sc d a s := rfl
theorem exec_scanAddx (sc : BitVec 3) (d : BitVec 6) (a : BitVec 6) (s : State) : exec (.scanAddx sc d a) s = execScanAddx sc d a s := rfl
theorem exec_pand (sc : BitVec 3) (d : BitVec 6) (a : BitVec 6) (b : BitVec 6) (s : State) : exec (.pand sc d a b) s = execPand sc d a b s := rfl
theorem exec_por (sc : BitVec 3) (d : BitVec 6) (a : BitVec 6) (b : BitVec 6) (s : State) : exec (.por sc d a b) s = execPor sc d a b s := rfl
theorem exec_pxor (sc : BitVec 3) (d : BitVec 6) (a : BitVec 6) (b : BitVec 6) (s : State) : exec (.pxor sc d a b) s = execPxor sc d a b s := rfl
theorem exec_pnot (sc : BitVec 3) (d : BitVec 6) (a : BitVec 6) (s : State) : exec (.pnot sc d a) s = execPnot sc d a s := rfl
theorem exec_movi (sc : BitVec 3) (d : BitVec 6) (im : BitVec 17) (s : State) : exec (.movi sc d im) s = execMovi sc d im s := rfl
theorem exec_movu (sc : BitVec 3) (d : BitVec 6) (im : BitVec 17) (s : State) : exec (.movu sc d im) s = execMovu sc d im s := rfl
theorem exec_addi (sc : BitVec 3) (d : BitVec 6) (a : BitVec 6) (im : BitVec 11) (s : State) : exec (.addi sc d a im) s = execAddi sc d a im s := rfl
theorem exec_andi (sc : BitVec 3) (d : BitVec 6) (a : BitVec 6) (im : BitVec 11) (s : State) : exec (.andi sc d a im) s = execAndi sc d a im s := rfl
theorem exec_ori (sc : BitVec 3) (d : BitVec 6) (a : BitVec 6) (im : BitVec 11) (s : State) : exec (.ori sc d a im) s = execOri sc d a im s := rfl
theorem exec_xori (sc : BitVec 3) (d : BitVec 6) (a : BitVec 6) (im : BitVec 11) (s : State) : exec (.xori sc d a im) s = execXori sc d a im s := rfl
theorem exec_shli (sc : BitVec 3) (d : BitVec 6) (a : BitVec 6) (c : BitVec 6) (s : State) : exec (.shli sc d a c) s = execShli sc d a c s := rfl
theorem exec_shri (sc : BitVec 3) (d : BitVec 6) (a : BitVec 6) (c : BitVec 6) (s : State) : exec (.shri sc d a c) s = execShri sc d a c s := rfl
theorem exec_fma (sc : BitVec 3) (d : BitVec 6) (a : BitVec 6) (b : BitVec 6) (c : BitVec 5) (s : State) : exec (.fma sc d a b c) s = execFma sc d a b c s := rfl
theorem exec_fadd (sc : BitVec 3) (d : BitVec 6) (a : BitVec 6) (b : BitVec 6) (s : State) : exec (.fadd sc d a b) s = execFadd sc d a b s := rfl
theorem exec_fsub (sc : BitVec 3) (d : BitVec 6) (a : BitVec 6) (b : BitVec 6) (s : State) : exec (.fsub sc d a b) s = execFsub sc d a b s := rfl
theorem exec_fmul (sc : BitVec 3) (d : BitVec 6) (a : BitVec 6) (b : BitVec 6) (s : State) : exec (.fmul sc d a b) s = execFmul sc d a b s := rfl
theorem exec_fmin (sc : BitVec 3) (d : BitVec 6) (a : BitVec 6) (b : BitVec 6) (s : State) : exec (.fmin sc d a b) s = execFmin sc d a b s := rfl
theorem exec_fmax (sc : BitVec 3) (d : BitVec 6) (a : BitVec 6) (b : BitVec 6) (s : State) : exec (.fmax sc d a b) s = execFmax sc d a b s := rfl
theorem exec_fabs (sc : BitVec 3) (d : BitVec 6) (a : BitVec 6) (s : State) : exec (.fabs sc d a) s = execFabs sc d a s := rfl
theorem exec_fneg (sc : BitVec 3) (d : BitVec 6) (a : BitVec 6) (s : State) : exec (.fneg sc d a) s = execFneg sc d a s := rfl
theorem exec_fdiv (d : BitVec 6) (a : BitVec 6) (b : BitVec 6) (s : State) : exec (.fdiv d a b) s = execFdiv d a b s := rfl
theorem exec_fsqrt (d : BitVec 6) (a : BitVec 6) (s : State) : exec (.fsqrt d a) s = execFsqrt d a s := rfl
theorem exec_frcp (sc : BitVec 3) (d : BitVec 6) (a : BitVec 6) (s : State) : exec (.frcp sc d a) s = execFrcp sc d a s := rfl
theorem exec_frsq (sc : BitVec 3) (d : BitVec 6) (a : BitVec 6) (s : State) : exec (.frsq sc d a) s = execFrsq sc d a s := rfl
theorem exec_fexp2 (sc : BitVec 3) (d : BitVec 6) (a : BitVec 6) (s : State) : exec (.fexp2 sc d a) s = execFexp2 sc d a s := rfl
theorem exec_flog2 (sc : BitVec 3) (d : BitVec 6) (a : BitVec 6) (s : State) : exec (.flog2 sc d a) s = execFlog2 sc d a s := rfl
theorem exec_fdot2 (sc : BitVec 3) (d : BitVec 6) (a : BitVec 6) (b : BitVec 6) (s : State) : exec (.fdot2 sc d a b) s = execFdot2 sc d a b s := rfl
theorem exec_fclass (sc : BitVec 3) (d : BitVec 6) (a : BitVec 6) (s : State) : exec (.fclass sc d a) s = execFclass sc d a s := rfl
theorem exec_fcmpEq (sc : BitVec 3) (d : BitVec 6) (a : BitVec 6) (b : BitVec 6) (s : State) : exec (.fcmpEq sc d a b) s = execFcmpEq sc d a b s := rfl
theorem exec_fcmpNe (sc : BitVec 3) (d : BitVec 6) (a : BitVec 6) (b : BitVec 6) (s : State) : exec (.fcmpNe sc d a b) s = execFcmpNe sc d a b s := rfl
theorem exec_fcmpLt (sc : BitVec 3) (d : BitVec 6) (a : BitVec 6) (b : BitVec 6) (s : State) : exec (.fcmpLt sc d a b) s = execFcmpLt sc d a b s := rfl
theorem exec_fcmpLe (sc : BitVec 3) (d : BitVec 6) (a : BitVec 6) (b : BitVec 6) (s : State) : exec (.fcmpLe sc d a b) s = execFcmpLe sc d a b s := rfl
theorem exec_fcmpGt (sc : BitVec 3) (d : BitVec 6) (a : BitVec 6) (b : BitVec 6) (s : State) : exec (.fcmpGt sc d a b) s = execFcmpGt sc d a b s := rfl
theorem exec_fcmpGe (sc : BitVec 3) (d : BitVec 6) (a : BitVec 6) (b : BitVec 6) (s : State) : exec (.fcmpGe sc d a b) s = execFcmpGe sc d a b s := rfl
theorem exec_fcmpUn (sc : BitVec 3) (d : BitVec 6) (a : BitVec 6) (b : BitVec 6) (s : State) : exec (.fcmpUn sc d a b) s = execFcmpUn sc d a b s := rfl
theorem exec_fcmpOr (sc : BitVec 3) (d : BitVec 6) (a : BitVec 6) (b : BitVec 6) (s : State) : exec (.fcmpOr sc d a b) s = execFcmpOr sc d a b s := rfl
theorem exec_fcvt (sc : BitVec 3) (d : BitVec 6) (a : BitVec 6) (e : BitVec 4) (s : State) : exec (.fcvt sc d a e) s = execFcvt sc d a e s := rfl
theorem exec_sxpk (sc : BitVec 3) (d : BitVec 6) (a : BitVec 6) (l : BitVec 1) (f : BitVec 2) (s : State) : exec (.sxpk sc d a l f) s = execSxpk sc d a l f s := rfl
theorem exec_sxupk (sc : BitVec 3) (d : BitVec 6) (a : BitVec 6) (l : BitVec 1) (f : BitVec 2) (s : State) : exec (.sxupk sc d a l f) s = execSxupk sc d a l f s := rfl
theorem exec_zpk (sc : BitVec 3) (d : BitVec 6) (a : BitVec 6) (l : BitVec 1) (f : BitVec 2) (s : State) : exec (.zpk sc d a l f) s = execZpk sc d a l f s := rfl
theorem exec_zupk (sc : BitVec 3) (d : BitVec 6) (a : BitVec 6) (l : BitVec 1) (f : BitVec 2) (s : State) : exec (.zupk sc d a l f) s = execZupk sc d a l f s := rfl
theorem exec_evrd (d : BitVec 6) (c : BitVec 6) (s : State) : exec (.evrd d c) s = execEvrd d c s := rfl
theorem exec_evclr (c : BitVec 6) (s : State) : exec (.evclr c) s = execEvclr c s := rfl
theorem exec_rds (sc : BitVec 3) (d : BitVec 6) (n : BitVec 12) (s : State) : exec (.rds sc d n) s = execRds sc d n s := rfl
theorem exec_wrs (sc : BitVec 3) (d : BitVec 6) (n : BitVec 12) (s : State) : exec (.wrs sc d n) s = execWrs sc d n s := rfl
theorem exec_pub (a : BitVec 6) (j : BitVec 6) (s : State) : exec (.pub a j) s = execPub a j s := rfl
theorem exec_cdef (d : BitVec 6) (j : BitVec 2) (k : BitVec 10) (s : State) : exec (.cdef d j k) s = execCdef d j k s := rfl
theorem exec_borX (d : BitVec 6) (a : BitVec 6) (b : BitVec 6) (s : State) : exec (.borX d a b) s = execBorX d a b s := rfl
theorem exec_borS (d : BitVec 6) (a : BitVec 6) (b : BitVec 6) (s : State) : exec (.borS d a b) s = execBorS d a b s := rfl
theorem exec_borC (d : BitVec 6) (a : BitVec 6) (b : BitVec 6) (s : State) : exec (.borC d a b) s = execBorC d a b s := rfl
theorem exec_borXW (d : BitVec 6) (a : BitVec 6) (b : BitVec 6) (s : State) : exec (.borXW d a b) s = execBorXW d a b s := rfl
theorem exec_borSW (d : BitVec 6) (a : BitVec 6) (b : BitVec 6) (s : State) : exec (.borSW d a b) s = execBorSW d a b s := rfl
theorem exec_borCW (d : BitVec 6) (a : BitVec 6) (b : BitVec 6) (s : State) : exec (.borCW d a b) s = execBorCW d a b s := rfl
theorem exec_bdown (b : BitVec 6) (s : State) : exec (.bdown b) s = execBdown b s := rfl
theorem exec_bup (d : BitVec 6) (b : BitVec 6) (s : State) : exec (.bup d b) s = execBup d b s := rfl
theorem exec_bsplit (d : BitVec 6) (a : BitVec 6) (b : BitVec 6) (s : State) : exec (.bsplit d a b) s = execBsplit d a b s := rfl
theorem exec_bjoin (d : BitVec 6) (b : BitVec 6) (s : State) : exec (.bjoin d b) s = execBjoin d b s := rfl
theorem exec_bhand (a : BitVec 6) (b : BitVec 6) (s : State) : exec (.bhand a b) s = execBhand a b s := rfl
theorem exec_bret (b : BitVec 6) (s : State) : exec (.bret b) s = execBret b s := rfl
theorem exec_bquery (d : BitVec 6) (b : BitVec 6) (s : State) : exec (.bquery d b) s = execBquery d b s := rfl
theorem exec_ld (d : BitVec 6) (g : BitVec 5) (a : BitVec 6) (k : BitVec 2) (z : BitVec 3) (h : BitVec 1) (s : State) : exec (.ld d g a k z h) s = execLd d g a k z h s := rfl
theorem exec_st (d : BitVec 6) (g : BitVec 5) (a : BitVec 6) (k : BitVec 2) (z : BitVec 3) (h : BitVec 1) (s : State) : exec (.st d g a k z h) s = execSt d g a k z h s := rfl
theorem exec_pref (g : BitVec 5) (a : BitVec 6) (k : BitVec 2) (h : BitVec 1) (s : State) : exec (.pref g a k h) s = execPref g a k h s := rfl
theorem exec_ldl (d : BitVec 6) (a : BitVec 6) (z : BitVec 3) (s : State) : exec (.ldl d a z) s = execLdl d a z s := rfl
theorem exec_stl (d : BitVec 6) (a : BitVec 6) (z : BitVec 3) (s : State) : exec (.stl d a z) s = execStl d a z s := rfl
theorem exec_ldc (d : BitVec 6) (a : BitVec 6) (z : BitVec 3) (s : State) : exec (.ldc d a z) s = execLdc d a z s := rfl
theorem exec_stc (d : BitVec 6) (a : BitVec 6) (z : BitVec 3) (s : State) : exec (.stc d a z) s = execStc d a z s := rfl
theorem exec_cvtaGl (sc : BitVec 3) (d : BitVec 6) (a : BitVec 6) (s : State) : exec (.cvtaGl sc d a) s = execCvtaGl sc d a s := rfl
theorem exec_cvtaGc (sc : BitVec 3) (d : BitVec 6) (a : BitVec 6) (s : State) : exec (.cvtaGc sc d a) s = execCvtaGc sc d a s := rfl
theorem exec_cvtaLg (sc : BitVec 3) (d : BitVec 6) (a : BitVec 6) (s : State) : exec (.cvtaLg sc d a) s = execCvtaLg sc d a s := rfl
theorem exec_cvtaCg (sc : BitVec 3) (d : BitVec 6) (a : BitVec 6) (s : State) : exec (.cvtaCg sc d a) s = execCvtaCg sc d a s := rfl
theorem exec_inapGlobal (sc : BitVec 3) (d : BitVec 6) (a : BitVec 6) (s : State) : exec (.inapGlobal sc d a) s = execInapGlobal sc d a s := rfl
theorem exec_inapPeer (sc : BitVec 3) (d : BitVec 6) (a : BitVec 6) (s : State) : exec (.inapPeer sc d a) s = execInapPeer sc d a s := rfl
theorem exec_inapCluster (sc : BitVec 3) (d : BitVec 6) (a : BitVec 6) (s : State) : exec (.inapCluster sc d a) s = execInapCluster sc d a s := rfl
theorem exec_inapLocal (sc : BitVec 3) (d : BitVec 6) (a : BitVec 6) (s : State) : exec (.inapLocal sc d a) s = execInapLocal sc d a s := rfl
theorem exec_bankset (a : BitVec 6) (b : BitVec 6) (s : State) : exec (.bankset a b) s = execBankset a b s := rfl
theorem exec_fput (a : BitVec 6) (b : BitVec 6) (s : State) : exec (.fput a b) s = execFput a b s := rfl
theorem exec_fget (d : BitVec 6) (a : BitVec 6) (s : State) : exec (.fget d a) s = execFget d a s := rfl
theorem exec_waitc (m : BitVec 6) (s : State) : exec (.waitc m) s = execWaitc m s := rfl
theorem exec_rld (d : BitVec 6) (p : BitVec 6) (o : BitVec 6) (k : BitVec 2) (g : BitVec 3) (s : State) : exec (.rld d p o k g) s = execRld d p o k g s := rfl
theorem exec_rst (d : BitVec 6) (p : BitVec 6) (o : BitVec 6) (k : BitVec 2) (g : BitVec 3) (s : State) : exec (.rst d p o k g) s = execRst d p o k g s := rfl
theorem exec_ratmAdd (d : BitVec 6) (p : BitVec 6) (o : BitVec 6) (k : BitVec 2) (g : BitVec 3) (s : State) : exec (.ratmAdd d p o k g) s = execRatmAdd d p o k g s := rfl
theorem exec_ratmXchg (d : BitVec 6) (p : BitVec 6) (o : BitVec 6) (k : BitVec 2) (g : BitVec 3) (s : State) : exec (.ratmXchg d p o k g) s = execRatmXchg d p o k g s := rfl
theorem exec_ratmCas (d : BitVec 6) (p : BitVec 6) (o : BitVec 6) (k : BitVec 2) (g : BitVec 3) (s : State) : exec (.ratmCas d p o k g) s = execRatmCas d p o k g s := rfl
theorem exec_aadd (q : BitVec 2) (d : BitVec 6) (g : BitVec 5) (a : BitVec 6) (k : BitVec 2) (s : State) : exec (.aadd q d g a k) s = execAadd q d g a k s := rfl
theorem exec_asub (q : BitVec 2) (d : BitVec 6) (g : BitVec 5) (a : BitVec 6) (k : BitVec 2) (s : State) : exec (.asub q d g a k) s = execAsub q d g a k s := rfl
theorem exec_amin (q : BitVec 2) (d : BitVec 6) (g : BitVec 5) (a : BitVec 6) (k : BitVec 2) (s : State) : exec (.amin q d g a k) s = execAmin q d g a k s := rfl
theorem exec_amax (q : BitVec 2) (d : BitVec 6) (g : BitVec 5) (a : BitVec 6) (k : BitVec 2) (s : State) : exec (.amax q d g a k) s = execAmax q d g a k s := rfl
theorem exec_aand (q : BitVec 2) (d : BitVec 6) (g : BitVec 5) (a : BitVec 6) (k : BitVec 2) (s : State) : exec (.aand q d g a k) s = execAand q d g a k s := rfl
theorem exec_aor (q : BitVec 2) (d : BitVec 6) (g : BitVec 5) (a : BitVec 6) (k : BitVec 2) (s : State) : exec (.aor q d g a k) s = execAor q d g a k s := rfl
theorem exec_axor (q : BitVec 2) (d : BitVec 6) (g : BitVec 5) (a : BitVec 6) (k : BitVec 2) (s : State) : exec (.axor q d g a k) s = execAxor q d g a k s := rfl
theorem exec_axchg (q : BitVec 2) (d : BitVec 6) (g : BitVec 5) (a : BitVec 6) (k : BitVec 2) (s : State) : exec (.axchg q d g a k) s = execAxchg q d g a k s := rfl
theorem exec_acas (q : BitVec 2) (d : BitVec 6) (g : BitVec 5) (a : BitVec 6) (k : BitVec 2) (s : State) : exec (.acas q d g a k) s = execAcas q d g a k s := rfl
theorem exec_ainc (q : BitVec 2) (d : BitVec 6) (g : BitVec 5) (a : BitVec 6) (k : BitVec 2) (s : State) : exec (.ainc q d g a k) s = execAinc q d g a k s := rfl
theorem exec_adec (q : BitVec 2) (d : BitVec 6) (g : BitVec 5) (a : BitVec 6) (k : BitVec 2) (s : State) : exec (.adec q d g a k) s = execAdec q d g a k s := rfl
theorem exec_afadd (q : BitVec 2) (d : BitVec 6) (g : BitVec 5) (a : BitVec 6) (k : BitVec 2) (s : State) : exec (.afadd q d g a k) s = execAfadd q d g a k s := rfl
theorem exec_ald (q : BitVec 1) (d : BitVec 6) (g : BitVec 5) (a : BitVec 6) (k : BitVec 2) (s : State) : exec (.ald q d g a k) s = execAld q d g a k s := rfl
theorem exec_ast (q : BitVec 1) (d : BitVec 6) (g : BitVec 5) (a : BitVec 6) (k : BitVec 2) (s : State) : exec (.ast q d g a k) s = execAst q d g a k s := rfl
theorem exec_ahint (h : BitVec 6) (g : BitVec 5) (s : State) : exec (.ahint h g) s = execAhint h g s := rfl
theorem exec_cpl (d : BitVec 6) (a : BitVec 6) (b : BitVec 6) (s : State) : exec (.cpl d a b) s = execCpl d a b s := rfl
theorem exec_cpb (d : BitVec 6) (a : BitVec 6) (b : BitVec 6) (s : State) : exec (.cpb d a b) s = execCpb d a b s := rfl
theorem exec_cprAdd (d : BitVec 6) (a : BitVec 6) (b : BitVec 6) (s : State) : exec (.cprAdd d a b) s = execCprAdd d a b s := rfl
theorem exec_cprMin (d : BitVec 6) (a : BitVec 6) (b : BitVec 6) (s : State) : exec (.cprMin d a b) s = execCprMin d a b s := rfl
theorem exec_cprMax (d : BitVec 6) (a : BitVec 6) (b : BitVec 6) (s : State) : exec (.cprMax d a b) s = execCprMax d a b s := rfl
theorem exec_cprFadd (d : BitVec 6) (a : BitVec 6) (b : BitVec 6) (s : State) : exec (.cprFadd d a b) s = execCprFadd d a b s := rfl
theorem exec_winit (d : BitVec 6) (a : BitVec 6) (b : BitVec 6) (s : State) : exec (.winit d a b) s = execWinit d a b s := rfl
theorem exec_wexp (d : BitVec 6) (a : BitVec 6) (s : State) : exec (.wexp d a) s = execWexp d a s := rfl
theorem exec_warr (d : BitVec 6) (s : State) : exec (.warr d) s = execWarr d s := rfl
theorem exec_wwait (d : BitVec 6) (s : State) : exec (.wwait d) s = execWwait d s := rfl
theorem exec_wtest (d : BitVec 6) (a : BitVec 6) (s : State) : exec (.wtest d a) s = execWtest d a s := rfl
theorem exec_fence (r : BitVec 2) (k : BitVec 3) (s : State) : exec (.fence r k) s = execFence r k s := rfl
theorem exec_fencei (s : State) : exec .fencei s = execFencei s := rfl
theorem exec_fencer (a : BitVec 6) (b : BitVec 6) (r : BitVec 2) (k : BitVec 3) (s : State) : exec (.fencer a b r k) s = execFencer a b r k s := rfl
theorem exec_mclaim (d : BitVec 6) (s : State) : exec (.mclaim d) s = execMclaim d s := rfl
theorem exec_mrel (d : BitVec 6) (s : State) : exec (.mrel d) s = execMrel d s := rfl
theorem exec_mld (d : BitVec 6) (a : BitVec 6) (b : BitVec 6) (s : State) : exec (.mld d a b) s = execMld d a b s := rfl
theorem exec_mst (d : BitVec 6) (a : BitVec 6) (b : BitVec 6) (s : State) : exec (.mst d a b) s = execMst d a b s := rfl
theorem exec_mzero (d : BitVec 6) (s : State) : exec (.mzero d) s = execMzero d s := rfl
theorem exec_macc (d : BitVec 6) (a : BitVec 6) (s : State) : exec (.macc d a) s = execMacc d a s := rfl
theorem exec_mshape (d : BitVec 6) (a : BitVec 6) (s : State) : exec (.mshape d a) s = execMshape d a s := rfl
theorem exec_mma (d : BitVec 6) (a : BitVec 6) (b : BitVec 6) (c : BitVec 5) (s : State) : exec (.mma d a b c) s = execMma d a b c s := rfl
theorem exec_spawn (d : BitVec 6) (a : BitVec 6) (b : BitVec 6) (s : State) : exec (.spawn d a b) s = execSpawn d a b s := rfl
theorem exec_spawnh (d : BitVec 6) (a : BitVec 6) (b : BitVec 6) (s : State) : exec (.spawnh d a b) s = execSpawnh d a b s := rfl
theorem exec_bin (d : BitVec 6) (a : BitVec 6) (s : State) : exec (.bin d a) s = execBin d a s := rfl
theorem exec_patch (a : BitVec 6) (b : BitVec 6) (s : State) : exec (.patch a b) s = execPatch a b s := rfl
theorem exec_release (a : BitVec 6) (s : State) : exec (.release a) s = execRelease a s := rfl
theorem exec_trap (sc : BitVec 3) (n : BitVec 6) (s : State) : exec (.trap sc n) s = execTrap sc n s := rfl
theorem exec_tret (s : State) : exec .tret s = execTret s := rfl
theorem exec_tlbi (a : BitVec 6) (b : BitVec 6) (s : State) : exec (.tlbi a b) s = execTlbi a b s := rfl
theorem exec_preempt (a : BitVec 6) (s : State) : exec (.preempt a) s = execPreempt a s := rfl
theorem exec_halt (s : State) : exec .halt s = execHalt s := rfl
theorem exec_brk (sc : BitVec 3) (n : BitVec 6) (s : State) : exec (.brk sc n) s = execBrk sc n s := rfl
theorem exec_rdsp (d : BitVec 6) (n : BitVec 12) (s : State) : exec (.rdsp d n) s = execRdsp d n s := rfl
theorem exec_wrsp (d : BitVec 6) (n : BitVec 12) (s : State) : exec (.wrsp d n) s = execWrsp d n s := rfl
theorem exec_deferredTrap (g : Nat) (s : State) : exec (.deferredTrap g) s = execDeferredTrap g s := rfl
theorem exec_yieldEnd (g : Nat) (s : State) : exec (.yieldEnd g) s = execYieldEnd g s := rfl
theorem exec_carryMessage (l : Nat) (im : Nat) (j : Nat) (s : State) : exec (.carryMessage l im j) s = execCarryMessage l im j s := rfl
theorem exec_carryFetch (l : Nat) (im : Nat) (j : Nat) (g : Nat) (s : State) : exec (.carryFetch l im j g) s = execCarryFetch l im j g s := rfl
theorem exec_eventWindowReset (t : Nat) (c : Nat) (s : State) : exec (.eventWindowReset t c) s = execEventWindowReset t c s := rfl
theorem exec_loadReply (x : Nat) (s : State) : exec (.loadReply x) s = execLoadReply x s := rfl
theorem exec_storeAck (x : Nat) (s : State) : exec (.storeAck x) s = execStoreAck x s := rfl
theorem exec_homeRequest (x : Nat) (s : State) : exec (.homeRequest x) s = execHomeRequest x s := rfl
theorem exec_wcDrain (cl : Nat) (n : Nat) (s : State) : exec (.wcDrain cl n) s = execWcDrain cl n s := rfl
theorem exec_req (n : Nat) (s : State) : exec (.req n) s = execReq n s := rfl
theorem exec_grant (n : Nat) (s : State) : exec (.grant n) s = execGrant n s := rfl
theorem exec_refuse (n : Nat) (s : State) : exec (.refuse n) s = execRefuse n s := rfl
theorem exec_recall (n : Nat) (s : State) : exec (.recall n) s = execRecall n s := rfl
theorem exec_giveup (n : Nat) (s : State) : exec (.giveup n) s = execGiveup n s := rfl
theorem exec_retSlip (n : Nat) (s : State) : exec (.retSlip n) s = execRetSlip n s := rfl
theorem exec_down (n : Nat) (s : State) : exec (.down n) s = execDown n s := rfl
theorem exec_up (n : Nat) (s : State) : exec (.up n) s = execUp n s := rfl
theorem exec_reloc (n : Nat) (s : State) : exec (.reloc n) s = execReloc n s := rfl
theorem exec_hold (n : Nat) (s : State) : exec (.hold n) s = execHold n s := rfl
theorem exec_ack (n : Nat) (s : State) : exec (.ack n) s = execAck n s := rfl
theorem exec_slipResend (n : Nat) (s : State) : exec (.slipResend n) s = execSlipResend n s := rfl
theorem exec_invalidate (n : Nat) (s : State) : exec (.invalidate n) s = execInvalidate n s := rfl
theorem exec_forward (n : Nat) (s : State) : exec (.forward n) s = execForward n s := rfl
theorem exec_gone (n : Nat) (s : State) : exec (.gone n) s = execGone n s := rfl
theorem exec_writeBack (n : Nat) (s : State) : exec (.writeBack n) s = execWriteBack n s := rfl
theorem exec_pageRecall (n : Nat) (s : State) : exec (.pageRecall n) s = execPageRecall n s := rfl
theorem exec_commonsResend (n : Nat) (s : State) : exec (.commonsResend n) s = execCommonsResend n s := rfl
theorem exec_sweepMarker (n : Nat) (s : State) : exec (.sweepMarker n) s = execSweepMarker n s := rfl
theorem exec_sweepAck (n : Nat) (s : State) : exec (.sweepAck n) s = execSweepAck n s := rfl
theorem exec_packetArrive (die : Nat) (s : State) : exec (.packetArrive die) s = execPacketArrive die s := rfl
theorem exec_packetOld (p : Nat) (s : State) : exec (.packetOld p) s = execPacketOld p s := rfl
theorem exec_injectStarve (die : Nat) (s : State) : exec (.injectStarve die) s = execInjectStarve die s := rfl
theorem exec_fabricPacket (p : Nat) (s : State) : exec (.fabricPacket p) s = execFabricPacket p s := rfl
theorem exec_creditReturn (dev : Nat) (plane : Nat) (s : State) : exec (.creditReturn dev plane) s = execCreditReturn dev plane s := rfl
theorem exec_reachLimit (x : Nat) (s : State) : exec (.reachLimit x) s = execReachLimit x s := rfl
theorem exec_flitReceive (lk : Nat) (q : Nat) (crcOk : Bool) (s : State) : exec (.flitReceive lk q crcOk) s = execFlitReceive lk q crcOk s := rfl
theorem exec_replayRequest (lk : Nat) (q : Nat) (s : State) : exec (.replayRequest lk q) s = execReplayRequest lk q s := rfl
theorem exec_linkRetrain (lk : Nat) (s : State) : exec (.linkRetrain lk) s = execLinkRetrain lk s := rfl
theorem exec_linkSettle (lk : Nat) (sideband : Bool) (s : State) : exec (.linkSettle lk sideband) s = execLinkSettle lk sideband s := rfl
theorem exec_linkRetire (lk : Nat) (s : State) : exec (.linkRetire lk) s = execLinkRetire lk s := rfl
theorem exec_chunk (n : Nat) (s : State) : exec (.chunk n) s = execChunk n s := rfl
theorem exec_chunkAck (n : Nat) (s : State) : exec (.chunkAck n) s = execChunkAck n s := rfl
theorem exec_chunkRetry (n : Nat) (s : State) : exec (.chunkRetry n) s = execChunkRetry n s := rfl
theorem exec_chunkResend (n : Nat) (s : State) : exec (.chunkResend n) s = execChunkResend n s := rfl
theorem exec_close (home : Nat) (st : Nat) (s : State) : exec (.close home st) s = execClose home st s := rfl
theorem exec_copyComplete (c : Nat) (s : State) : exec (.copyComplete c) s = execCopyComplete c s := rfl
theorem exec_passGrant (cl : Nat) (e : Nat) (s : State) : exec (.passGrant cl e) s = execPassGrant cl e s := rfl
theorem exec_passComplete (cl : Nat) (e : Nat) (s : State) : exec (.passComplete cl e) s = execPassComplete cl e s := rfl
theorem exec_rampEnd (cl : Nat) (e : Nat) (s : State) : exec (.rampEnd cl e) s = execRampEnd cl e s := rfl
theorem exec_launchEntry (q : Nat) (s : State) : exec (.launchEntry q) s = execLaunchEntry q s := rfl
theorem exec_waitEntry (q : Nat) (s : State) : exec (.waitEntry q) s = execWaitEntry q s := rfl
theorem exec_waitRecheck (q : Nat) (s : State) : exec (.waitRecheck q) s = execWaitRecheck q s := rfl
theorem exec_signalEntry (q : Nat) (s : State) : exec (.signalEntry q) s = execSignalEntry q s := rfl
theorem exec_nopEntry (q : Nat) (s : State) : exec (.nopEntry q) s = execNopEntry q s := rfl
theorem exec_qctlWrite (q : Nat) (val : Nat) (s : State) : exec (.qctlWrite q val) s = execQctlWrite q val s := rfl
theorem exec_qtailWrite (q : Nat) (val : Nat) (s : State) : exec (.qtailWrite q val) s = execQtailWrite q val s := rfl
theorem exec_haltClear (q : Nat) (s : State) : exec (.haltClear q) s = execHaltClear q s := rfl
theorem exec_ovfClear (q : Nat) (s : State) : exec (.ovfClear q) s = execOvfClear q s := rfl
theorem exec_registerWrite (page : Nat) (num : Nat) (val : Nat) (s : State) : exec (.registerWrite page num val) s = execRegisterWrite page num val s := rfl
theorem exec_phloWrite (val : Nat) (s : State) : exec (.phloWrite val) s = execPhloWrite val s := rfl
theorem exec_phhiWrite (val : Nat) (s : State) : exec (.phhiWrite val) s = execPhhiWrite val s := rfl
theorem exec_exloWrite (val : Nat) (s : State) : exec (.exloWrite val) s = execExloWrite val s := rfl
theorem exec_exhiWrite (val : Nat) (s : State) : exec (.exhiWrite val) s = execExhiWrite val s := rfl
theorem exec_taintClear (val : Nat) (s : State) : exec (.taintClear val) s = execTaintClear val s := rfl
theorem exec_taintClearDone (s : State) : exec .taintClearDone s = execTaintClearDone s := rfl
theorem exec_kill (val : Nat) (s : State) : exec (.kill val) s = execKill val s := rfl
theorem exec_killComplete (s : State) : exec .killComplete s = execKillComplete s := rfl
theorem exec_run (val : Nat) (s : State) : exec (.run val) s = execRun val s := rfl
theorem exec_preq (val : Nat) (s : State) : exec (.preq val) s = execPreq val s := rfl
theorem exec_symcmdTake (s : State) : exec .symcmdTake s = execSymcmdTake s := rfl
theorem exec_symcmdReturn (s : State) : exec .symcmdReturn s = execSymcmdReturn s := rfl
theorem exec_symTakeEnd (s : State) : exec .symTakeEnd s = execSymTakeEnd s := rfl
theorem exec_biasToDevice (he : Nat) (val : Nat) (s : State) : exec (.biasToDevice he val) s = execBiasToDevice he val s := rfl
theorem exec_biasToHost (he : Nat) (val : Nat) (s : State) : exec (.biasToHost he val) s = execBiasToHost he val s := rfl
theorem exec_cxlHostAccess (port : Nat) (wr : Bool) (pa : Nat) (val : Nat) (s : State) : exec (.cxlHostAccess port wr pa val) s = execCxlHostAccess port wr pa val s := rfl
theorem exec_ccAccess (wr : Bool) (pa : Nat) (n : Nat) (val : Nat) (s : State) : exec (.ccAccess wr pa n val) s = execCcAccess wr pa n val s := rfl
theorem exec_getVersion (port : Nat) (s : State) : exec (.getVersion port) s = execGetVersion port s := rfl
theorem exec_getCapabilities (port : Nat) (s : State) : exec (.getCapabilities port) s = execGetCapabilities port s := rfl
theorem exec_negotiateAlgorithms (port : Nat) (asym : Nat) (hash : Nat) (s : State) : exec (.negotiateAlgorithms port asym hash) s = execNegotiateAlgorithms port asym hash s := rfl
theorem exec_getDigests (port : Nat) (s : State) : exec (.getDigests port) s = execGetDigests port s := rfl
theorem exec_getCertificate (port : Nat) (s : State) : exec (.getCertificate port) s = execGetCertificate port s := rfl
theorem exec_challenge (port : Nat) (nonce : Nat) (s : State) : exec (.challenge port nonce) s = execChallenge port nonce s := rfl
theorem exec_getMeasurements (port : Nat) (idx : Nat) (s : State) : exec (.getMeasurements port idx) s = execGetMeasurements port idx s := rfl
theorem exec_keyExchange (port : Nat) (s : State) : exec (.keyExchange port) s = execKeyExchange port s := rfl
theorem exec_reset (ok0 : Bool) (ok1 : Bool) (s : State) : exec (.reset ok0 ok1) s = execReset ok0 ok1 s := rfl
theorem exec_powerUpWave (s : State) : exec .powerUpWave s = execPowerUpWave s := rfl
theorem exec_powerMeter (draw : Nat) (s : State) : exec (.powerMeter draw) s = execPowerMeter draw s := rfl
theorem exec_teamStart (k : Nat) (s : State) : exec (.teamStart k) s = execTeamStart k s := rfl
theorem exec_regionLoad (k : Nat) (s : State) : exec (.regionLoad k) s = execRegionLoad k s := rfl
theorem exec_loadRetry (k : Nat) (s : State) : exec (.loadRetry k) s = execLoadRetry k s := rfl
theorem exec_teamEnd (t : Nat) (s : State) : exec (.teamEnd t) s = execTeamEnd t s := rfl
theorem exec_launchComplete (l : Nat) (s : State) : exec (.launchComplete l) s = execLaunchComplete l s := rfl
theorem exec_depthExchange (die : Nat) (s : State) : exec (.depthExchange die) s = execDepthExchange die s := rfl
theorem exec_dieDepthExchange (die : Nat) (s : State) : exec (.dieDepthExchange die) s = execDieDepthExchange die s := rfl
theorem exec_steal (cl : Nat) (s : State) : exec (.steal cl) s = execSteal cl s := rfl
theorem exec_taskAgePromote (k : Nat) (s : State) : exec (.taskAgePromote k) s = execTaskAgePromote k s := rfl
theorem exec_boost (l : Nat) (s : State) : exec (.boost l) s = execBoost l s := rfl
theorem exec_budgetExceeded (l : Nat) (s : State) : exec (.budgetExceeded l) s = execBudgetExceeded l s := rfl
theorem exec_budgetEnd (l : Nat) (s : State) : exec (.budgetEnd l) s = execBudgetEnd l s := rfl
theorem exec_watchdog (g : Nat) (s : State) : exec (.watchdog g) s = execWatchdog g s := rfl
theorem exec_borrowWaitPreempt (t : Nat) (s : State) : exec (.borrowWaitPreempt t) s = execBorrowWaitPreempt t s := rfl
theorem exec_preemption (t : Nat) (s : State) : exec (.preemption t) s = execPreemption t s := rfl
theorem exec_preemptSave (t : Nat) (s : State) : exec (.preemptSave t) s = execPreemptSave t s := rfl
theorem exec_resume (t : Nat) (s : State) : exec (.resume t) s = execResume t s := rfl
theorem exec_dividerComplete (cl : Nat) (core : Nat) (s : State) : exec (.dividerComplete cl core) s = execDividerComplete cl core s := rfl
theorem exec_computePhaseEnd (cl : Nat) (e : Nat) (s : State) : exec (.computePhaseEnd cl e) s = execComputePhaseEnd cl e s := rfl
theorem exec_tableWalkEnd (w : Nat) (s : State) : exec (.tableWalkEnd w) s = execTableWalkEnd w s := rfl
theorem exec_birspi (he : Nat) (data : List (Nat × BitVec 8)) (s : State) : exec (.birspi he data) s = execBirspi he data s := rfl
theorem exec_cxlHostLink (port : Nat) (st : Nat) (s : State) : exec (.cxlHostLink port st) s = execCxlHostLink port st s := rfl
theorem exec_domainStart (num : Nat) (devs : Nat) (s : State) : exec (.domainStart num devs) s = execDomainStart num devs s := rfl
theorem exec_uncorrectableError (wh : Nat) (pa : Nat) (s : State) : exec (.uncorrectableError wh pa) s = execUncorrectableError wh pa s := rfl
theorem exec_correctedError (s : State) : exec .correctedError s = execCorrectedError s := rfl

end Sys2Proof.Machine
end

