-- ==== Sys2Proof/Laws/Tables.lean ====
section
/-! SUPPORT. Laws of numbered tables, of memory as bytes, and of masks of lanes. -/

namespace Sys2Proof.Machine

variable {α : Type}

/-! ### Tables -/

@[simp] theorem tfind_nil (n : Nat) : tfind ([] : Table α) n = none := rfl

theorem tfind_tdel (m : Table α) (n k : Nat) : tfind (tdel m n) k = if k = n then none else tfind m k := by
  induction m with
  | nil => simp [tdel]
  | cons e m ih =>
    obtain ⟨j, x⟩ := e
    simp only [tdel] at ih ⊢
    by_cases hj : j = n
    · subst hj
      simp only [List.filter_cons, bne_self_eq_false, Bool.false_eq_true, if_false, ih, tfind]
      by_cases hk : k = j
      · simp [hk]
      · simp [hk, Ne.symm hk]
    · simp only [List.filter_cons, bne_iff_ne, ne_eq, hj, not_false_eq_true, if_true, tfind, ih]
      by_cases hk : j = k
      · subst hk; simp [hj]
      · simp [hk]

theorem tfind_tins (m : Table α) (n k : Nat) (x : α) (h : tfind m n = none) :
    tfind (tins m n x) k = if k = n then some x else tfind m k := by
  induction m with
  | nil => by_cases hk : n = k <;> simp [tins, tfind, hk, eq_comm]
  | cons e m ih =>
    obtain ⟨j, y⟩ := e
    have hj : ¬ j = n := fun hj => by simp [tfind, hj] at h
    have hm : tfind m n = none := by simpa [tfind, hj] using h
    by_cases hlt : n < j
    · simp only [tins, hlt, if_true, tfind]
      by_cases hk : n = k
      · simp [hk]
      · simp [hk, Ne.symm hk]
    · simp only [tins, hlt, if_false, tfind, ih hm]
      by_cases hk : j = k
      · subst hk; simp [hj]
      · simp [hk]

/-- What a table reads after a write. -/
theorem tfind_tput (m : Table α) (n k : Nat) (x : α) : tfind (tput m n x) k = if k = n then some x else tfind m k := by
  rw [tput, tfind_tins _ _ _ _ (by simp [tfind_tdel]), tfind_tdel]
  by_cases h : k = n <;> simp [h]

theorem tget_tput (d : α) (m : Table α) (n k : Nat) (x : α) : tget d (tput m n x) k = if k = n then x else tget d m k := by
  simp only [tget, tfind_tput]
  by_cases h : k = n <;> simp [h]

@[simp] theorem tget_tput_same (d : α) (m : Table α) (n : Nat) (x : α) : tget d (tput m n x) n = x := by simp [tget_tput]

@[simp] theorem tget_tput_other (d : α) (m : Table α) {n k : Nat} (x : α) (h : k ≠ n) :
    tget d (tput m n x) k = tget d m k := by simp [tget_tput, h]

theorem tget_tdel (d : α) (m : Table α) (n k : Nat) : tget d (tdel m n) k = if k = n then d else tget d m k := by
  simp only [tget, tfind_tdel]
  by_cases h : k = n <;> simp [h]

/-- What a canonical table reads after a write. -/
theorem tget_mset [DecidableEq α] (d : α) (m : Table α) (n k : Nat) (x : α) :
    tget d (mset d m n x) k = if k = n then x else tget d m k := by
  unfold mset
  by_cases hx : x = d
  · simp only [hx, if_true, tget_tdel]
  · simp only [hx, if_false, tget_tput]

/-! ### The canonical form -/

theorem risesFrom_mono {m : Table α} {a b : Nat} (hab : a ≤ b) (h : risesFrom b m = true) : risesFrom a m = true := by
  cases m with
  | nil => rfl
  | cons e m =>
    simp only [risesFrom, Bool.and_eq_true, decide_eq_true_eq] at h ⊢
    exact ⟨by omega, h.2⟩

theorem risesFrom_filter {m : Table α} {b : Nat} (p : Nat × α → Bool) (h : risesFrom b m = true) :
    risesFrom b (m.filter p) = true := by
  induction m generalizing b with
  | nil => rfl
  | cons e m ih =>
    simp only [risesFrom, Bool.and_eq_true, decide_eq_true_eq] at h
    by_cases hp : p e = true
    · simp only [List.filter_cons, hp, if_true, risesFrom, Bool.and_eq_true, decide_eq_true_eq]
      exact ⟨h.1, ih h.2⟩
    · simp only [List.filter_cons, hp]
      exact ih (risesFrom_mono (by omega) h.2)

theorem risesFrom_tins {m : Table α} {b n : Nat} (x : α) (hb : b ≤ n) (h : risesFrom b m = true)
    (hn : tfind m n = none) : risesFrom b (tins m n x) = true := by
  induction m generalizing b with
  | nil => simp [tins, risesFrom, hb]
  | cons e m ih =>
    obtain ⟨j, y⟩ := e
    have hj : ¬ j = n := fun hj => by simp [tfind, hj] at hn
    have hm : tfind m n = none := by simpa [tfind, hj] using hn
    simp only [risesFrom, Bool.and_eq_true, decide_eq_true_eq] at h
    by_cases hlt : n < j
    · simp only [tins, hlt, if_true, risesFrom, Bool.and_eq_true, decide_eq_true_eq]
      exact ⟨hb, by omega, h.2⟩
    · simp only [tins, hlt, if_false, risesFrom, Bool.and_eq_true, decide_eq_true_eq]
      exact ⟨h.1, ih (by omega) h.2 hm⟩

theorem risesFrom_tput {m : Table α} (n : Nat) (x : α) (h : risesFrom 0 m = true) : risesFrom 0 (tput m n x) = true :=
  risesFrom_tins x (Nat.zero_le n) (risesFrom_filter _ h) (by simp [tfind_tdel])

/-- Every entry that a table lists after a write is an old one or the one written. -/
theorem all_tins {m : Table α} {n : Nat} {x : α} {p : Nat × α → Bool} (h : m.all p = true) (hx : p (n, x) = true) :
    (tins m n x).all p = true := by
  induction m with
  | nil => simp [tins, hx]
  | cons e m ih =>
    simp only [List.all_cons, Bool.and_eq_true] at h
    by_cases hlt : n < e.1
    · simp [tins, hlt, hx, h.1, h.2]
    · simp only [tins, hlt, if_false, List.all_cons, h.1, Bool.true_and]
      exact ih h.2

theorem all_filter {l : List (Nat × α)} {p q : Nat × α → Bool} (h : l.all p = true) : (l.filter q).all p = true := by
  rw [List.all_eq_true] at h ⊢
  exact fun e he => h e (List.mem_of_mem_filter he)

/-! ### Memory -/

@[simp] theorem Memory.wf_nil : Memory.wf [] = true := rfl

/-- Removing cells keeps the canonical form. -/
theorem Memory.wf_filter {m : List Host.Cell} (p : Host.Cell → Bool) (h : Memory.wf m = true) :
    Memory.wf (m.filter p) = true := by
  simp only [Memory.wf, Bool.and_eq_true] at h ⊢
  exact ⟨risesFrom_filter p h.1, all_filter h.2⟩

/-- Writing a byte keeps the canonical form. -/
theorem Memory.wf_writeByte {m : List Host.Cell} (a : Nat) (b : Byte) (h : Memory.wf m = true) :
    Memory.wf (writeByte m a b) = true := by
  unfold writeByte mset
  by_cases hb : b = Config.ramByte
  · simp only [hb, if_true]
    exact Memory.wf_filter _ h
  · simp only [hb, if_false, Memory.wf, Bool.and_eq_true] at h ⊢
    exact ⟨risesFrom_tput a b h.1, all_tins (all_filter h.2) (by simpa using hb)⟩

/-- Writing n bytes keeps the canonical form. -/
theorem Memory.wf_writeLe {m : List Host.Cell} (n a v : Nat) (h : Memory.wf m = true) :
    Memory.wf (writeLe m a v n) = true := by
  induction n generalizing a v with
  | zero => exact h
  | succ n ih => exact Memory.wf_writeByte a _ (ih (a + 1) (v / 256))

/-- A byte reads as written, and every other byte as before. -/
theorem readByte_writeByte (m : List Host.Cell) (a k : Nat) (b : Byte) :
    readByte (writeByte m a b) k = if k = a then b else readByte m k := tget_mset _ _ _ _ _

/-- Writing n bytes leaves every byte outside them as it was. -/
theorem readByte_writeLe_other (m : List Host.Cell) (n a v k : Nat) (h : k < a ∨ a + n ≤ k) :
    readByte (writeLe m a v n) k = readByte m k := by
  induction n generalizing a v with
  | zero => rfl
  | succ n ih =>
    rw [writeLe, readByte_writeByte, if_neg (by omega), ih (a + 1) (v / 256) (by omega)]

/-- Reading n bytes depends on those bytes only. -/
theorem readLe_congr {m m' : List Host.Cell} {n a : Nat} (h : ∀ k, a ≤ k → k < a + n → readByte m k = readByte m' k) :
    readLe m a n = readLe m' a n := by
  induction n generalizing a with
  | zero => rfl
  | succ n ih =>
    rw [readLe, readLe, h a (by omega) (by omega), ih (fun k h1 h2 => h k (by omega) (by omega))]

/-- A number of n bytes reads back as written. -/
theorem readLe_writeLe (m : List Host.Cell) (n a v : Nat) : readLe (writeLe m a v n) a n = v % 256 ^ n := by
  induction n generalizing a v with
  | zero => simp [readLe, Nat.mod_one]
  | succ n ih =>
    have hrest : readLe (writeByte (writeLe m (a + 1) (v / 256) n) a (BitVec.ofNat 8 v)) (a + 1) n
        = readLe (writeLe m (a + 1) (v / 256) n) (a + 1) n :=
      readLe_congr (fun k h1 _ => by rw [readByte_writeByte, if_neg (by omega)])
    rw [readLe, writeLe, hrest, ih, readByte_writeByte, if_pos rfl, BitVec.toNat_ofNat, Nat.pow_succ 256 n, Nat.mul_comm (256 ^ n),
      show v % (256 * 256 ^ n) = v % 256 + 256 * (v / 256 % 256 ^ n) from Nat.mod_mul]

/-! ### Lanes -/

theorem mem_lanesOf {m : Mask} {l : Nat} : l ∈ lanesOf m ↔ m.getLsbD l = true := by
  simp only [lanesOf, List.mem_filter, List.mem_range]
  exact ⟨fun h => h.2, fun h => ⟨BitVec.lt_of_getLsbD h, h⟩⟩

theorem lt_of_mem_lanesOf {m : Mask} {l : Nat} (h : l ∈ lanesOf m) : l < 32 := by
  simp only [lanesOf, List.mem_filter, List.mem_range] at h
  exact h.1

theorem getLsbD_laneBit (i l : Nat) (h : i < 32) : (laneBit i).getLsbD l = decide (l = i) := by
  simp only [laneBit, BitVec.getLsbD_ofNat, Nat.testBit_two_pow]
  by_cases hl : l < 32
  · simp [hl, eq_comm]
  · simp [hl]; omega

theorem getLsbD_foldl_laneBit (ls : List Nat) (m : Mask) (l : Nat) (h : ∀ i ∈ ls, i < 32) :
    (ls.foldl (fun m i => m ||| laneBit i) m).getLsbD l = (m.getLsbD l || decide (l ∈ ls)) := by
  induction ls generalizing m with
  | nil => simp
  | cons i ls ih =>
    rw [List.foldl_cons, ih _ (fun j hj => h j (List.mem_cons_of_mem _ hj)), BitVec.getLsbD_or,
      getLsbD_laneBit i l (h i List.mem_cons_self)]
    by_cases hl : l = i <;> simp [hl]

/-- The mask of a list of lanes holds exactly those lanes. -/
theorem getLsbD_maskOf (ls : List Nat) (l : Nat) (h : ∀ i ∈ ls, i < 32) : (maskOf ls).getLsbD l = decide (l ∈ ls) := by
  rw [maskOf, getLsbD_foldl_laneBit ls 0 l h]
  simp

/-- The lanes of a mask make the mask. -/
theorem maskOf_lanesOf (m : Mask) : maskOf (lanesOf m) = m := by
  apply BitVec.eq_of_getLsbD_eq
  intro l _
  rw [getLsbD_maskOf _ _ (fun i hi => lt_of_mem_lanesOf hi)]
  by_cases h : m.getLsbD l = true <;> simp [mem_lanesOf, h]

end Sys2Proof.Machine
end

