-- ==== Sys2Proof/Laws/State.lean ====
section
/-! SUPPORT. What each named update of the state leaves in each field, and what the readers of the state see after it. -/

namespace Sys2Proof.Machine

/-! ### State.putGroup -/

section

variable (s : State) (k : Nat) (g : Group)

@[simp] theorem State.putGroup_cycle : (s.putGroup k g).cycle = s.cycle := rfl
@[simp] theorem State.putGroup_cur : (s.putGroup k g).cur = s.cur := rfl
@[simp] theorem State.putGroup_groups : (s.putGroup k g).groups = tput s.groups k g := rfl
@[simp] theorem State.putGroup_teams : (s.putGroup k g).teams = s.teams := rfl
@[simp] theorem State.putGroup_launches : (s.putGroup k g).launches = s.launches := rfl
@[simp] theorem State.putGroup_tasks : (s.putGroup k g).tasks = s.tasks := rfl
@[simp] theorem State.putGroup_clusters : (s.putGroup k g).clusters = s.clusters := rfl
@[simp] theorem State.putGroup_ctxs : (s.putGroup k g).ctxs = s.ctxs := rfl
@[simp] theorem State.putGroup_cc : (s.putGroup k g).cc = s.cc := rfl
@[simp] theorem State.putGroup_exps : (s.putGroup k g).exps = s.exps := rfl
@[simp] theorem State.putGroup_queues : (s.putGroup k g).queues = s.queues := rfl
@[simp] theorem State.putGroup_mem : (s.putGroup k g).mem = s.mem := rfl
@[simp] theorem State.putGroup_peers : (s.putGroup k g).peers = s.peers := rfl
@[simp] theorem State.putGroup_circ : (s.putGroup k g).circ = s.circ := rfl
@[simp] theorem State.putGroup_reqs : (s.putGroup k g).reqs = s.reqs := rfl
@[simp] theorem State.putGroup_slips : (s.putGroup k g).slips = s.slips := rfl
@[simp] theorem State.putGroup_abroad : (s.putGroup k g).abroad = s.abroad := rfl
@[simp] theorem State.putGroup_pins : (s.putGroup k g).pins = s.pins := rfl
@[simp] theorem State.putGroup_walks : (s.putGroup k g).walks = s.walks := rfl
@[simp] theorem State.putGroup_catalogue : (s.putGroup k g).catalogue = s.catalogue := rfl
@[simp] theorem State.putGroup_turn : (s.putGroup k g).turn = s.turn := rfl
@[simp] theorem State.putGroup_used : (s.putGroup k g).used = s.used := rfl
@[simp] theorem State.putGroup_refusals : (s.putGroup k g).refusals = s.refusals := rfl
@[simp] theorem State.putGroup_pages : (s.putGroup k g).pages = s.pages := rfl
@[simp] theorem State.putGroup_cmsgs : (s.putGroup k g).cmsgs = s.cmsgs := rfl
@[simp] theorem State.putGroup_sweeps : (s.putGroup k g).sweeps = s.sweeps := rfl
@[simp] theorem State.putGroup_txns : (s.putGroup k g).txns = s.txns := rfl
@[simp] theorem State.putGroup_copies : (s.putGroup k g).copies = s.copies := rfl
@[simp] theorem State.putGroup_chunks : (s.putGroup k g).chunks = s.chunks := rfl
@[simp] theorem State.putGroup_streams : (s.putGroup k g).streams = s.streams := rfl
@[simp] theorem State.putGroup_carried : (s.putGroup k g).carried = s.carried := rfl
@[simp] theorem State.putGroup_ranges : (s.putGroup k g).ranges = s.ranges := rfl
@[simp] theorem State.putGroup_net : (s.putGroup k g).net = s.net := rfl
@[simp] theorem State.putGroup_hostEdges : (s.putGroup k g).hostEdges = s.hostEdges := rfl
@[simp] theorem State.putGroup_ports : (s.putGroup k g).ports = s.ports := rfl
@[simp] theorem State.putGroup_topo : (s.putGroup k g).topo = s.topo := rfl
@[simp] theorem State.putGroup_spdm : (s.putGroup k g).spdm = s.spdm := rfl
@[simp] theorem State.putGroup_awake : (s.putGroup k g).awake = s.awake := rfl
@[simp] theorem State.putGroup_stage : (s.putGroup k g).stage = s.stage := rfl
@[simp] theorem State.putGroup_throttled : (s.putGroup k g).throttled = s.throttled := rfl
@[simp] theorem State.putGroup_rotor : (s.putGroup k g).rotor = s.rotor := rfl
@[simp] theorem State.putGroup_kill : (s.putGroup k g).kill = s.kill := rfl
@[simp] theorem State.putGroup_interrupts : (s.putGroup k g).interrupts = s.interrupts := rfl
@[simp] theorem State.putGroup_poison : (s.putGroup k g).poison = s.poison := rfl
@[simp] theorem State.putGroup_corrected : (s.putGroup k g).corrected = s.corrected := rfl
@[simp] theorem State.putGroup_stopped : (s.putGroup k g).stopped = s.stopped := rfl
@[simp] theorem State.putGroup_nextId : (s.putGroup k g).nextId = s.nextId := rfl
@[simp] theorem State.putGroup_nextHandle : (s.putGroup k g).nextHandle = s.nextHandle := rfl
@[simp] theorem State.putGroup_free : (s.putGroup k g).free = s.free := rfl
@[simp] theorem State.putGroup_agenda : (s.putGroup k g).agenda = s.agenda := rfl
@[simp] theorem State.putGroup_turns : (s.putGroup k g).turns = s.turns := rfl
@[simp] theorem State.putGroup_picks : (s.putGroup k g).picks = s.picks := rfl
@[simp] theorem State.putGroup_ticked : (s.putGroup k g).ticked = s.ticked := rfl
@[simp] theorem State.putGroup_stalled : (s.putGroup k g).stalled = s.stalled := rfl

end

/-! ### State.setGrp -/

section

variable (s : State) (g : Group)

@[simp] theorem State.setGrp_cycle : (s.setGrp g).cycle = s.cycle := rfl
@[simp] theorem State.setGrp_cur : (s.setGrp g).cur = s.cur := rfl
@[simp] theorem State.setGrp_groups : (s.setGrp g).groups = tput s.groups s.cur g := rfl
@[simp] theorem State.setGrp_teams : (s.setGrp g).teams = s.teams := rfl
@[simp] theorem State.setGrp_launches : (s.setGrp g).launches = s.launches := rfl
@[simp] theorem State.setGrp_tasks : (s.setGrp g).tasks = s.tasks := rfl
@[simp] theorem State.setGrp_clusters : (s.setGrp g).clusters = s.clusters := rfl
@[simp] theorem State.setGrp_ctxs : (s.setGrp g).ctxs = s.ctxs := rfl
@[simp] theorem State.setGrp_cc : (s.setGrp g).cc = s.cc := rfl
@[simp] theorem State.setGrp_exps : (s.setGrp g).exps = s.exps := rfl
@[simp] theorem State.setGrp_queues : (s.setGrp g).queues = s.queues := rfl
@[simp] theorem State.setGrp_mem : (s.setGrp g).mem = s.mem := rfl
@[simp] theorem State.setGrp_peers : (s.setGrp g).peers = s.peers := rfl
@[simp] theorem State.setGrp_circ : (s.setGrp g).circ = s.circ := rfl
@[simp] theorem State.setGrp_reqs : (s.setGrp g).reqs = s.reqs := rfl
@[simp] theorem State.setGrp_slips : (s.setGrp g).slips = s.slips := rfl
@[simp] theorem State.setGrp_abroad : (s.setGrp g).abroad = s.abroad := rfl
@[simp] theorem State.setGrp_pins : (s.setGrp g).pins = s.pins := rfl
@[simp] theorem State.setGrp_walks : (s.setGrp g).walks = s.walks := rfl
@[simp] theorem State.setGrp_catalogue : (s.setGrp g).catalogue = s.catalogue := rfl
@[simp] theorem State.setGrp_turn : (s.setGrp g).turn = s.turn := rfl
@[simp] theorem State.setGrp_used : (s.setGrp g).used = s.used := rfl
@[simp] theorem State.setGrp_refusals : (s.setGrp g).refusals = s.refusals := rfl
@[simp] theorem State.setGrp_pages : (s.setGrp g).pages = s.pages := rfl
@[simp] theorem State.setGrp_cmsgs : (s.setGrp g).cmsgs = s.cmsgs := rfl
@[simp] theorem State.setGrp_sweeps : (s.setGrp g).sweeps = s.sweeps := rfl
@[simp] theorem State.setGrp_txns : (s.setGrp g).txns = s.txns := rfl
@[simp] theorem State.setGrp_copies : (s.setGrp g).copies = s.copies := rfl
@[simp] theorem State.setGrp_chunks : (s.setGrp g).chunks = s.chunks := rfl
@[simp] theorem State.setGrp_streams : (s.setGrp g).streams = s.streams := rfl
@[simp] theorem State.setGrp_carried : (s.setGrp g).carried = s.carried := rfl
@[simp] theorem State.setGrp_ranges : (s.setGrp g).ranges = s.ranges := rfl
@[simp] theorem State.setGrp_net : (s.setGrp g).net = s.net := rfl
@[simp] theorem State.setGrp_hostEdges : (s.setGrp g).hostEdges = s.hostEdges := rfl
@[simp] theorem State.setGrp_ports : (s.setGrp g).ports = s.ports := rfl
@[simp] theorem State.setGrp_topo : (s.setGrp g).topo = s.topo := rfl
@[simp] theorem State.setGrp_spdm : (s.setGrp g).spdm = s.spdm := rfl
@[simp] theorem State.setGrp_awake : (s.setGrp g).awake = s.awake := rfl
@[simp] theorem State.setGrp_stage : (s.setGrp g).stage = s.stage := rfl
@[simp] theorem State.setGrp_throttled : (s.setGrp g).throttled = s.throttled := rfl
@[simp] theorem State.setGrp_rotor : (s.setGrp g).rotor = s.rotor := rfl
@[simp] theorem State.setGrp_kill : (s.setGrp g).kill = s.kill := rfl
@[simp] theorem State.setGrp_interrupts : (s.setGrp g).interrupts = s.interrupts := rfl
@[simp] theorem State.setGrp_poison : (s.setGrp g).poison = s.poison := rfl
@[simp] theorem State.setGrp_corrected : (s.setGrp g).corrected = s.corrected := rfl
@[simp] theorem State.setGrp_stopped : (s.setGrp g).stopped = s.stopped := rfl
@[simp] theorem State.setGrp_nextId : (s.setGrp g).nextId = s.nextId := rfl
@[simp] theorem State.setGrp_nextHandle : (s.setGrp g).nextHandle = s.nextHandle := rfl
@[simp] theorem State.setGrp_free : (s.setGrp g).free = s.free := rfl
@[simp] theorem State.setGrp_agenda : (s.setGrp g).agenda = s.agenda := rfl
@[simp] theorem State.setGrp_turns : (s.setGrp g).turns = s.turns := rfl
@[simp] theorem State.setGrp_picks : (s.setGrp g).picks = s.picks := rfl
@[simp] theorem State.setGrp_ticked : (s.setGrp g).ticked = s.ticked := rfl
@[simp] theorem State.setGrp_stalled : (s.setGrp g).stalled = s.stalled := rfl

end

/-! ### State.putTeam -/

section

variable (s : State) (k : Nat) (t : Team)

@[simp] theorem State.putTeam_cycle : (s.putTeam k t).cycle = s.cycle := rfl
@[simp] theorem State.putTeam_cur : (s.putTeam k t).cur = s.cur := rfl
@[simp] theorem State.putTeam_groups : (s.putTeam k t).groups = s.groups := rfl
@[simp] theorem State.putTeam_teams : (s.putTeam k t).teams = tput s.teams k t := rfl
@[simp] theorem State.putTeam_launches : (s.putTeam k t).launches = s.launches := rfl
@[simp] theorem State.putTeam_tasks : (s.putTeam k t).tasks = s.tasks := rfl
@[simp] theorem State.putTeam_clusters : (s.putTeam k t).clusters = s.clusters := rfl
@[simp] theorem State.putTeam_ctxs : (s.putTeam k t).ctxs = s.ctxs := rfl
@[simp] theorem State.putTeam_cc : (s.putTeam k t).cc = s.cc := rfl
@[simp] theorem State.putTeam_exps : (s.putTeam k t).exps = s.exps := rfl
@[simp] theorem State.putTeam_queues : (s.putTeam k t).queues = s.queues := rfl
@[simp] theorem State.putTeam_mem : (s.putTeam k t).mem = s.mem := rfl
@[simp] theorem State.putTeam_peers : (s.putTeam k t).peers = s.peers := rfl
@[simp] theorem State.putTeam_circ : (s.putTeam k t).circ = s.circ := rfl
@[simp] theorem State.putTeam_reqs : (s.putTeam k t).reqs = s.reqs := rfl
@[simp] theorem State.putTeam_slips : (s.putTeam k t).slips = s.slips := rfl
@[simp] theorem State.putTeam_abroad : (s.putTeam k t).abroad = s.abroad := rfl
@[simp] theorem State.putTeam_pins : (s.putTeam k t).pins = s.pins := rfl
@[simp] theorem State.putTeam_walks : (s.putTeam k t).walks = s.walks := rfl
@[simp] theorem State.putTeam_catalogue : (s.putTeam k t).catalogue = s.catalogue := rfl
@[simp] theorem State.putTeam_turn : (s.putTeam k t).turn = s.turn := rfl
@[simp] theorem State.putTeam_used : (s.putTeam k t).used = s.used := rfl
@[simp] theorem State.putTeam_refusals : (s.putTeam k t).refusals = s.refusals := rfl
@[simp] theorem State.putTeam_pages : (s.putTeam k t).pages = s.pages := rfl
@[simp] theorem State.putTeam_cmsgs : (s.putTeam k t).cmsgs = s.cmsgs := rfl
@[simp] theorem State.putTeam_sweeps : (s.putTeam k t).sweeps = s.sweeps := rfl
@[simp] theorem State.putTeam_txns : (s.putTeam k t).txns = s.txns := rfl
@[simp] theorem State.putTeam_copies : (s.putTeam k t).copies = s.copies := rfl
@[simp] theorem State.putTeam_chunks : (s.putTeam k t).chunks = s.chunks := rfl
@[simp] theorem State.putTeam_streams : (s.putTeam k t).streams = s.streams := rfl
@[simp] theorem State.putTeam_carried : (s.putTeam k t).carried = s.carried := rfl
@[simp] theorem State.putTeam_ranges : (s.putTeam k t).ranges = s.ranges := rfl
@[simp] theorem State.putTeam_net : (s.putTeam k t).net = s.net := rfl
@[simp] theorem State.putTeam_hostEdges : (s.putTeam k t).hostEdges = s.hostEdges := rfl
@[simp] theorem State.putTeam_ports : (s.putTeam k t).ports = s.ports := rfl
@[simp] theorem State.putTeam_topo : (s.putTeam k t).topo = s.topo := rfl
@[simp] theorem State.putTeam_spdm : (s.putTeam k t).spdm = s.spdm := rfl
@[simp] theorem State.putTeam_awake : (s.putTeam k t).awake = s.awake := rfl
@[simp] theorem State.putTeam_stage : (s.putTeam k t).stage = s.stage := rfl
@[simp] theorem State.putTeam_throttled : (s.putTeam k t).throttled = s.throttled := rfl
@[simp] theorem State.putTeam_rotor : (s.putTeam k t).rotor = s.rotor := rfl
@[simp] theorem State.putTeam_kill : (s.putTeam k t).kill = s.kill := rfl
@[simp] theorem State.putTeam_interrupts : (s.putTeam k t).interrupts = s.interrupts := rfl
@[simp] theorem State.putTeam_poison : (s.putTeam k t).poison = s.poison := rfl
@[simp] theorem State.putTeam_corrected : (s.putTeam k t).corrected = s.corrected := rfl
@[simp] theorem State.putTeam_stopped : (s.putTeam k t).stopped = s.stopped := rfl
@[simp] theorem State.putTeam_nextId : (s.putTeam k t).nextId = s.nextId := rfl
@[simp] theorem State.putTeam_nextHandle : (s.putTeam k t).nextHandle = s.nextHandle := rfl
@[simp] theorem State.putTeam_free : (s.putTeam k t).free = s.free := rfl
@[simp] theorem State.putTeam_agenda : (s.putTeam k t).agenda = s.agenda := rfl
@[simp] theorem State.putTeam_turns : (s.putTeam k t).turns = s.turns := rfl
@[simp] theorem State.putTeam_picks : (s.putTeam k t).picks = s.picks := rfl
@[simp] theorem State.putTeam_ticked : (s.putTeam k t).ticked = s.ticked := rfl
@[simp] theorem State.putTeam_stalled : (s.putTeam k t).stalled = s.stalled := rfl

end

/-! ### State.setTeam -/

section

variable (s : State) (t : Team)

@[simp] theorem State.setTeam_cycle : (s.setTeam t).cycle = s.cycle := rfl
@[simp] theorem State.setTeam_cur : (s.setTeam t).cur = s.cur := rfl
@[simp] theorem State.setTeam_groups : (s.setTeam t).groups = s.groups := rfl
@[simp] theorem State.setTeam_teams : (s.setTeam t).teams = tput s.teams s.grp.team t := rfl
@[simp] theorem State.setTeam_launches : (s.setTeam t).launches = s.launches := rfl
@[simp] theorem State.setTeam_tasks : (s.setTeam t).tasks = s.tasks := rfl
@[simp] theorem State.setTeam_clusters : (s.setTeam t).clusters = s.clusters := rfl
@[simp] theorem State.setTeam_ctxs : (s.setTeam t).ctxs = s.ctxs := rfl
@[simp] theorem State.setTeam_cc : (s.setTeam t).cc = s.cc := rfl
@[simp] theorem State.setTeam_exps : (s.setTeam t).exps = s.exps := rfl
@[simp] theorem State.setTeam_queues : (s.setTeam t).queues = s.queues := rfl
@[simp] theorem State.setTeam_mem : (s.setTeam t).mem = s.mem := rfl
@[simp] theorem State.setTeam_peers : (s.setTeam t).peers = s.peers := rfl
@[simp] theorem State.setTeam_circ : (s.setTeam t).circ = s.circ := rfl
@[simp] theorem State.setTeam_reqs : (s.setTeam t).reqs = s.reqs := rfl
@[simp] theorem State.setTeam_slips : (s.setTeam t).slips = s.slips := rfl
@[simp] theorem State.setTeam_abroad : (s.setTeam t).abroad = s.abroad := rfl
@[simp] theorem State.setTeam_pins : (s.setTeam t).pins = s.pins := rfl
@[simp] theorem State.setTeam_walks : (s.setTeam t).walks = s.walks := rfl
@[simp] theorem State.setTeam_catalogue : (s.setTeam t).catalogue = s.catalogue := rfl
@[simp] theorem State.setTeam_turn : (s.setTeam t).turn = s.turn := rfl
@[simp] theorem State.setTeam_used : (s.setTeam t).used = s.used := rfl
@[simp] theorem State.setTeam_refusals : (s.setTeam t).refusals = s.refusals := rfl
@[simp] theorem State.setTeam_pages : (s.setTeam t).pages = s.pages := rfl
@[simp] theorem State.setTeam_cmsgs : (s.setTeam t).cmsgs = s.cmsgs := rfl
@[simp] theorem State.setTeam_sweeps : (s.setTeam t).sweeps = s.sweeps := rfl
@[simp] theorem State.setTeam_txns : (s.setTeam t).txns = s.txns := rfl
@[simp] theorem State.setTeam_copies : (s.setTeam t).copies = s.copies := rfl
@[simp] theorem State.setTeam_chunks : (s.setTeam t).chunks = s.chunks := rfl
@[simp] theorem State.setTeam_streams : (s.setTeam t).streams = s.streams := rfl
@[simp] theorem State.setTeam_carried : (s.setTeam t).carried = s.carried := rfl
@[simp] theorem State.setTeam_ranges : (s.setTeam t).ranges = s.ranges := rfl
@[simp] theorem State.setTeam_net : (s.setTeam t).net = s.net := rfl
@[simp] theorem State.setTeam_hostEdges : (s.setTeam t).hostEdges = s.hostEdges := rfl
@[simp] theorem State.setTeam_ports : (s.setTeam t).ports = s.ports := rfl
@[simp] theorem State.setTeam_topo : (s.setTeam t).topo = s.topo := rfl
@[simp] theorem State.setTeam_spdm : (s.setTeam t).spdm = s.spdm := rfl
@[simp] theorem State.setTeam_awake : (s.setTeam t).awake = s.awake := rfl
@[simp] theorem State.setTeam_stage : (s.setTeam t).stage = s.stage := rfl
@[simp] theorem State.setTeam_throttled : (s.setTeam t).throttled = s.throttled := rfl
@[simp] theorem State.setTeam_rotor : (s.setTeam t).rotor = s.rotor := rfl
@[simp] theorem State.setTeam_kill : (s.setTeam t).kill = s.kill := rfl
@[simp] theorem State.setTeam_interrupts : (s.setTeam t).interrupts = s.interrupts := rfl
@[simp] theorem State.setTeam_poison : (s.setTeam t).poison = s.poison := rfl
@[simp] theorem State.setTeam_corrected : (s.setTeam t).corrected = s.corrected := rfl
@[simp] theorem State.setTeam_stopped : (s.setTeam t).stopped = s.stopped := rfl
@[simp] theorem State.setTeam_nextId : (s.setTeam t).nextId = s.nextId := rfl
@[simp] theorem State.setTeam_nextHandle : (s.setTeam t).nextHandle = s.nextHandle := rfl
@[simp] theorem State.setTeam_free : (s.setTeam t).free = s.free := rfl
@[simp] theorem State.setTeam_agenda : (s.setTeam t).agenda = s.agenda := rfl
@[simp] theorem State.setTeam_turns : (s.setTeam t).turns = s.turns := rfl
@[simp] theorem State.setTeam_picks : (s.setTeam t).picks = s.picks := rfl
@[simp] theorem State.setTeam_ticked : (s.setTeam t).ticked = s.ticked := rfl
@[simp] theorem State.setTeam_stalled : (s.setTeam t).stalled = s.stalled := rfl

end

/-! ### State.putLaunch -/

section

variable (s : State) (k : Nat) (l : Launch)

@[simp] theorem State.putLaunch_cycle : (s.putLaunch k l).cycle = s.cycle := rfl
@[simp] theorem State.putLaunch_cur : (s.putLaunch k l).cur = s.cur := rfl
@[simp] theorem State.putLaunch_groups : (s.putLaunch k l).groups = s.groups := rfl
@[simp] theorem State.putLaunch_teams : (s.putLaunch k l).teams = s.teams := rfl
@[simp] theorem State.putLaunch_launches : (s.putLaunch k l).launches = tput s.launches k l := rfl
@[simp] theorem State.putLaunch_tasks : (s.putLaunch k l).tasks = s.tasks := rfl
@[simp] theorem State.putLaunch_clusters : (s.putLaunch k l).clusters = s.clusters := rfl
@[simp] theorem State.putLaunch_ctxs : (s.putLaunch k l).ctxs = s.ctxs := rfl
@[simp] theorem State.putLaunch_cc : (s.putLaunch k l).cc = s.cc := rfl
@[simp] theorem State.putLaunch_exps : (s.putLaunch k l).exps = s.exps := rfl
@[simp] theorem State.putLaunch_queues : (s.putLaunch k l).queues = s.queues := rfl
@[simp] theorem State.putLaunch_mem : (s.putLaunch k l).mem = s.mem := rfl
@[simp] theorem State.putLaunch_peers : (s.putLaunch k l).peers = s.peers := rfl
@[simp] theorem State.putLaunch_circ : (s.putLaunch k l).circ = s.circ := rfl
@[simp] theorem State.putLaunch_reqs : (s.putLaunch k l).reqs = s.reqs := rfl
@[simp] theorem State.putLaunch_slips : (s.putLaunch k l).slips = s.slips := rfl
@[simp] theorem State.putLaunch_abroad : (s.putLaunch k l).abroad = s.abroad := rfl
@[simp] theorem State.putLaunch_pins : (s.putLaunch k l).pins = s.pins := rfl
@[simp] theorem State.putLaunch_walks : (s.putLaunch k l).walks = s.walks := rfl
@[simp] theorem State.putLaunch_catalogue : (s.putLaunch k l).catalogue = s.catalogue := rfl
@[simp] theorem State.putLaunch_turn : (s.putLaunch k l).turn = s.turn := rfl
@[simp] theorem State.putLaunch_used : (s.putLaunch k l).used = s.used := rfl
@[simp] theorem State.putLaunch_refusals : (s.putLaunch k l).refusals = s.refusals := rfl
@[simp] theorem State.putLaunch_pages : (s.putLaunch k l).pages = s.pages := rfl
@[simp] theorem State.putLaunch_cmsgs : (s.putLaunch k l).cmsgs = s.cmsgs := rfl
@[simp] theorem State.putLaunch_sweeps : (s.putLaunch k l).sweeps = s.sweeps := rfl
@[simp] theorem State.putLaunch_txns : (s.putLaunch k l).txns = s.txns := rfl
@[simp] theorem State.putLaunch_copies : (s.putLaunch k l).copies = s.copies := rfl
@[simp] theorem State.putLaunch_chunks : (s.putLaunch k l).chunks = s.chunks := rfl
@[simp] theorem State.putLaunch_streams : (s.putLaunch k l).streams = s.streams := rfl
@[simp] theorem State.putLaunch_carried : (s.putLaunch k l).carried = s.carried := rfl
@[simp] theorem State.putLaunch_ranges : (s.putLaunch k l).ranges = s.ranges := rfl
@[simp] theorem State.putLaunch_net : (s.putLaunch k l).net = s.net := rfl
@[simp] theorem State.putLaunch_hostEdges : (s.putLaunch k l).hostEdges = s.hostEdges := rfl
@[simp] theorem State.putLaunch_ports : (s.putLaunch k l).ports = s.ports := rfl
@[simp] theorem State.putLaunch_topo : (s.putLaunch k l).topo = s.topo := rfl
@[simp] theorem State.putLaunch_spdm : (s.putLaunch k l).spdm = s.spdm := rfl
@[simp] theorem State.putLaunch_awake : (s.putLaunch k l).awake = s.awake := rfl
@[simp] theorem State.putLaunch_stage : (s.putLaunch k l).stage = s.stage := rfl
@[simp] theorem State.putLaunch_throttled : (s.putLaunch k l).throttled = s.throttled := rfl
@[simp] theorem State.putLaunch_rotor : (s.putLaunch k l).rotor = s.rotor := rfl
@[simp] theorem State.putLaunch_kill : (s.putLaunch k l).kill = s.kill := rfl
@[simp] theorem State.putLaunch_interrupts : (s.putLaunch k l).interrupts = s.interrupts := rfl
@[simp] theorem State.putLaunch_poison : (s.putLaunch k l).poison = s.poison := rfl
@[simp] theorem State.putLaunch_corrected : (s.putLaunch k l).corrected = s.corrected := rfl
@[simp] theorem State.putLaunch_stopped : (s.putLaunch k l).stopped = s.stopped := rfl
@[simp] theorem State.putLaunch_nextId : (s.putLaunch k l).nextId = s.nextId := rfl
@[simp] theorem State.putLaunch_nextHandle : (s.putLaunch k l).nextHandle = s.nextHandle := rfl
@[simp] theorem State.putLaunch_free : (s.putLaunch k l).free = s.free := rfl
@[simp] theorem State.putLaunch_agenda : (s.putLaunch k l).agenda = s.agenda := rfl
@[simp] theorem State.putLaunch_turns : (s.putLaunch k l).turns = s.turns := rfl
@[simp] theorem State.putLaunch_picks : (s.putLaunch k l).picks = s.picks := rfl
@[simp] theorem State.putLaunch_ticked : (s.putLaunch k l).ticked = s.ticked := rfl
@[simp] theorem State.putLaunch_stalled : (s.putLaunch k l).stalled = s.stalled := rfl

end

/-! ### State.putCluster -/

section

variable (s : State) (k : Nat) (c : Cluster)

@[simp] theorem State.putCluster_cycle : (s.putCluster k c).cycle = s.cycle := rfl
@[simp] theorem State.putCluster_cur : (s.putCluster k c).cur = s.cur := rfl
@[simp] theorem State.putCluster_groups : (s.putCluster k c).groups = s.groups := rfl
@[simp] theorem State.putCluster_teams : (s.putCluster k c).teams = s.teams := rfl
@[simp] theorem State.putCluster_launches : (s.putCluster k c).launches = s.launches := rfl
@[simp] theorem State.putCluster_tasks : (s.putCluster k c).tasks = s.tasks := rfl
@[simp] theorem State.putCluster_clusters : (s.putCluster k c).clusters = tput s.clusters k c := rfl
@[simp] theorem State.putCluster_ctxs : (s.putCluster k c).ctxs = s.ctxs := rfl
@[simp] theorem State.putCluster_cc : (s.putCluster k c).cc = s.cc := rfl
@[simp] theorem State.putCluster_exps : (s.putCluster k c).exps = s.exps := rfl
@[simp] theorem State.putCluster_queues : (s.putCluster k c).queues = s.queues := rfl
@[simp] theorem State.putCluster_mem : (s.putCluster k c).mem = s.mem := rfl
@[simp] theorem State.putCluster_peers : (s.putCluster k c).peers = s.peers := rfl
@[simp] theorem State.putCluster_circ : (s.putCluster k c).circ = s.circ := rfl
@[simp] theorem State.putCluster_reqs : (s.putCluster k c).reqs = s.reqs := rfl
@[simp] theorem State.putCluster_slips : (s.putCluster k c).slips = s.slips := rfl
@[simp] theorem State.putCluster_abroad : (s.putCluster k c).abroad = s.abroad := rfl
@[simp] theorem State.putCluster_pins : (s.putCluster k c).pins = s.pins := rfl
@[simp] theorem State.putCluster_walks : (s.putCluster k c).walks = s.walks := rfl
@[simp] theorem State.putCluster_catalogue : (s.putCluster k c).catalogue = s.catalogue := rfl
@[simp] theorem State.putCluster_turn : (s.putCluster k c).turn = s.turn := rfl
@[simp] theorem State.putCluster_used : (s.putCluster k c).used = s.used := rfl
@[simp] theorem State.putCluster_refusals : (s.putCluster k c).refusals = s.refusals := rfl
@[simp] theorem State.putCluster_pages : (s.putCluster k c).pages = s.pages := rfl
@[simp] theorem State.putCluster_cmsgs : (s.putCluster k c).cmsgs = s.cmsgs := rfl
@[simp] theorem State.putCluster_sweeps : (s.putCluster k c).sweeps = s.sweeps := rfl
@[simp] theorem State.putCluster_txns : (s.putCluster k c).txns = s.txns := rfl
@[simp] theorem State.putCluster_copies : (s.putCluster k c).copies = s.copies := rfl
@[simp] theorem State.putCluster_chunks : (s.putCluster k c).chunks = s.chunks := rfl
@[simp] theorem State.putCluster_streams : (s.putCluster k c).streams = s.streams := rfl
@[simp] theorem State.putCluster_carried : (s.putCluster k c).carried = s.carried := rfl
@[simp] theorem State.putCluster_ranges : (s.putCluster k c).ranges = s.ranges := rfl
@[simp] theorem State.putCluster_net : (s.putCluster k c).net = s.net := rfl
@[simp] theorem State.putCluster_hostEdges : (s.putCluster k c).hostEdges = s.hostEdges := rfl
@[simp] theorem State.putCluster_ports : (s.putCluster k c).ports = s.ports := rfl
@[simp] theorem State.putCluster_topo : (s.putCluster k c).topo = s.topo := rfl
@[simp] theorem State.putCluster_spdm : (s.putCluster k c).spdm = s.spdm := rfl
@[simp] theorem State.putCluster_awake : (s.putCluster k c).awake = s.awake := rfl
@[simp] theorem State.putCluster_stage : (s.putCluster k c).stage = s.stage := rfl
@[simp] theorem State.putCluster_throttled : (s.putCluster k c).throttled = s.throttled := rfl
@[simp] theorem State.putCluster_rotor : (s.putCluster k c).rotor = s.rotor := rfl
@[simp] theorem State.putCluster_kill : (s.putCluster k c).kill = s.kill := rfl
@[simp] theorem State.putCluster_interrupts : (s.putCluster k c).interrupts = s.interrupts := rfl
@[simp] theorem State.putCluster_poison : (s.putCluster k c).poison = s.poison := rfl
@[simp] theorem State.putCluster_corrected : (s.putCluster k c).corrected = s.corrected := rfl
@[simp] theorem State.putCluster_stopped : (s.putCluster k c).stopped = s.stopped := rfl
@[simp] theorem State.putCluster_nextId : (s.putCluster k c).nextId = s.nextId := rfl
@[simp] theorem State.putCluster_nextHandle : (s.putCluster k c).nextHandle = s.nextHandle := rfl
@[simp] theorem State.putCluster_free : (s.putCluster k c).free = s.free := rfl
@[simp] theorem State.putCluster_agenda : (s.putCluster k c).agenda = s.agenda := rfl
@[simp] theorem State.putCluster_turns : (s.putCluster k c).turns = s.turns := rfl
@[simp] theorem State.putCluster_picks : (s.putCluster k c).picks = s.picks := rfl
@[simp] theorem State.putCluster_ticked : (s.putCluster k c).ticked = s.ticked := rfl
@[simp] theorem State.putCluster_stalled : (s.putCluster k c).stalled = s.stalled := rfl

end

/-! ### State.setCluster -/

section

variable (s : State) (c : Cluster)

@[simp] theorem State.setCluster_cycle : (s.setCluster c).cycle = s.cycle := rfl
@[simp] theorem State.setCluster_cur : (s.setCluster c).cur = s.cur := rfl
@[simp] theorem State.setCluster_groups : (s.setCluster c).groups = s.groups := rfl
@[simp] theorem State.setCluster_teams : (s.setCluster c).teams = s.teams := rfl
@[simp] theorem State.setCluster_launches : (s.setCluster c).launches = s.launches := rfl
@[simp] theorem State.setCluster_tasks : (s.setCluster c).tasks = s.tasks := rfl
@[simp] theorem State.setCluster_clusters : (s.setCluster c).clusters = tput s.clusters s.team.cluster c := rfl
@[simp] theorem State.setCluster_ctxs : (s.setCluster c).ctxs = s.ctxs := rfl
@[simp] theorem State.setCluster_cc : (s.setCluster c).cc = s.cc := rfl
@[simp] theorem State.setCluster_exps : (s.setCluster c).exps = s.exps := rfl
@[simp] theorem State.setCluster_queues : (s.setCluster c).queues = s.queues := rfl
@[simp] theorem State.setCluster_mem : (s.setCluster c).mem = s.mem := rfl
@[simp] theorem State.setCluster_peers : (s.setCluster c).peers = s.peers := rfl
@[simp] theorem State.setCluster_circ : (s.setCluster c).circ = s.circ := rfl
@[simp] theorem State.setCluster_reqs : (s.setCluster c).reqs = s.reqs := rfl
@[simp] theorem State.setCluster_slips : (s.setCluster c).slips = s.slips := rfl
@[simp] theorem State.setCluster_abroad : (s.setCluster c).abroad = s.abroad := rfl
@[simp] theorem State.setCluster_pins : (s.setCluster c).pins = s.pins := rfl
@[simp] theorem State.setCluster_walks : (s.setCluster c).walks = s.walks := rfl
@[simp] theorem State.setCluster_catalogue : (s.setCluster c).catalogue = s.catalogue := rfl
@[simp] theorem State.setCluster_turn : (s.setCluster c).turn = s.turn := rfl
@[simp] theorem State.setCluster_used : (s.setCluster c).used = s.used := rfl
@[simp] theorem State.setCluster_refusals : (s.setCluster c).refusals = s.refusals := rfl
@[simp] theorem State.setCluster_pages : (s.setCluster c).pages = s.pages := rfl
@[simp] theorem State.setCluster_cmsgs : (s.setCluster c).cmsgs = s.cmsgs := rfl
@[simp] theorem State.setCluster_sweeps : (s.setCluster c).sweeps = s.sweeps := rfl
@[simp] theorem State.setCluster_txns : (s.setCluster c).txns = s.txns := rfl
@[simp] theorem State.setCluster_copies : (s.setCluster c).copies = s.copies := rfl
@[simp] theorem State.setCluster_chunks : (s.setCluster c).chunks = s.chunks := rfl
@[simp] theorem State.setCluster_streams : (s.setCluster c).streams = s.streams := rfl
@[simp] theorem State.setCluster_carried : (s.setCluster c).carried = s.carried := rfl
@[simp] theorem State.setCluster_ranges : (s.setCluster c).ranges = s.ranges := rfl
@[simp] theorem State.setCluster_net : (s.setCluster c).net = s.net := rfl
@[simp] theorem State.setCluster_hostEdges : (s.setCluster c).hostEdges = s.hostEdges := rfl
@[simp] theorem State.setCluster_ports : (s.setCluster c).ports = s.ports := rfl
@[simp] theorem State.setCluster_topo : (s.setCluster c).topo = s.topo := rfl
@[simp] theorem State.setCluster_spdm : (s.setCluster c).spdm = s.spdm := rfl
@[simp] theorem State.setCluster_awake : (s.setCluster c).awake = s.awake := rfl
@[simp] theorem State.setCluster_stage : (s.setCluster c).stage = s.stage := rfl
@[simp] theorem State.setCluster_throttled : (s.setCluster c).throttled = s.throttled := rfl
@[simp] theorem State.setCluster_rotor : (s.setCluster c).rotor = s.rotor := rfl
@[simp] theorem State.setCluster_kill : (s.setCluster c).kill = s.kill := rfl
@[simp] theorem State.setCluster_interrupts : (s.setCluster c).interrupts = s.interrupts := rfl
@[simp] theorem State.setCluster_poison : (s.setCluster c).poison = s.poison := rfl
@[simp] theorem State.setCluster_corrected : (s.setCluster c).corrected = s.corrected := rfl
@[simp] theorem State.setCluster_stopped : (s.setCluster c).stopped = s.stopped := rfl
@[simp] theorem State.setCluster_nextId : (s.setCluster c).nextId = s.nextId := rfl
@[simp] theorem State.setCluster_nextHandle : (s.setCluster c).nextHandle = s.nextHandle := rfl
@[simp] theorem State.setCluster_free : (s.setCluster c).free = s.free := rfl
@[simp] theorem State.setCluster_agenda : (s.setCluster c).agenda = s.agenda := rfl
@[simp] theorem State.setCluster_turns : (s.setCluster c).turns = s.turns := rfl
@[simp] theorem State.setCluster_picks : (s.setCluster c).picks = s.picks := rfl
@[simp] theorem State.setCluster_ticked : (s.setCluster c).ticked = s.ticked := rfl
@[simp] theorem State.setCluster_stalled : (s.setCluster c).stalled = s.stalled := rfl

end

/-! ### State.putCtx -/

section

variable (s : State) (k : Nat) (c : Ctx)

@[simp] theorem State.putCtx_cycle : (s.putCtx k c).cycle = s.cycle := rfl
@[simp] theorem State.putCtx_cur : (s.putCtx k c).cur = s.cur := rfl
@[simp] theorem State.putCtx_groups : (s.putCtx k c).groups = s.groups := rfl
@[simp] theorem State.putCtx_teams : (s.putCtx k c).teams = s.teams := rfl
@[simp] theorem State.putCtx_launches : (s.putCtx k c).launches = s.launches := rfl
@[simp] theorem State.putCtx_tasks : (s.putCtx k c).tasks = s.tasks := rfl
@[simp] theorem State.putCtx_clusters : (s.putCtx k c).clusters = s.clusters := rfl
@[simp] theorem State.putCtx_ctxs : (s.putCtx k c).ctxs = tput s.ctxs k c := rfl
@[simp] theorem State.putCtx_cc : (s.putCtx k c).cc = s.cc := rfl
@[simp] theorem State.putCtx_exps : (s.putCtx k c).exps = s.exps := rfl
@[simp] theorem State.putCtx_queues : (s.putCtx k c).queues = s.queues := rfl
@[simp] theorem State.putCtx_mem : (s.putCtx k c).mem = s.mem := rfl
@[simp] theorem State.putCtx_peers : (s.putCtx k c).peers = s.peers := rfl
@[simp] theorem State.putCtx_circ : (s.putCtx k c).circ = s.circ := rfl
@[simp] theorem State.putCtx_reqs : (s.putCtx k c).reqs = s.reqs := rfl
@[simp] theorem State.putCtx_slips : (s.putCtx k c).slips = s.slips := rfl
@[simp] theorem State.putCtx_abroad : (s.putCtx k c).abroad = s.abroad := rfl
@[simp] theorem State.putCtx_pins : (s.putCtx k c).pins = s.pins := rfl
@[simp] theorem State.putCtx_walks : (s.putCtx k c).walks = s.walks := rfl
@[simp] theorem State.putCtx_catalogue : (s.putCtx k c).catalogue = s.catalogue := rfl
@[simp] theorem State.putCtx_turn : (s.putCtx k c).turn = s.turn := rfl
@[simp] theorem State.putCtx_used : (s.putCtx k c).used = s.used := rfl
@[simp] theorem State.putCtx_refusals : (s.putCtx k c).refusals = s.refusals := rfl
@[simp] theorem State.putCtx_pages : (s.putCtx k c).pages = s.pages := rfl
@[simp] theorem State.putCtx_cmsgs : (s.putCtx k c).cmsgs = s.cmsgs := rfl
@[simp] theorem State.putCtx_sweeps : (s.putCtx k c).sweeps = s.sweeps := rfl
@[simp] theorem State.putCtx_txns : (s.putCtx k c).txns = s.txns := rfl
@[simp] theorem State.putCtx_copies : (s.putCtx k c).copies = s.copies := rfl
@[simp] theorem State.putCtx_chunks : (s.putCtx k c).chunks = s.chunks := rfl
@[simp] theorem State.putCtx_streams : (s.putCtx k c).streams = s.streams := rfl
@[simp] theorem State.putCtx_carried : (s.putCtx k c).carried = s.carried := rfl
@[simp] theorem State.putCtx_ranges : (s.putCtx k c).ranges = s.ranges := rfl
@[simp] theorem State.putCtx_net : (s.putCtx k c).net = s.net := rfl
@[simp] theorem State.putCtx_hostEdges : (s.putCtx k c).hostEdges = s.hostEdges := rfl
@[simp] theorem State.putCtx_ports : (s.putCtx k c).ports = s.ports := rfl
@[simp] theorem State.putCtx_topo : (s.putCtx k c).topo = s.topo := rfl
@[simp] theorem State.putCtx_spdm : (s.putCtx k c).spdm = s.spdm := rfl
@[simp] theorem State.putCtx_awake : (s.putCtx k c).awake = s.awake := rfl
@[simp] theorem State.putCtx_stage : (s.putCtx k c).stage = s.stage := rfl
@[simp] theorem State.putCtx_throttled : (s.putCtx k c).throttled = s.throttled := rfl
@[simp] theorem State.putCtx_rotor : (s.putCtx k c).rotor = s.rotor := rfl
@[simp] theorem State.putCtx_kill : (s.putCtx k c).kill = s.kill := rfl
@[simp] theorem State.putCtx_interrupts : (s.putCtx k c).interrupts = s.interrupts := rfl
@[simp] theorem State.putCtx_poison : (s.putCtx k c).poison = s.poison := rfl
@[simp] theorem State.putCtx_corrected : (s.putCtx k c).corrected = s.corrected := rfl
@[simp] theorem State.putCtx_stopped : (s.putCtx k c).stopped = s.stopped := rfl
@[simp] theorem State.putCtx_nextId : (s.putCtx k c).nextId = s.nextId := rfl
@[simp] theorem State.putCtx_nextHandle : (s.putCtx k c).nextHandle = s.nextHandle := rfl
@[simp] theorem State.putCtx_free : (s.putCtx k c).free = s.free := rfl
@[simp] theorem State.putCtx_agenda : (s.putCtx k c).agenda = s.agenda := rfl
@[simp] theorem State.putCtx_turns : (s.putCtx k c).turns = s.turns := rfl
@[simp] theorem State.putCtx_picks : (s.putCtx k c).picks = s.picks := rfl
@[simp] theorem State.putCtx_ticked : (s.putCtx k c).ticked = s.ticked := rfl
@[simp] theorem State.putCtx_stalled : (s.putCtx k c).stalled = s.stalled := rfl

end

/-! ### State.owe -/

section

variable (s : State) (e : Event)

@[simp] theorem State.owe_cycle : (s.owe e).cycle = s.cycle := rfl
@[simp] theorem State.owe_cur : (s.owe e).cur = s.cur := rfl
@[simp] theorem State.owe_groups : (s.owe e).groups = s.groups := rfl
@[simp] theorem State.owe_teams : (s.owe e).teams = s.teams := rfl
@[simp] theorem State.owe_launches : (s.owe e).launches = s.launches := rfl
@[simp] theorem State.owe_tasks : (s.owe e).tasks = s.tasks := rfl
@[simp] theorem State.owe_clusters : (s.owe e).clusters = s.clusters := rfl
@[simp] theorem State.owe_ctxs : (s.owe e).ctxs = s.ctxs := rfl
@[simp] theorem State.owe_cc : (s.owe e).cc = s.cc := rfl
@[simp] theorem State.owe_exps : (s.owe e).exps = s.exps := rfl
@[simp] theorem State.owe_queues : (s.owe e).queues = s.queues := rfl
@[simp] theorem State.owe_mem : (s.owe e).mem = s.mem := rfl
@[simp] theorem State.owe_peers : (s.owe e).peers = s.peers := rfl
@[simp] theorem State.owe_circ : (s.owe e).circ = s.circ := rfl
@[simp] theorem State.owe_reqs : (s.owe e).reqs = s.reqs := rfl
@[simp] theorem State.owe_slips : (s.owe e).slips = s.slips := rfl
@[simp] theorem State.owe_abroad : (s.owe e).abroad = s.abroad := rfl
@[simp] theorem State.owe_pins : (s.owe e).pins = s.pins := rfl
@[simp] theorem State.owe_walks : (s.owe e).walks = s.walks := rfl
@[simp] theorem State.owe_catalogue : (s.owe e).catalogue = s.catalogue := rfl
@[simp] theorem State.owe_turn : (s.owe e).turn = s.turn := rfl
@[simp] theorem State.owe_used : (s.owe e).used = s.used := rfl
@[simp] theorem State.owe_refusals : (s.owe e).refusals = s.refusals := rfl
@[simp] theorem State.owe_pages : (s.owe e).pages = s.pages := rfl
@[simp] theorem State.owe_cmsgs : (s.owe e).cmsgs = s.cmsgs := rfl
@[simp] theorem State.owe_sweeps : (s.owe e).sweeps = s.sweeps := rfl
@[simp] theorem State.owe_txns : (s.owe e).txns = s.txns := rfl
@[simp] theorem State.owe_copies : (s.owe e).copies = s.copies := rfl
@[simp] theorem State.owe_chunks : (s.owe e).chunks = s.chunks := rfl
@[simp] theorem State.owe_streams : (s.owe e).streams = s.streams := rfl
@[simp] theorem State.owe_carried : (s.owe e).carried = s.carried := rfl
@[simp] theorem State.owe_ranges : (s.owe e).ranges = s.ranges := rfl
@[simp] theorem State.owe_net : (s.owe e).net = s.net := rfl
@[simp] theorem State.owe_hostEdges : (s.owe e).hostEdges = s.hostEdges := rfl
@[simp] theorem State.owe_ports : (s.owe e).ports = s.ports := rfl
@[simp] theorem State.owe_topo : (s.owe e).topo = s.topo := rfl
@[simp] theorem State.owe_spdm : (s.owe e).spdm = s.spdm := rfl
@[simp] theorem State.owe_awake : (s.owe e).awake = s.awake := rfl
@[simp] theorem State.owe_stage : (s.owe e).stage = s.stage := rfl
@[simp] theorem State.owe_throttled : (s.owe e).throttled = s.throttled := rfl
@[simp] theorem State.owe_rotor : (s.owe e).rotor = s.rotor := rfl
@[simp] theorem State.owe_kill : (s.owe e).kill = s.kill := rfl
@[simp] theorem State.owe_interrupts : (s.owe e).interrupts = s.interrupts := rfl
@[simp] theorem State.owe_poison : (s.owe e).poison = s.poison := rfl
@[simp] theorem State.owe_corrected : (s.owe e).corrected = s.corrected := rfl
@[simp] theorem State.owe_stopped : (s.owe e).stopped = s.stopped := rfl
@[simp] theorem State.owe_nextId : (s.owe e).nextId = s.nextId := rfl
@[simp] theorem State.owe_nextHandle : (s.owe e).nextHandle = s.nextHandle := rfl
@[simp] theorem State.owe_free : (s.owe e).free = s.free := rfl
@[simp] theorem State.owe_agenda : (s.owe e).agenda = s.agenda ++ [e] := rfl
@[simp] theorem State.owe_turns : (s.owe e).turns = s.turns := rfl
@[simp] theorem State.owe_picks : (s.owe e).picks = s.picks := rfl
@[simp] theorem State.owe_ticked : (s.owe e).ticked = s.ticked := rfl
@[simp] theorem State.owe_stalled : (s.owe e).stalled = s.stalled := rfl

end

/-! ### State.interrupt -/

section

variable (s : State) (what a b c : Nat)

@[simp] theorem State.interrupt_cycle : (s.interrupt what a b c).cycle = s.cycle := rfl
@[simp] theorem State.interrupt_cur : (s.interrupt what a b c).cur = s.cur := rfl
@[simp] theorem State.interrupt_groups : (s.interrupt what a b c).groups = s.groups := rfl
@[simp] theorem State.interrupt_teams : (s.interrupt what a b c).teams = s.teams := rfl
@[simp] theorem State.interrupt_launches : (s.interrupt what a b c).launches = s.launches := rfl
@[simp] theorem State.interrupt_tasks : (s.interrupt what a b c).tasks = s.tasks := rfl
@[simp] theorem State.interrupt_clusters : (s.interrupt what a b c).clusters = s.clusters := rfl
@[simp] theorem State.interrupt_ctxs : (s.interrupt what a b c).ctxs = s.ctxs := rfl
@[simp] theorem State.interrupt_cc : (s.interrupt what a b c).cc = s.cc := rfl
@[simp] theorem State.interrupt_exps : (s.interrupt what a b c).exps = s.exps := rfl
@[simp] theorem State.interrupt_queues : (s.interrupt what a b c).queues = s.queues := rfl
@[simp] theorem State.interrupt_mem : (s.interrupt what a b c).mem = s.mem := rfl
@[simp] theorem State.interrupt_peers : (s.interrupt what a b c).peers = s.peers := rfl
@[simp] theorem State.interrupt_circ : (s.interrupt what a b c).circ = s.circ := rfl
@[simp] theorem State.interrupt_reqs : (s.interrupt what a b c).reqs = s.reqs := rfl
@[simp] theorem State.interrupt_slips : (s.interrupt what a b c).slips = s.slips := rfl
@[simp] theorem State.interrupt_abroad : (s.interrupt what a b c).abroad = s.abroad := rfl
@[simp] theorem State.interrupt_pins : (s.interrupt what a b c).pins = s.pins := rfl
@[simp] theorem State.interrupt_walks : (s.interrupt what a b c).walks = s.walks := rfl
@[simp] theorem State.interrupt_catalogue : (s.interrupt what a b c).catalogue = s.catalogue := rfl
@[simp] theorem State.interrupt_turn : (s.interrupt what a b c).turn = s.turn := rfl
@[simp] theorem State.interrupt_used : (s.interrupt what a b c).used = s.used := rfl
@[simp] theorem State.interrupt_refusals : (s.interrupt what a b c).refusals = s.refusals := rfl
@[simp] theorem State.interrupt_pages : (s.interrupt what a b c).pages = s.pages := rfl
@[simp] theorem State.interrupt_cmsgs : (s.interrupt what a b c).cmsgs = s.cmsgs := rfl
@[simp] theorem State.interrupt_sweeps : (s.interrupt what a b c).sweeps = s.sweeps := rfl
@[simp] theorem State.interrupt_txns : (s.interrupt what a b c).txns = s.txns := rfl
@[simp] theorem State.interrupt_copies : (s.interrupt what a b c).copies = s.copies := rfl
@[simp] theorem State.interrupt_chunks : (s.interrupt what a b c).chunks = s.chunks := rfl
@[simp] theorem State.interrupt_streams : (s.interrupt what a b c).streams = s.streams := rfl
@[simp] theorem State.interrupt_carried : (s.interrupt what a b c).carried = s.carried := rfl
@[simp] theorem State.interrupt_ranges : (s.interrupt what a b c).ranges = s.ranges := rfl
@[simp] theorem State.interrupt_net : (s.interrupt what a b c).net = s.net := rfl
@[simp] theorem State.interrupt_hostEdges : (s.interrupt what a b c).hostEdges = s.hostEdges := rfl
@[simp] theorem State.interrupt_ports : (s.interrupt what a b c).ports = s.ports := rfl
@[simp] theorem State.interrupt_topo : (s.interrupt what a b c).topo = s.topo := rfl
@[simp] theorem State.interrupt_spdm : (s.interrupt what a b c).spdm = s.spdm := rfl
@[simp] theorem State.interrupt_awake : (s.interrupt what a b c).awake = s.awake := rfl
@[simp] theorem State.interrupt_stage : (s.interrupt what a b c).stage = s.stage := rfl
@[simp] theorem State.interrupt_throttled : (s.interrupt what a b c).throttled = s.throttled := rfl
@[simp] theorem State.interrupt_rotor : (s.interrupt what a b c).rotor = s.rotor := rfl
@[simp] theorem State.interrupt_kill : (s.interrupt what a b c).kill = s.kill := rfl
@[simp] theorem State.interrupt_interrupts : (s.interrupt what a b c).interrupts = s.interrupts ++ [⟨what, a, b, c⟩] := rfl
@[simp] theorem State.interrupt_poison : (s.interrupt what a b c).poison = s.poison := rfl
@[simp] theorem State.interrupt_corrected : (s.interrupt what a b c).corrected = s.corrected := rfl
@[simp] theorem State.interrupt_stopped : (s.interrupt what a b c).stopped = s.stopped := rfl
@[simp] theorem State.interrupt_nextId : (s.interrupt what a b c).nextId = s.nextId := rfl
@[simp] theorem State.interrupt_nextHandle : (s.interrupt what a b c).nextHandle = s.nextHandle := rfl
@[simp] theorem State.interrupt_free : (s.interrupt what a b c).free = s.free := rfl
@[simp] theorem State.interrupt_agenda : (s.interrupt what a b c).agenda = s.agenda := rfl
@[simp] theorem State.interrupt_turns : (s.interrupt what a b c).turns = s.turns := rfl
@[simp] theorem State.interrupt_picks : (s.interrupt what a b c).picks = s.picks := rfl
@[simp] theorem State.interrupt_ticked : (s.interrupt what a b c).ticked = s.ticked := rfl
@[simp] theorem State.interrupt_stalled : (s.interrupt what a b c).stalled = s.stalled := rfl

end

/-! ### Readers -/

theorem State.group_putGroup (s : State) (k j : Nat) (g : Group) :
    (s.putGroup k g).group j = if j = k then g else s.group j := tget_tput _ _ _ _ _

theorem State.teamOf_putTeam (s : State) (k j : Nat) (t : Team) :
    (s.putTeam k t).teamOf j = if j = k then t else s.teamOf j := tget_tput _ _ _ _ _

theorem State.launchOf_putLaunch (s : State) (k j : Nat) (l : Launch) :
    (s.putLaunch k l).launchOf j = if j = k then l else s.launchOf j := tget_tput _ _ _ _ _

theorem State.clusterOf_putCluster (s : State) (k j : Nat) (c : Cluster) :
    (s.putCluster k c).clusterOf j = if j = k then c else s.clusterOf j := tget_tput _ _ _ _ _

theorem State.ctxOf_putCtx (s : State) (k j : Nat) (c : Ctx) :
    (s.putCtx k c).ctxOf j = if j = k then c else s.ctxOf j := tget_tput _ _ _ _ _

@[simp] theorem State.grp_setGrp (s : State) (g : Group) : (s.setGrp g).grp = g := tget_tput_same _ _ _ _

@[simp] theorem State.group_setGrp_other (s : State) {k : Nat} (g : Group) (h : k ≠ s.cur) :
    (s.setGrp g).group k = s.group k := tget_tput_other _ _ _ h

@[simp] theorem State.team_setTeam (s : State) (t : Team) : (s.setTeam t).team = t := tget_tput_same _ _ _ _

/-! ### Registers and predicates of a group -/

@[simp] theorem Group.reg_setReg (g : Group) (n l r j : Nat) (x : Word) :
    (g.setReg n l x).reg r j = if 32 * r + j = 32 * n + l then x else g.reg r j := tget_mset _ _ _ _ _

@[simp] theorem Group.setReg_preds (g : Group) (n l : Nat) (x : Word) : (g.setReg n l x).preds = g.preds := rfl

/-- Writing a register in lanes changes the registers and their poison alone. -/
theorem Group.setLanes_eq (g : Group) (n : Nat) (f : Nat → Word) (ls : List Nat) :
    g.setLanes n f ls = { g with regs := (g.setLanes n f ls).regs, bad := (g.setLanes n f ls).bad } := by
  induction ls with
  | nil => rfl
  | cons l ls ih => rw [Group.setLanes, ih]; rfl

/-- Writing a register in lanes poisons nothing (R417). -/
theorem Group.bad_setLanes (g : Group) (n : Nat) (f : Nat → Word) (ls : List Nat) {x : Nat} (h : x ∈ (g.setLanes n f ls).bad) : x ∈ g.bad := by
  induction ls with
  | nil => exact h
  | cons l ls ih => exact ih (List.mem_of_mem_filter h)

/-- What a register holds after a write in lanes. -/
theorem Group.reg_setLanes (g : Group) (n r j : Nat) (f : Nat → Word) (ls : List Nat) (h : ∀ l ∈ ls, l < 32) (hj : j < 32) :
    (g.setLanes n f ls).reg r j = if r = n ∧ j ∈ ls then f j else g.reg r j := by
  induction ls with
  | nil => simp [Group.setLanes]
  | cons l ls ih =>
    have hl := h l List.mem_cons_self
    rw [Group.setLanes, Group.reg_setReg, ih (fun i hi => h i (List.mem_cons_of_mem _ hi))]
    by_cases hr : r = n
    · by_cases hjl : j = l
      · subst hr hjl; simp
      · rw [if_neg (by omega)]; simp [hr, hjl]
    · rw [if_neg (by omega)]; simp [hr]

/-- Writing an operand in lanes changes the registers alone. -/
theorem Group.pred_setPred (g : Group) (n r : Nat) (t v : Mask) :
    (g.setPred n t v).pred r = if r = n ∧ n ≠ 0 then (g.pred n &&& ~~~t) ||| (v &&& t) else g.pred r := by
  unfold Group.setPred
  by_cases hn : n = 0
  · simp [hn]
  · simp only [hn, if_false, Group.pred]
    by_cases hr : r = 0
    · subst hr; simp [Ne.symm hn]
    · simp only [hr, if_false, tget_mset]
      by_cases h : r = n <;> simp [h, hn]

/-- Writing a predicate changes the predicates alone. -/
theorem Group.setPred_eq (g : Group) (n : Nat) (t v : Mask) :
    g.setPred n t v = { g with preds := (g.setPred n t v).preds } := by
  unfold Group.setPred
  by_cases hn : n = 0 <;> simp [hn]

end Sys2Proof.Machine
end

