-- ==== Sys2Proof/Laws/Retire.lean ====
section
/-! SUPPORT. What passing a slot, counting events and retiring an instruction can change: once for each shared operation. -/

namespace Sys2Proof.Machine

/-! ### Frames -/

theorem Frame.refl (k : Nat) (s : State) : Frame k s s := ⟨rfl, fun _ _ => rfl, fun _ => rfl, fun _ => rfl⟩

theorem Frame.trans {k : Nat} {s t u : State} (h : Frame k s t) (h' : Frame k t u) : Frame k s u :=
  ⟨h'.rest.trans h.rest, fun j hj => (h'.groups j hj).trans (h.groups j hj), fun j => (h'.teams j).trans (h.teams j),
    fun j => (h'.launches j).trans (h.launches j)⟩

/-- Fields that a frame fixes, read off. -/
theorem Frame.cur {k : Nat} {s t : State} (h : Frame k s t) : t.cur = s.cur := by
  have h' := congrArg State.cur h.rest
  exact h'
theorem Frame.mem {k : Nat} {s t : State} (h : Frame k s t) : t.mem = s.mem := by
  have h' := congrArg State.mem h.rest
  exact h'
theorem Frame.clusters {k : Nat} {s t : State} (h : Frame k s t) : t.clusters = s.clusters := by
  have h' := congrArg State.clusters h.rest
  exact h'
theorem Frame.ctxs {k : Nat} {s t : State} (h : Frame k s t) : t.ctxs = s.ctxs := by
  have h' := congrArg State.ctxs h.rest
  exact h'

theorem frame_setGrp (s : State) (g : Group) : Frame s.cur s (s.setGrp g) :=
  ⟨rfl, fun _ hj => congrArg Group.calm (s.group_setGrp_other g hj), fun _ => rfl, fun _ => rfl⟩

/-- A group apart from the deferred traps it holds. -/
def Group.kept (g : Group) : Group := { g with deferred := [], budgeted := false }

/-- A frame in which group k itself changes in its deferred traps only. -/
structure Keeps (k : Nat) (s t : State) : Prop extends Frame k s t where
  own : (t.group k).kept = (s.group k).kept

theorem Keeps.refl (k : Nat) (s : State) : Keeps k s s := ⟨Frame.refl k s, rfl⟩

theorem Keeps.trans {k : Nat} {s t u : State} (h : Keeps k s t) (h' : Keeps k t u) : Keeps k s u :=
  ⟨h.toFrame.trans h'.toFrame, h'.own.trans h.own⟩

theorem Keeps.team {k : Nat} {s t : State} (h : Keeps k s t) : (t.group k).team = (s.group k).team := by
  have h' := congrArg Group.team h.own
  exact h'

/-! ### Deferred traps and events -/

theorem Group.defer_kept (g : Group) (c d f : Nat) : (g.defer c d f).kept = g.kept := by
  unfold Group.defer
  split <;> rfl

theorem Group.defer_calm (g : Group) (c d f : Nat) : (g.defer c d f).calm = g.calm := by
  unfold Group.defer
  split <;> rfl

theorem keeps_putGroup (s : State) (k : Nat) (g : Group) (h : g.kept = (s.group k).kept) : Keeps k s (s.putGroup k g) :=
  { rest := rfl
    groups := fun j hj => by rw [State.group_putGroup, if_neg hj]
    teams := fun _ => rfl
    launches := fun _ => rfl
    own := by rw [State.group_putGroup, if_pos rfl, h] }

/-- Any group may take or lose a deferred trap. -/
theorem keeps_putCalm (s : State) (k j : Nat) (g : Group) (h : g.calm = (s.group j).calm) : Keeps k s (s.putGroup j g) :=
  { rest := rfl
    groups := fun i _ => by
      rw [State.group_putGroup]
      split
      · next hi => rw [h, hi]
      · rfl
    teams := fun _ => rfl
    launches := fun _ => rfl
    own := by
      rw [State.group_putGroup]
      split
      · next hi =>
        rw [hi]
        exact congrArg (fun x : Group => { x with deferred := [], budgeted := false }) h
      · rfl }

theorem keeps_deferTrap (s : State) (k j c d f : Nat) : Keeps k s (s.deferTrap j c d f) := by
  simp only [State.deferTrap]
  split
  · exact ⟨⟨rfl, fun _ _ => rfl, fun _ => rfl, fun _ => rfl⟩, rfl⟩
  · exact keeps_putCalm _ _ _ _ (Group.defer_calm _ _ _ _)

theorem keeps_putTeam (s : State) (k j : Nat) (t : Team) (h : t.fixed = (s.teamOf j).fixed) : Keeps k s (s.putTeam j t) :=
  { rest := rfl
    groups := fun _ _ => rfl
    teams := fun i => by
      rw [State.teamOf_putTeam]
      split
      · next hi => rw [h, hi]
      · rfl
    launches := fun _ => rfl
    own := rfl }

theorem keeps_interrupt (s : State) (k w a b c : Nat) : Keeps k s (s.interrupt w a b c) :=
  ⟨⟨rfl, fun _ _ => rfl, fun _ => rfl, fun _ => rfl⟩, rfl⟩

theorem keeps_owe (s : State) (k : Nat) (e : Event) : Keeps k s (s.owe e) :=
  ⟨⟨rfl, fun _ _ => rfl, fun _ => rfl, fun _ => rfl⟩, rfl⟩

/-- A trip that falls due leaves the team's note of it and defers a trap to the group it names. -/
theorem keeps_raiseTrip (s : State) (k j : Nat) (now : Option Nat) (c : Nat) : Keeps k s (s.raiseTrip j now c) := by
  simp only [State.raiseTrip]
  split
  · split
    · exact Keeps.refl k s
    · exact (keeps_putTeam s k _ _ (by rfl)).trans (keeps_deferTrap _ _ _ _ _ _)
  · exact Keeps.refl k s

/-- Counting events of one class changes the team's counts, and defers a trap or raises an interrupt. -/
theorem keeps_countClass (s : State) (k f c n : Nat) : Keeps k s (s.countClass k f c n) := by
  simp only [State.countClass]
  split
  · exact Keeps.refl k s
  · refine (keeps_raiseTrip s k (s.group k).team (some s.cycle) c).trans ?_
    split
    · split
      · exact (keeps_putTeam _ k _ _ (by rfl)).trans (keeps_interrupt _ _ _ _ _ _)
      · exact keeps_putTeam _ k _ _ (by rfl)
    · exact keeps_putTeam _ k _ _ (by rfl)

theorem keeps_foldl {β : Type} (k : Nat) (f : State → β → State) (h : ∀ s x, Keeps k s (f s x)) (l : List β) (s : State) :
    Keeps k s (l.foldl f s) := by
  induction l generalizing s with
  | nil => exact Keeps.refl k s
  | cons x l ih => exact (h s x).trans (ih _)

theorem keeps_countEvents (s : State) (k f : Nat) (evs : List Nat) : Keeps k s (s.countEvents k f evs) :=
  keeps_foldl k _ (fun s c => keeps_countClass s k f c _) _ s

/-! ### Slots -/

theorem keeps_countSlot (s : State) (k l : Nat) : Keeps k s (s.countSlot l) := by
  have h : Keeps k s (s.putLaunch l { s.launchOf l with slots := (s.launchOf l).slots + 1 }) :=
    { rest := rfl
      groups := fun _ _ => rfl
      teams := fun _ => rfl
      launches := fun i => by
        rw [State.launchOf_putLaunch]
        split
        · next hi => rw [hi]; rfl
        · rfl
      own := rfl }
  simp only [State.countSlot]
  split <;> split <;> first
    | exact (h.trans (keeps_owe _ _ _)).trans (keeps_owe _ _ _)
    | exact h.trans (keeps_owe _ _ _)
    | exact h

/-- The passing of a slot changes the time, the launch's count, and the deferred traps of the group that exceeds its BUDGET. -/
theorem keeps_pass (s : State) (n : Nat) : Keeps s.cur s (s.pass n) := by
  simp only [State.pass]
  split
  · have h := (keeps_putGroup s s.cur { s.grp.defer 0x38 1 0 with budgeted := true } (Group.defer_kept _ _ _ _)).trans
      (keeps_countSlot _ s.cur s.team.launch)
    exact ⟨⟨h.rest, h.groups, h.teams, h.launches⟩, h.own⟩
  · have h := keeps_countSlot s s.cur s.team.launch
    exact ⟨⟨h.rest, h.groups, h.teams, h.launches⟩, h.own⟩

theorem keeps_fetchNeeds (s : State) (k : Nat) (ns : List (Nat × Nat × Nat)) : Keeps k s (s.fetchNeeds ns) := by
  unfold State.fetchNeeds
  apply keeps_foldl
  intro t x
  split
  · exact keeps_owe _ _ _
  · exact Keeps.refl _ _

/-! ### Retiring -/

/-- The group as it retires, before what passing the slot and counting events may defer to it. -/
def State.retiring (s : State) (u : Use) (io : Issue) (g : Group) : Group :=
  { g with owed := s.grp.oweGaps u io.t s.cycle, dog := 0, last := s.cycle, sweeping := none }

theorem keeps_settle (s : State) (u : Use) (io : Issue) (g : Group) (evs : List Nat) :
    Keeps s.cur (s.setGrp (s.retiring u io g)) (s.settle u io g evs) :=
  ((keeps_pass (s.setGrp (s.retiring u io g)) u.stall).trans (keeps_countEvents _ s.cur s.grp.cur.id evs)).trans
    (keeps_fetchNeeds _ s.cur io.needs)

/-- An instruction that retires changes nothing outside its group but time, counts, interrupts and events owed. -/
theorem settle_frame (s : State) (u : Use) (io : Issue) (g : Group) (evs : List Nat) : Frame s.cur s (s.settle u io g evs) :=
  (frame_setGrp s _).trans (keeps_settle s u io g evs).toFrame

/-- The group after an instruction has retired. -/
theorem settle_grp (s : State) (u : Use) (io : Issue) (g : Group) (evs : List Nat) :
    (s.settle u io g evs).grp.kept = (s.retiring u io g).kept := by
  have h := keeps_settle s u io g evs
  have hc : (s.settle u io g evs).cur = s.cur := h.cur
  have h2 := h.own
  rw [← hc] at h2
  have h3 : ((s.setGrp (s.retiring u io g)).group (s.settle u io g evs).cur) = s.retiring u io g := by
    rw [hc]
    exact State.grp_setGrp s _
  rw [h3] at h2
  exact h2

/-- A group apart from its fragments. -/
def Group.bare (g : Group) : Group := { g with cur := {}, rest := [] }

/-- Choosing the fragment that issues next changes the fragments alone. -/
theorem Group.reselect_bare (g : Group) : g.reselect.bare = g.bare := by
  simp only [Group.reselect]
  split
  · rfl
  · split
    · rfl
    · split <;> rfl

theorem Group.divide_bare (g : Group) (next : BitVec 64) (ps : List Part) : (g.divide next ps).bare = g.bare := by
  simp only [Group.divide]
  split
  · rfl
  · split <;> rfl

/-- Moving the fragment on changes the fragments alone. -/
theorem Group.proceed_bare (g : Group) (io : Issue) (ps : Option (List Part)) : (g.proceed io ps).bare = g.bare := by
  simp only [Group.proceed]
  split
  · split
    · rfl
    · rw [Group.reselect_bare]
      exact Group.divide_bare g _ _
  · rw [Group.reselect_bare]
    exact Group.divide_bare g _ _

/-- With no lane parked the fragment goes on at the next word and the others stay. -/
theorem Group.proceed_next (g : Group) (io : Issue) (h : io.w = 0) :
    g.proceed io none = { g with cur := { g.cur with pc := g.cur.pc + 4, wait := .none } } := by
  simp [Group.proceed, h]

/-- Registers, predicates and every other part of the group that retiring does not touch come from the group it is given. -/
theorem finish_grp (s : State) (u : Use) (io : Issue) (g : Group) (evs : List Nat) :
    (s.finish u io g evs).grp.kept = (s.retiring u io (g.proceed io none)).kept := settle_grp _ _ _ _ _

theorem finish_frame (s : State) (u : Use) (io : Issue) (g : Group) (evs : List Nat) : Frame s.cur s (s.finish u io g evs) :=
  settle_frame _ _ _ _ _

theorem finish_regs (s : State) (u : Use) (io : Issue) (g : Group) (evs : List Nat) :
    (s.finish u io g evs).grp.regs = g.regs := by
  have h := congrArg Group.regs (finish_grp s u io g evs)
  have h' := congrArg Group.regs (g.proceed_bare io none)
  exact Eq.trans (b := (g.proceed io none).regs) h h'

theorem finish_bad (s : State) (u : Use) (io : Issue) (g : Group) (evs : List Nat) :
    (s.finish u io g evs).grp.bad = g.bad := by
  have h := congrArg Group.bad (finish_grp s u io g evs)
  have h' := congrArg Group.bad (g.proceed_bare io none)
  exact Eq.trans (b := (g.proceed io none).bad) h h'

theorem finish_reg (s : State) (u : Use) (io : Issue) (g : Group) (evs : List Nat) (n l : Nat) :
    (s.finish u io g evs).grp.reg n l = g.reg n l := by rw [Group.reg, finish_regs, Group.reg]

theorem finish_preds (s : State) (u : Use) (io : Issue) (g : Group) (evs : List Nat) :
    (s.finish u io g evs).grp.preds = g.preds := by
  have h := congrArg Group.preds (finish_grp s u io g evs)
  have h' := congrArg Group.preds (g.proceed_bare io none)
  exact Eq.trans (b := (g.proceed io none).preds) h h'

theorem finish_pred (s : State) (u : Use) (io : Issue) (g : Group) (evs : List Nat) (n : Nat) :
    (s.finish u io g evs).grp.pred n = g.pred n := by rw [Group.pred, finish_preds, Group.pred]

theorem Group.fixed_kept (g : Group) : g.kept.fixed = g.fixed := rfl

theorem Group.fixed_bare (g : Group) : g.bare.fixed = g.fixed := rfl

theorem retiring_fixed (s : State) (u : Use) (io : Issue) (g : Group) : (s.retiring u io g).fixed = g.fixed := rfl

theorem finish_fixed (s : State) (u : Use) (io : Issue) (g : Group) (evs : List Nat) :
    (s.finish u io g evs).grp.fixed = g.fixed := by
  rw [← Group.fixed_kept, finish_grp, Group.fixed_kept, retiring_fixed, ← Group.fixed_bare, Group.proceed_bare, Group.fixed_bare]

/-- An instruction that parks no lane and leaves the fragments to retiring goes on at the next word. -/
theorem finish_advances (s : State) (u : Use) (io : Issue) (g : Group) (evs : List Nat) (hw : io.w = 0)
    (hc : g.cur = s.grp.cur) (hr : g.rest = s.grp.rest) (hf : g.fixed = s.grp.fixed) (hb : ∀ x ∈ g.bad, x ∈ s.grp.bad) :
    Advances s (s.finish u io g evs) := by
  have h := finish_grp s u io g evs
  rw [Group.proceed_next _ _ hw] at h
  have h1 := congrArg Group.cur h
  have h2 := congrArg Group.rest h
  refine ⟨?_, ?_, ?_, ?_⟩
  · rw [← hc]; exact h1
  · rw [← hr]; exact h2
  · exact (finish_fixed s u io g evs).trans hf
  · rw [finish_bad]; exact hb

/-! ### Event counts -/

theorem deferTrap_teams (s : State) (k c d f : Nat) : (s.deferTrap k c d f).teams = s.teams := by
  simp only [State.deferTrap]
  split <;> rfl

/-- A trip that falls due leaves every team's totals. -/
theorem raiseTrip_total (s : State) (k : Nat) (now : Option Nat) (c j : Nat) :
    ((s.raiseTrip k now c).teamOf j).total = (s.teamOf j).total := by
  simp only [State.raiseTrip]
  split
  · split
    · rfl
    · rw [State.teamOf, deferTrap_teams, ← State.teamOf, State.teamOf_putTeam]
      split
      · next h => rw [h]
      · rfl
  · rfl

theorem countClass_total (s : State) (k f c n j : Nat) :
    tget 0 ((s.countClass k f c n).teamOf (s.group k).team).total j =
      if n = 0 ∨ j ≠ c then tget 0 (s.teamOf (s.group k).team).total j
      else min (tget 0 (s.teamOf (s.group k).team).total c + n) (2 ^ 32 - 1) := by
  by_cases hn : n = 0
  · simp [State.countClass, hn]
  · let r := s.raiseTrip (s.group k).team (some s.cycle) c
    have hteam : (r.group k).team = (s.group k).team := (keeps_raiseTrip s k (s.group k).team (some s.cycle) c).team
    have htot : (r.teamOf (s.group k).team).total = (s.teamOf (s.group k).team).total := raiseTrip_total s _ _ _ _
    have hput : ∀ (t : Team), (r.putTeam (r.group k).team t).teamOf (s.group k).team = t := fun t => by
      rw [State.teamOf_putTeam, if_pos hteam.symm]
    have key : ∀ t : Team, t.total = mset 0 (r.teamOf (r.group k).team).total c
        (min (tget 0 (r.teamOf (r.group k).team).total c + n) (2 ^ 32 - 1)) →
        tget 0 t.total j = if j ≠ c then tget 0 (s.teamOf (s.group k).team).total j
          else min (tget 0 (s.teamOf (s.group k).team).total c + n) (2 ^ 32 - 1) := by
      intro t ht
      rw [ht, tget_mset, hteam, htot]
      by_cases hj : j = c <;> simp [hj]
    simp only [State.countClass, hn, if_false, false_or]
    split
    · split
      · exact key _ (by rw [show ∀ x : State, ∀ w a b c', (x.interrupt w a b c').teamOf = x.teamOf from fun _ _ _ _ _ => rfl]; rw [hput])
      · exact key _ (by rw [hput])
    · exact key _ (by rw [hput])

theorem countClass_team (s : State) (k f c n : Nat) : ((s.countClass k f c n).group k).team = (s.group k).team :=
  (keeps_countClass s k f c n).team

/-- Counting a list of events adds to each class's total the number of its events (R152). -/
theorem countEvents_total (s : State) (k f : Nat) (evs : List Nat) (c : Nat) (hc : c < 6) :
    tget 0 ((s.countEvents k f evs).teamOf (s.group k).team).total c =
      if evs.count c = 0 then tget 0 (s.teamOf (s.group k).team).total c
      else min (tget 0 (s.teamOf (s.group k).team).total c + evs.count c) (2 ^ 32 - 1) := by
  have step : ∀ (cs : List Nat) (x : State), cs.Nodup →
      tget 0 ((cs.foldl (fun s' c => s'.countClass k f c (evs.count c)) x).teamOf (x.group k).team).total c =
        if evs.count c = 0 ∨ c ∉ cs then tget 0 (x.teamOf (x.group k).team).total c
        else min (tget 0 (x.teamOf (x.group k).team).total c + evs.count c) (2 ^ 32 - 1) := by
    intro cs
    induction cs with
    | nil => intro x _; simp
    | cons a cs ih =>
      intro x hnd
      rw [List.nodup_cons] at hnd
      have h := ih (x.countClass k f a (evs.count a)) hnd.2
      rw [countClass_team] at h
      rw [List.foldl_cons, h, countClass_total]
      by_cases hz : evs.count c = 0
      · by_cases hca : c = a <;> simp [hz, hca]
        intro h1 h2; exact absurd (hca ▸ hz) h1
      · by_cases hca : c = a
        · subst hca; simp [hz, hnd.1]
        · by_cases hm : c ∈ cs <;> simp [hz, hca, hm]
  have := step (List.range 6) s List.nodup_range
  simpa [State.countEvents, hc] using this

theorem pass_teams (s : State) (n : Nat) : (s.pass n).teams = s.teams := by
  simp only [State.pass]
  have h : ∀ (x : State) (l : Nat), (x.countSlot l).teams = x.teams := by
    intro x l
    simp only [State.countSlot]
    split <;> split <;> rfl
  split <;> simp [h]

theorem fetchNeeds_teams (s : State) (ns : List (Nat × Nat × Nat)) : (s.fetchNeeds ns).teams = s.teams := by
  unfold State.fetchNeeds
  have : ∀ (l : List (Nat × Nat × Nat)) (x : State), (l.foldl (fun s' x =>
      if s'.carried.any (fun c => c.launch == s.team.launch && c.item == x.2.2 && c.slot == x.2.1 && c.place == .spill) &&
          !s'.agenda.contains (.carryFetch s.team.launch x.2.2 x.2.1 s.cur) then
        s'.owe (.carryFetch s.team.launch x.2.2 x.2.1 s.cur)
      else s') x).teams = x.teams := by
    intro l
    induction l with
    | nil => intro x; rfl
    | cons a l ih =>
      intro x
      rw [List.foldl_cons, ih]
      split <;> rfl
  exact this ns s

/-- The events that an instruction counts as it retires. -/
theorem settle_counted (s : State) (u : Use) (io : Issue) (g : Group) (evs : List Nat) (hg : g.team = s.grp.team) :
    Counted s (s.settle u io g evs) evs := by
  intro c hc
  have hteam : (s.settle u io g evs).team = (s.settle u io g evs).teamOf s.grp.team := by
    have h := congrArg Group.team (settle_grp s u io g evs)
    have h' : (s.settle u io g evs).grp.team = s.grp.team := h.trans hg
    rw [State.team, h']
  rw [hteam]
  let p := (s.setGrp (s.retiring u io g)).pass u.stall
  have hp : Keeps s.cur (s.setGrp (s.retiring u io g)) p := keeps_pass (s.setGrp (s.retiring u io g)) u.stall
  have hpt : (p.group s.cur).team = s.grp.team := by
    rw [hp.team]
    exact (congrArg Group.team (State.grp_setGrp s _)).trans hg
  have hn : (s.settle u io g evs).teams = (p.countEvents s.cur s.grp.cur.id evs).teams := fetchNeeds_teams _ _
  have h := countEvents_total p s.cur s.grp.cur.id evs c hc
  rw [hpt] at h
  have hps : p.teams = s.teams := pass_teams _ _
  simp only [State.teamOf, hn]
  simp only [State.teamOf, hps] at h
  exact h

theorem finish_counted (s : State) (u : Use) (io : Issue) (g : Group) (evs : List Nat) (hg : g.team = s.grp.team) :
    Counted s (s.finish u io g evs) evs :=
  by
  have h := congrArg Group.team (g.proceed_bare io none)
  exact settle_counted s u io _ evs (Eq.trans (b := g.team) h hg)

end Sys2Proof.Machine
end

