-- ==== Sys2Proof/Laws/Issue.lean ====
section
/-! SUPPORT. Admission of an instruction: what its sources read and which lanes act, when its operands stand ready. -/

namespace Sys2Proof.Machine

/-- The value of a back view as a lane's word. -/
def View.word : View → Word
  | .val x => x
  | _ => 0

theorem State.source_view (s : State) {n : Nat} (l : Nat) (h : 60 ≤ n ∧ n < 64) : s.source n l = (s.view (n - 60) l).word := by
  simp only [State.source, h, and_self, if_true]
  cases s.view (n - 60) l <;> rfl

theorem State.source_reg (s : State) {n : Nat} (l : Nat) (h : ¬ (60 ≤ n ∧ n < 64)) : s.source n l = s.grp.reg n l := by
  simp only [State.source, h, if_false]

/-- With no gap owed for any source, sources read as they stand, and named back views as registers 60 to 63. -/
theorem see_spec (s : State) (u : Use) (h : ∀ c ∈ u.srcs ++ s.implicit u, s.grp.owedOf c = []) :
    (∀ n l, l < 32 → (s.see u).reg n l = if 60 ≤ n ∧ n < 64 ∧ n ∈ u.srcs then (s.view (n - 60) l).word else s.grp.reg n l) ∧
      (s.see u).preds = s.grp.preds := by
  have h0 : ∀ cs : List Nat, (∀ c ∈ cs, s.grp.owedOf c = []) → cs.foldl s.seeOne s.grp = s.grp := by
    intro cs
    induction cs with
    | nil => intro _; rfl
    | cons c cs ih =>
      intro hc
      have h1 : s.seeOne s.grp c = s.grp := by simp [State.seeOne, hc c List.mem_cons_self]
      rw [List.foldl_cons, h1]
      exact ih (fun d hd => hc d (List.mem_cons_of_mem _ hd))
  have hg : (if s.schk then s.grp else (u.srcs ++ s.implicit u).foldl s.seeOne s.grp) = s.grp := by
    rw [h0 _ h]
    split <;> rfl
  have hf : ∀ (js : List Nat) (g : Group),
      (∀ n l, l < 32 → (js.foldl (fun g' j => g'.setLanes (60 + j)
          (fun l => match s.view j l with | .val x => x | _ => 0) (List.range 32)) g).reg n l =
        if 60 ≤ n ∧ n - 60 ∈ js then (s.view (n - 60) l).word else g.reg n l) ∧
      (js.foldl (fun g' j => g'.setLanes (60 + j)
          (fun l => match s.view j l with | .val x => x | _ => 0) (List.range 32)) g).preds = g.preds := by
    intro js
    induction js with
    | nil => intro g; exact ⟨fun n l _ => by simp, rfl⟩
    | cons j js ih =>
      intro g
      rw [List.foldl_cons]
      refine ⟨fun n l hl => ?_, ?_⟩
      · rw [(ih _).1 n l hl, Group.reg_setLanes _ _ _ _ _ _ (fun i hi => List.mem_range.1 hi) hl]
        by_cases hm : 60 ≤ n ∧ n - 60 ∈ js
        · simp [hm]
        · by_cases hj : n = 60 + j
          · subst hj
            have hj' : j ∉ js := fun h => hm ⟨by omega, by simpa using h⟩
            simp only [List.mem_range, hl, Nat.add_sub_cancel_left, List.mem_cons, true_or, and_self, Nat.le_add_right, hj',
              and_false, if_false, if_true]
            cases s.view j l <;> rfl
          · have : ¬ (60 ≤ n ∧ n - 60 ∈ j :: js) := by
              rintro ⟨h1, h2⟩
              rcases List.mem_cons.1 h2 with h3 | h3
              · omega
              · exact hm ⟨h1, h3⟩
            simp only [hm, if_false, hj, false_and, this]
      · rw [(ih _).2, Group.setLanes_eq]
  have hs : s.see u = u.slots.foldl (fun g' j => g'.setLanes (60 + j)
      (fun l => match s.view j l with | .val x => x | _ => 0) (List.range 32)) s.grp := by
    rw [State.see]
    simp only [hg]
    all_goals rfl
  rw [hs]
  refine ⟨fun n l hl => ?_, (hf _ _).2⟩
  rw [(hf _ _).1 n l hl]
  have hiff : (60 ≤ n ∧ n - 60 ∈ u.slots) ↔ (60 ≤ n ∧ n < 64 ∧ n ∈ u.srcs) := by
    simp only [Use.slots, List.mem_map, List.mem_filter, Bool.and_eq_true, decide_eq_true_eq]
    constructor
    · rintro ⟨h1, a, ⟨h2, h3, h4⟩, h5⟩
      have : a = n := by omega
      subst this
      exact ⟨h1, h4, h2⟩
    · rintro ⟨h1, h2, h3⟩
      exact ⟨h1, n, ⟨h3, h1, h2⟩, rfl⟩
  simp only [hiff]

/-- No gap is owed for a register that nothing hinders. -/
theorem Unhindered.owedOf {s : State} {codes : List Nat} (h : Unhindered s codes) {c : Nat}
    (hc : c ∈ (64 + s.grp.cur.gp) :: codes) : s.grp.owedOf c = [] := by
  simp only [Group.owedOf, List.reverse_eq_nil_iff, List.filter_eq_nil_iff, beq_iff_eq]
  exact h.owed c hc

/-- What is ready reads as the source of the instruction's lane. -/
theorem see_source {s : State} {u : Use} (h : ∀ c ∈ u.srcs ++ s.implicit u, s.grp.owedOf c = []) {n l : Nat} (hl : l < 32)
    (hn : n ∈ u.srcs) : (s.see u).reg n l = s.source n l := by
  rw [(see_spec s u h).1 n l hl]
  by_cases hv : 60 ≤ n ∧ n < 64
  · rw [s.source_view l hv]; simp [hv, hn]
  · rw [s.source_reg l hv]
    have : ¬ (60 ≤ n ∧ n < 64 ∧ n ∈ u.srcs) := fun h => hv ⟨h.1, h.2.1⟩
    simp [this]

theorem see_guard {s : State} {u : Use} (h : ∀ c ∈ u.srcs ++ s.implicit u, s.grp.owedOf c = []) (f : Frag) :
    (s.see u).guard f = s.grp.guard f := by
  simp only [Group.guard, Group.pred, (see_spec s u h).2]

/-- The lanes an instruction acts in. -/
def State.lanesFor (s : State) (u : Use) : Mask := if u.guarded then s.lanesT else s.active

theorem lanesOn_see {s : State} {u : Use} (h : ∀ c ∈ u.srcs ++ s.implicit u, s.grp.owedOf c = []) :
    s.lanesOn u (s.see u) = s.lanesFor u := by
  simp only [State.lanesOn, State.lanesFor, State.lanesT, see_guard h]

/-- What an instruction asks of its fields and of the fragment apart from its operands. -/
structure Use.Legal (u : Use) (t : Mask) : Prop where
  priv : u.priv = none
  cls : u.cls ≠ 3
  step6 : u.step6 = none
  step7 : u.step7 = false
  check : u.check t = none
  redirect : u.redirect = none

/-- An instruction whose fields are admitted and whose operands stand ready acts at once, in all its lanes, and parks none. -/
theorem verdict_go (s : State) (u : Use) (hl : u.Legal (s.lanesFor u))
    (hf : Unhindered s (u.srcs ++ u.sel.toList.map (64 + ·) ++ u.dsts))
    (hv : ∀ n ∈ u.srcs, 60 ≤ n → n < 64 → s.launch.ordered = true ∧
      (tget ({} : CarrySlot) s.launch.lcb.carry (n - 60)).valid = true ∧
      ∀ l, (s.lanesFor u).getLsbD l = true → ∃ x, s.view (n - 60) l = .val x)
    (hw : s.whole u.srcs (s.lanesFor u)) :
    s.verdict u = .go { see := s.see u, t := s.lanesFor u, w := 0, needs := [] } := by
  have himp : ∀ c ∈ u.srcs ++ s.implicit u, c ∈ (64 + s.grp.cur.gp) :: (u.srcs ++ u.sel.toList.map (64 + ·) ++ u.dsts) := by
    intro c hc
    rcases List.mem_append.1 hc with hc | hc
    · simp [hc]
    · simp only [State.implicit, List.mem_append, Option.mem_toList, Option.map_eq_some_iff] at hc
      rcases hc with hc | ⟨a, ha, rfl⟩
      · split at hc
        · simp only [List.mem_singleton] at hc; simp [hc]
        · simp at hc
      · simp [ha]
  have how : ∀ c ∈ u.srcs ++ s.implicit u, s.grp.owedOf c = [] := fun c hc => hf.owedOf (himp c hc)
  have hshort : s.shortSource u = none := by
    simp only [State.shortSource]
    split
    · simp only [List.find?_eq_none, List.any_eq_true, beq_iff_eq, not_exists, not_and]
      exact fun c hc e he => hf.owed c (himp c hc) e he
    · rfl
  have hwait : s.mustWait u = false := by
    simp only [State.mustWait, hf.foot, List.isEmpty_nil, Bool.not_true, Bool.false_and, Bool.or_false, List.any_eq_false,
      List.any_eq_true, beq_iff_eq, not_exists, not_and]
    intro c hc b hb
    refine hf.busy c ?_ b hb
    rcases List.mem_append.1 hc with hc | hc
    · exact himp c hc
    · simp [hc]
  have hviews : ∀ j ∈ u.slots, s.launch.ordered = true ∧ (tget ({} : CarrySlot) s.launch.lcb.carry j).valid = true ∧
      ∀ l, (s.lanesFor u).getLsbD l = true → ∃ x, s.view j l = .val x := by
    intro j hj
    simp only [Use.slots, List.mem_map, List.mem_filter, Bool.and_eq_true, decide_eq_true_eq] at hj
    obtain ⟨n, ⟨hn, h1, h2⟩, rfl⟩ := hj
    exact hv n hn h1 h2
  have hun : s.unordered u = none := by
    simp only [State.unordered]
    split
    · next ho =>
      cases hsl : u.slots with
      | nil => simp
      | cons j js =>
        have := (hviews j (by simp [hsl])).1
        simp [this] at ho
    · simp only [Option.map_eq_none_iff, List.find?_eq_none, Bool.not_eq_true', Bool.not_eq_false]
      exact fun j hj => (hviews j hj).2.1
  have hreads : ∀ (see : Group) (l : Nat), u.reads see l = u.slots.map (fun j => (j, l)) := by
    intro see l
    simp only [Use.reads, Use.farReads, Use.ownReads, hl.redirect, Use.slots, List.nil_append, List.map_map]
    rfl
  have hspoilt : s.spoilt u = false := by
    have hcells : ∀ (see : Group) (l : Nat), u.cells see l = u.srcs.map (·, l) := by
      intro see l
      simp only [Use.cells, hl.redirect]
    simp only [State.spoilt, lanesOn_see how, hreads, hcells, Bool.or_eq_false_iff, Bool.and_eq_false_iff, List.any_map, List.any_eq_false,
      List.any_eq_true, Function.comp, Bool.and_eq_true, decide_eq_true_eq, List.contains_eq_mem, not_and, not_exists]
    refine ⟨Or.inr fun l hm c hc h60 => (hw c hc l (mem_lanesOf.1 hm)).1 h60, Or.inr fun l hm j hj => ?_⟩
    simp only [Use.slots, List.mem_map, List.mem_filter, Bool.and_eq_true, decide_eq_true_eq] at hj
    obtain ⟨n, ⟨hn, h1, h2⟩, rfl⟩ := hj
    simp [(hw n hn l (mem_lanesOf.1 hm)).2 h1 h2]
  have hcheck : u.check (s.lanesOn u (s.see u)) = none := by rw [lanesOn_see how]; exact hl.check
  have hval : ∀ l ∈ lanesOf (s.lanesFor u), ∀ j ∈ u.slots, ∃ x, s.view j l = .val x :=
    fun l hl j hj => (hviews j hj).2.2 l (mem_lanesOf.1 hl)
  have hadm : s.admitViews u = .go { see := s.see u, t := s.lanesFor u, w := 0, needs := [] } := by
    simp only [State.admitViews, lanesOn_see how]
    split
    · rfl
    · have havail : (lanesOf (s.lanesFor u)).filter (s.available u (s.see u)) = lanesOf (s.lanesFor u) := by
        rw [List.filter_eq_self]
        intro l hl
        simp only [State.available, hreads, List.all_map, List.all_eq_true, Function.comp]
        intro j hj
        obtain ⟨x, hx⟩ := hval l hl j hj
        simp [State.viewed, hx]
      have hbroken : ((lanesOf (s.lanesFor u)).filter (s.available u (s.see u))).find?
          (fun l => (s.brokenSlot u (s.see u) l).isSome) = none := by
        rw [havail, List.find?_eq_none]
        intro l hl
        simp only [State.brokenSlot, hreads, List.any_map, Bool.not_eq_true, Option.isSome_eq_false_iff, Option.isNone_iff_eq_none,
          List.find?_eq_none, List.any_eq_true, Function.comp, Bool.and_eq_true, beq_iff_eq, not_exists, not_and]
        intro i _ j hj _ hb
        obtain ⟨x, hx⟩ := hval l hl j hj
        simp [hx] at hb
      rw [hbroken]
      simp only [havail, maskOf_lanesOf]
      have hz : s.lanesFor u &&& ~~~s.lanesFor u = 0 := by simp
      rw [hz]
      have hnil : lanesOf (0 : Mask) = [] := by decide
      rw [hnil]
      rfl
  simp only [State.verdict, hl.priv, hl.cls, hl.step6, hl.step7, hshort, hwait, hspoilt, hcheck, hun, hadm, if_false, Bool.false_eq_true,
    Bool.or_false, Bool.and_false, ite_self]

/-- An instruction that may act at once does. -/
theorem run_go (s : State) (u : Use) (act : Issue → State) {io : Issue} (h : s.verdict u = .go io) :
    s.run u act = .next (act io) := by simp only [State.run, h]

theorem run_trap (s : State) (u : Use) (act : Issue → State) {c d : Nat} (h : s.verdict u = .trap c d) :
    s.run u act = .next (s.trap c d) := by simp only [State.run, h]

theorem run_wait (s : State) (u : Use) (act : Issue → State) (h : s.verdict u = .wait) :
    s.run u act = .next (s.stopsFor u).stand := by simp only [State.run, h]

/-- Where nothing that the instruction reads is poisoned, waiting changes the issuing fragment's wait alone. -/
theorem stopsFor_whole (s : State) (u : Use) (h : s.spoilt u = false) : s.stopsFor u = s := by simp [State.stopsFor, h]

end Sys2Proof.Machine
end

