-- ==== Sys2Proof/Laws/Shapes.lean ====
section
/-! SUPPORT. The common shapes of instructions: one result per lane, one predicate bit per lane, and elements side by side in a
register. -/

namespace Sys2Proof.Machine

/-! ### Writing an operand -/

theorem Group.reg_putVal (g : Group) (wide : Bool) (n r j : Nat) (f : Nat → Nat) (ls : List Nat) (h : ∀ l ∈ ls, l < 32)
    (hj : j < 32) :
    (g.putVal wide n f ls).reg r j =
      if r = n ∧ j ∈ ls then BitVec.ofNat 32 (f j)
      else if wide = true ∧ r = n + 1 ∧ j ∈ ls then BitVec.ofNat 32 (f j / 2 ^ 32) else g.reg r j := by
  unfold Group.putVal
  cases wide
  · simp only [Bool.false_eq_true, if_false, false_and, Group.reg_setLanes _ _ _ _ _ _ h hj]
  · simp only [if_true, true_and, Group.reg_setLanes _ _ _ _ _ _ h hj]
    by_cases h1 : r = n + 1
    · simp [h1]
    · simp [h1]

/-- Writing an operand changes the registers and their poison alone. -/
theorem Group.putVal_eq (g : Group) (wide : Bool) (n : Nat) (f : Nat → Nat) (ls : List Nat) :
    g.putVal wide n f ls = { g with regs := (g.putVal wide n f ls).regs, bad := (g.putVal wide n f ls).bad } := by
  unfold Group.putVal
  cases wide
  · simp only [Bool.false_eq_true, if_false]
    exact Group.setLanes_eq _ _ _ _
  · simp only [if_true]
    obtain ⟨r, b, h⟩ : ∃ r b, g.setLanes n (fun l => BitVec.ofNat 32 (f l)) ls = { g with regs := r, bad := b } :=
      ⟨_, _, Group.setLanes_eq _ _ _ _⟩
    rw [h]
    exact Group.setLanes_eq _ _ _ _

/-- Writing an operand poisons nothing (R417). -/
theorem Group.bad_putVal (g : Group) (wide : Bool) (n : Nat) (f : Nat → Nat) (ls : List Nat) : ∀ x ∈ (g.putVal wide n f ls).bad, x ∈ g.bad := by
  intro x h
  cases wide
  · exact Group.bad_setLanes _ _ _ _ h
  · exact Group.bad_setLanes _ _ _ _ (Group.bad_setLanes _ _ _ _ h)

/-- Width of an operand. -/
def opWidth (wide : Bool) : Nat := if wide then 64 else 32

theorem Group.val_putVal (g : Group) (wide : Bool) (n j : Nat) (f : Nat → Nat) (ls : List Nat) (h : ∀ l ∈ ls, l < 32)
    (hj : j ∈ ls) : (g.putVal wide n f ls).val wide n j = f j % 2 ^ opWidth wide := by
  have hj32 := h j hj
  cases wide
  · simp [Group.val, Group.reg_putVal _ _ _ _ _ _ _ h hj32, hj, opWidth]
  · simp only [Group.val, if_true, Group.reg_putVal _ _ _ _ _ _ _ h hj32, hj, and_self, opWidth, and_true,
      show ¬ n + 1 = n by omega, if_false, BitVec.toNat_ofNat]
    have h64 : f j % 2 ^ 64 = f j % (2 ^ 32 * 2 ^ 32) := by norm_num
    rw [h64, Nat.mod_mul]

/-! ### One result per lane -/

/-- What an instruction of one result per lane does when it acts at once. -/
theorem lanewise_go (s : State) (u : Use) (wide : Bool) (d : Nat) (f : Group → Nat → Nat × List Nat) (see : Group) (t : Mask)
    (h : s.verdict u = .go { see, t, w := 0, needs := [] }) :
    ∃ s', s.lanewise u wide d f = .next s' ∧
      (∀ l, t.getLsbD l = true → s'.grp.val wide d l = (f see l).1 % 2 ^ opWidth wide) ∧
      Completes s s' (regs wide d) t ((lanesOf t).flatMap (fun l => (f see l).2)) := by
  have hls : ∀ l ∈ lanesOf t, l < 32 := fun l hl => lt_of_mem_lanesOf hl
  refine ⟨_, by rw [State.lanewise, run_go s u _ h], ?_, ?_⟩
  · intro l hl
    rw [← Group.val_putVal s.grp wide d l (fun l => (f see l).1) (lanesOf t) hls (mem_lanesOf.2 hl)]
    simp only [Group.val, finish_reg]
  · refine ⟨finish_frame _ _ _ _ _, finish_advances _ _ _ _ _ rfl ?_ ?_ ?_ (Group.bad_putVal _ _ _ _ _), ?_, ?_, finish_counted _ _ _ _ _ ?_⟩
    · rw [Group.putVal_eq]
    · rw [Group.putVal_eq]
    · rw [Group.putVal_eq]; rfl
    · intro r l hl hn
      rw [finish_reg, Group.reg_putVal _ _ _ _ _ _ _ hls hl]
      cases wide
      · rw [if_neg (fun h => hn ⟨by simp [regs, h.1], mem_lanesOf.1 h.2⟩)]; simp
      · rw [if_neg (fun h => hn ⟨by simp [regs, h.1], mem_lanesOf.1 h.2⟩),
          if_neg (fun h => hn ⟨by simp [regs, h.2.1], mem_lanesOf.1 h.2.2⟩)]
    · rw [finish_preds, Group.putVal_eq]
    · rw [Group.putVal_eq]

/-- What an instruction of one predicate bit per lane does when it acts at once. -/
theorem predwise_go (s : State) (u : Use) (d : Nat) (f : Group → Nat → Bool × List Nat) (see : Group) (t : Mask)
    (h : s.verdict u = .go { see, t, w := 0, needs := [] }) :
    ∃ s', s.predwise u d f = .next s' ∧
      (d ≠ 0 → ∀ l, t.getLsbD l = true → (s'.grp.pred d).getLsbD l = (f see l).1) ∧
      CompletesPred s s' d t ((lanesOf t).flatMap (fun l => (f see l).2)) := by
  refine ⟨_, by rw [State.predwise, run_go s u _ h], ?_, ?_⟩
  · intro hd l hl
    have hlt : l < 32 := BitVec.lt_of_getLsbD hl
    rw [finish_pred, Group.pred_setPred, if_pos ⟨rfl, hd⟩]
    simp only [BitVec.getLsbD_or, BitVec.getLsbD_and, BitVec.getLsbD_not, hl, hlt]
    rw [getLsbD_maskOf _ _ (fun i hi => lt_of_mem_lanesOf (List.mem_of_mem_filter hi))]
    simp [mem_lanesOf, hl]
  · refine ⟨finish_frame _ _ _ _ _, finish_advances _ _ _ _ _ rfl ?_ ?_ ?_ (by rw [Group.setPred_eq]; exact fun _ h => h), ?_, ?_, ?_, finish_counted _ _ _ _ _ ?_⟩
    · rw [Group.setPred_eq]
    · rw [Group.setPred_eq]
    · rw [Group.setPred_eq]; rfl
    · rw [finish_regs, Group.setPred_eq]
    · intro n hn
      rw [finish_pred, Group.pred_setPred]
      rw [if_neg]
      rintro ⟨h1, h2⟩
      subst h1
      rcases hn with hn | hn
      · exact hn rfl
      · exact h2 hn
    · intro l hl
      rw [finish_pred, Group.pred_setPred]
      split
      · next hd =>
        by_cases hlt : l < 32
        · rw [BitVec.getLsbD_or, BitVec.getLsbD_and, BitVec.getLsbD_and, BitVec.getLsbD_not, hl]; simp [hlt]
        · simp [BitVec.getLsbD_of_ge _ _ (Nat.le_of_not_lt hlt)]
      · rfl
    · rw [Group.setPred_eq]

/-! ### Elements -/

theorem joinElems_lt (w : Nat) (rs : List (Nat × List Nat)) (h : ∀ r ∈ rs, r.1 < 2 ^ w) :
    (joinElems w rs).1 < 2 ^ (w * rs.length) := by
  induction rs with
  | nil => simp [joinElems]
  | cons r rs ih =>
    have h1 := h r List.mem_cons_self
    have h2 := ih (fun x hx => h x (List.mem_cons_of_mem _ hx))
    simp only [joinElems, List.length_cons, Nat.mul_add, Nat.mul_one, pow_add]
    calc r.1 + 2 ^ w * (joinElems w rs).1 < 2 ^ w + 2 ^ w * (joinElems w rs).1 := by omega
      _ = 2 ^ w * ((joinElems w rs).1 + 1) := by ring
      _ ≤ 2 ^ w * 2 ^ (w * rs.length) := Nat.mul_le_mul_left _ h2
      _ = 2 ^ (w * rs.length) * 2 ^ w := Nat.mul_comm _ _

/-- Element e of joined elements is the e-th of them: nothing crosses from one element into another. -/
theorem joinElems_elem (w : Nat) (rs : List (Nat × List Nat)) (h : ∀ r ∈ rs, r.1 < 2 ^ w) (e : Nat) (he : e < rs.length) :
    (joinElems w rs).1 / 2 ^ (w * e) % 2 ^ w = rs[e].1 := by
  induction rs generalizing e with
  | nil => simp at he
  | cons r rs ih =>
    have h1 := h r List.mem_cons_self
    cases e with
    | zero => simp [joinElems, Nat.mod_eq_of_lt h1]
    | succ e =>
      have h2 := ih (fun x hx => h x (List.mem_cons_of_mem _ hx)) e (by simpa using he)
      simp only [joinElems, List.getElem_cons_succ, Nat.mul_add, Nat.mul_one, pow_add]
      rw [Nat.mul_comm (2 ^ (w * e)), ← Nat.div_div_eq_div_mul, Nat.add_mul_div_left _ _ (by positivity),
        Nat.div_eq_of_lt h1, Nat.zero_add, h2]

theorem wrap_lt (w : Nat) (x : Int) : wrap w x < 2 ^ w := by
  unfold wrap
  have h : (0 : Int) < ((2 ^ w : Nat) : Int) := by positivity
  have h1 := Int.emod_nonneg x (Int.ne_of_gt h)
  have h2 := Int.emod_lt_of_pos x h
  omega

theorem IntTy.wrapped_lt (ty : IntTy) (x : Int) : (ty.wrapped x).1 < 2 ^ ty.w := wrap_lt _ _

theorem IntTy.clamp_lt (ty : IntTy) (x : Int) : (ty.clamp x).1 < 2 ^ ty.w := by
  unfold IntTy.clamp
  split
  · exact wrap_lt _ _
  · split <;> exact wrap_lt _ _

theorem IntTy.fit_lt (ty : IntTy) (x : Int) : (ty.fit x).1 < 2 ^ ty.w := by
  unfold IntTy.fit
  split
  · exact ty.clamp_lt x
  · exact wrap_lt _ _

end Sys2Proof.Machine
end

