-- ==== Sys2Proof/Laws/Integers.lean ====
section
/-! SUPPORT. Element-wise integer instructions, whenever they may act. -/

namespace Sys2Proof.Machine

/-- What a readable operand reads as the instruction sees it. -/
theorem see_operand {s : State} {u : Use} (h : ∀ c ∈ u.srcs ++ s.implicit u, s.grp.owedOf c = []) (wide : Bool) {n l : Nat}
    (hl : l < 32) (hn : ∀ r ∈ regs wide n, r ∈ u.srcs) : (s.see u).val wide n l = s.operand wide n l := by
  cases wide
  · simp only [Group.val, State.operand, Bool.false_eq_true, if_false]
    rw [see_source h hl (hn n (by simp [regs]))]
  · simp only [Group.val, State.operand, if_true]
    rw [see_source h hl (hn n (by simp [regs])), see_source h hl (hn (n + 1) (by simp [regs]))]

/-- The guard's register and an instruction's own, none hindered, owe no gap. -/
theorem ready_owed {s : State} {u : Use} {srcs dsts : List Nat} (h : Unhindered s (srcs ++ dsts)) (hs : u.srcs = srcs)
    (hsel : u.sel = none) : ∀ c ∈ u.srcs ++ s.implicit u, s.grp.owedOf c = [] := by
  intro c hc
  apply h.owedOf
  rcases List.mem_append.1 hc with hc | hc
  · simp [← hs, hc]
  · simp only [State.implicit, hsel, Option.map_none, Option.toList_none, List.append_nil] at hc
    split at hc
    · simp only [List.mem_singleton] at hc; simp [hc]
    · simp at hc

/-- A guarded instruction without a selector acts at once when its operands stand ready. -/
theorem verdict_ready {s : State} {u : Use} {srcs dsts : List Nat} (h : Ready s srcs dsts) (hs : u.srcs = srcs)
    (hd : u.dsts = dsts) (hsel : u.sel = none) (hg : u.guarded = true) (hp : u.priv = none) (hc : u.cls ≠ 3)
    (h6 : u.step6 = none) (h7 : u.step7 = false) (hk : u.check s.lanesT = none) (hr : u.redirect = none) :
    s.verdict u = .go { see := s.see u, t := s.lanesT, w := 0, needs := [] } := by
  have ht : s.lanesFor u = s.lanesT := by simp [State.lanesFor, hg]
  have h2 := verdict_go s u ⟨hp, hc, h6, h7, by rw [ht]; exact hk, hr⟩ (by simpa [hs, hd, hsel] using h.free)
    (by rw [ht, hs]; exact h.views) (by rw [ht, hs]; exact h.whole)
  rw [h2, ht]

theorem etCheck_int {ok : List Nat} {et : Nat} (h : et ∈ ok) (h8 : et < 8) : etCheck 1 ok et = none := by
  simp [etCheck, h, h8]

/-- The verdict of an integer instruction whose operands stand ready. -/
theorem intUse_go {s : State} {st : BitVec 3} {l32 l64 d : Nat} {ok fs : List Nat} (h : IntReady s ok d fs) (hok : ∀ e ∈ ok, e < 8) :
    s.verdict (s.intUse st l32 l64 ok d fs) =
      .go { see := s.see (s.intUse st l32 l64 ok d fs), t := s.lanesT, w := 0, needs := [] } := by
  apply verdict_ready h.ready rfl rfl rfl rfl rfl
  · show (0 : Nat) ≠ 3
    decide
  · exact etCheck_int h.type (hok _ h.type)
  · simp only [State.intUse]
    cases hw : s.wide
    · rfl
    · have := h.pairs hw
      simp only [this.1, Bool.true_and, Bool.not_eq_false', List.all_eq_true]
      exact this.2
  · rfl
  · rfl

theorem int_elems_lt (s : State) (h : s.et < 8) : s.ity.w * s.ity.n = (if s.wide then 64 else 32) := by
  have he : ∀ e < 8, (intTy e s.grp.cur.sat).w * (intTy e s.grp.cur.sat).n = if e == 2 || e == 3 then 64 else 32 := by
    intro e he
    simp only [intTy]
    interval_cases e <;> rfl
  exact he s.et h

/-- The elements of an integer instruction's operands as the instruction sees them. -/
theorem see_elem {s : State} {st : BitVec 3} {l32 l64 d : Nat} {ok fs : List Nat} (h : IntReady s ok d fs) {l k : Nat} (e : Nat)
    (hl : l < 32) (hk : k < fs.length) :
    s.ity.value (s.ity.raw ((s.see (s.intUse st l32 l64 ok d fs)).val s.wide (fs.getD k 0) l) e) = s.elemOf fs l e k := by
  rw [State.elemOf, see_operand (ready_owed h.ready.free rfl rfl) s.wide hl]
  intro r hr
  simp only [State.intUse, List.mem_flatMap]
  exact ⟨fs.getD k 0, by rw [List.getD_eq_getElem _ _ hk]; exact List.getElem_mem hk, hr⟩

/-- An element-wise integer instruction whose results fit the element's width completes, each element from the same elements of
its sources. -/
theorem intOp_elementwise {s : State} {i : Instr} {st : BitVec 3} {l32 l64 d : Nat} {ok fs : List Nat}
    {f g : IntTy → (Nat → Int) → Nat × List Nat} (hi : exec i s = s.intOp st l32 l64 ok d fs g) (h : IntReady s ok d fs)
    (hok : ∀ e ∈ ok, e < 8) (hlt : ∀ x, (f s.ity x).1 < 2 ^ s.ity.w)
    (hg : ∀ x y : Nat → Int, (∀ k < fs.length, x k = y k) → g s.ity x = f s.ity y) : Elementwise s i d fs f := by
  have hgo := intUse_go (st := st) (l32 := l32) (l64 := l64) h hok
  obtain ⟨t, ht, hv, hc⟩ := lanewise_go s _ s.wide d (fun see l =>
    joinElems s.ity.w ((List.range s.ity.n).map (fun e =>
      g s.ity (fun i => s.ity.value (s.ity.raw (see.val s.wide (fs.getD i 0) l) e))))) _ _ hgo
  have hgf : ∀ l < 32, ∀ e, g s.ity (fun i => s.ity.value (s.ity.raw
      ((s.see (s.intUse st l32 l64 ok d fs)).val s.wide (fs.getD i 0) l) e)) = f s.ity (s.elemOf fs l e) :=
    fun l hl e => hg _ _ (fun k hk => see_elem h e hl hk)
  refine ⟨t, by rw [hi]; exact ht, ?_, ?_⟩
  · intro l hl e he
    have hl32 : l < 32 := BitVec.lt_of_getLsbD hl
    rw [hv l hl]
    simp only [hgf l hl32]
    have hall : ∀ r ∈ (List.range s.ity.n).map (fun e => f s.ity (s.elemOf fs l e)), r.1 < 2 ^ s.ity.w := by
      intro r hr
      obtain ⟨e', _, rfl⟩ := List.mem_map.1 hr
      exact hlt _
    have hsm := joinElems_lt _ _ hall
    rw [List.length_map, List.length_range, int_elems_lt s (hok _ h.type)] at hsm
    rw [opWidth, Nat.mod_eq_of_lt hsm, IntTy.raw, joinElems_elem _ _ hall e (by simpa using he)]
    simp
  · have hev : (lanesOf s.lanesT).flatMap (fun l => (joinElems s.ity.w ((List.range s.ity.n).map (fun e =>
        g s.ity (fun i => s.ity.value (s.ity.raw ((s.see (s.intUse st l32 l64 ok d fs)).val s.wide (fs.getD i 0) l) e))))).2) =
        (lanesOf s.lanesT).flatMap (fun l => (List.range s.ity.n).flatMap (fun e => (f s.ity (s.elemOf fs l e)).2)) := by
      apply List.flatMap_congr
      intro l hl
      have hj : ∀ rs : List (Nat × List Nat), (joinElems s.ity.w rs).2 = rs.flatMap (·.2) := by
        intro rs
        induction rs with
        | nil => rfl
        | cons r rs ih => simp [joinElems, ih]
      rw [hj, List.flatMap_map]
      simp only [hgf l (lt_of_mem_lanesOf hl)]
    rw [← hev]
    exact hc

end Sys2Proof.Machine
end

