-- ==== Sys2Proof/Laws/Memory.lean ====
section
/-! SUPPORT. Every operation of the model that writes physical memory keeps its canonical form: bytes and numbers at their homes,
the bias table, the spill area (R173), a save frame, and the word placed for a fetch. -/

namespace Sys2Proof.Machine

theorem mem_wf_setHomeByte {s : State} (loc : Nat) (b : Byte) (h : Memory.wf s.mem = true) :
    Memory.wf (s.setHomeByte loc b).mem = true := by
  unfold State.setHomeByte
  split
  · exact Memory.wf_writeByte _ _ h
  · exact h

theorem mem_wf_setHomeLe {s : State} (n loc v : Nat) (h : Memory.wf s.mem = true) : Memory.wf (s.setHomeLe loc v n).mem = true := by
  induction n generalizing loc v with
  | zero => exact h
  | succ n ih => exact mem_wf_setHomeByte _ _ (ih _ _)

theorem mem_wf_setBias {s : State} (he page : Nat) (host : Bool) (h : Memory.wf s.mem = true) :
    Memory.wf (s.setBias he page host).mem = true :=
  Memory.wf_writeByte _ _ h

theorem mem_wf_writeSpill {s : State} (c : Carried) (h : Memory.wf s.mem = true) : Memory.wf (s.writeSpill c).mem = true := by
  unfold State.writeSpill
  simp only
  split
  · exact h
  · exact Memory.wf_writeLe _ _ _ h

/-- Bytes of any values written one after the other. -/
theorem mem_wf_foldl {β : Type} (f : List Host.Cell → β → List Host.Cell) (hf : ∀ m x, Memory.wf m = true → Memory.wf (f m x) = true)
    (l : List β) {m : List Host.Cell} (h : Memory.wf m = true) : Memory.wf (l.foldl f m) = true := by
  induction l generalizing m with
  | nil => exact h
  | cons x l ih => exact ih (hf _ _ h)

theorem mem_wf_scrubSpill {s : State} (l : Launch) (h : Memory.wf s.mem = true) : Memory.wf (s.scrubSpill l).mem = true := by
  unfold State.scrubSpill
  simp only
  split
  · exact h
  · refine mem_wf_foldl _ (fun m e hm => ?_) _ h
    split
    · exact hm
    · exact mem_wf_foldl _ (fun _ _ h' => Memory.wf_writeByte _ _ h') _ hm

/-- Writes of several fields over a cleared range. -/
theorem mem_wf_writeFrame {s : State} (base size : Nat) (fs : Fields) (h : Memory.wf s.mem = true) :
    Memory.wf (s.writeFrame base size fs).mem = true := by
  have h0 : Memory.wf (clearMem s.mem base size) = true := Memory.wf_filter _ h
  revert h0
  show Memory.wf (clearMem s.mem base size) = true → Memory.wf (fs.foldl _ (clearMem s.mem base size)) = true
  generalize clearMem s.mem base size = m
  intro hm
  induction fs generalizing m with
  | nil => exact hm
  | cons f fs ih => exact ih _ (Memory.wf_writeLe _ _ _ hm)

theorem mem_wf_storeAtPc {s : State} (k w : Nat) (h : Memory.wf s.mem = true) : Memory.wf (s.storeAtPc k w).mem = true := by
  unfold State.storeAtPc
  simp only
  split
  · exact h
  · exact Memory.wf_writeLe _ _ _ h

theorem mem_wf_reset : Memory.wf State.reset.mem = true := rfl

/-- A byte written at its home reads back, in memory or at a peer. -/
theorem homeByte_setHomeByte (s : State) (loc k : Nat) (b : Byte) (h : locDev loc = none) (hk : locDev k = none) :
    (s.setHomeByte loc b).homeByte k = if k = loc then b else s.homeByte k := by
  simp only [State.setHomeByte, State.homeByte, h, hk]
  exact readByte_writeByte _ _ _ _

end Sys2Proof.Machine
end

