-- ==== Sys2Proof/Laws/Passing.lean ====
section
/-! SUPPORT. Instructions whose own effect is written down as a state, with their slot passing after it. -/

namespace Sys2Proof.Machine

theorem State.group_setGrp_same (s : State) (g : Group) : (s.setGrp g).grp = g := by
  rw [State.setGrp, State.grp]
  show (s.putGroup s.cur g).group s.cur = g
  rw [State.group_putGroup, if_pos rfl]

/-- Writing the issuing group twice leaves the second. -/
theorem frame_setGrp_setGrp (s : State) (g h : Group) : Frame s.cur (s.setGrp g) (s.setGrp h) :=
  { rest := rfl
    groups := fun j hj => by rw [State.group_setGrp_other s h hj, State.group_setGrp_other s g hj]
    teams := fun _ => rfl
    launches := fun _ => rfl }

/-- An instruction that parks no lane and goes on at the next word: from the state that holds its results, its slot passes. -/
theorem finish_passes (s : State) (u : Use) (io : Issue) (g : Group) (evs : List Nat) (hw : io.w = 0)
    (ht : g.team = s.grp.team) : Passes (s.setGrp g) (s.finish u io g evs) evs := by
  have h := finish_grp s u io g evs
  rw [Group.proceed_next _ _ hw] at h
  have h1 := congrArg Group.cur h
  have h2 := congrArg Group.rest h
  have hg := s.group_setGrp_same g
  refine ⟨?_, ⟨?_, ?_, ?_, ?_⟩, ?_, ?_, ?_⟩
  · exact (frame_setGrp_setGrp s g _).trans (keeps_settle s u io _ evs).toFrame
  · rw [hg]; exact h1
  · rw [hg]; exact h2
  · rw [hg]; exact finish_fixed s u io g evs
  · rw [hg, finish_bad]; exact fun _ h => h
  · rw [hg]; exact finish_regs s u io g evs
  · rw [hg]; exact finish_preds s u io g evs
  · have hc := finish_counted s u io g evs ht
    have : (s.setGrp g).team = s.team := by
      rw [State.team, hg, ht]; rfl
    intro c hc6
    rw [this]
    exact hc c hc6

/-- What a guarded instruction without a selector may need and still act at once when its operands stand ready. -/
structure Use.Plain (s : State) (u : Use) (srcs dsts : List Nat) : Prop where
  srcs : u.srcs = srcs
  dsts : u.dsts = dsts
  sel : u.sel = none
  guarded : u.guarded = true
  priv : u.priv = none
  cls : u.cls ≠ 3
  step6 : u.step6 = none
  step7 : u.step7 = false
  check : u.check s.lanesT = none
  redirect : u.redirect = none

theorem plain_go {s : State} {u : Use} {srcs dsts : List Nat} (h : Ready s srcs dsts) (hu : u.Plain s srcs dsts) :
    s.verdict u = .go { see := s.see u, t := s.lanesT, w := 0, needs := [] } :=
  verdict_ready h hu.srcs hu.dsts hu.sel hu.guarded hu.priv hu.cls hu.step6 hu.step7 hu.check hu.redirect

/-- Sources of a plain instruction read as they stand. -/
theorem plain_see {s : State} {u : Use} {srcs dsts : List Nat} (h : Ready s srcs dsts) (hu : u.Plain s srcs dsts) {n l : Nat}
    (hl : l < 32) (hn : n ∈ srcs) : (s.see u).reg n l = s.source n l :=
  see_source (ready_owed h.free hu.srcs hu.sel) hl (by rw [hu.srcs]; exact hn)

theorem plain_val {s : State} {u : Use} {srcs dsts : List Nat} (h : Ready s srcs dsts) (hu : u.Plain s srcs dsts) (wide : Bool)
    {n l : Nat} (hl : l < 32) (hn : ∀ r ∈ regs wide n, r ∈ srcs) : (s.see u).val wide n l = s.operand wide n l :=
  see_operand (ready_owed h.free hu.srcs hu.sel) wide hl (by rw [hu.srcs]; exact hn)

/-- Predicates read as they stand. -/
theorem plain_pred {s : State} {u : Use} {srcs dsts : List Nat} (h : Ready s srcs dsts) (hu : u.Plain s srcs dsts) (n : Nat) :
    (s.see u).pred n = s.grp.pred n := by
  rw [Group.pred, (see_spec s u (ready_owed h.free hu.srcs hu.sel)).2, Group.pred]

theorem lanewise_ready {s : State} {i : Instr} {u : Use} {wide : Bool} {d : Nat} {f : Group → Nat → Nat × List Nat}
    {g : Nat → Nat × List Nat} {srcs dsts : List Nat} (hi : exec i s = s.lanewise u wide d f) (h : Ready s srcs dsts)
    (hu : u.Plain s srcs dsts) (hf : ∀ l, l < 32 → f (s.see u) l = g l) : Lanewise s i wide d g := by
  obtain ⟨t, ht, hv, hc⟩ := lanewise_go s u wide d f _ _ (plain_go h hu)
  refine ⟨t, hi.trans ht, fun l hl => ?_, ?_⟩
  · rw [hv l hl, hf l (BitVec.lt_of_getLsbD hl)]
    rfl
  · have : (lanesOf s.lanesT).flatMap (fun l => (f (s.see u) l).2) = (lanesOf s.lanesT).flatMap (fun l => (g l).2) :=
      List.flatMap_congr (fun l hl => by rw [hf l (lt_of_mem_lanesOf hl)])
    rw [← this]
    exact hc

theorem predwise_ready {s : State} {i : Instr} {u : Use} {d : Nat} {f : Group → Nat → Bool × List Nat}
    {g : Nat → Bool × List Nat} {srcs dsts : List Nat} (hi : exec i s = s.predwise u d f) (h : Ready s srcs dsts)
    (hu : u.Plain s srcs dsts) (hf : ∀ l, l < 32 → f (s.see u) l = g l) : Predwise s i d g := by
  obtain ⟨t, ht, hv, hc⟩ := predwise_go s u d f _ _ (plain_go h hu)
  refine ⟨t, hi.trans ht, fun hd l hl => ?_, ?_⟩
  · rw [hv hd l hl, hf l (BitVec.lt_of_getLsbD hl)]
  · have : (lanesOf s.lanesT).flatMap (fun l => (f (s.see u) l).2) = (lanesOf s.lanesT).flatMap (fun l => (g l).2) :=
      List.flatMap_congr (fun l hl => by rw [hf l (lt_of_mem_lanesOf hl)])
    rw [← this]
    exact hc

end Sys2Proof.Machine
end

