-- ==== Sys2Proof/Laws/PerInstr.lean ====
section
/-! SUPPORT. Encoding and decoding agree, one lemma for each constructor of Instr. -/

namespace Sys2Proof.Laws

/-- A field reads back as the value whose bits stand there. -/
theorem fld_eq {n : Nat} (lo w : Nat) (x : BitVec n) (h : w / 2 ^ lo % 2 ^ n = x.toNat) : fld n lo w = x := by
  apply BitVec.eq_of_toNat_eq
  simpa [fld] using h

/-- Bits that must be zero are zero in a value too small to reach them. -/
theorem and_high {x k : Nat} (m : Nat) (h : x < 2 ^ k) : x &&& (m * 2 ^ k) = 0 := by
  apply Nat.eq_of_testBit_eq
  intro i
  rw [Nat.testBit_and, Nat.testBit_mul_two_pow]
  by_cases hi : k ≤ i
  · simp [Nat.testBit_lt_two_pow (lt_of_lt_of_le h (Nat.pow_le_pow_right (by omega) hi))]
  · simp [hi]

/-- Step 2 of R35 passes when every field holds its value, clear of the bits that must be zero, and admits it. -/
theorem fieldFault_none (w : Nat) (i : Instr) (h : i.badField = none)
    (hz : ∀ o ∈ i.operands, (w / 2 ^ o.lo % 2 ^ o.width) &&& o.zeros = 0) : fieldFault w i.operands = none := by
  simp only [Instr.badField, List.findSome?_eq_none_iff] at h
  simp only [fieldFault, List.findSome?_eq_none_iff]
  intro o ho
  simp [hz o ho, h o ho]

theorem all_nil {p : Operand → Prop} : ∀ o ∈ ([] : List Operand), p o := fun _ h => nomatch h

theorem all_cons {p : Operand → Prop} {x : Operand} {l : List Operand} (h : p x) (t : ∀ o ∈ l, p o) : ∀ o ∈ x :: l, p o :=
  List.forall_mem_cons.2 ⟨h, t⟩

/-- A word decodes to its candidate when the steps of R35 that follow pass. -/
theorem decode_of {w : Nat} {i : Instr} (h : i.wf = true) (hc : candidate w = .ok i)
    (hz : ∀ o ∈ i.operands, (w / 2 ^ o.lo % 2 ^ o.width) &&& o.zeros = 0)
    (hv : i.isVariable = false ∨ w / 2 ^ 23 % 8 = 0) : decode w = .ok i := by
  have hb : i.badField = none := by
    simp only [Instr.wf, Bool.and_eq_true, Option.isNone_iff_eq_none] at h
    exact h.2
  simp only [decode, hc, fieldFault_none w i hb hz]
  rcases hv with hv | hv
  · simp [hv]
  · rw [hv]; simp

/-- No minor code of a well-formed instruction is unassigned. -/
theorem minor_of {i : Instr} (h : i.wf = true) : i.badMinor = false := by
  simp only [Instr.wf, Bool.and_eq_true, Bool.not_eq_true'] at h
  exact h.1.2

/-- A well-formed instruction decodes from the word that encodes it. -/
def Encoding.Statement (i : Instr) : Prop := i.wf = true → decode (encode i) = .ok i

end Sys2Proof.Laws

open Sys2Proof Sys2Proof.Laws

theorem Sys2Proof.Laws.Encoding.br (s : BitVec 3) (o : BitVec 23) :
    Encoding.Statement (.br s o) := by
  intro hwf
  have hs := s.isLt
  have ho := o.isLt
  have ew : encode (.br s o) = 0x4000000 + s.toNat * 2 ^ 23 + o.toNat * 2 ^ 0 := rfl
  generalize encode (.br s o) = x at ew ⊢
  refine decode_of hwf ?_ ?_ ?_
  · rw [candidate, show x / 2 ^ 26 % 64 = 1 by omega]
    simp only []
    rw [fld_eq 23 x s (by omega), fld_eq 0 x o (by omega)]
  · exact all_nil
  · exact .inl rfl

theorem Sys2Proof.Laws.Encoding.call (s : BitVec 3) (o : BitVec 23) :
    Encoding.Statement (.call s o) := by
  intro hwf
  have hs := s.isLt
  have ho := o.isLt
  have ew : encode (.call s o) = 0x8000000 + s.toNat * 2 ^ 23 + o.toNat * 2 ^ 0 := rfl
  generalize encode (.call s o) = x at ew ⊢
  refine decode_of hwf ?_ ?_ ?_
  · rw [candidate, show x / 2 ^ 26 % 64 = 2 by omega]
    simp only []
    rw [fld_eq 23 x s (by omega), fld_eq 0 x o (by omega)]
  · exact all_nil
  · exact .inl rfl

theorem Sys2Proof.Laws.Encoding.fuse (s : BitVec 3) (o : BitVec 23) :
    Encoding.Statement (.fuse s o) := by
  intro hwf
  have hs := s.isLt
  have ho := o.isLt
  have ew : encode (.fuse s o) = 0xc000000 + s.toNat * 2 ^ 23 + o.toNat * 2 ^ 0 := rfl
  generalize encode (.fuse s o) = x at ew ⊢
  refine decode_of hwf ?_ ?_ ?_
  · rw [candidate, show x / 2 ^ 26 % 64 = 3 by omega]
    simp only []
    rw [fld_eq 23 x s (by omega), fld_eq 0 x o (by omega)]
  · exact all_nil
  · exact .inl rfl

theorem Sys2Proof.Laws.Encoding.brt (a : BitVec 6) (n : BitVec 11) :
    Encoding.Statement (.brt a n) := by
  intro hwf
  have ha := a.isLt
  have hn := n.isLt
  have ew : encode (.brt a n) = 0x10000000 + a.toNat * 2 ^ 11 + n.toNat * 2 ^ 0 := rfl
  generalize encode (.brt a n) = x at ew ⊢
  refine decode_of hwf ?_ ?_ ?_
  · rw [candidate, show x / 2 ^ 26 % 64 = 4 by omega]
    simp only []
    rw [fld_eq 11 x a (by omega), fld_eq 0 x n (by omega)]
  · rw [show Instr.operands (.brt a n) = [⟨17, 6, 63, .zero, 0⟩, ⟨11, 6, 0, .vsrc, a.toNat⟩, ⟨0, 11, 0, .free, n.toNat⟩] from rfl]
    exact all_cons (show x / 2 ^ 17 % 2 ^ 6 &&& 63 = 0 from and_high (k := 0) 63 (by omega)) (all_cons (Nat.and_zero _) (all_cons (Nat.and_zero _) all_nil))
  · exact .inr (by omega)

theorem Sys2Proof.Laws.Encoding.bra (s : BitVec 3) (a : BitVec 6) :
    Encoding.Statement (.bra s a) := by
  intro hwf
  have hs := s.isLt
  have ha := a.isLt
  have ew : encode (.bra s a) = 0x14000000 + s.toNat * 2 ^ 23 + a.toNat * 2 ^ 11 := rfl
  generalize encode (.bra s a) = x at ew ⊢
  refine decode_of hwf ?_ ?_ ?_
  · rw [candidate, show x / 2 ^ 26 % 64 = 5 by omega]
    simp only []
    rw [minorControl, show x % 32 = 0 by omega]
    simp only []
    rw [fld_eq 23 x s (by omega), fld_eq 11 x a (by omega)]
  · rw [show Instr.operands (.bra s a) = [⟨17, 6, 63, .zero, 0⟩, ⟨11, 6, 0, .pair, a.toNat⟩, ⟨5, 6, 63, .zero, 0⟩] from rfl]
    exact all_cons (show x / 2 ^ 17 % 2 ^ 6 &&& 63 = 0 from and_high (k := 0) 63 (by omega)) (all_cons (Nat.and_zero _) (all_cons (show x / 2 ^ 5 % 2 ^ 6 &&& 63 = 0 from and_high (k := 0) 63 (by omega)) all_nil))
  · exact .inl rfl

theorem Sys2Proof.Laws.Encoding.calla (s : BitVec 3) (a : BitVec 6) :
    Encoding.Statement (.calla s a) := by
  intro hwf
  have hs := s.isLt
  have ha := a.isLt
  have ew : encode (.calla s a) = 0x14000001 + s.toNat * 2 ^ 23 + a.toNat * 2 ^ 11 := rfl
  generalize encode (.calla s a) = x at ew ⊢
  refine decode_of hwf ?_ ?_ ?_
  · rw [candidate, show x / 2 ^ 26 % 64 = 5 by omega]
    simp only []
    rw [minorControl, show x % 32 = 1 by omega]
    simp only []
    rw [fld_eq 23 x s (by omega), fld_eq 11 x a (by omega)]
  · rw [show Instr.operands (.calla s a) = [⟨17, 6, 63, .zero, 0⟩, ⟨11, 6, 0, .pair, a.toNat⟩, ⟨5, 6, 63, .zero, 0⟩] from rfl]
    exact all_cons (show x / 2 ^ 17 % 2 ^ 6 &&& 63 = 0 from and_high (k := 0) 63 (by omega)) (all_cons (Nat.and_zero _) (all_cons (show x / 2 ^ 5 % 2 ^ 6 &&& 63 = 0 from and_high (k := 0) 63 (by omega)) all_nil))
  · exact .inl rfl

theorem Sys2Proof.Laws.Encoding.ret (s : BitVec 3) :
    Encoding.Statement (.ret s) := by
  intro hwf
  have hs := s.isLt
  have ew : encode (.ret s) = 0x14000002 + s.toNat * 2 ^ 23 := rfl
  generalize encode (.ret s) = x at ew ⊢
  refine decode_of hwf ?_ ?_ ?_
  · rw [candidate, show x / 2 ^ 26 % 64 = 5 by omega]
    simp only []
    rw [minorControl, show x % 32 = 2 by omega]
    simp only []
    rw [fld_eq 23 x s (by omega)]
  · rw [show Instr.operands (.ret s) = [⟨17, 6, 63, .zero, 0⟩, ⟨11, 6, 63, .zero, 0⟩, ⟨5, 6, 63, .zero, 0⟩] from rfl]
    exact all_cons (show x / 2 ^ 17 % 2 ^ 6 &&& 63 = 0 from and_high (k := 0) 63 (by omega)) (all_cons (show x / 2 ^ 11 % 2 ^ 6 &&& 63 = 0 from and_high (k := 0) 63 (by omega)) (all_cons (show x / 2 ^ 5 % 2 ^ 6 &&& 63 = 0 from and_high (k := 0) 63 (by omega)) all_nil))
  · exact .inl rfl

theorem Sys2Proof.Laws.Encoding.join (s : BitVec 3) :
    Encoding.Statement (.join s) := by
  intro hwf
  have hs := s.isLt
  have ew : encode (.join s) = 0x14000003 + s.toNat * 2 ^ 23 := rfl
  generalize encode (.join s) = x at ew ⊢
  refine decode_of hwf ?_ ?_ ?_
  · rw [candidate, show x / 2 ^ 26 % 64 = 5 by omega]
    simp only []
    rw [minorControl, show x % 32 = 3 by omega]
    simp only []
    rw [fld_eq 23 x s (by omega)]
  · rw [show Instr.operands (.join s) = [⟨17, 6, 63, .zero, 0⟩, ⟨11, 6, 63, .zero, 0⟩, ⟨5, 6, 63, .zero, 0⟩] from rfl]
    exact all_cons (show x / 2 ^ 17 % 2 ^ 6 &&& 63 = 0 from and_high (k := 0) 63 (by omega)) (all_cons (show x / 2 ^ 11 % 2 ^ 6 &&& 63 = 0 from and_high (k := 0) 63 (by omega)) (all_cons (show x / 2 ^ 5 % 2 ^ 6 &&& 63 = 0 from and_high (k := 0) 63 (by omega)) all_nil))
  · exact .inl rfl

theorem Sys2Proof.Laws.Encoding.yield (s : BitVec 3) :
    Encoding.Statement (.yield s) := by
  intro hwf
  have hs := s.isLt
  have ew : encode (.yield s) = 0x14000004 + s.toNat * 2 ^ 23 := rfl
  generalize encode (.yield s) = x at ew ⊢
  refine decode_of hwf ?_ ?_ ?_
  · rw [candidate, show x / 2 ^ 26 % 64 = 5 by omega]
    simp only []
    rw [minorControl, show x % 32 = 4 by omega]
    simp only []
    rw [fld_eq 23 x s (by omega)]
  · rw [show Instr.operands (.yield s) = [⟨17, 6, 63, .zero, 0⟩, ⟨11, 6, 63, .zero, 0⟩, ⟨5, 6, 63, .zero, 0⟩] from rfl]
    exact all_cons (show x / 2 ^ 17 % 2 ^ 6 &&& 63 = 0 from and_high (k := 0) 63 (by omega)) (all_cons (show x / 2 ^ 11 % 2 ^ 6 &&& 63 = 0 from and_high (k := 0) 63 (by omega)) (all_cons (show x / 2 ^ 5 % 2 ^ 6 &&& 63 = 0 from and_high (k := 0) 63 (by omega)) all_nil))
  · exact .inl rfl

theorem Sys2Proof.Laws.Encoding.exit (s : BitVec 3) :
    Encoding.Statement (.exit s) := by
  intro hwf
  have hs := s.isLt
  have ew : encode (.exit s) = 0x14000005 + s.toNat * 2 ^ 23 := rfl
  generalize encode (.exit s) = x at ew ⊢
  refine decode_of hwf ?_ ?_ ?_
  · rw [candidate, show x / 2 ^ 26 % 64 = 5 by omega]
    simp only []
    rw [minorControl, show x % 32 = 5 by omega]
    simp only []
    rw [fld_eq 23 x s (by omega)]
  · rw [show Instr.operands (.exit s) = [⟨17, 6, 63, .zero, 0⟩, ⟨11, 6, 63, .zero, 0⟩, ⟨5, 6, 63, .zero, 0⟩] from rfl]
    exact all_cons (show x / 2 ^ 17 % 2 ^ 6 &&& 63 = 0 from and_high (k := 0) 63 (by omega)) (all_cons (show x / 2 ^ 11 % 2 ^ 6 &&& 63 = 0 from and_high (k := 0) 63 (by omega)) (all_cons (show x / 2 ^ 5 % 2 ^ 6 &&& 63 = 0 from and_high (k := 0) 63 (by omega)) all_nil))
  · exact .inl rfl

theorem Sys2Proof.Laws.Encoding.nop (s : BitVec 3) :
    Encoding.Statement (.nop s) := by
  intro hwf
  have hs := s.isLt
  have ew : encode (.nop s) = 0x14000006 + s.toNat * 2 ^ 23 := rfl
  generalize encode (.nop s) = x at ew ⊢
  refine decode_of hwf ?_ ?_ ?_
  · rw [candidate, show x / 2 ^ 26 % 64 = 5 by omega]
    simp only []
    rw [minorControl, show x % 32 = 6 by omega]
    simp only []
    rw [fld_eq 23 x s (by omega)]
  · rw [show Instr.operands (.nop s) = [⟨17, 6, 63, .zero, 0⟩, ⟨11, 6, 63, .zero, 0⟩, ⟨5, 6, 63, .zero, 0⟩] from rfl]
    exact all_cons (show x / 2 ^ 17 % 2 ^ 6 &&& 63 = 0 from and_high (k := 0) 63 (by omega)) (all_cons (show x / 2 ^ 11 % 2 ^ 6 &&& 63 = 0 from and_high (k := 0) 63 (by omega)) (all_cons (show x / 2 ^ 5 % 2 ^ 6 &&& 63 = 0 from and_high (k := 0) 63 (by omega)) all_nil))
  · exact .inl rfl

theorem Sys2Proof.Laws.Encoding.mode (s : BitVec 3) (m : BitVec 16) :
    Encoding.Statement (.mode s m) := by
  intro hwf
  have hs := s.isLt
  have hm := m.isLt
  have ew : encode (.mode s m) = 0x18000000 + s.toNat * 2 ^ 23 + m.toNat * 2 ^ 0 := rfl
  generalize encode (.mode s m) = x at ew ⊢
  refine decode_of hwf ?_ ?_ ?_
  · rw [candidate, show x / 2 ^ 26 % 64 = 6 by omega]
    simp only []
    rw [fld_eq 23 x s (by omega), fld_eq 0 x m (by omega)]
  · rw [show Instr.operands (.mode s m) = [⟨17, 6, 63, .zero, 0⟩, ⟨0, 17, 65536, .free, m.toNat⟩] from rfl]
    exact all_cons (show x / 2 ^ 17 % 2 ^ 6 &&& 63 = 0 from and_high (k := 0) 63 (by omega)) (all_cons (show x / 2 ^ 0 % 2 ^ 17 &&& 65536 = 0 from and_high (k := 16) 1 (by omega)) all_nil)
  · exact .inl rfl

theorem Sys2Proof.Laws.Encoding.modg (s : BitVec 3) (n : BitVec 1) (p : BitVec 3) :
    Encoding.Statement (.modg s n p) := by
  intro hwf
  have hs := s.isLt
  have hn := n.isLt
  have hp := p.isLt
  have ew : encode (.modg s n p) = 0x1c000000 + s.toNat * 2 ^ 23 + n.toNat * 2 ^ 3 + p.toNat * 2 ^ 0 := rfl
  generalize encode (.modg s n p) = x at ew ⊢
  refine decode_of hwf ?_ ?_ ?_
  · rw [candidate, show x / 2 ^ 26 % 64 = 7 by omega]
    simp only []
    rw [fld_eq 23 x s (by omega), fld_eq 3 x n (by omega), fld_eq 0 x p (by omega)]
  · rw [show Instr.operands (.modg s n p) = [⟨17, 6, 63, .zero, 0⟩, ⟨0, 17, 131056, .free, n.toNat * 2 ^ 3 + p.toNat⟩] from rfl]
    exact all_cons (show x / 2 ^ 17 % 2 ^ 6 &&& 63 = 0 from and_high (k := 0) 63 (by omega)) (all_cons (show x / 2 ^ 0 % 2 ^ 17 &&& 131056 = 0 from and_high (k := 4) 8191 (by omega)) all_nil)
  · exact .inl rfl

theorem Sys2Proof.Laws.Encoding.add (s : BitVec 3) (d : BitVec 6) (a : BitVec 6) (b : BitVec 6) :
    Encoding.Statement (.add s d a b) := by
  intro hwf
  have hs := s.isLt
  have hd := d.isLt
  have ha := a.isLt
  have hb := b.isLt
  have ew : encode (.add s d a b) = 0x20000000 + s.toNat * 2 ^ 23 + d.toNat * 2 ^ 17 + a.toNat * 2 ^ 11 + b.toNat * 2 ^ 5 := rfl
  generalize encode (.add s d a b) = x at ew ⊢
  refine decode_of hwf ?_ ?_ ?_
  · rw [candidate, show x / 2 ^ 26 % 64 = 8 by omega]
    simp only []
    rw [minorArith, show x % 32 = 0 by omega]
    simp only []
    rw [fld_eq 23 x s (by omega), fld_eq 17 x d (by omega), fld_eq 11 x a (by omega), fld_eq 5 x b (by omega)]
  · rw [show Instr.operands (.add s d a b) = [⟨17, 6, 0, .vdst, d.toNat⟩, ⟨11, 6, 0, .vsrc, a.toNat⟩, ⟨5, 6, 0, .vsrc, b.toNat⟩] from rfl]
    exact all_cons (Nat.and_zero _) (all_cons (Nat.and_zero _) (all_cons (Nat.and_zero _) all_nil))
  · exact .inl rfl

theorem Sys2Proof.Laws.Encoding.sub (s : BitVec 3) (d : BitVec 6) (a : BitVec 6) (b : BitVec 6) :
    Encoding.Statement (.sub s d a b) := by
  intro hwf
  have hs := s.isLt
  have hd := d.isLt
  have ha := a.isLt
  have hb := b.isLt
  have ew : encode (.sub s d a b) = 0x20000001 + s.toNat * 2 ^ 23 + d.toNat * 2 ^ 17 + a.toNat * 2 ^ 11 + b.toNat * 2 ^ 5 := rfl
  generalize encode (.sub s d a b) = x at ew ⊢
  refine decode_of hwf ?_ ?_ ?_
  · rw [candidate, show x / 2 ^ 26 % 64 = 8 by omega]
    simp only []
    rw [minorArith, show x % 32 = 1 by omega]
    simp only []
    rw [fld_eq 23 x s (by omega), fld_eq 17 x d (by omega), fld_eq 11 x a (by omega), fld_eq 5 x b (by omega)]
  · rw [show Instr.operands (.sub s d a b) = [⟨17, 6, 0, .vdst, d.toNat⟩, ⟨11, 6, 0, .vsrc, a.toNat⟩, ⟨5, 6, 0, .vsrc, b.toNat⟩] from rfl]
    exact all_cons (Nat.and_zero _) (all_cons (Nat.and_zero _) (all_cons (Nat.and_zero _) all_nil))
  · exact .inl rfl

theorem Sys2Proof.Laws.Encoding.mul (s : BitVec 3) (d : BitVec 6) (a : BitVec 6) (b : BitVec 6) :
    Encoding.Statement (.mul s d a b) := by
  intro hwf
  have hs := s.isLt
  have hd := d.isLt
  have ha := a.isLt
  have hb := b.isLt
  have ew : encode (.mul s d a b) = 0x20000002 + s.toNat * 2 ^ 23 + d.toNat * 2 ^ 17 + a.toNat * 2 ^ 11 + b.toNat * 2 ^ 5 := rfl
  generalize encode (.mul s d a b) = x at ew ⊢
  refine decode_of hwf ?_ ?_ ?_
  · rw [candidate, show x / 2 ^ 26 % 64 = 8 by omega]
    simp only []
    rw [minorArith, show x % 32 = 2 by omega]
    simp only []
    rw [fld_eq 23 x s (by omega), fld_eq 17 x d (by omega), fld_eq 11 x a (by omega), fld_eq 5 x b (by omega)]
  · rw [show Instr.operands (.mul s d a b) = [⟨17, 6, 0, .vdst, d.toNat⟩, ⟨11, 6, 0, .vsrc, a.toNat⟩, ⟨5, 6, 0, .vsrc, b.toNat⟩] from rfl]
    exact all_cons (Nat.and_zero _) (all_cons (Nat.and_zero _) (all_cons (Nat.and_zero _) all_nil))
  · exact .inl rfl

theorem Sys2Proof.Laws.Encoding.mulh (s : BitVec 3) (d : BitVec 6) (a : BitVec 6) (b : BitVec 6) :
    Encoding.Statement (.mulh s d a b) := by
  intro hwf
  have hs := s.isLt
  have hd := d.isLt
  have ha := a.isLt
  have hb := b.isLt
  have ew : encode (.mulh s d a b) = 0x20000003 + s.toNat * 2 ^ 23 + d.toNat * 2 ^ 17 + a.toNat * 2 ^ 11 + b.toNat * 2 ^ 5 := rfl
  generalize encode (.mulh s d a b) = x at ew ⊢
  refine decode_of hwf ?_ ?_ ?_
  · rw [candidate, show x / 2 ^ 26 % 64 = 8 by omega]
    simp only []
    rw [minorArith, show x % 32 = 3 by omega]
    simp only []
    rw [fld_eq 23 x s (by omega), fld_eq 17 x d (by omega), fld_eq 11 x a (by omega), fld_eq 5 x b (by omega)]
  · rw [show Instr.operands (.mulh s d a b) = [⟨17, 6, 0, .vdst, d.toNat⟩, ⟨11, 6, 0, .vsrc, a.toNat⟩, ⟨5, 6, 0, .vsrc, b.toNat⟩] from rfl]
    exact all_cons (Nat.and_zero _) (all_cons (Nat.and_zero _) (all_cons (Nat.and_zero _) all_nil))
  · exact .inl rfl

theorem Sys2Proof.Laws.Encoding.div (d : BitVec 6) (a : BitVec 6) (b : BitVec 6) :
    Encoding.Statement (.div d a b) := by
  intro hwf
  have hd := d.isLt
  have ha := a.isLt
  have hb := b.isLt
  have ew : encode (.div d a b) = 0x20000004 + d.toNat * 2 ^ 17 + a.toNat * 2 ^ 11 + b.toNat * 2 ^ 5 := rfl
  generalize encode (.div d a b) = x at ew ⊢
  refine decode_of hwf ?_ ?_ ?_
  · rw [candidate, show x / 2 ^ 26 % 64 = 8 by omega]
    simp only []
    rw [minorArith, show x % 32 = 4 by omega]
    simp only []
    rw [fld_eq 17 x d (by omega), fld_eq 11 x a (by omega), fld_eq 5 x b (by omega)]
  · rw [show Instr.operands (.div d a b) = [⟨17, 6, 0, .vdst, d.toNat⟩, ⟨11, 6, 0, .vsrc, a.toNat⟩, ⟨5, 6, 0, .vsrc, b.toNat⟩] from rfl]
    exact all_cons (Nat.and_zero _) (all_cons (Nat.and_zero _) (all_cons (Nat.and_zero _) all_nil))
  · exact .inr (by omega)

theorem Sys2Proof.Laws.Encoding.rem (d : BitVec 6) (a : BitVec 6) (b : BitVec 6) :
    Encoding.Statement (.rem d a b) := by
  intro hwf
  have hd := d.isLt
  have ha := a.isLt
  have hb := b.isLt
  have ew : encode (.rem d a b) = 0x20000005 + d.toNat * 2 ^ 17 + a.toNat * 2 ^ 11 + b.toNat * 2 ^ 5 := rfl
  generalize encode (.rem d a b) = x at ew ⊢
  refine decode_of hwf ?_ ?_ ?_
  · rw [candidate, show x / 2 ^ 26 % 64 = 8 by omega]
    simp only []
    rw [minorArith, show x % 32 = 5 by omega]
    simp only []
    rw [fld_eq 17 x d (by omega), fld_eq 11 x a (by omega), fld_eq 5 x b (by omega)]
  · rw [show Instr.operands (.rem d a b) = [⟨17, 6, 0, .vdst, d.toNat⟩, ⟨11, 6, 0, .vsrc, a.toNat⟩, ⟨5, 6, 0, .vsrc, b.toNat⟩] from rfl]
    exact all_cons (Nat.and_zero _) (all_cons (Nat.and_zero _) (all_cons (Nat.and_zero _) all_nil))
  · exact .inr (by omega)

theorem Sys2Proof.Laws.Encoding.min (s : BitVec 3) (d : BitVec 6) (a : BitVec 6) (b : BitVec 6) :
    Encoding.Statement (.min s d a b) := by
  intro hwf
  have hs := s.isLt
  have hd := d.isLt
  have ha := a.isLt
  have hb := b.isLt
  have ew : encode (.min s d a b) = 0x20000006 + s.toNat * 2 ^ 23 + d.toNat * 2 ^ 17 + a.toNat * 2 ^ 11 + b.toNat * 2 ^ 5 := rfl
  generalize encode (.min s d a b) = x at ew ⊢
  refine decode_of hwf ?_ ?_ ?_
  · rw [candidate, show x / 2 ^ 26 % 64 = 8 by omega]
    simp only []
    rw [minorArith, show x % 32 = 6 by omega]
    simp only []
    rw [fld_eq 23 x s (by omega), fld_eq 17 x d (by omega), fld_eq 11 x a (by omega), fld_eq 5 x b (by omega)]
  · rw [show Instr.operands (.min s d a b) = [⟨17, 6, 0, .vdst, d.toNat⟩, ⟨11, 6, 0, .vsrc, a.toNat⟩, ⟨5, 6, 0, .vsrc, b.toNat⟩] from rfl]
    exact all_cons (Nat.and_zero _) (all_cons (Nat.and_zero _) (all_cons (Nat.and_zero _) all_nil))
  · exact .inl rfl

theorem Sys2Proof.Laws.Encoding.max (s : BitVec 3) (d : BitVec 6) (a : BitVec 6) (b : BitVec 6) :
    Encoding.Statement (.max s d a b) := by
  intro hwf
  have hs := s.isLt
  have hd := d.isLt
  have ha := a.isLt
  have hb := b.isLt
  have ew : encode (.max s d a b) = 0x20000007 + s.toNat * 2 ^ 23 + d.toNat * 2 ^ 17 + a.toNat * 2 ^ 11 + b.toNat * 2 ^ 5 := rfl
  generalize encode (.max s d a b) = x at ew ⊢
  refine decode_of hwf ?_ ?_ ?_
  · rw [candidate, show x / 2 ^ 26 % 64 = 8 by omega]
    simp only []
    rw [minorArith, show x % 32 = 7 by omega]
    simp only []
    rw [fld_eq 23 x s (by omega), fld_eq 17 x d (by omega), fld_eq 11 x a (by omega), fld_eq 5 x b (by omega)]
  · rw [show Instr.operands (.max s d a b) = [⟨17, 6, 0, .vdst, d.toNat⟩, ⟨11, 6, 0, .vsrc, a.toNat⟩, ⟨5, 6, 0, .vsrc, b.toNat⟩] from rfl]
    exact all_cons (Nat.and_zero _) (all_cons (Nat.and_zero _) (all_cons (Nat.and_zero _) all_nil))
  · exact .inl rfl

theorem Sys2Proof.Laws.Encoding.abs (s : BitVec 3) (d : BitVec 6) (a : BitVec 6) :
    Encoding.Statement (.abs s d a) := by
  intro hwf
  have hs := s.isLt
  have hd := d.isLt
  have ha := a.isLt
  have ew : encode (.abs s d a) = 0x20000008 + s.toNat * 2 ^ 23 + d.toNat * 2 ^ 17 + a.toNat * 2 ^ 11 := rfl
  generalize encode (.abs s d a) = x at ew ⊢
  refine decode_of hwf ?_ ?_ ?_
  · rw [candidate, show x / 2 ^ 26 % 64 = 8 by omega]
    simp only []
    rw [minorArith, show x % 32 = 8 by omega]
    simp only []
    rw [fld_eq 23 x s (by omega), fld_eq 17 x d (by omega), fld_eq 11 x a (by omega)]
  · rw [show Instr.operands (.abs s d a) = [⟨17, 6, 0, .vdst, d.toNat⟩, ⟨11, 6, 0, .vsrc, a.toNat⟩, ⟨5, 6, 63, .zero, 0⟩] from rfl]
    exact all_cons (Nat.and_zero _) (all_cons (Nat.and_zero _) (all_cons (show x / 2 ^ 5 % 2 ^ 6 &&& 63 = 0 from and_high (k := 0) 63 (by omega)) all_nil))
  · exact .inl rfl

theorem Sys2Proof.Laws.Encoding.neg (s : BitVec 3) (d : BitVec 6) (a : BitVec 6) :
    Encoding.Statement (.neg s d a) := by
  intro hwf
  have hs := s.isLt
  have hd := d.isLt
  have ha := a.isLt
  have ew : encode (.neg s d a) = 0x20000009 + s.toNat * 2 ^ 23 + d.toNat * 2 ^ 17 + a.toNat * 2 ^ 11 := rfl
  generalize encode (.neg s d a) = x at ew ⊢
  refine decode_of hwf ?_ ?_ ?_
  · rw [candidate, show x / 2 ^ 26 % 64 = 8 by omega]
    simp only []
    rw [minorArith, show x % 32 = 9 by omega]
    simp only []
    rw [fld_eq 23 x s (by omega), fld_eq 17 x d (by omega), fld_eq 11 x a (by omega)]
  · rw [show Instr.operands (.neg s d a) = [⟨17, 6, 0, .vdst, d.toNat⟩, ⟨11, 6, 0, .vsrc, a.toNat⟩, ⟨5, 6, 63, .zero, 0⟩] from rfl]
    exact all_cons (Nat.and_zero _) (all_cons (Nat.and_zero _) (all_cons (show x / 2 ^ 5 % 2 ^ 6 &&& 63 = 0 from and_high (k := 0) 63 (by omega)) all_nil))
  · exact .inl rfl

theorem Sys2Proof.Laws.Encoding.lea (s : BitVec 3) (d : BitVec 6) (a : BitVec 6) (b : BitVec 6) (x : BitVec 2) :
    Encoding.Statement (.lea s d a b x) := by
  intro hwf
  have hs := s.isLt
  have hd := d.isLt
  have ha := a.isLt
  have hb := b.isLt
  have hx := x.isLt
  have ew : encode (.lea s d a b x) = 0x2000000c + s.toNat * 2 ^ 23 + d.toNat * 2 ^ 17 + a.toNat * 2 ^ 11 + b.toNat * 2 ^ 5 + x.toNat * 2 ^ 0 := rfl
  generalize encode (.lea s d a b x) = y at ew ⊢
  refine decode_of hwf ?_ ?_ ?_
  · have hq : x.toNat = 0 ∨ x.toNat = 1 ∨ x.toNat = 2 ∨ x.toNat = 3 := by omega
    rcases hq with hq | hq | hq | hq
    · rw [candidate, show y / 2 ^ 26 % 64 = 8 by omega]
      simp only []
      rw [minorArith, show y % 32 = 12 by omega]
      simp only []
      rw [fld_eq 23 y s (by omega), fld_eq 17 y d (by omega), fld_eq 11 y a (by omega), fld_eq 5 y b (by omega), fld_eq 0 y x (by omega)]
    · rw [candidate, show y / 2 ^ 26 % 64 = 8 by omega]
      simp only []
      rw [minorArith, show y % 32 = 13 by omega]
      simp only []
      rw [fld_eq 23 y s (by omega), fld_eq 17 y d (by omega), fld_eq 11 y a (by omega), fld_eq 5 y b (by omega), fld_eq 0 y x (by omega)]
    · rw [candidate, show y / 2 ^ 26 % 64 = 8 by omega]
      simp only []
      rw [minorArith, show y % 32 = 14 by omega]
      simp only []
      rw [fld_eq 23 y s (by omega), fld_eq 17 y d (by omega), fld_eq 11 y a (by omega), fld_eq 5 y b (by omega), fld_eq 0 y x (by omega)]
    · rw [candidate, show y / 2 ^ 26 % 64 = 8 by omega]
      simp only []
      rw [minorArith, show y % 32 = 15 by omega]
      simp only []
      rw [fld_eq 23 y s (by omega), fld_eq 17 y d (by omega), fld_eq 11 y a (by omega), fld_eq 5 y b (by omega), fld_eq 0 y x (by omega)]
  · rw [show Instr.operands (.lea s d a b x) = [⟨17, 6, 0, .pair, d.toNat⟩, ⟨11, 6, 0, .pair, a.toNat⟩, ⟨5, 6, 0, .vsrc, b.toNat⟩] from rfl]
    exact all_cons (Nat.and_zero _) (all_cons (Nat.and_zero _) (all_cons (Nat.and_zero _) all_nil))
  · exact .inl rfl

theorem Sys2Proof.Laws.Encoding.and (s : BitVec 3) (d : BitVec 6) (a : BitVec 6) (b : BitVec 6) :
    Encoding.Statement (.and s d a b) := by
  intro hwf
  have hs := s.isLt
  have hd := d.isLt
  have ha := a.isLt
  have hb := b.isLt
  have ew : encode (.and s d a b) = 0x24000000 + s.toNat * 2 ^ 23 + d.toNat * 2 ^ 17 + a.toNat * 2 ^ 11 + b.toNat * 2 ^ 5 := rfl
  generalize encode (.and s d a b) = x at ew ⊢
  refine decode_of hwf ?_ ?_ ?_
  · rw [candidate, show x / 2 ^ 26 % 64 = 9 by omega]
    simp only []
    rw [minorBits, show x % 32 = 0 by omega]
    simp only []
    rw [fld_eq 23 x s (by omega), fld_eq 17 x d (by omega), fld_eq 11 x a (by omega), fld_eq 5 x b (by omega)]
  · rw [show Instr.operands (.and s d a b) = [⟨17, 6, 0, .vdst, d.toNat⟩, ⟨11, 6, 0, .vsrc, a.toNat⟩, ⟨5, 6, 0, .vsrc, b.toNat⟩] from rfl]
    exact all_cons (Nat.and_zero _) (all_cons (Nat.and_zero _) (all_cons (Nat.and_zero _) all_nil))
  · exact .inl rfl

theorem Sys2Proof.Laws.Encoding.or (s : BitVec 3) (d : BitVec 6) (a : BitVec 6) (b : BitVec 6) :
    Encoding.Statement (.or s d a b) := by
  intro hwf
  have hs := s.isLt
  have hd := d.isLt
  have ha := a.isLt
  have hb := b.isLt
  have ew : encode (.or s d a b) = 0x24000001 + s.toNat * 2 ^ 23 + d.toNat * 2 ^ 17 + a.toNat * 2 ^ 11 + b.toNat * 2 ^ 5 := rfl
  generalize encode (.or s d a b) = x at ew ⊢
  refine decode_of hwf ?_ ?_ ?_
  · rw [candidate, show x / 2 ^ 26 % 64 = 9 by omega]
    simp only []
    rw [minorBits, show x % 32 = 1 by omega]
    simp only []
    rw [fld_eq 23 x s (by omega), fld_eq 17 x d (by omega), fld_eq 11 x a (by omega), fld_eq 5 x b (by omega)]
  · rw [show Instr.operands (.or s d a b) = [⟨17, 6, 0, .vdst, d.toNat⟩, ⟨11, 6, 0, .vsrc, a.toNat⟩, ⟨5, 6, 0, .vsrc, b.toNat⟩] from rfl]
    exact all_cons (Nat.and_zero _) (all_cons (Nat.and_zero _) (all_cons (Nat.and_zero _) all_nil))
  · exact .inl rfl

theorem Sys2Proof.Laws.Encoding.xor (s : BitVec 3) (d : BitVec 6) (a : BitVec 6) (b : BitVec 6) :
    Encoding.Statement (.xor s d a b) := by
  intro hwf
  have hs := s.isLt
  have hd := d.isLt
  have ha := a.isLt
  have hb := b.isLt
  have ew : encode (.xor s d a b) = 0x24000002 + s.toNat * 2 ^ 23 + d.toNat * 2 ^ 17 + a.toNat * 2 ^ 11 + b.toNat * 2 ^ 5 := rfl
  generalize encode (.xor s d a b) = x at ew ⊢
  refine decode_of hwf ?_ ?_ ?_
  · rw [candidate, show x / 2 ^ 26 % 64 = 9 by omega]
    simp only []
    rw [minorBits, show x % 32 = 2 by omega]
    simp only []
    rw [fld_eq 23 x s (by omega), fld_eq 17 x d (by omega), fld_eq 11 x a (by omega), fld_eq 5 x b (by omega)]
  · rw [show Instr.operands (.xor s d a b) = [⟨17, 6, 0, .vdst, d.toNat⟩, ⟨11, 6, 0, .vsrc, a.toNat⟩, ⟨5, 6, 0, .vsrc, b.toNat⟩] from rfl]
    exact all_cons (Nat.and_zero _) (all_cons (Nat.and_zero _) (all_cons (Nat.and_zero _) all_nil))
  · exact .inl rfl

theorem Sys2Proof.Laws.Encoding.andn (s : BitVec 3) (d : BitVec 6) (a : BitVec 6) (b : BitVec 6) :
    Encoding.Statement (.andn s d a b) := by
  intro hwf
  have hs := s.isLt
  have hd := d.isLt
  have ha := a.isLt
  have hb := b.isLt
  have ew : encode (.andn s d a b) = 0x24000003 + s.toNat * 2 ^ 23 + d.toNat * 2 ^ 17 + a.toNat * 2 ^ 11 + b.toNat * 2 ^ 5 := rfl
  generalize encode (.andn s d a b) = x at ew ⊢
  refine decode_of hwf ?_ ?_ ?_
  · rw [candidate, show x / 2 ^ 26 % 64 = 9 by omega]
    simp only []
    rw [minorBits, show x % 32 = 3 by omega]
    simp only []
    rw [fld_eq 23 x s (by omega), fld_eq 17 x d (by omega), fld_eq 11 x a (by omega), fld_eq 5 x b (by omega)]
  · rw [show Instr.operands (.andn s d a b) = [⟨17, 6, 0, .vdst, d.toNat⟩, ⟨11, 6, 0, .vsrc, a.toNat⟩, ⟨5, 6, 0, .vsrc, b.toNat⟩] from rfl]
    exact all_cons (Nat.and_zero _) (all_cons (Nat.and_zero _) (all_cons (Nat.and_zero _) all_nil))
  · exact .inl rfl

theorem Sys2Proof.Laws.Encoding.not (s : BitVec 3) (d : BitVec 6) (a : BitVec 6) :
    Encoding.Statement (.not s d a) := by
  intro hwf
  have hs := s.isLt
  have hd := d.isLt
  have ha := a.isLt
  have ew : encode (.not s d a) = 0x24000004 + s.toNat * 2 ^ 23 + d.toNat * 2 ^ 17 + a.toNat * 2 ^ 11 := rfl
  generalize encode (.not s d a) = x at ew ⊢
  refine decode_of hwf ?_ ?_ ?_
  · rw [candidate, show x / 2 ^ 26 % 64 = 9 by omega]
    simp only []
    rw [minorBits, show x % 32 = 4 by omega]
    simp only []
    rw [fld_eq 23 x s (by omega), fld_eq 17 x d (by omega), fld_eq 11 x a (by omega)]
  · rw [show Instr.operands (.not s d a) = [⟨17, 6, 0, .vdst, d.toNat⟩, ⟨11, 6, 0, .vsrc, a.toNat⟩, ⟨5, 6, 63, .zero, 0⟩] from rfl]
    exact all_cons (Nat.and_zero _) (all_cons (Nat.and_zero _) (all_cons (show x / 2 ^ 5 % 2 ^ 6 &&& 63 = 0 from and_high (k := 0) 63 (by omega)) all_nil))
  · exact .inl rfl

theorem Sys2Proof.Laws.Encoding.shl (s : BitVec 3) (d : BitVec 6) (a : BitVec 6) (b : BitVec 6) :
    Encoding.Statement (.shl s d a b) := by
  intro hwf
  have hs := s.isLt
  have hd := d.isLt
  have ha := a.isLt
  have hb := b.isLt
  have ew : encode (.shl s d a b) = 0x24000005 + s.toNat * 2 ^ 23 + d.toNat * 2 ^ 17 + a.toNat * 2 ^ 11 + b.toNat * 2 ^ 5 := rfl
  generalize encode (.shl s d a b) = x at ew ⊢
  refine decode_of hwf ?_ ?_ ?_
  · rw [candidate, show x / 2 ^ 26 % 64 = 9 by omega]
    simp only []
    rw [minorBits, show x % 32 = 5 by omega]
    simp only []
    rw [fld_eq 23 x s (by omega), fld_eq 17 x d (by omega), fld_eq 11 x a (by omega), fld_eq 5 x b (by omega)]
  · rw [show Instr.operands (.shl s d a b) = [⟨17, 6, 0, .vdst, d.toNat⟩, ⟨11, 6, 0, .vsrc, a.toNat⟩, ⟨5, 6, 0, .vsrc, b.toNat⟩] from rfl]
    exact all_cons (Nat.and_zero _) (all_cons (Nat.and_zero _) (all_cons (Nat.and_zero _) all_nil))
  · exact .inl rfl

theorem Sys2Proof.Laws.Encoding.shr (s : BitVec 3) (d : BitVec 6) (a : BitVec 6) (b : BitVec 6) :
    Encoding.Statement (.shr s d a b) := by
  intro hwf
  have hs := s.isLt
  have hd := d.isLt
  have ha := a.isLt
  have hb := b.isLt
  have ew : encode (.shr s d a b) = 0x24000006 + s.toNat * 2 ^ 23 + d.toNat * 2 ^ 17 + a.toNat * 2 ^ 11 + b.toNat * 2 ^ 5 := rfl
  generalize encode (.shr s d a b) = x at ew ⊢
  refine decode_of hwf ?_ ?_ ?_
  · rw [candidate, show x / 2 ^ 26 % 64 = 9 by omega]
    simp only []
    rw [minorBits, show x % 32 = 6 by omega]
    simp only []
    rw [fld_eq 23 x s (by omega), fld_eq 17 x d (by omega), fld_eq 11 x a (by omega), fld_eq 5 x b (by omega)]
  · rw [show Instr.operands (.shr s d a b) = [⟨17, 6, 0, .vdst, d.toNat⟩, ⟨11, 6, 0, .vsrc, a.toNat⟩, ⟨5, 6, 0, .vsrc, b.toNat⟩] from rfl]
    exact all_cons (Nat.and_zero _) (all_cons (Nat.and_zero _) (all_cons (Nat.and_zero _) all_nil))
  · exact .inl rfl

theorem Sys2Proof.Laws.Encoding.sra (s : BitVec 3) (d : BitVec 6) (a : BitVec 6) (b : BitVec 6) :
    Encoding.Statement (.sra s d a b) := by
  intro hwf
  have hs := s.isLt
  have hd := d.isLt
  have ha := a.isLt
  have hb := b.isLt
  have ew : encode (.sra s d a b) = 0x24000007 + s.toNat * 2 ^ 23 + d.toNat * 2 ^ 17 + a.toNat * 2 ^ 11 + b.toNat * 2 ^ 5 := rfl
  generalize encode (.sra s d a b) = x at ew ⊢
  refine decode_of hwf ?_ ?_ ?_
  · rw [candidate, show x / 2 ^ 26 % 64 = 9 by omega]
    simp only []
    rw [minorBits, show x % 32 = 7 by omega]
    simp only []
    rw [fld_eq 23 x s (by omega), fld_eq 17 x d (by omega), fld_eq 11 x a (by omega), fld_eq 5 x b (by omega)]
  · rw [show Instr.operands (.sra s d a b) = [⟨17, 6, 0, .vdst, d.toNat⟩, ⟨11, 6, 0, .vsrc, a.toNat⟩, ⟨5, 6, 0, .vsrc, b.toNat⟩] from rfl]
    exact all_cons (Nat.and_zero _) (all_cons (Nat.and_zero _) (all_cons (Nat.and_zero _) all_nil))
  · exact .inl rfl

theorem Sys2Proof.Laws.Encoding.rotl (s : BitVec 3) (d : BitVec 6) (a : BitVec 6) (b : BitVec 6) :
    Encoding.Statement (.rotl s d a b) := by
  intro hwf
  have hs := s.isLt
  have hd := d.isLt
  have ha := a.isLt
  have hb := b.isLt
  have ew : encode (.rotl s d a b) = 0x24000008 + s.toNat * 2 ^ 23 + d.toNat * 2 ^ 17 + a.toNat * 2 ^ 11 + b.toNat * 2 ^ 5 := rfl
  generalize encode (.rotl s d a b) = x at ew ⊢
  refine decode_of hwf ?_ ?_ ?_
  · rw [candidate, show x / 2 ^ 26 % 64 = 9 by omega]
    simp only []
    rw [minorBits, show x % 32 = 8 by omega]
    simp only []
    rw [fld_eq 23 x s (by omega), fld_eq 17 x d (by omega), fld_eq 11 x a (by omega), fld_eq 5 x b (by omega)]
  · rw [show Instr.operands (.rotl s d a b) = [⟨17, 6, 0, .vdst, d.toNat⟩, ⟨11, 6, 0, .vsrc, a.toNat⟩, ⟨5, 6, 0, .vsrc, b.toNat⟩] from rfl]
    exact all_cons (Nat.and_zero _) (all_cons (Nat.and_zero _) (all_cons (Nat.and_zero _) all_nil))
  · exact .inl rfl

theorem Sys2Proof.Laws.Encoding.clz (s : BitVec 3) (d : BitVec 6) (a : BitVec 6) :
    Encoding.Statement (.clz s d a) := by
  intro hwf
  have hs := s.isLt
  have hd := d.isLt
  have ha := a.isLt
  have ew : encode (.clz s d a) = 0x24000009 + s.toNat * 2 ^ 23 + d.toNat * 2 ^ 17 + a.toNat * 2 ^ 11 := rfl
  generalize encode (.clz s d a) = x at ew ⊢
  refine decode_of hwf ?_ ?_ ?_
  · rw [candidate, show x / 2 ^ 26 % 64 = 9 by omega]
    simp only []
    rw [minorBits, show x % 32 = 9 by omega]
    simp only []
    rw [fld_eq 23 x s (by omega), fld_eq 17 x d (by omega), fld_eq 11 x a (by omega)]
  · rw [show Instr.operands (.clz s d a) = [⟨17, 6, 0, .vdst, d.toNat⟩, ⟨11, 6, 0, .vsrc, a.toNat⟩, ⟨5, 6, 63, .zero, 0⟩] from rfl]
    exact all_cons (Nat.and_zero _) (all_cons (Nat.and_zero _) (all_cons (show x / 2 ^ 5 % 2 ^ 6 &&& 63 = 0 from and_high (k := 0) 63 (by omega)) all_nil))
  · exact .inl rfl

theorem Sys2Proof.Laws.Encoding.ctz (s : BitVec 3) (d : BitVec 6) (a : BitVec 6) :
    Encoding.Statement (.ctz s d a) := by
  intro hwf
  have hs := s.isLt
  have hd := d.isLt
  have ha := a.isLt
  have ew : encode (.ctz s d a) = 0x2400000a + s.toNat * 2 ^ 23 + d.toNat * 2 ^ 17 + a.toNat * 2 ^ 11 := rfl
  generalize encode (.ctz s d a) = x at ew ⊢
  refine decode_of hwf ?_ ?_ ?_
  · rw [candidate, show x / 2 ^ 26 % 64 = 9 by omega]
    simp only []
    rw [minorBits, show x % 32 = 10 by omega]
    simp only []
    rw [fld_eq 23 x s (by omega), fld_eq 17 x d (by omega), fld_eq 11 x a (by omega)]
  · rw [show Instr.operands (.ctz s d a) = [⟨17, 6, 0, .vdst, d.toNat⟩, ⟨11, 6, 0, .vsrc, a.toNat⟩, ⟨5, 6, 63, .zero, 0⟩] from rfl]
    exact all_cons (Nat.and_zero _) (all_cons (Nat.and_zero _) (all_cons (show x / 2 ^ 5 % 2 ^ 6 &&& 63 = 0 from and_high (k := 0) 63 (by omega)) all_nil))
  · exact .inl rfl

theorem Sys2Proof.Laws.Encoding.popc (s : BitVec 3) (d : BitVec 6) (a : BitVec 6) :
    Encoding.Statement (.popc s d a) := by
  intro hwf
  have hs := s.isLt
  have hd := d.isLt
  have ha := a.isLt
  have ew : encode (.popc s d a) = 0x2400000b + s.toNat * 2 ^ 23 + d.toNat * 2 ^ 17 + a.toNat * 2 ^ 11 := rfl
  generalize encode (.popc s d a) = x at ew ⊢
  refine decode_of hwf ?_ ?_ ?_
  · rw [candidate, show x / 2 ^ 26 % 64 = 9 by omega]
    simp only []
    rw [minorBits, show x % 32 = 11 by omega]
    simp only []
    rw [fld_eq 23 x s (by omega), fld_eq 17 x d (by omega), fld_eq 11 x a (by omega)]
  · rw [show Instr.operands (.popc s d a) = [⟨17, 6, 0, .vdst, d.toNat⟩, ⟨11, 6, 0, .vsrc, a.toNat⟩, ⟨5, 6, 63, .zero, 0⟩] from rfl]
    exact all_cons (Nat.and_zero _) (all_cons (Nat.and_zero _) (all_cons (show x / 2 ^ 5 % 2 ^ 6 &&& 63 = 0 from and_high (k := 0) 63 (by omega)) all_nil))
  · exact .inl rfl

theorem Sys2Proof.Laws.Encoding.brev (s : BitVec 3) (d : BitVec 6) (a : BitVec 6) :
    Encoding.Statement (.brev s d a) := by
  intro hwf
  have hs := s.isLt
  have hd := d.isLt
  have ha := a.isLt
  have ew : encode (.brev s d a) = 0x2400000c + s.toNat * 2 ^ 23 + d.toNat * 2 ^ 17 + a.toNat * 2 ^ 11 := rfl
  generalize encode (.brev s d a) = x at ew ⊢
  refine decode_of hwf ?_ ?_ ?_
  · rw [candidate, show x / 2 ^ 26 % 64 = 9 by omega]
    simp only []
    rw [minorBits, show x % 32 = 12 by omega]
    simp only []
    rw [fld_eq 23 x s (by omega), fld_eq 17 x d (by omega), fld_eq 11 x a (by omega)]
  · rw [show Instr.operands (.brev s d a) = [⟨17, 6, 0, .vdst, d.toNat⟩, ⟨11, 6, 0, .vsrc, a.toNat⟩, ⟨5, 6, 63, .zero, 0⟩] from rfl]
    exact all_cons (Nat.and_zero _) (all_cons (Nat.and_zero _) (all_cons (show x / 2 ^ 5 % 2 ^ 6 &&& 63 = 0 from and_high (k := 0) 63 (by omega)) all_nil))
  · exact .inl rfl

theorem Sys2Proof.Laws.Encoding.bext (s : BitVec 3) (d : BitVec 6) (a : BitVec 6) (b : BitVec 6) :
    Encoding.Statement (.bext s d a b) := by
  intro hwf
  have hs := s.isLt
  have hd := d.isLt
  have ha := a.isLt
  have hb := b.isLt
  have ew : encode (.bext s d a b) = 0x2400000d + s.toNat * 2 ^ 23 + d.toNat * 2 ^ 17 + a.toNat * 2 ^ 11 + b.toNat * 2 ^ 5 := rfl
  generalize encode (.bext s d a b) = x at ew ⊢
  refine decode_of hwf ?_ ?_ ?_
  · rw [candidate, show x / 2 ^ 26 % 64 = 9 by omega]
    simp only []
    rw [minorBits, show x % 32 = 13 by omega]
    simp only []
    rw [fld_eq 23 x s (by omega), fld_eq 17 x d (by omega), fld_eq 11 x a (by omega), fld_eq 5 x b (by omega)]
  · rw [show Instr.operands (.bext s d a b) = [⟨17, 6, 0, .vdst, d.toNat⟩, ⟨11, 6, 0, .vsrc, a.toNat⟩, ⟨5, 6, 0, .vsrc, b.toNat⟩] from rfl]
    exact all_cons (Nat.and_zero _) (all_cons (Nat.and_zero _) (all_cons (Nat.and_zero _) all_nil))
  · exact .inl rfl

theorem Sys2Proof.Laws.Encoding.bins (s : BitVec 3) (d : BitVec 6) (a : BitVec 6) (b : BitVec 6) :
    Encoding.Statement (.bins s d a b) := by
  intro hwf
  have hs := s.isLt
  have hd := d.isLt
  have ha := a.isLt
  have hb := b.isLt
  have ew : encode (.bins s d a b) = 0x2400000e + s.toNat * 2 ^ 23 + d.toNat * 2 ^ 17 + a.toNat * 2 ^ 11 + b.toNat * 2 ^ 5 := rfl
  generalize encode (.bins s d a b) = x at ew ⊢
  refine decode_of hwf ?_ ?_ ?_
  · rw [candidate, show x / 2 ^ 26 % 64 = 9 by omega]
    simp only []
    rw [minorBits, show x % 32 = 14 by omega]
    simp only []
    rw [fld_eq 23 x s (by omega), fld_eq 17 x d (by omega), fld_eq 11 x a (by omega), fld_eq 5 x b (by omega)]
  · rw [show Instr.operands (.bins s d a b) = [⟨17, 6, 0, .vdst, d.toNat⟩, ⟨11, 6, 0, .vsrc, a.toNat⟩, ⟨5, 6, 0, .vsrc, b.toNat⟩] from rfl]
    exact all_cons (Nat.and_zero _) (all_cons (Nat.and_zero _) (all_cons (Nat.and_zero _) all_nil))
  · exact .inl rfl

theorem Sys2Proof.Laws.Encoding.mov (s : BitVec 3) (d : BitVec 6) (a : BitVec 6) :
    Encoding.Statement (.mov s d a) := by
  intro hwf
  have hs := s.isLt
  have hd := d.isLt
  have ha := a.isLt
  have ew : encode (.mov s d a) = 0x2400000f + s.toNat * 2 ^ 23 + d.toNat * 2 ^ 17 + a.toNat * 2 ^ 11 := rfl
  generalize encode (.mov s d a) = x at ew ⊢
  refine decode_of hwf ?_ ?_ ?_
  · rw [candidate, show x / 2 ^ 26 % 64 = 9 by omega]
    simp only []
    rw [minorBits, show x % 32 = 15 by omega]
    simp only []
    rw [fld_eq 23 x s (by omega), fld_eq 17 x d (by omega), fld_eq 11 x a (by omega)]
  · rw [show Instr.operands (.mov s d a) = [⟨17, 6, 0, .vdst, d.toNat⟩, ⟨11, 6, 0, .vsrc, a.toNat⟩, ⟨5, 6, 63, .zero, 0⟩] from rfl]
    exact all_cons (Nat.and_zero _) (all_cons (Nat.and_zero _) (all_cons (show x / 2 ^ 5 % 2 ^ 6 &&& 63 = 0 from and_high (k := 0) 63 (by omega)) all_nil))
  · exact .inl rfl

theorem Sys2Proof.Laws.Encoding.ext (s : BitVec 3) (d : BitVec 6) (a : BitVec 6) (w : BitVec 6) :
    Encoding.Statement (.ext s d a w) := by
  intro hwf
  have hs := s.isLt
  have hd := d.isLt
  have ha := a.isLt
  have hw := w.isLt
  have ew : encode (.ext s d a w) = 0x24000010 + s.toNat * 2 ^ 23 + d.toNat * 2 ^ 17 + a.toNat * 2 ^ 11 + w.toNat * 2 ^ 5 := rfl
  generalize encode (.ext s d a w) = x at ew ⊢
  refine decode_of hwf ?_ ?_ ?_
  · rw [candidate, show x / 2 ^ 26 % 64 = 9 by omega]
    simp only []
    rw [minorBits, show x % 32 = 16 by omega]
    simp only []
    rw [fld_eq 23 x s (by omega), fld_eq 17 x d (by omega), fld_eq 11 x a (by omega), fld_eq 5 x w (by omega)]
  · rw [show Instr.operands (.ext s d a w) = [⟨17, 6, 0, .vdst, d.toNat⟩, ⟨11, 6, 0, .vsrc, a.toNat⟩, ⟨5, 6, 0, .imm 1 32, w.toNat⟩] from rfl]
    exact all_cons (Nat.and_zero _) (all_cons (Nat.and_zero _) (all_cons (Nat.and_zero _) all_nil))
  · exact .inl rfl

theorem Sys2Proof.Laws.Encoding.cvti (s : BitVec 3) (d : BitVec 6) (a : BitVec 6) (e : BitVec 6) :
    Encoding.Statement (.cvti s d a e) := by
  intro hwf
  have hs := s.isLt
  have hd := d.isLt
  have ha := a.isLt
  have he := e.isLt
  have ew : encode (.cvti s d a e) = 0x24000011 + s.toNat * 2 ^ 23 + d.toNat * 2 ^ 17 + a.toNat * 2 ^ 11 + e.toNat * 2 ^ 5 := rfl
  generalize encode (.cvti s d a e) = x at ew ⊢
  refine decode_of hwf ?_ ?_ ?_
  · rw [candidate, show x / 2 ^ 26 % 64 = 9 by omega]
    simp only []
    rw [minorBits, show x % 32 = 17 by omega]
    simp only []
    rw [fld_eq 23 x s (by omega), fld_eq 17 x d (by omega), fld_eq 11 x a (by omega), fld_eq 5 x e (by omega)]
  · rw [show Instr.operands (.cvti s d a e) = [⟨17, 6, 0, .vdst, d.toNat⟩, ⟨11, 6, 0, .vsrc, a.toNat⟩, ⟨5, 6, 0, .imm 0 7, e.toNat⟩] from rfl]
    exact all_cons (Nat.and_zero _) (all_cons (Nat.and_zero _) (all_cons (Nat.and_zero _) all_nil))
  · exact .inl rfl

theorem Sys2Proof.Laws.Encoding.mad (s : BitVec 3) (d : BitVec 6) (a : BitVec 6) (b : BitVec 6) (c : BitVec 5) :
    Encoding.Statement (.mad s d a b c) := by
  intro hwf
  have hs := s.isLt
  have hd := d.isLt
  have ha := a.isLt
  have hb := b.isLt
  have hc := c.isLt
  have ew : encode (.mad s d a b c) = 0x28000000 + s.toNat * 2 ^ 23 + d.toNat * 2 ^ 17 + a.toNat * 2 ^ 11 + b.toNat * 2 ^ 5 + c.toNat * 2 ^ 0 := rfl
  generalize encode (.mad s d a b c) = x at ew ⊢
  refine decode_of hwf ?_ ?_ ?_
  · rw [candidate, show x / 2 ^ 26 % 64 = 10 by omega]
    simp only []
    rw [fld_eq 23 x s (by omega), fld_eq 17 x d (by omega), fld_eq 11 x a (by omega), fld_eq 5 x b (by omega), fld_eq 0 x c (by omega)]
  · rw [show Instr.operands (.mad s d a b c) = [⟨17, 6, 0, .vdst, d.toNat⟩, ⟨11, 6, 0, .vsrc, a.toNat⟩, ⟨5, 6, 0, .vsrc, b.toNat⟩, ⟨0, 5, 0, .free, c.toNat⟩] from rfl]
    exact all_cons (Nat.and_zero _) (all_cons (Nat.and_zero _) (all_cons (Nat.and_zero _) (all_cons (Nat.and_zero _) all_nil)))
  · exact .inl rfl

theorem Sys2Proof.Laws.Encoding.madh (s : BitVec 3) (d : BitVec 6) (a : BitVec 6) (b : BitVec 6) (c : BitVec 5) :
    Encoding.Statement (.madh s d a b c) := by
  intro hwf
  have hs := s.isLt
  have hd := d.isLt
  have ha := a.isLt
  have hb := b.isLt
  have hc := c.isLt
  have ew : encode (.madh s d a b c) = 0x2c000000 + s.toNat * 2 ^ 23 + d.toNat * 2 ^ 17 + a.toNat * 2 ^ 11 + b.toNat * 2 ^ 5 + c.toNat * 2 ^ 0 := rfl
  generalize encode (.madh s d a b c) = x at ew ⊢
  refine decode_of hwf ?_ ?_ ?_
  · rw [candidate, show x / 2 ^ 26 % 64 = 11 by omega]
    simp only []
    rw [fld_eq 23 x s (by omega), fld_eq 17 x d (by omega), fld_eq 11 x a (by omega), fld_eq 5 x b (by omega), fld_eq 0 x c (by omega)]
  · rw [show Instr.operands (.madh s d a b c) = [⟨17, 6, 0, .vdst, d.toNat⟩, ⟨11, 6, 0, .vsrc, a.toNat⟩, ⟨5, 6, 0, .vsrc, b.toNat⟩, ⟨0, 5, 0, .free, c.toNat⟩] from rfl]
    exact all_cons (Nat.and_zero _) (all_cons (Nat.and_zero _) (all_cons (Nat.and_zero _) (all_cons (Nat.and_zero _) all_nil)))
  · exact .inl rfl

theorem Sys2Proof.Laws.Encoding.cmpEq (s : BitVec 3) (d : BitVec 6) (a : BitVec 6) (b : BitVec 6) :
    Encoding.Statement (.cmpEq s d a b) := by
  intro hwf
  have hs := s.isLt
  have hd := d.isLt
  have ha := a.isLt
  have hb := b.isLt
  have ew : encode (.cmpEq s d a b) = 0x30000000 + s.toNat * 2 ^ 23 + d.toNat * 2 ^ 17 + a.toNat * 2 ^ 11 + b.toNat * 2 ^ 5 := rfl
  generalize encode (.cmpEq s d a b) = x at ew ⊢
  refine decode_of hwf ?_ ?_ ?_
  · rw [candidate, show x / 2 ^ 26 % 64 = 12 by omega]
    simp only []
    rw [minorCompare, show x % 32 = 0 by omega]
    simp only []
    rw [fld_eq 23 x s (by omega), fld_eq 17 x d (by omega), fld_eq 11 x a (by omega), fld_eq 5 x b (by omega)]
  · rw [show Instr.operands (.cmpEq s d a b) = [⟨17, 6, 0, .pred, d.toNat⟩, ⟨11, 6, 0, .vsrc, a.toNat⟩, ⟨5, 6, 0, .vsrc, b.toNat⟩] from rfl]
    exact all_cons (Nat.and_zero _) (all_cons (Nat.and_zero _) (all_cons (Nat.and_zero _) all_nil))
  · exact .inl rfl

theorem Sys2Proof.Laws.Encoding.cmpNe (s : BitVec 3) (d : BitVec 6) (a : BitVec 6) (b : BitVec 6) :
    Encoding.Statement (.cmpNe s d a b) := by
  intro hwf
  have hs := s.isLt
  have hd := d.isLt
  have ha := a.isLt
  have hb := b.isLt
  have ew : encode (.cmpNe s d a b) = 0x30000001 + s.toNat * 2 ^ 23 + d.toNat * 2 ^ 17 + a.toNat * 2 ^ 11 + b.toNat * 2 ^ 5 := rfl
  generalize encode (.cmpNe s d a b) = x at ew ⊢
  refine decode_of hwf ?_ ?_ ?_
  · rw [candidate, show x / 2 ^ 26 % 64 = 12 by omega]
    simp only []
    rw [minorCompare, show x % 32 = 1 by omega]
    simp only []
    rw [fld_eq 23 x s (by omega), fld_eq 17 x d (by omega), fld_eq 11 x a (by omega), fld_eq 5 x b (by omega)]
  · rw [show Instr.operands (.cmpNe s d a b) = [⟨17, 6, 0, .pred, d.toNat⟩, ⟨11, 6, 0, .vsrc, a.toNat⟩, ⟨5, 6, 0, .vsrc, b.toNat⟩] from rfl]
    exact all_cons (Nat.and_zero _) (all_cons (Nat.and_zero _) (all_cons (Nat.and_zero _) all_nil))
  · exact .inl rfl

theorem Sys2Proof.Laws.Encoding.cmpLt (s : BitVec 3) (d : BitVec 6) (a : BitVec 6) (b : BitVec 6) :
    Encoding.Statement (.cmpLt s d a b) := by
  intro hwf
  have hs := s.isLt
  have hd := d.isLt
  have ha := a.isLt
  have hb := b.isLt
  have ew : encode (.cmpLt s d a b) = 0x30000002 + s.toNat * 2 ^ 23 + d.toNat * 2 ^ 17 + a.toNat * 2 ^ 11 + b.toNat * 2 ^ 5 := rfl
  generalize encode (.cmpLt s d a b) = x at ew ⊢
  refine decode_of hwf ?_ ?_ ?_
  · rw [candidate, show x / 2 ^ 26 % 64 = 12 by omega]
    simp only []
    rw [minorCompare, show x % 32 = 2 by omega]
    simp only []
    rw [fld_eq 23 x s (by omega), fld_eq 17 x d (by omega), fld_eq 11 x a (by omega), fld_eq 5 x b (by omega)]
  · rw [show Instr.operands (.cmpLt s d a b) = [⟨17, 6, 0, .pred, d.toNat⟩, ⟨11, 6, 0, .vsrc, a.toNat⟩, ⟨5, 6, 0, .vsrc, b.toNat⟩] from rfl]
    exact all_cons (Nat.and_zero _) (all_cons (Nat.and_zero _) (all_cons (Nat.and_zero _) all_nil))
  · exact .inl rfl

theorem Sys2Proof.Laws.Encoding.cmpLe (s : BitVec 3) (d : BitVec 6) (a : BitVec 6) (b : BitVec 6) :
    Encoding.Statement (.cmpLe s d a b) := by
  intro hwf
  have hs := s.isLt
  have hd := d.isLt
  have ha := a.isLt
  have hb := b.isLt
  have ew : encode (.cmpLe s d a b) = 0x30000003 + s.toNat * 2 ^ 23 + d.toNat * 2 ^ 17 + a.toNat * 2 ^ 11 + b.toNat * 2 ^ 5 := rfl
  generalize encode (.cmpLe s d a b) = x at ew ⊢
  refine decode_of hwf ?_ ?_ ?_
  · rw [candidate, show x / 2 ^ 26 % 64 = 12 by omega]
    simp only []
    rw [minorCompare, show x % 32 = 3 by omega]
    simp only []
    rw [fld_eq 23 x s (by omega), fld_eq 17 x d (by omega), fld_eq 11 x a (by omega), fld_eq 5 x b (by omega)]
  · rw [show Instr.operands (.cmpLe s d a b) = [⟨17, 6, 0, .pred, d.toNat⟩, ⟨11, 6, 0, .vsrc, a.toNat⟩, ⟨5, 6, 0, .vsrc, b.toNat⟩] from rfl]
    exact all_cons (Nat.and_zero _) (all_cons (Nat.and_zero _) (all_cons (Nat.and_zero _) all_nil))
  · exact .inl rfl

theorem Sys2Proof.Laws.Encoding.cmpGt (s : BitVec 3) (d : BitVec 6) (a : BitVec 6) (b : BitVec 6) :
    Encoding.Statement (.cmpGt s d a b) := by
  intro hwf
  have hs := s.isLt
  have hd := d.isLt
  have ha := a.isLt
  have hb := b.isLt
  have ew : encode (.cmpGt s d a b) = 0x30000004 + s.toNat * 2 ^ 23 + d.toNat * 2 ^ 17 + a.toNat * 2 ^ 11 + b.toNat * 2 ^ 5 := rfl
  generalize encode (.cmpGt s d a b) = x at ew ⊢
  refine decode_of hwf ?_ ?_ ?_
  · rw [candidate, show x / 2 ^ 26 % 64 = 12 by omega]
    simp only []
    rw [minorCompare, show x % 32 = 4 by omega]
    simp only []
    rw [fld_eq 23 x s (by omega), fld_eq 17 x d (by omega), fld_eq 11 x a (by omega), fld_eq 5 x b (by omega)]
  · rw [show Instr.operands (.cmpGt s d a b) = [⟨17, 6, 0, .pred, d.toNat⟩, ⟨11, 6, 0, .vsrc, a.toNat⟩, ⟨5, 6, 0, .vsrc, b.toNat⟩] from rfl]
    exact all_cons (Nat.and_zero _) (all_cons (Nat.and_zero _) (all_cons (Nat.and_zero _) all_nil))
  · exact .inl rfl

theorem Sys2Proof.Laws.Encoding.cmpGe (s : BitVec 3) (d : BitVec 6) (a : BitVec 6) (b : BitVec 6) :
    Encoding.Statement (.cmpGe s d a b) := by
  intro hwf
  have hs := s.isLt
  have hd := d.isLt
  have ha := a.isLt
  have hb := b.isLt
  have ew : encode (.cmpGe s d a b) = 0x30000005 + s.toNat * 2 ^ 23 + d.toNat * 2 ^ 17 + a.toNat * 2 ^ 11 + b.toNat * 2 ^ 5 := rfl
  generalize encode (.cmpGe s d a b) = x at ew ⊢
  refine decode_of hwf ?_ ?_ ?_
  · rw [candidate, show x / 2 ^ 26 % 64 = 12 by omega]
    simp only []
    rw [minorCompare, show x % 32 = 5 by omega]
    simp only []
    rw [fld_eq 23 x s (by omega), fld_eq 17 x d (by omega), fld_eq 11 x a (by omega), fld_eq 5 x b (by omega)]
  · rw [show Instr.operands (.cmpGe s d a b) = [⟨17, 6, 0, .pred, d.toNat⟩, ⟨11, 6, 0, .vsrc, a.toNat⟩, ⟨5, 6, 0, .vsrc, b.toNat⟩] from rfl]
    exact all_cons (Nat.and_zero _) (all_cons (Nat.and_zero _) (all_cons (Nat.and_zero _) all_nil))
  · exact .inl rfl

theorem Sys2Proof.Laws.Encoding.sel (s : BitVec 3) (d : BitVec 6) (a : BitVec 6) (b : BitVec 6) (n : BitVec 1) (p : BitVec 3) :
    Encoding.Statement (.sel s d a b n p) := by
  intro hwf
  have hs := s.isLt
  have hd := d.isLt
  have ha := a.isLt
  have hb := b.isLt
  have hn := n.isLt
  have hp := p.isLt
  have ew : encode (.sel s d a b n p) = 0x34000000 + s.toNat * 2 ^ 23 + d.toNat * 2 ^ 17 + a.toNat * 2 ^ 11 + b.toNat * 2 ^ 5 + n.toNat * 2 ^ 3 + p.toNat * 2 ^ 0 := rfl
  generalize encode (.sel s d a b n p) = x at ew ⊢
  refine decode_of hwf ?_ ?_ ?_
  · rw [candidate, show x / 2 ^ 26 % 64 = 13 by omega]
    simp only []
    rw [fld_eq 23 x s (by omega), fld_eq 17 x d (by omega), fld_eq 11 x a (by omega), fld_eq 5 x b (by omega), fld_eq 3 x n (by omega), fld_eq 0 x p (by omega)]
  · rw [show Instr.operands (.sel s d a b n p) = [⟨17, 6, 0, .vdst, d.toNat⟩, ⟨11, 6, 0, .vsrc, a.toNat⟩, ⟨5, 6, 0, .vsrc, b.toNat⟩, ⟨4, 1, 1, .zero, 0⟩] from rfl]
    exact all_cons (Nat.and_zero _) (all_cons (Nat.and_zero _) (all_cons (Nat.and_zero _) (all_cons (show x / 2 ^ 4 % 2 ^ 1 &&& 1 = 0 from and_high (k := 0) 1 (by omega)) all_nil)))
  · exact .inl rfl

theorem Sys2Proof.Laws.Encoding.shflAt (s : BitVec 3) (d : BitVec 6) (a : BitVec 6) (b : BitVec 6) :
    Encoding.Statement (.shflAt s d a b) := by
  intro hwf
  have hs := s.isLt
  have hd := d.isLt
  have ha := a.isLt
  have hb := b.isLt
  have ew : encode (.shflAt s d a b) = 0x38000000 + s.toNat * 2 ^ 23 + d.toNat * 2 ^ 17 + a.toNat * 2 ^ 11 + b.toNat * 2 ^ 5 := rfl
  generalize encode (.shflAt s d a b) = x at ew ⊢
  refine decode_of hwf ?_ ?_ ?_
  · rw [candidate, show x / 2 ^ 26 % 64 = 14 by omega]
    simp only []
    rw [minorLanes, show x % 32 = 0 by omega]
    simp only []
    rw [fld_eq 23 x s (by omega), fld_eq 17 x d (by omega), fld_eq 11 x a (by omega), fld_eq 5 x b (by omega)]
  · rw [show Instr.operands (.shflAt s d a b) = [⟨17, 6, 0, .vdst, d.toNat⟩, ⟨11, 6, 0, .vsrc, a.toNat⟩, ⟨5, 6, 0, .vsrc, b.toNat⟩] from rfl]
    exact all_cons (Nat.and_zero _) (all_cons (Nat.and_zero _) (all_cons (Nat.and_zero _) all_nil))
  · exact .inl rfl

theorem Sys2Proof.Laws.Encoding.shflRise (s : BitVec 3) (d : BitVec 6) (a : BitVec 6) (b : BitVec 6) :
    Encoding.Statement (.shflRise s d a b) := by
  intro hwf
  have hs := s.isLt
  have hd := d.isLt
  have ha := a.isLt
  have hb := b.isLt
  have ew : encode (.shflRise s d a b) = 0x38000001 + s.toNat * 2 ^ 23 + d.toNat * 2 ^ 17 + a.toNat * 2 ^ 11 + b.toNat * 2 ^ 5 := rfl
  generalize encode (.shflRise s d a b) = x at ew ⊢
  refine decode_of hwf ?_ ?_ ?_
  · rw [candidate, show x / 2 ^ 26 % 64 = 14 by omega]
    simp only []
    rw [minorLanes, show x % 32 = 1 by omega]
    simp only []
    rw [fld_eq 23 x s (by omega), fld_eq 17 x d (by omega), fld_eq 11 x a (by omega), fld_eq 5 x b (by omega)]
  · rw [show Instr.operands (.shflRise s d a b) = [⟨17, 6, 0, .vdst, d.toNat⟩, ⟨11, 6, 0, .vsrc, a.toNat⟩, ⟨5, 6, 0, .vsrc, b.toNat⟩] from rfl]
    exact all_cons (Nat.and_zero _) (all_cons (Nat.and_zero _) (all_cons (Nat.and_zero _) all_nil))
  · exact .inl rfl

theorem Sys2Proof.Laws.Encoding.shflFall (s : BitVec 3) (d : BitVec 6) (a : BitVec 6) (b : BitVec 6) :
    Encoding.Statement (.shflFall s d a b) := by
  intro hwf
  have hs := s.isLt
  have hd := d.isLt
  have ha := a.isLt
  have hb := b.isLt
  have ew : encode (.shflFall s d a b) = 0x38000002 + s.toNat * 2 ^ 23 + d.toNat * 2 ^ 17 + a.toNat * 2 ^ 11 + b.toNat * 2 ^ 5 := rfl
  generalize encode (.shflFall s d a b) = x at ew ⊢
  refine decode_of hwf ?_ ?_ ?_
  · rw [candidate, show x / 2 ^ 26 % 64 = 14 by omega]
    simp only []
    rw [minorLanes, show x % 32 = 2 by omega]
    simp only []
    rw [fld_eq 23 x s (by omega), fld_eq 17 x d (by omega), fld_eq 11 x a (by omega), fld_eq 5 x b (by omega)]
  · rw [show Instr.operands (.shflFall s d a b) = [⟨17, 6, 0, .vdst, d.toNat⟩, ⟨11, 6, 0, .vsrc, a.toNat⟩, ⟨5, 6, 0, .vsrc, b.toNat⟩] from rfl]
    exact all_cons (Nat.and_zero _) (all_cons (Nat.and_zero _) (all_cons (Nat.and_zero _) all_nil))
  · exact .inl rfl

theorem Sys2Proof.Laws.Encoding.shflFlip (s : BitVec 3) (d : BitVec 6) (a : BitVec 6) (b : BitVec 6) :
    Encoding.Statement (.shflFlip s d a b) := by
  intro hwf
  have hs := s.isLt
  have hd := d.isLt
  have ha := a.isLt
  have hb := b.isLt
  have ew : encode (.shflFlip s d a b) = 0x38000003 + s.toNat * 2 ^ 23 + d.toNat * 2 ^ 17 + a.toNat * 2 ^ 11 + b.toNat * 2 ^ 5 := rfl
  generalize encode (.shflFlip s d a b) = x at ew ⊢
  refine decode_of hwf ?_ ?_ ?_
  · rw [candidate, show x / 2 ^ 26 % 64 = 14 by omega]
    simp only []
    rw [minorLanes, show x % 32 = 3 by omega]
    simp only []
    rw [fld_eq 23 x s (by omega), fld_eq 17 x d (by omega), fld_eq 11 x a (by omega), fld_eq 5 x b (by omega)]
  · rw [show Instr.operands (.shflFlip s d a b) = [⟨17, 6, 0, .vdst, d.toNat⟩, ⟨11, 6, 0, .vsrc, a.toNat⟩, ⟨5, 6, 0, .vsrc, b.toNat⟩] from rfl]
    exact all_cons (Nat.and_zero _) (all_cons (Nat.and_zero _) (all_cons (Nat.and_zero _) all_nil))
  · exact .inl rfl

theorem Sys2Proof.Laws.Encoding.voteAny (s : BitVec 3) (d : BitVec 6) (a : BitVec 6) :
    Encoding.Statement (.voteAny s d a) := by
  intro hwf
  have hs := s.isLt
  have hd := d.isLt
  have ha := a.isLt
  have ew : encode (.voteAny s d a) = 0x38000004 + s.toNat * 2 ^ 23 + d.toNat * 2 ^ 17 + a.toNat * 2 ^ 11 := rfl
  generalize encode (.voteAny s d a) = x at ew ⊢
  refine decode_of hwf ?_ ?_ ?_
  · rw [candidate, show x / 2 ^ 26 % 64 = 14 by omega]
    simp only []
    rw [minorLanes, show x % 32 = 4 by omega]
    simp only []
    rw [fld_eq 23 x s (by omega), fld_eq 17 x d (by omega), fld_eq 11 x a (by omega)]
  · rw [show Instr.operands (.voteAny s d a) = [⟨17, 6, 0, .pred, d.toNat⟩, ⟨11, 6, 0, .pred, a.toNat⟩, ⟨5, 6, 63, .zero, 0⟩] from rfl]
    exact all_cons (Nat.and_zero _) (all_cons (Nat.and_zero _) (all_cons (show x / 2 ^ 5 % 2 ^ 6 &&& 63 = 0 from and_high (k := 0) 63 (by omega)) all_nil))
  · exact .inl rfl

theorem Sys2Proof.Laws.Encoding.voteAll (s : BitVec 3) (d : BitVec 6) (a : BitVec 6) :
    Encoding.Statement (.voteAll s d a) := by
  intro hwf
  have hs := s.isLt
  have hd := d.isLt
  have ha := a.isLt
  have ew : encode (.voteAll s d a) = 0x38000005 + s.toNat * 2 ^ 23 + d.toNat * 2 ^ 17 + a.toNat * 2 ^ 11 := rfl
  generalize encode (.voteAll s d a) = x at ew ⊢
  refine decode_of hwf ?_ ?_ ?_
  · rw [candidate, show x / 2 ^ 26 % 64 = 14 by omega]
    simp only []
    rw [minorLanes, show x % 32 = 5 by omega]
    simp only []
    rw [fld_eq 23 x s (by omega), fld_eq 17 x d (by omega), fld_eq 11 x a (by omega)]
  · rw [show Instr.operands (.voteAll s d a) = [⟨17, 6, 0, .pred, d.toNat⟩, ⟨11, 6, 0, .pred, a.toNat⟩, ⟨5, 6, 63, .zero, 0⟩] from rfl]
    exact all_cons (Nat.and_zero _) (all_cons (Nat.and_zero _) (all_cons (show x / 2 ^ 5 % 2 ^ 6 &&& 63 = 0 from and_high (k := 0) 63 (by omega)) all_nil))
  · exact .inl rfl

theorem Sys2Proof.Laws.Encoding.voteBallot (s : BitVec 3) (d : BitVec 6) (a : BitVec 6) :
    Encoding.Statement (.voteBallot s d a) := by
  intro hwf
  have hs := s.isLt
  have hd := d.isLt
  have ha := a.isLt
  have ew : encode (.voteBallot s d a) = 0x38000006 + s.toNat * 2 ^ 23 + d.toNat * 2 ^ 17 + a.toNat * 2 ^ 11 := rfl
  generalize encode (.voteBallot s d a) = x at ew ⊢
  refine decode_of hwf ?_ ?_ ?_
  · rw [candidate, show x / 2 ^ 26 % 64 = 14 by omega]
    simp only []
    rw [minorLanes, show x % 32 = 6 by omega]
    simp only []
    rw [fld_eq 23 x s (by omega), fld_eq 17 x d (by omega), fld_eq 11 x a (by omega)]
  · rw [show Instr.operands (.voteBallot s d a) = [⟨17, 6, 0, .vdst, d.toNat⟩, ⟨11, 6, 0, .pred, a.toNat⟩, ⟨5, 6, 63, .zero, 0⟩] from rfl]
    exact all_cons (Nat.and_zero _) (all_cons (Nat.and_zero _) (all_cons (show x / 2 ^ 5 % 2 ^ 6 &&& 63 = 0 from and_high (k := 0) 63 (by omega)) all_nil))
  · exact .inl rfl

theorem Sys2Proof.Laws.Encoding.scanAdd (s : BitVec 3) (d : BitVec 6) (a : BitVec 6) :
    Encoding.Statement (.scanAdd s d a) := by
  intro hwf
  have hs := s.isLt
  have hd := d.isLt
  have ha := a.isLt
  have ew : encode (.scanAdd s d a) = 0x38000008 + s.toNat * 2 ^ 23 + d.toNat * 2 ^ 17 + a.toNat * 2 ^ 11 := rfl
  generalize encode (.scanAdd s d a) = x at ew ⊢
  refine decode_of hwf ?_ ?_ ?_
  · rw [candidate, show x / 2 ^ 26 % 64 = 14 by omega]
    simp only []
    rw [minorLanes, show x % 32 = 8 by omega]
    simp only []
    rw [fld_eq 23 x s (by omega), fld_eq 17 x d (by omega), fld_eq 11 x a (by omega)]
  · rw [show Instr.operands (.scanAdd s d a) = [⟨17, 6, 0, .vdst, d.toNat⟩, ⟨11, 6, 0, .vsrc, a.toNat⟩, ⟨5, 6, 63, .zero, 0⟩] from rfl]
    exact all_cons (Nat.and_zero _) (all_cons (Nat.and_zero _) (all_cons (show x / 2 ^ 5 % 2 ^ 6 &&& 63 = 0 from and_high (k := 0) 63 (by omega)) all_nil))
  · exact .inl rfl

theorem Sys2Proof.Laws.Encoding.scanMin (s : BitVec 3) (d : BitVec 6) (a : BitVec 6) :
    Encoding.Statement (.scanMin s d a) := by
  intro hwf
  have hs := s.isLt
  have hd := d.isLt
  have ha := a.isLt
  have ew : encode (.scanMin s d a) = 0x38000009 + s.toNat * 2 ^ 23 + d.toNat * 2 ^ 17 + a.toNat * 2 ^ 11 := rfl
  generalize encode (.scanMin s d a) = x at ew ⊢
  refine decode_of hwf ?_ ?_ ?_
  · rw [candidate, show x / 2 ^ 26 % 64 = 14 by omega]
    simp only []
    rw [minorLanes, show x % 32 = 9 by omega]
    simp only []
    rw [fld_eq 23 x s (by omega), fld_eq 17 x d (by omega), fld_eq 11 x a (by omega)]
  · rw [show Instr.operands (.scanMin s d a) = [⟨17, 6, 0, .vdst, d.toNat⟩, ⟨11, 6, 0, .vsrc, a.toNat⟩, ⟨5, 6, 63, .zero, 0⟩] from rfl]
    exact all_cons (Nat.and_zero _) (all_cons (Nat.and_zero _) (all_cons (show x / 2 ^ 5 % 2 ^ 6 &&& 63 = 0 from and_high (k := 0) 63 (by omega)) all_nil))
  · exact .inl rfl

theorem Sys2Proof.Laws.Encoding.scanMax (s : BitVec 3) (d : BitVec 6) (a : BitVec 6) :
    Encoding.Statement (.scanMax s d a) := by
  intro hwf
  have hs := s.isLt
  have hd := d.isLt
  have ha := a.isLt
  have ew : encode (.scanMax s d a) = 0x3800000a + s.toNat * 2 ^ 23 + d.toNat * 2 ^ 17 + a.toNat * 2 ^ 11 := rfl
  generalize encode (.scanMax s d a) = x at ew ⊢
  refine decode_of hwf ?_ ?_ ?_
  · rw [candidate, show x / 2 ^ 26 % 64 = 14 by omega]
    simp only []
    rw [minorLanes, show x % 32 = 10 by omega]
    simp only []
    rw [fld_eq 23 x s (by omega), fld_eq 17 x d (by omega), fld_eq 11 x a (by omega)]
  · rw [show Instr.operands (.scanMax s d a) = [⟨17, 6, 0, .vdst, d.toNat⟩, ⟨11, 6, 0, .vsrc, a.toNat⟩, ⟨5, 6, 63, .zero, 0⟩] from rfl]
    exact all_cons (Nat.and_zero _) (all_cons (Nat.and_zero _) (all_cons (show x / 2 ^ 5 % 2 ^ 6 &&& 63 = 0 from and_high (k := 0) 63 (by omega)) all_nil))
  · exact .inl rfl

theorem Sys2Proof.Laws.Encoding.scanAddx (s : BitVec 3) (d : BitVec 6) (a : BitVec 6) :
    Encoding.Statement (.scanAddx s d a) := by
  intro hwf
  have hs := s.isLt
  have hd := d.isLt
  have ha := a.isLt
  have ew : encode (.scanAddx s d a) = 0x3800000b + s.toNat * 2 ^ 23 + d.toNat * 2 ^ 17 + a.toNat * 2 ^ 11 := rfl
  generalize encode (.scanAddx s d a) = x at ew ⊢
  refine decode_of hwf ?_ ?_ ?_
  · rw [candidate, show x / 2 ^ 26 % 64 = 14 by omega]
    simp only []
    rw [minorLanes, show x % 32 = 11 by omega]
    simp only []
    rw [fld_eq 23 x s (by omega), fld_eq 17 x d (by omega), fld_eq 11 x a (by omega)]
  · rw [show Instr.operands (.scanAddx s d a) = [⟨17, 6, 0, .vdst, d.toNat⟩, ⟨11, 6, 0, .vsrc, a.toNat⟩, ⟨5, 6, 63, .zero, 0⟩] from rfl]
    exact all_cons (Nat.and_zero _) (all_cons (Nat.and_zero _) (all_cons (show x / 2 ^ 5 % 2 ^ 6 &&& 63 = 0 from and_high (k := 0) 63 (by omega)) all_nil))
  · exact .inl rfl

theorem Sys2Proof.Laws.Encoding.pand (s : BitVec 3) (d : BitVec 6) (a : BitVec 6) (b : BitVec 6) :
    Encoding.Statement (.pand s d a b) := by
  intro hwf
  have hs := s.isLt
  have hd := d.isLt
  have ha := a.isLt
  have hb := b.isLt
  have ew : encode (.pand s d a b) = 0x3c000000 + s.toNat * 2 ^ 23 + d.toNat * 2 ^ 17 + a.toNat * 2 ^ 11 + b.toNat * 2 ^ 5 := rfl
  generalize encode (.pand s d a b) = x at ew ⊢
  refine decode_of hwf ?_ ?_ ?_
  · rw [candidate, show x / 2 ^ 26 % 64 = 15 by omega]
    simp only []
    rw [minorPreds, show x % 32 = 0 by omega]
    simp only []
    rw [fld_eq 23 x s (by omega), fld_eq 17 x d (by omega), fld_eq 11 x a (by omega), fld_eq 5 x b (by omega)]
  · rw [show Instr.operands (.pand s d a b) = [⟨17, 6, 0, .pred, d.toNat⟩, ⟨11, 6, 0, .pred, a.toNat⟩, ⟨5, 6, 0, .pred, b.toNat⟩] from rfl]
    exact all_cons (Nat.and_zero _) (all_cons (Nat.and_zero _) (all_cons (Nat.and_zero _) all_nil))
  · exact .inl rfl

theorem Sys2Proof.Laws.Encoding.por (s : BitVec 3) (d : BitVec 6) (a : BitVec 6) (b : BitVec 6) :
    Encoding.Statement (.por s d a b) := by
  intro hwf
  have hs := s.isLt
  have hd := d.isLt
  have ha := a.isLt
  have hb := b.isLt
  have ew : encode (.por s d a b) = 0x3c000001 + s.toNat * 2 ^ 23 + d.toNat * 2 ^ 17 + a.toNat * 2 ^ 11 + b.toNat * 2 ^ 5 := rfl
  generalize encode (.por s d a b) = x at ew ⊢
  refine decode_of hwf ?_ ?_ ?_
  · rw [candidate, show x / 2 ^ 26 % 64 = 15 by omega]
    simp only []
    rw [minorPreds, show x % 32 = 1 by omega]
    simp only []
    rw [fld_eq 23 x s (by omega), fld_eq 17 x d (by omega), fld_eq 11 x a (by omega), fld_eq 5 x b (by omega)]
  · rw [show Instr.operands (.por s d a b) = [⟨17, 6, 0, .pred, d.toNat⟩, ⟨11, 6, 0, .pred, a.toNat⟩, ⟨5, 6, 0, .pred, b.toNat⟩] from rfl]
    exact all_cons (Nat.and_zero _) (all_cons (Nat.and_zero _) (all_cons (Nat.and_zero _) all_nil))
  · exact .inl rfl

theorem Sys2Proof.Laws.Encoding.pxor (s : BitVec 3) (d : BitVec 6) (a : BitVec 6) (b : BitVec 6) :
    Encoding.Statement (.pxor s d a b) := by
  intro hwf
  have hs := s.isLt
  have hd := d.isLt
  have ha := a.isLt
  have hb := b.isLt
  have ew : encode (.pxor s d a b) = 0x3c000002 + s.toNat * 2 ^ 23 + d.toNat * 2 ^ 17 + a.toNat * 2 ^ 11 + b.toNat * 2 ^ 5 := rfl
  generalize encode (.pxor s d a b) = x at ew ⊢
  refine decode_of hwf ?_ ?_ ?_
  · rw [candidate, show x / 2 ^ 26 % 64 = 15 by omega]
    simp only []
    rw [minorPreds, show x % 32 = 2 by omega]
    simp only []
    rw [fld_eq 23 x s (by omega), fld_eq 17 x d (by omega), fld_eq 11 x a (by omega), fld_eq 5 x b (by omega)]
  · rw [show Instr.operands (.pxor s d a b) = [⟨17, 6, 0, .pred, d.toNat⟩, ⟨11, 6, 0, .pred, a.toNat⟩, ⟨5, 6, 0, .pred, b.toNat⟩] from rfl]
    exact all_cons (Nat.and_zero _) (all_cons (Nat.and_zero _) (all_cons (Nat.and_zero _) all_nil))
  · exact .inl rfl

theorem Sys2Proof.Laws.Encoding.pnot (s : BitVec 3) (d : BitVec 6) (a : BitVec 6) :
    Encoding.Statement (.pnot s d a) := by
  intro hwf
  have hs := s.isLt
  have hd := d.isLt
  have ha := a.isLt
  have ew : encode (.pnot s d a) = 0x3c000003 + s.toNat * 2 ^ 23 + d.toNat * 2 ^ 17 + a.toNat * 2 ^ 11 := rfl
  generalize encode (.pnot s d a) = x at ew ⊢
  refine decode_of hwf ?_ ?_ ?_
  · rw [candidate, show x / 2 ^ 26 % 64 = 15 by omega]
    simp only []
    rw [minorPreds, show x % 32 = 3 by omega]
    simp only []
    rw [fld_eq 23 x s (by omega), fld_eq 17 x d (by omega), fld_eq 11 x a (by omega)]
  · rw [show Instr.operands (.pnot s d a) = [⟨17, 6, 0, .pred, d.toNat⟩, ⟨11, 6, 0, .pred, a.toNat⟩, ⟨5, 6, 63, .zero, 0⟩] from rfl]
    exact all_cons (Nat.and_zero _) (all_cons (Nat.and_zero _) (all_cons (show x / 2 ^ 5 % 2 ^ 6 &&& 63 = 0 from and_high (k := 0) 63 (by omega)) all_nil))
  · exact .inl rfl

theorem Sys2Proof.Laws.Encoding.movi (s : BitVec 3) (d : BitVec 6) (i : BitVec 17) :
    Encoding.Statement (.movi s d i) := by
  intro hwf
  have hs := s.isLt
  have hd := d.isLt
  have hi := i.isLt
  have ew : encode (.movi s d i) = 0x40000000 + s.toNat * 2 ^ 23 + d.toNat * 2 ^ 17 + i.toNat * 2 ^ 0 := rfl
  generalize encode (.movi s d i) = x at ew ⊢
  refine decode_of hwf ?_ ?_ ?_
  · rw [candidate, show x / 2 ^ 26 % 64 = 16 by omega]
    simp only []
    rw [fld_eq 23 x s (by omega), fld_eq 17 x d (by omega), fld_eq 0 x i (by omega)]
  · rw [show Instr.operands (.movi s d i) = [⟨17, 6, 0, .vdst, d.toNat⟩, ⟨0, 17, 0, .free, i.toNat⟩] from rfl]
    exact all_cons (Nat.and_zero _) (all_cons (Nat.and_zero _) all_nil)
  · exact .inl rfl

theorem Sys2Proof.Laws.Encoding.movu (s : BitVec 3) (d : BitVec 6) (i : BitVec 17) :
    Encoding.Statement (.movu s d i) := by
  intro hwf
  have hs := s.isLt
  have hd := d.isLt
  have hi := i.isLt
  have ew : encode (.movu s d i) = 0x44000000 + s.toNat * 2 ^ 23 + d.toNat * 2 ^ 17 + i.toNat * 2 ^ 0 := rfl
  generalize encode (.movu s d i) = x at ew ⊢
  refine decode_of hwf ?_ ?_ ?_
  · rw [candidate, show x / 2 ^ 26 % 64 = 17 by omega]
    simp only []
    rw [fld_eq 23 x s (by omega), fld_eq 17 x d (by omega), fld_eq 0 x i (by omega)]
  · rw [show Instr.operands (.movu s d i) = [⟨17, 6, 0, .vdst, d.toNat⟩, ⟨0, 17, 0, .free, i.toNat⟩] from rfl]
    exact all_cons (Nat.and_zero _) (all_cons (Nat.and_zero _) all_nil)
  · exact .inl rfl

theorem Sys2Proof.Laws.Encoding.addi (s : BitVec 3) (d : BitVec 6) (a : BitVec 6) (i : BitVec 11) :
    Encoding.Statement (.addi s d a i) := by
  intro hwf
  have hs := s.isLt
  have hd := d.isLt
  have ha := a.isLt
  have hi := i.isLt
  have ew : encode (.addi s d a i) = 0x48000000 + s.toNat * 2 ^ 23 + d.toNat * 2 ^ 17 + a.toNat * 2 ^ 11 + i.toNat * 2 ^ 0 := rfl
  generalize encode (.addi s d a i) = x at ew ⊢
  refine decode_of hwf ?_ ?_ ?_
  · rw [candidate, show x / 2 ^ 26 % 64 = 18 by omega]
    simp only []
    rw [fld_eq 23 x s (by omega), fld_eq 17 x d (by omega), fld_eq 11 x a (by omega), fld_eq 0 x i (by omega)]
  · rw [show Instr.operands (.addi s d a i) = [⟨17, 6, 0, .vdst, d.toNat⟩, ⟨11, 6, 0, .vsrc, a.toNat⟩, ⟨0, 11, 0, .free, i.toNat⟩] from rfl]
    exact all_cons (Nat.and_zero _) (all_cons (Nat.and_zero _) (all_cons (Nat.and_zero _) all_nil))
  · exact .inl rfl

theorem Sys2Proof.Laws.Encoding.andi (s : BitVec 3) (d : BitVec 6) (a : BitVec 6) (i : BitVec 11) :
    Encoding.Statement (.andi s d a i) := by
  intro hwf
  have hs := s.isLt
  have hd := d.isLt
  have ha := a.isLt
  have hi := i.isLt
  have ew : encode (.andi s d a i) = 0x4c000000 + s.toNat * 2 ^ 23 + d.toNat * 2 ^ 17 + a.toNat * 2 ^ 11 + i.toNat * 2 ^ 0 := rfl
  generalize encode (.andi s d a i) = x at ew ⊢
  refine decode_of hwf ?_ ?_ ?_
  · rw [candidate, show x / 2 ^ 26 % 64 = 19 by omega]
    simp only []
    rw [fld_eq 23 x s (by omega), fld_eq 17 x d (by omega), fld_eq 11 x a (by omega), fld_eq 0 x i (by omega)]
  · rw [show Instr.operands (.andi s d a i) = [⟨17, 6, 0, .vdst, d.toNat⟩, ⟨11, 6, 0, .vsrc, a.toNat⟩, ⟨0, 11, 0, .free, i.toNat⟩] from rfl]
    exact all_cons (Nat.and_zero _) (all_cons (Nat.and_zero _) (all_cons (Nat.and_zero _) all_nil))
  · exact .inl rfl

theorem Sys2Proof.Laws.Encoding.ori (s : BitVec 3) (d : BitVec 6) (a : BitVec 6) (i : BitVec 11) :
    Encoding.Statement (.ori s d a i) := by
  intro hwf
  have hs := s.isLt
  have hd := d.isLt
  have ha := a.isLt
  have hi := i.isLt
  have ew : encode (.ori s d a i) = 0x50000000 + s.toNat * 2 ^ 23 + d.toNat * 2 ^ 17 + a.toNat * 2 ^ 11 + i.toNat * 2 ^ 0 := rfl
  generalize encode (.ori s d a i) = x at ew ⊢
  refine decode_of hwf ?_ ?_ ?_
  · rw [candidate, show x / 2 ^ 26 % 64 = 20 by omega]
    simp only []
    rw [fld_eq 23 x s (by omega), fld_eq 17 x d (by omega), fld_eq 11 x a (by omega), fld_eq 0 x i (by omega)]
  · rw [show Instr.operands (.ori s d a i) = [⟨17, 6, 0, .vdst, d.toNat⟩, ⟨11, 6, 0, .vsrc, a.toNat⟩, ⟨0, 11, 0, .free, i.toNat⟩] from rfl]
    exact all_cons (Nat.and_zero _) (all_cons (Nat.and_zero _) (all_cons (Nat.and_zero _) all_nil))
  · exact .inl rfl

theorem Sys2Proof.Laws.Encoding.xori (s : BitVec 3) (d : BitVec 6) (a : BitVec 6) (i : BitVec 11) :
    Encoding.Statement (.xori s d a i) := by
  intro hwf
  have hs := s.isLt
  have hd := d.isLt
  have ha := a.isLt
  have hi := i.isLt
  have ew : encode (.xori s d a i) = 0x54000000 + s.toNat * 2 ^ 23 + d.toNat * 2 ^ 17 + a.toNat * 2 ^ 11 + i.toNat * 2 ^ 0 := rfl
  generalize encode (.xori s d a i) = x at ew ⊢
  refine decode_of hwf ?_ ?_ ?_
  · rw [candidate, show x / 2 ^ 26 % 64 = 21 by omega]
    simp only []
    rw [fld_eq 23 x s (by omega), fld_eq 17 x d (by omega), fld_eq 11 x a (by omega), fld_eq 0 x i (by omega)]
  · rw [show Instr.operands (.xori s d a i) = [⟨17, 6, 0, .vdst, d.toNat⟩, ⟨11, 6, 0, .vsrc, a.toNat⟩, ⟨0, 11, 0, .free, i.toNat⟩] from rfl]
    exact all_cons (Nat.and_zero _) (all_cons (Nat.and_zero _) (all_cons (Nat.and_zero _) all_nil))
  · exact .inl rfl

theorem Sys2Proof.Laws.Encoding.shli (s : BitVec 3) (d : BitVec 6) (a : BitVec 6) (c : BitVec 6) :
    Encoding.Statement (.shli s d a c) := by
  intro hwf
  have hs := s.isLt
  have hd := d.isLt
  have ha := a.isLt
  have hc := c.isLt
  have ew : encode (.shli s d a c) = 0x58000000 + s.toNat * 2 ^ 23 + d.toNat * 2 ^ 17 + a.toNat * 2 ^ 11 + c.toNat * 2 ^ 0 := rfl
  generalize encode (.shli s d a c) = x at ew ⊢
  refine decode_of hwf ?_ ?_ ?_
  · rw [candidate, show x / 2 ^ 26 % 64 = 22 by omega]
    simp only []
    rw [fld_eq 23 x s (by omega), fld_eq 17 x d (by omega), fld_eq 11 x a (by omega), fld_eq 0 x c (by omega)]
  · rw [show Instr.operands (.shli s d a c) = [⟨17, 6, 0, .vdst, d.toNat⟩, ⟨11, 6, 0, .vsrc, a.toNat⟩, ⟨0, 11, 1984, .free, c.toNat⟩] from rfl]
    exact all_cons (Nat.and_zero _) (all_cons (Nat.and_zero _) (all_cons (show x / 2 ^ 0 % 2 ^ 11 &&& 1984 = 0 from and_high (k := 6) 31 (by omega)) all_nil))
  · exact .inl rfl

theorem Sys2Proof.Laws.Encoding.shri (s : BitVec 3) (d : BitVec 6) (a : BitVec 6) (c : BitVec 6) :
    Encoding.Statement (.shri s d a c) := by
  intro hwf
  have hs := s.isLt
  have hd := d.isLt
  have ha := a.isLt
  have hc := c.isLt
  have ew : encode (.shri s d a c) = 0x5c000000 + s.toNat * 2 ^ 23 + d.toNat * 2 ^ 17 + a.toNat * 2 ^ 11 + c.toNat * 2 ^ 0 := rfl
  generalize encode (.shri s d a c) = x at ew ⊢
  refine decode_of hwf ?_ ?_ ?_
  · rw [candidate, show x / 2 ^ 26 % 64 = 23 by omega]
    simp only []
    rw [fld_eq 23 x s (by omega), fld_eq 17 x d (by omega), fld_eq 11 x a (by omega), fld_eq 0 x c (by omega)]
  · rw [show Instr.operands (.shri s d a c) = [⟨17, 6, 0, .vdst, d.toNat⟩, ⟨11, 6, 0, .vsrc, a.toNat⟩, ⟨0, 11, 1984, .free, c.toNat⟩] from rfl]
    exact all_cons (Nat.and_zero _) (all_cons (Nat.and_zero _) (all_cons (show x / 2 ^ 0 % 2 ^ 11 &&& 1984 = 0 from and_high (k := 6) 31 (by omega)) all_nil))
  · exact .inl rfl

theorem Sys2Proof.Laws.Encoding.fma (s : BitVec 3) (d : BitVec 6) (a : BitVec 6) (b : BitVec 6) (c : BitVec 5) :
    Encoding.Statement (.fma s d a b c) := by
  intro hwf
  have hs := s.isLt
  have hd := d.isLt
  have ha := a.isLt
  have hb := b.isLt
  have hc := c.isLt
  have ew : encode (.fma s d a b c) = 0x60000000 + s.toNat * 2 ^ 23 + d.toNat * 2 ^ 17 + a.toNat * 2 ^ 11 + b.toNat * 2 ^ 5 + c.toNat * 2 ^ 0 := rfl
  generalize encode (.fma s d a b c) = x at ew ⊢
  refine decode_of hwf ?_ ?_ ?_
  · rw [candidate, show x / 2 ^ 26 % 64 = 24 by omega]
    simp only []
    rw [fld_eq 23 x s (by omega), fld_eq 17 x d (by omega), fld_eq 11 x a (by omega), fld_eq 5 x b (by omega), fld_eq 0 x c (by omega)]
  · rw [show Instr.operands (.fma s d a b c) = [⟨17, 6, 0, .vdst, d.toNat⟩, ⟨11, 6, 0, .vsrc, a.toNat⟩, ⟨5, 6, 0, .vsrc, b.toNat⟩, ⟨0, 5, 0, .free, c.toNat⟩] from rfl]
    exact all_cons (Nat.and_zero _) (all_cons (Nat.and_zero _) (all_cons (Nat.and_zero _) (all_cons (Nat.and_zero _) all_nil)))
  · exact .inl rfl

theorem Sys2Proof.Laws.Encoding.fadd (s : BitVec 3) (d : BitVec 6) (a : BitVec 6) (b : BitVec 6) :
    Encoding.Statement (.fadd s d a b) := by
  intro hwf
  have hs := s.isLt
  have hd := d.isLt
  have ha := a.isLt
  have hb := b.isLt
  have ew : encode (.fadd s d a b) = 0x64000000 + s.toNat * 2 ^ 23 + d.toNat * 2 ^ 17 + a.toNat * 2 ^ 11 + b.toNat * 2 ^ 5 := rfl
  generalize encode (.fadd s d a b) = x at ew ⊢
  refine decode_of hwf ?_ ?_ ?_
  · rw [candidate, show x / 2 ^ 26 % 64 = 25 by omega]
    simp only []
    rw [minorFloat, show x % 32 = 0 by omega]
    simp only []
    rw [fld_eq 23 x s (by omega), fld_eq 17 x d (by omega), fld_eq 11 x a (by omega), fld_eq 5 x b (by omega)]
  · rw [show Instr.operands (.fadd s d a b) = [⟨17, 6, 0, .vdst, d.toNat⟩, ⟨11, 6, 0, .vsrc, a.toNat⟩, ⟨5, 6, 0, .vsrc, b.toNat⟩] from rfl]
    exact all_cons (Nat.and_zero _) (all_cons (Nat.and_zero _) (all_cons (Nat.and_zero _) all_nil))
  · exact .inl rfl

theorem Sys2Proof.Laws.Encoding.fsub (s : BitVec 3) (d : BitVec 6) (a : BitVec 6) (b : BitVec 6) :
    Encoding.Statement (.fsub s d a b) := by
  intro hwf
  have hs := s.isLt
  have hd := d.isLt
  have ha := a.isLt
  have hb := b.isLt
  have ew : encode (.fsub s d a b) = 0x64000001 + s.toNat * 2 ^ 23 + d.toNat * 2 ^ 17 + a.toNat * 2 ^ 11 + b.toNat * 2 ^ 5 := rfl
  generalize encode (.fsub s d a b) = x at ew ⊢
  refine decode_of hwf ?_ ?_ ?_
  · rw [candidate, show x / 2 ^ 26 % 64 = 25 by omega]
    simp only []
    rw [minorFloat, show x % 32 = 1 by omega]
    simp only []
    rw [fld_eq 23 x s (by omega), fld_eq 17 x d (by omega), fld_eq 11 x a (by omega), fld_eq 5 x b (by omega)]
  · rw [show Instr.operands (.fsub s d a b) = [⟨17, 6, 0, .vdst, d.toNat⟩, ⟨11, 6, 0, .vsrc, a.toNat⟩, ⟨5, 6, 0, .vsrc, b.toNat⟩] from rfl]
    exact all_cons (Nat.and_zero _) (all_cons (Nat.and_zero _) (all_cons (Nat.and_zero _) all_nil))
  · exact .inl rfl

theorem Sys2Proof.Laws.Encoding.fmul (s : BitVec 3) (d : BitVec 6) (a : BitVec 6) (b : BitVec 6) :
    Encoding.Statement (.fmul s d a b) := by
  intro hwf
  have hs := s.isLt
  have hd := d.isLt
  have ha := a.isLt
  have hb := b.isLt
  have ew : encode (.fmul s d a b) = 0x64000002 + s.toNat * 2 ^ 23 + d.toNat * 2 ^ 17 + a.toNat * 2 ^ 11 + b.toNat * 2 ^ 5 := rfl
  generalize encode (.fmul s d a b) = x at ew ⊢
  refine decode_of hwf ?_ ?_ ?_
  · rw [candidate, show x / 2 ^ 26 % 64 = 25 by omega]
    simp only []
    rw [minorFloat, show x % 32 = 2 by omega]
    simp only []
    rw [fld_eq 23 x s (by omega), fld_eq 17 x d (by omega), fld_eq 11 x a (by omega), fld_eq 5 x b (by omega)]
  · rw [show Instr.operands (.fmul s d a b) = [⟨17, 6, 0, .vdst, d.toNat⟩, ⟨11, 6, 0, .vsrc, a.toNat⟩, ⟨5, 6, 0, .vsrc, b.toNat⟩] from rfl]
    exact all_cons (Nat.and_zero _) (all_cons (Nat.and_zero _) (all_cons (Nat.and_zero _) all_nil))
  · exact .inl rfl

theorem Sys2Proof.Laws.Encoding.fmin (s : BitVec 3) (d : BitVec 6) (a : BitVec 6) (b : BitVec 6) :
    Encoding.Statement (.fmin s d a b) := by
  intro hwf
  have hs := s.isLt
  have hd := d.isLt
  have ha := a.isLt
  have hb := b.isLt
  have ew : encode (.fmin s d a b) = 0x64000003 + s.toNat * 2 ^ 23 + d.toNat * 2 ^ 17 + a.toNat * 2 ^ 11 + b.toNat * 2 ^ 5 := rfl
  generalize encode (.fmin s d a b) = x at ew ⊢
  refine decode_of hwf ?_ ?_ ?_
  · rw [candidate, show x / 2 ^ 26 % 64 = 25 by omega]
    simp only []
    rw [minorFloat, show x % 32 = 3 by omega]
    simp only []
    rw [fld_eq 23 x s (by omega), fld_eq 17 x d (by omega), fld_eq 11 x a (by omega), fld_eq 5 x b (by omega)]
  · rw [show Instr.operands (.fmin s d a b) = [⟨17, 6, 0, .vdst, d.toNat⟩, ⟨11, 6, 0, .vsrc, a.toNat⟩, ⟨5, 6, 0, .vsrc, b.toNat⟩] from rfl]
    exact all_cons (Nat.and_zero _) (all_cons (Nat.and_zero _) (all_cons (Nat.and_zero _) all_nil))
  · exact .inl rfl

theorem Sys2Proof.Laws.Encoding.fmax (s : BitVec 3) (d : BitVec 6) (a : BitVec 6) (b : BitVec 6) :
    Encoding.Statement (.fmax s d a b) := by
  intro hwf
  have hs := s.isLt
  have hd := d.isLt
  have ha := a.isLt
  have hb := b.isLt
  have ew : encode (.fmax s d a b) = 0x64000004 + s.toNat * 2 ^ 23 + d.toNat * 2 ^ 17 + a.toNat * 2 ^ 11 + b.toNat * 2 ^ 5 := rfl
  generalize encode (.fmax s d a b) = x at ew ⊢
  refine decode_of hwf ?_ ?_ ?_
  · rw [candidate, show x / 2 ^ 26 % 64 = 25 by omega]
    simp only []
    rw [minorFloat, show x % 32 = 4 by omega]
    simp only []
    rw [fld_eq 23 x s (by omega), fld_eq 17 x d (by omega), fld_eq 11 x a (by omega), fld_eq 5 x b (by omega)]
  · rw [show Instr.operands (.fmax s d a b) = [⟨17, 6, 0, .vdst, d.toNat⟩, ⟨11, 6, 0, .vsrc, a.toNat⟩, ⟨5, 6, 0, .vsrc, b.toNat⟩] from rfl]
    exact all_cons (Nat.and_zero _) (all_cons (Nat.and_zero _) (all_cons (Nat.and_zero _) all_nil))
  · exact .inl rfl

theorem Sys2Proof.Laws.Encoding.fabs (s : BitVec 3) (d : BitVec 6) (a : BitVec 6) :
    Encoding.Statement (.fabs s d a) := by
  intro hwf
  have hs := s.isLt
  have hd := d.isLt
  have ha := a.isLt
  have ew : encode (.fabs s d a) = 0x64000005 + s.toNat * 2 ^ 23 + d.toNat * 2 ^ 17 + a.toNat * 2 ^ 11 := rfl
  generalize encode (.fabs s d a) = x at ew ⊢
  refine decode_of hwf ?_ ?_ ?_
  · rw [candidate, show x / 2 ^ 26 % 64 = 25 by omega]
    simp only []
    rw [minorFloat, show x % 32 = 5 by omega]
    simp only []
    rw [fld_eq 23 x s (by omega), fld_eq 17 x d (by omega), fld_eq 11 x a (by omega)]
  · rw [show Instr.operands (.fabs s d a) = [⟨17, 6, 0, .vdst, d.toNat⟩, ⟨11, 6, 0, .vsrc, a.toNat⟩, ⟨5, 6, 63, .zero, 0⟩] from rfl]
    exact all_cons (Nat.and_zero _) (all_cons (Nat.and_zero _) (all_cons (show x / 2 ^ 5 % 2 ^ 6 &&& 63 = 0 from and_high (k := 0) 63 (by omega)) all_nil))
  · exact .inl rfl

theorem Sys2Proof.Laws.Encoding.fneg (s : BitVec 3) (d : BitVec 6) (a : BitVec 6) :
    Encoding.Statement (.fneg s d a) := by
  intro hwf
  have hs := s.isLt
  have hd := d.isLt
  have ha := a.isLt
  have ew : encode (.fneg s d a) = 0x64000006 + s.toNat * 2 ^ 23 + d.toNat * 2 ^ 17 + a.toNat * 2 ^ 11 := rfl
  generalize encode (.fneg s d a) = x at ew ⊢
  refine decode_of hwf ?_ ?_ ?_
  · rw [candidate, show x / 2 ^ 26 % 64 = 25 by omega]
    simp only []
    rw [minorFloat, show x % 32 = 6 by omega]
    simp only []
    rw [fld_eq 23 x s (by omega), fld_eq 17 x d (by omega), fld_eq 11 x a (by omega)]
  · rw [show Instr.operands (.fneg s d a) = [⟨17, 6, 0, .vdst, d.toNat⟩, ⟨11, 6, 0, .vsrc, a.toNat⟩, ⟨5, 6, 63, .zero, 0⟩] from rfl]
    exact all_cons (Nat.and_zero _) (all_cons (Nat.and_zero _) (all_cons (show x / 2 ^ 5 % 2 ^ 6 &&& 63 = 0 from and_high (k := 0) 63 (by omega)) all_nil))
  · exact .inl rfl

theorem Sys2Proof.Laws.Encoding.fdiv (d : BitVec 6) (a : BitVec 6) (b : BitVec 6) :
    Encoding.Statement (.fdiv d a b) := by
  intro hwf
  have hd := d.isLt
  have ha := a.isLt
  have hb := b.isLt
  have ew : encode (.fdiv d a b) = 0x64000007 + d.toNat * 2 ^ 17 + a.toNat * 2 ^ 11 + b.toNat * 2 ^ 5 := rfl
  generalize encode (.fdiv d a b) = x at ew ⊢
  refine decode_of hwf ?_ ?_ ?_
  · rw [candidate, show x / 2 ^ 26 % 64 = 25 by omega]
    simp only []
    rw [minorFloat, show x % 32 = 7 by omega]
    simp only []
    rw [fld_eq 17 x d (by omega), fld_eq 11 x a (by omega), fld_eq 5 x b (by omega)]
  · rw [show Instr.operands (.fdiv d a b) = [⟨17, 6, 0, .vdst, d.toNat⟩, ⟨11, 6, 0, .vsrc, a.toNat⟩, ⟨5, 6, 0, .vsrc, b.toNat⟩] from rfl]
    exact all_cons (Nat.and_zero _) (all_cons (Nat.and_zero _) (all_cons (Nat.and_zero _) all_nil))
  · exact .inr (by omega)

theorem Sys2Proof.Laws.Encoding.fsqrt (d : BitVec 6) (a : BitVec 6) :
    Encoding.Statement (.fsqrt d a) := by
  intro hwf
  have hd := d.isLt
  have ha := a.isLt
  have ew : encode (.fsqrt d a) = 0x64000008 + d.toNat * 2 ^ 17 + a.toNat * 2 ^ 11 := rfl
  generalize encode (.fsqrt d a) = x at ew ⊢
  refine decode_of hwf ?_ ?_ ?_
  · rw [candidate, show x / 2 ^ 26 % 64 = 25 by omega]
    simp only []
    rw [minorFloat, show x % 32 = 8 by omega]
    simp only []
    rw [fld_eq 17 x d (by omega), fld_eq 11 x a (by omega)]
  · rw [show Instr.operands (.fsqrt d a) = [⟨17, 6, 0, .vdst, d.toNat⟩, ⟨11, 6, 0, .vsrc, a.toNat⟩, ⟨5, 6, 63, .zero, 0⟩] from rfl]
    exact all_cons (Nat.and_zero _) (all_cons (Nat.and_zero _) (all_cons (show x / 2 ^ 5 % 2 ^ 6 &&& 63 = 0 from and_high (k := 0) 63 (by omega)) all_nil))
  · exact .inr (by omega)

theorem Sys2Proof.Laws.Encoding.frcp (s : BitVec 3) (d : BitVec 6) (a : BitVec 6) :
    Encoding.Statement (.frcp s d a) := by
  intro hwf
  have hs := s.isLt
  have hd := d.isLt
  have ha := a.isLt
  have ew : encode (.frcp s d a) = 0x64000009 + s.toNat * 2 ^ 23 + d.toNat * 2 ^ 17 + a.toNat * 2 ^ 11 := rfl
  generalize encode (.frcp s d a) = x at ew ⊢
  refine decode_of hwf ?_ ?_ ?_
  · rw [candidate, show x / 2 ^ 26 % 64 = 25 by omega]
    simp only []
    rw [minorFloat, show x % 32 = 9 by omega]
    simp only []
    rw [fld_eq 23 x s (by omega), fld_eq 17 x d (by omega), fld_eq 11 x a (by omega)]
  · rw [show Instr.operands (.frcp s d a) = [⟨17, 6, 0, .vdst, d.toNat⟩, ⟨11, 6, 0, .vsrc, a.toNat⟩, ⟨5, 6, 63, .zero, 0⟩] from rfl]
    exact all_cons (Nat.and_zero _) (all_cons (Nat.and_zero _) (all_cons (show x / 2 ^ 5 % 2 ^ 6 &&& 63 = 0 from and_high (k := 0) 63 (by omega)) all_nil))
  · exact .inl rfl

theorem Sys2Proof.Laws.Encoding.frsq (s : BitVec 3) (d : BitVec 6) (a : BitVec 6) :
    Encoding.Statement (.frsq s d a) := by
  intro hwf
  have hs := s.isLt
  have hd := d.isLt
  have ha := a.isLt
  have ew : encode (.frsq s d a) = 0x6400000a + s.toNat * 2 ^ 23 + d.toNat * 2 ^ 17 + a.toNat * 2 ^ 11 := rfl
  generalize encode (.frsq s d a) = x at ew ⊢
  refine decode_of hwf ?_ ?_ ?_
  · rw [candidate, show x / 2 ^ 26 % 64 = 25 by omega]
    simp only []
    rw [minorFloat, show x % 32 = 10 by omega]
    simp only []
    rw [fld_eq 23 x s (by omega), fld_eq 17 x d (by omega), fld_eq 11 x a (by omega)]
  · rw [show Instr.operands (.frsq s d a) = [⟨17, 6, 0, .vdst, d.toNat⟩, ⟨11, 6, 0, .vsrc, a.toNat⟩, ⟨5, 6, 63, .zero, 0⟩] from rfl]
    exact all_cons (Nat.and_zero _) (all_cons (Nat.and_zero _) (all_cons (show x / 2 ^ 5 % 2 ^ 6 &&& 63 = 0 from and_high (k := 0) 63 (by omega)) all_nil))
  · exact .inl rfl

theorem Sys2Proof.Laws.Encoding.fexp2 (s : BitVec 3) (d : BitVec 6) (a : BitVec 6) :
    Encoding.Statement (.fexp2 s d a) := by
  intro hwf
  have hs := s.isLt
  have hd := d.isLt
  have ha := a.isLt
  have ew : encode (.fexp2 s d a) = 0x6400000b + s.toNat * 2 ^ 23 + d.toNat * 2 ^ 17 + a.toNat * 2 ^ 11 := rfl
  generalize encode (.fexp2 s d a) = x at ew ⊢
  refine decode_of hwf ?_ ?_ ?_
  · rw [candidate, show x / 2 ^ 26 % 64 = 25 by omega]
    simp only []
    rw [minorFloat, show x % 32 = 11 by omega]
    simp only []
    rw [fld_eq 23 x s (by omega), fld_eq 17 x d (by omega), fld_eq 11 x a (by omega)]
  · rw [show Instr.operands (.fexp2 s d a) = [⟨17, 6, 0, .vdst, d.toNat⟩, ⟨11, 6, 0, .vsrc, a.toNat⟩, ⟨5, 6, 63, .zero, 0⟩] from rfl]
    exact all_cons (Nat.and_zero _) (all_cons (Nat.and_zero _) (all_cons (show x / 2 ^ 5 % 2 ^ 6 &&& 63 = 0 from and_high (k := 0) 63 (by omega)) all_nil))
  · exact .inl rfl

theorem Sys2Proof.Laws.Encoding.flog2 (s : BitVec 3) (d : BitVec 6) (a : BitVec 6) :
    Encoding.Statement (.flog2 s d a) := by
  intro hwf
  have hs := s.isLt
  have hd := d.isLt
  have ha := a.isLt
  have ew : encode (.flog2 s d a) = 0x6400000c + s.toNat * 2 ^ 23 + d.toNat * 2 ^ 17 + a.toNat * 2 ^ 11 := rfl
  generalize encode (.flog2 s d a) = x at ew ⊢
  refine decode_of hwf ?_ ?_ ?_
  · rw [candidate, show x / 2 ^ 26 % 64 = 25 by omega]
    simp only []
    rw [minorFloat, show x % 32 = 12 by omega]
    simp only []
    rw [fld_eq 23 x s (by omega), fld_eq 17 x d (by omega), fld_eq 11 x a (by omega)]
  · rw [show Instr.operands (.flog2 s d a) = [⟨17, 6, 0, .vdst, d.toNat⟩, ⟨11, 6, 0, .vsrc, a.toNat⟩, ⟨5, 6, 63, .zero, 0⟩] from rfl]
    exact all_cons (Nat.and_zero _) (all_cons (Nat.and_zero _) (all_cons (show x / 2 ^ 5 % 2 ^ 6 &&& 63 = 0 from and_high (k := 0) 63 (by omega)) all_nil))
  · exact .inl rfl

theorem Sys2Proof.Laws.Encoding.fdot2 (s : BitVec 3) (d : BitVec 6) (a : BitVec 6) (b : BitVec 6) :
    Encoding.Statement (.fdot2 s d a b) := by
  intro hwf
  have hs := s.isLt
  have hd := d.isLt
  have ha := a.isLt
  have hb := b.isLt
  have ew : encode (.fdot2 s d a b) = 0x6400000d + s.toNat * 2 ^ 23 + d.toNat * 2 ^ 17 + a.toNat * 2 ^ 11 + b.toNat * 2 ^ 5 := rfl
  generalize encode (.fdot2 s d a b) = x at ew ⊢
  refine decode_of hwf ?_ ?_ ?_
  · rw [candidate, show x / 2 ^ 26 % 64 = 25 by omega]
    simp only []
    rw [minorFloat, show x % 32 = 13 by omega]
    simp only []
    rw [fld_eq 23 x s (by omega), fld_eq 17 x d (by omega), fld_eq 11 x a (by omega), fld_eq 5 x b (by omega)]
  · rw [show Instr.operands (.fdot2 s d a b) = [⟨17, 6, 0, .vdst, d.toNat⟩, ⟨11, 6, 0, .vsrc, a.toNat⟩, ⟨5, 6, 0, .vsrc, b.toNat⟩] from rfl]
    exact all_cons (Nat.and_zero _) (all_cons (Nat.and_zero _) (all_cons (Nat.and_zero _) all_nil))
  · exact .inl rfl

theorem Sys2Proof.Laws.Encoding.fclass (s : BitVec 3) (d : BitVec 6) (a : BitVec 6) :
    Encoding.Statement (.fclass s d a) := by
  intro hwf
  have hs := s.isLt
  have hd := d.isLt
  have ha := a.isLt
  have ew : encode (.fclass s d a) = 0x6400000e + s.toNat * 2 ^ 23 + d.toNat * 2 ^ 17 + a.toNat * 2 ^ 11 := rfl
  generalize encode (.fclass s d a) = x at ew ⊢
  refine decode_of hwf ?_ ?_ ?_
  · rw [candidate, show x / 2 ^ 26 % 64 = 25 by omega]
    simp only []
    rw [minorFloat, show x % 32 = 14 by omega]
    simp only []
    rw [fld_eq 23 x s (by omega), fld_eq 17 x d (by omega), fld_eq 11 x a (by omega)]
  · rw [show Instr.operands (.fclass s d a) = [⟨17, 6, 0, .vdst, d.toNat⟩, ⟨11, 6, 0, .vsrc, a.toNat⟩, ⟨5, 6, 63, .zero, 0⟩] from rfl]
    exact all_cons (Nat.and_zero _) (all_cons (Nat.and_zero _) (all_cons (show x / 2 ^ 5 % 2 ^ 6 &&& 63 = 0 from and_high (k := 0) 63 (by omega)) all_nil))
  · exact .inl rfl

theorem Sys2Proof.Laws.Encoding.fcmpEq (s : BitVec 3) (d : BitVec 6) (a : BitVec 6) (b : BitVec 6) :
    Encoding.Statement (.fcmpEq s d a b) := by
  intro hwf
  have hs := s.isLt
  have hd := d.isLt
  have ha := a.isLt
  have hb := b.isLt
  have ew : encode (.fcmpEq s d a b) = 0x68000000 + s.toNat * 2 ^ 23 + d.toNat * 2 ^ 17 + a.toNat * 2 ^ 11 + b.toNat * 2 ^ 5 := rfl
  generalize encode (.fcmpEq s d a b) = x at ew ⊢
  refine decode_of hwf ?_ ?_ ?_
  · rw [candidate, show x / 2 ^ 26 % 64 = 26 by omega]
    simp only []
    rw [minorFcmp, show x % 32 = 0 by omega]
    simp only []
    rw [fld_eq 23 x s (by omega), fld_eq 17 x d (by omega), fld_eq 11 x a (by omega), fld_eq 5 x b (by omega)]
  · rw [show Instr.operands (.fcmpEq s d a b) = [⟨17, 6, 0, .pred, d.toNat⟩, ⟨11, 6, 0, .vsrc, a.toNat⟩, ⟨5, 6, 0, .vsrc, b.toNat⟩] from rfl]
    exact all_cons (Nat.and_zero _) (all_cons (Nat.and_zero _) (all_cons (Nat.and_zero _) all_nil))
  · exact .inl rfl

theorem Sys2Proof.Laws.Encoding.fcmpNe (s : BitVec 3) (d : BitVec 6) (a : BitVec 6) (b : BitVec 6) :
    Encoding.Statement (.fcmpNe s d a b) := by
  intro hwf
  have hs := s.isLt
  have hd := d.isLt
  have ha := a.isLt
  have hb := b.isLt
  have ew : encode (.fcmpNe s d a b) = 0x68000001 + s.toNat * 2 ^ 23 + d.toNat * 2 ^ 17 + a.toNat * 2 ^ 11 + b.toNat * 2 ^ 5 := rfl
  generalize encode (.fcmpNe s d a b) = x at ew ⊢
  refine decode_of hwf ?_ ?_ ?_
  · rw [candidate, show x / 2 ^ 26 % 64 = 26 by omega]
    simp only []
    rw [minorFcmp, show x % 32 = 1 by omega]
    simp only []
    rw [fld_eq 23 x s (by omega), fld_eq 17 x d (by omega), fld_eq 11 x a (by omega), fld_eq 5 x b (by omega)]
  · rw [show Instr.operands (.fcmpNe s d a b) = [⟨17, 6, 0, .pred, d.toNat⟩, ⟨11, 6, 0, .vsrc, a.toNat⟩, ⟨5, 6, 0, .vsrc, b.toNat⟩] from rfl]
    exact all_cons (Nat.and_zero _) (all_cons (Nat.and_zero _) (all_cons (Nat.and_zero _) all_nil))
  · exact .inl rfl

theorem Sys2Proof.Laws.Encoding.fcmpLt (s : BitVec 3) (d : BitVec 6) (a : BitVec 6) (b : BitVec 6) :
    Encoding.Statement (.fcmpLt s d a b) := by
  intro hwf
  have hs := s.isLt
  have hd := d.isLt
  have ha := a.isLt
  have hb := b.isLt
  have ew : encode (.fcmpLt s d a b) = 0x68000002 + s.toNat * 2 ^ 23 + d.toNat * 2 ^ 17 + a.toNat * 2 ^ 11 + b.toNat * 2 ^ 5 := rfl
  generalize encode (.fcmpLt s d a b) = x at ew ⊢
  refine decode_of hwf ?_ ?_ ?_
  · rw [candidate, show x / 2 ^ 26 % 64 = 26 by omega]
    simp only []
    rw [minorFcmp, show x % 32 = 2 by omega]
    simp only []
    rw [fld_eq 23 x s (by omega), fld_eq 17 x d (by omega), fld_eq 11 x a (by omega), fld_eq 5 x b (by omega)]
  · rw [show Instr.operands (.fcmpLt s d a b) = [⟨17, 6, 0, .pred, d.toNat⟩, ⟨11, 6, 0, .vsrc, a.toNat⟩, ⟨5, 6, 0, .vsrc, b.toNat⟩] from rfl]
    exact all_cons (Nat.and_zero _) (all_cons (Nat.and_zero _) (all_cons (Nat.and_zero _) all_nil))
  · exact .inl rfl

theorem Sys2Proof.Laws.Encoding.fcmpLe (s : BitVec 3) (d : BitVec 6) (a : BitVec 6) (b : BitVec 6) :
    Encoding.Statement (.fcmpLe s d a b) := by
  intro hwf
  have hs := s.isLt
  have hd := d.isLt
  have ha := a.isLt
  have hb := b.isLt
  have ew : encode (.fcmpLe s d a b) = 0x68000003 + s.toNat * 2 ^ 23 + d.toNat * 2 ^ 17 + a.toNat * 2 ^ 11 + b.toNat * 2 ^ 5 := rfl
  generalize encode (.fcmpLe s d a b) = x at ew ⊢
  refine decode_of hwf ?_ ?_ ?_
  · rw [candidate, show x / 2 ^ 26 % 64 = 26 by omega]
    simp only []
    rw [minorFcmp, show x % 32 = 3 by omega]
    simp only []
    rw [fld_eq 23 x s (by omega), fld_eq 17 x d (by omega), fld_eq 11 x a (by omega), fld_eq 5 x b (by omega)]
  · rw [show Instr.operands (.fcmpLe s d a b) = [⟨17, 6, 0, .pred, d.toNat⟩, ⟨11, 6, 0, .vsrc, a.toNat⟩, ⟨5, 6, 0, .vsrc, b.toNat⟩] from rfl]
    exact all_cons (Nat.and_zero _) (all_cons (Nat.and_zero _) (all_cons (Nat.and_zero _) all_nil))
  · exact .inl rfl

theorem Sys2Proof.Laws.Encoding.fcmpGt (s : BitVec 3) (d : BitVec 6) (a : BitVec 6) (b : BitVec 6) :
    Encoding.Statement (.fcmpGt s d a b) := by
  intro hwf
  have hs := s.isLt
  have hd := d.isLt
  have ha := a.isLt
  have hb := b.isLt
  have ew : encode (.fcmpGt s d a b) = 0x68000004 + s.toNat * 2 ^ 23 + d.toNat * 2 ^ 17 + a.toNat * 2 ^ 11 + b.toNat * 2 ^ 5 := rfl
  generalize encode (.fcmpGt s d a b) = x at ew ⊢
  refine decode_of hwf ?_ ?_ ?_
  · rw [candidate, show x / 2 ^ 26 % 64 = 26 by omega]
    simp only []
    rw [minorFcmp, show x % 32 = 4 by omega]
    simp only []
    rw [fld_eq 23 x s (by omega), fld_eq 17 x d (by omega), fld_eq 11 x a (by omega), fld_eq 5 x b (by omega)]
  · rw [show Instr.operands (.fcmpGt s d a b) = [⟨17, 6, 0, .pred, d.toNat⟩, ⟨11, 6, 0, .vsrc, a.toNat⟩, ⟨5, 6, 0, .vsrc, b.toNat⟩] from rfl]
    exact all_cons (Nat.and_zero _) (all_cons (Nat.and_zero _) (all_cons (Nat.and_zero _) all_nil))
  · exact .inl rfl

theorem Sys2Proof.Laws.Encoding.fcmpGe (s : BitVec 3) (d : BitVec 6) (a : BitVec 6) (b : BitVec 6) :
    Encoding.Statement (.fcmpGe s d a b) := by
  intro hwf
  have hs := s.isLt
  have hd := d.isLt
  have ha := a.isLt
  have hb := b.isLt
  have ew : encode (.fcmpGe s d a b) = 0x68000005 + s.toNat * 2 ^ 23 + d.toNat * 2 ^ 17 + a.toNat * 2 ^ 11 + b.toNat * 2 ^ 5 := rfl
  generalize encode (.fcmpGe s d a b) = x at ew ⊢
  refine decode_of hwf ?_ ?_ ?_
  · rw [candidate, show x / 2 ^ 26 % 64 = 26 by omega]
    simp only []
    rw [minorFcmp, show x % 32 = 5 by omega]
    simp only []
    rw [fld_eq 23 x s (by omega), fld_eq 17 x d (by omega), fld_eq 11 x a (by omega), fld_eq 5 x b (by omega)]
  · rw [show Instr.operands (.fcmpGe s d a b) = [⟨17, 6, 0, .pred, d.toNat⟩, ⟨11, 6, 0, .vsrc, a.toNat⟩, ⟨5, 6, 0, .vsrc, b.toNat⟩] from rfl]
    exact all_cons (Nat.and_zero _) (all_cons (Nat.and_zero _) (all_cons (Nat.and_zero _) all_nil))
  · exact .inl rfl

theorem Sys2Proof.Laws.Encoding.fcmpUn (s : BitVec 3) (d : BitVec 6) (a : BitVec 6) (b : BitVec 6) :
    Encoding.Statement (.fcmpUn s d a b) := by
  intro hwf
  have hs := s.isLt
  have hd := d.isLt
  have ha := a.isLt
  have hb := b.isLt
  have ew : encode (.fcmpUn s d a b) = 0x68000006 + s.toNat * 2 ^ 23 + d.toNat * 2 ^ 17 + a.toNat * 2 ^ 11 + b.toNat * 2 ^ 5 := rfl
  generalize encode (.fcmpUn s d a b) = x at ew ⊢
  refine decode_of hwf ?_ ?_ ?_
  · rw [candidate, show x / 2 ^ 26 % 64 = 26 by omega]
    simp only []
    rw [minorFcmp, show x % 32 = 6 by omega]
    simp only []
    rw [fld_eq 23 x s (by omega), fld_eq 17 x d (by omega), fld_eq 11 x a (by omega), fld_eq 5 x b (by omega)]
  · rw [show Instr.operands (.fcmpUn s d a b) = [⟨17, 6, 0, .pred, d.toNat⟩, ⟨11, 6, 0, .vsrc, a.toNat⟩, ⟨5, 6, 0, .vsrc, b.toNat⟩] from rfl]
    exact all_cons (Nat.and_zero _) (all_cons (Nat.and_zero _) (all_cons (Nat.and_zero _) all_nil))
  · exact .inl rfl

theorem Sys2Proof.Laws.Encoding.fcmpOr (s : BitVec 3) (d : BitVec 6) (a : BitVec 6) (b : BitVec 6) :
    Encoding.Statement (.fcmpOr s d a b) := by
  intro hwf
  have hs := s.isLt
  have hd := d.isLt
  have ha := a.isLt
  have hb := b.isLt
  have ew : encode (.fcmpOr s d a b) = 0x68000007 + s.toNat * 2 ^ 23 + d.toNat * 2 ^ 17 + a.toNat * 2 ^ 11 + b.toNat * 2 ^ 5 := rfl
  generalize encode (.fcmpOr s d a b) = x at ew ⊢
  refine decode_of hwf ?_ ?_ ?_
  · rw [candidate, show x / 2 ^ 26 % 64 = 26 by omega]
    simp only []
    rw [minorFcmp, show x % 32 = 7 by omega]
    simp only []
    rw [fld_eq 23 x s (by omega), fld_eq 17 x d (by omega), fld_eq 11 x a (by omega), fld_eq 5 x b (by omega)]
  · rw [show Instr.operands (.fcmpOr s d a b) = [⟨17, 6, 0, .pred, d.toNat⟩, ⟨11, 6, 0, .vsrc, a.toNat⟩, ⟨5, 6, 0, .vsrc, b.toNat⟩] from rfl]
    exact all_cons (Nat.and_zero _) (all_cons (Nat.and_zero _) (all_cons (Nat.and_zero _) all_nil))
  · exact .inl rfl

theorem Sys2Proof.Laws.Encoding.fcvt (s : BitVec 3) (d : BitVec 6) (a : BitVec 6) (e : BitVec 4) :
    Encoding.Statement (.fcvt s d a e) := by
  intro hwf
  have hs := s.isLt
  have hd := d.isLt
  have ha := a.isLt
  have he := e.isLt
  have ew : encode (.fcvt s d a e) = 0x6c000000 + s.toNat * 2 ^ 23 + d.toNat * 2 ^ 17 + a.toNat * 2 ^ 11 + e.toNat * 2 ^ 0 := rfl
  generalize encode (.fcvt s d a e) = x at ew ⊢
  refine decode_of hwf ?_ ?_ ?_
  · rw [candidate, show x / 2 ^ 26 % 64 = 27 by omega]
    simp only []
    rw [fld_eq 23 x s (by omega), fld_eq 17 x d (by omega), fld_eq 11 x a (by omega), fld_eq 0 x e (by omega)]
  · rw [show Instr.operands (.fcvt s d a e) = [⟨17, 6, 0, .vdst, d.toNat⟩, ⟨11, 6, 0, .vsrc, a.toNat⟩, ⟨5, 6, 63, .zero, 0⟩, ⟨4, 1, 1, .zero, 0⟩, ⟨0, 4, 0, .imm 0 10, e.toNat⟩] from rfl]
    exact all_cons (Nat.and_zero _) (all_cons (Nat.and_zero _) (all_cons (show x / 2 ^ 5 % 2 ^ 6 &&& 63 = 0 from and_high (k := 0) 63 (by omega)) (all_cons (show x / 2 ^ 4 % 2 ^ 1 &&& 1 = 0 from and_high (k := 0) 1 (by omega)) (all_cons (Nat.and_zero _) all_nil))))
  · exact .inl rfl

theorem Sys2Proof.Laws.Encoding.sxpk (s : BitVec 3) (d : BitVec 6) (a : BitVec 6) (l : BitVec 1) (f : BitVec 2) :
    Encoding.Statement (.sxpk s d a l f) := by
  intro hwf
  have hs := s.isLt
  have hd := d.isLt
  have ha := a.isLt
  have hl := l.isLt
  have hf := f.isLt
  have ew : encode (.sxpk s d a l f) = 0x70000000 + s.toNat * 2 ^ 23 + d.toNat * 2 ^ 17 + a.toNat * 2 ^ 11 + l.toNat * 2 ^ 2 + f.toNat * 2 ^ 0 := rfl
  generalize encode (.sxpk s d a l f) = x at ew ⊢
  have hm : f.toNat < 3 := by simpa [Instr.badMinor] using minor_of hwf
  refine decode_of hwf ?_ ?_ ?_
  · rw [candidate, show x / 2 ^ 26 % 64 = 28 by omega]
    simp only []
    rw [minorBlocks, show x / 8 % 4 = 0 by omega]
    simp only []
    rw [if_neg (show ¬ 3 ≤ x % 4 by omega), fld_eq 23 x s (by omega), fld_eq 17 x d (by omega), fld_eq 11 x a (by omega), fld_eq 2 x l (by omega), fld_eq 0 x f (by omega)]
  · rw [show Instr.operands (.sxpk s d a l f) = [⟨17, 6, 0, .vdst, d.toNat⟩, ⟨11, 6, 0, .vsrc, a.toNat⟩, ⟨5, 6, 63, .zero, 0⟩] from rfl]
    exact all_cons (Nat.and_zero _) (all_cons (Nat.and_zero _) (all_cons (show x / 2 ^ 5 % 2 ^ 6 &&& 63 = 0 from and_high (k := 0) 63 (by omega)) all_nil))
  · exact .inl rfl

theorem Sys2Proof.Laws.Encoding.sxupk (s : BitVec 3) (d : BitVec 6) (a : BitVec 6) (l : BitVec 1) (f : BitVec 2) :
    Encoding.Statement (.sxupk s d a l f) := by
  intro hwf
  have hs := s.isLt
  have hd := d.isLt
  have ha := a.isLt
  have hl := l.isLt
  have hf := f.isLt
  have ew : encode (.sxupk s d a l f) = 0x70000008 + s.toNat * 2 ^ 23 + d.toNat * 2 ^ 17 + a.toNat * 2 ^ 11 + l.toNat * 2 ^ 2 + f.toNat * 2 ^ 0 := rfl
  generalize encode (.sxupk s d a l f) = x at ew ⊢
  have hm : f.toNat < 3 := by simpa [Instr.badMinor] using minor_of hwf
  refine decode_of hwf ?_ ?_ ?_
  · rw [candidate, show x / 2 ^ 26 % 64 = 28 by omega]
    simp only []
    rw [minorBlocks, show x / 8 % 4 = 1 by omega]
    simp only []
    rw [if_neg (show ¬ 3 ≤ x % 4 by omega), fld_eq 23 x s (by omega), fld_eq 17 x d (by omega), fld_eq 11 x a (by omega), fld_eq 2 x l (by omega), fld_eq 0 x f (by omega)]
  · rw [show Instr.operands (.sxupk s d a l f) = [⟨17, 6, 0, .vdst, d.toNat⟩, ⟨11, 6, 0, .vsrc, a.toNat⟩, ⟨5, 6, 63, .zero, 0⟩] from rfl]
    exact all_cons (Nat.and_zero _) (all_cons (Nat.and_zero _) (all_cons (show x / 2 ^ 5 % 2 ^ 6 &&& 63 = 0 from and_high (k := 0) 63 (by omega)) all_nil))
  · exact .inl rfl

theorem Sys2Proof.Laws.Encoding.zpk (s : BitVec 3) (d : BitVec 6) (a : BitVec 6) (l : BitVec 1) (f : BitVec 2) :
    Encoding.Statement (.zpk s d a l f) := by
  intro hwf
  have hs := s.isLt
  have hd := d.isLt
  have ha := a.isLt
  have hl := l.isLt
  have hf := f.isLt
  have ew : encode (.zpk s d a l f) = 0x70000010 + s.toNat * 2 ^ 23 + d.toNat * 2 ^ 17 + a.toNat * 2 ^ 11 + l.toNat * 2 ^ 2 + f.toNat * 2 ^ 0 := rfl
  generalize encode (.zpk s d a l f) = x at ew ⊢
  have hm : f.toNat < 2 := by simpa [Instr.badMinor] using minor_of hwf
  refine decode_of hwf ?_ ?_ ?_
  · rw [candidate, show x / 2 ^ 26 % 64 = 28 by omega]
    simp only []
    rw [minorBlocks, show x / 8 % 4 = 2 by omega]
    simp only []
    rw [if_neg (show ¬ 2 ≤ x % 4 by omega), fld_eq 23 x s (by omega), fld_eq 17 x d (by omega), fld_eq 11 x a (by omega), fld_eq 2 x l (by omega), fld_eq 0 x f (by omega)]
  · rw [show Instr.operands (.zpk s d a l f) = [⟨17, 6, 0, .vdst, d.toNat⟩, ⟨11, 6, 0, .vsrc, a.toNat⟩, ⟨5, 6, 63, .zero, 0⟩] from rfl]
    exact all_cons (Nat.and_zero _) (all_cons (Nat.and_zero _) (all_cons (show x / 2 ^ 5 % 2 ^ 6 &&& 63 = 0 from and_high (k := 0) 63 (by omega)) all_nil))
  · exact .inl rfl

theorem Sys2Proof.Laws.Encoding.zupk (s : BitVec 3) (d : BitVec 6) (a : BitVec 6) (l : BitVec 1) (f : BitVec 2) :
    Encoding.Statement (.zupk s d a l f) := by
  intro hwf
  have hs := s.isLt
  have hd := d.isLt
  have ha := a.isLt
  have hl := l.isLt
  have hf := f.isLt
  have ew : encode (.zupk s d a l f) = 0x70000018 + s.toNat * 2 ^ 23 + d.toNat * 2 ^ 17 + a.toNat * 2 ^ 11 + l.toNat * 2 ^ 2 + f.toNat * 2 ^ 0 := rfl
  generalize encode (.zupk s d a l f) = x at ew ⊢
  have hm : f.toNat < 2 := by simpa [Instr.badMinor] using minor_of hwf
  refine decode_of hwf ?_ ?_ ?_
  · rw [candidate, show x / 2 ^ 26 % 64 = 28 by omega]
    simp only []
    rw [minorBlocks, show x / 8 % 4 = 3 by omega]
    simp only []
    rw [if_neg (show ¬ 2 ≤ x % 4 by omega), fld_eq 23 x s (by omega), fld_eq 17 x d (by omega), fld_eq 11 x a (by omega), fld_eq 2 x l (by omega), fld_eq 0 x f (by omega)]
  · rw [show Instr.operands (.zupk s d a l f) = [⟨17, 6, 0, .vdst, d.toNat⟩, ⟨11, 6, 0, .vsrc, a.toNat⟩, ⟨5, 6, 63, .zero, 0⟩] from rfl]
    exact all_cons (Nat.and_zero _) (all_cons (Nat.and_zero _) (all_cons (show x / 2 ^ 5 % 2 ^ 6 &&& 63 = 0 from and_high (k := 0) 63 (by omega)) all_nil))
  · exact .inl rfl

theorem Sys2Proof.Laws.Encoding.evrd (d : BitVec 6) (c : BitVec 6) :
    Encoding.Statement (.evrd d c) := by
  intro hwf
  have hd := d.isLt
  have hc := c.isLt
  have ew : encode (.evrd d c) = 0x74000000 + d.toNat * 2 ^ 17 + c.toNat * 2 ^ 5 := rfl
  generalize encode (.evrd d c) = x at ew ⊢
  refine decode_of hwf ?_ ?_ ?_
  · rw [candidate, show x / 2 ^ 26 % 64 = 29 by omega]
    simp only []
    rw [minorEvents, show x % 32 = 0 by omega]
    simp only []
    rw [fld_eq 17 x d (by omega), fld_eq 5 x c (by omega)]
  · rw [show Instr.operands (.evrd d c) = [⟨17, 6, 0, .vdst, d.toNat⟩, ⟨11, 6, 63, .zero, 0⟩, ⟨5, 6, 0, .imm 0 5, c.toNat⟩] from rfl]
    exact all_cons (Nat.and_zero _) (all_cons (show x / 2 ^ 11 % 2 ^ 6 &&& 63 = 0 from and_high (k := 0) 63 (by omega)) (all_cons (Nat.and_zero _) all_nil))
  · exact .inr (by omega)

theorem Sys2Proof.Laws.Encoding.evclr (c : BitVec 6) :
    Encoding.Statement (.evclr c) := by
  intro hwf
  have hc := c.isLt
  have ew : encode (.evclr c) = 0x74000001 + c.toNat * 2 ^ 5 := rfl
  generalize encode (.evclr c) = x at ew ⊢
  refine decode_of hwf ?_ ?_ ?_
  · rw [candidate, show x / 2 ^ 26 % 64 = 29 by omega]
    simp only []
    rw [minorEvents, show x % 32 = 1 by omega]
    simp only []
    rw [fld_eq 5 x c (by omega)]
  · rw [show Instr.operands (.evclr c) = [⟨17, 6, 63, .zero, 0⟩, ⟨11, 6, 63, .zero, 0⟩, ⟨5, 6, 0, .imm 0 6, c.toNat⟩] from rfl]
    exact all_cons (show x / 2 ^ 17 % 2 ^ 6 &&& 63 = 0 from and_high (k := 0) 63 (by omega)) (all_cons (show x / 2 ^ 11 % 2 ^ 6 &&& 63 = 0 from and_high (k := 0) 63 (by omega)) (all_cons (Nat.and_zero _) all_nil))
  · exact .inr (by omega)

theorem Sys2Proof.Laws.Encoding.rds (s : BitVec 3) (d : BitVec 6) (n : BitVec 12) :
    Encoding.Statement (.rds s d n) := by
  intro hwf
  have hs := s.isLt
  have hd := d.isLt
  have hn := n.isLt
  have ew : encode (.rds s d n) = 0x78000000 + s.toNat * 2 ^ 23 + d.toNat * 2 ^ 17 + n.toNat * 2 ^ 0 := rfl
  generalize encode (.rds s d n) = x at ew ⊢
  refine decode_of hwf ?_ ?_ ?_
  · rw [candidate, show x / 2 ^ 26 % 64 = 30 by omega]
    simp only []
    rw [fld_eq 23 x s (by omega), fld_eq 17 x d (by omega), fld_eq 0 x n (by omega)]
  · rw [show Instr.operands (.rds s d n) = [⟨17, 6, 0, (if specialWide n.toNat then .pair else .vdst), d.toNat⟩, ⟨0, 17, 126976, .special, n.toNat⟩] from rfl]
    exact all_cons (Nat.and_zero _) (all_cons (show x / 2 ^ 0 % 2 ^ 17 &&& 126976 = 0 from and_high (k := 12) 31 (by omega)) all_nil)
  · exact .inl rfl

theorem Sys2Proof.Laws.Encoding.wrs (s : BitVec 3) (d : BitVec 6) (n : BitVec 12) :
    Encoding.Statement (.wrs s d n) := by
  intro hwf
  have hs := s.isLt
  have hd := d.isLt
  have hn := n.isLt
  have ew : encode (.wrs s d n) = 0x7c000000 + s.toNat * 2 ^ 23 + d.toNat * 2 ^ 17 + n.toNat * 2 ^ 0 := rfl
  generalize encode (.wrs s d n) = x at ew ⊢
  refine decode_of hwf ?_ ?_ ?_
  · rw [candidate, show x / 2 ^ 26 % 64 = 31 by omega]
    simp only []
    rw [fld_eq 23 x s (by omega), fld_eq 17 x d (by omega), fld_eq 0 x n (by omega)]
  · rw [show Instr.operands (.wrs s d n) = [⟨17, 6, 0, (if specialWide n.toNat then .pair else .vsrc), d.toNat⟩, ⟨0, 17, 126976, .specialRw, n.toNat⟩] from rfl]
    exact all_cons (Nat.and_zero _) (all_cons (show x / 2 ^ 0 % 2 ^ 17 &&& 126976 = 0 from and_high (k := 12) 31 (by omega)) all_nil)
  · exact .inl rfl

theorem Sys2Proof.Laws.Encoding.pub (a : BitVec 6) (j : BitVec 6) :
    Encoding.Statement (.pub a j) := by
  intro hwf
  have ha := a.isLt
  have hj := j.isLt
  have ew : encode (.pub a j) = 0x80000000 + a.toNat * 2 ^ 11 + j.toNat * 2 ^ 5 := rfl
  generalize encode (.pub a j) = x at ew ⊢
  refine decode_of hwf ?_ ?_ ?_
  · rw [candidate, show x / 2 ^ 26 % 64 = 32 by omega]
    simp only []
    rw [minorPublish, show x % 32 = 0 by omega]
    simp only []
    rw [fld_eq 11 x a (by omega), fld_eq 5 x j (by omega)]
  · rw [show Instr.operands (.pub a j) = [⟨17, 6, 63, .zero, 0⟩, ⟨11, 6, 0, .vsrc, a.toNat⟩, ⟨5, 6, 0, .imm 0 3, j.toNat⟩] from rfl]
    exact all_cons (show x / 2 ^ 17 % 2 ^ 6 &&& 63 = 0 from and_high (k := 0) 63 (by omega)) (all_cons (Nat.and_zero _) (all_cons (Nat.and_zero _) all_nil))
  · exact .inr (by omega)

theorem Sys2Proof.Laws.Encoding.cdef (d : BitVec 6) (j : BitVec 2) (k : BitVec 10) :
    Encoding.Statement (.cdef d j k) := by
  intro hwf
  have hd := d.isLt
  have hj := j.isLt
  have hk := k.isLt
  have ew : encode (.cdef d j k) = 0x84000000 + d.toNat * 2 ^ 17 + j.toNat * 2 ^ 11 + k.toNat * 2 ^ 0 := rfl
  generalize encode (.cdef d j k) = x at ew ⊢
  refine decode_of hwf ?_ ?_ ?_
  · rw [candidate, show x / 2 ^ 26 % 64 = 33 by omega]
    simp only []
    rw [fld_eq 17 x d (by omega), fld_eq 11 x j (by omega), fld_eq 0 x k (by omega)]
  · rw [show Instr.operands (.cdef d j k) = [⟨17, 6, 0, .vdst, d.toNat⟩, ⟨11, 6, 60, .free, j.toNat⟩, ⟨0, 11, 1024, .free, k.toNat⟩] from rfl]
    exact all_cons (Nat.and_zero _) (all_cons (show x / 2 ^ 11 % 2 ^ 6 &&& 60 = 0 from and_high (k := 2) 15 (by omega)) (all_cons (show x / 2 ^ 0 % 2 ^ 11 &&& 1024 = 0 from and_high (k := 10) 1 (by omega)) all_nil))
  · exact .inr (by omega)

theorem Sys2Proof.Laws.Encoding.borX (d : BitVec 6) (a : BitVec 6) (b : BitVec 6) :
    Encoding.Statement (.borX d a b) := by
  intro hwf
  have hd := d.isLt
  have ha := a.isLt
  have hb := b.isLt
  have ew : encode (.borX d a b) = 0x88000000 + d.toNat * 2 ^ 17 + a.toNat * 2 ^ 11 + b.toNat * 2 ^ 5 := rfl
  generalize encode (.borX d a b) = x at ew ⊢
  refine decode_of hwf ?_ ?_ ?_
  · rw [candidate, show x / 2 ^ 26 % 64 = 34 by omega]
    simp only []
    rw [minorBorrow, show x % 32 = 0 by omega]
    simp only []
    rw [fld_eq 17 x d (by omega), fld_eq 11 x a (by omega), fld_eq 5 x b (by omega)]
  · rw [show Instr.operands (.borX d a b) = [⟨17, 6, 0, .vdst, d.toNat⟩, ⟨11, 6, 0, .quad, a.toNat⟩, ⟨5, 6, 0, .region, b.toNat⟩] from rfl]
    exact all_cons (Nat.and_zero _) (all_cons (Nat.and_zero _) (all_cons (Nat.and_zero _) all_nil))
  · exact .inr (by omega)

theorem Sys2Proof.Laws.Encoding.borS (d : BitVec 6) (a : BitVec 6) (b : BitVec 6) :
    Encoding.Statement (.borS d a b) := by
  intro hwf
  have hd := d.isLt
  have ha := a.isLt
  have hb := b.isLt
  have ew : encode (.borS d a b) = 0x88000001 + d.toNat * 2 ^ 17 + a.toNat * 2 ^ 11 + b.toNat * 2 ^ 5 := rfl
  generalize encode (.borS d a b) = x at ew ⊢
  refine decode_of hwf ?_ ?_ ?_
  · rw [candidate, show x / 2 ^ 26 % 64 = 34 by omega]
    simp only []
    rw [minorBorrow, show x % 32 = 1 by omega]
    simp only []
    rw [fld_eq 17 x d (by omega), fld_eq 11 x a (by omega), fld_eq 5 x b (by omega)]
  · rw [show Instr.operands (.borS d a b) = [⟨17, 6, 0, .vdst, d.toNat⟩, ⟨11, 6, 0, .quad, a.toNat⟩, ⟨5, 6, 0, .region, b.toNat⟩] from rfl]
    exact all_cons (Nat.and_zero _) (all_cons (Nat.and_zero _) (all_cons (Nat.and_zero _) all_nil))
  · exact .inr (by omega)

theorem Sys2Proof.Laws.Encoding.borC (d : BitVec 6) (a : BitVec 6) (b : BitVec 6) :
    Encoding.Statement (.borC d a b) := by
  intro hwf
  have hd := d.isLt
  have ha := a.isLt
  have hb := b.isLt
  have ew : encode (.borC d a b) = 0x88000002 + d.toNat * 2 ^ 17 + a.toNat * 2 ^ 11 + b.toNat * 2 ^ 5 := rfl
  generalize encode (.borC d a b) = x at ew ⊢
  refine decode_of hwf ?_ ?_ ?_
  · rw [candidate, show x / 2 ^ 26 % 64 = 34 by omega]
    simp only []
    rw [minorBorrow, show x % 32 = 2 by omega]
    simp only []
    rw [fld_eq 17 x d (by omega), fld_eq 11 x a (by omega), fld_eq 5 x b (by omega)]
  · rw [show Instr.operands (.borC d a b) = [⟨17, 6, 0, .vdst, d.toNat⟩, ⟨11, 6, 0, .quad, a.toNat⟩, ⟨5, 6, 0, .region, b.toNat⟩] from rfl]
    exact all_cons (Nat.and_zero _) (all_cons (Nat.and_zero _) (all_cons (Nat.and_zero _) all_nil))
  · exact .inr (by omega)

theorem Sys2Proof.Laws.Encoding.borXW (d : BitVec 6) (a : BitVec 6) (b : BitVec 6) :
    Encoding.Statement (.borXW d a b) := by
  intro hwf
  have hd := d.isLt
  have ha := a.isLt
  have hb := b.isLt
  have ew : encode (.borXW d a b) = 0x88000004 + d.toNat * 2 ^ 17 + a.toNat * 2 ^ 11 + b.toNat * 2 ^ 5 := rfl
  generalize encode (.borXW d a b) = x at ew ⊢
  refine decode_of hwf ?_ ?_ ?_
  · rw [candidate, show x / 2 ^ 26 % 64 = 34 by omega]
    simp only []
    rw [minorBorrow, show x % 32 = 4 by omega]
    simp only []
    rw [fld_eq 17 x d (by omega), fld_eq 11 x a (by omega), fld_eq 5 x b (by omega)]
  · rw [show Instr.operands (.borXW d a b) = [⟨17, 6, 0, .vdst, d.toNat⟩, ⟨11, 6, 0, .quad, a.toNat⟩, ⟨5, 6, 0, .region, b.toNat⟩] from rfl]
    exact all_cons (Nat.and_zero _) (all_cons (Nat.and_zero _) (all_cons (Nat.and_zero _) all_nil))
  · exact .inr (by omega)

theorem Sys2Proof.Laws.Encoding.borSW (d : BitVec 6) (a : BitVec 6) (b : BitVec 6) :
    Encoding.Statement (.borSW d a b) := by
  intro hwf
  have hd := d.isLt
  have ha := a.isLt
  have hb := b.isLt
  have ew : encode (.borSW d a b) = 0x88000005 + d.toNat * 2 ^ 17 + a.toNat * 2 ^ 11 + b.toNat * 2 ^ 5 := rfl
  generalize encode (.borSW d a b) = x at ew ⊢
  refine decode_of hwf ?_ ?_ ?_
  · rw [candidate, show x / 2 ^ 26 % 64 = 34 by omega]
    simp only []
    rw [minorBorrow, show x % 32 = 5 by omega]
    simp only []
    rw [fld_eq 17 x d (by omega), fld_eq 11 x a (by omega), fld_eq 5 x b (by omega)]
  · rw [show Instr.operands (.borSW d a b) = [⟨17, 6, 0, .vdst, d.toNat⟩, ⟨11, 6, 0, .quad, a.toNat⟩, ⟨5, 6, 0, .region, b.toNat⟩] from rfl]
    exact all_cons (Nat.and_zero _) (all_cons (Nat.and_zero _) (all_cons (Nat.and_zero _) all_nil))
  · exact .inr (by omega)

theorem Sys2Proof.Laws.Encoding.borCW (d : BitVec 6) (a : BitVec 6) (b : BitVec 6) :
    Encoding.Statement (.borCW d a b) := by
  intro hwf
  have hd := d.isLt
  have ha := a.isLt
  have hb := b.isLt
  have ew : encode (.borCW d a b) = 0x88000006 + d.toNat * 2 ^ 17 + a.toNat * 2 ^ 11 + b.toNat * 2 ^ 5 := rfl
  generalize encode (.borCW d a b) = x at ew ⊢
  refine decode_of hwf ?_ ?_ ?_
  · rw [candidate, show x / 2 ^ 26 % 64 = 34 by omega]
    simp only []
    rw [minorBorrow, show x % 32 = 6 by omega]
    simp only []
    rw [fld_eq 17 x d (by omega), fld_eq 11 x a (by omega), fld_eq 5 x b (by omega)]
  · rw [show Instr.operands (.borCW d a b) = [⟨17, 6, 0, .vdst, d.toNat⟩, ⟨11, 6, 0, .quad, a.toNat⟩, ⟨5, 6, 0, .region, b.toNat⟩] from rfl]
    exact all_cons (Nat.and_zero _) (all_cons (Nat.and_zero _) (all_cons (Nat.and_zero _) all_nil))
  · exact .inr (by omega)

theorem Sys2Proof.Laws.Encoding.bdown (b : BitVec 6) :
    Encoding.Statement (.bdown b) := by
  intro hwf
  have hb := b.isLt
  have ew : encode (.bdown b) = 0x88000008 + b.toNat * 2 ^ 5 := rfl
  generalize encode (.bdown b) = x at ew ⊢
  refine decode_of hwf ?_ ?_ ?_
  · rw [candidate, show x / 2 ^ 26 % 64 = 34 by omega]
    simp only []
    rw [minorBorrow, show x % 32 = 8 by omega]
    simp only []
    rw [fld_eq 5 x b (by omega)]
  · rw [show Instr.operands (.bdown b) = [⟨17, 6, 63, .zero, 0⟩, ⟨11, 6, 63, .zero, 0⟩, ⟨5, 6, 0, .region, b.toNat⟩] from rfl]
    exact all_cons (show x / 2 ^ 17 % 2 ^ 6 &&& 63 = 0 from and_high (k := 0) 63 (by omega)) (all_cons (show x / 2 ^ 11 % 2 ^ 6 &&& 63 = 0 from and_high (k := 0) 63 (by omega)) (all_cons (Nat.and_zero _) all_nil))
  · exact .inr (by omega)

theorem Sys2Proof.Laws.Encoding.bup (d : BitVec 6) (b : BitVec 6) :
    Encoding.Statement (.bup d b) := by
  intro hwf
  have hd := d.isLt
  have hb := b.isLt
  have ew : encode (.bup d b) = 0x88000009 + d.toNat * 2 ^ 17 + b.toNat * 2 ^ 5 := rfl
  generalize encode (.bup d b) = x at ew ⊢
  refine decode_of hwf ?_ ?_ ?_
  · rw [candidate, show x / 2 ^ 26 % 64 = 34 by omega]
    simp only []
    rw [minorBorrow, show x % 32 = 9 by omega]
    simp only []
    rw [fld_eq 17 x d (by omega), fld_eq 5 x b (by omega)]
  · rw [show Instr.operands (.bup d b) = [⟨17, 6, 0, .vdst, d.toNat⟩, ⟨11, 6, 63, .zero, 0⟩, ⟨5, 6, 0, .region, b.toNat⟩] from rfl]
    exact all_cons (Nat.and_zero _) (all_cons (show x / 2 ^ 11 % 2 ^ 6 &&& 63 = 0 from and_high (k := 0) 63 (by omega)) (all_cons (Nat.and_zero _) all_nil))
  · exact .inr (by omega)

theorem Sys2Proof.Laws.Encoding.bsplit (d : BitVec 6) (a : BitVec 6) (b : BitVec 6) :
    Encoding.Statement (.bsplit d a b) := by
  intro hwf
  have hd := d.isLt
  have ha := a.isLt
  have hb := b.isLt
  have ew : encode (.bsplit d a b) = 0x8800000a + d.toNat * 2 ^ 17 + a.toNat * 2 ^ 11 + b.toNat * 2 ^ 5 := rfl
  generalize encode (.bsplit d a b) = x at ew ⊢
  refine decode_of hwf ?_ ?_ ?_
  · rw [candidate, show x / 2 ^ 26 % 64 = 34 by omega]
    simp only []
    rw [minorBorrow, show x % 32 = 10 by omega]
    simp only []
    rw [fld_eq 17 x d (by omega), fld_eq 11 x a (by omega), fld_eq 5 x b (by omega)]
  · rw [show Instr.operands (.bsplit d a b) = [⟨17, 6, 0, .region, d.toNat⟩, ⟨11, 6, 0, .vsrc, a.toNat⟩, ⟨5, 6, 0, (.regionNe d.toNat), b.toNat⟩] from rfl]
    exact all_cons (Nat.and_zero _) (all_cons (Nat.and_zero _) (all_cons (Nat.and_zero _) all_nil))
  · exact .inr (by omega)

theorem Sys2Proof.Laws.Encoding.bjoin (d : BitVec 6) (b : BitVec 6) :
    Encoding.Statement (.bjoin d b) := by
  intro hwf
  have hd := d.isLt
  have hb := b.isLt
  have ew : encode (.bjoin d b) = 0x8800000b + d.toNat * 2 ^ 17 + b.toNat * 2 ^ 5 := rfl
  generalize encode (.bjoin d b) = x at ew ⊢
  refine decode_of hwf ?_ ?_ ?_
  · rw [candidate, show x / 2 ^ 26 % 64 = 34 by omega]
    simp only []
    rw [minorBorrow, show x % 32 = 11 by omega]
    simp only []
    rw [fld_eq 17 x d (by omega), fld_eq 5 x b (by omega)]
  · rw [show Instr.operands (.bjoin d b) = [⟨17, 6, 0, .region, d.toNat⟩, ⟨11, 6, 63, .zero, 0⟩, ⟨5, 6, 0, (.regionNe d.toNat), b.toNat⟩] from rfl]
    exact all_cons (Nat.and_zero _) (all_cons (show x / 2 ^ 11 % 2 ^ 6 &&& 63 = 0 from and_high (k := 0) 63 (by omega)) (all_cons (Nat.and_zero _) all_nil))
  · exact .inr (by omega)

theorem Sys2Proof.Laws.Encoding.bhand (a : BitVec 6) (b : BitVec 6) :
    Encoding.Statement (.bhand a b) := by
  intro hwf
  have ha := a.isLt
  have hb := b.isLt
  have ew : encode (.bhand a b) = 0x8800000c + a.toNat * 2 ^ 11 + b.toNat * 2 ^ 5 := rfl
  generalize encode (.bhand a b) = x at ew ⊢
  refine decode_of hwf ?_ ?_ ?_
  · rw [candidate, show x / 2 ^ 26 % 64 = 34 by omega]
    simp only []
    rw [minorBorrow, show x % 32 = 12 by omega]
    simp only []
    rw [fld_eq 11 x a (by omega), fld_eq 5 x b (by omega)]
  · rw [show Instr.operands (.bhand a b) = [⟨17, 6, 63, .zero, 0⟩, ⟨11, 6, 0, .vsrc, a.toNat⟩, ⟨5, 6, 0, .region, b.toNat⟩] from rfl]
    exact all_cons (show x / 2 ^ 17 % 2 ^ 6 &&& 63 = 0 from and_high (k := 0) 63 (by omega)) (all_cons (Nat.and_zero _) (all_cons (Nat.and_zero _) all_nil))
  · exact .inr (by omega)

theorem Sys2Proof.Laws.Encoding.bret (b : BitVec 6) :
    Encoding.Statement (.bret b) := by
  intro hwf
  have hb := b.isLt
  have ew : encode (.bret b) = 0x8800000d + b.toNat * 2 ^ 5 := rfl
  generalize encode (.bret b) = x at ew ⊢
  refine decode_of hwf ?_ ?_ ?_
  · rw [candidate, show x / 2 ^ 26 % 64 = 34 by omega]
    simp only []
    rw [minorBorrow, show x % 32 = 13 by omega]
    simp only []
    rw [fld_eq 5 x b (by omega)]
  · rw [show Instr.operands (.bret b) = [⟨17, 6, 63, .zero, 0⟩, ⟨11, 6, 63, .zero, 0⟩, ⟨5, 6, 0, .region, b.toNat⟩] from rfl]
    exact all_cons (show x / 2 ^ 17 % 2 ^ 6 &&& 63 = 0 from and_high (k := 0) 63 (by omega)) (all_cons (show x / 2 ^ 11 % 2 ^ 6 &&& 63 = 0 from and_high (k := 0) 63 (by omega)) (all_cons (Nat.and_zero _) all_nil))
  · exact .inr (by omega)

theorem Sys2Proof.Laws.Encoding.bquery (d : BitVec 6) (b : BitVec 6) :
    Encoding.Statement (.bquery d b) := by
  intro hwf
  have hd := d.isLt
  have hb := b.isLt
  have ew : encode (.bquery d b) = 0x8800000e + d.toNat * 2 ^ 17 + b.toNat * 2 ^ 5 := rfl
  generalize encode (.bquery d b) = x at ew ⊢
  refine decode_of hwf ?_ ?_ ?_
  · rw [candidate, show x / 2 ^ 26 % 64 = 34 by omega]
    simp only []
    rw [minorBorrow, show x % 32 = 14 by omega]
    simp only []
    rw [fld_eq 17 x d (by omega), fld_eq 5 x b (by omega)]
  · rw [show Instr.operands (.bquery d b) = [⟨17, 6, 0, .quad, d.toNat⟩, ⟨11, 6, 63, .zero, 0⟩, ⟨5, 6, 0, .region, b.toNat⟩] from rfl]
    exact all_cons (Nat.and_zero _) (all_cons (show x / 2 ^ 11 % 2 ^ 6 &&& 63 = 0 from and_high (k := 0) 63 (by omega)) (all_cons (Nat.and_zero _) all_nil))
  · exact .inr (by omega)

theorem Sys2Proof.Laws.Encoding.ld (d : BitVec 6) (g : BitVec 5) (a : BitVec 6) (k : BitVec 2) (z : BitVec 3) (h : BitVec 1) :
    Encoding.Statement (.ld d g a k z h) := by
  intro hwf
  have hd := d.isLt
  have hg := g.isLt
  have ha := a.isLt
  have hk := k.isLt
  have hz := z.isLt
  have hh := h.isLt
  have ew : encode (.ld d g a k z h) = 0x90000000 + d.toNat * 2 ^ 17 + g.toNat * 2 ^ 12 + a.toNat * 2 ^ 6 + k.toNat * 2 ^ 4 + z.toNat * 2 ^ 1 + h.toNat * 2 ^ 0 := rfl
  generalize encode (.ld d g a k z h) = x at ew ⊢
  have hm : z.toNat < 5 := by simpa [Instr.badMinor] using minor_of hwf
  refine decode_of hwf ?_ ?_ ?_
  · rw [candidate, show x / 2 ^ 26 % 64 = 36 by omega]
    simp only []
    rw [if_neg (show ¬ 5 ≤ x / 2 % 8 by omega), fld_eq 17 x d (by omega), fld_eq 12 x g (by omega), fld_eq 6 x a (by omega), fld_eq 4 x k (by omega), fld_eq 1 x z (by omega), fld_eq 0 x h (by omega)]
  · rw [show Instr.operands (.ld d g a k z h) = [⟨17, 6, 0, (dataDst z.toNat), d.toNat⟩, ⟨6, 6, 0, .pair, a.toNat⟩] from rfl]
    exact all_cons (Nat.and_zero _) (all_cons (Nat.and_zero _) all_nil)
  · exact .inr (by omega)

theorem Sys2Proof.Laws.Encoding.st (d : BitVec 6) (g : BitVec 5) (a : BitVec 6) (k : BitVec 2) (z : BitVec 3) (h : BitVec 1) :
    Encoding.Statement (.st d g a k z h) := by
  intro hwf
  have hd := d.isLt
  have hg := g.isLt
  have ha := a.isLt
  have hk := k.isLt
  have hz := z.isLt
  have hh := h.isLt
  have ew : encode (.st d g a k z h) = 0x94000000 + d.toNat * 2 ^ 17 + g.toNat * 2 ^ 12 + a.toNat * 2 ^ 6 + k.toNat * 2 ^ 4 + z.toNat * 2 ^ 1 + h.toNat * 2 ^ 0 := rfl
  generalize encode (.st d g a k z h) = x at ew ⊢
  have hm : z.toNat < 5 := by simpa [Instr.badMinor] using minor_of hwf
  refine decode_of hwf ?_ ?_ ?_
  · rw [candidate, show x / 2 ^ 26 % 64 = 37 by omega]
    simp only []
    rw [if_neg (show ¬ 5 ≤ x / 2 % 8 by omega), fld_eq 17 x d (by omega), fld_eq 12 x g (by omega), fld_eq 6 x a (by omega), fld_eq 4 x k (by omega), fld_eq 1 x z (by omega), fld_eq 0 x h (by omega)]
  · rw [show Instr.operands (.st d g a k z h) = [⟨17, 6, 0, (dataSrc z.toNat), d.toNat⟩, ⟨6, 6, 0, .pair, a.toNat⟩] from rfl]
    exact all_cons (Nat.and_zero _) (all_cons (Nat.and_zero _) all_nil)
  · exact .inr (by omega)

theorem Sys2Proof.Laws.Encoding.pref (g : BitVec 5) (a : BitVec 6) (k : BitVec 2) (h : BitVec 1) :
    Encoding.Statement (.pref g a k h) := by
  intro hwf
  have hg := g.isLt
  have ha := a.isLt
  have hk := k.isLt
  have hh := h.isLt
  have ew : encode (.pref g a k h) = 0xa0000000 + g.toNat * 2 ^ 12 + a.toNat * 2 ^ 6 + k.toNat * 2 ^ 4 + h.toNat * 2 ^ 0 := rfl
  generalize encode (.pref g a k h) = x at ew ⊢
  refine decode_of hwf ?_ ?_ ?_
  · rw [candidate, show x / 2 ^ 26 % 64 = 40 by omega]
    simp only []
    rw [fld_eq 12 x g (by omega), fld_eq 6 x a (by omega), fld_eq 4 x k (by omega), fld_eq 0 x h (by omega)]
  · rw [show Instr.operands (.pref g a k h) = [⟨17, 6, 63, .zero, 0⟩, ⟨6, 6, 0, .pair, a.toNat⟩, ⟨1, 3, 7, .zero, 0⟩] from rfl]
    exact all_cons (show x / 2 ^ 17 % 2 ^ 6 &&& 63 = 0 from and_high (k := 0) 63 (by omega)) (all_cons (Nat.and_zero _) (all_cons (show x / 2 ^ 1 % 2 ^ 3 &&& 7 = 0 from and_high (k := 0) 7 (by omega)) all_nil))
  · exact .inr (by omega)

theorem Sys2Proof.Laws.Encoding.ldl (d : BitVec 6) (a : BitVec 6) (z : BitVec 3) :
    Encoding.Statement (.ldl d a z) := by
  intro hwf
  have hd := d.isLt
  have ha := a.isLt
  have hz := z.isLt
  have ew : encode (.ldl d a z) = 0x98000000 + d.toNat * 2 ^ 17 + a.toNat * 2 ^ 11 + z.toNat * 2 ^ 0 := rfl
  generalize encode (.ldl d a z) = x at ew ⊢
  have hm : z.toNat < 5 := by simpa [Instr.badMinor] using minor_of hwf
  refine decode_of hwf ?_ ?_ ?_
  · rw [candidate, show x / 2 ^ 26 % 64 = 38 by omega]
    simp only []
    rw [minorScratch, show x / 8 % 4 = 0 by omega]
    simp only []
    rw [if_neg (show ¬ 5 ≤ x % 8 by omega), fld_eq 17 x d (by omega), fld_eq 11 x a (by omega), fld_eq 0 x z (by omega)]
  · rw [show Instr.operands (.ldl d a z) = [⟨17, 6, 0, (dataDst z.toNat), d.toNat⟩, ⟨11, 6, 0, .vsrc, a.toNat⟩, ⟨5, 6, 63, .zero, 0⟩] from rfl]
    exact all_cons (Nat.and_zero _) (all_cons (Nat.and_zero _) (all_cons (show x / 2 ^ 5 % 2 ^ 6 &&& 63 = 0 from and_high (k := 0) 63 (by omega)) all_nil))
  · exact .inr (by omega)

theorem Sys2Proof.Laws.Encoding.stl (d : BitVec 6) (a : BitVec 6) (z : BitVec 3) :
    Encoding.Statement (.stl d a z) := by
  intro hwf
  have hd := d.isLt
  have ha := a.isLt
  have hz := z.isLt
  have ew : encode (.stl d a z) = 0x98000008 + d.toNat * 2 ^ 17 + a.toNat * 2 ^ 11 + z.toNat * 2 ^ 0 := rfl
  generalize encode (.stl d a z) = x at ew ⊢
  have hm : z.toNat < 5 := by simpa [Instr.badMinor] using minor_of hwf
  refine decode_of hwf ?_ ?_ ?_
  · rw [candidate, show x / 2 ^ 26 % 64 = 38 by omega]
    simp only []
    rw [minorScratch, show x / 8 % 4 = 1 by omega]
    simp only []
    rw [if_neg (show ¬ 5 ≤ x % 8 by omega), fld_eq 17 x d (by omega), fld_eq 11 x a (by omega), fld_eq 0 x z (by omega)]
  · rw [show Instr.operands (.stl d a z) = [⟨17, 6, 0, (dataSrc z.toNat), d.toNat⟩, ⟨11, 6, 0, .vsrc, a.toNat⟩, ⟨5, 6, 63, .zero, 0⟩] from rfl]
    exact all_cons (Nat.and_zero _) (all_cons (Nat.and_zero _) (all_cons (show x / 2 ^ 5 % 2 ^ 6 &&& 63 = 0 from and_high (k := 0) 63 (by omega)) all_nil))
  · exact .inr (by omega)

theorem Sys2Proof.Laws.Encoding.ldc (d : BitVec 6) (a : BitVec 6) (z : BitVec 3) :
    Encoding.Statement (.ldc d a z) := by
  intro hwf
  have hd := d.isLt
  have ha := a.isLt
  have hz := z.isLt
  have ew : encode (.ldc d a z) = 0x98000010 + d.toNat * 2 ^ 17 + a.toNat * 2 ^ 11 + z.toNat * 2 ^ 0 := rfl
  generalize encode (.ldc d a z) = x at ew ⊢
  have hm : z.toNat < 5 := by simpa [Instr.badMinor] using minor_of hwf
  refine decode_of hwf ?_ ?_ ?_
  · rw [candidate, show x / 2 ^ 26 % 64 = 38 by omega]
    simp only []
    rw [minorScratch, show x / 8 % 4 = 2 by omega]
    simp only []
    rw [if_neg (show ¬ 5 ≤ x % 8 by omega), fld_eq 17 x d (by omega), fld_eq 11 x a (by omega), fld_eq 0 x z (by omega)]
  · rw [show Instr.operands (.ldc d a z) = [⟨17, 6, 0, (dataDst z.toNat), d.toNat⟩, ⟨11, 6, 0, .vsrc, a.toNat⟩, ⟨5, 6, 63, .zero, 0⟩] from rfl]
    exact all_cons (Nat.and_zero _) (all_cons (Nat.and_zero _) (all_cons (show x / 2 ^ 5 % 2 ^ 6 &&& 63 = 0 from and_high (k := 0) 63 (by omega)) all_nil))
  · exact .inr (by omega)

theorem Sys2Proof.Laws.Encoding.stc (d : BitVec 6) (a : BitVec 6) (z : BitVec 3) :
    Encoding.Statement (.stc d a z) := by
  intro hwf
  have hd := d.isLt
  have ha := a.isLt
  have hz := z.isLt
  have ew : encode (.stc d a z) = 0x98000018 + d.toNat * 2 ^ 17 + a.toNat * 2 ^ 11 + z.toNat * 2 ^ 0 := rfl
  generalize encode (.stc d a z) = x at ew ⊢
  have hm : z.toNat < 5 := by simpa [Instr.badMinor] using minor_of hwf
  refine decode_of hwf ?_ ?_ ?_
  · rw [candidate, show x / 2 ^ 26 % 64 = 38 by omega]
    simp only []
    rw [minorScratch, show x / 8 % 4 = 3 by omega]
    simp only []
    rw [if_neg (show ¬ 5 ≤ x % 8 by omega), fld_eq 17 x d (by omega), fld_eq 11 x a (by omega), fld_eq 0 x z (by omega)]
  · rw [show Instr.operands (.stc d a z) = [⟨17, 6, 0, (dataSrc z.toNat), d.toNat⟩, ⟨11, 6, 0, .vsrc, a.toNat⟩, ⟨5, 6, 63, .zero, 0⟩] from rfl]
    exact all_cons (Nat.and_zero _) (all_cons (Nat.and_zero _) (all_cons (show x / 2 ^ 5 % 2 ^ 6 &&& 63 = 0 from and_high (k := 0) 63 (by omega)) all_nil))
  · exact .inr (by omega)

theorem Sys2Proof.Laws.Encoding.cvtaGl (s : BitVec 3) (d : BitVec 6) (a : BitVec 6) :
    Encoding.Statement (.cvtaGl s d a) := by
  intro hwf
  have hs := s.isLt
  have hd := d.isLt
  have ha := a.isLt
  have ew : encode (.cvtaGl s d a) = 0x9c000000 + s.toNat * 2 ^ 23 + d.toNat * 2 ^ 17 + a.toNat * 2 ^ 11 := rfl
  generalize encode (.cvtaGl s d a) = x at ew ⊢
  refine decode_of hwf ?_ ?_ ?_
  · rw [candidate, show x / 2 ^ 26 % 64 = 39 by omega]
    simp only []
    rw [minorAddress, show x % 32 = 0 by omega]
    simp only []
    rw [fld_eq 23 x s (by omega), fld_eq 17 x d (by omega), fld_eq 11 x a (by omega)]
  · rw [show Instr.operands (.cvtaGl s d a) = [⟨17, 6, 0, .vdst, d.toNat⟩, ⟨11, 6, 0, .pair, a.toNat⟩, ⟨5, 6, 63, .zero, 0⟩] from rfl]
    exact all_cons (Nat.and_zero _) (all_cons (Nat.and_zero _) (all_cons (show x / 2 ^ 5 % 2 ^ 6 &&& 63 = 0 from and_high (k := 0) 63 (by omega)) all_nil))
  · exact .inl rfl

theorem Sys2Proof.Laws.Encoding.cvtaGc (s : BitVec 3) (d : BitVec 6) (a : BitVec 6) :
    Encoding.Statement (.cvtaGc s d a) := by
  intro hwf
  have hs := s.isLt
  have hd := d.isLt
  have ha := a.isLt
  have ew : encode (.cvtaGc s d a) = 0x9c000001 + s.toNat * 2 ^ 23 + d.toNat * 2 ^ 17 + a.toNat * 2 ^ 11 := rfl
  generalize encode (.cvtaGc s d a) = x at ew ⊢
  refine decode_of hwf ?_ ?_ ?_
  · rw [candidate, show x / 2 ^ 26 % 64 = 39 by omega]
    simp only []
    rw [minorAddress, show x % 32 = 1 by omega]
    simp only []
    rw [fld_eq 23 x s (by omega), fld_eq 17 x d (by omega), fld_eq 11 x a (by omega)]
  · rw [show Instr.operands (.cvtaGc s d a) = [⟨17, 6, 0, .vdst, d.toNat⟩, ⟨11, 6, 0, .pair, a.toNat⟩, ⟨5, 6, 63, .zero, 0⟩] from rfl]
    exact all_cons (Nat.and_zero _) (all_cons (Nat.and_zero _) (all_cons (show x / 2 ^ 5 % 2 ^ 6 &&& 63 = 0 from and_high (k := 0) 63 (by omega)) all_nil))
  · exact .inl rfl

theorem Sys2Proof.Laws.Encoding.cvtaLg (s : BitVec 3) (d : BitVec 6) (a : BitVec 6) :
    Encoding.Statement (.cvtaLg s d a) := by
  intro hwf
  have hs := s.isLt
  have hd := d.isLt
  have ha := a.isLt
  have ew : encode (.cvtaLg s d a) = 0x9c000002 + s.toNat * 2 ^ 23 + d.toNat * 2 ^ 17 + a.toNat * 2 ^ 11 := rfl
  generalize encode (.cvtaLg s d a) = x at ew ⊢
  refine decode_of hwf ?_ ?_ ?_
  · rw [candidate, show x / 2 ^ 26 % 64 = 39 by omega]
    simp only []
    rw [minorAddress, show x % 32 = 2 by omega]
    simp only []
    rw [fld_eq 23 x s (by omega), fld_eq 17 x d (by omega), fld_eq 11 x a (by omega)]
  · rw [show Instr.operands (.cvtaLg s d a) = [⟨17, 6, 0, .pair, d.toNat⟩, ⟨11, 6, 0, .vsrc, a.toNat⟩, ⟨5, 6, 63, .zero, 0⟩] from rfl]
    exact all_cons (Nat.and_zero _) (all_cons (Nat.and_zero _) (all_cons (show x / 2 ^ 5 % 2 ^ 6 &&& 63 = 0 from and_high (k := 0) 63 (by omega)) all_nil))
  · exact .inl rfl

theorem Sys2Proof.Laws.Encoding.cvtaCg (s : BitVec 3) (d : BitVec 6) (a : BitVec 6) :
    Encoding.Statement (.cvtaCg s d a) := by
  intro hwf
  have hs := s.isLt
  have hd := d.isLt
  have ha := a.isLt
  have ew : encode (.cvtaCg s d a) = 0x9c000003 + s.toNat * 2 ^ 23 + d.toNat * 2 ^ 17 + a.toNat * 2 ^ 11 := rfl
  generalize encode (.cvtaCg s d a) = x at ew ⊢
  refine decode_of hwf ?_ ?_ ?_
  · rw [candidate, show x / 2 ^ 26 % 64 = 39 by omega]
    simp only []
    rw [minorAddress, show x % 32 = 3 by omega]
    simp only []
    rw [fld_eq 23 x s (by omega), fld_eq 17 x d (by omega), fld_eq 11 x a (by omega)]
  · rw [show Instr.operands (.cvtaCg s d a) = [⟨17, 6, 0, .pair, d.toNat⟩, ⟨11, 6, 0, .vsrc, a.toNat⟩, ⟨5, 6, 63, .zero, 0⟩] from rfl]
    exact all_cons (Nat.and_zero _) (all_cons (Nat.and_zero _) (all_cons (show x / 2 ^ 5 % 2 ^ 6 &&& 63 = 0 from and_high (k := 0) 63 (by omega)) all_nil))
  · exact .inl rfl

theorem Sys2Proof.Laws.Encoding.inapGlobal (s : BitVec 3) (d : BitVec 6) (a : BitVec 6) :
    Encoding.Statement (.inapGlobal s d a) := by
  intro hwf
  have hs := s.isLt
  have hd := d.isLt
  have ha := a.isLt
  have ew : encode (.inapGlobal s d a) = 0x9c000004 + s.toNat * 2 ^ 23 + d.toNat * 2 ^ 17 + a.toNat * 2 ^ 11 := rfl
  generalize encode (.inapGlobal s d a) = x at ew ⊢
  refine decode_of hwf ?_ ?_ ?_
  · rw [candidate, show x / 2 ^ 26 % 64 = 39 by omega]
    simp only []
    rw [minorAddress, show x % 32 = 4 by omega]
    simp only []
    rw [fld_eq 23 x s (by omega), fld_eq 17 x d (by omega), fld_eq 11 x a (by omega)]
  · rw [show Instr.operands (.inapGlobal s d a) = [⟨17, 6, 0, .pred, d.toNat⟩, ⟨11, 6, 0, .pair, a.toNat⟩, ⟨5, 6, 63, .zero, 0⟩] from rfl]
    exact all_cons (Nat.and_zero _) (all_cons (Nat.and_zero _) (all_cons (show x / 2 ^ 5 % 2 ^ 6 &&& 63 = 0 from and_high (k := 0) 63 (by omega)) all_nil))
  · exact .inl rfl

theorem Sys2Proof.Laws.Encoding.inapPeer (s : BitVec 3) (d : BitVec 6) (a : BitVec 6) :
    Encoding.Statement (.inapPeer s d a) := by
  intro hwf
  have hs := s.isLt
  have hd := d.isLt
  have ha := a.isLt
  have ew : encode (.inapPeer s d a) = 0x9c000005 + s.toNat * 2 ^ 23 + d.toNat * 2 ^ 17 + a.toNat * 2 ^ 11 := rfl
  generalize encode (.inapPeer s d a) = x at ew ⊢
  refine decode_of hwf ?_ ?_ ?_
  · rw [candidate, show x / 2 ^ 26 % 64 = 39 by omega]
    simp only []
    rw [minorAddress, show x % 32 = 5 by omega]
    simp only []
    rw [fld_eq 23 x s (by omega), fld_eq 17 x d (by omega), fld_eq 11 x a (by omega)]
  · rw [show Instr.operands (.inapPeer s d a) = [⟨17, 6, 0, .pred, d.toNat⟩, ⟨11, 6, 0, .pair, a.toNat⟩, ⟨5, 6, 63, .zero, 0⟩] from rfl]
    exact all_cons (Nat.and_zero _) (all_cons (Nat.and_zero _) (all_cons (show x / 2 ^ 5 % 2 ^ 6 &&& 63 = 0 from and_high (k := 0) 63 (by omega)) all_nil))
  · exact .inl rfl

theorem Sys2Proof.Laws.Encoding.inapCluster (s : BitVec 3) (d : BitVec 6) (a : BitVec 6) :
    Encoding.Statement (.inapCluster s d a) := by
  intro hwf
  have hs := s.isLt
  have hd := d.isLt
  have ha := a.isLt
  have ew : encode (.inapCluster s d a) = 0x9c000006 + s.toNat * 2 ^ 23 + d.toNat * 2 ^ 17 + a.toNat * 2 ^ 11 := rfl
  generalize encode (.inapCluster s d a) = x at ew ⊢
  refine decode_of hwf ?_ ?_ ?_
  · rw [candidate, show x / 2 ^ 26 % 64 = 39 by omega]
    simp only []
    rw [minorAddress, show x % 32 = 6 by omega]
    simp only []
    rw [fld_eq 23 x s (by omega), fld_eq 17 x d (by omega), fld_eq 11 x a (by omega)]
  · rw [show Instr.operands (.inapCluster s d a) = [⟨17, 6, 0, .pred, d.toNat⟩, ⟨11, 6, 0, .pair, a.toNat⟩, ⟨5, 6, 63, .zero, 0⟩] from rfl]
    exact all_cons (Nat.and_zero _) (all_cons (Nat.and_zero _) (all_cons (show x / 2 ^ 5 % 2 ^ 6 &&& 63 = 0 from and_high (k := 0) 63 (by omega)) all_nil))
  · exact .inl rfl

theorem Sys2Proof.Laws.Encoding.inapLocal (s : BitVec 3) (d : BitVec 6) (a : BitVec 6) :
    Encoding.Statement (.inapLocal s d a) := by
  intro hwf
  have hs := s.isLt
  have hd := d.isLt
  have ha := a.isLt
  have ew : encode (.inapLocal s d a) = 0x9c000007 + s.toNat * 2 ^ 23 + d.toNat * 2 ^ 17 + a.toNat * 2 ^ 11 := rfl
  generalize encode (.inapLocal s d a) = x at ew ⊢
  refine decode_of hwf ?_ ?_ ?_
  · rw [candidate, show x / 2 ^ 26 % 64 = 39 by omega]
    simp only []
    rw [minorAddress, show x % 32 = 7 by omega]
    simp only []
    rw [fld_eq 23 x s (by omega), fld_eq 17 x d (by omega), fld_eq 11 x a (by omega)]
  · rw [show Instr.operands (.inapLocal s d a) = [⟨17, 6, 0, .pred, d.toNat⟩, ⟨11, 6, 0, .pair, a.toNat⟩, ⟨5, 6, 63, .zero, 0⟩] from rfl]
    exact all_cons (Nat.and_zero _) (all_cons (Nat.and_zero _) (all_cons (show x / 2 ^ 5 % 2 ^ 6 &&& 63 = 0 from and_high (k := 0) 63 (by omega)) all_nil))
  · exact .inl rfl

theorem Sys2Proof.Laws.Encoding.bankset (a : BitVec 6) (b : BitVec 6) :
    Encoding.Statement (.bankset a b) := by
  intro hwf
  have ha := a.isLt
  have hb := b.isLt
  have ew : encode (.bankset a b) = 0x9c000008 + a.toNat * 2 ^ 11 + b.toNat * 2 ^ 5 := rfl
  generalize encode (.bankset a b) = x at ew ⊢
  refine decode_of hwf ?_ ?_ ?_
  · rw [candidate, show x / 2 ^ 26 % 64 = 39 by omega]
    simp only []
    rw [minorAddress, show x % 32 = 8 by omega]
    simp only []
    rw [fld_eq 11 x a (by omega), fld_eq 5 x b (by omega)]
  · rw [show Instr.operands (.bankset a b) = [⟨17, 6, 63, .zero, 0⟩, ⟨11, 6, 0, .vsrc, a.toNat⟩, ⟨5, 6, 0, .vsrc, b.toNat⟩] from rfl]
    exact all_cons (show x / 2 ^ 17 % 2 ^ 6 &&& 63 = 0 from and_high (k := 0) 63 (by omega)) (all_cons (Nat.and_zero _) (all_cons (Nat.and_zero _) all_nil))
  · exact .inr (by omega)

theorem Sys2Proof.Laws.Encoding.fput (a : BitVec 6) (b : BitVec 6) :
    Encoding.Statement (.fput a b) := by
  intro hwf
  have ha := a.isLt
  have hb := b.isLt
  have ew : encode (.fput a b) = 0x9c000009 + a.toNat * 2 ^ 11 + b.toNat * 2 ^ 5 := rfl
  generalize encode (.fput a b) = x at ew ⊢
  refine decode_of hwf ?_ ?_ ?_
  · rw [candidate, show x / 2 ^ 26 % 64 = 39 by omega]
    simp only []
    rw [minorAddress, show x % 32 = 9 by omega]
    simp only []
    rw [fld_eq 11 x a (by omega), fld_eq 5 x b (by omega)]
  · rw [show Instr.operands (.fput a b) = [⟨17, 6, 63, .zero, 0⟩, ⟨11, 6, 0, .vsrc, a.toNat⟩, ⟨5, 6, 0, .vsrc, b.toNat⟩] from rfl]
    exact all_cons (show x / 2 ^ 17 % 2 ^ 6 &&& 63 = 0 from and_high (k := 0) 63 (by omega)) (all_cons (Nat.and_zero _) (all_cons (Nat.and_zero _) all_nil))
  · exact .inr (by omega)

theorem Sys2Proof.Laws.Encoding.fget (d : BitVec 6) (a : BitVec 6) :
    Encoding.Statement (.fget d a) := by
  intro hwf
  have hd := d.isLt
  have ha := a.isLt
  have ew : encode (.fget d a) = 0x9c00000a + d.toNat * 2 ^ 17 + a.toNat * 2 ^ 11 := rfl
  generalize encode (.fget d a) = x at ew ⊢
  refine decode_of hwf ?_ ?_ ?_
  · rw [candidate, show x / 2 ^ 26 % 64 = 39 by omega]
    simp only []
    rw [minorAddress, show x % 32 = 10 by omega]
    simp only []
    rw [fld_eq 17 x d (by omega), fld_eq 11 x a (by omega)]
  · rw [show Instr.operands (.fget d a) = [⟨17, 6, 0, .vdst, d.toNat⟩, ⟨11, 6, 0, .vsrc, a.toNat⟩, ⟨5, 6, 63, .zero, 0⟩] from rfl]
    exact all_cons (Nat.and_zero _) (all_cons (Nat.and_zero _) (all_cons (show x / 2 ^ 5 % 2 ^ 6 &&& 63 = 0 from and_high (k := 0) 63 (by omega)) all_nil))
  · exact .inr (by omega)

theorem Sys2Proof.Laws.Encoding.waitc (m : BitVec 6) :
    Encoding.Statement (.waitc m) := by
  intro hwf
  have hm := m.isLt
  have ew : encode (.waitc m) = 0x9c00000b + m.toNat * 2 ^ 5 := rfl
  generalize encode (.waitc m) = x at ew ⊢
  refine decode_of hwf ?_ ?_ ?_
  · rw [candidate, show x / 2 ^ 26 % 64 = 39 by omega]
    simp only []
    rw [minorAddress, show x % 32 = 11 by omega]
    simp only []
    rw [fld_eq 5 x m (by omega)]
  · rw [show Instr.operands (.waitc m) = [⟨17, 6, 63, .zero, 0⟩, ⟨11, 6, 63, .zero, 0⟩, ⟨5, 6, 0, .imm 1 63, m.toNat⟩] from rfl]
    exact all_cons (show x / 2 ^ 17 % 2 ^ 6 &&& 63 = 0 from and_high (k := 0) 63 (by omega)) (all_cons (show x / 2 ^ 11 % 2 ^ 6 &&& 63 = 0 from and_high (k := 0) 63 (by omega)) (all_cons (Nat.and_zero _) all_nil))
  · exact .inr (by omega)

theorem Sys2Proof.Laws.Encoding.rld (d : BitVec 6) (p : BitVec 6) (o : BitVec 6) (k : BitVec 2) (g : BitVec 3) :
    Encoding.Statement (.rld d p o k g) := by
  intro hwf
  have hd := d.isLt
  have hp := p.isLt
  have ho := o.isLt
  have hk := k.isLt
  have hg := g.isLt
  have ew : encode (.rld d p o k g) = 0xa8000000 + d.toNat * 2 ^ 17 + p.toNat * 2 ^ 11 + o.toNat * 2 ^ 5 + k.toNat * 2 ^ 3 + g.toNat * 2 ^ 0 := rfl
  generalize encode (.rld d p o k g) = x at ew ⊢
  refine decode_of hwf ?_ ?_ ?_
  · rw [candidate, show x / 2 ^ 26 % 64 = 42 by omega]
    simp only []
    rw [fld_eq 17 x d (by omega), fld_eq 11 x p (by omega), fld_eq 5 x o (by omega), fld_eq 3 x k (by omega), fld_eq 0 x g (by omega)]
  · rw [show Instr.operands (.rld d p o k g) = [⟨17, 6, 0, .vdst, d.toNat⟩, ⟨11, 6, 0, .vsrc, p.toNat⟩, ⟨5, 6, 0, .pair, o.toNat⟩] from rfl]
    exact all_cons (Nat.and_zero _) (all_cons (Nat.and_zero _) (all_cons (Nat.and_zero _) all_nil))
  · exact .inr (by omega)

theorem Sys2Proof.Laws.Encoding.rst (d : BitVec 6) (p : BitVec 6) (o : BitVec 6) (k : BitVec 2) (g : BitVec 3) :
    Encoding.Statement (.rst d p o k g) := by
  intro hwf
  have hd := d.isLt
  have hp := p.isLt
  have ho := o.isLt
  have hk := k.isLt
  have hg := g.isLt
  have ew : encode (.rst d p o k g) = 0xac000000 + d.toNat * 2 ^ 17 + p.toNat * 2 ^ 11 + o.toNat * 2 ^ 5 + k.toNat * 2 ^ 3 + g.toNat * 2 ^ 0 := rfl
  generalize encode (.rst d p o k g) = x at ew ⊢
  refine decode_of hwf ?_ ?_ ?_
  · rw [candidate, show x / 2 ^ 26 % 64 = 43 by omega]
    simp only []
    rw [fld_eq 17 x d (by omega), fld_eq 11 x p (by omega), fld_eq 5 x o (by omega), fld_eq 3 x k (by omega), fld_eq 0 x g (by omega)]
  · rw [show Instr.operands (.rst d p o k g) = [⟨17, 6, 0, .vsrc, d.toNat⟩, ⟨11, 6, 0, .vsrc, p.toNat⟩, ⟨5, 6, 0, .pair, o.toNat⟩] from rfl]
    exact all_cons (Nat.and_zero _) (all_cons (Nat.and_zero _) (all_cons (Nat.and_zero _) all_nil))
  · exact .inr (by omega)

theorem Sys2Proof.Laws.Encoding.ratmAdd (d : BitVec 6) (p : BitVec 6) (o : BitVec 6) (k : BitVec 2) (g : BitVec 3) :
    Encoding.Statement (.ratmAdd d p o k g) := by
  intro hwf
  have hd := d.isLt
  have hp := p.isLt
  have ho := o.isLt
  have hk := k.isLt
  have hg := g.isLt
  have ew : encode (.ratmAdd d p o k g) = 0xb0000000 + d.toNat * 2 ^ 17 + p.toNat * 2 ^ 11 + o.toNat * 2 ^ 5 + k.toNat * 2 ^ 3 + g.toNat * 2 ^ 0 := rfl
  generalize encode (.ratmAdd d p o k g) = x at ew ⊢
  refine decode_of hwf ?_ ?_ ?_
  · rw [candidate, show x / 2 ^ 26 % 64 = 44 by omega]
    simp only []
    rw [fld_eq 17 x d (by omega), fld_eq 11 x p (by omega), fld_eq 5 x o (by omega), fld_eq 3 x k (by omega), fld_eq 0 x g (by omega)]
  · rw [show Instr.operands (.ratmAdd d p o k g) = [⟨17, 6, 0, .vdst, d.toNat⟩, ⟨11, 6, 0, .vsrc, p.toNat⟩, ⟨5, 6, 0, .pair, o.toNat⟩] from rfl]
    exact all_cons (Nat.and_zero _) (all_cons (Nat.and_zero _) (all_cons (Nat.and_zero _) all_nil))
  · exact .inr (by omega)

theorem Sys2Proof.Laws.Encoding.ratmXchg (d : BitVec 6) (p : BitVec 6) (o : BitVec 6) (k : BitVec 2) (g : BitVec 3) :
    Encoding.Statement (.ratmXchg d p o k g) := by
  intro hwf
  have hd := d.isLt
  have hp := p.isLt
  have ho := o.isLt
  have hk := k.isLt
  have hg := g.isLt
  have ew : encode (.ratmXchg d p o k g) = 0xb4000000 + d.toNat * 2 ^ 17 + p.toNat * 2 ^ 11 + o.toNat * 2 ^ 5 + k.toNat * 2 ^ 3 + g.toNat * 2 ^ 0 := rfl
  generalize encode (.ratmXchg d p o k g) = x at ew ⊢
  refine decode_of hwf ?_ ?_ ?_
  · rw [candidate, show x / 2 ^ 26 % 64 = 45 by omega]
    simp only []
    rw [fld_eq 17 x d (by omega), fld_eq 11 x p (by omega), fld_eq 5 x o (by omega), fld_eq 3 x k (by omega), fld_eq 0 x g (by omega)]
  · rw [show Instr.operands (.ratmXchg d p o k g) = [⟨17, 6, 0, .vdst, d.toNat⟩, ⟨11, 6, 0, .vsrc, p.toNat⟩, ⟨5, 6, 0, .pair, o.toNat⟩] from rfl]
    exact all_cons (Nat.and_zero _) (all_cons (Nat.and_zero _) (all_cons (Nat.and_zero _) all_nil))
  · exact .inr (by omega)

theorem Sys2Proof.Laws.Encoding.ratmCas (d : BitVec 6) (p : BitVec 6) (o : BitVec 6) (k : BitVec 2) (g : BitVec 3) :
    Encoding.Statement (.ratmCas d p o k g) := by
  intro hwf
  have hd := d.isLt
  have hp := p.isLt
  have ho := o.isLt
  have hk := k.isLt
  have hg := g.isLt
  have ew : encode (.ratmCas d p o k g) = 0xb8000000 + d.toNat * 2 ^ 17 + p.toNat * 2 ^ 11 + o.toNat * 2 ^ 5 + k.toNat * 2 ^ 3 + g.toNat * 2 ^ 0 := rfl
  generalize encode (.ratmCas d p o k g) = x at ew ⊢
  refine decode_of hwf ?_ ?_ ?_
  · rw [candidate, show x / 2 ^ 26 % 64 = 46 by omega]
    simp only []
    rw [fld_eq 17 x d (by omega), fld_eq 11 x p (by omega), fld_eq 5 x o (by omega), fld_eq 3 x k (by omega), fld_eq 0 x g (by omega)]
  · rw [show Instr.operands (.ratmCas d p o k g) = [⟨17, 6, 0, .vdst, d.toNat⟩, ⟨11, 6, 0, .vsrc, p.toNat⟩, ⟨5, 6, 0, .pair, o.toNat⟩] from rfl]
    exact all_cons (Nat.and_zero _) (all_cons (Nat.and_zero _) (all_cons (Nat.and_zero _) all_nil))
  · exact .inr (by omega)

theorem Sys2Proof.Laws.Encoding.aadd (q : BitVec 2) (d : BitVec 6) (g : BitVec 5) (a : BitVec 6) (k : BitVec 2) :
    Encoding.Statement (.aadd q d g a k) := by
  intro hwf
  have hq := q.isLt
  have hd := d.isLt
  have hg := g.isLt
  have ha := a.isLt
  have hk := k.isLt
  have ew : encode (.aadd q d g a k) = 0xc0000000 + q.toNat * 2 ^ 26 + d.toNat * 2 ^ 17 + g.toNat * 2 ^ 12 + a.toNat * 2 ^ 6 + k.toNat * 2 ^ 4 := rfl
  generalize encode (.aadd q d g a k) = x at ew ⊢
  refine decode_of hwf ?_ ?_ ?_
  · have hq : q.toNat = 0 ∨ q.toNat = 1 ∨ q.toNat = 2 ∨ q.toNat = 3 := by omega
    rcases hq with hq | hq | hq | hq
    · rw [candidate, show x / 2 ^ 26 % 64 = 48 by omega]
      simp only []
      rw [minorAtomic, show x % 16 = 0 by omega]
      simp only []
      rw [fld_eq 26 x q (by omega), fld_eq 17 x d (by omega), fld_eq 12 x g (by omega), fld_eq 6 x a (by omega), fld_eq 4 x k (by omega)]
    · rw [candidate, show x / 2 ^ 26 % 64 = 49 by omega]
      simp only []
      rw [minorAtomic, show x % 16 = 0 by omega]
      simp only []
      rw [fld_eq 26 x q (by omega), fld_eq 17 x d (by omega), fld_eq 12 x g (by omega), fld_eq 6 x a (by omega), fld_eq 4 x k (by omega)]
    · rw [candidate, show x / 2 ^ 26 % 64 = 50 by omega]
      simp only []
      rw [minorAtomic, show x % 16 = 0 by omega]
      simp only []
      rw [fld_eq 26 x q (by omega), fld_eq 17 x d (by omega), fld_eq 12 x g (by omega), fld_eq 6 x a (by omega), fld_eq 4 x k (by omega)]
    · rw [candidate, show x / 2 ^ 26 % 64 = 51 by omega]
      simp only []
      rw [minorAtomic, show x % 16 = 0 by omega]
      simp only []
      rw [fld_eq 26 x q (by omega), fld_eq 17 x d (by omega), fld_eq 12 x g (by omega), fld_eq 6 x a (by omega), fld_eq 4 x k (by omega)]
  · rw [show Instr.operands (.aadd q d g a k) = [⟨17, 6, 0, .vdst, d.toNat⟩, ⟨6, 6, 0, .pair, a.toNat⟩] from rfl]
    exact all_cons (Nat.and_zero _) (all_cons (Nat.and_zero _) all_nil)
  · exact .inr (by omega)

theorem Sys2Proof.Laws.Encoding.asub (q : BitVec 2) (d : BitVec 6) (g : BitVec 5) (a : BitVec 6) (k : BitVec 2) :
    Encoding.Statement (.asub q d g a k) := by
  intro hwf
  have hq := q.isLt
  have hd := d.isLt
  have hg := g.isLt
  have ha := a.isLt
  have hk := k.isLt
  have ew : encode (.asub q d g a k) = 0xc0000001 + q.toNat * 2 ^ 26 + d.toNat * 2 ^ 17 + g.toNat * 2 ^ 12 + a.toNat * 2 ^ 6 + k.toNat * 2 ^ 4 := rfl
  generalize encode (.asub q d g a k) = x at ew ⊢
  refine decode_of hwf ?_ ?_ ?_
  · have hq : q.toNat = 0 ∨ q.toNat = 1 ∨ q.toNat = 2 ∨ q.toNat = 3 := by omega
    rcases hq with hq | hq | hq | hq
    · rw [candidate, show x / 2 ^ 26 % 64 = 48 by omega]
      simp only []
      rw [minorAtomic, show x % 16 = 1 by omega]
      simp only []
      rw [fld_eq 26 x q (by omega), fld_eq 17 x d (by omega), fld_eq 12 x g (by omega), fld_eq 6 x a (by omega), fld_eq 4 x k (by omega)]
    · rw [candidate, show x / 2 ^ 26 % 64 = 49 by omega]
      simp only []
      rw [minorAtomic, show x % 16 = 1 by omega]
      simp only []
      rw [fld_eq 26 x q (by omega), fld_eq 17 x d (by omega), fld_eq 12 x g (by omega), fld_eq 6 x a (by omega), fld_eq 4 x k (by omega)]
    · rw [candidate, show x / 2 ^ 26 % 64 = 50 by omega]
      simp only []
      rw [minorAtomic, show x % 16 = 1 by omega]
      simp only []
      rw [fld_eq 26 x q (by omega), fld_eq 17 x d (by omega), fld_eq 12 x g (by omega), fld_eq 6 x a (by omega), fld_eq 4 x k (by omega)]
    · rw [candidate, show x / 2 ^ 26 % 64 = 51 by omega]
      simp only []
      rw [minorAtomic, show x % 16 = 1 by omega]
      simp only []
      rw [fld_eq 26 x q (by omega), fld_eq 17 x d (by omega), fld_eq 12 x g (by omega), fld_eq 6 x a (by omega), fld_eq 4 x k (by omega)]
  · rw [show Instr.operands (.asub q d g a k) = [⟨17, 6, 0, .vdst, d.toNat⟩, ⟨6, 6, 0, .pair, a.toNat⟩] from rfl]
    exact all_cons (Nat.and_zero _) (all_cons (Nat.and_zero _) all_nil)
  · exact .inr (by omega)

theorem Sys2Proof.Laws.Encoding.amin (q : BitVec 2) (d : BitVec 6) (g : BitVec 5) (a : BitVec 6) (k : BitVec 2) :
    Encoding.Statement (.amin q d g a k) := by
  intro hwf
  have hq := q.isLt
  have hd := d.isLt
  have hg := g.isLt
  have ha := a.isLt
  have hk := k.isLt
  have ew : encode (.amin q d g a k) = 0xc0000002 + q.toNat * 2 ^ 26 + d.toNat * 2 ^ 17 + g.toNat * 2 ^ 12 + a.toNat * 2 ^ 6 + k.toNat * 2 ^ 4 := rfl
  generalize encode (.amin q d g a k) = x at ew ⊢
  refine decode_of hwf ?_ ?_ ?_
  · have hq : q.toNat = 0 ∨ q.toNat = 1 ∨ q.toNat = 2 ∨ q.toNat = 3 := by omega
    rcases hq with hq | hq | hq | hq
    · rw [candidate, show x / 2 ^ 26 % 64 = 48 by omega]
      simp only []
      rw [minorAtomic, show x % 16 = 2 by omega]
      simp only []
      rw [fld_eq 26 x q (by omega), fld_eq 17 x d (by omega), fld_eq 12 x g (by omega), fld_eq 6 x a (by omega), fld_eq 4 x k (by omega)]
    · rw [candidate, show x / 2 ^ 26 % 64 = 49 by omega]
      simp only []
      rw [minorAtomic, show x % 16 = 2 by omega]
      simp only []
      rw [fld_eq 26 x q (by omega), fld_eq 17 x d (by omega), fld_eq 12 x g (by omega), fld_eq 6 x a (by omega), fld_eq 4 x k (by omega)]
    · rw [candidate, show x / 2 ^ 26 % 64 = 50 by omega]
      simp only []
      rw [minorAtomic, show x % 16 = 2 by omega]
      simp only []
      rw [fld_eq 26 x q (by omega), fld_eq 17 x d (by omega), fld_eq 12 x g (by omega), fld_eq 6 x a (by omega), fld_eq 4 x k (by omega)]
    · rw [candidate, show x / 2 ^ 26 % 64 = 51 by omega]
      simp only []
      rw [minorAtomic, show x % 16 = 2 by omega]
      simp only []
      rw [fld_eq 26 x q (by omega), fld_eq 17 x d (by omega), fld_eq 12 x g (by omega), fld_eq 6 x a (by omega), fld_eq 4 x k (by omega)]
  · rw [show Instr.operands (.amin q d g a k) = [⟨17, 6, 0, .vdst, d.toNat⟩, ⟨6, 6, 0, .pair, a.toNat⟩] from rfl]
    exact all_cons (Nat.and_zero _) (all_cons (Nat.and_zero _) all_nil)
  · exact .inr (by omega)

theorem Sys2Proof.Laws.Encoding.amax (q : BitVec 2) (d : BitVec 6) (g : BitVec 5) (a : BitVec 6) (k : BitVec 2) :
    Encoding.Statement (.amax q d g a k) := by
  intro hwf
  have hq := q.isLt
  have hd := d.isLt
  have hg := g.isLt
  have ha := a.isLt
  have hk := k.isLt
  have ew : encode (.amax q d g a k) = 0xc0000003 + q.toNat * 2 ^ 26 + d.toNat * 2 ^ 17 + g.toNat * 2 ^ 12 + a.toNat * 2 ^ 6 + k.toNat * 2 ^ 4 := rfl
  generalize encode (.amax q d g a k) = x at ew ⊢
  refine decode_of hwf ?_ ?_ ?_
  · have hq : q.toNat = 0 ∨ q.toNat = 1 ∨ q.toNat = 2 ∨ q.toNat = 3 := by omega
    rcases hq with hq | hq | hq | hq
    · rw [candidate, show x / 2 ^ 26 % 64 = 48 by omega]
      simp only []
      rw [minorAtomic, show x % 16 = 3 by omega]
      simp only []
      rw [fld_eq 26 x q (by omega), fld_eq 17 x d (by omega), fld_eq 12 x g (by omega), fld_eq 6 x a (by omega), fld_eq 4 x k (by omega)]
    · rw [candidate, show x / 2 ^ 26 % 64 = 49 by omega]
      simp only []
      rw [minorAtomic, show x % 16 = 3 by omega]
      simp only []
      rw [fld_eq 26 x q (by omega), fld_eq 17 x d (by omega), fld_eq 12 x g (by omega), fld_eq 6 x a (by omega), fld_eq 4 x k (by omega)]
    · rw [candidate, show x / 2 ^ 26 % 64 = 50 by omega]
      simp only []
      rw [minorAtomic, show x % 16 = 3 by omega]
      simp only []
      rw [fld_eq 26 x q (by omega), fld_eq 17 x d (by omega), fld_eq 12 x g (by omega), fld_eq 6 x a (by omega), fld_eq 4 x k (by omega)]
    · rw [candidate, show x / 2 ^ 26 % 64 = 51 by omega]
      simp only []
      rw [minorAtomic, show x % 16 = 3 by omega]
      simp only []
      rw [fld_eq 26 x q (by omega), fld_eq 17 x d (by omega), fld_eq 12 x g (by omega), fld_eq 6 x a (by omega), fld_eq 4 x k (by omega)]
  · rw [show Instr.operands (.amax q d g a k) = [⟨17, 6, 0, .vdst, d.toNat⟩, ⟨6, 6, 0, .pair, a.toNat⟩] from rfl]
    exact all_cons (Nat.and_zero _) (all_cons (Nat.and_zero _) all_nil)
  · exact .inr (by omega)

theorem Sys2Proof.Laws.Encoding.aand (q : BitVec 2) (d : BitVec 6) (g : BitVec 5) (a : BitVec 6) (k : BitVec 2) :
    Encoding.Statement (.aand q d g a k) := by
  intro hwf
  have hq := q.isLt
  have hd := d.isLt
  have hg := g.isLt
  have ha := a.isLt
  have hk := k.isLt
  have ew : encode (.aand q d g a k) = 0xc0000004 + q.toNat * 2 ^ 26 + d.toNat * 2 ^ 17 + g.toNat * 2 ^ 12 + a.toNat * 2 ^ 6 + k.toNat * 2 ^ 4 := rfl
  generalize encode (.aand q d g a k) = x at ew ⊢
  refine decode_of hwf ?_ ?_ ?_
  · have hq : q.toNat = 0 ∨ q.toNat = 1 ∨ q.toNat = 2 ∨ q.toNat = 3 := by omega
    rcases hq with hq | hq | hq | hq
    · rw [candidate, show x / 2 ^ 26 % 64 = 48 by omega]
      simp only []
      rw [minorAtomic, show x % 16 = 4 by omega]
      simp only []
      rw [fld_eq 26 x q (by omega), fld_eq 17 x d (by omega), fld_eq 12 x g (by omega), fld_eq 6 x a (by omega), fld_eq 4 x k (by omega)]
    · rw [candidate, show x / 2 ^ 26 % 64 = 49 by omega]
      simp only []
      rw [minorAtomic, show x % 16 = 4 by omega]
      simp only []
      rw [fld_eq 26 x q (by omega), fld_eq 17 x d (by omega), fld_eq 12 x g (by omega), fld_eq 6 x a (by omega), fld_eq 4 x k (by omega)]
    · rw [candidate, show x / 2 ^ 26 % 64 = 50 by omega]
      simp only []
      rw [minorAtomic, show x % 16 = 4 by omega]
      simp only []
      rw [fld_eq 26 x q (by omega), fld_eq 17 x d (by omega), fld_eq 12 x g (by omega), fld_eq 6 x a (by omega), fld_eq 4 x k (by omega)]
    · rw [candidate, show x / 2 ^ 26 % 64 = 51 by omega]
      simp only []
      rw [minorAtomic, show x % 16 = 4 by omega]
      simp only []
      rw [fld_eq 26 x q (by omega), fld_eq 17 x d (by omega), fld_eq 12 x g (by omega), fld_eq 6 x a (by omega), fld_eq 4 x k (by omega)]
  · rw [show Instr.operands (.aand q d g a k) = [⟨17, 6, 0, .vdst, d.toNat⟩, ⟨6, 6, 0, .pair, a.toNat⟩] from rfl]
    exact all_cons (Nat.and_zero _) (all_cons (Nat.and_zero _) all_nil)
  · exact .inr (by omega)

theorem Sys2Proof.Laws.Encoding.aor (q : BitVec 2) (d : BitVec 6) (g : BitVec 5) (a : BitVec 6) (k : BitVec 2) :
    Encoding.Statement (.aor q d g a k) := by
  intro hwf
  have hq := q.isLt
  have hd := d.isLt
  have hg := g.isLt
  have ha := a.isLt
  have hk := k.isLt
  have ew : encode (.aor q d g a k) = 0xc0000005 + q.toNat * 2 ^ 26 + d.toNat * 2 ^ 17 + g.toNat * 2 ^ 12 + a.toNat * 2 ^ 6 + k.toNat * 2 ^ 4 := rfl
  generalize encode (.aor q d g a k) = x at ew ⊢
  refine decode_of hwf ?_ ?_ ?_
  · have hq : q.toNat = 0 ∨ q.toNat = 1 ∨ q.toNat = 2 ∨ q.toNat = 3 := by omega
    rcases hq with hq | hq | hq | hq
    · rw [candidate, show x / 2 ^ 26 % 64 = 48 by omega]
      simp only []
      rw [minorAtomic, show x % 16 = 5 by omega]
      simp only []
      rw [fld_eq 26 x q (by omega), fld_eq 17 x d (by omega), fld_eq 12 x g (by omega), fld_eq 6 x a (by omega), fld_eq 4 x k (by omega)]
    · rw [candidate, show x / 2 ^ 26 % 64 = 49 by omega]
      simp only []
      rw [minorAtomic, show x % 16 = 5 by omega]
      simp only []
      rw [fld_eq 26 x q (by omega), fld_eq 17 x d (by omega), fld_eq 12 x g (by omega), fld_eq 6 x a (by omega), fld_eq 4 x k (by omega)]
    · rw [candidate, show x / 2 ^ 26 % 64 = 50 by omega]
      simp only []
      rw [minorAtomic, show x % 16 = 5 by omega]
      simp only []
      rw [fld_eq 26 x q (by omega), fld_eq 17 x d (by omega), fld_eq 12 x g (by omega), fld_eq 6 x a (by omega), fld_eq 4 x k (by omega)]
    · rw [candidate, show x / 2 ^ 26 % 64 = 51 by omega]
      simp only []
      rw [minorAtomic, show x % 16 = 5 by omega]
      simp only []
      rw [fld_eq 26 x q (by omega), fld_eq 17 x d (by omega), fld_eq 12 x g (by omega), fld_eq 6 x a (by omega), fld_eq 4 x k (by omega)]
  · rw [show Instr.operands (.aor q d g a k) = [⟨17, 6, 0, .vdst, d.toNat⟩, ⟨6, 6, 0, .pair, a.toNat⟩] from rfl]
    exact all_cons (Nat.and_zero _) (all_cons (Nat.and_zero _) all_nil)
  · exact .inr (by omega)

theorem Sys2Proof.Laws.Encoding.axor (q : BitVec 2) (d : BitVec 6) (g : BitVec 5) (a : BitVec 6) (k : BitVec 2) :
    Encoding.Statement (.axor q d g a k) := by
  intro hwf
  have hq := q.isLt
  have hd := d.isLt
  have hg := g.isLt
  have ha := a.isLt
  have hk := k.isLt
  have ew : encode (.axor q d g a k) = 0xc0000006 + q.toNat * 2 ^ 26 + d.toNat * 2 ^ 17 + g.toNat * 2 ^ 12 + a.toNat * 2 ^ 6 + k.toNat * 2 ^ 4 := rfl
  generalize encode (.axor q d g a k) = x at ew ⊢
  refine decode_of hwf ?_ ?_ ?_
  · have hq : q.toNat = 0 ∨ q.toNat = 1 ∨ q.toNat = 2 ∨ q.toNat = 3 := by omega
    rcases hq with hq | hq | hq | hq
    · rw [candidate, show x / 2 ^ 26 % 64 = 48 by omega]
      simp only []
      rw [minorAtomic, show x % 16 = 6 by omega]
      simp only []
      rw [fld_eq 26 x q (by omega), fld_eq 17 x d (by omega), fld_eq 12 x g (by omega), fld_eq 6 x a (by omega), fld_eq 4 x k (by omega)]
    · rw [candidate, show x / 2 ^ 26 % 64 = 49 by omega]
      simp only []
      rw [minorAtomic, show x % 16 = 6 by omega]
      simp only []
      rw [fld_eq 26 x q (by omega), fld_eq 17 x d (by omega), fld_eq 12 x g (by omega), fld_eq 6 x a (by omega), fld_eq 4 x k (by omega)]
    · rw [candidate, show x / 2 ^ 26 % 64 = 50 by omega]
      simp only []
      rw [minorAtomic, show x % 16 = 6 by omega]
      simp only []
      rw [fld_eq 26 x q (by omega), fld_eq 17 x d (by omega), fld_eq 12 x g (by omega), fld_eq 6 x a (by omega), fld_eq 4 x k (by omega)]
    · rw [candidate, show x / 2 ^ 26 % 64 = 51 by omega]
      simp only []
      rw [minorAtomic, show x % 16 = 6 by omega]
      simp only []
      rw [fld_eq 26 x q (by omega), fld_eq 17 x d (by omega), fld_eq 12 x g (by omega), fld_eq 6 x a (by omega), fld_eq 4 x k (by omega)]
  · rw [show Instr.operands (.axor q d g a k) = [⟨17, 6, 0, .vdst, d.toNat⟩, ⟨6, 6, 0, .pair, a.toNat⟩] from rfl]
    exact all_cons (Nat.and_zero _) (all_cons (Nat.and_zero _) all_nil)
  · exact .inr (by omega)

theorem Sys2Proof.Laws.Encoding.axchg (q : BitVec 2) (d : BitVec 6) (g : BitVec 5) (a : BitVec 6) (k : BitVec 2) :
    Encoding.Statement (.axchg q d g a k) := by
  intro hwf
  have hq := q.isLt
  have hd := d.isLt
  have hg := g.isLt
  have ha := a.isLt
  have hk := k.isLt
  have ew : encode (.axchg q d g a k) = 0xc0000007 + q.toNat * 2 ^ 26 + d.toNat * 2 ^ 17 + g.toNat * 2 ^ 12 + a.toNat * 2 ^ 6 + k.toNat * 2 ^ 4 := rfl
  generalize encode (.axchg q d g a k) = x at ew ⊢
  refine decode_of hwf ?_ ?_ ?_
  · have hq : q.toNat = 0 ∨ q.toNat = 1 ∨ q.toNat = 2 ∨ q.toNat = 3 := by omega
    rcases hq with hq | hq | hq | hq
    · rw [candidate, show x / 2 ^ 26 % 64 = 48 by omega]
      simp only []
      rw [minorAtomic, show x % 16 = 7 by omega]
      simp only []
      rw [fld_eq 26 x q (by omega), fld_eq 17 x d (by omega), fld_eq 12 x g (by omega), fld_eq 6 x a (by omega), fld_eq 4 x k (by omega)]
    · rw [candidate, show x / 2 ^ 26 % 64 = 49 by omega]
      simp only []
      rw [minorAtomic, show x % 16 = 7 by omega]
      simp only []
      rw [fld_eq 26 x q (by omega), fld_eq 17 x d (by omega), fld_eq 12 x g (by omega), fld_eq 6 x a (by omega), fld_eq 4 x k (by omega)]
    · rw [candidate, show x / 2 ^ 26 % 64 = 50 by omega]
      simp only []
      rw [minorAtomic, show x % 16 = 7 by omega]
      simp only []
      rw [fld_eq 26 x q (by omega), fld_eq 17 x d (by omega), fld_eq 12 x g (by omega), fld_eq 6 x a (by omega), fld_eq 4 x k (by omega)]
    · rw [candidate, show x / 2 ^ 26 % 64 = 51 by omega]
      simp only []
      rw [minorAtomic, show x % 16 = 7 by omega]
      simp only []
      rw [fld_eq 26 x q (by omega), fld_eq 17 x d (by omega), fld_eq 12 x g (by omega), fld_eq 6 x a (by omega), fld_eq 4 x k (by omega)]
  · rw [show Instr.operands (.axchg q d g a k) = [⟨17, 6, 0, .vdst, d.toNat⟩, ⟨6, 6, 0, .pair, a.toNat⟩] from rfl]
    exact all_cons (Nat.and_zero _) (all_cons (Nat.and_zero _) all_nil)
  · exact .inr (by omega)

theorem Sys2Proof.Laws.Encoding.acas (q : BitVec 2) (d : BitVec 6) (g : BitVec 5) (a : BitVec 6) (k : BitVec 2) :
    Encoding.Statement (.acas q d g a k) := by
  intro hwf
  have hq := q.isLt
  have hd := d.isLt
  have hg := g.isLt
  have ha := a.isLt
  have hk := k.isLt
  have ew : encode (.acas q d g a k) = 0xc0000008 + q.toNat * 2 ^ 26 + d.toNat * 2 ^ 17 + g.toNat * 2 ^ 12 + a.toNat * 2 ^ 6 + k.toNat * 2 ^ 4 := rfl
  generalize encode (.acas q d g a k) = x at ew ⊢
  refine decode_of hwf ?_ ?_ ?_
  · have hq : q.toNat = 0 ∨ q.toNat = 1 ∨ q.toNat = 2 ∨ q.toNat = 3 := by omega
    rcases hq with hq | hq | hq | hq
    · rw [candidate, show x / 2 ^ 26 % 64 = 48 by omega]
      simp only []
      rw [minorAtomic, show x % 16 = 8 by omega]
      simp only []
      rw [fld_eq 26 x q (by omega), fld_eq 17 x d (by omega), fld_eq 12 x g (by omega), fld_eq 6 x a (by omega), fld_eq 4 x k (by omega)]
    · rw [candidate, show x / 2 ^ 26 % 64 = 49 by omega]
      simp only []
      rw [minorAtomic, show x % 16 = 8 by omega]
      simp only []
      rw [fld_eq 26 x q (by omega), fld_eq 17 x d (by omega), fld_eq 12 x g (by omega), fld_eq 6 x a (by omega), fld_eq 4 x k (by omega)]
    · rw [candidate, show x / 2 ^ 26 % 64 = 50 by omega]
      simp only []
      rw [minorAtomic, show x % 16 = 8 by omega]
      simp only []
      rw [fld_eq 26 x q (by omega), fld_eq 17 x d (by omega), fld_eq 12 x g (by omega), fld_eq 6 x a (by omega), fld_eq 4 x k (by omega)]
    · rw [candidate, show x / 2 ^ 26 % 64 = 51 by omega]
      simp only []
      rw [minorAtomic, show x % 16 = 8 by omega]
      simp only []
      rw [fld_eq 26 x q (by omega), fld_eq 17 x d (by omega), fld_eq 12 x g (by omega), fld_eq 6 x a (by omega), fld_eq 4 x k (by omega)]
  · rw [show Instr.operands (.acas q d g a k) = [⟨17, 6, 0, .vdst, d.toNat⟩, ⟨6, 6, 0, .pair, a.toNat⟩] from rfl]
    exact all_cons (Nat.and_zero _) (all_cons (Nat.and_zero _) all_nil)
  · exact .inr (by omega)

theorem Sys2Proof.Laws.Encoding.ainc (q : BitVec 2) (d : BitVec 6) (g : BitVec 5) (a : BitVec 6) (k : BitVec 2) :
    Encoding.Statement (.ainc q d g a k) := by
  intro hwf
  have hq := q.isLt
  have hd := d.isLt
  have hg := g.isLt
  have ha := a.isLt
  have hk := k.isLt
  have ew : encode (.ainc q d g a k) = 0xc0000009 + q.toNat * 2 ^ 26 + d.toNat * 2 ^ 17 + g.toNat * 2 ^ 12 + a.toNat * 2 ^ 6 + k.toNat * 2 ^ 4 := rfl
  generalize encode (.ainc q d g a k) = x at ew ⊢
  refine decode_of hwf ?_ ?_ ?_
  · have hq : q.toNat = 0 ∨ q.toNat = 1 ∨ q.toNat = 2 ∨ q.toNat = 3 := by omega
    rcases hq with hq | hq | hq | hq
    · rw [candidate, show x / 2 ^ 26 % 64 = 48 by omega]
      simp only []
      rw [minorAtomic, show x % 16 = 9 by omega]
      simp only []
      rw [fld_eq 26 x q (by omega), fld_eq 17 x d (by omega), fld_eq 12 x g (by omega), fld_eq 6 x a (by omega), fld_eq 4 x k (by omega)]
    · rw [candidate, show x / 2 ^ 26 % 64 = 49 by omega]
      simp only []
      rw [minorAtomic, show x % 16 = 9 by omega]
      simp only []
      rw [fld_eq 26 x q (by omega), fld_eq 17 x d (by omega), fld_eq 12 x g (by omega), fld_eq 6 x a (by omega), fld_eq 4 x k (by omega)]
    · rw [candidate, show x / 2 ^ 26 % 64 = 50 by omega]
      simp only []
      rw [minorAtomic, show x % 16 = 9 by omega]
      simp only []
      rw [fld_eq 26 x q (by omega), fld_eq 17 x d (by omega), fld_eq 12 x g (by omega), fld_eq 6 x a (by omega), fld_eq 4 x k (by omega)]
    · rw [candidate, show x / 2 ^ 26 % 64 = 51 by omega]
      simp only []
      rw [minorAtomic, show x % 16 = 9 by omega]
      simp only []
      rw [fld_eq 26 x q (by omega), fld_eq 17 x d (by omega), fld_eq 12 x g (by omega), fld_eq 6 x a (by omega), fld_eq 4 x k (by omega)]
  · rw [show Instr.operands (.ainc q d g a k) = [⟨17, 6, 0, .vdst, d.toNat⟩, ⟨6, 6, 0, .pair, a.toNat⟩] from rfl]
    exact all_cons (Nat.and_zero _) (all_cons (Nat.and_zero _) all_nil)
  · exact .inr (by omega)

theorem Sys2Proof.Laws.Encoding.adec (q : BitVec 2) (d : BitVec 6) (g : BitVec 5) (a : BitVec 6) (k : BitVec 2) :
    Encoding.Statement (.adec q d g a k) := by
  intro hwf
  have hq := q.isLt
  have hd := d.isLt
  have hg := g.isLt
  have ha := a.isLt
  have hk := k.isLt
  have ew : encode (.adec q d g a k) = 0xc000000a + q.toNat * 2 ^ 26 + d.toNat * 2 ^ 17 + g.toNat * 2 ^ 12 + a.toNat * 2 ^ 6 + k.toNat * 2 ^ 4 := rfl
  generalize encode (.adec q d g a k) = x at ew ⊢
  refine decode_of hwf ?_ ?_ ?_
  · have hq : q.toNat = 0 ∨ q.toNat = 1 ∨ q.toNat = 2 ∨ q.toNat = 3 := by omega
    rcases hq with hq | hq | hq | hq
    · rw [candidate, show x / 2 ^ 26 % 64 = 48 by omega]
      simp only []
      rw [minorAtomic, show x % 16 = 10 by omega]
      simp only []
      rw [fld_eq 26 x q (by omega), fld_eq 17 x d (by omega), fld_eq 12 x g (by omega), fld_eq 6 x a (by omega), fld_eq 4 x k (by omega)]
    · rw [candidate, show x / 2 ^ 26 % 64 = 49 by omega]
      simp only []
      rw [minorAtomic, show x % 16 = 10 by omega]
      simp only []
      rw [fld_eq 26 x q (by omega), fld_eq 17 x d (by omega), fld_eq 12 x g (by omega), fld_eq 6 x a (by omega), fld_eq 4 x k (by omega)]
    · rw [candidate, show x / 2 ^ 26 % 64 = 50 by omega]
      simp only []
      rw [minorAtomic, show x % 16 = 10 by omega]
      simp only []
      rw [fld_eq 26 x q (by omega), fld_eq 17 x d (by omega), fld_eq 12 x g (by omega), fld_eq 6 x a (by omega), fld_eq 4 x k (by omega)]
    · rw [candidate, show x / 2 ^ 26 % 64 = 51 by omega]
      simp only []
      rw [minorAtomic, show x % 16 = 10 by omega]
      simp only []
      rw [fld_eq 26 x q (by omega), fld_eq 17 x d (by omega), fld_eq 12 x g (by omega), fld_eq 6 x a (by omega), fld_eq 4 x k (by omega)]
  · rw [show Instr.operands (.adec q d g a k) = [⟨17, 6, 0, .vdst, d.toNat⟩, ⟨6, 6, 0, .pair, a.toNat⟩] from rfl]
    exact all_cons (Nat.and_zero _) (all_cons (Nat.and_zero _) all_nil)
  · exact .inr (by omega)

theorem Sys2Proof.Laws.Encoding.afadd (q : BitVec 2) (d : BitVec 6) (g : BitVec 5) (a : BitVec 6) (k : BitVec 2) :
    Encoding.Statement (.afadd q d g a k) := by
  intro hwf
  have hq := q.isLt
  have hd := d.isLt
  have hg := g.isLt
  have ha := a.isLt
  have hk := k.isLt
  have ew : encode (.afadd q d g a k) = 0xc000000b + q.toNat * 2 ^ 26 + d.toNat * 2 ^ 17 + g.toNat * 2 ^ 12 + a.toNat * 2 ^ 6 + k.toNat * 2 ^ 4 := rfl
  generalize encode (.afadd q d g a k) = x at ew ⊢
  refine decode_of hwf ?_ ?_ ?_
  · have hq : q.toNat = 0 ∨ q.toNat = 1 ∨ q.toNat = 2 ∨ q.toNat = 3 := by omega
    rcases hq with hq | hq | hq | hq
    · rw [candidate, show x / 2 ^ 26 % 64 = 48 by omega]
      simp only []
      rw [minorAtomic, show x % 16 = 11 by omega]
      simp only []
      rw [fld_eq 26 x q (by omega), fld_eq 17 x d (by omega), fld_eq 12 x g (by omega), fld_eq 6 x a (by omega), fld_eq 4 x k (by omega)]
    · rw [candidate, show x / 2 ^ 26 % 64 = 49 by omega]
      simp only []
      rw [minorAtomic, show x % 16 = 11 by omega]
      simp only []
      rw [fld_eq 26 x q (by omega), fld_eq 17 x d (by omega), fld_eq 12 x g (by omega), fld_eq 6 x a (by omega), fld_eq 4 x k (by omega)]
    · rw [candidate, show x / 2 ^ 26 % 64 = 50 by omega]
      simp only []
      rw [minorAtomic, show x % 16 = 11 by omega]
      simp only []
      rw [fld_eq 26 x q (by omega), fld_eq 17 x d (by omega), fld_eq 12 x g (by omega), fld_eq 6 x a (by omega), fld_eq 4 x k (by omega)]
    · rw [candidate, show x / 2 ^ 26 % 64 = 51 by omega]
      simp only []
      rw [minorAtomic, show x % 16 = 11 by omega]
      simp only []
      rw [fld_eq 26 x q (by omega), fld_eq 17 x d (by omega), fld_eq 12 x g (by omega), fld_eq 6 x a (by omega), fld_eq 4 x k (by omega)]
  · rw [show Instr.operands (.afadd q d g a k) = [⟨17, 6, 0, .vdst, d.toNat⟩, ⟨6, 6, 0, .pair, a.toNat⟩] from rfl]
    exact all_cons (Nat.and_zero _) (all_cons (Nat.and_zero _) all_nil)
  · exact .inr (by omega)

theorem Sys2Proof.Laws.Encoding.ald (q : BitVec 1) (d : BitVec 6) (g : BitVec 5) (a : BitVec 6) (k : BitVec 2) :
    Encoding.Statement (.ald q d g a k) := by
  intro hwf
  have hq := q.isLt
  have hd := d.isLt
  have hg := g.isLt
  have ha := a.isLt
  have hk := k.isLt
  have ew : encode (.ald q d g a k) = 0xc000000c + q.toNat * 2 ^ 26 + d.toNat * 2 ^ 17 + g.toNat * 2 ^ 12 + a.toNat * 2 ^ 6 + k.toNat * 2 ^ 4 := rfl
  generalize encode (.ald q d g a k) = x at ew ⊢
  refine decode_of hwf ?_ ?_ ?_
  · have hq : q.toNat = 0 ∨ q.toNat = 1 := by omega
    rcases hq with hq | hq
    · rw [candidate, show x / 2 ^ 26 % 64 = 48 by omega]
      simp only []
      rw [minorAtomic, show x % 16 = 12 by omega]
      simp only []
      rw [if_neg (show ¬ x / 2 ^ 27 % 2 = 1 by omega), fld_eq 26 x q (by omega), fld_eq 17 x d (by omega), fld_eq 12 x g (by omega), fld_eq 6 x a (by omega), fld_eq 4 x k (by omega)]
    · rw [candidate, show x / 2 ^ 26 % 64 = 49 by omega]
      simp only []
      rw [minorAtomic, show x % 16 = 12 by omega]
      simp only []
      rw [if_neg (show ¬ x / 2 ^ 27 % 2 = 1 by omega), fld_eq 26 x q (by omega), fld_eq 17 x d (by omega), fld_eq 12 x g (by omega), fld_eq 6 x a (by omega), fld_eq 4 x k (by omega)]
  · rw [show Instr.operands (.ald q d g a k) = [⟨17, 6, 0, .vdst, d.toNat⟩, ⟨6, 6, 0, .pair, a.toNat⟩] from rfl]
    exact all_cons (Nat.and_zero _) (all_cons (Nat.and_zero _) all_nil)
  · exact .inr (by omega)

theorem Sys2Proof.Laws.Encoding.ast (q : BitVec 1) (d : BitVec 6) (g : BitVec 5) (a : BitVec 6) (k : BitVec 2) :
    Encoding.Statement (.ast q d g a k) := by
  intro hwf
  have hq := q.isLt
  have hd := d.isLt
  have hg := g.isLt
  have ha := a.isLt
  have hk := k.isLt
  have ew : encode (.ast q d g a k) = 0xc000000d + q.toNat * 2 ^ 27 + d.toNat * 2 ^ 17 + g.toNat * 2 ^ 12 + a.toNat * 2 ^ 6 + k.toNat * 2 ^ 4 := rfl
  generalize encode (.ast q d g a k) = x at ew ⊢
  refine decode_of hwf ?_ ?_ ?_
  · have hq : q.toNat = 0 ∨ q.toNat = 1 := by omega
    rcases hq with hq | hq
    · rw [candidate, show x / 2 ^ 26 % 64 = 48 by omega]
      simp only []
      rw [minorAtomic, show x % 16 = 13 by omega]
      simp only []
      rw [if_neg (show ¬ x / 2 ^ 26 % 2 = 1 by omega), fld_eq 27 x q (by omega), fld_eq 17 x d (by omega), fld_eq 12 x g (by omega), fld_eq 6 x a (by omega), fld_eq 4 x k (by omega)]
    · rw [candidate, show x / 2 ^ 26 % 64 = 50 by omega]
      simp only []
      rw [minorAtomic, show x % 16 = 13 by omega]
      simp only []
      rw [if_neg (show ¬ x / 2 ^ 26 % 2 = 1 by omega), fld_eq 27 x q (by omega), fld_eq 17 x d (by omega), fld_eq 12 x g (by omega), fld_eq 6 x a (by omega), fld_eq 4 x k (by omega)]
  · rw [show Instr.operands (.ast q d g a k) = [⟨17, 6, 0, .vsrc, d.toNat⟩, ⟨6, 6, 0, .pair, a.toNat⟩] from rfl]
    exact all_cons (Nat.and_zero _) (all_cons (Nat.and_zero _) all_nil)
  · exact .inr (by omega)

theorem Sys2Proof.Laws.Encoding.ahint (h : BitVec 6) (g : BitVec 5) :
    Encoding.Statement (.ahint h g) := by
  intro hwf
  have hh := h.isLt
  have hg := g.isLt
  have ew : encode (.ahint h g) = 0xc000000e + h.toNat * 2 ^ 17 + g.toNat * 2 ^ 12 := rfl
  generalize encode (.ahint h g) = x at ew ⊢
  refine decode_of hwf ?_ ?_ ?_
  · rw [candidate, show x / 2 ^ 26 % 64 = 48 by omega]
    simp only []
    rw [minorAtomic, show x % 16 = 14 by omega]
    simp only []
    rw [if_neg (show ¬ x / 2 ^ 26 % 4 ≠ 0 by omega), fld_eq 17 x h (by omega), fld_eq 12 x g (by omega)]
  · rw [show Instr.operands (.ahint h g) = [⟨17, 6, 0, .imm 0 2, h.toNat⟩, ⟨6, 6, 63, .zero, 0⟩, ⟨4, 2, 3, .zero, 0⟩] from rfl]
    exact all_cons (Nat.and_zero _) (all_cons (show x / 2 ^ 6 % 2 ^ 6 &&& 63 = 0 from and_high (k := 0) 63 (by omega)) (all_cons (show x / 2 ^ 4 % 2 ^ 2 &&& 3 = 0 from and_high (k := 0) 3 (by omega)) all_nil))
  · exact .inr (by omega)

theorem Sys2Proof.Laws.Encoding.cpl (d : BitVec 6) (a : BitVec 6) (b : BitVec 6) :
    Encoding.Statement (.cpl d a b) := by
  intro hwf
  have hd := d.isLt
  have ha := a.isLt
  have hb := b.isLt
  have ew : encode (.cpl d a b) = 0xd0000000 + d.toNat * 2 ^ 17 + a.toNat * 2 ^ 11 + b.toNat * 2 ^ 5 := rfl
  generalize encode (.cpl d a b) = x at ew ⊢
  refine decode_of hwf ?_ ?_ ?_
  · rw [candidate, show x / 2 ^ 26 % 64 = 52 by omega]
    simp only []
    rw [minorCopy, show x % 32 = 0 by omega]
    simp only []
    rw [fld_eq 17 x d (by omega), fld_eq 11 x a (by omega), fld_eq 5 x b (by omega)]
  · rw [show Instr.operands (.cpl d a b) = [⟨17, 6, 0, .regionOp, d.toNat⟩, ⟨11, 6, 0, .regionOp, a.toNat⟩, ⟨5, 6, 0, .quad, b.toNat⟩] from rfl]
    exact all_cons (Nat.and_zero _) (all_cons (Nat.and_zero _) (all_cons (Nat.and_zero _) all_nil))
  · exact .inr (by omega)

theorem Sys2Proof.Laws.Encoding.cpb (d : BitVec 6) (a : BitVec 6) (b : BitVec 6) :
    Encoding.Statement (.cpb d a b) := by
  intro hwf
  have hd := d.isLt
  have ha := a.isLt
  have hb := b.isLt
  have ew : encode (.cpb d a b) = 0xd0000001 + d.toNat * 2 ^ 17 + a.toNat * 2 ^ 11 + b.toNat * 2 ^ 5 := rfl
  generalize encode (.cpb d a b) = x at ew ⊢
  refine decode_of hwf ?_ ?_ ?_
  · rw [candidate, show x / 2 ^ 26 % 64 = 52 by omega]
    simp only []
    rw [minorCopy, show x % 32 = 1 by omega]
    simp only []
    rw [fld_eq 17 x d (by omega), fld_eq 11 x a (by omega), fld_eq 5 x b (by omega)]
  · rw [show Instr.operands (.cpb d a b) = [⟨17, 6, 0, .regionOp, d.toNat⟩, ⟨11, 6, 0, .regionOp, a.toNat⟩, ⟨5, 6, 0, .quad, b.toNat⟩] from rfl]
    exact all_cons (Nat.and_zero _) (all_cons (Nat.and_zero _) (all_cons (Nat.and_zero _) all_nil))
  · exact .inr (by omega)

theorem Sys2Proof.Laws.Encoding.cprAdd (d : BitVec 6) (a : BitVec 6) (b : BitVec 6) :
    Encoding.Statement (.cprAdd d a b) := by
  intro hwf
  have hd := d.isLt
  have ha := a.isLt
  have hb := b.isLt
  have ew : encode (.cprAdd d a b) = 0xd0000004 + d.toNat * 2 ^ 17 + a.toNat * 2 ^ 11 + b.toNat * 2 ^ 5 := rfl
  generalize encode (.cprAdd d a b) = x at ew ⊢
  refine decode_of hwf ?_ ?_ ?_
  · rw [candidate, show x / 2 ^ 26 % 64 = 52 by omega]
    simp only []
    rw [minorCopy, show x % 32 = 4 by omega]
    simp only []
    rw [fld_eq 17 x d (by omega), fld_eq 11 x a (by omega), fld_eq 5 x b (by omega)]
  · rw [show Instr.operands (.cprAdd d a b) = [⟨17, 6, 0, .region, d.toNat⟩, ⟨11, 6, 0, .regionOp, a.toNat⟩, ⟨5, 6, 0, .quad, b.toNat⟩] from rfl]
    exact all_cons (Nat.and_zero _) (all_cons (Nat.and_zero _) (all_cons (Nat.and_zero _) all_nil))
  · exact .inr (by omega)

theorem Sys2Proof.Laws.Encoding.cprMin (d : BitVec 6) (a : BitVec 6) (b : BitVec 6) :
    Encoding.Statement (.cprMin d a b) := by
  intro hwf
  have hd := d.isLt
  have ha := a.isLt
  have hb := b.isLt
  have ew : encode (.cprMin d a b) = 0xd0000005 + d.toNat * 2 ^ 17 + a.toNat * 2 ^ 11 + b.toNat * 2 ^ 5 := rfl
  generalize encode (.cprMin d a b) = x at ew ⊢
  refine decode_of hwf ?_ ?_ ?_
  · rw [candidate, show x / 2 ^ 26 % 64 = 52 by omega]
    simp only []
    rw [minorCopy, show x % 32 = 5 by omega]
    simp only []
    rw [fld_eq 17 x d (by omega), fld_eq 11 x a (by omega), fld_eq 5 x b (by omega)]
  · rw [show Instr.operands (.cprMin d a b) = [⟨17, 6, 0, .region, d.toNat⟩, ⟨11, 6, 0, .regionOp, a.toNat⟩, ⟨5, 6, 0, .quad, b.toNat⟩] from rfl]
    exact all_cons (Nat.and_zero _) (all_cons (Nat.and_zero _) (all_cons (Nat.and_zero _) all_nil))
  · exact .inr (by omega)

theorem Sys2Proof.Laws.Encoding.cprMax (d : BitVec 6) (a : BitVec 6) (b : BitVec 6) :
    Encoding.Statement (.cprMax d a b) := by
  intro hwf
  have hd := d.isLt
  have ha := a.isLt
  have hb := b.isLt
  have ew : encode (.cprMax d a b) = 0xd0000006 + d.toNat * 2 ^ 17 + a.toNat * 2 ^ 11 + b.toNat * 2 ^ 5 := rfl
  generalize encode (.cprMax d a b) = x at ew ⊢
  refine decode_of hwf ?_ ?_ ?_
  · rw [candidate, show x / 2 ^ 26 % 64 = 52 by omega]
    simp only []
    rw [minorCopy, show x % 32 = 6 by omega]
    simp only []
    rw [fld_eq 17 x d (by omega), fld_eq 11 x a (by omega), fld_eq 5 x b (by omega)]
  · rw [show Instr.operands (.cprMax d a b) = [⟨17, 6, 0, .region, d.toNat⟩, ⟨11, 6, 0, .regionOp, a.toNat⟩, ⟨5, 6, 0, .quad, b.toNat⟩] from rfl]
    exact all_cons (Nat.and_zero _) (all_cons (Nat.and_zero _) (all_cons (Nat.and_zero _) all_nil))
  · exact .inr (by omega)

theorem Sys2Proof.Laws.Encoding.cprFadd (d : BitVec 6) (a : BitVec 6) (b : BitVec 6) :
    Encoding.Statement (.cprFadd d a b) := by
  intro hwf
  have hd := d.isLt
  have ha := a.isLt
  have hb := b.isLt
  have ew : encode (.cprFadd d a b) = 0xd0000007 + d.toNat * 2 ^ 17 + a.toNat * 2 ^ 11 + b.toNat * 2 ^ 5 := rfl
  generalize encode (.cprFadd d a b) = x at ew ⊢
  refine decode_of hwf ?_ ?_ ?_
  · rw [candidate, show x / 2 ^ 26 % 64 = 52 by omega]
    simp only []
    rw [minorCopy, show x % 32 = 7 by omega]
    simp only []
    rw [fld_eq 17 x d (by omega), fld_eq 11 x a (by omega), fld_eq 5 x b (by omega)]
  · rw [show Instr.operands (.cprFadd d a b) = [⟨17, 6, 0, .region, d.toNat⟩, ⟨11, 6, 0, .regionOp, a.toNat⟩, ⟨5, 6, 0, .quad, b.toNat⟩] from rfl]
    exact all_cons (Nat.and_zero _) (all_cons (Nat.and_zero _) (all_cons (Nat.and_zero _) all_nil))
  · exact .inr (by omega)

theorem Sys2Proof.Laws.Encoding.winit (d : BitVec 6) (a : BitVec 6) (b : BitVec 6) :
    Encoding.Statement (.winit d a b) := by
  intro hwf
  have hd := d.isLt
  have ha := a.isLt
  have hb := b.isLt
  have ew : encode (.winit d a b) = 0xd4000000 + d.toNat * 2 ^ 17 + a.toNat * 2 ^ 11 + b.toNat * 2 ^ 5 := rfl
  generalize encode (.winit d a b) = x at ew ⊢
  refine decode_of hwf ?_ ?_ ?_
  · rw [candidate, show x / 2 ^ 26 % 64 = 53 by omega]
    simp only []
    rw [minorBarrier, show x % 32 = 0 by omega]
    simp only []
    rw [fld_eq 17 x d (by omega), fld_eq 11 x a (by omega), fld_eq 5 x b (by omega)]
  · rw [show Instr.operands (.winit d a b) = [⟨17, 6, 0, .bar, d.toNat⟩, ⟨11, 6, 0, .vsrc, a.toNat⟩, ⟨5, 6, 0, .vsrc, b.toNat⟩] from rfl]
    exact all_cons (Nat.and_zero _) (all_cons (Nat.and_zero _) (all_cons (Nat.and_zero _) all_nil))
  · exact .inr (by omega)

theorem Sys2Proof.Laws.Encoding.wexp (d : BitVec 6) (a : BitVec 6) :
    Encoding.Statement (.wexp d a) := by
  intro hwf
  have hd := d.isLt
  have ha := a.isLt
  have ew : encode (.wexp d a) = 0xd4000001 + d.toNat * 2 ^ 17 + a.toNat * 2 ^ 11 := rfl
  generalize encode (.wexp d a) = x at ew ⊢
  refine decode_of hwf ?_ ?_ ?_
  · rw [candidate, show x / 2 ^ 26 % 64 = 53 by omega]
    simp only []
    rw [minorBarrier, show x % 32 = 1 by omega]
    simp only []
    rw [fld_eq 17 x d (by omega), fld_eq 11 x a (by omega)]
  · rw [show Instr.operands (.wexp d a) = [⟨17, 6, 0, .bar, d.toNat⟩, ⟨11, 6, 0, .vsrc, a.toNat⟩, ⟨5, 6, 63, .zero, 0⟩] from rfl]
    exact all_cons (Nat.and_zero _) (all_cons (Nat.and_zero _) (all_cons (show x / 2 ^ 5 % 2 ^ 6 &&& 63 = 0 from and_high (k := 0) 63 (by omega)) all_nil))
  · exact .inr (by omega)

theorem Sys2Proof.Laws.Encoding.warr (d : BitVec 6) :
    Encoding.Statement (.warr d) := by
  intro hwf
  have hd := d.isLt
  have ew : encode (.warr d) = 0xd4000002 + d.toNat * 2 ^ 17 := rfl
  generalize encode (.warr d) = x at ew ⊢
  refine decode_of hwf ?_ ?_ ?_
  · rw [candidate, show x / 2 ^ 26 % 64 = 53 by omega]
    simp only []
    rw [minorBarrier, show x % 32 = 2 by omega]
    simp only []
    rw [fld_eq 17 x d (by omega)]
  · rw [show Instr.operands (.warr d) = [⟨17, 6, 0, .bar, d.toNat⟩, ⟨11, 6, 63, .zero, 0⟩, ⟨5, 6, 63, .zero, 0⟩] from rfl]
    exact all_cons (Nat.and_zero _) (all_cons (show x / 2 ^ 11 % 2 ^ 6 &&& 63 = 0 from and_high (k := 0) 63 (by omega)) (all_cons (show x / 2 ^ 5 % 2 ^ 6 &&& 63 = 0 from and_high (k := 0) 63 (by omega)) all_nil))
  · exact .inr (by omega)

theorem Sys2Proof.Laws.Encoding.wwait (d : BitVec 6) :
    Encoding.Statement (.wwait d) := by
  intro hwf
  have hd := d.isLt
  have ew : encode (.wwait d) = 0xd4000003 + d.toNat * 2 ^ 17 := rfl
  generalize encode (.wwait d) = x at ew ⊢
  refine decode_of hwf ?_ ?_ ?_
  · rw [candidate, show x / 2 ^ 26 % 64 = 53 by omega]
    simp only []
    rw [minorBarrier, show x % 32 = 3 by omega]
    simp only []
    rw [fld_eq 17 x d (by omega)]
  · rw [show Instr.operands (.wwait d) = [⟨17, 6, 0, .bar, d.toNat⟩, ⟨11, 6, 63, .zero, 0⟩, ⟨5, 6, 63, .zero, 0⟩] from rfl]
    exact all_cons (Nat.and_zero _) (all_cons (show x / 2 ^ 11 % 2 ^ 6 &&& 63 = 0 from and_high (k := 0) 63 (by omega)) (all_cons (show x / 2 ^ 5 % 2 ^ 6 &&& 63 = 0 from and_high (k := 0) 63 (by omega)) all_nil))
  · exact .inr (by omega)

theorem Sys2Proof.Laws.Encoding.wtest (d : BitVec 6) (a : BitVec 6) :
    Encoding.Statement (.wtest d a) := by
  intro hwf
  have hd := d.isLt
  have ha := a.isLt
  have ew : encode (.wtest d a) = 0xd4000004 + d.toNat * 2 ^ 17 + a.toNat * 2 ^ 11 := rfl
  generalize encode (.wtest d a) = x at ew ⊢
  refine decode_of hwf ?_ ?_ ?_
  · rw [candidate, show x / 2 ^ 26 % 64 = 53 by omega]
    simp only []
    rw [minorBarrier, show x % 32 = 4 by omega]
    simp only []
    rw [fld_eq 17 x d (by omega), fld_eq 11 x a (by omega)]
  · rw [show Instr.operands (.wtest d a) = [⟨17, 6, 0, .pred, d.toNat⟩, ⟨11, 6, 0, .bar, a.toNat⟩, ⟨5, 6, 63, .zero, 0⟩] from rfl]
    exact all_cons (Nat.and_zero _) (all_cons (Nat.and_zero _) (all_cons (show x / 2 ^ 5 % 2 ^ 6 &&& 63 = 0 from and_high (k := 0) 63 (by omega)) all_nil))
  · exact .inr (by omega)

theorem Sys2Proof.Laws.Encoding.fence (r : BitVec 2) (k : BitVec 3) :
    Encoding.Statement (.fence r k) := by
  intro hwf
  have hr := r.isLt
  have hk := k.isLt
  have ew : encode (.fence r k) = 0xd8000000 + r.toNat * 2 ^ 3 + k.toNat * 2 ^ 0 := rfl
  generalize encode (.fence r k) = x at ew ⊢
  have hm : ¬ (r.toNat * 8 + k.toNat) % 8 = 0 ∧ ¬ (r.toNat * 8 + k.toNat) / 8 = 0 := by
    have := (show Instr.badField (.fence r k) = none by simp only [Instr.wf, Bool.and_eq_true, Option.isNone_iff_eq_none] at hwf; exact hwf.2)
    simp [Instr.badField, Instr.operands, FieldKind.bad] at this
    omega
  refine decode_of hwf ?_ ?_ ?_
  · rw [candidate, show x / 2 ^ 26 % 64 = 54 by omega]
    simp only []
    rw [if_neg (show ¬ x % 32 = 0 by omega), fld_eq 3 x r (by omega), fld_eq 0 x k (by omega)]
  · rw [show Instr.operands (.fence r k) = [⟨17, 6, 63, .zero, 0⟩, ⟨11, 6, 63, .zero, 0⟩, ⟨5, 6, 63, .zero, 0⟩, ⟨0, 5, 0, .fence, r.toNat * 2 ^ 3 + k.toNat⟩] from rfl]
    exact all_cons (show x / 2 ^ 17 % 2 ^ 6 &&& 63 = 0 from and_high (k := 0) 63 (by omega)) (all_cons (show x / 2 ^ 11 % 2 ^ 6 &&& 63 = 0 from and_high (k := 0) 63 (by omega)) (all_cons (show x / 2 ^ 5 % 2 ^ 6 &&& 63 = 0 from and_high (k := 0) 63 (by omega)) (all_cons (Nat.and_zero _) all_nil)))
  · exact .inr (by omega)

theorem Sys2Proof.Laws.Encoding.fencei :
    Encoding.Statement .fencei := by
  intro hwf
  have ew : encode .fencei = 0xd8000000 := rfl
  generalize encode .fencei = x at ew ⊢
  refine decode_of hwf ?_ ?_ ?_
  · rw [candidate, show x / 2 ^ 26 % 64 = 54 by omega]
    simp only []
    rw [if_pos (show x % 32 = 0 by omega)]
  · rw [show Instr.operands .fencei = [⟨17, 6, 63, .zero, 0⟩, ⟨11, 6, 63, .zero, 0⟩, ⟨5, 6, 63, .zero, 0⟩] from rfl]
    exact all_cons (show x / 2 ^ 17 % 2 ^ 6 &&& 63 = 0 from and_high (k := 0) 63 (by omega)) (all_cons (show x / 2 ^ 11 % 2 ^ 6 &&& 63 = 0 from and_high (k := 0) 63 (by omega)) (all_cons (show x / 2 ^ 5 % 2 ^ 6 &&& 63 = 0 from and_high (k := 0) 63 (by omega)) all_nil))
  · exact .inr (by omega)

theorem Sys2Proof.Laws.Encoding.fencer (a : BitVec 6) (b : BitVec 6) (r : BitVec 2) (k : BitVec 3) :
    Encoding.Statement (.fencer a b r k) := by
  intro hwf
  have ha := a.isLt
  have hb := b.isLt
  have hr := r.isLt
  have hk := k.isLt
  have ew : encode (.fencer a b r k) = 0xdc000000 + a.toNat * 2 ^ 11 + b.toNat * 2 ^ 5 + r.toNat * 2 ^ 3 + k.toNat * 2 ^ 0 := rfl
  generalize encode (.fencer a b r k) = x at ew ⊢
  refine decode_of hwf ?_ ?_ ?_
  · rw [candidate, show x / 2 ^ 26 % 64 = 55 by omega]
    simp only []
    rw [fld_eq 11 x a (by omega), fld_eq 5 x b (by omega), fld_eq 3 x r (by omega), fld_eq 0 x k (by omega)]
  · rw [show Instr.operands (.fencer a b r k) = [⟨17, 6, 63, .zero, 0⟩, ⟨11, 6, 0, .pair, a.toNat⟩, ⟨5, 6, 0, .pair, b.toNat⟩, ⟨0, 5, 0, .fence, r.toNat * 2 ^ 3 + k.toNat⟩] from rfl]
    exact all_cons (show x / 2 ^ 17 % 2 ^ 6 &&& 63 = 0 from and_high (k := 0) 63 (by omega)) (all_cons (Nat.and_zero _) (all_cons (Nat.and_zero _) (all_cons (Nat.and_zero _) all_nil)))
  · exact .inr (by omega)

theorem Sys2Proof.Laws.Encoding.mclaim (d : BitVec 6) :
    Encoding.Statement (.mclaim d) := by
  intro hwf
  have hd := d.isLt
  have ew : encode (.mclaim d) = 0xe4000000 + d.toNat * 2 ^ 17 := rfl
  generalize encode (.mclaim d) = x at ew ⊢
  refine decode_of hwf ?_ ?_ ?_
  · rw [candidate, show x / 2 ^ 26 % 64 = 57 by omega]
    simp only []
    rw [minorMatrix, show x % 32 = 0 by omega]
    simp only []
    rw [fld_eq 17 x d (by omega)]
  · rw [show Instr.operands (.mclaim d) = [⟨17, 6, 0, .slot, d.toNat⟩, ⟨11, 6, 63, .zero, 0⟩, ⟨5, 6, 63, .zero, 0⟩] from rfl]
    exact all_cons (Nat.and_zero _) (all_cons (show x / 2 ^ 11 % 2 ^ 6 &&& 63 = 0 from and_high (k := 0) 63 (by omega)) (all_cons (show x / 2 ^ 5 % 2 ^ 6 &&& 63 = 0 from and_high (k := 0) 63 (by omega)) all_nil))
  · exact .inr (by omega)

theorem Sys2Proof.Laws.Encoding.mrel (d : BitVec 6) :
    Encoding.Statement (.mrel d) := by
  intro hwf
  have hd := d.isLt
  have ew : encode (.mrel d) = 0xe4000001 + d.toNat * 2 ^ 17 := rfl
  generalize encode (.mrel d) = x at ew ⊢
  refine decode_of hwf ?_ ?_ ?_
  · rw [candidate, show x / 2 ^ 26 % 64 = 57 by omega]
    simp only []
    rw [minorMatrix, show x % 32 = 1 by omega]
    simp only []
    rw [fld_eq 17 x d (by omega)]
  · rw [show Instr.operands (.mrel d) = [⟨17, 6, 0, .slot, d.toNat⟩, ⟨11, 6, 63, .zero, 0⟩, ⟨5, 6, 63, .zero, 0⟩] from rfl]
    exact all_cons (Nat.and_zero _) (all_cons (show x / 2 ^ 11 % 2 ^ 6 &&& 63 = 0 from and_high (k := 0) 63 (by omega)) (all_cons (show x / 2 ^ 5 % 2 ^ 6 &&& 63 = 0 from and_high (k := 0) 63 (by omega)) all_nil))
  · exact .inr (by omega)

theorem Sys2Proof.Laws.Encoding.mld (d : BitVec 6) (a : BitVec 6) (b : BitVec 6) :
    Encoding.Statement (.mld d a b) := by
  intro hwf
  have hd := d.isLt
  have ha := a.isLt
  have hb := b.isLt
  have ew : encode (.mld d a b) = 0xe4000002 + d.toNat * 2 ^ 17 + a.toNat * 2 ^ 11 + b.toNat * 2 ^ 5 := rfl
  generalize encode (.mld d a b) = x at ew ⊢
  refine decode_of hwf ?_ ?_ ?_
  · rw [candidate, show x / 2 ^ 26 % 64 = 57 by omega]
    simp only []
    rw [minorMatrix, show x % 32 = 2 by omega]
    simp only []
    rw [fld_eq 17 x d (by omega), fld_eq 11 x a (by omega), fld_eq 5 x b (by omega)]
  · rw [show Instr.operands (.mld d a b) = [⟨17, 6, 0, .slot, d.toNat⟩, ⟨11, 6, 0, .regionOp, a.toNat⟩, ⟨5, 6, 0, .quad, b.toNat⟩] from rfl]
    exact all_cons (Nat.and_zero _) (all_cons (Nat.and_zero _) (all_cons (Nat.and_zero _) all_nil))
  · exact .inr (by omega)

theorem Sys2Proof.Laws.Encoding.mst (d : BitVec 6) (a : BitVec 6) (b : BitVec 6) :
    Encoding.Statement (.mst d a b) := by
  intro hwf
  have hd := d.isLt
  have ha := a.isLt
  have hb := b.isLt
  have ew : encode (.mst d a b) = 0xe4000003 + d.toNat * 2 ^ 17 + a.toNat * 2 ^ 11 + b.toNat * 2 ^ 5 := rfl
  generalize encode (.mst d a b) = x at ew ⊢
  refine decode_of hwf ?_ ?_ ?_
  · rw [candidate, show x / 2 ^ 26 % 64 = 57 by omega]
    simp only []
    rw [minorMatrix, show x % 32 = 3 by omega]
    simp only []
    rw [fld_eq 17 x d (by omega), fld_eq 11 x a (by omega), fld_eq 5 x b (by omega)]
  · rw [show Instr.operands (.mst d a b) = [⟨17, 6, 0, .regionOp, d.toNat⟩, ⟨11, 6, 0, .acc, a.toNat⟩, ⟨5, 6, 0, .quad, b.toNat⟩] from rfl]
    exact all_cons (Nat.and_zero _) (all_cons (Nat.and_zero _) (all_cons (Nat.and_zero _) all_nil))
  · exact .inr (by omega)

theorem Sys2Proof.Laws.Encoding.mzero (d : BitVec 6) :
    Encoding.Statement (.mzero d) := by
  intro hwf
  have hd := d.isLt
  have ew : encode (.mzero d) = 0xe4000004 + d.toNat * 2 ^ 17 := rfl
  generalize encode (.mzero d) = x at ew ⊢
  refine decode_of hwf ?_ ?_ ?_
  · rw [candidate, show x / 2 ^ 26 % 64 = 57 by omega]
    simp only []
    rw [minorMatrix, show x % 32 = 4 by omega]
    simp only []
    rw [fld_eq 17 x d (by omega)]
  · rw [show Instr.operands (.mzero d) = [⟨17, 6, 0, .acc, d.toNat⟩, ⟨11, 6, 63, .zero, 0⟩, ⟨5, 6, 63, .zero, 0⟩] from rfl]
    exact all_cons (Nat.and_zero _) (all_cons (show x / 2 ^ 11 % 2 ^ 6 &&& 63 = 0 from and_high (k := 0) 63 (by omega)) (all_cons (show x / 2 ^ 5 % 2 ^ 6 &&& 63 = 0 from and_high (k := 0) 63 (by omega)) all_nil))
  · exact .inr (by omega)

theorem Sys2Proof.Laws.Encoding.macc (d : BitVec 6) (a : BitVec 6) :
    Encoding.Statement (.macc d a) := by
  intro hwf
  have hd := d.isLt
  have ha := a.isLt
  have ew : encode (.macc d a) = 0xe4000005 + d.toNat * 2 ^ 17 + a.toNat * 2 ^ 11 := rfl
  generalize encode (.macc d a) = x at ew ⊢
  refine decode_of hwf ?_ ?_ ?_
  · rw [candidate, show x / 2 ^ 26 % 64 = 57 by omega]
    simp only []
    rw [minorMatrix, show x % 32 = 5 by omega]
    simp only []
    rw [fld_eq 17 x d (by omega), fld_eq 11 x a (by omega)]
  · rw [show Instr.operands (.macc d a) = [⟨17, 6, 0, .acc, d.toNat⟩, ⟨11, 6, 0, .acc, a.toNat⟩, ⟨5, 6, 63, .zero, 0⟩] from rfl]
    exact all_cons (Nat.and_zero _) (all_cons (Nat.and_zero _) (all_cons (show x / 2 ^ 5 % 2 ^ 6 &&& 63 = 0 from and_high (k := 0) 63 (by omega)) all_nil))
  · exact .inr (by omega)

theorem Sys2Proof.Laws.Encoding.mshape (d : BitVec 6) (a : BitVec 6) :
    Encoding.Statement (.mshape d a) := by
  intro hwf
  have hd := d.isLt
  have ha := a.isLt
  have ew : encode (.mshape d a) = 0xe4000006 + d.toNat * 2 ^ 17 + a.toNat * 2 ^ 11 := rfl
  generalize encode (.mshape d a) = x at ew ⊢
  refine decode_of hwf ?_ ?_ ?_
  · rw [candidate, show x / 2 ^ 26 % 64 = 57 by omega]
    simp only []
    rw [minorMatrix, show x % 32 = 6 by omega]
    simp only []
    rw [fld_eq 17 x d (by omega), fld_eq 11 x a (by omega)]
  · rw [show Instr.operands (.mshape d a) = [⟨17, 6, 0, .slot, d.toNat⟩, ⟨11, 6, 0, .vsrc, a.toNat⟩, ⟨5, 6, 63, .zero, 0⟩] from rfl]
    exact all_cons (Nat.and_zero _) (all_cons (Nat.and_zero _) (all_cons (show x / 2 ^ 5 % 2 ^ 6 &&& 63 = 0 from and_high (k := 0) 63 (by omega)) all_nil))
  · exact .inr (by omega)

theorem Sys2Proof.Laws.Encoding.mma (d : BitVec 6) (a : BitVec 6) (b : BitVec 6) (c : BitVec 5) :
    Encoding.Statement (.mma d a b c) := by
  intro hwf
  have hd := d.isLt
  have ha := a.isLt
  have hb := b.isLt
  have hc := c.isLt
  have ew : encode (.mma d a b c) = 0xe8000000 + d.toNat * 2 ^ 17 + a.toNat * 2 ^ 11 + b.toNat * 2 ^ 5 + c.toNat * 2 ^ 0 := rfl
  generalize encode (.mma d a b c) = x at ew ⊢
  refine decode_of hwf ?_ ?_ ?_
  · rw [candidate, show x / 2 ^ 26 % 64 = 58 by omega]
    simp only []
    rw [fld_eq 17 x d (by omega), fld_eq 11 x a (by omega), fld_eq 5 x b (by omega), fld_eq 0 x c (by omega)]
  · rw [show Instr.operands (.mma d a b c) = [⟨17, 6, 0, .acc, d.toNat⟩, ⟨11, 6, 0, .slot, a.toNat⟩, ⟨5, 6, 0, .slot, b.toNat⟩, ⟨0, 5, 0, .free, c.toNat⟩] from rfl]
    exact all_cons (Nat.and_zero _) (all_cons (Nat.and_zero _) (all_cons (Nat.and_zero _) (all_cons (Nat.and_zero _) all_nil)))
  · exact .inr (by omega)

theorem Sys2Proof.Laws.Encoding.spawn (d : BitVec 6) (a : BitVec 6) (b : BitVec 6) :
    Encoding.Statement (.spawn d a b) := by
  intro hwf
  have hd := d.isLt
  have ha := a.isLt
  have hb := b.isLt
  have ew : encode (.spawn d a b) = 0xec000000 + d.toNat * 2 ^ 17 + a.toNat * 2 ^ 11 + b.toNat * 2 ^ 5 := rfl
  generalize encode (.spawn d a b) = x at ew ⊢
  refine decode_of hwf ?_ ?_ ?_
  · rw [candidate, show x / 2 ^ 26 % 64 = 59 by omega]
    simp only []
    rw [minorTask, show x % 32 = 0 by omega]
    simp only []
    rw [fld_eq 17 x d (by omega), fld_eq 11 x a (by omega), fld_eq 5 x b (by omega)]
  · rw [show Instr.operands (.spawn d a b) = [⟨17, 6, 0, .vdst, d.toNat⟩, ⟨11, 6, 0, .pair, a.toNat⟩, ⟨5, 6, 0, .vsrc, b.toNat⟩] from rfl]
    exact all_cons (Nat.and_zero _) (all_cons (Nat.and_zero _) (all_cons (Nat.and_zero _) all_nil))
  · exact .inr (by omega)

theorem Sys2Proof.Laws.Encoding.spawnh (d : BitVec 6) (a : BitVec 6) (b : BitVec 6) :
    Encoding.Statement (.spawnh d a b) := by
  intro hwf
  have hd := d.isLt
  have ha := a.isLt
  have hb := b.isLt
  have ew : encode (.spawnh d a b) = 0xec000001 + d.toNat * 2 ^ 17 + a.toNat * 2 ^ 11 + b.toNat * 2 ^ 5 := rfl
  generalize encode (.spawnh d a b) = x at ew ⊢
  refine decode_of hwf ?_ ?_ ?_
  · rw [candidate, show x / 2 ^ 26 % 64 = 59 by omega]
    simp only []
    rw [minorTask, show x % 32 = 1 by omega]
    simp only []
    rw [fld_eq 17 x d (by omega), fld_eq 11 x a (by omega), fld_eq 5 x b (by omega)]
  · rw [show Instr.operands (.spawnh d a b) = [⟨17, 6, 0, .vdst, d.toNat⟩, ⟨11, 6, 0, .pair, a.toNat⟩, ⟨5, 6, 0, .vsrc, b.toNat⟩] from rfl]
    exact all_cons (Nat.and_zero _) (all_cons (Nat.and_zero _) (all_cons (Nat.and_zero _) all_nil))
  · exact .inr (by omega)

theorem Sys2Proof.Laws.Encoding.bin (d : BitVec 6) (a : BitVec 6) :
    Encoding.Statement (.bin d a) := by
  intro hwf
  have hd := d.isLt
  have ha := a.isLt
  have ew : encode (.bin d a) = 0xec000002 + d.toNat * 2 ^ 17 + a.toNat * 2 ^ 11 := rfl
  generalize encode (.bin d a) = x at ew ⊢
  refine decode_of hwf ?_ ?_ ?_
  · rw [candidate, show x / 2 ^ 26 % 64 = 59 by omega]
    simp only []
    rw [minorTask, show x % 32 = 2 by omega]
    simp only []
    rw [fld_eq 17 x d (by omega), fld_eq 11 x a (by omega)]
  · rw [show Instr.operands (.bin d a) = [⟨17, 6, 0, .vdst, d.toNat⟩, ⟨11, 6, 0, .vsrc, a.toNat⟩, ⟨5, 6, 63, .zero, 0⟩] from rfl]
    exact all_cons (Nat.and_zero _) (all_cons (Nat.and_zero _) (all_cons (show x / 2 ^ 5 % 2 ^ 6 &&& 63 = 0 from and_high (k := 0) 63 (by omega)) all_nil))
  · exact .inr (by omega)

theorem Sys2Proof.Laws.Encoding.patch (a : BitVec 6) (b : BitVec 6) :
    Encoding.Statement (.patch a b) := by
  intro hwf
  have ha := a.isLt
  have hb := b.isLt
  have ew : encode (.patch a b) = 0xec000003 + a.toNat * 2 ^ 11 + b.toNat * 2 ^ 5 := rfl
  generalize encode (.patch a b) = x at ew ⊢
  refine decode_of hwf ?_ ?_ ?_
  · rw [candidate, show x / 2 ^ 26 % 64 = 59 by omega]
    simp only []
    rw [minorTask, show x % 32 = 3 by omega]
    simp only []
    rw [fld_eq 11 x a (by omega), fld_eq 5 x b (by omega)]
  · rw [show Instr.operands (.patch a b) = [⟨17, 6, 63, .zero, 0⟩, ⟨11, 6, 0, .pair, a.toNat⟩, ⟨5, 6, 0, .vsrc, b.toNat⟩] from rfl]
    exact all_cons (show x / 2 ^ 17 % 2 ^ 6 &&& 63 = 0 from and_high (k := 0) 63 (by omega)) (all_cons (Nat.and_zero _) (all_cons (Nat.and_zero _) all_nil))
  · exact .inr (by omega)

theorem Sys2Proof.Laws.Encoding.release (a : BitVec 6) :
    Encoding.Statement (.release a) := by
  intro hwf
  have ha := a.isLt
  have ew : encode (.release a) = 0xec000004 + a.toNat * 2 ^ 11 := rfl
  generalize encode (.release a) = x at ew ⊢
  refine decode_of hwf ?_ ?_ ?_
  · rw [candidate, show x / 2 ^ 26 % 64 = 59 by omega]
    simp only []
    rw [minorTask, show x % 32 = 4 by omega]
    simp only []
    rw [fld_eq 11 x a (by omega)]
  · rw [show Instr.operands (.release a) = [⟨17, 6, 63, .zero, 0⟩, ⟨11, 6, 0, .pair, a.toNat⟩, ⟨5, 6, 63, .zero, 0⟩] from rfl]
    exact all_cons (show x / 2 ^ 17 % 2 ^ 6 &&& 63 = 0 from and_high (k := 0) 63 (by omega)) (all_cons (Nat.and_zero _) (all_cons (show x / 2 ^ 5 % 2 ^ 6 &&& 63 = 0 from and_high (k := 0) 63 (by omega)) all_nil))
  · exact .inr (by omega)

theorem Sys2Proof.Laws.Encoding.trap (s : BitVec 3) (n : BitVec 6) :
    Encoding.Statement (.trap s n) := by
  intro hwf
  have hs := s.isLt
  have hn := n.isLt
  have ew : encode (.trap s n) = 0xf0000000 + s.toNat * 2 ^ 23 + n.toNat * 2 ^ 5 := rfl
  generalize encode (.trap s n) = x at ew ⊢
  refine decode_of hwf ?_ ?_ ?_
  · rw [candidate, show x / 2 ^ 26 % 64 = 60 by omega]
    simp only []
    rw [minorSystem, show x % 32 = 0 by omega]
    simp only []
    rw [fld_eq 23 x s (by omega), fld_eq 5 x n (by omega)]
  · rw [show Instr.operands (.trap s n) = [⟨17, 6, 63, .zero, 0⟩, ⟨11, 6, 63, .zero, 0⟩, ⟨5, 6, 0, .free, n.toNat⟩] from rfl]
    exact all_cons (show x / 2 ^ 17 % 2 ^ 6 &&& 63 = 0 from and_high (k := 0) 63 (by omega)) (all_cons (show x / 2 ^ 11 % 2 ^ 6 &&& 63 = 0 from and_high (k := 0) 63 (by omega)) (all_cons (Nat.and_zero _) all_nil))
  · exact .inl rfl

theorem Sys2Proof.Laws.Encoding.tret :
    Encoding.Statement .tret := by
  intro hwf
  have ew : encode .tret = 0xf0000001 := rfl
  generalize encode .tret = x at ew ⊢
  refine decode_of hwf ?_ ?_ ?_
  · rw [candidate, show x / 2 ^ 26 % 64 = 60 by omega]
    simp only []
    rw [minorSystem, show x % 32 = 1 by omega]
    simp only []
  · rw [show Instr.operands .tret = [⟨17, 6, 63, .zero, 0⟩, ⟨11, 6, 63, .zero, 0⟩, ⟨5, 6, 63, .zero, 0⟩] from rfl]
    exact all_cons (show x / 2 ^ 17 % 2 ^ 6 &&& 63 = 0 from and_high (k := 0) 63 (by omega)) (all_cons (show x / 2 ^ 11 % 2 ^ 6 &&& 63 = 0 from and_high (k := 0) 63 (by omega)) (all_cons (show x / 2 ^ 5 % 2 ^ 6 &&& 63 = 0 from and_high (k := 0) 63 (by omega)) all_nil))
  · exact .inr (by omega)

theorem Sys2Proof.Laws.Encoding.tlbi (a : BitVec 6) (b : BitVec 6) :
    Encoding.Statement (.tlbi a b) := by
  intro hwf
  have ha := a.isLt
  have hb := b.isLt
  have ew : encode (.tlbi a b) = 0xf0000002 + a.toNat * 2 ^ 11 + b.toNat * 2 ^ 5 := rfl
  generalize encode (.tlbi a b) = x at ew ⊢
  refine decode_of hwf ?_ ?_ ?_
  · rw [candidate, show x / 2 ^ 26 % 64 = 60 by omega]
    simp only []
    rw [minorSystem, show x % 32 = 2 by omega]
    simp only []
    rw [fld_eq 11 x a (by omega), fld_eq 5 x b (by omega)]
  · rw [show Instr.operands (.tlbi a b) = [⟨17, 6, 63, .zero, 0⟩, ⟨11, 6, 0, .pair, a.toNat⟩, ⟨5, 6, 0, .imm 0 3, b.toNat⟩] from rfl]
    exact all_cons (show x / 2 ^ 17 % 2 ^ 6 &&& 63 = 0 from and_high (k := 0) 63 (by omega)) (all_cons (Nat.and_zero _) (all_cons (Nat.and_zero _) all_nil))
  · exact .inr (by omega)

theorem Sys2Proof.Laws.Encoding.preempt (a : BitVec 6) :
    Encoding.Statement (.preempt a) := by
  intro hwf
  have ha := a.isLt
  have ew : encode (.preempt a) = 0xf0000003 + a.toNat * 2 ^ 11 := rfl
  generalize encode (.preempt a) = x at ew ⊢
  refine decode_of hwf ?_ ?_ ?_
  · rw [candidate, show x / 2 ^ 26 % 64 = 60 by omega]
    simp only []
    rw [minorSystem, show x % 32 = 3 by omega]
    simp only []
    rw [fld_eq 11 x a (by omega)]
  · rw [show Instr.operands (.preempt a) = [⟨17, 6, 63, .zero, 0⟩, ⟨11, 6, 0, .vsrc, a.toNat⟩, ⟨5, 6, 63, .zero, 0⟩] from rfl]
    exact all_cons (show x / 2 ^ 17 % 2 ^ 6 &&& 63 = 0 from and_high (k := 0) 63 (by omega)) (all_cons (Nat.and_zero _) (all_cons (show x / 2 ^ 5 % 2 ^ 6 &&& 63 = 0 from and_high (k := 0) 63 (by omega)) all_nil))
  · exact .inr (by omega)

theorem Sys2Proof.Laws.Encoding.halt :
    Encoding.Statement .halt := by
  intro hwf
  have ew : encode .halt = 0xf0000004 := rfl
  generalize encode .halt = x at ew ⊢
  refine decode_of hwf ?_ ?_ ?_
  · rw [candidate, show x / 2 ^ 26 % 64 = 60 by omega]
    simp only []
    rw [minorSystem, show x % 32 = 4 by omega]
    simp only []
  · rw [show Instr.operands .halt = [⟨17, 6, 63, .zero, 0⟩, ⟨11, 6, 63, .zero, 0⟩, ⟨5, 6, 63, .zero, 0⟩] from rfl]
    exact all_cons (show x / 2 ^ 17 % 2 ^ 6 &&& 63 = 0 from and_high (k := 0) 63 (by omega)) (all_cons (show x / 2 ^ 11 % 2 ^ 6 &&& 63 = 0 from and_high (k := 0) 63 (by omega)) (all_cons (show x / 2 ^ 5 % 2 ^ 6 &&& 63 = 0 from and_high (k := 0) 63 (by omega)) all_nil))
  · exact .inr (by omega)

theorem Sys2Proof.Laws.Encoding.brk (s : BitVec 3) (n : BitVec 6) :
    Encoding.Statement (.brk s n) := by
  intro hwf
  have hs := s.isLt
  have hn := n.isLt
  have ew : encode (.brk s n) = 0xf0000005 + s.toNat * 2 ^ 23 + n.toNat * 2 ^ 5 := rfl
  generalize encode (.brk s n) = x at ew ⊢
  refine decode_of hwf ?_ ?_ ?_
  · rw [candidate, show x / 2 ^ 26 % 64 = 60 by omega]
    simp only []
    rw [minorSystem, show x % 32 = 5 by omega]
    simp only []
    rw [fld_eq 23 x s (by omega), fld_eq 5 x n (by omega)]
  · rw [show Instr.operands (.brk s n) = [⟨17, 6, 63, .zero, 0⟩, ⟨11, 6, 63, .zero, 0⟩, ⟨5, 6, 0, .free, n.toNat⟩] from rfl]
    exact all_cons (show x / 2 ^ 17 % 2 ^ 6 &&& 63 = 0 from and_high (k := 0) 63 (by omega)) (all_cons (show x / 2 ^ 11 % 2 ^ 6 &&& 63 = 0 from and_high (k := 0) 63 (by omega)) (all_cons (Nat.and_zero _) all_nil))
  · exact .inl rfl

theorem Sys2Proof.Laws.Encoding.rdsp (d : BitVec 6) (n : BitVec 12) :
    Encoding.Statement (.rdsp d n) := by
  intro hwf
  have hd := d.isLt
  have hn := n.isLt
  have ew : encode (.rdsp d n) = 0xf4000000 + d.toNat * 2 ^ 17 + n.toNat * 2 ^ 0 := rfl
  generalize encode (.rdsp d n) = x at ew ⊢
  refine decode_of hwf ?_ ?_ ?_
  · rw [candidate, show x / 2 ^ 26 % 64 = 61 by omega]
    simp only []
    rw [fld_eq 17 x d (by omega), fld_eq 0 x n (by omega)]
  · rw [show Instr.operands (.rdsp d n) = [⟨17, 6, 0, (if systemWide n.toNat then .pair else .vdst), d.toNat⟩, ⟨0, 17, 126976, .system, n.toNat⟩] from rfl]
    exact all_cons (Nat.and_zero _) (all_cons (show x / 2 ^ 0 % 2 ^ 17 &&& 126976 = 0 from and_high (k := 12) 31 (by omega)) all_nil)
  · exact .inr (by omega)

theorem Sys2Proof.Laws.Encoding.wrsp (d : BitVec 6) (n : BitVec 12) :
    Encoding.Statement (.wrsp d n) := by
  intro hwf
  have hd := d.isLt
  have hn := n.isLt
  have ew : encode (.wrsp d n) = 0xf8000000 + d.toNat * 2 ^ 17 + n.toNat * 2 ^ 0 := rfl
  generalize encode (.wrsp d n) = x at ew ⊢
  refine decode_of hwf ?_ ?_ ?_
  · rw [candidate, show x / 2 ^ 26 % 64 = 62 by omega]
    simp only []
    rw [fld_eq 17 x d (by omega), fld_eq 0 x n (by omega)]
  · rw [show Instr.operands (.wrsp d n) = [⟨17, 6, 0, (if systemWide n.toNat then .pair else .vsrc), d.toNat⟩, ⟨0, 17, 126976, .system, n.toNat⟩] from rfl]
    exact all_cons (Nat.and_zero _) (all_cons (show x / 2 ^ 0 % 2 ^ 17 &&& 126976 = 0 from and_high (k := 12) 31 (by omega)) all_nil)
  · exact .inr (by omega)

theorem Sys2Proof.Laws.Encoding.deferredTrap (g : Nat) :
    Encoding.Statement (.deferredTrap g) := 
  fun h => Bool.noConfusion (show false = true from h)

theorem Sys2Proof.Laws.Encoding.yieldEnd (g : Nat) :
    Encoding.Statement (.yieldEnd g) := 
  fun h => Bool.noConfusion (show false = true from h)

theorem Sys2Proof.Laws.Encoding.carryMessage (l : Nat) (i : Nat) (j : Nat) :
    Encoding.Statement (.carryMessage l i j) := 
  fun h => Bool.noConfusion (show false = true from h)

theorem Sys2Proof.Laws.Encoding.carryFetch (l : Nat) (i : Nat) (j : Nat) (g : Nat) :
    Encoding.Statement (.carryFetch l i j g) := 
  fun h => Bool.noConfusion (show false = true from h)

theorem Sys2Proof.Laws.Encoding.eventWindowReset (t : Nat) (c : Nat) :
    Encoding.Statement (.eventWindowReset t c) := 
  fun h => Bool.noConfusion (show false = true from h)

theorem Sys2Proof.Laws.Encoding.loadReply (x : Nat) :
    Encoding.Statement (.loadReply x) := 
  fun h => Bool.noConfusion (show false = true from h)

theorem Sys2Proof.Laws.Encoding.storeAck (x : Nat) :
    Encoding.Statement (.storeAck x) := 
  fun h => Bool.noConfusion (show false = true from h)

theorem Sys2Proof.Laws.Encoding.homeRequest (x : Nat) :
    Encoding.Statement (.homeRequest x) := 
  fun h => Bool.noConfusion (show false = true from h)

theorem Sys2Proof.Laws.Encoding.wcDrain (cl : Nat) (n : Nat) :
    Encoding.Statement (.wcDrain cl n) := 
  fun h => Bool.noConfusion (show false = true from h)

theorem Sys2Proof.Laws.Encoding.req (n : Nat) :
    Encoding.Statement (.req n) := 
  fun h => Bool.noConfusion (show false = true from h)

theorem Sys2Proof.Laws.Encoding.grant (n : Nat) :
    Encoding.Statement (.grant n) := 
  fun h => Bool.noConfusion (show false = true from h)

theorem Sys2Proof.Laws.Encoding.refuse (n : Nat) :
    Encoding.Statement (.refuse n) := 
  fun h => Bool.noConfusion (show false = true from h)

theorem Sys2Proof.Laws.Encoding.recall (n : Nat) :
    Encoding.Statement (.recall n) := 
  fun h => Bool.noConfusion (show false = true from h)

theorem Sys2Proof.Laws.Encoding.giveup (n : Nat) :
    Encoding.Statement (.giveup n) := 
  fun h => Bool.noConfusion (show false = true from h)

theorem Sys2Proof.Laws.Encoding.retSlip (n : Nat) :
    Encoding.Statement (.retSlip n) := 
  fun h => Bool.noConfusion (show false = true from h)

theorem Sys2Proof.Laws.Encoding.down (n : Nat) :
    Encoding.Statement (.down n) := 
  fun h => Bool.noConfusion (show false = true from h)

theorem Sys2Proof.Laws.Encoding.up (n : Nat) :
    Encoding.Statement (.up n) := 
  fun h => Bool.noConfusion (show false = true from h)

theorem Sys2Proof.Laws.Encoding.reloc (n : Nat) :
    Encoding.Statement (.reloc n) := 
  fun h => Bool.noConfusion (show false = true from h)

theorem Sys2Proof.Laws.Encoding.hold (n : Nat) :
    Encoding.Statement (.hold n) := 
  fun h => Bool.noConfusion (show false = true from h)

theorem Sys2Proof.Laws.Encoding.ack (n : Nat) :
    Encoding.Statement (.ack n) := 
  fun h => Bool.noConfusion (show false = true from h)

theorem Sys2Proof.Laws.Encoding.slipResend (n : Nat) :
    Encoding.Statement (.slipResend n) := 
  fun h => Bool.noConfusion (show false = true from h)

theorem Sys2Proof.Laws.Encoding.invalidate (n : Nat) :
    Encoding.Statement (.invalidate n) := 
  fun h => Bool.noConfusion (show false = true from h)

theorem Sys2Proof.Laws.Encoding.forward (n : Nat) :
    Encoding.Statement (.forward n) := 
  fun h => Bool.noConfusion (show false = true from h)

theorem Sys2Proof.Laws.Encoding.gone (n : Nat) :
    Encoding.Statement (.gone n) := 
  fun h => Bool.noConfusion (show false = true from h)

theorem Sys2Proof.Laws.Encoding.writeBack (n : Nat) :
    Encoding.Statement (.writeBack n) := 
  fun h => Bool.noConfusion (show false = true from h)

theorem Sys2Proof.Laws.Encoding.pageRecall (n : Nat) :
    Encoding.Statement (.pageRecall n) := 
  fun h => Bool.noConfusion (show false = true from h)

theorem Sys2Proof.Laws.Encoding.commonsResend (n : Nat) :
    Encoding.Statement (.commonsResend n) := 
  fun h => Bool.noConfusion (show false = true from h)

theorem Sys2Proof.Laws.Encoding.sweepMarker (n : Nat) :
    Encoding.Statement (.sweepMarker n) := 
  fun h => Bool.noConfusion (show false = true from h)

theorem Sys2Proof.Laws.Encoding.sweepAck (n : Nat) :
    Encoding.Statement (.sweepAck n) := 
  fun h => Bool.noConfusion (show false = true from h)

theorem Sys2Proof.Laws.Encoding.packetArrive (die : Nat) :
    Encoding.Statement (.packetArrive die) := 
  fun h => Bool.noConfusion (show false = true from h)

theorem Sys2Proof.Laws.Encoding.packetOld (p : Nat) :
    Encoding.Statement (.packetOld p) := 
  fun h => Bool.noConfusion (show false = true from h)

theorem Sys2Proof.Laws.Encoding.injectStarve (die : Nat) :
    Encoding.Statement (.injectStarve die) := 
  fun h => Bool.noConfusion (show false = true from h)

theorem Sys2Proof.Laws.Encoding.fabricPacket (p : Nat) :
    Encoding.Statement (.fabricPacket p) := 
  fun h => Bool.noConfusion (show false = true from h)

theorem Sys2Proof.Laws.Encoding.creditReturn (dev : Nat) (plane : Nat) :
    Encoding.Statement (.creditReturn dev plane) := 
  fun h => Bool.noConfusion (show false = true from h)

theorem Sys2Proof.Laws.Encoding.reachLimit (x : Nat) :
    Encoding.Statement (.reachLimit x) := 
  fun h => Bool.noConfusion (show false = true from h)

theorem Sys2Proof.Laws.Encoding.flitReceive (lk : Nat) (q : Nat) (crcOk : Bool) :
    Encoding.Statement (.flitReceive lk q crcOk) := 
  fun h => Bool.noConfusion (show false = true from h)

theorem Sys2Proof.Laws.Encoding.replayRequest (lk : Nat) (q : Nat) :
    Encoding.Statement (.replayRequest lk q) := 
  fun h => Bool.noConfusion (show false = true from h)

theorem Sys2Proof.Laws.Encoding.linkRetrain (lk : Nat) :
    Encoding.Statement (.linkRetrain lk) := 
  fun h => Bool.noConfusion (show false = true from h)

theorem Sys2Proof.Laws.Encoding.linkSettle (lk : Nat) (sideband : Bool) :
    Encoding.Statement (.linkSettle lk sideband) := 
  fun h => Bool.noConfusion (show false = true from h)

theorem Sys2Proof.Laws.Encoding.linkRetire (lk : Nat) :
    Encoding.Statement (.linkRetire lk) := 
  fun h => Bool.noConfusion (show false = true from h)

theorem Sys2Proof.Laws.Encoding.chunk (n : Nat) :
    Encoding.Statement (.chunk n) := 
  fun h => Bool.noConfusion (show false = true from h)

theorem Sys2Proof.Laws.Encoding.chunkAck (n : Nat) :
    Encoding.Statement (.chunkAck n) := 
  fun h => Bool.noConfusion (show false = true from h)

theorem Sys2Proof.Laws.Encoding.chunkRetry (n : Nat) :
    Encoding.Statement (.chunkRetry n) := 
  fun h => Bool.noConfusion (show false = true from h)

theorem Sys2Proof.Laws.Encoding.chunkResend (n : Nat) :
    Encoding.Statement (.chunkResend n) := 
  fun h => Bool.noConfusion (show false = true from h)

theorem Sys2Proof.Laws.Encoding.close (home : Nat) (st : Nat) :
    Encoding.Statement (.close home st) := 
  fun h => Bool.noConfusion (show false = true from h)

theorem Sys2Proof.Laws.Encoding.copyComplete (c : Nat) :
    Encoding.Statement (.copyComplete c) := 
  fun h => Bool.noConfusion (show false = true from h)

theorem Sys2Proof.Laws.Encoding.passGrant (cl : Nat) (e : Nat) :
    Encoding.Statement (.passGrant cl e) := 
  fun h => Bool.noConfusion (show false = true from h)

theorem Sys2Proof.Laws.Encoding.passComplete (cl : Nat) (e : Nat) :
    Encoding.Statement (.passComplete cl e) := 
  fun h => Bool.noConfusion (show false = true from h)

theorem Sys2Proof.Laws.Encoding.rampEnd (cl : Nat) (e : Nat) :
    Encoding.Statement (.rampEnd cl e) := 
  fun h => Bool.noConfusion (show false = true from h)

theorem Sys2Proof.Laws.Encoding.launchEntry (q : Nat) :
    Encoding.Statement (.launchEntry q) := 
  fun h => Bool.noConfusion (show false = true from h)

theorem Sys2Proof.Laws.Encoding.waitEntry (q : Nat) :
    Encoding.Statement (.waitEntry q) := 
  fun h => Bool.noConfusion (show false = true from h)

theorem Sys2Proof.Laws.Encoding.waitRecheck (q : Nat) :
    Encoding.Statement (.waitRecheck q) := 
  fun h => Bool.noConfusion (show false = true from h)

theorem Sys2Proof.Laws.Encoding.signalEntry (q : Nat) :
    Encoding.Statement (.signalEntry q) := 
  fun h => Bool.noConfusion (show false = true from h)

theorem Sys2Proof.Laws.Encoding.nopEntry (q : Nat) :
    Encoding.Statement (.nopEntry q) := 
  fun h => Bool.noConfusion (show false = true from h)

theorem Sys2Proof.Laws.Encoding.qctlWrite (q : Nat) (val : Nat) :
    Encoding.Statement (.qctlWrite q val) := 
  fun h => Bool.noConfusion (show false = true from h)

theorem Sys2Proof.Laws.Encoding.qtailWrite (q : Nat) (val : Nat) :
    Encoding.Statement (.qtailWrite q val) := 
  fun h => Bool.noConfusion (show false = true from h)

theorem Sys2Proof.Laws.Encoding.haltClear (q : Nat) :
    Encoding.Statement (.haltClear q) := 
  fun h => Bool.noConfusion (show false = true from h)

theorem Sys2Proof.Laws.Encoding.ovfClear (q : Nat) :
    Encoding.Statement (.ovfClear q) := 
  fun h => Bool.noConfusion (show false = true from h)

theorem Sys2Proof.Laws.Encoding.registerWrite (page : Nat) (num : Nat) (val : Nat) :
    Encoding.Statement (.registerWrite page num val) := 
  fun h => Bool.noConfusion (show false = true from h)

theorem Sys2Proof.Laws.Encoding.phloWrite (val : Nat) :
    Encoding.Statement (.phloWrite val) := 
  fun h => Bool.noConfusion (show false = true from h)

theorem Sys2Proof.Laws.Encoding.phhiWrite (val : Nat) :
    Encoding.Statement (.phhiWrite val) := 
  fun h => Bool.noConfusion (show false = true from h)

theorem Sys2Proof.Laws.Encoding.exloWrite (val : Nat) :
    Encoding.Statement (.exloWrite val) := 
  fun h => Bool.noConfusion (show false = true from h)

theorem Sys2Proof.Laws.Encoding.exhiWrite (val : Nat) :
    Encoding.Statement (.exhiWrite val) := 
  fun h => Bool.noConfusion (show false = true from h)

theorem Sys2Proof.Laws.Encoding.taintClear (val : Nat) :
    Encoding.Statement (.taintClear val) := 
  fun h => Bool.noConfusion (show false = true from h)

theorem Sys2Proof.Laws.Encoding.taintClearDone :
    Encoding.Statement .taintClearDone := 
  fun h => Bool.noConfusion (show false = true from h)

theorem Sys2Proof.Laws.Encoding.kill (val : Nat) :
    Encoding.Statement (.kill val) := 
  fun h => Bool.noConfusion (show false = true from h)

theorem Sys2Proof.Laws.Encoding.killComplete :
    Encoding.Statement .killComplete := 
  fun h => Bool.noConfusion (show false = true from h)

theorem Sys2Proof.Laws.Encoding.run (val : Nat) :
    Encoding.Statement (.run val) := 
  fun h => Bool.noConfusion (show false = true from h)

theorem Sys2Proof.Laws.Encoding.preq (val : Nat) :
    Encoding.Statement (.preq val) := 
  fun h => Bool.noConfusion (show false = true from h)

theorem Sys2Proof.Laws.Encoding.symcmdTake :
    Encoding.Statement .symcmdTake := 
  fun h => Bool.noConfusion (show false = true from h)

theorem Sys2Proof.Laws.Encoding.symcmdReturn :
    Encoding.Statement .symcmdReturn := 
  fun h => Bool.noConfusion (show false = true from h)

theorem Sys2Proof.Laws.Encoding.symTakeEnd :
    Encoding.Statement .symTakeEnd := 
  fun h => Bool.noConfusion (show false = true from h)

theorem Sys2Proof.Laws.Encoding.biasToDevice (he : Nat) (val : Nat) :
    Encoding.Statement (.biasToDevice he val) := 
  fun h => Bool.noConfusion (show false = true from h)

theorem Sys2Proof.Laws.Encoding.biasToHost (he : Nat) (val : Nat) :
    Encoding.Statement (.biasToHost he val) := 
  fun h => Bool.noConfusion (show false = true from h)

theorem Sys2Proof.Laws.Encoding.cxlHostAccess (port : Nat) (wr : Bool) (pa : Nat) (val : Nat) :
    Encoding.Statement (.cxlHostAccess port wr pa val) := 
  fun h => Bool.noConfusion (show false = true from h)

theorem Sys2Proof.Laws.Encoding.ccAccess (wr : Bool) (pa : Nat) (n : Nat) (val : Nat) :
    Encoding.Statement (.ccAccess wr pa n val) := 
  fun h => Bool.noConfusion (show false = true from h)

theorem Sys2Proof.Laws.Encoding.getVersion (port : Nat) :
    Encoding.Statement (.getVersion port) := 
  fun h => Bool.noConfusion (show false = true from h)

theorem Sys2Proof.Laws.Encoding.getCapabilities (port : Nat) :
    Encoding.Statement (.getCapabilities port) := 
  fun h => Bool.noConfusion (show false = true from h)

theorem Sys2Proof.Laws.Encoding.negotiateAlgorithms (port : Nat) (asym : Nat) (hash : Nat) :
    Encoding.Statement (.negotiateAlgorithms port asym hash) := 
  fun h => Bool.noConfusion (show false = true from h)

theorem Sys2Proof.Laws.Encoding.getDigests (port : Nat) :
    Encoding.Statement (.getDigests port) := 
  fun h => Bool.noConfusion (show false = true from h)

theorem Sys2Proof.Laws.Encoding.getCertificate (port : Nat) :
    Encoding.Statement (.getCertificate port) := 
  fun h => Bool.noConfusion (show false = true from h)

theorem Sys2Proof.Laws.Encoding.challenge (port : Nat) (nonce : Nat) :
    Encoding.Statement (.challenge port nonce) := 
  fun h => Bool.noConfusion (show false = true from h)

theorem Sys2Proof.Laws.Encoding.getMeasurements (port : Nat) (idx : Nat) :
    Encoding.Statement (.getMeasurements port idx) := 
  fun h => Bool.noConfusion (show false = true from h)

theorem Sys2Proof.Laws.Encoding.keyExchange (port : Nat) :
    Encoding.Statement (.keyExchange port) := 
  fun h => Bool.noConfusion (show false = true from h)

theorem Sys2Proof.Laws.Encoding.reset (ok0 : Bool) (ok1 : Bool) :
    Encoding.Statement (.reset ok0 ok1) := 
  fun h => Bool.noConfusion (show false = true from h)

theorem Sys2Proof.Laws.Encoding.powerUpWave :
    Encoding.Statement .powerUpWave := 
  fun h => Bool.noConfusion (show false = true from h)

theorem Sys2Proof.Laws.Encoding.powerMeter (draw : Nat) :
    Encoding.Statement (.powerMeter draw) := 
  fun h => Bool.noConfusion (show false = true from h)

theorem Sys2Proof.Laws.Encoding.teamStart (k : Nat) :
    Encoding.Statement (.teamStart k) := 
  fun h => Bool.noConfusion (show false = true from h)

theorem Sys2Proof.Laws.Encoding.regionLoad (k : Nat) :
    Encoding.Statement (.regionLoad k) := 
  fun h => Bool.noConfusion (show false = true from h)

theorem Sys2Proof.Laws.Encoding.loadRetry (k : Nat) :
    Encoding.Statement (.loadRetry k) := 
  fun h => Bool.noConfusion (show false = true from h)

theorem Sys2Proof.Laws.Encoding.teamEnd (t : Nat) :
    Encoding.Statement (.teamEnd t) := 
  fun h => Bool.noConfusion (show false = true from h)

theorem Sys2Proof.Laws.Encoding.launchComplete (l : Nat) :
    Encoding.Statement (.launchComplete l) := 
  fun h => Bool.noConfusion (show false = true from h)

theorem Sys2Proof.Laws.Encoding.depthExchange (die : Nat) :
    Encoding.Statement (.depthExchange die) := 
  fun h => Bool.noConfusion (show false = true from h)

theorem Sys2Proof.Laws.Encoding.dieDepthExchange (die : Nat) :
    Encoding.Statement (.dieDepthExchange die) := 
  fun h => Bool.noConfusion (show false = true from h)

theorem Sys2Proof.Laws.Encoding.steal (cl : Nat) :
    Encoding.Statement (.steal cl) := 
  fun h => Bool.noConfusion (show false = true from h)

theorem Sys2Proof.Laws.Encoding.taskAgePromote (k : Nat) :
    Encoding.Statement (.taskAgePromote k) := 
  fun h => Bool.noConfusion (show false = true from h)

theorem Sys2Proof.Laws.Encoding.boost (l : Nat) :
    Encoding.Statement (.boost l) := 
  fun h => Bool.noConfusion (show false = true from h)

theorem Sys2Proof.Laws.Encoding.budgetExceeded (l : Nat) :
    Encoding.Statement (.budgetExceeded l) := 
  fun h => Bool.noConfusion (show false = true from h)

theorem Sys2Proof.Laws.Encoding.budgetEnd (l : Nat) :
    Encoding.Statement (.budgetEnd l) := 
  fun h => Bool.noConfusion (show false = true from h)

theorem Sys2Proof.Laws.Encoding.watchdog (g : Nat) :
    Encoding.Statement (.watchdog g) := 
  fun h => Bool.noConfusion (show false = true from h)

theorem Sys2Proof.Laws.Encoding.borrowWaitPreempt (t : Nat) :
    Encoding.Statement (.borrowWaitPreempt t) := 
  fun h => Bool.noConfusion (show false = true from h)

theorem Sys2Proof.Laws.Encoding.preemption (t : Nat) :
    Encoding.Statement (.preemption t) := 
  fun h => Bool.noConfusion (show false = true from h)

theorem Sys2Proof.Laws.Encoding.preemptSave (t : Nat) :
    Encoding.Statement (.preemptSave t) := 
  fun h => Bool.noConfusion (show false = true from h)

theorem Sys2Proof.Laws.Encoding.resume (t : Nat) :
    Encoding.Statement (.resume t) := 
  fun h => Bool.noConfusion (show false = true from h)

theorem Sys2Proof.Laws.Encoding.dividerComplete (cl : Nat) (core : Nat) :
    Encoding.Statement (.dividerComplete cl core) := 
  fun h => Bool.noConfusion (show false = true from h)

theorem Sys2Proof.Laws.Encoding.computePhaseEnd (cl : Nat) (e : Nat) :
    Encoding.Statement (.computePhaseEnd cl e) := 
  fun h => Bool.noConfusion (show false = true from h)

theorem Sys2Proof.Laws.Encoding.tableWalkEnd (w : Nat) :
    Encoding.Statement (.tableWalkEnd w) := 
  fun h => Bool.noConfusion (show false = true from h)

theorem Sys2Proof.Laws.Encoding.birspi (he : Nat) (data : List (Nat × BitVec 8)) :
    Encoding.Statement (.birspi he data) := 
  fun h => Bool.noConfusion (show false = true from h)

theorem Sys2Proof.Laws.Encoding.cxlHostLink (port : Nat) (st : Nat) :
    Encoding.Statement (.cxlHostLink port st) := 
  fun h => Bool.noConfusion (show false = true from h)

theorem Sys2Proof.Laws.Encoding.domainStart (num : Nat) (devs : Nat) :
    Encoding.Statement (.domainStart num devs) := 
  fun h => Bool.noConfusion (show false = true from h)

theorem Sys2Proof.Laws.Encoding.uncorrectableError (where_ : Nat) (pa : Nat) :
    Encoding.Statement (.uncorrectableError where_ pa) := 
  fun h => Bool.noConfusion (show false = true from h)

theorem Sys2Proof.Laws.Encoding.correctedError :
    Encoding.Statement .correctedError := 
  fun h => Bool.noConfusion (show false = true from h)
end

