-- ==== Sys2Proof/Tests/Slice0.lean ====
section
/-! SUPPORT. Tests: ill-formed terms that WellFormed refuses, words written out from the manual's encodings, single steps on small
states, and for each statement states and operands that meet its hypotheses. -/

namespace Sys2Proof.Tests

open Sys2Proof Sys2Proof.Machine

set_option Elab.async false

/-! ### Small states -/

/-- A page that maps 64 TiB to themselves. -/
def identity : PagePin := { ctx := 0, va := 0, pa := 0, bits := 46, ptype := 0, xp := true, w := true, rd := true }

/-- One team of one group, with the lanes 0 and 31, in a running launch, changed as a test asks. -/
def demo (g : Group → Group := id) (t : Team → Team := id) (l : Launch → Launch := id) : State :=
  { State.reset with
    cur := 16
    nextId := 100
    groups := [(16, g { absent := 0x7FFFFFFE, cur := { mask := 0x80000001, st := .ready, pc := 0x1000, id := 1 }, team := 1 })]
    teams := [(1, t { st := .resident, launch := 5, size := 1 })]
    launches := [(5, l { st := .running, items := 32, started := 1, next := 1, pins := [identity]
                         lcb := { codeBase := 0x1000, codeLen := 0x1000, handler := 0x1800, teamSize := 1 } })] }

/-- The group with a mode and registers, given by 32 × register + lane. -/
def withRegs (mode : BitVec 16) (regs : Table Word) (g : Group) : Group := { g with regs, cur := { g.cur with mode } }

/-- The state after an instruction, and the issuing group after it. -/
def run (i : Instr) (s : State) : State := match exec i s with | .next t => t | .fault _ => s | .refused _ => s
def after (i : Instr) (s : State) : Group := (run i s).grp

/-- The state with every request and reply of its accesses arrived, and the network empty. -/
def landed (s : State) : State :=
  { s with net := {}, txns := s.txns.map (fun x => (x.1, { x.2 with lanes := x.2.lanes.map (fun p => { p with going := false, coming := false }) })) }

/-- A fragment whose group awaits nothing has its operands ready. -/
theorem ready_plain (s : State) (srcs dsts : List Nat) (hb : s.grp.busy = [] ∧ s.grp.owed = [] ∧ s.grp.foot = [] ∧ s.grp.bad = [])
    (hv : ∀ n ∈ srcs, n < 60 ∨ 64 ≤ n) : Ready s srcs dsts := by
  refine ⟨⟨fun c _ b h => ?_, fun c _ e h => ?_, hb.2.2.1⟩, fun n h h1 h2 => absurd (hv n h) (by omega),
    fun n h l _ => ⟨fun _ => by rw [hb.2.2.2]; exact List.not_mem_nil, fun h1 h2 => absurd (hv n h) (by omega)⟩⟩
  · rw [hb.1] at h; exact absurd h List.not_mem_nil
  · rw [hb.2.1] at h; exact absurd h List.not_mem_nil

/-- As above for an instruction without a guard. -/
theorem ready_all (s : State) (srcs dsts : List Nat) (hb : s.grp.busy = [] ∧ s.grp.owed = [] ∧ s.grp.foot = [] ∧ s.grp.bad = [])
    (hv : ∀ n ∈ srcs, n < 60 ∨ 64 ≤ n) : ReadyAll s srcs dsts :=
  ⟨(ready_plain s srcs dsts hb hv).free, fun n h h1 h2 => absurd (hv n h) (by omega),
    fun n h l _ => ⟨fun _ => by rw [hb.2.2.2]; exact List.not_mem_nil, fun h1 h2 => absurd (hv n h) (by omega)⟩⟩

/-! ### What WellFormed refuses -/

theorem test_wf_destination : (Instr.add 0 60 1 2).wf = false ∧ (Instr.add 0 59 63 60).wf = true := by decide
theorem test_wf_pair : (Instr.bra 0 3).wf = false ∧ (Instr.bra 0 60).wf = false ∧ (Instr.bra 0 58).wf = true := by decide
theorem test_wf_quad : (Instr.bquery 2 1).wf = false ∧ (Instr.bquery 60 1).wf = false ∧ (Instr.bquery 56 31).wf = true := by decide
theorem test_wf_predicate : (Instr.pand 0 8 1 2).wf = false ∧ (Instr.pand 0 7 0 7).wf = true := by decide
theorem test_wf_region : (Instr.bret 32).wf = false ∧ (Instr.bret 31).wf = true := by decide
theorem test_wf_region_operand : (Instr.cpl 34 1 4).wf = false ∧ (Instr.cpl 33 32 4).wf = true := by decide
theorem test_wf_other_region : (Instr.bsplit 4 1 4).wf = false ∧ (Instr.bsplit 2 1 4).wf = true := by decide
theorem test_wf_barrier : (Instr.warr 16).wf = false ∧ (Instr.warr 15).wf = true := by decide
theorem test_wf_slot : (Instr.mclaim 8).wf = false ∧ (Instr.mclaim 7).wf = true := by decide
theorem test_wf_accumulator : (Instr.mzero 4).wf = false ∧ (Instr.mzero 3).wf = true := by decide
theorem test_wf_immediate : (Instr.ext 0 1 2 0).wf = false ∧ (Instr.ext 0 1 2 33).wf = false ∧ (Instr.ext 0 1 2 32).wf = true := by
  decide
theorem test_wf_special : (Instr.rds 0 2 0x0D).wf = false ∧ (Instr.wrs 0 2 0x00).wf = false ∧ (Instr.wrs 0 2 0x13).wf = true := by
  decide
theorem test_wf_system : (Instr.rdsp 2 0x05).wf = false ∧ (Instr.rdsp 2 0x03).wf = true := by decide
theorem test_wf_fence : (Instr.fence 0 1).wf = false ∧ (Instr.fence 1 0).wf = false ∧ (Instr.fence 3 7).wf = true := by decide
theorem test_wf_minor : (Instr.ld 4 1 2 0 5 0).wf = false ∧ (Instr.sxpk 0 8 4 0 3).wf = false ∧ (Instr.zpk 0 8 4 0 2).wf = false := by
  decide
theorem test_wf_event : (Instr.loadReply 3).wf = false := by decide

/-! ### Words from the manual's encodings -/

theorem test_decode_control : ∀ x ∈ ([
    (0x06800006, .br 5 6), (0x0A800006, .call 5 6), (0x0E800006, .fuse 5 6), (0x10006003, .brt 12 3), (0x16806000, .bra 5 12),
    (0x16806001, .calla 5 12), (0x16800002, .ret 5), (0x16800003, .join 5), (0x16800004, .yield 5), (0x16800005, .exit 5),
    (0x16800006, .nop 5), (0x1A800041, .mode 5 65), (0x1E80000D, .modg 5 1 5)] : List (Nat × Instr)), decode x.1 = .ok x.2 := by decide +kernel

theorem test_decode_integer_1 : ∀ x ∈ ([
    (0x22886280, .add 5 4 12 20), (0x22886281, .sub 5 4 12 20), (0x22886282, .mul 5 4 12 20), (0x22886283, .mulh 5 4 12 20),
    (0x20086284, .div 4 12 20), (0x20086285, .rem 4 12 20), (0x22886286, .min 5 4 12 20), (0x22886287, .max 5 4 12 20),
    (0x22886008, .abs 5 4 12), (0x22886009, .neg 5 4 12), (0x2288628E, .lea 5 4 12 20 2), (0x26886280, .and 5 4 12 20),
    (0x26886281, .or 5 4 12 20), (0x26886282, .xor 5 4 12 20), (0x26886283, .andn 5 4 12 20), (0x26886004, .not 5 4 12),
    (0x26886285, .shl 5 4 12 20), (0x26886286, .shr 5 4 12 20), (0x26886287, .sra 5 4 12 20), (0x26886288, .rotl 5 4 12 20)] : List (Nat × Instr)), decode x.1 = .ok x.2 := by decide +kernel

theorem test_decode_integer_2 : ∀ x ∈ ([
    (0x26886009, .clz 5 4 12), (0x2688600A, .ctz 5 4 12), (0x2688600B, .popc 5 4 12), (0x2688600C, .brev 5 4 12),
    (0x2688628D, .bext 5 4 12 20), (0x2688628E, .bins 5 4 12 20), (0x2688600F, .mov 5 4 12), (0x26886030, .ext 5 4 12 1),
    (0x26886031, .cvti 5 4 12 1)] : List (Nat × Instr)), decode x.1 = .ok x.2 := by decide +kernel

theorem test_decode_integer_more : ∀ x ∈ ([
    (0x2A886289, .mad 5 4 12 20 9), (0x2E886289, .madh 5 4 12 20 9), (0x32886280, .cmpEq 5 4 12 20),
    (0x32886281, .cmpNe 5 4 12 20), (0x32886282, .cmpLt 5 4 12 20), (0x32886283, .cmpLe 5 4 12 20),
    (0x32886284, .cmpGt 5 4 12 20), (0x32886285, .cmpGe 5 4 12 20), (0x3688628D, .sel 5 4 12 20 1 5)] : List (Nat × Instr)), decode x.1 = .ok x.2 := by decide +kernel

theorem test_decode_lanes : ∀ x ∈ ([
    (0x3A886280, .shflAt 5 4 12 20), (0x3A886281, .shflRise 5 4 12 20), (0x3A886282, .shflFall 5 4 12 20),
    (0x3A886283, .shflFlip 5 4 12 20), (0x38083004, .voteAny 0 4 6), (0x38083005, .voteAll 0 4 6),
    (0x38083006, .voteBallot 0 4 6), (0x3A886008, .scanAdd 5 4 12), (0x3A886009, .scanMin 5 4 12), (0x3A88600A, .scanMax 5 4 12),
    (0x3A88600B, .scanAddx 5 4 12), (0x3C083040, .pand 0 4 6 2), (0x3C083041, .por 0 4 6 2), (0x3C083042, .pxor 0 4 6 2),
    (0x3C083003, .pnot 0 4 6)] : List (Nat × Instr)), decode x.1 = .ok x.2 := by decide +kernel

theorem test_decode_immediates : ∀ x ∈ ([
    (0x42880005, .movi 5 4 5), (0x46880005, .movu 5 4 5), (0x4A886005, .addi 5 4 12 5), (0x4E886005, .andi 5 4 12 5),
    (0x52886005, .ori 5 4 12 5), (0x56886005, .xori 5 4 12 5), (0x5A886009, .shli 5 4 12 9), (0x5E886009, .shri 5 4 12 9)] : List (Nat × Instr)), decode x.1 = .ok x.2 := by decide +kernel

theorem test_decode_float_1 : ∀ x ∈ ([
    (0x62886289, .fma 5 4 12 20 9), (0x66886280, .fadd 5 4 12 20), (0x66886281, .fsub 5 4 12 20), (0x66886282, .fmul 5 4 12 20),
    (0x66886283, .fmin 5 4 12 20), (0x66886284, .fmax 5 4 12 20), (0x66886005, .fabs 5 4 12), (0x66886006, .fneg 5 4 12),
    (0x64086287, .fdiv 4 12 20), (0x64086008, .fsqrt 4 12), (0x66886009, .frcp 5 4 12), (0x6688600A, .frsq 5 4 12),
    (0x6688600B, .fexp2 5 4 12), (0x6688600C, .flog2 5 4 12), (0x6688628D, .fdot2 5 4 12 20), (0x6688600E, .fclass 5 4 12),
    (0x6A886280, .fcmpEq 5 4 12 20), (0x6A886281, .fcmpNe 5 4 12 20), (0x6A886282, .fcmpLt 5 4 12 20),
    (0x6A886283, .fcmpLe 5 4 12 20)] : List (Nat × Instr)), decode x.1 = .ok x.2 := by decide +kernel

theorem test_decode_float_2 : ∀ x ∈ ([
    (0x6A886284, .fcmpGt 5 4 12 20), (0x6A886285, .fcmpGe 5 4 12 20), (0x6A886286, .fcmpUn 5 4 12 20),
    (0x6A886287, .fcmpOr 5 4 12 20), (0x6E886001, .fcvt 5 4 12 1)] : List (Nat × Instr)), decode x.1 = .ok x.2 := by decide +kernel

theorem test_decode_blocks_and_special : ∀ x ∈ ([
    (0x72886005, .sxpk 5 4 12 1 1), (0x7288600D, .sxupk 5 4 12 1 1), (0x72886015, .zpk 5 4 12 1 1),
    (0x7288601D, .zupk 5 4 12 1 1), (0x74080020, .evrd 4 1), (0x74000021, .evclr 1), (0x7A880003, .rds 5 4 3),
    (0x7C080010, .wrs 0 4 16)] : List (Nat × Instr)), decode x.1 = .ok x.2 := by decide +kernel

theorem test_decode_ordinal_and_borrows : ∀ x ∈ ([
    (0x80006020, .pub 12 1), (0x84080802, .cdef 4 1 2), (0x88086280, .borX 4 12 20), (0x88086281, .borS 4 12 20),
    (0x88086282, .borC 4 12 20), (0x88086284, .borXW 4 12 20), (0x88086285, .borSW 4 12 20), (0x88086286, .borCW 4 12 20),
    (0x88000288, .bdown 20), (0x88080289, .bup 4 20), (0x8808628A, .bsplit 4 12 20), (0x8808028B, .bjoin 4 20),
    (0x8800628C, .bhand 12 20), (0x8800028D, .bret 20), (0x8808028E, .bquery 4 20)] : List (Nat × Instr)), decode x.1 = .ok x.2 := by decide +kernel

theorem test_decode_memory : ∀ x ∈ ([
    (0x90085325, .ld 4 5 12 2 2 1), (0x94085325, .st 4 5 12 2 2 1), (0xA0005321, .pref 5 12 2 1), (0x98086002, .ldl 4 12 2),
    (0x9808600A, .stl 4 12 2), (0x98086012, .ldc 4 12 2), (0x9808601A, .stc 4 12 2), (0x9E886000, .cvtaGl 5 4 12),
    (0x9E886001, .cvtaGc 5 4 12), (0x9E886002, .cvtaLg 5 4 12), (0x9E886003, .cvtaCg 5 4 12), (0x9E886004, .inapGlobal 5 4 12),
    (0x9E886005, .inapPeer 5 4 12), (0x9E886006, .inapCluster 5 4 12), (0x9E886007, .inapLocal 5 4 12),
    (0x9C006288, .bankset 12 20), (0x9C006289, .fput 12 20), (0x9C08600A, .fget 4 12), (0x9C00002B, .waitc 1)] : List (Nat × Instr)), decode x.1 = .ok x.2 := by decide +kernel

theorem test_decode_remote : ∀ x ∈ ([
    (0xA80828D5, .rld 4 5 6 2 5), (0xAC0828D5, .rst 4 5 6 2 5), (0xB00828D5, .ratmAdd 4 5 6 2 5),
    (0xB40828D5, .ratmXchg 4 5 6 2 5), (0xB80828D5, .ratmCas 4 5 6 2 5)] : List (Nat × Instr)), decode x.1 = .ok x.2 := by decide +kernel

theorem test_decode_commons : ∀ x ∈ ([
    (0xC4085320, .aadd 1 4 5 12 2), (0xC4085321, .asub 1 4 5 12 2), (0xC4085322, .amin 1 4 5 12 2),
    (0xC4085323, .amax 1 4 5 12 2), (0xC4085324, .aand 1 4 5 12 2), (0xC4085325, .aor 1 4 5 12 2),
    (0xC4085326, .axor 1 4 5 12 2), (0xC4085327, .axchg 1 4 5 12 2), (0xC4085328, .acas 1 4 5 12 2),
    (0xC4085329, .ainc 1 4 5 12 2), (0xC408532A, .adec 1 4 5 12 2), (0xC408532B, .afadd 1 4 5 12 2),
    (0xC408532C, .ald 1 4 5 12 2), (0xC808532D, .ast 1 4 5 12 2), (0xC002500E, .ahint 1 5)] : List (Nat × Instr)), decode x.1 = .ok x.2 := by decide +kernel

theorem test_decode_copies_and_ordering_1 : ∀ x ∈ ([
    (0xD0086280, .cpl 4 12 20), (0xD0086281, .cpb 4 12 20), (0xD0086284, .cprAdd 4 12 20), (0xD0086285, .cprMin 4 12 20),
    (0xD0086286, .cprMax 4 12 20), (0xD0086287, .cprFadd 4 12 20), (0xD4086280, .winit 4 12 20), (0xD4086001, .wexp 4 12),
    (0xD4080002, .warr 4), (0xD4080003, .wwait 4), (0xD4086004, .wtest 4 12), (0xD800000A, .fence 1 2), (0xD8000000, .fencei),
    (0xDC00628A, .fencer 12 20 1 2), (0xE4080000, .mclaim 4), (0xE4080001, .mrel 4), (0xE4086282, .mld 4 12 20),
    (0xE4061083, .mst 3 2 4), (0xE4060004, .mzero 3), (0xE4061005, .macc 3 2)] : List (Nat × Instr)), decode x.1 = .ok x.2 := by decide +kernel

theorem test_decode_copies_and_ordering_2 : ∀ x ∈ ([
    (0xE4086006, .mshape 4 12)] : List (Nat × Instr)), decode x.1 = .ok x.2 := by decide +kernel

theorem test_decode_matrix_and_tasks : ∀ x ∈ ([
    (0xE8061081, .mma 3 2 4 1), (0xEC086280, .spawn 4 12 20), (0xEC086281, .spawnh 4 12 20), (0xEC086002, .bin 4 12),
    (0xEC006283, .patch 12 20), (0xEC006004, .release 12)] : List (Nat × Instr)), decode x.1 = .ok x.2 := by decide +kernel

theorem test_decode_system : ∀ x ∈ ([
    (0xF2800060, .trap 5 3), (0xF0000001, .tret), (0xF0003042, .tlbi 6 2), (0xF0006003, .preempt 12), (0xF0000004, .halt),
    (0xF2800065, .brk 5 3), (0xF4080003, .rdsp 4 3), (0xF8080003, .wrsp 4 3)] : List (Nat × Instr)), decode x.1 = .ok x.2 := by decide +kernel
/-! ### Integer instructions (R98 to R115) -/

/-- A group under element type `et` with `v1` and `v2` in both lanes and other registers as given. -/
def under (et : Nat) (a b : Word) (more : Table Word := []) : State :=
  demo (withRegs (BitVec.ofNat 16 (et * 128))
    (more ++ [(32, a), (63, a), (64, b), (95, b)]))

/-- The operands of IntegerArithmetic, IntegerOrderAndHighHalves, BitLogic, Shifts, BitCounts and Scans stand ready, one word and
pairs. -/
theorem test_ready_integers : IntReady (under 0 5 7) intTypes 3 [1, 2] ∧ IntReady (under 7 5 7) intTypes 59 [1, 2, 0] ∧
    IntReady (under 2 5 7) intTypes 58 [0, 2] ∧ IntReady (under 0 5 7) scalarInts 3 [3, 1, 2] ∧
    IntReady (under 1 5 7) [0, 1] 3 [1] ∧ IntReady (under 3 5 7) scalarInts 4 [0, 2] := by
  refine ⟨⟨?_, ?_, ready_plain _ _ _ ?_ ?_⟩, ⟨?_, ?_, ready_plain _ _ _ ?_ ?_⟩, ⟨?_, ?_, ready_plain _ _ _ ?_ ?_⟩,
    ⟨?_, ?_, ready_plain _ _ _ ?_ ?_⟩, ⟨?_, ?_, ready_plain _ _ _ ?_ ?_⟩, ⟨?_, ?_, ready_plain _ _ _ ?_ ?_⟩⟩ <;> decide

/-- The two clauses of Shifts and FieldsAndConversions with bounds: counts 31 and 63, lengths 1 and 32, pairs at 58. -/
theorem test_ready_fields : (31 < (under 0 5 7).ity.w ∧ 63 < (under 2 5 7).ity.w) ∧
    ((under 1 5 7).et < 2 ∧ Ready (under 1 5 7) (regs true 58 ++ [1]) (regs true 58)) ∧
    (cvtiSet (under 3 5 7).et = cvtiSet 0 ∧ isPair 58 = true ∧ Ready (under 3 5 7) (regs false 1) (regs true 58)) ∧
    cvtiSet 4 = cvtiSet 5 := by
  refine ⟨by decide, ⟨by decide, ready_plain _ _ _ ?_ ?_⟩, ⟨by decide, by decide, ready_plain _ _ _ ?_ ?_⟩, ?_⟩ <;> decide

/-- Comparisons and Moves: predicates 1 and 7, a back view as no operand. -/
theorem test_ready_moves : Ready (under 0 5 7) ([1, 2].flatMap (regs false)) [64 + 7] ∧
    Ready (under 0 5 7) ([1, 2].flatMap (regs false)) (regs false 3 ++ [64 + 1]) ∧
    Ready (under 2 5 7) (regs true 58) (regs true 0) ∧ Ready (under 0 5 7) [] [59] ∧ Ready (under 0 5 7) [59] [59] := by
  refine ⟨ready_plain _ _ _ ?_ ?_, ready_plain _ _ _ ?_ ?_, ready_plain _ _ _ ?_ ?_, ready_plain _ _ _ ?_ ?_,
    ready_plain _ _ _ ?_ ?_⟩ <;> decide

/-- Sums wrap; with SAT they stop at the limit and count a saturation. -/
theorem test_add : (after (.add 0 3 1 2) (under 0 0x7FFFFFFF 1)).reg 3 31 = 0x80000000 ∧
    (after (.add 0 3 1 2) (demo (withRegs 0x8000 [(32, 0x7FFFFFFF), (64, 1)]))).reg 3 0 = 0x7FFFFFFF ∧
    tget 0 (run (.add 0 3 1 2) (demo (withRegs 0x8000 [(32, 0x7FFFFFFF), (64, 1)]))).team.total 2 = 1 := by decide +kernel
theorem test_sub : (after (.sub 0 3 1 2) (under 1 3 5)).reg 3 0 = 0xFFFFFFFE := by decide +kernel
theorem test_add_bytes : (after (.add 0 3 1 2) (under 6 0x7F01FF10 0x0101_0110)).reg 3 31 = 0x8002_0020 := by decide +kernel
theorem test_add_pair : (after (.add 0 4 2 2) (under 2 0 0xFFFFFFFF [(96, 1)])).val true 4 0 = 0xFFFF_FFFE + 2 ^ 32 * 3 := by
  decide +kernel
theorem test_mul_mulh : (after (.mul 0 3 1 2) (under 1 0xFFFFFFFF 2)).reg 3 0 = 0xFFFFFFFE ∧
    (after (.mulh 0 3 1 2) (under 1 0xFFFFFFFF 2)).reg 3 0 = 1 ∧ (after (.mulh 0 3 1 2) (under 0 0xFFFFFFFF 2)).reg 3 0 = 0xFFFFFFFF := by
  decide +kernel
theorem test_mad : (after (.mad 0 3 1 2 1) (under 0 5 7)).reg 3 0 = 40 ∧ (after (.madh 0 3 1 2 1) (under 0 5 7)).reg 3 0 = 5 := by
  decide +kernel
theorem test_min_max : (after (.min 0 3 1 2) (under 0 0xFFFFFFFF 1)).reg 3 0 = 0xFFFFFFFF ∧
    (after (.max 0 3 1 2) (under 1 0xFFFFFFFF 1)).reg 3 0 = 0xFFFFFFFF := by decide +kernel
theorem test_abs_neg : (after (.abs 0 3 1) (under 0 0x80000000 0)).reg 3 0 = 0x80000000 ∧
    (after (.neg 0 3 1) (under 0 1 0)).reg 3 0 = 0xFFFFFFFF := by decide +kernel
theorem test_immediates : (after (.addi 0 3 1 0x7FF) (under 0 5 0)).reg 3 0 = 4 ∧ (after (.andi 0 3 1 0x7FF) (under 0 5 0)).reg 3 0 = 5 ∧
    (after (.ori 0 3 1 8) (under 0 5 0)).reg 3 0 = 13 ∧ (after (.xori 0 3 1 1) (under 0 5 0)).reg 3 0 = 4 := by decide +kernel
theorem test_logic : (after (.and 0 3 1 2) (under 0 6 3)).reg 3 0 = 2 ∧ (after (.or 0 3 1 2) (under 0 6 3)).reg 3 0 = 7 ∧
    (after (.xor 0 3 1 2) (under 0 6 3)).reg 3 0 = 5 ∧ (after (.andn 0 3 1 2) (under 0 6 3)).reg 3 0 = 4 ∧
    (after (.not 0 3 1) (under 0 6 3)).reg 3 0 = 0xFFFFFFF9 := by decide +kernel
theorem test_shifts : (after (.shl 0 3 1 2) (under 0 1 32)).reg 3 0 = 0 ∧ (after (.sra 0 3 1 2) (under 0 0x80000000 40)).reg 3 0 = 0xFFFFFFFF ∧
    (after (.shr 0 3 1 2) (under 0 0x80000000 31)).reg 3 0 = 1 ∧ (after (.rotl 0 3 1 2) (under 0 0x80000001 33)).reg 3 0 = 3 ∧
    (after (.shli 0 3 1 31) (under 0 1 0)).reg 3 0 = 0x80000000 ∧ (after (.shri 0 3 1 31) (under 0 0x80000000 0)).reg 3 0 = 1 := by
  decide +kernel
theorem test_counts : (after (.clz 0 3 1) (under 0 1 0)).reg 3 0 = 31 ∧ (after (.ctz 0 3 1) (under 0 0 0)).reg 3 0 = 32 ∧
    (after (.popc 0 3 1) (under 0 0xF0F 0)).reg 3 0 = 8 ∧ (after (.brev 0 3 1) (under 0 1 0)).reg 3 0 = 0x80000000 := by decide +kernel
theorem test_fields : (after (.bext 0 3 1 2) (under 1 0xABCD 0x0804)).reg 3 0 = 0xBC ∧
    (after (.bext 0 3 1 2) (under 0 0xABCD 0x0804)).reg 3 0 = 0xFFFFFFBC ∧
    (after (.bins 0 3 1 2) (under 0 0xF 0x0404 [(96, 0x100)])).reg 3 0 = 0x1F0 ∧
    (after (.ext 0 3 1 8) (under 0 0x80 0)).reg 3 0 = 0xFFFFFF80 := by decide +kernel
theorem test_lea : (after (.lea 0 4 2 1 2) (under 0 0xFFFFFFFF 0x1000 [(96, 1)])).reg 4 0 = 0xFFC ∧
    (after (.lea 0 4 2 1 2) (under 1 0x80000000 0 [(96, 1)])).reg 5 0 = 3 := by decide +kernel
theorem test_cvti : (after (.cvti 0 4 1 0) (under 2 0xFFFFFFFF 0)).reg 5 0 = 0xFFFFFFFF ∧
    (after (.cvti 0 4 1 1) (under 2 0xFFFFFFFF 0)).reg 5 0 = 0 := by decide +kernel
theorem test_comparisons : (after (.cmpLt 0 1 1 2) (under 0 0xFFFFFFFF 0)).pred 1 = 0x80000001 ∧
    (after (.cmpLt 0 1 1 2) (under 1 0xFFFFFFFF 0)).pred 1 = 0 ∧ (after (.cmpGe 0 7 1 2) (under 0 4 4)).pred 7 = 0x80000001 ∧
    (after (.cmpEq 0 7 1 2) (under 0 4 4)).pred 7 = 0x80000001 ∧ (after (.cmpNe 0 7 1 2) (under 0 4 4)).pred 7 = 0 ∧
    (after (.cmpLe 0 7 1 2) (under 0 5 4)).pred 7 = 0 ∧ (after (.cmpGt 0 0 1 2) (under 0 5 4)).pred 0 = 0xFFFFFFFF := by decide +kernel
theorem test_moves : (after (.sel 0 3 1 2 0 0) (under 0 5 7)).reg 3 0 = 5 ∧ (after (.sel 0 3 1 2 1 0) (under 0 5 7)).reg 3 0 = 7 ∧
    (after (.mov 0 3 2) (under 0 5 7)).reg 3 31 = 7 ∧ (after (.movi 0 3 0x1FFFF) (under 0 5 7)).reg 3 0 = 0xFFFFFFFF ∧
    (after (.movu 0 1 0x1FFFF) (under 0 5 7)).reg 1 0 = 0xFFFF8005 := by decide +kernel

/-- Division enters the divider, and DIVIDER_COMPLETE writes its words when its slots have passed (Division, DividerCompletes). -/
def divided : State := run (.div 3 1 2) (under 0 0xFFFFFFF9 2)
theorem test_division : IntReady (under 0 0xFFFFFFF9 2) scalarInts 3 [1, 2] := ⟨by decide, by decide, ready_plain _ _ _ (by decide) (by decide)⟩
theorem test_division_enters : (divided.grp.busy.map (·.1)) = [3] ∧ divided.grp.reg 3 0 = 0 ∧
    ((tget [] (divided.clusterOf 0).divq 0).map (fun o => (o.due, o.words.length, tfind o.words 96))) = [(20, 2, some 0xFFFFFFFD)] := by
  decide +kernel
theorem test_divider_completes :
    run (.dividerComplete 0 0) { divided with cycle := 19 } = { divided with cycle := 19 } ∧
    (tget [] (divided.clusterOf 0).divq 0).all (fun o => decide (o.words.map (·.1)).Nodup && divided.hasGroup o.group) = true ∧
    ((run (.dividerComplete 0 0) { divided with cycle := 20 }).group 16).reg 3 31 = 0xFFFFFFFD ∧
    ((run (.dividerComplete 0 0) { divided with cycle := 20 }).group 16).busy = [] := by decide +kernel
theorem test_remainder : ((run (.dividerComplete 0 0) { run (.rem 3 1 2) (under 0 0xFFFFFFF9 2) with cycle := 99 }).group 16).reg 3 31 =
    0xFFFFFFFF ∧ tget 0 ((run (.dividerComplete 0 0) { run (.rem 3 1 2) (under 1 9 0) with cycle := 99 }).teamOf 1).total 5 = 2 := by
  decide +kernel

/-! ### Lanes, predicates and special registers (R116 to R123, R152 to R157) -/

/-- Shuffles: sources ready, views (there are none) ready. -/
theorem test_ready_shuffle : Unhindered (under 0 5 7) (regs false 1 ++ [2] ++ regs false 3) ∧ (under 0 5 7).viewsReady [2] ∧
    Unhindered (under 2 5 7) (regs true 58 ++ [1] ++ regs true 4) ∧ isPair 58 = true := by
  refine ⟨(ready_plain _ (regs false 1 ++ [2]) (regs false 3) ?_ ?_).free, (ready_plain _ [2] [] ?_ ?_).views,
    (ready_plain _ (regs true 58 ++ [1]) (regs true 4) ?_ ?_).free, ?_⟩ <;> decide
theorem test_shuffles : (after (.shflAt 0 3 1 2) (under 0 5 31 [(63, 9)])).reg 3 0 = 9 ∧
    (after (.shflRise 0 3 1 2) (under 0 5 31 [(63, 9)])).reg 3 31 = 5 ∧ (after (.shflRise 0 3 1 2) (under 0 5 31)).reg 3 0 = 0 ∧
    (after (.shflFall 0 3 1 2) (under 0 5 31 [(63, 9)])).reg 3 0 = 9 ∧ (after (.shflFlip 0 3 1 2) (under 0 5 31 [(63, 9)])).reg 3 0 = 9 ∧
    (after (.shflFall 0 3 1 2) (demo (fun g =>
      { withRegs 0x08 [(32, 5), (63, 9), (64, 31), (95, 31)] g with preds := [(1, 0x80000001)] }))).pred 1 = 1 := by decide +kernel
theorem test_ready_votes : Ready (under 0 5 7) [64 + 7] [64 + 1] ∧ Ready (under 0 5 7) [64 + 7] [59] ∧
    Ready (under 0 5 7) [64 + 7, 64 + 0] [64 + 1] := by
  refine ⟨ready_plain _ _ _ ?_ ?_, ready_plain _ _ _ ?_ ?_, ready_plain _ _ _ ?_ ?_⟩ <;> decide
/-- A small state with predicates `p1` = lane 0 and `p2` = lane 31. -/
def voting : State := demo (fun g => { g with preds := [(1, 1), (2, 0x80000000)] })
theorem test_votes : (after (.voteAny 0 3 1) voting).pred 3 = 0x80000001 ∧ (after (.voteAll 0 3 1) voting).pred 3 = 0 ∧
    (after (.voteBallot 0 3 2) voting).reg 3 0 = 0x80000000 ∧ (after (.voteAll 0 3 0) voting).pred 3 = 0x80000001 := by decide +kernel
theorem test_predicates : (after (.pnot 0 3 1) voting).pred 3 = 0x80000000 ∧ (after (.por 0 3 1 2) voting).pred 3 = 0x80000001 ∧
    (after (.pand 0 3 1 0) voting).pred 3 = 1 ∧ (after (.pxor 0 3 1 2) voting).pred 3 = 0x80000001 ∧ (after (.pand 0 0 1 1) voting).preds =
    voting.grp.preds := by decide +kernel
theorem test_scans : (after (.scanAdd 0 3 1) (under 0 5 7 [(63, 9)])).reg 3 31 = 14 ∧ (after (.scanAddx 0 3 1) (under 0 5 7)).reg 3 31 = 5 ∧
    (after (.scanMin 0 3 1) (under 0 5 7 [(63, 9)])).reg 3 31 = 5 ∧ (after (.scanMax 0 3 1) (under 0 5 7)).reg 3 31 = 5 := by decide +kernel
theorem test_ready_special : Ready (under 0 5 7) [] [59] ∧ Ready (under 0 5 7) [] [4, 4 + 1] ∧ Ready (under 0 5 7) [1] [] ∧
    Ready (under 0 5 7) [] [] := by
  refine ⟨ready_plain _ _ _ ?_ ?_, ready_plain _ _ _ ?_ ?_, ready_plain _ _ _ ?_ ?_, ready_plain _ _ _ ?_ ?_⟩ <;> decide
theorem test_rds : (after (.rds 0 3 0) (demo)).reg 3 31 = 31 ∧ (after (.rds 0 4 1) (demo (fun g => { g with ord := 2 }))).reg 4 31 = 95 ∧
    (after (.rds 0 3 0x009) (under 3 0 0)).reg 3 0 = 0x180 ∧ (after (.rds 0 3 0x00C) (demo (fun g => { g with pos := 3 }))).reg 3 0 = 0x6000 := by
  decide +kernel
theorem test_wrs : tget 0 (after (.wrs 0 1 0x13) (under 0 5 7)).user 3 = 5 ∧
    tget 0 (run (.wrs 0 1 0x25) (under 0 5 7)).team.evth 5 = 5 ∧
    (run (.wrs 0 1 0x26) (demo (withRegs 0 [(32, 5)]) (fun t => { t with evstat := 0x3F }))).team.evstat = 0x3A := by decide +kernel
/-- EventCounters: a group with and one without an instruction that still counts; a team that is there. -/
theorem test_counting : (under 0 5 7).counting = false ∧ divided.counting = true ∧ (divided.teamOf 1).st ≠ .absent := by decide +kernel
theorem test_ready_evrd : Ready divided [] [4] := by
  refine ⟨⟨?_, ?_, ?_⟩, fun n h => absurd h List.not_mem_nil, fun n h => absurd h List.not_mem_nil⟩ <;> decide +kernel
theorem test_event_counters : (after (.evrd 3 2) (demo id (fun t => { t with total := [(2, 6)] }))).reg 3 0 = 6 ∧
    tget 1 (run (.evclr 6) (demo id (fun t => { t with total := [(2, 6)] }))).team.total 2 = 1 ∧
    tget 0 ((run (.eventWindowReset 1 2) (demo id (fun t => { t with window := [(2, 6), (3, 5)] }))).teamOf 1).window 3 = 5 := by
  decide +kernel

/-! ### Floating point and blocks (R126 to R150) -/

/-- FloatArithmetic, FloatSelection, FloatDividerAndDot, FloatComparisons: operands ready under each set of types. -/
theorem test_ready_floats : FloatReady (under 8 0x3F800000 7) floatTypes 59 [1, 2] ∧ FloatReady (under 10 5 7) floatTypes 3 [1, 2, 31] ∧
    FloatReady (under 9 5 7) [9, 10] 3 [3, 1, 2] ∧ FloatReady (under 9 5 7) floatTypes 3 [1] ∧
    ((under 8 5 7).et = 8 ∧ Ready (under 8 5 7) [1, 2] [64 + 7]) ∧ Ready (under 8 5 7) [1] [59] := by
  refine ⟨⟨?_, ready_plain _ _ _ ?_ ?_⟩, ⟨?_, ready_plain _ _ _ ?_ ?_⟩, ⟨?_, ready_plain _ _ _ ?_ ?_⟩, ⟨?_, ready_plain _ _ _ ?_ ?_⟩,
    ⟨?_, ready_plain _ _ _ ?_ ?_⟩, ready_plain _ _ _ ?_ ?_⟩ <;> decide
/-- FloatConversions: pairs on either side. -/
theorem test_ready_conversions : (2 * elemWidth 8 = 64 ∧ isPair 58 = true ∧ Ready (under 9 5 7) (regs true 58) (regs false 59)) ∧
    (4 * elemWidth 9 = 64 ∧ Ready (under 9 5 7) (regs false 1) (regs true 4)) := by
  refine ⟨⟨by decide, by decide, ready_plain _ _ _ ?_ ?_⟩, ⟨by decide, ready_plain _ _ _ ?_ ?_⟩⟩ <;> decide
/-- ResultsAreRounded: one number for each of its outcomes (too large under each direction, flushed, subnormal, tie to even). -/
theorem test_rounding : f16 ∈ [f32, f16, b16] ∧ f16.deliver ⟨0, false, false⟩ (.fin false 1 16 false) = (f16.inf false, [0]) ∧
    f16.deliver ⟨1, false, false⟩ (.fin true 1 16 false) = (f16.maxFin true, [0]) ∧
    f16.deliver ⟨0, true, false⟩ (.fin true 1 16 false) = (f16.maxFin true, [2]) ∧
    f16.deliver ⟨0, false, true⟩ (.fin true 1 (-24) false) = (0x8000, [3]) ∧ f16.deliver ⟨0, false, false⟩ (.fin true 1 (-24) false) = (0x8001, []) ∧
    f16.deliver ⟨0, false, false⟩ (.fin false 1 (-26) false) = (0, [3]) ∧ f16.deliver ⟨2, false, false⟩ (.fin false 1 (-26) false) = (1, []) ∧
    f32.deliver ⟨0, false, false⟩ (.fin false 0x1000001 0 false) = (0x4B800000, []) ∧
    f32.deliver ⟨4, false, false⟩ (.fin false 0x1000001 0 false) = (0x4B800001, []) ∧
    f32.deliver ⟨3, false, false⟩ (.fin true 0x1000001 0 false) = (0xCB800001, []) := by decide +kernel
theorem test_fadd : (after (.fadd 0 3 1 2) (under 8 0x3F800000 0x33800000)).reg 3 0 = 0x3F800000 ∧
    (after (.fsub 0 3 1 2) (under 8 0x3F800000 0x3F800000)).reg 3 0 = 0 ∧
    (after (.fsub 0 3 1 2) (demo (withRegs 0x1C00 [(32, 0x3F800000), (64, 0x3F800000)]))).reg 3 0 = 0x80000000 ∧
    (after (.fadd 0 3 1 2) (under 8 0x7F800000 0xFF800000)).reg 3 0 = 0x7FC00000 := by decide +kernel
theorem test_fadd_halves : (after (.fadd 0 3 1 2) (under 9 0x3C003C00 0xBC003C00)).reg 3 0 = 0x00004000 := by decide +kernel
theorem test_fmul_fma : (after (.fmul 0 3 1 2) (under 8 0x40400000 0xC0000000)).reg 3 0 = 0xC0C00000 ∧
    (after (.fma 0 3 1 2 4) (under 8 0x40400000 0x40000000 [(128, 0x3F800000)])).reg 3 0 = 0x40E00000 ∧
    tget 0 (run (.fma 0 3 1 2 4) (under 8 0 0x7F800000 [(128, 0x7FC00000)])).team.total 1 = 2 := by decide +kernel
theorem test_division_by_zero : (after (.frcp 0 3 1) (under 8 0x80000000 0)).reg 3 0 = 0xFF800000 ∧
    (after (.frcp 0 3 1) (under 8 0x40000000 0)).reg 3 0 = 0x3F000000 ∧ (after (.frsq 0 3 1) (under 8 0x40800000 0)).reg 3 0 = 0x3F000000 := by
  decide +kernel
theorem test_exponentials : (after (.fexp2 0 3 1) (under 8 0x40400000 0)).reg 3 0 = 0x41000000 ∧
    (after (.flog2 0 3 1) (under 8 0x41000000 0)).reg 3 0 = 0x40400000 ∧ (after (.flog2 0 3 1) (under 8 0 0)).reg 3 0 = 0xFF800000 := by
  decide +kernel
theorem test_fmin_fmax : (after (.fmin 0 3 1 2) (under 8 0x80000000 0)).reg 3 0 = 0x80000000 ∧
    (after (.fmax 0 3 1 2) (under 8 0x7FC00000 0xBF800000)).reg 3 0 = 0xBF800000 := by decide +kernel
theorem test_signs_classes : (after (.fabs 0 3 1) (under 8 0xFF800001 0)).reg 3 0 = 0x7F800001 ∧
    (after (.fneg 0 3 1) (under 9 0x3C008000 0)).reg 3 0 = 0xBC000000 ∧ (after (.fclass 0 3 1) (under 8 0x7FC00000 0)).reg 3 0 = 0x200 ∧
    (after (.fclass 0 3 1) (under 8 0x80000001 0)).reg 3 0 = 4 := by decide +kernel
theorem test_float_divider : (tget [] ((run (.fdiv 3 1 2) (under 8 0x3F800000 0x40400000)).clusterOf 0).divq 0).map
      (fun o => (o.due, tfind o.words 96)) = [(24, some 0x3EAAAAAB)] ∧
    (tget [] ((run (.fsqrt 3 1) (under 8 0x40000000 0)).clusterOf 0).divq 0).map (fun o => tfind o.words 96) = [some 0x3FB504F3] := by
  decide +kernel
theorem test_fdot2 : (after (.fdot2 0 3 1 2) (under 9 0x3C003C00 0x40004200 [(96, 0x3F800000)])).reg 3 0 = 0x40C00000 := by decide +kernel
theorem test_float_comparisons : (after (.fcmpEq 0 1 1 2) (under 8 0 0x80000000)).pred 1 = 0x80000001 ∧
    (after (.fcmpNe 0 1 1 2) (under 8 0 0x7FC00000)).pred 1 = 0x80000001 ∧ (after (.fcmpLt 0 1 1 2) (under 8 0xBF800000 0)).pred 1 = 0x80000001 ∧
    (after (.fcmpLe 0 1 1 2) (under 8 0 0x7FC00000)).pred 1 = 0 ∧ (after (.fcmpGt 0 1 1 2) (under 8 0 0x80000001)).pred 1 = 0x80000001 ∧
    (after (.fcmpGe 0 1 1 2) (under 8 0 0)).pred 1 = 0x80000001 ∧ (after (.fcmpUn 0 1 1 2) (under 8 0 0x7F800001)).pred 1 = 0x80000001 ∧
    (after (.fcmpOr 0 1 1 2) (under 8 0 0)).pred 1 = 0x80000001 := by decide +kernel
theorem test_fcvt : (after (.fcvt 0 3 1 0) (under 8 0xFFFFFFFD 0)).reg 3 0 = 0xC0400000 ∧
    (after (.fcvt 0 3 1 8) (under 0 0xCF800000 0)).reg 3 0 = 0x80000000 ∧ (after (.fcvt 0 3 1 8) (under 1 0xC0200000 0)).reg 3 0 = 0 ∧
    (after (.fcvt 0 4 1 9) (under 8 0x3C00C000 0)).reg 5 0 = 0x3F800000 := by decide +kernel
/-- BlockLayout: both lengths, the shortest and the widest code. -/
theorem test_block_layout :
    ((⟨true, 3, 16⟩ : BlockFmt).n ∈ [16, 32] ∧ (⟨true, 3, 16⟩ : BlockFmt).cb ∈ [3, 4, 5, 8] ∧ (List.replicate 16 7).length = 16 ∧
      (∀ q ∈ List.replicate 16 7, q < 2 ^ 3)) ∧
    (⟨true, 3, 16⟩ : BlockFmt).pack 127 1 (List.replicate 16 7) = 127 + 256 + 65536 * (2 ^ 48 - 1) ∧
    (⟨false, 8, 32⟩ : BlockFmt).code ((⟨false, 8, 32⟩ : BlockFmt).pack 127 1 (List.range 32)) 31 = 31 := by decide +kernel
/-- A block of one: E is 127, the first code 1.0 in the largest place, and unpacking gives it back. -/
theorem test_blocks : (after (.sxpk 0 3 1 0 0) (under 8 0x3F800000 0)).reg 3 0 % 256 = 127 ∧
    (after (.sxupk 0 3 1 0 0) (demo (withRegs 0x400 [(32, 0x0040_007F)]))).reg 3 0 = 0x3F800000 ∧
    (after (.zupk 0 3 1 0 0) (demo (withRegs 0x400 [(32, 0x0003_017F)]))).reg 3 0 = 0x40000000 ∧
    (after (.zupk 0 3 1 0 0) (demo (withRegs 0x400 [(32, 0x0003_01FF)]))).reg 3 0 = 0x7FC00000 := by decide +kernel
theorem test_zpk : (after (.zpk 0 3 1 0 0) (under 8 0x3F800000 0)).reg 3 0 / 256 % 256 = 0 := by decide +kernel
/-- Ones, with an octet of quarters: the second octet's shift is 2, and every code 64. A span of 2 has a scale of 2^-6, and zero point 64. -/
theorem test_packing : (⟨true, 8, 16⟩ : BlockFmt).packed 0 (List.replicate 8 0x3F800000 ++ List.replicate 8 0x3E800000) =
      ((⟨true, 8, 16⟩ : BlockFmt).pack 127 8 (List.replicate 16 64), []) ∧
    (⟨false, 8, 16⟩ : BlockFmt).packed 0 (0xBF800000 :: List.replicate 15 0x3F800000) =
      ((⟨false, 8, 16⟩ : BlockFmt).pack 121 64 (0 :: List.replicate 15 128), []) := by decide +kernel

/-! ### Control flow (R64 to R89) -/

/-- A group of two fragments: lane 0 at the demo's PC and lane 31 further on, the first selected; changed as a test asks. -/
def forked (g : Group → Group := id) (f h : Frag → Frag := id) : State :=
  demo (fun x => g { x with cur := f { x.cur with mask := 1 }
                            rest := [h { mask := 0x80000000, st := .ready, pc := 0x1100, id := 2 }] })

theorem test_ready_branches : Ready (under 0 5 7) [] [] ∧ Ready (under 0 5 7) (regs true 58) [] ∧ Ready (under 0 5 7) [59] [] ∧
    Ready (under 0 5 7) (regs true 2) [58, 59] := by
  refine ⟨ready_plain _ _ _ ?_ ?_, ready_plain _ _ _ ?_ ?_, ready_plain _ _ _ ?_ ?_, ready_plain _ _ _ ?_ ?_⟩ <;> decide
theorem test_br : (after (.br 0 (-3)) demo).cur.pc = 0xFF4 ∧ (after (.br 0 (-3)) demo).cur.mask = 0x80000001 ∧
    (after (.br 0 4) (demo (fun g => { withRegs 0x08 [] g with preds := [(1, 1)] }))).cur.pc = 0x1004 ∧
    ((after (.br 0 4) (demo (fun g => { withRegs 0x08 [] g with preds := [(1, 1)] }))).rest.map (fun f => (f.mask, f.pc))) =
      [(1, 0x1010)] := by decide +kernel
theorem test_bra : (after (.bra 0 2) (demo (withRegs 0 [(64, 0x2003), (95, 0x2003), (96, 1), (127, 1)]))).cur.pc = 0x1_0000_2000 := by
  decide +kernel
/-- A `brt` whose table stands behind it: index 1 names offset 0x80, an index beyond the table goes to its end. -/
def tables (ix : Word) : State := { demo (withRegs 0 [(32, ix), (63, 9)]) with mem := [(0x1004, 0x40), (0x1008, 0x80)] }
theorem test_brt : (after (.brt 1 1) (tables 1)).cur.pc = 0x100C ∧ (after (.brt 1 1) (tables 1)).cur.mask = 0x80000000 ∧
    (after (.brt 1 1) (tables 1)).rest.map (fun f => (f.mask, f.pc)) = [(1, 0x1080)] ∧ (after (.brt 1 2) (tables 2)).rest.length = 1 := by
  decide +kernel
theorem test_call : (after (.call 0 4) demo).cur.depth = 1 ∧ (after (.call 0 4) demo).val true 58 31 = 0x1004 ∧
    (after (.calla 0 58) (demo (withRegs 0 [(32 * 58, 0x4000), (32 * 58 + 31, 0x4000)]))).cur.pc = 0x4000 := by decide +kernel
theorem test_call_deepest : (after (.call 0 4) (demo (fun g => { g with cur := { g.cur with depth := 63 } }))).tcause = 0x1138 ∧
    (demo (fun g => { g with cur := { g.cur with depth := 63 } })).lanesT ≠ 0 := by decide +kernel
/-- Returns: a fragment one call down whose stack holds an entry of its depth above one of the caller's. -/
def called : State := demo (fun g => { g with
  regs := [(32 * 58, 0x1200), (32 * 58 + 31, 0x1200)], cur := { g.cur with depth := 1, ftop := 1, fv := true }
  pool := [(0, { exp := 0x80000001, tgt := 0x1300, live := true }),
           (1, { exp := 0x80000001, tgt := 0x1400, depth := 1, parent := 0, pv := true, live := true })] })
theorem test_ready_ret : Ready called [58, 59] [] ∧ called.grp.cur.depth ≠ 0 ∧ called.grp.chain 64 1 true = [1, 0] :=
  ⟨ready_plain _ _ _ (by decide) (by decide), by decide, by decide⟩
theorem test_ret : (after (.ret 0) called).cur.pc = 0x1200 ∧ (after (.ret 0) called).cur.depth = 0 ∧ (after (.ret 0) called).cur.ftop = 0 ∧
    (after (.ret 0) called).pool.map (·.1) = [0] := by decide +kernel
/-- Exits: where the launch carries nothing, and a selectable fragment at depth 0. -/
theorem test_ready_exit : (∀ l, ((under 0 5 7).owesSlots l) = []) ∧ (under 0 5 7).grp.selectable (under 0 5 7).grp.cur = true ∧
    (under 0 5 7).returning = false ∧ (under 0 5 7).grp.cur.depth = 0 := by
  refine ⟨fun l => rfl, ?_, ?_, ?_⟩ <;> decide
theorem test_exit : (after (.exit 0) (forked)).exited = 1 ∧ (after (.exit 0) (forked)).cur.pc = 0x1100 ∧
    (after (.ret 0) demo).exited = 0x80000001 ∧ (run (.ret 0) demo).team.st = .ending := by decide +kernel
/-- Fuses: an entry that serves already, a pool without a free place, and one with. -/
def fused : State := demo (fun g => { g with cur := { g.cur with ftop := 0, fv := true }, pool := [(0, { exp := 0x80000001, tgt := 0x1010, live := true })] })
def fullPool : State := demo (fun g => { g with pool := (List.range 64).map (fun e => (e, { exp := 1, live := true })) })
theorem test_fuse_cases : fused.grp.selectable fused.grp.cur = true ∧ fused.grp.cur.mask &&& ~~~(tget {} fused.grp.pool 0).exp = 0 ∧
    (after (.fuse 0 4) fused).pool.length = 1 ∧ (∀ e, e < 64 → (tget {} fullPool.grp.pool e).live = true) ∧
    (after (.fuse 0 4) fullPool).tcause = 0x1038 := by decide +kernel
theorem test_fuse : (tget {} (after (.fuse 0 4) demo).pool 0) = { exp := 0x80000001, tgt := 0x1010, live := true } ∧
    (after (.fuse 0 4) demo).cur.fv = true ∧ (after (.fuse 0 8) fused).cur.ftop = 1 ∧
    (tget {} (after (.fuse 0 8) fused).pool 1).parent = 0 := by decide +kernel
/-- Joins: no entry, an entry that still lacks a lane, and one whose other lane waits. -/
def joining (waits : FState) : State := forked (fun g => { g with pool := [(0, { exp := 0x80000001, tgt := 0x1000, live := true })] })
  (fun f => { f with fv := true }) (fun h => { h with fv := true, pc := 0x1000, st := waits })
theorem test_join_cases : (after (.join 0) demo).cur.pc = 0x1004 ∧ (joining .ready).grp.selectable (joining .ready).grp.cur = true ∧
    (after (.join 0) (joining .parked)).rest.length = 1 ∧ (after (.join 0) (joining .parked)).exited = 0 ∧
    ((after (.join 0) (joining .parked)).cur :: (after (.join 0) (joining .parked)).rest).any (fun f => f.st == .joinWait && f.mask == 1) := by
  decide +kernel
theorem test_join : (after (.join 0) (joining .joinWait)).cur.mask = 0x80000001 ∧ (after (.join 0) (joining .joinWait)).cur.pc = 0x1004 ∧
    (after (.join 0) (joining .joinWait)).cur.fv = false ∧ (after (.join 0) (joining .joinWait)).pool = [] := by decide +kernel
theorem test_group_control : (after (.nop 7) demo).cur.pc = 0x1004 ∧ (after (.mode 0 0x0500) demo).cur.et = 10 ∧
    (after (.mode 0 0x0580) demo).tcause = 0x0102 ∧ (after (.modg 0 1 5) demo).cur.mode = 0x68 ∧ (after (.yield 0) demo).yielded = 16 ∧
    ((run (.yieldEnd 16) (run (.yield 0) demo)).group 16).yielded = 0 := by decide +kernel

/-! ### Traps and privilege (R373 to R392) -/

/-- A group in its handler; the handler's fragment has the trapped one recorded. -/
def handling (g : Group → Group := id) : State :=
  let t := demo.trapWith 0x19 0 0x77 false
  t.setGrp (g t.grp)
/-- A state whose context table entry makes context 0 a system context (R373, R379). -/
def inSystem (s : State) : State := { s with mem := [(0x14, 1)] }

theorem test_trap_at_user : demo.grp.cur.handler = false ∧ handling.grp.tcause = 0x19 ∧ handling.grp.tpc = 0x1000 ∧ handling.grp.taddr = 0x77 ∧
    handling.grp.tmask = 0x80000001 ∧ handling.grp.cur.pc = 0x1800 ∧ handling.grp.cur.handler = true ∧
    (demo.trapWith 0x30 2 0 true).grp.tcause = 0x10230 := by decide +kernel
theorem test_double_trap : handling.grp.cur.handler = true ∧ handling.kill = [] ∧
    ((handling.trap 1 2).kill.map (fun j => (j.cause, j.code, j.detail, j.pc))) = [(2, 1, 2, 0x1800)] ∧ (handling.trap 1 2).groups = [] ∧
    (.killComplete ∈ (handling.trap 1 2).agenda) ∧
    ({ handling with kill := [{ ctx := 0, whole := true, fdom := 0, cause := 1 }] } : State).trap 1 2 = { handling with kill := [{ ctx := 0, whole := true, fdom := 0, cause := 1 }] } := by
  decide +kernel
theorem test_trap_return : handling.grp.cur.st = .ready ∧ handling.grp.record.isSome = true ∧ (after .tret handling).cur.pc = 0x1000 ∧
    (after .tret handling).cur.handler = false ∧ (after .tret handling).record = none := by decide +kernel
/-- Two handler fragments: the first to return waits for the other. -/
theorem test_trap_return_waits :
    let s := handling (fun g => { g with cur := { g.cur with mask := 1 }, rest := [{ g.cur with mask := 0x80000000, id := 9, pc := 0x1900 }] })
    (∃ h ∈ s.grp.rest, h.handler = true ∧ h.st ≠ .free ∧ h.wait ≠ .tret) ∧ (after .tret s).record.isSome = true ∧
      (after .tret s).cur.pc = 0x1900 := by decide +kernel
theorem test_software_traps : demo.lanesT ≠ 0 ∧ (after (.trap 0 5) demo).tcause = 0x0540 ∧ (after (.brk 0 5) demo).tcause = 0x0541 ∧
    (demo (withRegs 0x08 [])).lanesT = 0 ∧ (after (.trap 0 5) (demo (withRegs 0x08 []))).cur.pc = 0x1004 := by decide +kernel
/-- Context 0 with BRKH set. -/
def breaking : State := { demo with ctxs := [(0, { exctl := 2 })] }
theorem test_halt : (inSystem demo).inSystem = true ∧ ((run .halt (inSystem demo)).ctxOf 0).halted = true ∧
    breaking.ctx.exctl.getLsbD 1 = true ∧ ((run (.brk 0 5) breaking).ctxOf 0).halted = true ∧
    (run (.brk 0 5) breaking).interrupts.map (fun i => (i.what, i.b)) = [(9, 0x1000)] ∧
    ((run (.run 0x100000) (run .halt (inSystem demo))).ctxOf 0).halted = false := by decide +kernel
theorem test_control_reads : (run (.registerWrite 0 0x11 0x2004) demo).sysPageRead 0x11 = 0x2004 ∧
    (run (.phloWrite 1) demo).sysPageRead 0x104 = 0 ∧ (run (.phhiWrite 2) (run (.phloWrite 1) demo)).sysPageRead 0x104 = 1 ∧
    (State.reset.putQueue 3 { State.reset.queue 3 with halt := true, cause := 7, index := 5 }).queueRead 3 0x0C = 0xF0000005 := by
  decide +kernel
/-- Privilege: user level outside and inside a system context, handler level outside one. -/
theorem test_privilege : demo.grp.cur.handler = false ∧ demo.isSystem demo.team.ctx = false ∧ (after (.rdsp 4 0x10) demo).tcause = 0x0148 ∧
    (after (.wrsp 4 0x11) demo).tcause = 0x0148 ∧ (after .tret demo).tcause = 0x0248 ∧ (after .halt demo).tcause = 0x0348 ∧
    (after (.tlbi 4 0) demo).tcause = 0x0348 ∧ (after (.preempt 4) demo).tcause = 0x0348 := by decide +kernel
theorem test_privilege_of_views : handling.grp.cur.handler = true ∧ handling.isSystem handling.team.ctx = false ∧
    ((run (.rdsp 4 0x040) handling).kill.map (fun j => (j.code, j.detail))) = [(0x48, 4)] ∧
    (after (.wrsp 4 0x012) (inSystem demo)).tcause = 0x0448 ∧ (inSystem demo).isSystem (inSystem demo).team.ctx = true := by decide +kernel
theorem test_ready_system : Ready demo [] [59] ∧ Ready demo [] [58, 58 + 1] ∧ Ready demo (regs true 58) [] ∧ Ready (inSystem demo) [1] [] := by
  refine ⟨ready_plain _ _ _ ?_ ?_, ready_plain _ _ _ ?_ ?_, ready_plain _ _ _ ?_ ?_, ready_plain _ _ _ ?_ ?_⟩ <;> decide
theorem test_rdsp : (after (.rdsp 4 0x010) handling).reg 4 0 = 0x19 ∧ (after (.rdsp 4 0x011) handling).reg 4 31 = 0x1000 ∧
    (after (.rdsp 4 0x012) handling).reg 4 0 = 0x77 ∧ (after (.rdsp 4 0x001) (inSystem handling)).reg 4 0 = 3 := by decide +kernel
theorem test_wrsp : (after (.wrsp 4 0x011) (handling (withRegs 0 [(128, 0x2004), (160, 1)]))).tpc = 0x1_0000_2004 ∧
    (after (.wrsp 4 0x014) (handling (fun g => { g with regs := [(128, 0x580)] }))).tmode = 0 ∧
    (after (.wrsp 4 0x014) (handling (fun g => { g with regs := [(128, 0xFFFF0500)] }))).tmode = 0x500 ∧
    ((run (.wrsp 4 0x000) (inSystem (demo (withRegs 0 [(128, 0xFF)])))).ctxOf 0).exctl = 7 := by decide +kernel

/-! ### Translations, pre-emption and the control complex (R376 to R378, R390, R391) -/

/-- A translation cached by two contexts, in a system context; with and without a walk in progress. -/
def cached (w : Bool) : State := { inSystem demo with
  clusters := [(0, { tlb := [identity, { identity with ctx := 7 }] })], walks := if w then [(3, {})] else [] }
theorem test_tlbi : ReadyAll (cached false) (regs true 4) [] ∧ (cached false).active ≠ 0 ∧
    ((run (.tlbi 4 0) (cached false)).clusterOf 0).tlb = [{ identity with ctx := 7 }] ∧ ((run (.tlbi 4 3) (cached false)).clusterOf 0).tlb = [] ∧
    (after (.tlbi 4 0) (cached false)).cur.pc = 0x1004 := by
  refine ⟨ready_all _ _ _ ?_ ?_, ?_⟩ <;> decide +kernel
/-- With a walk in progress that began before: the translations go at once, the instruction waits for that walk alone. -/
theorem test_tlbi_waits : let t := run (.tlbi 4 1) (cached true)
    t.grp.cur.wait = .flush [3] ∧ t.grp.cur.pc = 0x1000 ∧ (t.clusterOf 0).tlb = [{ identity with ctx := 7 }] ∧
    t.walks.map (fun w => w.2.stale) = [true] ∧ (run (.tlbi 4 1) t).grp.cur.pc = 0x1000 ∧
    (run (.tlbi 4 1) { t with walks := [(4, {})] }).grp.cur.pc = 0x1004 := by decide +kernel
/-- A second team on the same cluster, of another launch. -/
def neighbours : State := { inSystem demo with teams := [(1, { st := .resident, launch := 5 }), (2, { st := .resident, launch := 6 })] }
theorem test_preempt : ReadyAll neighbours [4] [] ∧ neighbours.active ≠ 0 ∧ 0 % 2 ^ 9 ∈ neighbours.cdies ∧
    (run (.preempt 4) neighbours).agenda = [.preemption 2] ∧ (run (.preq 0) neighbours).agenda = [.preemption 1, .preemption 2] ∧
    (run (.preq 1) neighbours).agenda = [] ∧ (after (.preempt 4) neighbours).cur.pc = 0x1004 := by
  refine ⟨ready_all _ _ _ ?_ ?_, ?_⟩ <;> decide +kernel
theorem test_control_complex : (run (.registerWrite 0 0x110 0xFFFFFFFF) demo).cc.grpsel = 0x1FFFFFF ∧
    ((run (.registerWrite 0 0x11 0x2004) demo).group 16).tpc = 0x2004 ∧ demo.selectedGroup.isSome = true ∧ State.reset.selectedGroup = none ∧
    (tget {} ((run (.phhiWrite (2 ^ 52 + 5)) (run (.phloWrite 0xFFFFFFFF) demo)).ctxOf 0).handles 0) = { lo := 0xF8FFFFFD, hi := 5 } ∧
    (tget {} (run (.exhiWrite 9) (run (.exloWrite 0xFF) demo)).exps 0) = { lo := 0xD, hi := 9 } := by decide +kernel
/-- A taint inside the range that is cleared, and one that lies across its end. -/
theorem test_taint_clear : (run .taintClearDone (run (.taintClear 0x100) { demo with
    circ := [(1, { st := .taint, spans := [(0x80, 0x80)] }), (2, { st := .taint, spans := [(0x80, 0x100)] })] })).circ.map (·.1) = [2] := by
  decide +kernel
/-- Memory that holds page tables of context 0 at 0x1000: the first 1 GiB, readable, and writable where the leaf says so. -/
def paged (leaf : Byte) : List Host.Cell := [(0, 1), (1, 0x10), (0x1000, 1), (0x1001, 0x20), (0x2000, 1), (0x2001, 0x30), (0x3000, leaf)]
/-- Symmetric borrows: the entry selected, the range's base, its length and kind, the leaf, and whether a command is in progress. -/
def symming (len : Nat) (e : Sym := {}) (base : Nat := 0) (leaf : Byte := 0x17) (busy : Bool := false) : State := { State.reset with
  cc := { symlen := len, symbase := base, symBusy := busy }, ctxs := [(0, { syms := [(0, e)] })], mem := paged leaf }
theorem test_symmetric_refusals : (run .symcmdTake (symming 8 {} 0 0x17 true)) = symming 8 {} 0 0x17 true ∧
    (symming 0).cc.badTake ((symming 0).sym 0 0) = true ∧ (run .symcmdTake (symming 0)).cc.symStatus = 0x80 ∧
    (symming 0x88).cc.badTake ((symming 0x88).sym 0 0) = false ∧ (run .symcmdTake (symming 0x88 {} 0 0x11)).cc.symStatus = 0x82 ∧
    (run .symcmdTake (symming 0x88 {} 0x40000000)).cc.symStatus = 0x81 ∧
    (run .symcmdTake { symming 0x8C with circ := [(3, { home := 1, team := symTeam 0 1, kind := .s, spans := [(0, 0x80)] })] }).cc.symStatus = 5 := by
  decide +kernel
theorem test_symmetric_take : (collectPages ((symming 0x88).walkPage 0) 2 0 128).2 = none ∧ (run .symcmdTake (symming 0x88)).cc.symBusy = true ∧
    (run .symcmdTake (symming 0x88)).reqs.map (fun r => (r.1, r.2.base, r.2.len, r.2.kind)) = [(1, 0, 128, .s)] := by decide +kernel
theorem test_symmetric_return : (run .symcmdReturn (symming 0x88)).cc.symStatus = 0x80 ∧
    (run .symcmdReturn { symming 0x88 { kind := .s, len := 128 } with launches := demo.launches }).cc.symStatus = 2 ∧
    (run .symcmdReturn (symming 0x88 { kind := .s, len := 128, handle := 9 })).reqs.map (fun r => (r.2.kind, r.2.handle)) = [(.empty, 9)] := by
  decide +kernel
/-- A take that ended with grant status 0 holds its range; one refused with 3 shows the status. -/
theorem test_symmetric_end : ((run .symTakeEnd { symming 0x88 with
      reqs := [(4, { purpose := .sym 0 0, kind := .s, len := 128, ended := some 0 })] }).sym 0 0) = { kind := .s, len := 128 } ∧
    (run .symTakeEnd { symming 0x88 {} 0 0x17 true with reqs := [(4, { purpose := .sym 0 0, kind := .s, ended := some 3 })] }).cc.symStatus = 3 ∧
    (run .symTakeEnd { symming 0x88 {} 0 0x17 true with reqs := [(4, { purpose := .sym 0 0, kind := .s, ended := some 3 })] }).cc.symBusy = false ∧
    ((run .symTakeEnd { symming 0x88 { kind := .s } with reqs := [(4, { purpose := .sym 0 0, ended := some 0 })] }).sym 0 0) = {} := by
  decide +kernel

/-! ### Deferred traps and the watchdog (R382, R385, R392) -/

/-- A group with two deferred traps, of its own fragment and of one that has gone. -/
def deferring : State := demo (fun g => { g with deferred := [⟨0x31, 2, 1⟩, ⟨0x30, 1, 1⟩] })
theorem test_deferred : deferring.grp.dueTrap = some ⟨0x30, 1, 1⟩ ∧ demo.grp.dueTrap = none ∧
    ((run (.deferredTrap 16) deferring).group 16).tcause = 0x10130 ∧ ((run (.deferredTrap 16) deferring).group 16).deferred.length = 1 ∧
    ((run (.deferredTrap 16) (demo (fun g => { g with deferred := [⟨0x38, 2, 1⟩] }))).group 16).tcause = 0x238 := by decide +kernel

/-- A group at its watchdog's limit of 2^16, with and without a trapped fragment; one below it; a fragment that waits in a join. -/
def dogged (n : Nat) (r : Option Frag := none) : State :=
  { demo (fun g => { g with dog := n, record := r, cur := { g.cur with wait := .fifo 0 } }) with mem := [(0x2C, 1)] }
theorem test_watchdog : (dogged 0x10000).dogLimit (dogged 0x10000).grp = 0x10000 ∧ (dogged 0x10000).grp.watched = true ∧
    (dogged 0x10000).teamStopped (dogged 0x10000).team = false ∧ run (.watchdog 16) (dogged 0xFFFF) = dogged 0xFFFF ∧
    ((run (.watchdog 16) (dogged 0x10000)).group 16).tcause = 0x339 ∧ ((run (.watchdog 16) (dogged 0x10000)).group 16).cur.handler = true ∧
    ((run (.watchdog 16) (dogged 0x10000 (some {}))).group 16).exited = 0x80000001 := by decide +kernel

/-! ### Carries (R158 to R178) -/

/-- A launch that carries slot 0 from `v6` with distance 1, its slot 1 not declared; group 1 of it, with the values carried as given. -/
def ordered (cs : List Carried := []) (g : Group → Group := id) : State :=
  { demo (fun x => g { x with ord := 1 }) id (fun l => { l with items := 64, lcb := { l.lcb with
      carry := [(0, { valid := true, reg := 6, k := 1 })], spill := 0x8000, spillN := 64 } }) with carried := cs }
/-- A value of slot 0 in the demo's launch. -/
def carrying (item : Nat) (value : Option Word) (place : CarryPlace) : Carried := { launch := 5, item, slot := 0, value, place }
theorem test_ready_views : Unhindered (ordered) [60, 3] ∧ (ordered).wide = false ∧ (ordered).grp.cur.st = .ready ∧ (ordered).launch.ordered = true ∧
    demo.launch.ordered = false := by
  refine ⟨(ready_plain _ [] [60, 3] ?_ ?_).free, ?_⟩ <;> decide
theorem test_view_undeclared : (after (.mov 0 3 60) demo).tcause = 0x0422 ∧ (after (.mov 0 3 61) ordered).tcause = 0x0922 ∧
    (after (.mov 0 3 63) demo).tcause = 0x0722 := by decide +kernel
/-- Lane 0 reads item 31, lane 31 item 62: published, published broken, and not published. -/
theorem test_views : (ordered [carrying 31 none (.buffer 0)]).view 0 0 = .broken ∧ (ordered).view 0 31 = .waiting 62 ∧
    (after (.mov 0 3 60) (ordered [carrying 31 none (.buffer 0)])).tcause = 0x0020 ∧
    (after (.mov 0 3 60) (ordered [carrying 31 (some 8) (.buffer 0)])).reg 3 0 = 8 ∧
    ((after (.mov 0 3 60) (ordered [carrying 31 (some 8) (.buffer 0)])).rest.map (fun f => (f.mask, f.st, f.pc))) = [(0x80000000, .parked, 0x1000)] := by
  decide +kernel
theorem test_pub_cases : (after (.pub 1 0) demo).tcause = 0x0422 ∧ (after (.pub 1 1) ordered).tcause = 0x0922 ∧
    (after (.pub 1 0) (ordered [] (fun g => { g with pub := [(0, 0x80000000)] }))).tcause = 0x7C21 ∧ (ordered).returning = false := by decide +kernel
theorem test_pub : Ready (ordered [] (withRegs 0 [(32, 4), (63, 5)])) [1] [] ∧
    tget 0 (after (.pub 1 0) (ordered [] (withRegs 0 [(32, 4), (63, 5)]))).pub 0 = 0x80000001 ∧
    (run (.pub 1 0) (ordered [] (withRegs 0 [(32, 4), (63, 5)]))).carried.map (fun c => { c with issued := 0 }) =
      [carrying 32 (some 4) .sent, carrying 63 (some 5) .sent] := by
  refine ⟨ready_plain _ _ _ ?_ ?_, ?_⟩ <;> decide +kernel
theorem test_cdef : Ready ordered [] [] ∧ (after (.cdef 9 0 0) demo).tcause = 0x0422 ∧ (after (.cdef 9 1 0) ordered).tcause = 0x0922 ∧
    (after (.cdef 9 0 1) ordered).tcause = 0x0C22 ∧ (after (.cdef 9 0 0) ordered).binding (ordered).launch 0 31 = 9 := by
  refine ⟨ready_plain _ _ _ ?_ ?_, ?_⟩ <;> decide +kernel
/-- An exit publishes what is bound, and broken values in a handler. -/
theorem test_exit_publishes : (ordered).owesSlots (ordered).lanesT = [(0, 0), (0, 31)] ∧
    Ready ordered [] (((ordered).owesSlots (ordered).lanesT).map (fun x => (ordered).grp.binding (ordered).launch x.1 x.2)) := by
  refine ⟨?_, ready_plain _ _ _ ?_ ?_⟩ <;> decide +kernel
/-- CarryTravel: on its way to a resident group, to none (spilled), past the last item, and fetched by a group that waits. -/
def travelling (i : Nat) (p : CarryPlace := .moving) : State := ordered [carrying i (some 7) p] (fun g => { g with
  cur := { g.cur with st := .parked, wait := .carry [(0, 0, 31)] } })
theorem test_carry_message : ((travelling 31).holder 5 32).isSome = true ∧ (travelling 31).holder 5 8 = none ∧
    (run (.carryMessage 5 31 0) (travelling 31)).carried = [carrying 31 (some 7) (.buffer 0)] ∧
    ((run (.carryMessage 5 31 0) (travelling 31)).group 16).cur.st = .ready ∧
    (run (.carryMessage 5 7 0) (travelling 7)).carried = [carrying 7 (some 7) .spill] ∧
    readLe (run (.carryMessage 5 7 0) (travelling 7)).mem (0x8000 + 16 * 7) 16 = 0x10000000 + 2 ^ 32 * 7 + 2 ^ 64 * 7 ∧
    (run (.carryMessage 5 63 0) (travelling 63)).carried = [carrying 63 (some 7) .nowhere] ∧
    run (.carryMessage 5 30 0) (travelling 31) = travelling 31 := by decide +kernel
theorem test_carry_sent : (run (.carryMessage 5 31 0) (travelling 31 .sent)).carried = [carrying 31 (some 7) .moving] ∧
    (run (.carryMessage 5 31 0) (travelling 31 .sent)).agenda = [.carryMessage 5 31 0] ∧
    (run (.carryMessage 5 63 0) (travelling 63 .sent)).carried = [carrying 63 (some 7) .nowhere] := by decide +kernel
theorem test_carry_fetch : (travelling 31 .spill).hasGroup 16 = true ∧ ((travelling 31 .spill).teamOf 1).st = .resident ∧
    (run (.carryFetch 5 31 0 16) (travelling 31 .spill)).carried = [carrying 31 (some 7) .asked] ∧
    (run (.carryFetch 5 31 0 16) (travelling 31 .asked)).carried = [carrying 31 (some 7) .coming] ∧
    (run (.carryFetch 5 31 0 16) (travelling 31 .coming)).carried = [carrying 31 (some 7) (.fetched 0)] ∧
    ((run (.carryFetch 5 31 0 16) (travelling 31 .coming)).group 16).cur.st = .ready := by decide +kernel
/-! ### Region accesses, windows and banks (R184, R213 to R235, R249) -/

/-- A group whose region register g1 holds a borrow of 4 KiB at 0x10000, with `v2`-`v3` as offsets and `v4` as data; the borrow, the
team and the state changed as a test asks. -/
def regional (r : Region → Region := id) (rs : Table Word := []) (s : State → State := id) : State :=
  s { demo (withRegs 0 (rs ++ [(95, 8), (128, 0xA1B2C3D4), (159, 0x55)])) (fun t => { t with
      g := [(1, r { base := 0x10000, len := 0x1000, kind := .x, handle := 9 })] }) with pins := [(9, [identity])] }
/-- The same with a cluster cache that holds, clean, the bytes that both lanes name. -/
def filled : State := regional id [] (fun s => { s with clusters := [(0, { cache := [0, 1, 2, 3, 8, 9, 10, 11].map (fun i =>
  (0x10000 + i, { val := BitVec.ofNat 8 i, dirty := false, team := 1, commons := false })) })] })

theorem test_ready_regions : Ready (regional) ((128 + 1) :: regs true 2) (wordRegs 56 16) ∧ Ready (regional) (wordRegs 4 1 ++ (128 + 1) :: regs true 2) [] ∧
    Ready (regional) ((128 + 1) :: regs true 2) [] ∧ (regional).memoryHeld = false := by
  refine ⟨ready_plain _ _ _ ?_ ?_, ready_plain _ _ _ ?_ ?_, ready_plain _ _ _ ?_ ?_, ?_⟩ <;> decide
/-- RegionChecks: an empty and a pending register, another holder, a store under S, the last byte of the region and the one beyond. -/
theorem test_region_checks : (after (.ld 6 1 2 3 2 0) (regional)).tcause = 0x19 ∧ (after (.ld 6 2 2 1 2 0) (regional)).tcause = 0x11 ∧
    (after (.ld 6 1 2 1 2 0) (regional (fun r => { r with pend := true }))).tcause = 0x11 ∧
    (after (.ld 6 1 2 1 2 0) (regional (fun r => { r with holder := 1 }))).tcause = 0x12 ∧
    (after (.st 4 1 2 1 2 0) (regional (fun r => { r with kind := .s }))).tcause = 0x111 ∧
    (after (.ld 6 1 2 1 2 0) (regional id [(95, 0xFFD)])).tcause = 0x1F10 := by
  decide +kernel
theorem test_region_serves : ((regional).region 1).Serves (regional).grp.pos true false ∧
    (((regional (fun r => { r with kind := .c, all := true, holder := 3 })).region 1).Serves 0 true true) ∧
    (∀ l, (regional).lanesT.getLsbD l = true → l = 0 ∨ l = 31) := by
  refine ⟨⟨by decide, by decide, by decide⟩, ⟨by decide, by decide, by decide⟩, fun l h => ?_⟩
  have hl : l < 32 := by
    by_contra hc
    rw [BitVec.getLsbD_of_ge _ _ (by omega)] at h; exact absurd h (by decide)
  revert h; revert hl l; decide +kernel
theorem test_region_inside : (regional id [(95, 0xFFC)]).inside ((regional).region 1) 2 4 := by
  intro l h
  have hl : l < 32 := by
    by_contra hc
    rw [BitVec.getLsbD_of_ge _ _ (by omega)] at h; exact absurd h (by decide)
  revert h; revert hl l; decide +kernel
/-- RegionLoads: a miss leaves the access outstanding; a hit is served at once. -/
theorem test_ld_misses : (regional).accessHeld { (regional).txn .load 4 1 1 ((regional).region 1) with dst := 6, counter := some 0 } = false ∧
    tget 0 (after (.ld 6 1 2 1 2 0) (regional)).count 0 = 1 ∧ (after (.ld 6 1 2 1 2 0) (regional)).busy = [(6, 100)] ∧
    (run (.ld 6 1 2 1 2 0) (regional)).txns.length = 1 := by decide +kernel
theorem test_ld_hits : (after (.ld 6 1 2 1 2 0) { filled with clusters := [] }).busy.length = 1 ∧
    (after (.ld 6 1 2 1 2 0) filled).reg 6 31 = 0x0B0A0908 ∧ (run (.ld 6 1 2 1 2 0) filled).txns = [] := by decide +kernel
theorem test_st_hits : (run (.st 4 1 2 1 1 0) (filled)).seenByte 0 0x10000 = 0xD4 ∧ (run (.st 4 1 2 1 1 0) (filled)).seenByte 0 0x10001 = 0xC3 ∧
    (run (.st 4 1 2 1 1 0) (filled)).seenByte 0 0x10002 = 2 ∧ (run (.st 4 1 2 1 1 0) (filled)).mem = [] := by decide +kernel
/-- A store to a page of the write-combining type goes to that buffer, and WC_DRAIN writes it at its home (WriteCombining). -/
def combining : State := run (.st 4 1 2 1 0 0) { regional with pins := [(9, [{ identity with ptype := 1 }])] }
def leavingLine : State := run (.wcDrain 0 512) combining
theorem test_write_combining : ((tfind (combining.clusterOf 0).wc 512).map (·.bytes)) = some [(0x10000, 0xD4), (0x10008, 0x55)] ∧
    ([(0x10000, (0xD4 : Byte)), (0x10008, 0x55)] : Table Byte).Pairwise (fun a b => a.1 ≠ b.1) ∧
    leavingLine.mem = [] ∧ (run (.wcDrain 0 512) leavingLine).mem = [(0x10000, 0xD4), (0x10008, 0x55)] ∧
    .storeAck 100 ∈ (run (.wcDrain 0 512) leavingLine).agenda := by
  decide +kernel
theorem test_pref : (after (.pref 2 2 1 0) (regional)).cur.pc = 0x1004 ∧ tget 0 (after (.pref 1 2 1 0) (regional)).count 5 = 1 ∧
    (after (.pref 1 2 1 0) (regional id [(95, 0x1000)])).cur.pc = 0x1004 := by decide +kernel
/-- RequestsServed and RepliesArrive: the request of a load that missed, served, then answered. -/
def loading : State := landed (run (.ld 6 1 2 1 2 1) { regional with mem := [(0x10008, 7)] })
theorem test_request_served : ((tfind loading.txns 100).map (fun x => (x.kind, x.noBorrow, x.lost, x.op, x.lanes.all (fun p => p.result == none)))) =
      some (.x, false, false, .load, true) ∧ (∀ p ∈ (tget ({} : Txn) loading.txns 100).lanes, loading.answers p.loc = true) ∧
    (∀ p ∈ (tget ({} : Txn) loading.txns 100).lanes, p.going = false ∧ loading.behindOlder 100 (tget {} loading.txns 100) p = false) ∧
    loading.picks = [] ∧ (run (.loadReply 100) loading).txns = loading.txns ∧
    (run (.homeRequest 100) loading).mem = loading.mem ∧
    ((tget ({} : Txn) (run (.homeRequest 100) loading).txns 100).lanes.map (·.result)) = [some 0, some 7] := by decide +kernel
theorem test_reply : let t := run (.loadReply 100) (landed (run (.homeRequest 100) loading))
    t.txns = [] ∧ (t.group 16).reg 6 31 = 7 ∧ (t.group 16).busy = [] ∧ tget 9 (t.group 16).count 0 ≠ 1 ∧ loading.hasGroup 16 = true := by
  decide +kernel
theorem test_reply_dropped : let t := run (.loadReply 100) { landed (run (.homeRequest 100) loading) with groups := [] }
    t.txns = [] ∧ (t.clusterOf 0).dropped = 1 := by decide +kernel
theorem test_store_served : let t := run (.homeRequest 100) (landed <| run (.st 4 1 2 1 2 0) (regional id [] (fun s => { s with
      teams := [(1, { s.teamOf 1 with banks := List.replicate 16 { mode := .scratch } })] })))
    t.mem = [(0x10000, 0xD4), (0x10001, 0xC3), (0x10002, 0xB2), (0x10003, 0xA1), (0x10008, 0x55)] ∧
      (run (.storeAck 100) (landed t)).txns = [] := by decide +kernel
/-- AccessesHeld: by a `bret` of the group, an acquire of it, and a counter at its top. -/
theorem test_held : ({ regional with reqs := [(3, { group := 16, purpose := .ret })] } : State).memoryHeld = true ∧
    ({ regional with txns := [(3, { group := 16, acquire := true })] } : State).memoryHeld = true ∧
    (regional).accessHeld { counter := some 1 } = false ∧
    (demo (fun g => { g with count := [(1, 63)] })).accessHeld { counter := some 1 } = true := by decide +kernel

/-- A team with 64 bytes of team scratch, a scratch bank, a FIFO bank that holds two entries, and a bank in cache-way mode. -/
def banked (rs : Table Word := []) (g : Group → Group := id) : State := demo (fun x => g (withRegs 0 rs x)) (fun t => { t with
  scr := 64, banks := [{ mode := .scratch, data := [(8, 0x11), (9, 0x22)] }, { mode := .fifo, fifo := [5, 6] }, {}] })
theorem test_ready_windows : Ready (banked) [2] (wordRegs 4 8) ∧ Ready (banked) (wordRegs 4 16 ++ [2]) [] ∧ Ready (banked) (regs true 2) [4] ∧
    Ready (banked) [2] (regs true 4) ∧ Ready (banked) (regs true 2) [64 + 7] ∧ Ready (banked) [2, 3] [] ∧ Unhindered (banked) [] := by
  refine ⟨ready_plain _ _ _ ?_ ?_, ready_plain _ _ _ ?_ ?_, ready_plain _ _ _ ?_ ?_, ready_plain _ _ _ ?_ ?_, ready_plain _ _ _ ?_ ?_,
    ready_plain _ _ _ ?_ ?_, (ready_plain _ [] [] ?_ ?_).free⟩ <;> decide
/-- The last bytes inside and the first outside each piece of a window: registers, scratch, a bank. -/
theorem test_window_edges : (banked).team.inLocal 0x1DFC 4 = true ∧ (after (.ldl 4 2 2) (banked [(64, 0x1DFD)])).tcause = 0x4010 ∧
    (after (.ldl 4 2 0) (banked [(64, 0x2003F)])).tcause = 0 ∧ (after (.ldl 4 2 0) (banked [(64, 0x20040)])).tcause = 0x4010 ∧
    (after (.ldc 4 2 2) (banked [(64, 0x3FFD)])).tcause = 0x6010 ∧ (after (.stc 4 2 2) (banked [(64, 0x4000)])).tcause = 0x6010 ∧
    (after (.ldl 4 2 2) (banked [(64, 0x2000)])).tcause = 0x4010 := by decide +kernel
theorem test_window_loads : (banked [(64, 8), (95, 9)]).windowHeld false false 1 [(0, 8)] = false ∧
    (after (.ldc 4 2 1) (banked [(64, 8), (95, 9)])).reg 4 0 = 0x2211 ∧ (after (.ldl 4 2 2) (banked [(64, 128 * 2), (95, 128 * 2)])).reg 4 31 = 256 := by
  decide +kernel
theorem test_window_stores : ((run (.stl 4 2 2) (banked [(64, 128 * 5), (95, 0x20000), (128, 7), (159, 8)])).grp.reg 5 0) = 7 ∧
    tget 0 (run (.stl 4 2 2) (banked [(64, 128 * 5), (95, 0x20000), (128, 7), (159, 8)])).team.scratch 0 = 8 ∧
    (run (.stc 4 2 0) (banked [(64, 9), (95, 9), (128, 7), (159, 8)])).team.bankByte 9 = 8 := by decide +kernel
theorem test_conversions : (after (.cvtaGl 0 4 2) (banked [(64, 0x1234), (96, 0xFFFFFFF0)])).reg 4 0 = 0x1234 ∧
    (after (.cvtaGc 0 4 2) (banked [(64, 0x1234), (96, 0xFFFFFF01)])).reg 4 0 = 0xFFFFFFFF ∧
    (after (.cvtaLg 0 4 2) (banked [(64, 0x1234)])).reg 5 0 = 0xFFFFFFF0 ∧ (after (.cvtaCg 0 4 2) (banked [(64, 0x1234)])).reg 5 0 = 0xFFFFFF00 := by
  decide +kernel
theorem test_apertures : (after (.inapGlobal 0 1 2) (banked [(96, 0xFFFFFF), (127, 0x1000000)])).pred 1 = 1 ∧
    (after (.inapPeer 0 1 2) (banked [(96, 0x3FFFFFFF), (127, 0x40000000)])).pred 1 = 0x80000000 ∧
    (after (.inapCluster 0 1 2) (banked [(96, 0xFFFFFF00), (127, 0xFFFFFF01)])).pred 1 = 1 ∧
    (after (.inapLocal 0 1 2) (banked [(96, 0xFFFFFFF0), (127, 0xFFFFFFEF)])).pred 1 = 1 := by decide +kernel
theorem test_bankset : (after (.bankset 2 3) (banked [(64, 3)])).tcause = 0x0711 ∧ (after (.bankset 2 3) (banked [(64, 2), (96, 3)])).tcause = 0x0711 ∧
    (run (.bankset 2 3) (banked [(64, 1), (96, 2)])).team.banks = (banked).team.banks ∧
    ((run (.bankset 2 3) (banked [(64, 1)])).team.banks.map (fun b => (b.mode, b.fifo.length))) = [(.scratch, 0), (.scratch, 0), (.cacheWay, 0)] ∧
    (banked).copiesInBanks = false := by decide +kernel
/-- A group of the team that waits in `fget` on the bank when `bankset` moves it. -/
theorem test_bankset_ends_wait :
    let s : State := { demo (withRegs 0 []) (fun t => { t with size := 2, banks := [{ mode := .fifo, gets := [{ group := 17, id := 0 }] }] }) with
      groups := (demo (withRegs 0 [])).groups ++ [(17, { team := 1, pos := 1, cur := { mask := 1, st := .ready, pc := 0x2000, id := 1, wait := .fifo 0 } })] }
    (run (.bankset 2 3) s |>.group 17).tcause = 0x0811 ∧ ((run (.bankset 2 3) s).group 17).tpc = 0x2000 ∧ (s.group 17).record = none := by
  decide +kernel
theorem test_fifos : (run (.fput 2 3) (banked [(64, 1), (96, 7), (127, 8)])).team.banks[1]?.map (·.fifo) = some [5, 6, 7, 8] ∧
    (after (.fget 4 2) (banked [(64, 1)])).reg 4 31 = 6 ∧ (run (.fget 4 2) (banked [(64, 1)])).team.banks[1]?.map (·.fifo) = some [] ∧
    (after (.fget 4 2) (banked [(64, 3)])).tcause = 0x0711 ∧ (after (.fput 2 3) (banked [(64, 0)])).tcause = 0x0811 := by decide +kernel
/-- A FIFO too full by one entry, and one too empty by one: the fragments wait, in the bank's queue. -/
theorem test_fifo_waits :
    let full : State := demo (withRegs 0 []) (fun t => { t with banks := [{ mode := .fifo, fifo := List.replicate 4095 0 }] })
    let one : State := demo (withRegs 0 []) (fun t => { t with banks := [{ mode := .fifo, fifo := [9] }] })
    (after (.fput 2 3) full).cur.wait = .fifo 100 ∧ ((run (.fput 2 3) full).team.banks.map (fun b => b.puts.map (fun p => (p.group, p.id)))) = [[(16, 100)]] ∧
      (after (.fget 4 2) one).cur.wait = .fifo 100 ∧ ((run (.fget 4 2) one).team.banks.map (fun b => b.gets.map (fun p => (p.group, p.id)))) = [[(16, 100)]] := by decide +kernel
theorem test_waitc : (∀ c, c < 6 → (regional).inFlight c = 0) ∧ (after (.waitc 0x3F) (regional)).cur.pc = 0x1004 ∧
    (after (.waitc 2) combining).cur.wait = .slot ∧ .wcDrain 0 512 ∈ (run (.waitc 2) combining).agenda ∧
    (after (.waitc 1) combining).cur.pc = 0x1008 := by decide +kernel

/-! ### Remote accesses, commons and fences (R251 to R290, R322 to R326) -/

/-- A peer-symmetric region in g24 under element type i32 (i64 where `wide`), lanes naming device 0 by `v6`, offsets in `v2`-`v3`. -/
def remote (r : Region → Region := id) (rs : Table Word := []) (wide : Bool := false) : State :=
  { demo (withRegs (if wide then 0x100 else 0) (rs ++ [(95, 8), (128, 5), (159, 6)])) (fun t => { t with
      g := [(24, r { base := 0x10000, len := 0x1000, kind := .c, all := true, peer := true, handle := 9 })] }) with
    pins := [(9, [identity])], ctxs := [(0, { syms := [(0, { kind := .c, base := 0x10000, len := 0x1000, handle := 9 })] })] }
theorem test_ready_remote : Ready (remote) (6 :: regs true 2 ++ [152 + 0]) (regs false 4) ∧
    Ready (remote id [] true) (regs true 4 ++ regs true (4 + 2) ++ (8 :: regs true 2 ++ [152 + 0])) (regs true 4) ∧ (remote).memoryHeld = false ∧
    ((remote).region 24).Serves (remote).grp.pos true true ∧ (remote).et ∈ scalarInts ∧ (remote id [] true).wide = true ∧ isPair 4 = true := by
  refine ⟨ready_plain _ _ _ ?_ ?_, ready_plain _ _ _ ?_ ?_, ?_, ⟨?_, ?_, ?_⟩, ?_, ?_, ?_⟩ <;> decide
/-- No peer symmetry, an unaligned atomic, a device outside the job, and a group whose counter is too high by one. -/
theorem test_remote_checks : (after (.rld 4 6 2 1 0) (remote (fun r => { r with peer := false }))).tcause = 0x0911 ∧
    (after (.ratmAdd 4 6 2 1 0) (remote id [(95, 6)])).tcause = 0x9F10 ∧ (after (.rst 4 6 2 1 0) (remote id [(223, 1)])).tcause = 0x1F18 ∧
    (after (.rld 4 6 2 1 0) (remote)).tcause = 0 := by decide +kernel
theorem test_remote_access : (run (.rld 4 6 2 1 0) (remote)).txns.map (fun x => (x.1, x.2.dev, x.2.lanes.length, x.2.noBorrow)) =
      [(100, some 0, 2, false)] ∧ (after (.rld 4 6 2 1 0) (remote)).busy = [(4, 100)] ∧ tget 0 (after (.rst 4 6 2 1 0) (remote)).count 1 = 1 := by
  decide +kernel
/-- `ratm` at this device: added at the home, the old value in the reply. -/
theorem test_ratm : let t := landed (run (.homeRequest 100) (landed (run (.ratmAdd 4 6 2 1 0) { remote with mem := [(0x10008, 7)] })))
    t.mem = [(0x10000, 5), (0x10008, 13)] ∧ ((run (.loadReply 100) t).group 16).reg 4 31 = 7 := by decide +kernel
theorem test_ratm_others : let s : State := { remote id [(160, 9)] with mem := [(0x10000, 5), (0x10008, 7)] }
    (run (.homeRequest 100) (landed (run (.ratmXchg 4 6 2 1 0) s))).mem = [(0x10000, 5), (0x10008, 6)] ∧
    (run (.homeRequest 100) (landed (run (.ratmCas 4 6 2 1 0) s))).mem = [(0x10000, 9), (0x10008, 7)] := by decide +kernel

/-- A commons borrow in g1 over a line that the issuing cluster owns, one lane on (by `p1`), data 5 in `v4` and 9 in `v5`. -/
def shared (v : Byte := 3) (r : Region → Region := id) (mode : BitVec 16 := 0x08) : State :=
  { demo (fun g => { withRegs mode [(128, 5), (160, 9)] g with preds := [(1, 1)] }) (fun t => { t with
      g := [(1, r { base := 0x10000, len := 0x1000, kind := .c, all := true, handle := 9 })] }) with
    pins := [(9, [identity])], catalogue := [(512, { st := .ow, owner := 0 })]
    clusters := [(0, { cache := (List.range 8).map (fun i => (0x10000 + i, { val := if i = 0 then v else 0, dirty := true, team := 1, commons := true })) })] }
theorem test_ready_commons : Ready (shared) (regs false 4 ++ ((128 + 1) :: regs true 2)) (regs false 4) ∧
    Ready (shared) ((128 + 1) :: regs true 2) (regs false 4) ∧ Ready (shared) (regs false 4 ++ regs false 5 ++ ((128 + 1) :: regs true 2)) (regs false 4) ∧
    (shared).memoryHeld = false ∧ ((shared).region 1).Serves (shared).grp.pos true true ∧ (shared).lanesT = 1 := by
  refine ⟨ready_plain _ _ _ ?_ ?_, ready_plain _ _ _ ?_ ?_, ready_plain _ _ _ ?_ ?_, ?_, ⟨?_, ?_, ?_⟩, ?_⟩ <;> decide
/-- What the operations return and leave where the cluster owns the line. -/
def left (i : Instr) (s : State := shared) : Word × Nat := ((after i s).reg 4 0, (run i s).seenLe 0 0x10000 4)
theorem test_commons_sums : left (.aadd 0 4 1 2 1) = (3, 8) ∧ left (.asub 0 4 1 2 1) = (3, 2 ^ 32 - 2) ∧ left (.amin 0 4 1 2 1) = (3, 3) ∧
    left (.amax 0 4 1 2 1) = (3, 5) ∧ left (.ainc 0 4 1 2 1) (shared 3 id 0x88) = (3, 4) ∧ left (.adec 0 4 1 2 1) (shared 3 id 0x88) = (3, 3) := by
  decide +kernel
theorem test_commons_bits : left (.aand 0 4 1 2 1) = (3, 1) ∧ left (.aor 0 4 1 2 1) = (3, 7) ∧ left (.axor 0 4 1 2 1) = (3, 6) ∧
    left (.axchg 0 4 1 2 1) = (3, 5) ∧ left (.acas 0 4 1 2 1) = (3, 3) ∧ left (.acas 0 4 1 2 1) (shared 5) = (5, 9) := by decide +kernel
theorem test_commons_loads : left (.ald 0 4 1 2 1) = (3, 3) ∧ (run (.ast 0 4 1 2 1) shared).seenLe 0 0x10000 4 = 5 ∧
    (run (.ald 1 4 1 2 1) { shared with clusters := [] }).txns.length = 1 ∧ left (.afadd 0 4 1 2 1) (shared 0 id 0x408) = (0, 5) := by decide +kernel
/-- An unaligned offset; a release that waits, one that sweeps, one that waits for its sweep, and one whose sweep is over. -/
theorem test_commons_checks : (after (.aadd 0 4 1 2 1) (demo (withRegs 0 [(64, 2)]) (fun t => { t with
      g := [(1, { base := 0x10000, len := 0x1000, kind := .c, all := true })] }))).tcause = 0x8010 ∧
    (after (.ainc 0 4 1 2 1) shared).tcause = 0x0302 ∧ ((shared).setGrp { (shared).grp with count := [(0, 1)] }).grp.count ≠ [] := by decide +kernel
theorem test_release : ((shared).releaseScope [{ loc := 0x10000 }]).spread = 3 ∧ (shared).grp.sweeping = none ∧ (shared).mdies ≠ [] ∧
    (let s : State := { (shared).setGrp { (shared).grp with sweeping := some 7 } with sweeps := [(7, { group := 16 })] }
     left (.aadd 2 4 1 2 1) s = (3, 8)) ∧
    (after (.aadd 2 4 1 2 1) ((shared).setGrp { (shared).grp with count := [(1, 1)] })).cur.wait = .slot := by decide +kernel
theorem test_ahint : Ready (shared) [128 + 1] [] ∧ (tget {} (run (.ahint 0 1) shared).team.predictor 1).pin = .home ∧
    (tget {} (run (.ahint 1 1) shared).team.predictor 1).pin = .grant ∧ (run (.ahint 0 2) shared).team.predictor = [] := by
  refine ⟨ready_plain _ _ _ ?_ ?_, ?_⟩ <;> decide +kernel

/-- CommonsService: a read-modify-write of 4 bytes at 0x10000 as it arrives at its home, over a catalogue entry. -/
def arriving (c : CatLine) (cl : Nat := 0) (s : State := demo) : State := { s with
  mem := [(0x10000, 3)], catalogue := [(512, c)]
  txns := [(7, { group := 16, team := 1, cluster := cl, op := .add, kind := .c, commons := true, counter := some 0, dst := 4,
                 lanes := [{ lane := 0, va := 0x10000, loc := 0x10000, a := 5 }] })] }
theorem test_service_premises : (arriving {}).answers 0x10000 = true ∧ (arriving {}).behindOlder 7 (tget {} (arriving {}).txns 7) {} = false ∧
    lineOf (0x10000 + 4 - 1) = lineOf 0x10000 ∧ (tfind (arriving {}).catalogue 512).isSome = true ∧ (arriving {}).egress ((arriving {}).homeOf 0x10000) < 4 := by
  decide +kernel
theorem test_service : ((run (.homeRequest 7) (arriving { busy := true })).cat 512).queue = [7] ∧
    (run (.homeRequest 7) (arriving { busy := true, queue := List.range 7 ++ [9] })).cmsgs.map (fun m => (m.2.kind, m.2.txn)) = [(.resend, 7)] ∧
    (run (.homeRequest 7) (arriving { st := .ow, owner := 9 })).cmsgs.map (fun m => (m.2.kind, m.2.cluster)) = [(.forward, 9)] ∧
    (run (.homeRequest 7) (arriving {})).mem = [(0x10000, 8)] ∧
    (tget ({} : Txn) (run (.homeRequest 7) (arriving {})).txns 7).lanes.map (·.result) = [some 3] := by decide +kernel
/-- CommonsMessages: one of each kind, over a line owned, shared, or neither. -/
def telling (m : CMsg) (c : CatLine := {}) (b : Table CByte := []) : State :=
  { demo with cmsgs := [(7, m)], catalogue := [(512, c)], clusters := [(0, { cache := b })] }
def copyOf (d : Bool) : Table CByte := [(0x10000, { val := 5, dirty := d, team := 1, commons := true })]
theorem test_messages : ((run (.invalidate 7) (telling { line := 512 } {} (copyOf false))).clusterOf 0).cache = [] ∧
    (run (.forward 7) (telling { kind := .forward, line := 512 } { st := .ow } (copyOf true))).cmsgs.map (fun m => (m.2.kind, m.2.answer, m.2.data)) =
      [(.writeBack, true, [(0x10000, 5)])] ∧
    ((run (.forward 7) (telling { kind := .forward, line := 512 } { st := .ow, busy := true } (copyOf true))).cat 512).st = .h ∧
    (run (.forward 7) (telling { kind := .forward, line := 512 } { st := .ow })).cmsgs.map (·.2.kind) = [.gone] ∧
    (copyOf true).Pairwise (fun a b => a.1 ≠ b.1) := by decide +kernel
theorem test_messages_home : ((run (.gone 7) (telling { kind := .gone, line := 512 } { st := .ow })).cat 512).st = .h ∧
    ((run (.gone 7) { telling { kind := .gone, line := 512 } { st := .ow } with
      cmsgs := [(7, { kind := .gone, line := 512 }), (8, { kind := .writeBack, line := 512 })] }).cat 512).gone = true ∧
    ((run (.gone 7) { telling { kind := .gone, line := 512 } { busy := true, queue := [3] } with txns := [(3, {})] }).agenda) = [.homeRequest 3] ∧
    (run (.writeBack 7) (telling { kind := .writeBack, line := 512, answer := true, data := [(0x10000, 6)] } { st := .ow, busy := true })).mem = [(0x10000, 6)] ∧
    ((run (.writeBack 7) (telling { kind := .writeBack, line := 512 } { st := .ow })).cat 512).st = .h ∧
    (run (.pageRecall 7) { telling { kind := .pageRecall, line := 512, answer := true, data := [(0x10001, 9)] } with
      catalogue := [(pageKey (128 * 512), { st := .po, devices := [3] })] }).catalogue = [] := by decide +kernel
/-- A recalled page's device answers, and a request that its home refused is sent again. -/
theorem test_messages_again : (run (.pageRecall 7) (telling { kind := .pageRecall, line := 512 })).cmsgs.map (fun m => (m.2.kind, m.2.answer)) =
      [(.pageRecall, true)] ∧ locDev (128 * 512) = none ∧
    (run (.commonsResend 7) { arriving {} with cmsgs := [(7, { kind := .resend, line := 512, txn := 7 })] }).net.packets.map
      (fun k => (k.2.txn, k.2.response, k.2.event)) = [(7, false, none)] := by decide +kernel
theorem test_sweeps : (run (.sweepMarker 7) { telling { kind := .marker, sweep := 4, home := 3 } {} (copyOf false) with
      cmsgs := [(7, { kind := .marker, sweep := 4, home := 3 }), (8, { line := 512 })] }).cmsgs.map (·.2.kind) = [.sweepAck] ∧
    (run (.sweepAck 7) { telling { kind := .sweepAck, sweep := 4, die := 2, home := 1 } with
      sweeps := [(4, { group := 16, owing := [514, 4] })] }).sweeps = [(4, { group := 16, owing := [4] })] ∧
    (run (.sweepAck 7) { telling { kind := .sweepAck, sweep := 4, die := 2, home := 1 } with
      sweeps := [(4, { group := 16, owing := [514] })] }).sweeps = [] := by
  decide +kernel
/-- Fences: an access in flight that is covered and one that is not, a write to sweep, a sweep in progress and one that is over. -/
def fencing (g : Group → Group := id) : State := { demo g with
  txns := [(7, { group := 16, op := .store, cls := 1, lanes := [{ va := 0x100, loc := 0x100 }] })] }
theorem test_fence : (fencing).coveredInFlight { classes := 2, loads := false, stores := true } = true ∧
    (after (.fence 2 2) fencing).cur.wait = .fence ∧ (after (.fence 1 2) fencing).cur.pc = 0x1004 ∧ (after (.fence 2 4) fencing).cur.pc = 0x1004 ∧
    demo.cdies ≠ [] := by decide +kernel
/-- FencesPass: a group with nothing in flight and nothing to sweep. -/
theorem test_fence_clear : Ready demo [] [] ∧ demo.grp.sweeping = none ∧
    demo.coveredInFlight { classes := 7, loads := true, stores := true } = false ∧
    demo.grp.coveredWrites { classes := 7, loads := true, stores := true } = [] := by
  refine ⟨ready_plain _ _ _ ?_ ?_, ?_⟩ <;> decide +kernel
theorem test_fence_sweeps :
    (demo (fun g => { g with unswept := [⟨1, 0, 4, 0⟩] })).grp.coveredWrites { classes := 2, loads := false, stores := true } ≠ [] ∧
    (let s : State := { demo (fun g => { g with sweeping := some 7, unswept := [⟨1, 0, 4, 0⟩] }) with sweeps := [(7, { group := 16, owing := [2] })] }
     (after (.fence 2 2) s).cur.pc = 0x1000) ∧
    (let s : State := { demo (fun g => { g with sweeping := some 7, unswept := [⟨1, 0, 4, 0⟩] }) with sweeps := [(7, { group := 16, writes := [⟨1, 0, 4, 0⟩] })] }
     (after (.fence 2 2) s).cur.pc = 0x1004 ∧ (after (.fence 2 2) s).unswept = []) := by decide +kernel
theorem test_fencer : ReadyAll demo (regs true 2 ++ regs true 4) [] ∧ (after (.fencer 2 4 2 2) demo).cur.pc = 0x1004 ∧
    (after (.fencer 2 4 2 2) (fencing (withRegs 0 [(64, 0x103), (128, 1)]))).cur.wait = .fence ∧
    (after (.fencer 2 4 2 2) (fencing (withRegs 0 [(64, 0x104), (128, 1)]))).cur.pc = 0x1004 ∧
    (after (.fencer 2 4 2 2) (demo (withRegs 0 [(64, 1), (128, 0xFFFFFFFF), (160, 0xFFFFFFFF)]))).tcause = 0 ∧
    (after (.fencer 2 4 2 2) (demo (withRegs 0 [(64, 2), (128, 0xFFFFFFFF), (160, 0xFFFFFFFF)]))).tcause = 0xC110 := by
  refine ⟨ready_all _ _ _ ?_ ?_, ?_⟩ <;> decide +kernel
theorem test_fencei : (run .fencei { demo with clusters := [(0, { icache := [(0xFFC, 1), (0x1000, 2), (0x1FFC, 3), (0x2000, 4)] })] }).cluster.icache =
    [(0xFFC, 1), (0x2000, 4)] := by decide +kernel

/-! ### Borrows and call slips (R180 to R209, R254, R259, R402) -/

/-- A group about to borrow 4 KiB from 0x10000 by the quad `v4`-`v7`, its cluster holding the translation; changed as a test asks. -/
def borrowing (base : Word := 0x10000) (len : Word := 0x1001) (t : Team → Team := id) (tlb : List PagePin := [identity]) : State :=
  { demo (withRegs 0 [(128, base), (192, len)]) t with clusters := [(0, { tlb := tlb })] }
theorem test_ready_bor : Ready (borrowing) (quadRegs 4 ++ [128 + 3]) [9, 128 + 3] ∧ (borrowing).handing = false ∧ (borrowing).lanesT ≠ 0 ∧
    (borrowing).team.st ≠ .absent ∧ (borrowing).walkOf 0x10000 0x1000 = none ∧ borCheck 0x10000 0x1001 ((borrowing).region 3) = none := by
  refine ⟨ready_plain _ _ _ ?_ ?_, ?_⟩ <;> decide +kernel
/-- BorrowChecks: each check at a boundary value. -/
theorem test_bor_checks : (after (.borX 9 4 3) (borrowing 0x10001)).tcause = 0x2010 ∧ (after (.borS 9 4 3) (borrowing 0x10000 0x7F)).tcause = 0x2110 ∧
    (after (.borC 9 4 3) (borrowing 0x10000 0x84)).tcause = 0x2110 ∧ (after (.borX 9 4 3) (borrowing 0x10000 0x83)).tcause = 0x0119 ∧
    (after (.borX 9 4 3) (demo (withRegs 0 [(128, 0xFFFFFF80), (160, 0xFFFFFF), (192, 0x100)]))).tcause = 0x2210 ∧
    (after (.borX 9 4 3) (borrowing 0x10000 0x80 (fun t => { t with g := [(3, { kind := .s })] }))).tcause = 0x0311 := by decide +kernel
/-- BorrowRequests: pages found, none held by the cluster, not mapped, and a range of the team's own. -/
theorem test_bor_request : (run (.borX 9 4 3) (borrowing)).reqs.map (fun r => [r.1, r.2.base, r.2.len, r.2.cls]) =
      [[100, 0x10000, 0x1000, 1]] ∧ (run (.borX 9 4 3) (borrowing)).reqs.map (fun r => (r.2.kind, r.2.owing)) = [(.x, [3])] ∧ ((run (.borX 9 4 3) (borrowing)).region 3).pend = true ∧
    (run (.borX 9 4 3) (borrowing)).slips.map (fun x => (x.2.ty, x.2.seq, x.2.home, x.2.spans)) = [(1, 100, 3, [(0x10000, 0x1000)])] ∧
    (after (.borXW 9 4 3) (borrowing)).cur.wait = .borrow 100 := by decide +kernel
theorem test_bor_kinds : (run (.borS 9 4 3) (borrowing)).reqs.map (·.2.kind) = [.s] ∧ (run (.borC 9 4 3) (borrowing)).reqs.map (·.2.kind) = [.c] ∧
    (run (.borSW 9 4 3) (borrowing)).reqs.map (·.2.wait) = [true] ∧ (run (.borCW 9 4 3) (borrowing)).reqs.map (·.2.wait) = [true] := by decide +kernel
theorem test_bor_walk : (after (.borX 9 4 3) (borrowing 0x10000 0x1001 id [])).cur.wait = .walk 100 ∧
    (after (.borX 9 4 3) (borrowing 0x10000 0x1001 id [{ identity with w := false }])).tcause = 0x0213 ∧
    (after (.borX 9 4 3) { borrowing with circ := [(1, { home := 3, team := 1, kind := .s, spans := [(0x10F80, 0x80)] })] }).reg 9 31 = 5 := by
  decide +kernel
/-- WalksEnd: the walk ends, its pages enter the cache, and the fragment goes on. -/
def walked : State := { run (.borX 9 4 3) (borrowing 0x10000 0x1001 id []) with mem := paged 0x17 }
theorem test_walk_end : walked.hasGroup 16 = true ∧ ((tfind walked.walks 100).map (·.group)) = some (some 16) ∧
    ((run (.tableWalkEnd 100) walked).clusterOf 0).tlb.map (fun p => (p.va, p.bits)) = [(0, 30)] ∧
    ((run (.tableWalkEnd 100) walked).group 16).cur.wait = .resumed 100 ∧
    (run (.borX 9 4 3) (run (.tableWalkEnd 100) walked)).reqs.length = 1 := by decide +kernel
/-- A walk that finds nothing mapped: the `bor` tried again traps. -/
theorem test_walk_fails : (after (.borX 9 4 3) (run (.tableWalkEnd 100) { walked with mem := [] })).tcause = 0x0113 ∧
    (after (.borX 9 4 3) (run (.tableWalkEnd 100) { walked with mem := [] })).taddr = 0x10000 := by decide +kernel

/-- A team that holds borrows in g1 (as given) and g2, with their entries at home 3. -/
def holding (r : Region → Region := id) (q : Region := {}) (e : List (Nat × Circ) := []) : State :=
  { demo (withRegs 0 [(64, 0x80)]) (fun t => { t with size := 2, g := [(1, r { base := 0x10000, len := 0x1000, kind := .x, handle := 9 }), (2, q)] }) with
    pins := [(9, [identity])], circ := [(1, { home := 3, kind := .x, handle := 9, team := 1, spans := [(0x10000, 0x1000)] })] ++ e }
theorem test_ready_changes : Ready (holding) [128 + 1] [128 + 1] ∧ Ready (holding) [128 + 1] [9, 128 + 1] ∧ Ready (holding) [2, 128 + 1] [128 + 1] ∧
    Ready (holding) [128 + 2, 2, 128 + 1] [128 + 2, 128 + 1] ∧ Ready (holding) [128 + 1] (quadRegs 8) ∧ (holding).handing = false ∧
    (holding).throughDone 1 1 9 = true ∧ (∀ x ∈ (holding).reqs, x.2.draining = false) ∧ (holding).partsOf ((holding).regionSpans ((holding).region 1)) ≠ [] := by
  refine ⟨ready_plain _ _ _ ?_ ?_, ready_plain _ _ _ ?_ ?_, ready_plain _ _ _ ?_ ?_, ready_plain _ _ _ ?_ ?_, ready_plain _ _ _ ?_ ?_, ?_⟩ <;>
    decide +kernel
theorem test_change_checks : (after (.bdown 1) (holding (fun r => { r with pend := true }))).tcause = 0x11 ∧
    (after (.bdown 1) (holding (fun r => { r with peer := true }))).tcause = 0x0511 ∧ (after (.bup 9 1) (holding)).tcause = 0x0411 ∧
    (after (.bdown 1) (holding (fun r => { r with holder := 1 }))).tcause = 0x12 ∧ (after (.bdown 1) (holding (fun r => { r with split := true }))).tcause = 0x0214 ∧
    (after (.bret 2) (holding)).tcause = 0x11 := by decide +kernel
theorem test_changes : (run (.bdown 1) (holding)).slips.map (fun x => (x.2.ty, x.2.home)) = [(7, 3)] ∧
    (run (.bup 9 1) (holding (fun r => { r with kind := .s, all := true }))).slips.map (fun x => (x.2.ty, x.2.home)) = [(8, 3)] ∧
    (run (.bret 1) (holding)).slips.map (fun x => (x.2.ty, x.2.spans)) = [(6, [(0x10000, 0x1000)])] ∧ ((run (.bret 1) (holding)).region 1).pend = true ∧
    ((run (.bret 1) { holding with txns := [(5, { team := 1, region := 1 })] }).reqs.map (·.2.draining)) = [true] := by decide +kernel
theorem test_bhand : (after (.bhand 2 1) (holding)).tcause = 0x0112 ∧ ((run (.bhand 3 1) (holding)).region 1).holder = 0 ∧
    ((run (.bhand 2 1) ((holding).setGrp (withRegs 0 [(64, 1)] (holding).grp))).region 1).holder = 1 ∧
    (after (.bhand 2 1) ((holding).setGrp (withRegs 0 [(64, 2)] (holding).grp))).tcause = 0x0112 ∧
    (after (.bhand 2 1) ((holding).setGrp (withRegs 0 [(64, 16)] (holding).grp))).tcause = 0x0611 := by decide +kernel
theorem test_bsplit : ((run (.bsplit 2 2 1) (holding)).region 1).len = 0x80 ∧ ((run (.bsplit 2 2 1) (holding)).region 2).base = 0x10080 ∧
    ((run (.bsplit 2 2 1) (holding)).region 2).split = true ∧ (after (.bsplit 2 3 1) (holding)).tcause = 0x2310 ∧
    (after (.bsplit 2 2 1) (holding (fun r => { r with len := 0x80 }))).tcause = 0x2310 ∧
    (after (.bsplit 2 2 1) (holding id { kind := .s })).tcause = 0x0311 := by decide +kernel
theorem test_bjoin : ((run (.bjoin 1 2) (run (.bsplit 2 2 1) (holding))).region 1) = { base := 0x10000, len := 0x1000, kind := .x, handle := 9 } ∧
    ((run (.bjoin 1 2) (run (.bsplit 2 2 1) (holding))).region 2) = {} ∧
    (after (.bjoin 1 2) (holding id { base := 0x11000, len := 0x80, kind := .x, handle := 8 })).tcause = 0x0314 ∧
    (run (.bsplit 2 2 1) (holding)).handing = false := by decide +kernel
theorem test_bquery : (after (.bquery 8 1) (holding)).reg 8 0 = 0x20 + 0x10000 ∧ (after (.bquery 8 1) (holding)).reg 10 0 = 0x1000 ∧
    (after (.bquery 8 1) (holding)).reg 11 31 = 9 * 2 ^ 9 := by decide +kernel
/-- The middle piece of three may not be returned (R208). -/
theorem test_bret_middle : (after (.bret 1) (holding (fun r => { r with split := true, base := 0x20000 }) { base := 0x30000, len := 0x80, kind := .x, handle := 9 }
      |> fun s => s.setTeam { s.team with g := s.team.g ++ [(3, { base := 0x10000, len := 0x80, kind := .x, handle := 9 })] })).tcause = 0x0114 := by
  decide +kernel

/-- A slip about request 40 of the demo's group, over entries of home 3. -/
def slipping (x : Slip) (r : Request := {}) (circ : Table Circ := []) : State :=
  { holding with slips := [(7, { x with req := 40, seq := 40, home := 3 })], circ, reqs := [(40, { r with team := 1, group := 16, reg := 2, dst := 9, lanes := 1 })] }
/-- One request over both ends of what home 3 and home 5 keep. -/
def twoHomes : Request := { kind := .x, parts := [(3, [(0x10000, 0x80)]), (5, [(0x20000, 0x80)])], owing := [3, 5] }
def oneHome (k : Kind := .x) (w : Bool := false) : Request := { kind := k, wait := w, parts := [(3, [(0x10000, 0x80)])], owing := [3], base := 0x10000, len := 0x80 }
def asks : Slip := { ty := 1, spans := [(0x10000, 0x80)] }
theorem test_slips_taken : Rules.Taken (slipping asks) 7 1 { asks with req := 40, seq := 40, home := 3 } ∧
    (slipping asks).hostBiased [(0x10000, 0x80)] = none ∧ (slipping asks (oneHome)).placesUsed 3 < tableSize 3 ∧
    (slipping asks).hasGroup 16 = true ∧ (slipping asks).waitsUsed 3 < Config.waitPlaces := by
  refine ⟨⟨?_, ?_, ?_, ?_, ?_⟩, ?_⟩ <;> decide +kernel
theorem test_slips_refused : (run (.grant 7) (slipping asks)).interrupts.map (fun i => (i.what, i.a, i.b)) = [(11, 1, 3)] ∧
    (run (.req 7) (slipping { asks with flags := 32 })).slips = [] ∧ run (.req 8) (slipping asks) = slipping asks ∧
    ((tfind (run (.slipResend 7) (slipping { asks with status := 0x100 })).slips 7).map (·.status)) = some 0 := by decide +kernel
/-- The tenth slip of a bucket in a home's arrival queue is to be refused: here all name one line. -/
theorem test_slip_queue : State.bucketAhead { demo with slips := (List.range 10).map (fun i => (11 + i, { asks with home := 3 })) } 20
      { asks with home := 3 } = 9 ∧ toHome 1 = true := by
  simp [State.bucketAhead, List.range_succ, asks, toHome]
theorem test_home_grants : (run (.req 7) (slipping asks (oneHome))).circ.map (fun e => (e.2.st, e.2.kind, e.2.req)) = [(.held, .x, 40)] ∧
    (run (.req 7) (slipping asks twoHomes)).circ.map (·.2.st) = [.tentative] ∧ (run (.req 7) (slipping asks (oneHome))).slips.map (·.2.ty) = [2] := by
  decide +kernel
/-- What another entry makes of a request: BUSY, a place in the wait queue, or nothing where S meets S. -/
def other (k : Kind) (st : CircState := .held) : Table Circ := [(1, { home := 3, kind := k, handle := 2, req := 30, st, spans := [(0x10000, 0x80)] })]
theorem test_home_refuses : (run (.req 7) (slipping asks (oneHome) (other .s))).slips.map (fun x => (x.2.ty, x.2.status)) = [(3, 2)] ∧
    (run (.req 7) (slipping asks (oneHome .s) (other .s))).slips.map (·.2.ty) = [2] ∧
    (run (.req 7) (slipping asks (oneHome .x true) (other .s))).circ.map (·.2.st) = [.held, .waiting] ∧
    (run (.req 7) (slipping asks (oneHome .x) (other .s .taint))).slips.map (·.2.ty) = [2] := by decide +kernel
theorem test_grant : (run (.grant 7) (slipping { ty := 2 } twoHomes)).reqs.map (fun r => (r.2.owing, r.2.granted)) = [([5], [3])] ∧
    (let t := run (.grant 7) (slipping { ty := 2 } (oneHome) (other .x .taint))
     t.reqs = [] ∧ (t.region 2).kind = .x ∧ (t.region 2).base = 0x10000 ∧ t.grp.reg 9 0 = 1 ∧ t.circ = []) ∧
    (run (.grant 7) (slipping { ty := 2 } (oneHome))).grp.reg 9 0 = 0 := by decide +kernel
theorem test_refuse : (run (.refuse 7) (slipping { ty := 3, status := 2 } twoHomes)).slips.map (fun x => (x.2.ty, x.2.home)) = [(5, 5)] ∧
    (run (.refuse 7) (slipping { ty := 3, status := 2 } twoHomes)).reqs = [] := by decide +kernel
theorem test_refuse_ends : (run (.refuse 7) (slipping { ty := 3, status := 2 } (oneHome))).grp.reg 9 0 = 2 := by decide +kernel
theorem test_recall_ends : (run (.recall 7) (slipping { ty := 4 } { oneHome with granted := [3], owing := [] })).grp.reg 9 0 = 2 := by decide +kernel
theorem test_recall : (run (.recall 7) (slipping { ty := 4 } { twoHomes with granted := [3], owing := [5], wait := true })).reqs.map (·.2.owing) = [[5, 3]] := by
  decide +kernel
theorem test_home_changes : (run (.giveup 7) (slipping { ty := 5 } {} [(1, { home := 3, req := 40, st := .tentative })])).circ = [] ∧
    (run (.retSlip 7) (slipping { ty := 6, handle := 2, spans := [(0x10000, 0x80)] } {} (other .x))).circ = [] ∧
    (run (.retSlip 7) (slipping { ty := 6, handle := 2, spans := [(0x10000, 0x40)] } {} (other .x))).circ.map (·.2.spans) = [[(0x10040, 0x40)]] ∧
    (run (.down 7) (slipping { ty := 7, handle := 2 } {} (other .x))).circ.map (·.2.kind) = [.s] ∧
    (run (.up 7) (slipping { ty := 8, handle := 2, spans := [(0x10000, 0x80)] } {} (other .s))).circ.map (·.2.kind) = [.x] ∧
    (run (.up 7) (slipping { ty := 8, handle := 4, spans := [(0x10000, 0x80)] } {} (other .s))).slips.map (·.2.status) = [2] := by decide +kernel
theorem test_home_moves : (run (.reloc 7) (slipping { ty := 9, handle := 2, die := 6, cluster := 7 } {} (other .x))).circ.map (fun e => (e.2.die, e.2.cluster)) =
      [(6, 7)] ∧ (run (.hold 7) (slipping { ty := 10, die := 0, spans := [(0x10000, 0x80)] } {} [(1, { home := 3, proxy := true, spans := [(0x10000, 0x80)] })])).circ.map
      (·.2.hold) = [true] ∧ (run (.retSlip 7) (slipping { ty := 6 } { backs := [9] } (other .x))).agenda = [.retSlip 7] := by decide +kernel
/-- Answers: one of two, and the last of `bdown`, `bret` and `bup`. -/
def answered (p : Purpose) (st : Nat := 0) (owing : List Nat := [3]) : State :=
  let s := slipping { ty := 11, status := st } { purpose := p, owing, handle := 9 }
  s.setTeam { s.team with g := [(2, { kind := if p = .up then .s else .x, pend := true, handle := 9, base := 0x10000, len := 0x80 })] }
theorem test_answers : (run (.ack 7) (answered .down 0 [3, 5])).reqs.map (·.2.owing) = [[5]] ∧ ((run (.ack 7) (answered .down)).region 2).kind = .s ∧
    ((run (.ack 7) (answered .down)).region 2).pend = false ∧ ((run (.ack 7) (answered .ret)).region 2) = {} ∧
    ((run (.ack 7) (answered .up)).region 2).kind = .x ∧ ((run (.ack 7) (answered .up 2)).region 2).kind = .s ∧
    (run (.ack 7) (answered .up 2)).grp.reg 9 0 = 2 := by decide +kernel
/-- ReachLimits: an access, a `bor`, a chunk once and twice. -/
theorem test_reach_limit : (let s : State := { demo with txns := [(7, { group := 16, op := .load, dst := 4, lanes := [{ loc := 2 ^ 60 }] })] }
     ((run (.reachLimit 7) s).group 16).deferred.map (fun d => (d.code, d.detail)) = [(0x18, 32)] ∧ (run (.reachLimit 7) s).txns = [] ∧
       (s.group 16).live ≠ 0) ∧
    (run (.reachLimit 40) (slipping asks { oneHome with owing := [1003] })).grp.reg 9 0 = 4 ∧
    (run (.reachLimit 40) (slipping asks (oneHome))).grp.reg 9 0 = 0 ∧
    (run (.reachLimit 7) { demo with chunks := [(7, { team := 1, copy := 5 })], copies := [(5, { team := 1 })] }).agenda = [.chunkResend 7] ∧
    ((run (.reachLimit 7) { demo with chunks := [(7, { team := 1, copy := 5, abandoned := true })], copies := [(5, { team := 1 })] }).kill.map (·.cause)) = [4] ∧
    (run (.reachLimit 7) { demo with chunks := [(7, { team := 1, copy := 5 })] }).chunks = [] := by decide +kernel
theorem test_no_borrow : ((run (.loadReply 7) { demo with txns := [(7, { group := 16, noBorrow := true, lanes := [{}] })] }).group 16).deferred.map
    (fun d => (d.code, d.detail)) = [(0x18, 33)] := by decide +kernel

/-! ### Barriers, copies and the matrix unit (R293 to R312, R333 to R352, R414) -/

/-- A team with barrier 1 as given, `v2` and `v3` as operands, the group's target, and its counters. -/
def barriered (w : Barrier := {}) (a b : Word := 0) (wt : Option Nat := none) (ct : Table Nat := []) : State :=
  demo (fun g => { withRegs 0 [(64, a), (96, b)] g with wt := [(1, wt)], count := ct }) (fun t => { t with w := [(1, w)] })
def opened (x : Barrier) : Barrier := { x with init := true }
theorem test_ready_barriers : Ready (barriered) [2, 3, 160 + 1] [160 + 1] ∧ Ready (barriered) [2, 160 + 1] [160 + 1] ∧
    Ready (barriered) [160 + 1] [160 + 1] ∧ Ready (barriered) [160 + 1] [64 + 7] ∧ (barriered).lanesT ≠ 0 ∧ (∀ c, c < 4 → (barriered).inFlight c = 0) := by
  refine ⟨ready_plain _ _ _ ?_ ?_, ready_plain _ _ _ ?_ ?_, ready_plain _ _ _ ?_ ?_, ready_plain _ _ _ ?_ ?_, ?_⟩ <;> decide
theorem test_winit : ((run (.winit 1 2 3) (barriered {} 2 5)).team.barrier 1) = { expm := 2, bal := 5, init := true } ∧
    (after (.winit 1 2 3) (barriered { arrm := 1 } 2)).tcause = 0x0128 ∧ (after (.winit 1 2 3) (barriered {} 0)).tcause = 0x0228 ∧
    (after (.winit 1 2 3) (barriered {} 4096)).tcause = 0x0228 ∧ ((run (.winit 1 2 3) (barriered { arrm := 1, err := true } 4095)).team.barrier 1).expm = 4095 := by
  decide +kernel
theorem test_wexp : (after (.wexp 1 2) (barriered)).tcause = 0x0328 ∧ (after (.wexp 1 2) (barriered (opened { err := true }))).tcause = 0x0628 ∧
    (after (.wexp 1 2) (barriered (opened { bal := 2 ^ 39 - 1 }) 1)).tcause = 0x0528 ∧
    ((run (.wexp 1 2) (barriered (opened { expm := 1, arrm := 1, bal := -3 }) 3)).team.barrier 1) = opened { phase := 1, expm := 1 } := by decide +kernel
theorem test_warr : (after (.warr 1) (barriered)).tcause = 0x0328 ∧ (after (.warr 1) (barriered (opened { expm := 1, arrm := 1 }))).tcause = 0x0428 ∧
    ((run (.warr 1) (barriered (opened { expm := 1, phase := 0xFFFF }))).team.barrier 1) = opened { expm := 1 } ∧
    tget none (after (.warr 1) (barriered (opened { expm := 2, phase := 4 }))).wt 1 = some 4 ∧
    (after (.warr 1) (barriered (opened { expm := 1 }) 0 0 none [(3, 1)])).cur.wait = .barrier 1 := by decide +kernel
theorem test_wwait : (after (.wwait 1) (barriered (opened { phase := 5 }) 0 0 (some 4))).cur.pc = 0x1004 ∧
    (after (.wwait 1) (barriered (opened { phase := 5 }) 0 0 (some 5))).cur.wait = .barrier 1 ∧ (after (.wwait 1) (barriered)).tcause = 0x0328 ∧
    (after (.wtest 3 1) (barriered (opened { phase := 5 }) 0 0 (some 4))).pred 3 = 0x80000001 ∧
    (after (.wtest 3 1) (barriered (opened { phase := 5 }) 0 0 (some 5))).pred 3 = 0 := by decide +kernel

/-- A descriptor quad in `v8`-`v11` for both lanes, over region g1 and team scratch; lane 31's source offset one element on. -/
def copying (w0 w1 w2 w3 : Word) (r : Region → Region := id) (t : Team → Team := id) : State :=
  { demo (withRegs 0 [(256, w0), (287, w0 + 4), (288, w1), (319, w1), (320, w2), (351, w2 + 4), (352, w3), (383, w3)]) (fun x => t { x with
      scr := 4096, g := [(1, r { base := 0x10000, len := 0x1000, kind := .x, all := true, handle := 9 })] }) with
    pins := [(9, [identity])], mem := [(0x10000, 1), (0x10004, 2)] }
theorem test_ready_copies : Ready (copying 0 0 0x20000 0x200) (operandCodes 32 ++ operandCodes 1 ++ quadRegs 8) [] ∧
    (copying 0 0 0x20000 0x200).fullyOn = true ∧ (copying 0 0 0x20000 0x200).lanesT ≠ 0 ∧ ((copying 0 0 0 0).region 1).Serves 0 false false ∧
    (demo (withRegs 0x08 [])).fullyOn = false := by
  refine ⟨ready_plain _ _ _ ?_ ?_, ?_, ?_, ⟨?_, ?_, ?_⟩, ?_⟩ <;> decide +kernel
theorem test_operand_serves : Rules.operandServes (copying 0 0 0x20000 0x200) 1 false 0xFFC 4 ∧
    Rules.operandServes (copying 0 0 0x20000 0x200) 32 true 0x20FFC 4 := by
  refine ⟨⟨fun _ => ⟨⟨?_, ?_, ?_⟩, ?_⟩, fun h => absurd h (by decide), fun h => absurd h (by decide)⟩,
    ⟨fun h => absurd h (by decide), fun _ => Or.inr ?_, fun h => absurd h (by decide)⟩⟩ <;> decide
theorem test_cpl_checks : (after (.cpl 32 1 8) (demo (withRegs 0x08 []))).tcause = 0x04 ∧ (after (.cpl 32 1 8) (copying 0 0x100 0x20000 0x200)).tcause = 0xA010 ∧
    (after (.cpl 32 1 8) (copying 0 0 0x20000 0x300)).tcause = 0xBF10 ∧ (after (.cpl 32 1 8) (copying 0 0 0x20000 0x40000200)).tcause = 0xC010 ∧
    (after (.cpl 32 1 8) (copying 0 0 0x20000 0x81000200)).tcause = 0x0328 ∧ (after (.cpl 32 1 8) (copying 0xFFC 0 0x20000 0x200)).tcause = 0x1F10 ∧
    (after (.cpl 32 1 8) (copying 0 0 0x20FFC 0x200)).tcause = 0x5F10 := by decide +kernel
/-- A lane copy from memory to team scratch, and its completion. -/
def copied : State := run (.cpl 32 1 8) (copying 0 0 0x20000 0x200)
/-- The state once a copy's sources have come. -/
def fetched (x : Nat) (s : State) : State :=
  let c : Copy := tget {} s.copies x
  { s with copies := tput s.copies x { c with asked := true, got := c.pieces.map (fun p => (32 * p.dst + p.lane, readLe s.mem p.sloc p.n)) } }
theorem test_cpl : tget 0 copied.grp.count 4 = 1 ∧ copied.grp.foot.length = 4 ∧ copied.copies.map (fun c => [c.1, c.2.bytes, c.2.pieces.length]) = [[100, 8, 2]] ∧
    (tget ({} : Copy) copied.copies 100).killed = false ∧ copied.hasGroup 16 = true ∧
    (∀ p ∈ (tget ({} : Copy) copied.copies 100).pieces, aperture p.src ≠ .local_ ∧ aperture p.src ≠ .cluster ∧ p.n ≠ 0) := by decide +kernel
/-- CopiesComplete: its load, the load's reply, and the bytes at the destination. -/
theorem test_cpl_asks : let t := run (.copyComplete 100) copied
    t.copies.map (fun c => c.2.asked) = [true] ∧ t.txns.map (fun u => (u.2.copy, u.2.op)) = [(some 100, .load)] ∧ t.mem = copied.mem ∧
    ((t.txns.flatMap (fun u => u.2.lanes)).map (fun p => (p.lane % 32, p.loc, p.n))) = [(0, 0x10000, 4), (31, 0x10004, 4)] := by decide +kernel
theorem test_copy_reply : let t := run (.loadReply 7) { fetched 100 copied with
      txns := [(7, { group := 16, team := 1, copy := some 100, op := .load, lanes := [{ lane := 32, loc := 0x10000, result := some 1 }] })] }
    t.txns = [] ∧ .copyComplete 100 ∈ t.agenda := by decide +kernel
theorem test_copy_complete : let t := run (.copyComplete 100) (fetched 100 copied)
    t.copies = [] ∧ t.grp.foot = [] ∧ tget 5 t.grp.count 4 ≠ 1 ∧ tget 0 t.team.scratch 0 = 1 ∧ tget 0 t.team.scratch 4 = 2 := by decide +kernel
/-- A completing copy signals its barrier: bytes, and an arrival with MA (R310). -/
theorem test_copy_signals : ((run (.copyComplete 100) (fetched 100 (run (.cpl 32 1 8) (copying 0 0 0x20000 0xC1000200 id (fun t => { t with
      w := [(1, opened { expm := 2, bal := 8 })] }))))).team.barrier 1) = opened { expm := 2, arrm := 1 } := by decide +kernel
/-- `cpb` of 16 bytes: one piece, and its bytes at the destination. -/
def bulk : State := run (.cpb 32 1 8) ((copying 0 0x100 0x20000 0).setGrp { (copying 0 0x100 0x20000 0).grp with absent := 0x7FFFFFFE })
theorem test_cpb : bulk.copies.map (fun c => [c.2.bytes, c.2.pieces.length]) = [[16, 1]] ∧
    tget 0 (run (.copyComplete 100) (fetched 100 bulk)).team.scratch 4 = 2 ∧
    (after (.cpb 32 1 8) (copying 0 0 0x20000 0)).tcause = 0xC010 ∧ (after (.cpb 32 1 8) (copying 8 0x100 0x20000 0)).tcause = 0xC010 ∧
    (after (.cpb 32 1 8) (copying 0 0x100 0x20000 0x100000)).tcause = 0xC010 := by decide +kernel
/-- `cpr` from scratch to memory: its chunk, its application, and its completion (ReducingChunks). -/
def reducing : State := run (.cprAdd 1 32 8) (copying 0x20000 0x100 0 0 id (fun t => { t with scratch := [(0, 5), (4, 7)] }))
def reduced : State := run (.chunk 101) reducing
theorem test_cpr : (after (.cprFadd 1 32 8) (copying 0x20000 0x100 0 0)).tcause = 0x0302 ∧
    reducing.chunks.map (fun k => [k.1, k.2.copy, k.2.tag, k.2.home]) = [[101, 100, 0, 3]] := by decide +kernel
theorem test_cpr_adds : reduced.mem = [(0x10000, 6), (0x10004, 9)] := by decide +kernel
theorem test_cpr_records : (tget ({} : Stream) reduced.streams (4096 * 100 + 3)).map = 1 := by decide +kernel
theorem test_cpr_min_max : (run (.chunk 101) (run (.cprMin 1 32 8) (copying 0x20000 0x100 0 0 id (fun t => { t with scratch := [(0, 5)] })))).mem = [(0x10000, 1)] ∧
    (run (.chunk 101) (run (.cprMax 1 32 8) (copying 0x20000 0x100 0 0 id (fun t => { t with scratch := [(0, 5)] })))).mem = [(0x10000, 5), (0x10004, 2)] := by
  decide +kernel
/-- A chunk of a copy of one piece, at its home with the record as given. -/
def chunked (rec_ : Table Stream := []) (k : Chunk := { copy := 100, home := 3, work := [({ dst := 0x10000, dloc := 0x10000, n := 4 }, 5)] }) : State :=
  { demo with copies := [(100, { kind := .cpr, group := 16, team := 1, dst := 1, pieces := [{ dst := 0x10000, dloc := 0x10000, n := 4 }] })]
              chunks := [(101, k)], streams := rec_ }
theorem test_chunk_events : (run (.chunk 101) (chunked [(4096 * 100 + 3, { map := 1 })])).mem = [] ∧ (run (.chunk 101) chunked).mem = [(0x10000, 5)] ∧
    (run (.chunkAck 101) chunked).chunks = [] ∧ .copyComplete 100 ∈ (run (.chunkAck 101) chunked).agenda ∧
    ((run (.chunkAck 101) { chunked with copies := [] }).clusterOf 0).dropped = 1 ∧
    (run (.chunkRetry 101) (chunked [] { copy := 100, refused := true })).agenda = [.chunk 101] ∧
    (run (.chunkResend 101) chunked).chunks.map (·.2.resent) = [1] ∧ (run (.close 3 100) (chunked [(4096 * 100 + 3, {})])).streams = [] ∧
    (chunked).oldestRefused 101 (tget {} (chunked).chunks 101) = true ∧ (chunked).unsent 101 = false := by decide +kernel

/-- A matrix team on a core whose slot 0 is as given; the rest as a descriptor test. -/
def matrix (o : OpSlot := {}) (s : State := copying 0 0 0x20 0) (a : Word := 0) (q : OpSlot := {}) : State :=
  let t := { s.team with matrix := true }
  let s1 := (s.setTeam t).setGrp { s.grp with regs := s.grp.regs ++ [(64, a), (95, a)] }
  { s1 with clusters := [(0, { slots := [(0, o), (1, q)] })] }
theorem test_ready_matrix : Ready (matrix) [] [] ∧ Ready (matrix) [2] [] ∧ (matrix).fullyOn = true ∧ (matrix).team.matrix = true ∧ (matrix).lanesT ≠ 0 ∧
    Ready (matrix) (operandCodes 1 ++ quadRegs 8) [] ∧ (matrix).reserveRoom = true ∧ demo.team.matrix = false := by
  refine ⟨ready_plain _ _ _ ?_ ?_, ready_plain _ _ _ ?_ ?_, ?_, ?_, ?_, ready_plain _ _ _ ?_ ?_, ?_⟩ <;> decide +kernel
theorem test_slots : (after (.mclaim 0) demo).tcause = 0x06 ∧ ((run (.mclaim 0) (matrix)).opSlot 0).st = .claimed ∧
    (after (.mclaim 0) (matrix { st := .claimed })).tcause = 0x0106 ∧ (after (.mrel 0) (matrix)).tcause = 0x0206 ∧
    ((run (.mrel 0) (matrix { st := .loaded })).opSlot 0) = {} ∧ (after (.mrel 0) (matrix { st := .loaded, readers := 1 })).cur.wait = .slot := by decide +kernel
/-- Shapes: role, format and reserved bits; BL without a block format; an image of 2,048 bytes and one beyond. -/
theorem test_mshape : (after (.mshape 0 2) (matrix)).tcause = 0x0206 ∧ (after (.mshape 0 2) (matrix { st := .claimed } (copying 0 0 0 0) 0x80000000)).tcause = 0x0105 ∧
    (after (.mshape 0 2) (matrix { st := .claimed } (copying 0 0 0 0) 0x04000001)).tcause = 0x0205 ∧
    (after (.mshape 0 2) (matrix { st := .claimed } (copying 0 0 0 0) 0x00000F04)).tcause = 0x0305 ∧
    ((run (.mshape 0 2) (matrix { st := .claimed } (copying 0 0 0 0) 0x00000F03)).opSlot 0).st = .shaped := by decide +kernel
/-- `mld` of one line of 32 bytes, and its completion. -/
def tiled : State := run (.mld 0 1 8) (matrix { st := .shaped })
theorem test_mld : (tiled.opSlot 0).busy = true ∧ tiled.copies.map (fun c => [c.2.bytes, c.2.slot]) = [[32, 0]] ∧
    ((run (.copyComplete 100) (fetched 100 tiled)).opSlot 0).st = .loaded ∧ ((run (.copyComplete 100) (fetched 100 tiled)).opSlot 0).image.map (·.1) = [0, 4] ∧
    (after (.mld 0 1 8) (matrix { st := .claimed })).tcause = 0x0306 ∧ (after (.mld 0 1 8) (matrix { st := .shaped } (copying 0 0 0x1F 0))).tcause = 0xC010 := by
  decide +kernel
/-- `mst` of accumulator 2 as binary16, its snapshot, and its completion. -/
def storing : State := run (.mst 1 2 8) (matrix {} (copying 0 0 0x20 0x00900000))
theorem test_mst : storing.cluster.reserve.map (fun r => (r.op, r.engine)) = [(.snap 2 100, 0)] ∧ tget 0 storing.grp.count 4 = 1 ∧
    (after (.mst 1 2 8) (matrix {} (copying 0 0 0x20 0x00700000))).tcause = 0xC010 ∧ (after (.mst 1 2 8) (matrix {} (copying 0 0 0x1F 0x00900000))).tcause = 0xC010 := by
  decide +kernel
theorem test_engine_requests : (run (.mzero 1) (matrix)).cluster.reserve.map (·.op) = [.zero 1] ∧ (run (.macc 1 2) (matrix)).cluster.reserve.map (·.op) = [.acc 1 2] ∧
    (after (.mma 1 0 1 2) (matrix)).tcause = 0x0206 ∧ (after (.mma 1 0 1 2) (matrix { st := .shaped } (copying 0 0 0 0) 0 { st := .loaded })).tcause = 0x0406 := by
  decide +kernel
/-- Two loaded slots of one line by 16 elements of binary16: A holds 2.0 first, B 3.0. -/
def multiplying (f : Word := 0) : State := matrix { st := .loaded, image := [(1, 0x40)] } (copying 0 0 0 0) f { st := .loaded, shape := 0x40000000, image := [(1, 0x42)] }
theorem test_mma_checks : (after (.mma 1 0 0 2) (multiplying)).tcause = 0x0405 ∧ (after (.mma 1 0 1 2) (multiplying 1)).tcause = 0x0605 ∧
    (after (.mma 1 0 1 2) (multiplying 0x01000100)).tcause = 0xC210 ∧ (run (.mma 1 0 1 2) (multiplying)).cluster.reserve.length = 1 ∧
    (tget ({} : OpSlot) (run (.mma 1 0 1 2) (multiplying)).cluster.slots 1).readers = 1 := by decide +kernel
/-- EngineWork: the pass granted, its slots read, and its result added; a ramp after long idling. -/
def granted : State := run (.passGrant 0 0) (run (.mma 1 0 1 2) (multiplying))
theorem test_engine : let read := run (.computePhaseEnd 0 0) granted
    ((run (.mma 1 0 1 2) (multiplying)).nextGrant 0 0).isSome = true ∧ granted.cluster.reserve.map (·.granted) = [true] ∧
    read.cluster.reserve.map (fun r => r.read.isSome) = [true] ∧ (tget ({} : OpSlot) read.cluster.slots 1).readers = 0 ∧
    ((run (.passComplete 0 0) read).engine 0 0).acc 1 0 = 0x40C00000 ∧ (run (.passComplete 0 0) read).cluster.reserve = [] ∧
    run (.passComplete 0 0) granted = granted := by decide +kernel
theorem test_ramp : let s : State := { run (.mma 1 0 1 2) (multiplying) with cycle := 6000000 }
    ((run (.passGrant 0 0) s).engine 0 0).ramping = true ∧ ((run (.rampEnd 0 0) (run (.passGrant 0 0) s)).engine 0 0).idleSince = 6000000 ∧
    run (.rampEnd 0 0) s = s := by decide +kernel

/-! ### Queues and tasks (R56, R57, R353 to R372) -/

/-- The bytes of a number at an address, zeros unlisted. -/
def cellsAt (a x n : Nat) : List Host.Cell := (List.range n).filterMap (fun i => if x / 256 ^ i % 256 = 0 then none else some (a + i, BitVec.ofNat 8 (x / 256 ^ i)))
/-- A launch control block at 0x8000 that sets every field group: one group a team, its code at 0x100000, and the domain, limits and
priority given. -/
def block (more : Nat := 0) : Nat := 0x3FF * 2 ^ 64 + 2 ^ 112 + 0x100000 * 2 ^ 128 + 0x1000 * 2 ^ 224 + 0x100000 * 2 ^ 320 + 8 * 2 ^ 480 + more
/-- An entry of a type with flags, sequence number, address, value and DONE, sealed with its CRC. -/
def entryOf (ty flags seq addr val : Nat) (done : Nat := 0) : Nat :=
  let x := ty + flags * 2 ^ 8 + seq * 2 ^ 32 + addr * 2 ^ 64 + val * 2 ^ 128 + done * 2 ^ 192
  x + crc32c x 60 * 2 ^ 480
/-- Queue 2 of context 0 with one entry, and a block and a counter of 5 at 0x9000 in the context's memory. -/
def queued (x : Nat) (q : Queue → Queue := id) (lcb : Nat := block) : State := { State.reset with
  queues := [(2, q { base := 0x4000, en := true, pcap := 7, log2n := 6, tail := 1 })]
  mem := paged 0x1F ++ cellsAt 0x4000 x 64 ++ cellsAt 0x8000 lcb 256 ++ [(0x9000, 5)] }
theorem test_queue_registers : ((run (.qctlWrite 2 0xB3000003) State.reset).queue 2) = { en := true, pcap := 3, log2n := 6, ctx := 3 } ∧
    ((run (.qctlWrite 2 0xB1000003) State.reset).queue 2).en = false ∧ (run (.qctlWrite 64 0xB3000003) State.reset).queues = [] ∧
    ((run (.qctlWrite 2 0xB4000003) (queued 0)).queue 2).pcap = 3 ∧ ((run (.qctlWrite 2 0xB4000003) (queued 0)).queue 2).log2n = 6 ∧
    ((run (.qctlWrite 2 0) (queued 0)).queue 2) = { base := 0x4000, log2n := 6, tail := 1, head := 1 } := by decide +kernel
theorem test_queue_tail : ((run (.qtailWrite 2 64) (queued 0)).queue 2).tail = 64 ∧ ((run (.qtailWrite 2 65) (queued 0)).queue 2).tail = 1 ∧
    ((run (.qtailWrite 2 65) (queued 0)).queue 2).ovf = true ∧ (run (.qtailWrite 2 65) (queued 0)).interrupts = [{ what := 5, a := 2 }] ∧
    ((run (.ovfClear 2) (queued 0 (fun q => { q with ovf := true }))).queue 2).ovf = false ∧ run (.ovfClear 2) (queued 0) = queued 0 ∧
    ((run (.haltClear 2) (queued 0 (fun q => { q with halt := true }))).agenda) = [.launchEntry 2] ∧ run (.haltClear 2) (queued 0) = queued 0 := by decide +kernel
/-- Malformed entries, by the type of the event and the cause that the queue shows. -/
def causeOf (s : State) : List Nat := [(s.queue 2).cause, (s.queue 2).head, s.interrupts.length]
theorem test_malformed : (queued 5).entry 2 = some 5 ∧ causeOf (run (.launchEntry 2) (queued 5)) = [6, 0, 1] ∧
    causeOf (run (.nopEntry 2) (queued (entryOf 5 0 0 0 0))) = [1, 0, 1] ∧ causeOf (run (.nopEntry 2) (queued (entryOf 4 0 0 8 0))) = [2, 0, 1] ∧
    causeOf (run (.nopEntry 2) (queued (entryOf 4 0 1 0 0))) = [3, 0, 1] ∧ causeOf (run (.waitEntry 2) (queued (entryOf 2 0 0 0x9001 5))) = [4, 0, 1] ∧
    causeOf (run (.launchEntry 2) (queued (entryOf 1 0 0 0x8000 0))) = [5, 0, 1] ∧ causeOf (run (.waitEntry 2) (queued (entryOf 2 0 0 0x40000000 5))) = [4, 0, 1] := by
  decide +kernel
/-- NOP, WAIT met and not, SIGNAL with nothing before it and behind a launch, and a fenced entry. -/
theorem test_entries : (queued (entryOf 4 0 0 0 0)).entryCause ((queued 0).queue 2) (entryOf 4 0 0 0 0) = 0 ∧
    causeOf (run (.nopEntry 2) (queued (entryOf 4 2 0 0 0))) = [0, 1, 1] ∧ causeOf (run (.waitEntry 2) (queued (entryOf 2 0 0 0x9000 5))) = [0, 1, 0] ∧
    ((run (.waitEntry 2) (queued (entryOf 2 0 0 0x9000 6))).queue 2).waiting = true ∧
    causeOf (run (.waitRecheck 2) (queued (entryOf 2 0 0 0x9000 5) (fun q => { q with waiting := true }))) = [0, 1, 0] ∧
    causeOf (run (.waitRecheck 2) (queued (entryOf 2 0 0 0x9000 5))) = [0, 0, 0] := by decide +kernel
theorem test_signals : let s := run (.signalEntry 2) (queued (entryOf 3 0 0 0x9000 6) (fun q => { q with live := [{ launch := some 1 }] }))
    readLe (run (.signalEntry 2) (queued (entryOf 3 0 0 0x9000 6))).mem 0x9000 8 = 6 ∧ readLe s.mem 0x9000 8 = 5 ∧ (s.queue 2).live.length = 2 ∧
    run (.nopEntry 2) (queued (entryOf 4 1 0 0 0) (fun q => { q with live := [{ launch := some 1 }] })) = 
      { queued (entryOf 4 1 0 0 0) (fun q => { q with live := [{ launch := some 1 }] }) with rotor := 3 } := by decide +kernel
/-- A launch of one item; and one without a block, above PCAP, and with a DONE of its own. -/
theorem test_launch_entry : let s := run (.launchEntry 2) (queued (entryOf 1 0 0 0x8000 1 0x9000))
    s.launches.map (fun l => (l.1, l.2.items, l.2.doneAt)) = [(1, 1, some 0x9000)] ∧ (s.queue 2).live.map (·.launch) = [some 1] ∧
    s.tasks.map (fun t => (t.1, t.2.launch, t.2.ord)) = [(2, 1, 0)] ∧ s.agenda = [.regionLoad 2] := by decide +kernel
theorem test_launch_entry_premises : let s := queued (entryOf 1 0 0 0x8000 1)
    (s.resolve 0 0x8000 true).isSome = true ∧ s.recordFree (s.lcbHome 0 0x8000) = true ∧
    (s.rangeRoom s.nextId { items := 1, die := s.cdies.headD 0 }) = true ∧ causeOf (run (.launchEntry 2) (queued (entryOf 1 0 0 0xA000 1))) = [7, 0, 1] ∧
    causeOf (run (.launchEntry 2) (queued (entryOf 1 0 0 0x8000 1) (fun q => { q with pcap := 2 }) (block (3 * 2 ^ 88)))) = [7, 0, 1] ∧
    causeOf (run (.launchEntry 2) (queued (entryOf 1 0 0 0x8000 1) id (block (0x9000 * 2 ^ 1536)))) = [7, 0, 1] := by decide +kernel
/-- A table of 256 records is full: the entry waits. -/
theorem test_launch_entry_waits : let s := { queued (entryOf 1 0 0 0x8000 1) with launches := (List.range 256).map (fun n => (n + 10, { st := .running, home := 1 })) }
    s.recordFree 1 = false ∧ (run (.launchEntry 2) s).queues = s.queues ∧ (run (.launchEntry 2) s).launches.length = 256 := by decide +kernel
/-- Lane 0 of the demo's team alone in T, with an address in `v2`-`v3` and a count in `v4`; its launch may create some launches. -/
def creating (addr n : Word) (l : Launch → Launch := id) (lcb : Nat := block) (held : Table Launch := []) (g : Group → Group := id) : State :=
  let s := demo (fun g' => g { withRegs 0x08 [(64, addr), (128, n)] g' with preds := [(1, 1)] }) id
    (fun x => l { x with home := 1, lcb := { x.lcb with spawns := 4, bin := 0x8000, prio := 1 } })
  { s with mem := paged 0x1F ++ cellsAt 0x8000 lcb 256, launches := s.launches ++ held }
def heldOne (l : Launch → Launch := id) : Table Launch :=
  [(7, l { st := .held, home := 1, items := 3, creator := some 5, pins := [{ identity with va := 0x20000, pa := 0x20000, bits := 12 }], lcb := { addr := 0x8000, binBuf := 0x20000, binCap := 4 } })]
theorem test_ready_tasks : Ready (creating 0x8000 1) (regs true 2 ++ [4]) [1] ∧ Ready (creating 0x8000 1) (regs true 2 ++ [4]) [] ∧
    Ready (creating 0x8000 1) (regs true 2) [] ∧ Ready (creating 0x8000 1) [4] [1] ∧ lanesOf (creating 0x8000 1).lanesT = [0] ∧
    risesFrom 0 (creating 0x8000 1).launches = true ∧ Rules.performed (creating 0x8000 1) := by
  refine ⟨ready_plain _ _ _ ?_ ?_, ready_plain _ _ _ ?_ ?_, ready_plain _ _ _ ?_ ?_, ready_plain _ _ _ ?_ ?_, ?_, ?_, ?_, ?_, ?_⟩ <;> decide +kernel
/-- Each failure of a spawn, in its order: a count of 0, no block, no SPAWNS left, a duplicate, no record. -/
theorem test_spawn_fails : (after (.spawn 1 2 4) (creating 0x8000 0)).reg 1 0 = 0x80000005 ∧ (after (.spawn 1 2 4) (creating 0x8080 1)).reg 1 0 = 0x80000003 ∧
    (after (.spawn 1 2 4) (creating 0xA000 1)).reg 1 0 = 0x80000003 ∧ (after (.spawn 1 2 4) (creating 0x8000 1 (fun l => { l with spawned := 4 }))).reg 1 0 = 0x80000002 ∧
    (after (.spawnh 1 2 4) (creating 0x8000 1 id block (heldOne))).reg 1 0 = 0x80000004 ∧
    (after (.spawn 1 2 4) (creating 0x8000 1 id block ((List.range 255).map (fun n => (n + 10, { st := .running, home := 1 }))))).reg 1 0 = 0x80000001 := by
  decide +kernel
theorem test_spawn : let t := run (.spawn 1 2 4) (creating 0x8000 33)
    t.grp.reg 1 0 = 0 ∧ t.launches.map (fun l => [l.1, l.2.items, l.2.spawned, l.2.children, l.2.lcb.prio]) = [[5, 32, 1, 1, 1], [100, 33, 0, 0, 0]] ∧
    (t.launchOf 100).st = .running ∧ (t.launchOf 100).creator = some 5 ∧ t.tasks.map (fun x => (x.2.launch, x.2.ord)) = [(100, 0), (100, 1)] := by decide +kernel
/-- Two lanes, in order: the second `spawnh` of one block meets the first one's held launch. -/
theorem test_spawns_in_order : let s := creating 0x8000 33
    let s2 := s.setGrp { s.grp with absent := 0x7FFFFFFE, preds := [(1, 0x80000001)], regs := s.grp.regs ++ [(95, 0x8000), (127, 0), (159, 9)], cur := { s.grp.cur with mask := 0x80000001 } }
    lanesOf s2.lanesT = [0, 31] ∧ (after (.spawnh 1 2 4) s2).reg 1 0 = 0 ∧ (after (.spawnh 1 2 4) s2).reg 1 31 = 0x80000004 := by decide +kernel
theorem test_spawnh : let t := run (.spawnh 1 2 4) (creating 0x8000 33)
    (t.launchOf 100).st = .held ∧ (t.launchOf 5).children = 0 ∧ (t.launchOf 5).spawned = 1 ∧ t.tasks = [] ∧ t.grp.reg 1 0 = 0 := by decide +kernel
theorem test_spawn_premises : let s := creating 0x8000 1
    (s.resolve 0 0x8000 false).isSome = true ∧ s.spawnsOut 5 = false ∧ s.recordFree (s.lcbHome 0 0x8000) = true ∧ s.ancestors 5 = [5] ∧ s.nextId = 100 ∧
    (s.heldLaunch 0 0x8000).isSome = false ∧ s.rangeRoom s.nextId { items := 1, die := 0 } = true ∧
    ({ s with txns := [(9, { group := 16, op := .store, lanes := [{}] })] } : State).coveredInFlight { classes := 7, loads := false, stores := true } = true ∧
    (after (.spawn 1 2 4) { s with txns := [(9, { group := 16, op := .store, lanes := [{}] })] }).cur.wait = .slot := by decide +kernel
theorem test_patch : ((run (.patch 2 4) (creating 0x8000 9 id block (heldOne))).launchOf 7).items = 12 ∧
    ((run (.patch 2 4) (creating 0x8000 9 id block (heldOne fun l => { l with items := 2 ^ 62 - 3 }))).launchOf 7).items = 2 ^ 62 ∧
    ((run (.patch 2 4) (creating 0xA000 9 id block (heldOne))).launchOf 7).items = 3 := by decide +kernel
theorem test_release_held : let t := run (.release 2) (creating 0x8000 0 id block (heldOne))
    (t.launchOf 7).st = .running ∧ (t.launchOf 5).children = 1 ∧ t.tasks.length = 1 ∧ (t.launchOf 7).creator = some 5 ∧
    .launchComplete 7 ∈ (run (.release 2) (creating 0x8000 0 id block (heldOne fun l => { l with items := 0 }))).agenda ∧
    ((run (.release 2) (creating 0xA000 0 id block (heldOne))).launchOf 7).st = .held := by decide +kernel
/-- Bins: none, one without a buffer, a live one, a held one with room and a full one, and one that is created. -/
def buffered : Nat := block (0x20000 * 2 ^ 1408 + 4 * 2 ^ 1472)
theorem test_bin : let t := run (.bin 1 4) (creating 0 9 id block (heldOne))
    t.grp.reg 1 0 = 3 ∧ (t.launchOf 7).items = 4 ∧ (t.launchOf 7).fromBin = true ∧ t.homeLe 0x2000C 4 = 9 ∧
    (after (.bin 1 4) (creating 0 9 id block (heldOne fun l => { l with items := 4 }))).reg 1 0 = 0x80000006 ∧
    (after (.bin 1 4) (creating 0 9 id block (heldOne fun l => { l with lcb := { l.lcb with binBuf := 0 } }))).reg 1 0 = 0x80000003 ∧
    (after (.bin 1 4) (creating 0 9 (fun l => { l with lcb := { l.lcb with bin := 0 } }))).reg 1 0 = 0x80000003 ∧
    (after (.bin 1 4) (creating 0 9 id block (heldOne ++ [(8, { st := .running, fromBin := true, lcb := { addr := 0x8000 } })]))).reg 1 0 = 0x80000007 := by
  decide +kernel
theorem test_bin_creates : let t := run (.bin 1 4) (creating 0 9 id buffered)
    t.grp.reg 1 0 = 0 ∧ (t.launchOf 100).items = 1 ∧ (t.launchOf 100).st = .held ∧ t.homeLe 0x20000 4 = 9 ∧
    (after (.bin 1 4) (creating 0 9)).reg 1 0 = 0x80000003 ∧ (after (.bin 1 4) (creating 0 9 (fun l => { l with spawned := 4 }) buffered)).reg 1 0 = 0x80000002 ∧
    ((creating 0 9 id buffered).resolve 0 0x8000 false).isSome = true ∧ (creating 0 9 id buffered).binLive 0 0x8000 = false ∧
    (demo (withRegs 0x08 [])).lanesT = 0 := by decide +kernel
theorem test_placement : (rangeFor 1 300 3 1).ordinal 64 = 256 ∧ (rangeFor 1 300 3 1).hi = 108 ∧ (0 : Nat) < 3 := by decide
/-- Task 9, of the demo's launch, in the queue of cluster 0: as given, with the launch's block at hand. -/
def tasked (t : Task → Task := id) (l : Launch → Launch := id) (c : Nat := 0) : State := { State.reset with
  nextId := 100, awake := true, stage := 20, tasks := [(9, t { launch := 5, cluster := c, st := .loading })], clusters := [(c, { queue := [9] })]
  launches := [(5, l { st := .running, items := 33, pins := [identity], lcb := { addr := 0x8000, codeBase := 0x1000, teamSize := 2 } })], mem := paged 0x1F }
def wanted (len : Nat := 0x1000) (peer : Bool := false) : RegionLoad := { reg := 3, base := 0x20000, len, cls := 1, kind := .x, peer, tstride := 0x1000 }
/-- The task's first load: none left, one asked for, a symmetric one, a range across spans, a page that is absent. -/
theorem test_team_loads : ((run (.regionLoad 9) (tasked)).taskOf 9).st = .ready ∧
    (run (.regionLoad 9) (tasked fun t => { t with left := [wanted], ord := 1 })).reqs.map (fun r => [r.1, r.2.base, r.2.len, r.2.reg]) = [[100, 0x21000, 0x1000, 3]] ∧
    ((run (.regionLoad 9) (tasked fun t => { t with left := [wanted 0x1000 true] })).taskOf 9).got.map (·.1) = [3] ∧
    (run (.regionLoad 9) (tasked fun t => { t with left := [{ wanted with base := 2 ^ 56 - 0x800 }] })).kill.map (fun j => [j.cause, j.code, j.detail, j.pc]) = [[6, 16, 34, 3]] ∧
    (run (.regionLoad 9) (tasked fun t => { t with left := [{ wanted with base := 0x40000000 }] })).kill.map (fun j => [j.cause, j.code, j.detail]) = [[6, 0x13, 1]] ∧
    run (.regionLoad 9) (tasked fun t => { t with st := .ready }) = (tasked fun t => { t with st := .ready }) := by decide +kernel
theorem test_team_load_premises : let s := tasked fun t => { t with left := [wanted], ord := 1 }
    inOneSpan 0x21000 0x1000 = true ∧ inOneSpan (2 ^ 56 - 0x800) 0x1000 = false ∧ (match s.lookLoad 0 0 0x21000 0x1000 .x with
      | .pages ps => !(s.partsOf (pageSpans ps 0x21000 0x1000)).isEmpty && !s.selfConflict 9 .x (s.partsOf (pageSpans ps 0x21000 0x1000))
      | _ => false) = true := by
  decide +kernel
/-- A load that has ended: granted, tainted, SELF, and BUSY; and the retry 4,096 cycles later. -/
def loaded (status : Nat) : State := { tasked with reqs := [(50, { purpose := .load 9, team := 9, reg := 3, kind := .x, ended := some status, base := 0x20000, len := 128 })] }
theorem test_load_ends : ((run (.regionLoad 9) (loaded 0)).taskOf 9).got.map (fun r => (r.1, r.2.base)) = [(3, 0x20000)] ∧ (run (.regionLoad 9) (loaded 0)).interrupts = [] ∧
    (run (.regionLoad 9) (loaded 1)).interrupts = [{ what := 4, a := 5, b := 3 }] ∧ (run (.regionLoad 9) (loaded 5)).kill.map (·.cause) = [5] ∧
    ((run (.regionLoad 9) (loaded 2)).taskOf 9).st = .retry ∧ (loaded 2).reqs.find? (fun x => x.2.purpose == .load 9) ≠ none := by decide +kernel
theorem test_load_retry : let s := { tasked (fun t => { t with st := .retry }) (fun l => { l with lcb := { l.lcb with loads := [wanted] } }) with cycle := 4096 }
    ((run (.loadRetry 9) s).taskOf 9).st = .loading ∧ ((run (.loadRetry 9) s).taskOf 9).left = [wanted] ∧
    run (.loadRetry 9) { s with cycle := 4095 } = { s with cycle := 4095 } := by decide +kernel
/-- A ready task starts: two groups, 33 items. -/
def starting : State := tasked fun t => { t with st := .ready, got := [(3, { kind := .s, base := 0x20000, len := 128, all := true })] }
theorem test_team_start : let t := run (.teamStart 9) starting
    starting.nextTask 0 = some 9 ∧ starting.startable 0 (starting.taskOf 9) = some [0, 1] ∧ t.tasks = [] ∧ t.groups.map (fun g => (g.1, g.2.core)) = [(144, 0), (145, 1)] ∧
    (t.group 145).cur.mask = 1 ∧ (t.group 145).absent = 0xFFFFFFFE ∧ (t.group 144).cur.pc = 0x1000 ∧ (t.teamOf 9).g.map (·.1) = [3] ∧
    (t.launchOf 5).started = 1 := by decide +kernel
/-- An ending team: with nothing held, with a borrow held, and with an access on its way. -/
def endingTeam (g : Table Region := []) : State := demo id (fun t => { t with st := .ending, g }) (fun l => { l with doneAt := some 0x9000 })
theorem test_team_ends : let t := run (.teamEnd 1) (endingTeam)
    t.teams = [] ∧ t.groups = [] ∧ (t.launchOf 5).ended = 1 ∧ t.agenda = [.launchComplete 5] ∧ run (.teamEnd 1) demo = demo ∧
    (endingTeam).txns = [] ∧ (endingTeam).reqs = [] ∧ (endingTeam).copies = [] := by decide +kernel
theorem test_team_returns : let t := run (.teamEnd 1) (endingTeam [(3, { kind := .s, base := 0x20000, len := 128, all := true, handle := 4 })])
    (t.teamOf 1).g = [] ∧ (t.teamOf 1).st = .ending ∧ t.reqs.length + t.agenda.length ≠ 0 := by decide +kernel
/-- The launch whose team has ended completes: DONE counts it; its creator has a child less; a held launch that it made goes on or is dropped. -/
def completing (held : Launch → Launch := id) : State := { demo with
  teams := [], groups := []
  launches := [(4, { st := .running, children := 2 }), (5, { demo.launch with creator := some 4, ended := 1, doneAt := some 0x9000 })] ++ heldOne held
  queues := [(2, { live := [{ launch := some 5, intr := true }] })], carried := [{ launch := 5, item := 0, slot := 0, value := none }] }
theorem test_launch_completes : let t := run (.launchComplete 5) (completing)
    tfind t.launches 5 = none ∧ (t.queue 2).live = [] ∧ t.carried = [] ∧ (t.launchOf 4).children = 1 ∧ (t.launchOf 7).st = .running ∧ (t.launchOf 7).creator = none ∧
    t.homeLe 0x9000 8 = 1 ∧ t.interrupts.map (·.what) = [7] ∧ tfind (run (.launchComplete 5) (completing fun l => { l with items := 0 })).launches 7 = none ∧
    run (.launchComplete 5) demo = demo := by decide +kernel
theorem test_launch_complete_premises : ((completing).launchOf 5).st = .running ∧ ((completing).launchOf 5).ended = ((completing).launchOf 5).teams ∧
    (completing).launches.Pairwise (fun a b => a.1 ≠ b.1) ∧ ((completing).launchOf 5).children = 0 := by decide +kernel
/-- Boost, and the budget: one slot over, then 2^20 more. -/
def spending (slots : Nat) (at_ : Option Nat := none) : State := demo id id (fun l => { l with slots, budgetAt := at_, low := 40, lcb := { l.lcb with budget := 100 } })
theorem test_boost : ((run (.boost 5) (spending 1)).launchOf 5).boosted = some 1 ∧ run (.boost 6) (spending 1) = spending 1 := by decide +kernel
theorem test_budget : let t := run (.budgetExceeded 5) (spending 101)
    (t.launchOf 5).budgetAt = some 101 ∧ t.grp.budgeted = true ∧ t.grp.deferred.map (fun d => (d.code, d.detail)) = [(0x38, 1)] ∧
    run (.budgetExceeded 5) (spending 100) = spending 100 ∧ (spending 101).groups.Pairwise (fun a b => a.1 ≠ b.1) := by decide +kernel
theorem test_budget_end : run (.budgetEnd 5) (spending 101 (some 101)) = spending 101 (some 101) ∧ run (.budgetEnd 5) (spending 101) = spending 101 ∧
    (((run (.budgetEnd 5) (spending (101 + 2 ^ 20) (some 101))).group 16).live) = 0 ∧ ((spending 101).group 16).live = 0x80000001 := by decide +kernel
/-- Balancing: a queue of nine tasks in cluster 1, one idle cluster, a range of another die, and a task that has waited. -/
def crowded (n : Nat := 9) : State := { tasked with
  tasks := (List.range n).map (fun k => (20 + k, { launch := 5, cluster := 1, ord := k, st := .ready })), clusters := [(1, { queue := (List.range n).map (20 + ·) })] }
theorem test_depth_exchange : ((run (.depthExchange 0) (crowded)).clusterOf 0).queue = [28] ∧ ((run (.depthExchange 0) (crowded)).taskOf 28).cluster = 0 ∧
    (crowded).shallowest 0 = 0 ∧ (run (.depthExchange 0) (crowded 7)).clusters = (crowded 7).clusters ∧
    (crowded).clusters.Pairwise (fun a b => a.1 ≠ b.1) := by decide +kernel
theorem test_steal : let s := { crowded 2 with launches := [(5, { st := .running, items := 64, lcb := { teamSize := 1 } })] }
    ((run (.steal 0) s).clusterOf 0).queue = [21] ∧ run (.steal 1) s = s ∧ (s.startable 0 (s.taskOf 21)).isSome = true ∧ s.depth 0 = 0 := by decide +kernel
theorem test_promotion : ((run (.taskAgePromote 9) { tasked with cycle := 2 ^ 20 }).taskOf 9).promoted = true ∧ run (.taskAgePromote 9) (tasked) = tasked ∧
    tfind (tasked).tasks 9 ≠ none := by decide +kernel
/-- A range of 64 teams on die 0, whose one neighbour that is enabled has none. -/
def lopsided (off : List Nat) : State := { State.reset with nextId := 100, topo := { disabled := off }, ranges := [(0, [{ launch := 5, hi := 64 }])] }
theorem test_die_exchange : (lopsided [2, 36]).neighbours 0 = [19] ∧ (lopsided [2, 36]).queuedTeams 0 = 64 ∧
    (tget [] (run (.dieDepthExchange 0) (lopsided [2, 36])).ranges 0).map (·.hi) = [32] ∧ (lopsided [2, 19, 36]).neighbours 0 = [] ∧
    run (.steal 0) (lopsided [2, 19, 36]) = lopsided [2, 19, 36] ∧ run (.dieDepthExchange 0) (lopsided [2, 19, 36]) = lopsided [2, 19, 36] := by decide +kernel
/-! ### Kills and pre-emption (R393 to R399) -/

/-- The demo's team with a copy, beside another domain's; a line that it holds dirty. -/
def doomed : State := { demo with
  launches := demo.launches ++ [(6, { st := .running, lcb := { fdom := 8 } }), (7, { st := .held })]
  teams := demo.teams ++ [(2, { st := .resident, launch := 6 })], groups := demo.groups ++ [(32, { team := 2 })]
  copies := [(50, { team := 1 }), (51, { team := 2 })], tasks := [(60, { launch := 5 }), (61, { launch := 6 })]
  clusters := [(0, { cache := [(0, ⟨1, true, 1, false⟩), (1, ⟨1, true, 2, false⟩)], queue := [60, 61] })] }
theorem test_kill : let t := run (.kill 0) doomed
    t.groups.map (·.1) = [32] ∧ t.teams.map (·.1) = [2] ∧ t.tasks.map (·.1) = [61] ∧ t.launches.map (fun l => (l.1, l.2.st)) = [(5, .killed), (6, .running)] ∧
    t.copies.map (fun c => (c.1, c.2.killed)) = [(50, true), (51, false)] ∧ (t.clusterOf 0).cache.map (·.1) = [1] ∧ (t.clusterOf 0).queue = [61] ∧
    t.cc.killReg ≠ 0 ∧ t.agenda = [.killComplete] := by decide +kernel
theorem test_kill_again : (run (.kill 0) { doomed with kill := [{ ctx := 0, whole := true, fdom := 0, cause := 1 }] }).groups = doomed.groups := by decide +kernel
/-- The kill completes: an X borrow of the dead team becomes taint, the record stands in the ring of four at 0x5000. -/
noncomputable def killed : State := { run (.kill (2 ^ 31)) demo with
  mem := [(0x21, 0x50), (0x28, 4)], ctxs := [(0, { killSeq := 5 })]
  circ := [(3, { home := 1, kind := .x, team := 1, spans := [(0, 128)] }), (4, { home := 1, kind := .s, team := 1 })] }
theorem test_kill_complete : let t := run .killComplete killed
    t.kill = [] ∧ t.cc.killReg = 0 ∧ t.launches = [] ∧ t.interrupts = [{ what := 8, a := 0, b := 0, c := 1 }] ∧ t.circ.map (fun e => (e.1, e.2.st)) = [(3, .taint)] ∧
    readLe t.mem 0x5040 8 = 0x0000010100000005 ∧ (t.ctxOf 0).killSeq = 6 ∧ run .killComplete demo = demo := by decide +kernel
theorem test_kill_complete_premises : killed.kill.map (fun j => [j.copies.length, j.code, j.detail, j.cause, j.lcb]) = [[0, 0, 0, 1, 0]] ∧
    (∀ x ∈ killed.circ, x.2.st = .held ∨ x.2.st = .taint) ∧ (∀ q ∈ killed.queues, q.2.live = []) ∧ killed.ctxField 0 0x28 4 = 4 ∧
    locDev 0x5040 = none ∧ locDev 0x507F = none := by decide +kernel
/-- Memory that gives context 0 a pool of one frame at 0x200000, and a team with a register, a predicate and traps in the demo's place. -/
def framed (w : Wait := .none) (st : TeamState := .resident) (frames : List Nat := []) : State := { demo (fun g => { withRegs 0 [(0, 7), (69, 9)] g with
    preds := [(1, 3)], user := [(1, 4)], tpc := 0x1234, taddr := 5, cur := { (withRegs 0 [] g).cur with wait := w } }) (fun t => { t with st, ix := 3, scr := 1024 }) with
  mem := [(0xA, 0x20), (0x10, 1)], ctxs := [(0, { frames })] }
theorem test_preemption : let t := run (.preemption 1) (framed (.barrier 2))
    (t.teamOf 1).st = .draining ∧ (t.teamOf 1).frame = 0 ∧ (t.ctxOf 0).frames = [0] ∧ t.grp.cur.wait = .none ∧ t.grp.regs = [(0, 7), (69, 9)] ∧ t.agenda = [.preemptSave 1] ∧
    (run (.preemption 1) (framed (.borrow 5))).grp.cur.wait = .borrow 5 ∧ run (.preemption 1) (framed .none .resident [0]) = framed .none .resident [0] ∧
    run (.preemption 1) (framed .none .draining) = framed .none .draining ∧ (framed).grp.dueTrap = none := by decide +kernel
/-- A team that has waited for its borrow while another waits for residency. -/
def stuck : State := { framed (.borrow 5) with
  cycle := 4096, reqs := [(5, { purpose := .bor, wait := true, team := 1, group := 16 })], clusters := [(0, { queue := [60] })], tasks := [(60, { st := .ready })] }
theorem test_borrow_wait : stuck.borrowStuck 1 = true ∧ (run (.borrowWaitPreempt 1) stuck).agenda = [.preemption 1] ∧ ((run (.borrowWaitPreempt 1) stuck).teamOf 1).forBorrow = true ∧
    run (.borrowWaitPreempt 1) (framed) = framed := by decide +kernel
/-- The save: header, registers, predicate, USER and trap registers in the frame. -/
theorem test_save : let s := framed .none .draining [0]
    let t := run (.preemptSave 1) s
    s.drained 1 = true ∧ (t.teamOf 1).st = .saved ∧ readLe t.mem 0x200000 4 = 0x31565358 ∧ readLe t.mem 0x200010 8 = 3 ∧ readLe t.mem 0x200007 1 = 1 ∧
    readLe t.mem 0x200400 4 = 7 ∧ readLe t.mem (0x200400 + 4 * 69) 4 = 9 ∧ readLe t.mem 0x202800 4 = 3 ∧ readLe t.mem 0x202824 4 = 4 ∧ readLe t.mem 0x202850 8 = 0x1234 ∧
    t.grp.regs = [] ∧ t.agenda = [.resume 1] ∧ run (.preemptSave 1) (framed) = framed := by decide +kernel
theorem test_save_fields : ((framed .none .draining [0]).frameFields 1).Pairwise (fun a b => a.1 + a.2.2 ≤ b.1 ∨ b.1 + b.2.2 ≤ a.1) ∧
    (∀ g ∈ ((framed .none .draining [0]).teamOf 1).g, g.2.kind = .empty ∨ g.2.peer = true) ∧ (framed .none .draining [0]).carried = [] := by decide +kernel
/-- A frame written by hand: register 2 of lane 5, predicate 1, USER1, TPC and one ready fragment. -/
def resuming : State := { demo id (fun t => { t with st := .saved, ix := 3 }) with
  awake := true, stage := 20
  ctxs := [(0, { frames := [0] })]
  mem := [(0xA, 0x20), (0x10, 1), (0x200000 + 0x400 + 4 * 69, 9), (0x200000 + 0x400 + 0x230D, 0x10), (0x202800, 3), (0x202824, 4), (0x202850, 0x34)] }
theorem test_resume : let t := resuming.restore 1 0 0 (resuming.teamOf 1) [0]
    (t.teamOf 1).st = .resident ∧ (t.teamOf 1).ix = 3 ∧ (t.ctxOf 0).frames = [] ∧ resuming.frameLe 0x200000 (0x400 + 4 * 69) 4 = 9 ∧ t.grp.pred 1 = 3 ∧ tget 0 t.grp.user 1 = 4 ∧ t.grp.tpc = 0x34 := by
  decide +kernel
theorem test_resume_premises : resuming.reqs = [] ∧ (resuming.placesFor (resuming.teamOf 1) [0]).head? = some (0, 0) ∧
    run (.resume 1) (framed) = framed := by decide +kernel
theorem test_resume_nowhere : ({ resuming with topo := { disabled := List.range 288 } } : State).placesFor (resuming.teamOf 1) [0] = [] ∧
    run (.resume 1) { resuming with topo := { disabled := List.range 288 } } = { resuming with topo := { disabled := List.range 288 } } := by decide +kernel
theorem test_resume_waits : run (.resume 1) { resuming with teams := [(1, { st := .saved, forBorrow := true })], reqs := [(5, { team := 1 })] } =
    { resuming with teams := [(1, { st := .saved, forBorrow := true })], reqs := [(5, { team := 1 })] } := by decide +kernel
/-! ### The device in its system, the network and the step (R85, R237 to R248, R370, R405 to R417) -/

/-- Host edge die 0 with an exported range of 1 MiB at 0x100000 and a bias table at 0x8000; port 1 with a CXL host. -/
def biased (h : HostEdge → HostEdge := id) (mem : List Host.Cell := []) (circ : Table Circ := []) : State := { State.reset with
  hostEdges := [(0, h { hdmBase := 0x100000, hdmLen := 0x100000, biasBase := 0x8000 })], ports := [(1, .cxl)], mem, circ }
/-- Page 0x109 in host bias. -/
def hosted (f : Option (Nat × Nat) := none) : State := biased (fun h => { h with bias := [9], flipping := f, cached := [(0x109010, 7), (0x10A000, 8)], waiting := [50] }) [(0x8001, 2)]
theorem test_bias_to_host : let t := run (.biasToHost 0 0x109001) (biased)
    (t.edge 0).biasSt = 2 ∧ readByte t.mem 0x8001 = 2 ∧ t.pageHost (t.edge 0) 0x109 = true ∧ ((run (.biasToHost 0 0x200001) (biased)).edge 0).biasSt = 2 ∧
    ((run (.biasToHost 0 0x109001) (biased id [] [(3, { spans := [(0x109F80, 0x80)] })])).edge 0).biasPage = 0x109 ∧
    ((run (.biasToHost 0 0x109001) (biased id [] [(3, { spans := [(0x109F80, 0x80)] })])).edge 0).biasSt = 3 ∧
    run (.biasToHost 0 0x109001) (biased fun h => { h with biasSt := 1 }) = (biased fun h => { h with biasSt := 1 }) := by decide +kernel
theorem test_bias_to_device : (hosted).pageHost ((hosted).edge 0) 0x109 = true ∧ ((run (.biasToDevice 0 0x109000) (hosted)).edge 0).flipping = some (0x109, 64) ∧
    (run (.biasToDevice 0 0x109000) (hosted)).agenda = [.birspi 0 [(0x109010, 7)]] ∧ ((run (.biasToDevice 0 0x10A000) (hosted)).edge 0).biasSt = 2 ∧
    (hosted).pageHost ((hosted).edge 0) 0x10A = false := by decide +kernel
theorem test_birspi : let t := run (.birspi 0 []) (hosted (some (0x109, 64)))
    (t.edge 0).flipping = none ∧ t.homeByte 0x109010 = 7 ∧ (t.edge 0).cached = [(0x10A000, 8)] ∧ readByte t.mem 0x8001 = 0 ∧ t.agenda = [.req 50] ∧
    run (.birspi 0 []) (hosted) = hosted ∧ ((hosted).edge 0).cached.Pairwise (fun a b => a.1 ≠ b.1) := by decide +kernel
theorem test_host_access : let t := run (.cxlHostAccess 1 true 0x10A000 9) (hosted)
    t.homeByte 0x10A000 = 9 ∧ tfind ((run (.cxlHostAccess 1 true 0x109000 9) (hosted)).edge 0).cached 0x109000 = some 9 ∧
    ((run (.cxlHostAccess 1 false 0x109000 9) (hosted)).edge 0).data = some (7 * 256 ^ 16) ∧ run (.cxlHostAccess 2 true 0x109000 9) (hosted) = hosted ∧
    run (.cxlHostAccess 1 true 0x300000 9) (hosted) = hosted ∧ ((hosted).edge 0).exports 0x10A = true := by decide +kernel
theorem test_cc_access : (run (.ccAccess true 0x9000 2 0x1234) State.reset).homeLe 0x9000 2 = 0x1234 ∧ State.reset.isDram 0x9000 = true ∧
    run (.ccAccess true 0x903F 2 5) State.reset = State.reset ∧ run (.ccAccess true (2 ^ 59) 2 5) State.reset = State.reset := by decide +kernel
theorem test_spdm : (run (.getVersion 8) State.reset).spdm = [{ port := 8, answer := .version 1 3 }] ∧ (run (.getCapabilities 1) (biased)).spdm.length = 1 ∧
    (run (.negotiateAlgorithms 9 3 2) State.reset).spdm.map (·.answer) = [.algorithms true false] ∧ (run (.getMeasurements 8 10) State.reset).spdm.map (·.answer) = [.refused] ∧
    (run (.keyExchange 8) State.reset).spdm.map (·.answer) = [.refused] ∧ run (.getDigests 0) State.reset = State.reset := by decide +kernel
theorem test_spdm_bodies (n : Nat) : (run (.challenge 8 n) State.reset).spdm = [{ port := 8, answer := .challengeAuth n (Config.freeMessage 0) }] ∧
    (run (.getCertificate 8) State.reset).spdm = [{ port := 8, answer := .certificate (Config.freeMessage 0) }] := ⟨rfl, rfl⟩
theorem test_topology : State.reset.topologyByte 0 = 0x58 ∧ State.reset.topologyByte 6 = 144 ∧ State.reset.topologyByte 0x38 = 0xFF ∧ State.reset.topologyByte 0xA = 0x80 := by
  decide +kernel
theorem test_power : (run (.reset true true) demo).awake = true ∧ (run (.reset true true) demo).groups = [] ∧ (run (.reset true false) demo).spdm.length = 2 ∧
    ((run .powerUpWave { State.reset with awake := true, stage := 19 }).topo.ready) = true ∧ (run .powerUpWave { State.reset with awake := true, stage := 19 }).cycle = 6992000 ∧
    (run .powerUpWave { State.reset with awake := true, stage := 2 }).cycle = 5700000 ∧ (run (.powerMeter 38001) State.reset).throttled = true ∧
    run .powerUpWave State.reset = State.reset := by decide +kernel
theorem test_domain : (run (.domainStart 3 8) State.reset).topo.devNum = some 3 ∧ run (.domainStart 512 8) State.reset = State.reset ∧
    tget Port.down (run (.cxlHostLink 2 1) State.reset).ports 2 = .cxl ∧ run (.cxlHostLink 8 1) State.reset = State.reset := by decide +kernel
theorem test_soft_errors : (run (.uncorrectableError 0 0x181) State.reset).poison = [3] ∧ (run .correctedError State.reset).corrected = 1 ∧
    (run (.uncorrectableError 1 4) { State.reset with chunks := [(4, {})] }).agenda = [.chunkResend 4] ∧ run (.uncorrectableError 1 4) State.reset = State.reset ∧
    (run (.uncorrectableError 2 7) State.reset).interrupts = [{ what := 13, a := 7 }] := by decide +kernel

/-- An error in a word of local memory; and where the register space lies. -/
theorem test_spoilt_words : let s := run (.uncorrectableError 3 (2 ^ 20)) demo
    s.wordBad true 1 0 = true ∧ demo.wordBad true 1 0 = false ∧ isRegSpace Config.regSpace = true ∧ State.reset.isDram Config.regSpace = false := by decide +kernel

/-- Packet 9 of transaction 8, as given. -/
def packet (k : Packet → Packet := id) (t : Txn := {}) : State := { State.reset with
  cycle := 1, nextId := 100, awake := true, stage := 20, txns := [(8, t)], net := { packets := [(9, k { txn := 8, at_ := 1, dst := 1, cls := 1 })] } }
theorem test_first_at : Rules.FirstAt (packet) 1 9 { txn := 8, at_ := 1, dst := 1, cls := 1 } ∧ (packet).cycle % 8 ≠ 0 := by
  refine ⟨⟨rfl, rfl, rfl, rfl, rfl, by decide, List.pairwise_singleton _ _, fun x hx hn => ?_⟩, by decide⟩
  simp only [packet, id, List.mem_singleton] at hx
  subst hx
  exact absurd rfl hn
/-- At its destination: a request, a response to a load and one to a store; to another die; and with no channel nearer. -/
theorem test_routers : isMdie 1 = true ∧ isMdie 0 = false ∧ (run (.packetArrive 1) (packet)).agenda = [.homeRequest 8] ∧ (run (.packetArrive 1) (packet)).net.packets = [] ∧
    (run (.packetArrive 1) (packet fun k => { k with response := true })).agenda = [.loadReply 8] ∧
    (run (.packetArrive 1) (packet (fun k => { k with response := true }) { op := .store })).agenda = [.storeAck 8] ∧
    (run (.packetArrive 1) (packet fun k => { k with dst := 5 })).net.packets.map (fun k => (k.2.next, k.2.path.length)) = [(3, 2)] ∧
    (run (.packetArrive 1) (packet fun k => { k with dst := 290 })).net.packets.map (fun k => (k.2.next, k.2.path)) = [(290, [1100])] := by decide +kernel
/-- A full queue at the destination sends a request on; and a packet whose nearer channels are retired takes another. -/
def crowdedHome : State := { packet with
  txns := (List.range 64).map (fun n => (n + 8, { lanes := [{}] })), net := { (packet).net with queues := [(1, (List.range 64).map (· + 8))] } }
theorem test_deflections : (crowdedHome.queued 1).length = 64 ∧ crowdedHome.topWaiting { txn := 8, at_ := 1, dst := 1, cls := 1 } = true ∧
    (run (.packetArrive 1) crowdedHome).net.packets.map (fun k => k.2.refused) = [true] ∧
    (let r : State := { packet (fun k => { k with dst := 5 }) with topo := { retired := [edgeNumber 1 2, edgeNumber 1 19] } }
     (run (.packetArrive 1) r).net.packets.map (fun k => k.2.next) = [18]) := by decide +kernel
/-- BufferedLane: in its slot a packet of class O at its destination is delivered, one for another M-die takes its route, and one for a C-die
leaves by the local channel. -/
def laned (k : Packet → Packet := id) : State :=
  { packet (fun p => k { p with cls := 0, event := some (.correctedError) }) with cycle := 8 }
theorem test_lane : (laned).standing 1 true = (laned).net.packets ∧ (laned).laneBehind 9 ((laned).packet 9) = false ∧ (laned).deviceAnswers 0 = true ∧
    (run (.packetArrive 1) (laned)).agenda = [.correctedError] ∧ (run (.packetArrive 1) (laned)).net.packets = [] ∧
    (run (.packetArrive 1) (laned fun k => { k with dst := 5 })).net.packets.map (fun k => (k.2.next, k.2.path.length)) = [(3, 2)] ∧
    (run (.packetArrive 1) (laned fun k => { k with dst := 2 })).net.packets.map (fun k => (k.2.next, k.2.path.length)) = [(2, 1)] := by decide +kernel
theorem test_packet_ages : let s : State := { packet (fun k => { k with waiting := true }) with cycle := 2 ^ 25 }
    ((run (.packetOld 9) s).packet 9).old = true ∧ run (.packetOld 9) (packet) = packet ∧ (run (.injectStarve 1) s).net.starving = [1] ∧
    run (.injectStarve 1) (packet) = packet ∧ run (.packetOld 8) s = s := by decide +kernel
/-- Packets of the fabric on plane 2: for device 3, for this device, and by way of device 3. -/
def crossing (k : Packet → Packet := id) : State := packet (fun p => k { p with fabric := true, plane := 2, dstDev := 3, at_ := 290 })
theorem test_fabric : (run (.fabricPacket 9) (crossing fun k => { k with fresh := true })).net.packets.map (fun k => (k.2.next, k.2.path)) = [(1000, [1204])] ∧
    (run (.fabricPacket 9) (crossing fun k => { k with dstDev := 0 })).net.packets.map (fun k => (k.2.fabric, k.2.next)) = [(false, 1)] ∧
    (run (.fabricPacket 9) (crossing fun k => { k with at_ := 1000 })).net.packets = [] ∧
    (run (.fabricPacket 9) (crossing fun k => { k with at_ := 1000, dstDev := 0 })).net.packets.map (fun k => (k.2.next, k.2.path)) = [(290, [1205])] ∧
    (run (.fabricPacket 9) (crossing fun k => { k with at_ := 1000, viaDev := some 3, dstDev := 0 })).net.packets.map (fun k => k.2.viaDev) = [none] ∧
    run (.fabricPacket 9) (packet) = packet ∧ (crossing).topo.planes.getLsbD 2 = true := by decide +kernel
/-- A packet that is first at its fabric edge. -/
theorem test_first_edge : Rules.FirstEdge (crossing) 9 ((crossing).packet 9) := by
  refine ⟨rfl, rfl, rfl, by decide, by decide, by decide, List.pairwise_singleton _ _, fun x hx hn => ?_⟩
  simp only [crossing, packet, id, List.mem_singleton] at hx
  subst hx
  exact absurd rfl hn
/-- Two packets for one output: the older has it. -/
theorem test_fabric_conflict : let s : State := { crossing with net := { (crossing).net with packets := (crossing).net.packets ++ [(10, { fabric := true, plane := 2, dstDev := 3, old := true })] } }
    s.outranks { fabric := true, plane := 2, dstDev := 3, old := true } (s.packet 9) = true := by decide +kernel
/-- Class O on its pair's plane: within its credit it leaves, beyond it is held; and credit that returns lets the first one held try again. -/
def credited (used : List Nat) : State :=
  { crossing (fun k => { k with cls := 0 }) with net := { (crossing (fun k => { k with cls := 0 })).net with used := [(creditKey 0 3 2, used)] } }
theorem test_credit : (run (.fabricPacket 9) (credited [2])).net.packets.map (fun k => (k.2.credited, k.2.path)) = [(true, [1204])] ∧
    tget [] (run (.fabricPacket 9) (credited [2])).net.used (creditKey 0 3 2) = [2, 1] ∧
    tget [] (run (.fabricPacket 9) (credited [6])).net.held (creditKey 0 3 2) = [9] := by decide +kernel
theorem test_credit_returns : let s : State := { packet with net := { held := [(creditKey 0 3 3, [8])], used := [(creditKey 0 3 3, [2, 1])] } }
    s.planeO 0 3 = some 3 ∧ (run (.creditReturn 3 3) s).agenda = [.fabricPacket 8] ∧
    tget [] (run (.creditReturn 3 3) s).net.used (creditKey 0 3 3) = [1] := by decide +kernel
/-- A link with packet 9 on its way, under sequence number 4. -/
def flying (l : Link → Link := id) : State := let s := packet (fun k => { k with path := [2], next := 3 })
  { s with net := { s.net with links := [(2, l { buffer := [{ seq := 4, packet := 9, ctx := 0, fdom := 0 }], next := 5, expect := 4 })] } }
theorem test_flit : let t := run (.flitReceive 2 4 true) (flying)
    (t.linkOf 2).buffer = [] ∧ (t.linkOf 2).expect = 5 ∧ t.net.packets.map (fun k => k.2.at_) = [3] ∧ t.agenda = [.packetArrive 3] ∧
    run (.flitReceive 2 5 true) (flying) = flying ∧ (run (.flitReceive 2 4 false) (flying)).agenda = [.replayRequest 2 4] ∧
    run (.flitReceive 2 4 true) (flying fun l => { l with retired := true }) = flying fun l => { l with retired := true } := by decide +kernel
theorem test_replay : (run (.replayRequest 2 4) (flying)).agenda = [.flitReceive 2 4 true] ∧ (run (.replayRequest 2 4) (flying fun l => { l with replays := 16 })).agenda = [.linkRetrain 2] ∧
    ((run (.linkRetrain 2) (flying)).linkOf 2).retrained = 1 ∧ run (.linkRetrain 2) (flying fun l => { l with retired := true }) = flying fun l => { l with retired := true } := by
  decide +kernel
theorem test_link_settle : let t := run (.linkSettle 2 true) { flying with ctxs := [(3, {})] }
    (t.linkOf 2).retired = true ∧ t.net.halting = [3] ∧ (t.ctxOf 3).halted = true ∧ ((run (.linkRetire 2) t).ctxOf 3).halted = false ∧ t.agenda = [.linkRetire 2] ∧ (run (.linkSettle 2 false) (flying)).net.packets = [] ∧
    (run (.linkSettle 2 false) (flying)).interrupts.map (fun i => (i.what, i.a)) = [(12, 2)] ∧ (run (.linkRetire 2) (flying)).topo.retired = [1] ∧
    (run (.linkRetire 1203) (flying)).topo.planes.getLsbD 1 = false ∧ (run (.linkRetire 1203) (flying)).topo.retired = [] := by decide +kernel

/-! ### Steps -/

/-- The demo's group with a word at its PC, its event script empty and its timers done. -/
def stepping (w : Nat) : State := { demo with mem := cellsAt 0x1000 w 4 }
theorem test_step_issues : (match (stepping 0x48041001).move with | (.issue k, s1) => k == 16 && (({ s1 with cur := 16 } : State).codePa 0x1000 == some 0x1000) | _ => false) = true ∧
    (stepping 0x48041001).grp.dueTrap = none ∧ (stepping 0x48041001).pick = some 16 := by decide +kernel
theorem test_step_runs : (match step (stepping 0x48041001) with | .next t => (t.grp.reg 2 0, t.grp.cur.pc) | _ => (0, 0)) = (1, 0x1004) := by decide +kernel
theorem test_step_traps : (match step (stepping 0) with | .next t => (t.grp.tcause, t.grp.cur.pc) | _ => (0, 0)) = (0x0101, 0x1800) := by decide +kernel
theorem test_step_outside : (match step (demo fun g => { g with cur := { g.cur with pc := 0x2000 } }) with | .next t => t.grp.tcause | _ => 0) = 0x0101 := by decide +kernel
theorem test_step_poison : (stepping 0x48041001).codePoisoned 0x1000 = false ∧
    ({ stepping 0x48041001 with poison := [0x1000 / 128], cur := 16 } : State).codePoisoned 0x1000 = true ∧
    (match step { stepping 0x48041001 with poison := [0x1000 / 128] } with
      | .next t => (t.stopped, t.grp.cur.pc, t.interrupts.map (·.what)) | _ => ([], 0, [])) = ([(0, 0)], 0x1000, [10]) := by decide +kernel
theorem test_step_deferred : (demo fun g => { g with deferred := [{ code := 0x38, detail := 1, frag := 0 }] }).grp.dueTrap ≠ none ∧
    (match step (demo fun g => { g with deferred := [{ code := 0x38, detail := 1, frag := 0 }] }) with | .next t => t.grp.tcause | _ => 0) = 0x0138 := by decide +kernel
theorem test_step_events : (match step { demo with agenda := [.correctedError] } with | .next t => (t.corrected, t.agenda) | _ => (0, [])) = (1, []) ∧
    Event.Means .correctedError .correctedError := ⟨by decide +kernel, by constructor⟩
/-- Of two groups one waits for a register: its wait counts from now. -/
theorem test_ready_groups : let s : State := { stepping 0x48041001 with
      cycle := 70, groups := (stepping 0x48041001).groups ++ [(17, { (demo).grp with busy := [(2, 9)], team := 1 })] }
    s.ready.length = 2 ∧ (s.readied.group 17).stood = 70 ∧ (s.readied.group 16).stood = 0 := by decide +kernel
/-- The script may let time pass although a group can issue. -/
theorem test_turns : (match step { demo with turns := [0] } with | .next t => (t.cycle, t.grp.cur.pc) | _ => (0, 0)) = (2, 0x1000) := by decide +kernel
theorem test_fetch_word : (match step (State.reset.withFetchWord 32 0x48041001) with | .next t => t.grp.reg 2 0 | _ => 0) = 1 ∧
    decodeTableWord 32 0x48041001 = some (.addi 0 2 2 1) := by decide +kernel
theorem test_variable_words : (Instr.div 1 2 3).wf = true ∧ (Instr.div 1 2 3).isVariable = true ∧ decode (encode (.div 1 2 3) + 2 ^ 23) = .error 5 ∧
    (0x8C000000 / 2 ^ 26 = 0x23) ∧ decode 0x8C000000 = .error 1 := by decide +kernel
/-- A memory in canonical form whose group steps; an instruction at user level in a context that is no system context. -/
theorem test_whole_premises : Memory.wf (stepping 0x48041001).mem = true ∧ (Instr.addi 0 2 2 1).isEvent = false ∧ demo.grp.cur.handler = false ∧
    demo.isSystem demo.team.ctx = false ∧ (match exec (.addi 0 2 2 1) demo with | .next _ => true | _ => false) = true := by decide +kernel
/-- Admission: a pair that is none, a gap that falls short, and a busy source. -/
def gapped (schk : Word) (owed : List Owed) (busy : List (Nat × Nat) := []) : State :=
  { demo (fun g => { withRegs 0 [(64, 5), (95, 6)] g with owed, busy }) with ctxs := [(0, { exctl := schk })] }
theorem test_admission : (after (.add 0 3 2 5) (demo (withRegs 0x0180 []))).tcause = 0x0301 ∧ (after (.add 0 3 2 2) (gapped 1 [{ code := 2, left := 1, lanes := 1, old := [] }])).tcause = 0x0203 ∧
    (gapped 1 []).ctx.exctl.getLsbD 0 = true ∧ (after (.add 0 3 2 2) (gapped 0 [] [(2, 9)])).cur.pc = 0x1000 ∧ (after (.fadd 0 3 2 2) (demo (withRegs 0 []))).tcause = 0x0202 := by
  decide +kernel
theorem test_counted_gaps : let t := run (.mul 0 3 2 2) (gapped 0 [{ code := 9, left := 2, lanes := 1, old := [] }])
    t.cycle = 2 ∧ t.grp.owed.map (fun e => (e.code, e.left)) = [(9, 1), (3, 2)] ∧ (run (.mul 7 3 2 2) (gapped 0 [])).grp.owed = [] := by decide +kernel
theorem test_early_reads : let s := gapped 0 [{ code := 2, left := 1, lanes := 1, old := [(0, 77)] }]
    s.ctx.exctl.getLsbD 0 = false ∧ s.wide = false ∧ s.grp.owed.length = 1 ∧ s.grp.busy = [] ∧ s.grp.foot = [] ∧ s.grp.owed.map (fun e => tget 0 e.old 0) = [77] := by decide +kernel
end Sys2Proof.Tests
end

section
/-! SUPPORT. O59 fails: a read of the control complex whose line is written back before it. -/

namespace Sys2Proof.Machine

/-- Line 0 is poisoned at its home, and the whole line is on its way back there from the cluster that owns it (R273). -/
def poisonedBehindWriteBack : State where
  catalogue := [(0, { st := .ow })]
  cmsgs := [(1, { kind := .writeBack, data := (List.range 128).map (fun i => (i, 1)) })]
  poison := [0]

/-- The write-back lands before the control complex reads, writes every byte of the line and so clears its poison (R406, R417): the
read brings the byte written. -/
theorem ccRead_poisonedBehindWriteBack :
    ∃ t, exec (.ccAccess false 0 1 0) poisonedBehindWriteBack = .next t ∧ t.cc.data = some 1 ∧ t.poison = [] := by
  refine ⟨_, rfl, ?_, ?_⟩ <;> decide +kernel

/-- The clause on reads of DRAM by the control complex asks that a line poisoned before the read bring nothing and stay poisoned. -/
theorem not_outsideAccesses : ¬ Rules.OutsideAccesses := by
  intro h
  obtain ⟨_, _, ccReadsDram, _⟩ := h poisonedBehindWriteBack 0 0 1 0
  obtain ⟨t, ht, _, _, poisonKept, _⟩ := ccReadsDram (by decide) (by decide +kernel)
  obtain ⟨u, hu, _, poisonGone⟩ := ccRead_poisonedBehindWriteBack
  obtain rfl : t = u := by simpa [ht] using hu
  simp [poisonGone, poisonedBehindWriteBack] at poisonKept

/-- Refutes O59 by its clause on outside accesses: a whole-line write-back that lands before the control complex's read clears the
line's poison (R417), where the clause says that the line stays poisoned and that the read brings nothing. -/
theorem not_deviceInItsSystem : ¬ Obligations.DeviceInItsSystem := by
  unfold Obligations.DeviceInItsSystem
  rintro ⟨_, _, outsideAccesses, _⟩
  exact not_outsideAccesses outsideAccesses

end Sys2Proof.Machine
end

section
/-! SUPPORT. The end of a table walk (R400 to R402): what the pages collected are, what a translation cache holds, and where the lanes of
a group stand once the fragment that waited goes on. -/

namespace Sys2Proof.Machine

/-! ### Membership in tables -/

theorem mem_tins {α : Type} {m : Table α} {n : Nat} {x : α} {e : Nat × α} : e ∈ tins m n x ↔ e = (n, x) ∨ e ∈ m := by
  induction m with
  | nil => simp [tins]
  | cons y m ih =>
    simp only [tins]
    split
    · simp
    · simp only [List.mem_cons, ih]
      tauto

/-- After a write a table lists the entry written and the old entries of other numbers. -/
theorem mem_tput {α : Type} {m : Table α} {n : Nat} {x : α} {e : Nat × α} : e ∈ tput m n x ↔ e = (n, x) ∨ (e ∈ m ∧ e.1 ≠ n) := by
  simp [tput, mem_tins, tdel]

/-! ### Pages and translation caches -/

theorem mem_collectPages {page : Nat → Option PagePin} {n va stop : Nat} {p : PagePin} (h : p ∈ (collectPages page n va stop).1) :
    ∃ a, page a = some p := by
  induction n generalizing va with
  | zero => simp [collectPages] at h
  | succ n ih =>
    simp only [collectPages] at h
    split at h
    · simp at h
    · split at h
      · simp at h
      · next q hq =>
        rcases List.mem_cons.1 h with rfl | h
        · exact ⟨va, hq⟩
        · exact ih h

theorem collectPages_fail {page : Nat → Option PagePin} {n va stop a : Nat} (h : (collectPages page n va stop).2 = some a) :
    page a = none := by
  induction n generalizing va with
  | zero => simp [collectPages] at h
  | succ n ih =>
    simp only [collectPages] at h
    split at h
    · simp at h
    · split at h
      · next hq => obtain rfl : va = a := by simpa using h
                   exact hq
      · exact ih h

/-- The newest pages, as many as there are entries. -/
theorem Cluster.fillTlb_tlb (c : Cluster) (ps : List PagePin) :
    (c.fillTlb ps).tlb = (c.tlb ++ ps.filter (fun p => !c.tlb.contains p)).drop
      ((c.tlb ++ ps.filter (fun p => !c.tlb.contains p)).length - Config.tlbEntries) := by
  simp only [Cluster.fillTlb]

theorem Cluster.mem_of_mem_fillTlb {c : Cluster} {ps : List PagePin} {p : PagePin} (h : p ∈ (c.fillTlb ps).tlb) : p ∈ c.tlb ∨ p ∈ ps := by
  rw [Cluster.fillTlb_tlb] at h
  rcases List.mem_append.1 (List.mem_of_mem_drop h) with h | h
  · exact .inl h
  · exact .inr (List.mem_of_mem_filter h)

theorem Cluster.length_fillTlb_le (c : Cluster) (ps : List PagePin) : (c.fillTlb ps).tlb.length ≤ Config.tlbEntries := by
  rw [Cluster.fillTlb_tlb, List.length_drop]
  omega

/-- With room for every page nothing is replaced. -/
theorem Cluster.mem_fillTlb_of_room {c : Cluster} {ps : List PagePin} {p : PagePin} (room : c.tlb.length + ps.length ≤ Config.tlbEntries)
    (h : p ∈ c.tlb ++ ps) : p ∈ (c.fillTlb ps).tlb := by
  have new := List.length_filter_le (fun p => !c.tlb.contains p) ps
  have none_dropped : (c.tlb ++ ps.filter (fun p => !c.tlb.contains p)).length - Config.tlbEntries = 0 := by
    rw [List.length_append]
    omega
  rw [Cluster.fillTlb_tlb, none_dropped, List.drop_zero, List.mem_append, List.mem_filter]
  by_cases hp : p ∈ c.tlb
  · exact .inl hp
  · exact .inr ⟨(List.mem_append.1 h).resolve_left hp, by simpa using hp⟩

/-! ### Regrouping fragments -/

/-- Every lane of the fragments `fs` stands among `hs` where it stood, and each of `hs` waits for nothing or as one of `fs` does. -/
structure Regroups (fs hs : List Frag) : Prop where
  lanes : ∀ f ∈ fs, f.st ≠ .free → ∀ l, f.mask.getLsbD l = true → ∃ h ∈ hs, h.st ≠ .free ∧ h.mask.getLsbD l = true ∧ h.place = f.place
  waits : ∀ h ∈ hs, h.wait = .none ∨ ∃ f ∈ fs, h.wait = f.wait

theorem Regroups.refl (fs : List Frag) : Regroups fs fs :=
  ⟨fun f hf hst _ hl => ⟨f, hf, hst, hl, rfl⟩, fun h hh => .inr ⟨h, hh, rfl⟩⟩

theorem Regroups.trans {fs gs hs : List Frag} (h : Regroups fs gs) (h' : Regroups gs hs) : Regroups fs hs where
  lanes f hf hst l hl := by
    obtain ⟨g, hg, gst, gl, gp⟩ := h.lanes f hf hst l hl
    obtain ⟨k, hk, kst, kl, kp⟩ := h'.lanes g hg gst l gl
    exact ⟨k, hk, kst, kl, kp.trans gp⟩
  waits k hk := by
    rcases h'.waits k hk with hw | ⟨g, hg, hw⟩
    · exact .inl hw
    · rw [hw]
      exact h.waits g hg

/-- Changing fragments in what is neither lanes, place nor wait. -/
theorem Regroups.map {fs : List Frag} {u : Frag → Frag} (hm : ∀ f, (u f).mask = f.mask) (hp : ∀ f, (u f).place = f.place)
    (hw : ∀ f, (u f).wait = f.wait) : Regroups fs (fs.map u) where
  lanes f hf hst l hl :=
    ⟨u f, List.mem_map_of_mem hf, by rw [show (u f).st = f.st from congrArg Place.st (hp f)]; exact hst, by rw [hm]; exact hl, hp f⟩
  waits h hh := by
    obtain ⟨f, hf, rfl⟩ := List.mem_map.1 hh
    exact .inr ⟨f, hf, hw f⟩

/-- The same fragments in another order, free entries left out or not. -/
theorem Regroups.of_mem {fs hs : List Frag} (h : ∀ f ∈ fs, f.st ≠ .free → f ∈ hs) (h' : ∀ f ∈ hs, f ∈ fs) : Regroups fs hs :=
  ⟨fun f hf hst _ hl => ⟨f, h f hf hst, hst, hl, rfl⟩, fun f hf => .inr ⟨f, h' f hf, rfl⟩⟩

theorem Regroups.cons {fs hs : List Frag} (f : Frag) (h : Regroups fs hs) : Regroups (f :: fs) (f :: hs) where
  lanes k hk kst l kl := by
    rcases List.mem_cons.1 hk with rfl | hk
    · exact ⟨k, List.mem_cons_self, kst, kl, rfl⟩
    · obtain ⟨g, hg, rest⟩ := h.lanes k hk kst l kl
      exact ⟨g, List.mem_cons_of_mem _ hg, rest⟩
  waits k hk := by
    rcases List.mem_cons.1 hk with rfl | hk
    · exact .inr ⟨k, List.mem_cons_self, rfl⟩
    · exact (h.waits k hk).imp id fun ⟨g, hg, hw⟩ => ⟨g, List.mem_cons_of_mem _ hg, hw⟩

/-- One fragment brought to the front. -/
theorem Regroups.front {fs : List Frag} {f : Frag} (h : f ∈ fs) : Regroups fs (f :: fs.erase f) := by
  have perm := List.perm_cons_erase h
  exact .of_mem (fun k hk _ => perm.mem_iff.1 hk) fun k hk => perm.mem_iff.2 hk

theorem regroups_spillHighest (fs : List Frag) : Regroups fs (spillHighest fs) := by
  simp only [spillHighest]
  split
  · exact .refl fs
  · split
    · exact .refl fs
    · refine .map ?_ ?_ ?_ <;> · intro f; split <;> rfl

/-- Fragments that merge stand at one place. -/
theorem Frag.place_of_same {f h : Frag} (hs : f.same h = true) : h.st ≠ .free ∧ h.place = f.place := by
  simp only [Frag.same, Bool.and_eq_true, beq_iff_eq] at hs
  obtain ⟨⟨⟨⟨⟨⟨⟨⟨⟨fst, hst⟩, pc⟩, depth⟩, mode⟩, ftop⟩, fv⟩, handler⟩, _⟩, _⟩ := hs
  refine ⟨by simp [hst], ?_⟩
  simp only [Frag.place, fst, hst, pc, depth, mode, ftop, fv, handler]

theorem regroups_mergeFrags (fs : List Frag) : Regroups fs (mergeFrags fs) := by
  induction fs with
  | nil => exact .refl []
  | cons f fs ih =>
    refine (ih.cons f).trans ?_
    simp only [mergeFrags]
    split
    · exact .refl _
    · next h found =>
      obtain ⟨hst, hp⟩ := Frag.place_of_same (List.find?_some found)
      have front : Regroups (f :: mergeFrags fs) (f :: h :: (mergeFrags fs).erase h) := (Regroups.front (List.mem_of_find?_eq_some found)).cons f
      refine front.trans ⟨fun k hk kst l kl => ?_, fun k hk => ?_⟩
      · simp only [List.mem_cons] at hk
        rcases hk with rfl | rfl | hk
        · exact ⟨_, List.mem_cons_self, kst, by simp [kl], rfl⟩
        · exact ⟨_, List.mem_cons_self, fun free => hst ((congrArg Place.st hp).trans free), by simp [kl], hp.symm⟩
        · exact ⟨k, List.mem_cons_of_mem _ hk, kst, kl, rfl⟩
      · rcases List.mem_cons.1 hk with rfl | hk
        · exact .inr ⟨f, List.mem_cons_self, rfl⟩
        · exact .inr ⟨k, List.mem_cons_of_mem _ (List.mem_cons_of_mem _ hk), rfl⟩

theorem mem_of_pickBest {α : Type} {lt : α → α → Bool} {xs : List α} {x : α} (h : pickBest lt xs = some x) : x ∈ xs := by
  cases xs with
  | nil => simp [pickBest] at h
  | cons y ys =>
    obtain rfl : ys.foldl (fun b z => if lt z b then z else b) y = x := by simpa [pickBest] using h
    have key : ∀ (zs : List α) (b : α), zs.foldl (fun b z => if lt z b then z else b) b ∈ b :: zs := by
      intro zs
      induction zs with
      | nil => simp
      | cons z zs ih =>
        intro b
        rw [List.foldl_cons]
        rcases List.mem_cons.1 (ih (if lt z b then z else b)) with first | later
        · rw [first]
          split <;> simp
        · exact List.mem_cons_of_mem _ (List.mem_cons_of_mem _ later)
    exact key ys y

theorem Group.regroups_reselect (g : Group) : Regroups (g.cur :: g.rest) (g.reselect.cur :: g.reselect.rest) := by
  have merged : Regroups (g.cur :: g.rest) (mergeFrags g.frags) :=
    (Regroups.of_mem (hs := g.frags) (fun f hf hst => List.mem_filter.2 ⟨hf, by simpa using hst⟩) fun f hf => List.mem_of_mem_filter hf).trans
      (regroups_mergeFrags g.frags)
  simp only [Group.reselect]
  split
  · exact .refl _
  · split
    · next f picked =>
      have hf : f ∈ mergeFrags g.frags := List.mem_of_mem_filter (mem_of_pickBest picked)
      refine (merged.trans (.front hf)).trans (Regroups.trans (gs := f :: (if f.spilled then spillHighest ((mergeFrags g.frags).erase f)
        else (mergeFrags g.frags).erase f)) (.cons f ?_) ?_)
      · split
        · exact regroups_spillHighest _
        · exact .refl _
      · exact ⟨fun k hk kst l kl => by
            rcases List.mem_cons.1 hk with rfl | hk
            · exact ⟨_, List.mem_cons_self, kst, kl, rfl⟩
            · exact ⟨k, List.mem_cons_of_mem _ hk, kst, kl, rfl⟩,
          fun k hk => by
            rcases List.mem_cons.1 hk with rfl | hk
            · exact .inr ⟨f, List.mem_cons_self, rfl⟩
            · exact .inr ⟨k, List.mem_cons_of_mem _ hk, rfl⟩⟩
    · split
      · next empty =>
        rw [empty] at merged
        exact ⟨fun f hf hst l hl => by simpa using merged.lanes f hf hst l hl, by simp⟩
      · next cons => rwa [cons] at merged

theorem Group.regroups_keepSelect (g : Group) : Regroups (g.cur :: g.rest) (g.keepSelect.cur :: g.keepSelect.rest) := by
  unfold Group.keepSelect
  split
  · exact .refl _
  · exact g.regroups_reselect

theorem Group.keepSelect_bare (g : Group) : g.keepSelect.bare = g.bare := by
  unfold Group.keepSelect
  split
  · rfl
  · exact g.reselect_bare

/-! ### The fragment that waits for a walk -/

/-- A fragment once walk n has ended. -/
def Frag.woken (n : Nat) (f : Frag) : Frag := if f.wait == .walk n then { f with wait := .resumed n } else f

theorem Frag.woken_mask (n : Nat) (f : Frag) : (f.woken n).mask = f.mask := by unfold Frag.woken; split <;> rfl

theorem Frag.woken_place (n : Nat) (f : Frag) : (f.woken n).place = f.place := by unfold Frag.woken; split <;> rfl

theorem Frag.woken_wait (n : Nat) (f : Frag) : (f.woken n).wait ≠ .walk n := by
  unfold Frag.woken
  split
  · simp
  · next h => simpa using h

theorem Group.wakeWalk_eq (g : Group) (n : Nat) :
    g.wakeWalk n = { g with cur := g.cur.woken n, rest := g.rest.map (Frag.woken n) }.keepSelect := rfl

theorem Group.wakeWalk_regs (g : Group) (n : Nat) : (g.wakeWalk n).regs = g.regs := by
  have h := congrArg Group.regs (Group.keepSelect_bare { g with cur := g.cur.woken n, rest := g.rest.map (Frag.woken n) })
  exact h

/-- No fragment waits for the walk any more. -/
theorem Group.wakeWalk_wait (g : Group) (n : Nat) : ∀ f ∈ (g.wakeWalk n).cur :: (g.wakeWalk n).rest, f.wait ≠ .walk n := by
  intro f hf
  rcases (Group.regroups_keepSelect _).waits f hf with hw | ⟨h, hh, hw⟩
  · simp [hw]
  · rw [hw]
    obtain ⟨k, _, rfl⟩ := List.mem_map.1 (show h ∈ (g.cur :: g.rest).map (Frag.woken n) from hh)
    exact k.woken_wait n

/-- Every lane stands where it stood. -/
theorem Group.wakeWalk_holds (g : Group) (n : Nat) {f : Frag} (hf : f ∈ g.cur :: g.rest) (hst : f.st ≠ .free) {l : Nat}
    (hl : f.mask.getLsbD l = true) : (g.wakeWalk n).holds l f.place := by
  have kst : (f.woken n).st ≠ .free := by rwa [show (f.woken n).st = f.st from congrArg Place.st (f.woken_place n)]
  rw [← f.woken_place n]
  refine (Group.regroups_keepSelect { g with cur := g.cur.woken n, rest := g.rest.map (Frag.woken n) }).lanes _ ?_ kst l
    (by rwa [f.woken_mask])
  exact (List.mem_map_of_mem hf : f.woken n ∈ (g.cur :: g.rest).map (Frag.woken n))

/-! ### The end of a walk -/

theorem State.nextWalk_eq (s : State) (home : Nat) :
    s.nextWalk home = { s with walks := (s.nextWalk home).walks, agenda := (s.nextWalk home).agenda } := by
  unfold State.nextWalk
  split <;> rfl

/-- A walk that does not wait for a walker is as it was when the next one starts. -/
theorem State.tfind_nextWalk (s : State) (home : Nat) {n : Nat} {w : Walk} (h : tfind s.walks n = some w)
    (only : ∀ e ∈ s.walks, e.1 = n → e.2.queued = false) : tfind (s.nextWalk home).walks n = some w := by
  unfold State.nextWalk
  split
  · next m v found =>
    have queued := List.find?_some found
    simp only [Bool.and_eq_true] at queued
    have hmn : n ≠ m := by
      rintro rfl
      simpa [queued.2] using only _ (List.mem_of_find?_eq_some found) rfl
    rw [State.owe_walks, tfind_tput, if_neg hmn, h]
  · exact h

/-- What a walk of context c in a cluster's translations finds for an address (R402). -/
def State.pageFor (s : State) (cl c va : Nat) : Option PagePin :=
  match (s.clusterOf cl).tlb.find? (fun p => p.ctx == c && p.holds va) with
  | some p => some p
  | none => s.walkPage c va

theorem State.of_pageFor_eq_some {s : State} {cl c va : Nat} {p : PagePin} (h : s.pageFor cl c va = some p) :
    p ∈ (s.clusterOf cl).tlb ∨ s.walkPage c va = some p := by
  unfold State.pageFor at h
  split at h
  · next q found =>
    obtain rfl : q = p := by simpa using h
    exact .inl (List.mem_of_find?_eq_some found)
  · exact .inr h

theorem State.of_pageFor_eq_none {s : State} {cl c va : Nat} (h : s.pageFor cl c va = none) : s.walkPage c va = none := by
  unfold State.pageFor at h
  split at h
  · simp at h
  · exact h

/-- The ended walk, with what it found in the cluster's translations and the tables. -/
def State.ended (s : State) (cl : Nat) (w : Walk) : Walk :=
  let r := collectPages (s.pageFor cl w.ctx) (w.len / 4096 + 2) w.base (w.base + w.len)
  { w with done := true, queued := false, found := r.1, fail := r.2 }

/-- The device with the pages found in the cluster's translation cache, unless the walk is stale (R391). -/
def State.cachePages (s : State) (cl : Nat) (w : Walk) (ps : List PagePin) : State :=
  if w.stale then s else s.putCluster cl ((s.clusterOf cl).fillTlb ps)

theorem State.cachePages_eq (s : State) (cl : Nat) (w : Walk) (ps : List PagePin) :
    s.cachePages cl w ps = { s with clusters := (s.cachePages cl w ps).clusters } := by
  unfold State.cachePages
  split <;> rfl

theorem exec_tableWalkEnd_of_group {s : State} {n k : Nat} {w : Walk} (found : tfind s.walks n = some w) (group : w.group = some k)
    (lives : s.hasGroup k = true) :
    let cl := (s.teamOf (s.group k).team).cluster
    let s1 := s.cachePages cl w (s.ended cl w).found
    exec (.tableWalkEnd n) s = .next (({ s1 with walks := tput s1.walks n (s.ended cl w) }.putGroup k ((s.group k).wakeWalk n)).nextWalk w.home) := by
  cases w
  dsimp only at group
  subst group
  simp only [exec, execTableWalkEnd, found, Option.getD_some, lives, if_true, State.cachePages]
  split <;> rfl

/-- The end of a walk as the rules state it. -/
theorem walksEnd : Rules.WalksEnd := by
  intro s n k w found group lives cl
  let s1 := s.cachePages cl w (s.ended cl w).found
  let s2 := { s1 with walks := tput s1.walks n (s.ended cl w) }.putGroup k ((s.group k).wakeWalk n)
  have hs1 : s1 = { s with clusters := s1.clusters } := s.cachePages_eq cl w _
  have ht : s2.nextWalk w.home = { s2 with walks := (s2.nextWalk w.home).walks, agenda := (s2.nextWalk w.home).agenda } := s2.nextWalk_eq w.home
  have groupT (j : Nat) : (s2.nextWalk w.home).group j = if j = k then (s.group k).wakeWalk n else s.group j := by
    rw [ht]
    show (s1.putGroup k _).group j = _
    rw [State.group_putGroup, hs1]
    rfl
  have clusterT : (s2.nextWalk w.home).clusterOf cl = s1.clusterOf cl := by
    rw [ht]
    rfl
  have memT : (s2.nextWalk w.home).mem = s.mem := by
    rw [ht]
    show s1.mem = _
    rw [hs1]
  have fresh (hw : w.stale = false) : s1.clusterOf cl = (s.clusterOf cl).fillTlb (s.ended cl w).found := by
    simp [s1, State.cachePages, hw, State.clusterOf_putCluster]
  have kept (hw : w.stale = true) : s1.clusterOf cl = s.clusterOf cl := by
    simp [s1, State.cachePages, hw]
  refine ⟨_, s.ended cl w, exec_tableWalkEnd_of_group found group lives, ?_, rfl, memT, ?_, ?_, ?_, ?_, ?_, ?_, ?_, ?_, ?_, ?_⟩
  · refine s2.tfind_nextWalk w.home (by simp [s2, tfind_tput]) fun e he hn => ?_
    rcases mem_tput.1 he with rfl | ⟨_, other⟩
    · rfl
    · exact absurd hn other
  · rw [groupT, if_pos rfl]
    exact (s.group k).wakeWalk_regs n
  · intro j hj
    rw [groupT, if_neg hj]
  · intro hw
    rw [clusterT, kept hw]
  · intro hw room p hp
    rw [clusterT, fresh hw]
    exact Cluster.mem_fillTlb_of_room room hp
  · intro p hp
    rw [clusterT] at hp
    by_cases hw : w.stale = true
    · exact .inl (kept hw ▸ hp)
    · rw [fresh (by simpa using hw)] at hp
      exact Cluster.mem_of_mem_fillTlb hp
  · intro hw
    rw [clusterT, fresh hw]
    exact Cluster.length_fillTlb_le _ _
  · intro p hp
    obtain ⟨va, hva⟩ := mem_collectPages hp
    exact (State.of_pageFor_eq_some hva).imp id fun h => ⟨va, h⟩
  · rcases hf : (s.ended cl w).fail with _ | va
    · exact .inl rfl
    · exact .inr ⟨va, rfl, State.of_pageFor_eq_none (collectPages_fail hf)⟩
  · rw [groupT, if_pos rfl]
    exact (s.group k).wakeWalk_wait n
  · intro f hf hst l hl
    rw [groupT, if_pos rfl]
    exact (s.group k).wakeWalk_holds n hf hst hl

end Sys2Proof.Machine
end

section
/-! SUPPORT. What the reach limit does (R246, R259, R305): an access given up, a `bor` that another device has not answered, and a chunk. -/

namespace Sys2Proof.Machine

/-! ### Messages sent -/

/-- Nothing but messages, and what numbers and carries them, changes from s to t. -/
def Sends (s t : State) : Prop :=
  t = { s with slips := t.slips, chunks := t.chunks, net := t.net, agenda := t.agenda, nextId := t.nextId, free := t.free }

theorem Sends.refl (s : State) : Sends s s := rfl

theorem Sends.trans {s t u : State} (h : Sends s t) (h' : Sends t u) : Sends s u := by
  unfold Sends at *
  rw [h', h]

theorem Sends.foldl {β : Type} {f : State → β → State} (h : ∀ s x, Sends s (f s x)) (l : List β) (s : State) : Sends s (l.foldl f s) := by
  induction l generalizing s with
  | nil => exact .refl s
  | cons x l ih => exact (h s x).trans (ih _)

theorem sends_oweOnce (s : State) (e : Event) : Sends s (s.oweOnce e) := by
  unfold State.oweOnce
  split <;> rfl

theorem sends_noteOld (s : State) (k : Packet) (e : Event) : Sends s (s.noteOld k e) := by
  unfold State.noteOld
  split
  · split <;> rfl
  · rfl

/-- A packet that brings an event and returns no credit. -/
theorem sends_inject (s : State) (k : Packet) {e : Event} (event : k.event = some e) (owes : k.owes = none) : Sends s (s.inject k) := by
  unfold State.inject
  extract_lets own p s1 k1 plane away dst
  have start : Sends s s1 := rfl
  split
  · refine start.trans ?_
    simp only [State.returnOwed, owes, State.receive, event]
    split
    · rfl
    · exact (sends_noteOld s1 k e).trans rfl
  · split
    · exact start.trans rfl
    · split
      · exact start.trans rfl
      · split
        · exact start.trans (Sends.trans (t := s1.putPacket p _) rfl (sends_oweOnce _ _))
        · exact start.trans (Sends.trans (t := s1.putPacket p _) rfl (sends_oweOnce _ _))

theorem sends_sendSlip (s : State) (n : Nat) (x : Slip) : Sends s (s.sendSlip n x) := by
  simp only [State.sendSlip, State.sendLane]
  split <;> exact sends_inject s _ rfl rfl

theorem sends_post (s : State) (ty n home status : Nat) (tentative wait : Bool) (spans : List (Nat × Nat)) :
    Sends s (s.post ty n home status tentative wait spans) := by
  simp only [State.post]
  split
  · exact .refl s
  · exact Sends.trans (t := { s with slips := tput s.slips s.nextId _, nextId := s.nextId + 1 }) rfl (sends_sendSlip _ _ _)

/-! ### How a `bor` fails -/

theorem Group.wakeBorrow_bare (g : Group) (n : Nat) : (g.wakeBorrow n).bare = g.bare := by
  unfold Group.wakeBorrow
  split
  · rw [Group.keepSelect_bare]
    rfl
  · rfl

theorem Group.wakeBorrow_reg (g : Group) (n i l : Nat) : (g.wakeBorrow n).reg i l = g.reg i l := by
  have h := congrArg Group.regs (g.wakeBorrow_bare n)
  exact congrArg (fun regs => tget 0 regs (32 * i + l)) h

theorem Group.wakeBorrow_busy (g : Group) (n : Nat) : (g.wakeBorrow n).busy = g.busy := by
  have h := congrArg Group.busy (g.wakeBorrow_bare n)
  exact h

theorem Group.freeBusy_ne (g : Group) (n : Nat) : ∀ b ∈ (g.freeBusy n).busy, b.2 ≠ n := by
  intro b hb
  simpa using (List.mem_filter.1 hb).2

/-- A group that is told the status of a request. -/
def Group.told (g : Group) (n : Nat) (r : Request) (status : Nat) : Group :=
  ((g.setLanes r.dst (fun _ => BitVec.ofNat 32 status) (lanesOf r.lanes)).freeBusy n).wakeBorrow n

theorem Group.reg_told (g : Group) (n : Nat) (r : Request) (status i l : Nat) (hl : l < 32) :
    (g.told n r status).reg i l = if i = r.dst ∧ r.lanes.getLsbD l = true then BitVec.ofNat 32 status else g.reg i l := by
  rw [Group.told, Group.wakeBorrow_reg]
  show (g.setLanes r.dst _ _).reg i l = _
  rw [Group.reg_setLanes _ _ _ _ _ _ (fun _ h => lt_of_mem_lanesOf h) hl]
  simp only [mem_lanesOf]

theorem State.reportTo_some {s : State} {n : Nat} {r : Request} (lives : s.hasGroup r.group = true) (status : Nat) :
    s.reportTo n r (some status) = s.putGroup r.group ((s.group r.group).told n r status) := by
  simp only [State.reportTo, lives, if_true]
  rfl

/-- A refused `bor` of a resident team ends with the status, its register empty. -/
theorem borEnds_deliver {s0 s : State} (sent : Sends s0 s) {n : Nat} {r : Request} (lives : s0.hasGroup r.group = true)
    (resident : (s0.teamOf r.team).st = .resident) {status : Nat} (refused : 1 < status) :
    Rules.BorEnds s0 (s.deliver n r status) n r status {} := by
  have teams : s.teams = s0.teams := by rw [sent]
  have groups : s.groups = s0.groups := by rw [sent]
  have mem : s.mem = s0.mem := by rw [sent]
  let s1 := { s with reqs := tdel s.reqs n }.putTeam r.team { s.teamOf r.team with g := mset {} (s.teamOf r.team).g r.reg {} }
  have told : s.deliver n r status = s1.putGroup r.group ((s.group r.group).told n r status) := by
    have st : (s.teamOf r.team).st = .resident := by rw [State.teamOf, teams]; exact resident
    have lives1 : s1.hasGroup r.group = true := by
      show (tfind s.groups r.group).isSome = true
      rw [groups]
      exact lives
    have region : { s with reqs := tdel s.reqs n }.putRegion r.team r.reg {} = s1 := by
      have present : ¬ ((s.teamOf r.team).st == .absent) = true := by simp [st]
      exact if_neg present
    rw [State.deliver, if_neg (by omega)]
    show ({ s with reqs := tdel s.reqs n }.putRegion r.team r.reg {}).reportTo n r (some status) = _
    rw [region, State.reportTo_some lives1]
    rfl
  have group (j : Nat) : (s.deliver n r status).group j = if j = r.group then (s0.group r.group).told n r status else s0.group j := by
    have same (i : Nat) : s.group i = s0.group i := by rw [State.group, groups]; rfl
    rw [told, State.group_putGroup, same, show s1.group j = s.group j from rfl, same]
  refine ⟨?_, fun l hl => ?_, ?_, ?_, fun i l hl outside => ?_, ?_⟩
  · rw [told]
    show tfind (tdel s.reqs n) n = none
    simp [tfind_tdel]
  · rw [group, if_pos rfl, Group.reg_told _ _ _ _ _ _ (BitVec.lt_of_getLsbD hl), if_pos ⟨rfl, hl⟩]
  · rw [group, if_pos rfl, Group.told, Group.wakeBorrow_busy]
    exact Group.freeBusy_ne _ n
  · rw [told]
    show tget {} (s1.teamOf r.team).g r.reg = {}
    simp [s1, State.teamOf_putTeam, tget_mset]
  · rw [group, if_pos rfl, Group.reg_told _ _ _ _ _ _ hl, if_neg outside]
  · rw [told]
    exact mem

/-- A `bor` that another device has not answered. -/
theorem borEnds_failRequest {s : State} {n : Nat} {r : Request} (purpose : r.purpose = .bor) (lives : s.hasGroup r.group = true)
    (resident : (s.teamOf r.team).st = .resident) {status : Nat} (refused : 1 < status) (but : Option Nat) :
    Rules.BorEnds s (s.failRequest n r status but) n r status {} := by
  have sent := Sends.foldl (fun s p => sends_post s 5 n p.1 0 false false p.2) (r.parts.filter (fun p => some p.1 != but)) s
  have notSaved : ∀ t : State, Sends s t → ((t.teamOf r.team).st == .saved) = false := by
    intro t ht
    rw [State.teamOf, ht]
    exact beq_eq_false_iff_ne.2 (by rw [show (tget {} s.teams r.team : Team).st = .resident from resident]; decide)
  simp only [State.failRequest, State.endRequest, purpose, notSaved _ sent, Bool.false_eq_true, if_false]
  exact borEnds_deliver sent lives resident refused

/-! ### An access completes -/

theorem Frame.txns {k : Nat} {s t : State} (h : Frame k s t) : t.txns = s.txns := by
  have h' := congrArg State.txns h.rest
  exact h'

/-- A group apart from its registers and their poison. -/
def Group.unread (g : Group) : Group := { g with regs := [], bad := [] }

theorem Group.setReg_unread (g : Group) (n l : Nat) (x : Word) : (g.setReg n l x).unread = g.unread := rfl

theorem Group.unread_foldl {β : Type} {f : Group → β → Group} (h : ∀ g x, (f g x).unread = g.unread) (l : List β) (g : Group) :
    (l.foldl f g).unread = g.unread := by
  induction l generalizing g with
  | nil => rfl
  | cons x l ih => rw [List.foldl_cons, ih, h]

/-- The results of an access change the registers alone. -/
theorem Group.takeReply_unread (g : Group) (t : Txn) (free : Nat) : (g.takeReply t free).unread = g.unread := by
  simp only [Group.takeReply, Group.takeLanes]
  split
  · refine Group.unread_foldl (fun h l => ?_) _ g
    exact Group.unread_foldl (fun g i => g.setReg_unread (t.dst + i) l _) _ h
  · rfl

/-- The group of an access that completes, before its events are counted. -/
def Group.completed (g : Group) (n : Nat) (t : Txn) (free : Nat) : Group :=
  let g1 := (g.takeReply t free).freeBusy n
  match t.counter with | some c => g1.countDown c | none => g1

theorem Group.completed_busy (g : Group) (n : Nat) (t : Txn) (free : Nat) : ∀ b ∈ (g.completed n t free).busy, b.2 ≠ n := by
  unfold Group.completed
  split <;> exact Group.freeBusy_ne _ n

theorem Group.completed_cur (g : Group) (n : Nat) (t : Txn) (free : Nat) : (g.completed n t free).cur = g.cur := by
  have h := congrArg Group.cur (g.takeReply_unread t free)
  unfold Group.completed
  split <;> exact h

theorem Group.completed_live (g : Group) (n : Nat) (t : Txn) (free : Nat) : (g.completed n t free).live = g.live := by
  have h := congrArg Group.live (g.takeReply_unread t free)
  unfold Group.completed
  split <;> exact h

/-- Another pass of the instruction of access n is in flight (R258). -/
def State.passesLeft (s : State) (n : Nat) (x : Txn) : Prop :=
  x.remote = true ∧ ∃ u ∈ s.txns, u.1 ≠ n ∧ u.2.remote = true ∧ u.2.group = x.group ∧ u.2.first = x.first

/-- Access n of s, which is x, is over in t: it is in flight no more and keeps nothing of its group busy; the fragment that its group has
selected, the other groups but for deferred traps, and memory, unless the write-combining buffer is involved, are as they were. -/
structure Over (s t : State) (n : Nat) (x : Txn) : Prop where
  gone : tfind t.txns n = none
  mem : (∀ p ∈ x.lanes, p.ptype ≠ 1) → t.mem = s.mem
  busy : ∀ b ∈ (t.group x.group).busy, b.2 ≠ n
  cur : (t.group x.group).cur = (s.group x.group).cur
  others : ∀ j, j ≠ x.group → (t.group j).calm = (s.group j).calm

/-- The group owes PEER_UNREACHABLE with a detail of at most d. -/
def Group.owesPeer (g : Group) (d : Nat) : Prop := ∃ e ∈ g.deferred, e.code = 0x18 ∧ e.detail ≤ d

/-- Another pass of the instruction of x owes it at its end. -/
def State.passOwes (t : State) (x : Txn) (d : Nat) : Prop :=
  ∃ u ∈ t.txns, u.2.first = x.first ∧ u.2.group = x.group ∧ ∃ e, u.2.trap = some e ∧ e ≤ d

theorem Group.defer_owes (g : Group) (detail frag : Nat) : (g.defer 0x18 detail frag).owesPeer detail := by
  unfold Group.defer
  split
  · next held =>
    obtain ⟨e, he, code⟩ := List.any_eq_true.1 held
    refine ⟨_, List.mem_map_of_mem he, ?_⟩
    simp only [code, if_true]
    exact ⟨by simpa using code, Nat.min_le_right _ _⟩
  · exact ⟨_, List.mem_append_right _ List.mem_cons_self, rfl, Nat.le_refl _⟩

theorem State.sibling_eq_none_of {s : State} {x : Txn} {n : Nat} (alone : ¬ s.passesLeft n x) (left : ∀ u ∈ s.txns, u.1 ≠ n) :
    s.sibling x = none := by
  unfold State.sibling
  split
  · next remote =>
    refine List.find?_eq_none.2 fun u hu found => alone ⟨remote, u, hu, left u hu, ?_⟩
    simpa [and_assoc] using found
  · rfl

theorem State.sibling_eq_some_of {s : State} {x : Txn} {n : Nat} (other : s.passesLeft n x) :
    ∃ y u, s.sibling x = some (y, u) ∧ (y, u) ∈ s.txns ∧ u.group = x.group ∧ u.first = x.first := by
  obtain ⟨remote, u, hu, _, uremote, ugroup, ufirst⟩ := other
  have some : (s.txns.find? (fun (_, u) => u.remote && u.group == x.group && u.first == x.first)).isSome := by
    rw [List.find?_isSome]
    exact ⟨u, hu, by simp [uremote, ugroup, ufirst]⟩
  obtain ⟨⟨y, v⟩, found⟩ := Option.isSome_iff_exists.1 some
  refine ⟨y, v, by rw [State.sibling, if_pos remote, found], List.mem_of_find?_eq_some found, ?_⟩
  have hv := List.find?_some found
  simp only [Bool.and_eq_true, beq_iff_eq] at hv
  exact ⟨hv.1.2, hv.2⟩

/-- An access of a group that completes with a trap due: it is over, and the trap is owed by its group, or, where another pass of its
instruction is in flight, by that one (R259). -/
theorem over_complete {s : State} {n : Nat} {x : Txn} (src : x.src = none) (copy : x.copy = none) (lives : s.hasGroup x.group = true)
    (live : (s.group x.group).live ≠ 0) {d : Nat} (due : x.dueDetail = some d) :
    Over s (s.complete n x) n x ∧
      (¬ s.passesLeft n x → ((s.complete n x).group x.group).owesPeer d ∧ (s.complete n x).txns = tdel s.txns n) ∧
      (s.passesLeft n x → (s.complete n x).passOwes x d) := by
  let s1 : State := { s with txns := tdel s.txns n, free := s.free + 1 }.putGroup x.group ((s.group x.group).completed n x s.free)
  let s2 := s1.countEvents x.group x.frag x.events
  have counted : Keeps x.group s1 s2 := keeps_countEvents s1 x.group x.frag x.events
  have own1 : s1.group x.group = (s.group x.group).completed n x s.free := by simp [s1, State.group_putGroup]
  have busy2 : (s2.group x.group).busy = (s1.group x.group).busy := by have h := congrArg Group.busy counted.own; exact h
  have cur2 : (s2.group x.group).cur = (s1.group x.group).cur := by have h := congrArg Group.cur counted.own; exact h
  have live2 : (s2.group x.group).live = (s1.group x.group).live := by have h := congrArg Group.live counted.own; exact h
  have txns2 : s2.txns = tdel s.txns n := counted.txns
  have over2 : Over s s2 n x :=
    { gone := by rw [txns2, tfind_tdel, if_pos rfl]
      mem := fun _ => counted.mem
      busy := by rw [busy2, own1]; exact Group.completed_busy _ _ _ _
      cur := by rw [cur2, own1, Group.completed_cur]
      others := fun j hj => by
        rw [counted.groups j hj]
        simp only [s1, State.group_putGroup, if_neg hj]
        rfl }
  have left : ∀ u ∈ s2.txns, u.1 ≠ n := by
    intro u hu
    rw [txns2] at hu
    simpa using (List.mem_filter.1 hu).2
  have passes : s2.passesLeft n x ↔ s.passesLeft n x := by
    simp only [State.passesLeft, txns2, tdel, List.mem_filter, bne_iff_ne, ne_eq]
    tauto
  have ends : s.complete n x = match s2.sibling x with
      | some (y, u) => { s2 with txns := tput s2.txns y { u with trap := some (min d (u.trap.getD d)) } }
      | none => s2.deferTrap x.group 0x18 d x.frag := by
    simp only [State.complete, src, copy, lives, due, Option.isSome_none, Bool.false_eq_true, if_false, if_true]
    rfl
  by_cases other : s.passesLeft n x
  · obtain ⟨y, u, found, mem, ugroup, ufirst⟩ := State.sibling_eq_some_of (passes.2 other)
    rw [found] at ends
    rw [ends]
    refine ⟨⟨?_, over2.mem, over2.busy, over2.cur, over2.others⟩, fun alone => absurd other alone, fun _ => ?_⟩
    · show tfind (tput s2.txns y _) n = none
      rw [tfind_tput, if_neg (left _ mem).symm]
      exact over2.gone
    · exact ⟨_, mem_tput.2 (.inl rfl), ufirst, ugroup, _, rfl, Nat.min_le_left _ _⟩
  · rw [State.sibling_eq_none_of (passes.not.2 other) left] at ends
    have alive : ¬ ((s2.group x.group).live == 0) = true := by
      rw [live2, own1, Group.completed_live]
      simpa using live
    have deferred : s.complete n x = s2.putGroup x.group ((s2.group x.group).defer 0x18 d x.frag) := by
      rw [ends]
      exact if_neg alive
    have keeps : Keeps x.group s2 (s.complete n x) := by
      rw [deferred]
      exact keeps_putGroup _ _ _ (Group.defer_kept _ _ _ _)
    refine ⟨⟨?_, fun plain => keeps.mem.trans (over2.mem plain), ?_, ?_, fun j hj => (keeps.groups j hj).trans (over2.others j hj)⟩, fun _ => ?_,
      fun h => absurd h other⟩
    · rw [keeps.txns]
      exact over2.gone
    · have h := congrArg Group.busy keeps.own
      rw [show ((s.complete n x).group x.group).busy = (s2.group x.group).busy from h]
      exact over2.busy
    · have h := congrArg Group.cur keeps.own
      exact Eq.trans h over2.cur
    · refine ⟨?_, keeps.txns.trans txns2⟩
      rw [deferred, State.group_putGroup, if_pos rfl]
      exact Group.defer_owes _ _ _

end Sys2Proof.Machine
end

section
/-! SUPPORT. O47 turns on the free choices of the model (log 2) that say whether a store given up at the reach limit was performed all the same
(R259): what it states of table walks and of the reach limit holds if none is, and fails, in a state where two accesses have one number, if
one is. -/

namespace Sys2Proof.Machine

/-! ### Writes at homes -/

theorem foldl_unchanged {α β : Type} {f : α → β → α} {a : α} {l : List β} (h : ∀ x ∈ l, f a x = a) : l.foldl f a = a := by
  induction l with
  | nil => rfl
  | cons x l ih => rw [List.foldl_cons, h x List.mem_cons_self, ih fun y hy => h y (List.mem_cons_of_mem _ hy)]

/-- The accesses in flight and the groups of s are those of t. -/
def SameWork (s t : State) : Prop := t.txns = s.txns ∧ t.groups = s.groups

theorem SameWork.trans {s t u : State} (h : SameWork s t) (h' : SameWork t u) : SameWork s u :=
  ⟨h'.1.trans h.1, h'.2.trans h.2⟩

theorem sameWork_setHomeByte (s : State) (loc : Nat) (b : Byte) : SameWork s (s.setHomeByte loc b) := by
  unfold State.setHomeByte
  split
  · dsimp only
    split <;> exact ⟨rfl, rfl⟩
  · exact ⟨rfl, rfl⟩

theorem sameWork_setHomeLe (s : State) (n loc v : Nat) : SameWork s (s.setHomeLe loc v n) := by
  induction n generalizing loc v with
  | zero => exact ⟨rfl, rfl⟩
  | succ n ih => exact (ih (loc + 1) (v / 256)).trans (sameWork_setHomeByte _ _ _)

theorem sameWork_writeThrough (s : State) (cl loc v n : Nat) : SameWork s (s.writeThrough cl loc v n) := by
  simp only [State.writeThrough]
  split <;> exact sameWork_setHomeLe s n loc v

/-! ### Which passes are in flight -/

/-- What the reach limit needs to know of an access in flight: its number, and the instruction whose pass it is (R258). -/
def passTag (u : Nat × Txn) : Nat × Bool × Nat × Nat := (u.1, u.2.remote, u.2.group, u.2.first)

def State.passTags (s : State) : List (Nat × Bool × Nat × Nat) := s.txns.map passTag

/-- No two accesses in flight have one number. -/
def State.distinctTxns (s : State) : Prop := (s.txns.map (·.1)).Nodup

theorem State.passesLeft_iff (s : State) (n : Nat) (x : Txn) :
    s.passesLeft n x ↔ x.remote = true ∧ ∃ k, k ≠ n ∧ (k, true, x.group, x.first) ∈ s.passTags := by
  simp only [State.passesLeft, State.passTags, passTag, List.mem_map, Prod.mk.injEq]
  constructor
  · rintro ⟨remote, u, hu, other, uremote, group, first⟩
    exact ⟨remote, u.1, other, u, hu, rfl, uremote, group, first⟩
  · rintro ⟨remote, k, other, u, hu, rfl, uremote, group, first⟩
    exact ⟨remote, u, hu, other, uremote, group, first⟩

theorem tins_perm {α : Type} (m : Table α) (n : Nat) (x : α) : (tins m n x).Perm ((n, x) :: m) := by
  induction m with
  | nil => exact .refl _
  | cons e m ih =>
    simp only [tins]
    split
    · exact .refl _
    · exact (ih.cons e).trans (.swap _ _ _)

/-- A listed entry of a table of distinct numbers, and the rest. -/
theorem perm_cons_tdel {α : Type} {m : Table α} (distinct : (m.map (·.1)).Nodup) {n : Nat} {x : α} (h : (n, x) ∈ m) :
    m.Perm ((n, x) :: tdel m n) := by
  induction m with
  | nil => simp at h
  | cons e m ih =>
    obtain ⟨fresh, distinct⟩ := List.nodup_cons.1 distinct
    rcases List.mem_cons.1 h with rfl | h
    · have same : tdel m n = m := List.filter_eq_self.2 fun y hy => by
        have other : y.1 ≠ n := fun hn => fresh (List.mem_map.2 ⟨y, hy, hn⟩)
        simpa using other
      rw [tdel, List.filter_cons_of_neg (by simp), ← tdel, same]
    · have other : e.1 ≠ n := fun hn => fresh (List.mem_map.2 ⟨_, h, hn.symm⟩)
      rw [tdel, List.filter_cons_of_pos (by simpa using other), ← tdel]
      exact ((ih distinct h).cons e).trans (.swap _ _ _)

/-- From s to t no group changes, nor, where accesses have numbers of their own, the passes in flight. -/
structure KeepsPasses (s t : State) : Prop where
  groups : t.groups = s.groups
  tags : s.distinctTxns → t.passTags.Perm s.passTags

theorem State.distinctTxns_of_perm {s t : State} (h : t.passTags.Perm s.passTags) (distinct : s.distinctTxns) : t.distinctTxns := by
  have numbers (u : State) : u.txns.map (·.1) = u.passTags.map (·.1) := by
    rw [State.passTags, List.map_map]
    rfl
  unfold State.distinctTxns at distinct ⊢
  rw [numbers] at distinct ⊢
  exact (h.map _).nodup_iff.2 distinct

theorem KeepsPasses.refl (s : State) : KeepsPasses s s := ⟨rfl, fun _ => .refl _⟩

theorem KeepsPasses.trans {s t u : State} (h : KeepsPasses s t) (h' : KeepsPasses t u) : KeepsPasses s u :=
  ⟨h'.groups.trans h.groups, fun distinct => (h'.tags (State.distinctTxns_of_perm (h.tags distinct) distinct)).trans (h.tags distinct)⟩

theorem SameWork.keepsPasses {s t : State} (h : SameWork s t) : KeepsPasses s t :=
  ⟨h.2, fun _ => by rw [State.passTags, h.1, State.passTags]⟩

theorem sameWork_foldl {β : Type} {f : State → β → State} (h : ∀ s x, SameWork s (f s x)) (l : List β) (s : State) :
    SameWork s (l.foldl f s) := by
  induction l generalizing s with
  | nil => exact ⟨rfl, rfl⟩
  | cons x l ih => exact (h s x).trans (ih _)

/-- An access written again as a pass of the instruction that it was. -/
theorem keepsPasses_tput {s : State} {u : Nat × Txn} {y : Txn} (listed : passTag u ∈ s.passTags) (same : passTag (u.1, y) = passTag u) :
    KeepsPasses s { s with txns := tput s.txns u.1 y } := by
  refine ⟨rfl, fun distinct => ?_⟩
  obtain ⟨v, hv, tag⟩ := List.mem_map.1 listed
  have number : v.1 = u.1 := by
    have h := congrArg Prod.fst tag
    exact h
  have old : s.txns.Perm (v :: tdel s.txns u.1) := by
    rw [← number]
    exact perm_cons_tdel distinct hv
  have new : (tput s.txns u.1 y).Perm ((u.1, y) :: tdel s.txns u.1) := tins_perm _ _ _
  have tags := (new.map passTag).trans (.trans (by rw [List.map_cons, List.map_cons, same, ← tag]) (old.map passTag).symm)
  exact tags

theorem keepsPasses_oweOnce (s : State) (e : Event) : KeepsPasses s (s.oweOnce e) := by
  unfold State.oweOnce
  split <;> exact ⟨rfl, fun _ => .refl _⟩

/-- A store of the write-combining buffer that its line has taken home. -/
def Txn.drained (line : Nat) (t : Txn) : Txn :=
  { t with lanes := t.lanes.map (fun p => if t.buffers p && p.result.isNone && lineOf p.loc == line then { p with result := some 0 } else p) }

/-- One of them is noted. -/
def State.noteDrained (line : Nat) (s : State) (u : Nat × Txn) : State :=
  let t := u.2.drained line
  let s1 := { s with txns := tput s.txns u.1 t }
  if t.lanes.all (fun p => p.result.isSome) then s1.oweOnce (.storeAck u.1) else s1

theorem noteDrained_keepsPasses {s : State} {u : Nat × Txn} (line : Nat) (listed : passTag u ∈ s.passTags) :
    KeepsPasses s (s.noteDrained line u) := by
  have noted : KeepsPasses s { s with txns := tput s.txns u.1 (u.2.drained line) } := keepsPasses_tput listed rfl
  simp only [State.noteDrained]
  split
  · exact noted.trans (keepsPasses_oweOnce _ _)
  · exact noted

theorem noteDrained_groups (s : State) (u : Nat × Txn) (line : Nat) : (s.noteDrained line u).groups = s.groups := by
  simp only [State.noteDrained]
  split
  · rw [(keepsPasses_oweOnce _ _).groups]
  · rfl

theorem foldl_noteDrained_keepsPasses {us : List (Nat × Txn)} {s : State} (line : Nat) (listed : ∀ u ∈ us, passTag u ∈ s.passTags) :
    KeepsPasses s (us.foldl (State.noteDrained line) s) := by
  induction us generalizing s with
  | nil => exact .refl s
  | cons u us ih =>
    have step := noteDrained_keepsPasses line (listed u List.mem_cons_self)
    have groups : (us.foldl (State.noteDrained line) (s.noteDrained line u)).groups = s.groups := by
      rw [← noteDrained_groups s u line]
      generalize s.noteDrained line u = s1
      clear ih step listed
      induction us generalizing s1 with
      | nil => rfl
      | cons v us ih => rw [List.foldl_cons, ih, noteDrained_groups]
    refine ⟨groups, fun distinct => ?_⟩
    have perm := step.tags distinct
    have rest := ih fun v hv => perm.symm.subset (listed v (List.mem_cons_of_mem _ hv))
    exact (rest.tags (State.distinctTxns_of_perm perm distinct)).trans perm

/-- A line of the write-combining buffer leaves for its home. -/
theorem drainLine_keepsPasses (s : State) (cl line : Nat) : KeepsPasses s (s.drainLine cl line) := by
  unfold State.drainLine
  dsimp only
  split
  · exact .refl s
  · next l found =>
    have written := sameWork_foldl (fun s (x : Nat × Byte) => sameWork_writeThrough s cl x.1 x.2.toNat 1) l.bytes
      (s.putCluster cl { s.clusterOf cl with wc := tdel (s.clusterOf cl).wc line })
    have start : KeepsPasses s ((l.bytes.foldl (fun s' (x : Nat × Byte) => s'.writeThrough cl x.1 x.2.toNat 1)
      (s.putCluster cl { s.clusterOf cl with wc := tdel (s.clusterOf cl).wc line })).cleansed (l.bytes.map (fun x => x.1))) :=
      SameWork.keepsPasses ⟨written.1, written.2⟩
    exact start.trans (foldl_noteDrained_keepsPasses line fun u hu => List.mem_map_of_mem (List.mem_of_mem_filter hu))

/-- What performing a piece outside any cache can do: nothing, or a write at its home behind the line of the buffer that holds it. -/
theorem perform_cases (s : State) {x : Txn} (src : x.src = none) (p : LaneAcc) :
    (s.perform false x p).1 = s ∨ ∃ v, (s.perform false x p).1 =
      (if p.ptype == 1 then s.drainLine x.cluster (lineOf p.loc) else s).writeThrough x.cluster p.loc v p.n := by
  by_cases idle : (!x.op.writes || (x.op == .cas && s.readHome x p != p.a)) = true
  · exact .inl (if_pos idle)
  · refine .inr ⟨(x.op.result x.signed x.fmode p.n (s.readHome x p) p.a p.b).1, (if_neg idle).trans ?_⟩
    rw [src]
    rfl

theorem perform_keepsPasses (s : State) {x : Txn} (src : x.src = none) (p : LaneAcc) : KeepsPasses s (s.perform false x p).1 := by
  rcases perform_cases s src p with same | ⟨v, written⟩
  · rw [same]
    exact .refl s
  · rw [written]
    refine KeepsPasses.trans ?_ (sameWork_writeThrough _ _ _ _ _).keepsPasses
    split
    · exact drainLine_keepsPasses s _ _
    · exact .refl s

/-! ### Memory of this device -/

theorem setHomeByte_mem {s : State} {loc : Nat} (abroad : 2 ^ 60 ≤ loc) (b : Byte) : (s.setHomeByte loc b).mem = s.mem := by
  rw [State.setHomeByte, locDev, if_neg (by omega)]
  rfl

theorem setHomeLe_mem (s : State) {loc : Nat} (abroad : 2 ^ 60 ≤ loc) (v n : Nat) : (s.setHomeLe loc v n).mem = s.mem := by
  induction n generalizing loc v with
  | zero => rfl
  | succ n ih => rw [State.setHomeLe, setHomeByte_mem abroad, ih (by omega)]

theorem writeThrough_mem (s : State) (cl : Nat) {loc : Nat} (abroad : 2 ^ 60 ≤ loc) (v n : Nat) : (s.writeThrough cl loc v n).mem = s.mem := by
  simp only [State.writeThrough]
  split <;> exact setHomeLe_mem s abroad v n

/-- A piece at another device that no write-combining buffer holds changes no memory of this one. -/
theorem perform_mem (s : State) {x : Txn} (src : x.src = none) {p : LaneAcc} (abroad : (locDev p.loc).isSome = true) (plain : p.ptype ≠ 1) :
    (s.perform false x p).1.mem = s.mem := by
  have far : 2 ^ 60 ≤ p.loc := by
    by_contra near
    rw [locDev, if_pos (by omega)] at abroad
    exact absurd abroad (by decide)
  rcases perform_cases s src p with same | ⟨v, written⟩
  · rw [same]
  · rw [written, writeThrough_mem _ _ far, if_neg (by simpa using plain)]

/-! ### An access given up -/

/-- An access given up, as it completes (R259). -/
def Txn.givenUp (x : Txn) : Txn :=
  { x with lost := true, lanes := x.lanes.map (fun p => if (locDev p.loc).isSome && !p.arrived then { p with result := none } else p) }

theorem Txn.givenUp_plain {x : Txn} (plain : ∀ p ∈ x.lanes, p.ptype ≠ 1) : ∀ p ∈ x.givenUp.lanes, p.ptype ≠ 1 := by
  intro p hp
  obtain ⟨q, hq, rfl⟩ := List.mem_map.1 hp
  split <;> exact plain q hq

/-- Pieces performed one after another where `maybe` says so, each at another device. -/
theorem performs_keep {s : State} {x : Txn} (src : x.src = none) {maybe : LaneAcc → Nat → Bool}
    (abroad : ∀ p i, maybe p i = true → (locDev p.loc).isSome = true) (us : List (LaneAcc × Nat)) (mine : ∀ u ∈ us, u.1 ∈ x.lanes) :
    let t := us.foldl (fun s' (u : LaneAcc × Nat) => if maybe u.1 u.2 then (s'.perform false x u.1).1 else s') s
    KeepsPasses s t ∧ ((∀ p ∈ x.lanes, p.ptype ≠ 1) → t.mem = s.mem) := by
  induction us generalizing s with
  | nil => exact ⟨.refl s, fun _ => rfl⟩
  | cons u us ih =>
    have rest := fun s => ih (s := s) fun v hv => mine v (List.mem_cons_of_mem _ hv)
    simp only [List.foldl_cons]
    split
    · next performed =>
      obtain ⟨keeps, mem⟩ := rest (s.perform false x u.1).1
      exact ⟨(perform_keepsPasses s src u.1).trans keeps,
        fun plain => (mem plain).trans (perform_mem s src (abroad _ _ performed) (plain _ (mine u List.mem_cons_self)))⟩
    · exact rest s

/-- An access given up completes, behind the stores of it that the free choices perform all the same: none where they never do. -/
theorem abandon_eq_complete (s : State) (n : Nat) {x : Txn} (src : x.src = none) :
    ∃ s1, s.abandon n x = { s1 with free := s1.free + 1 }.complete n x.givenUp ∧ KeepsPasses s s1 ∧
      ((∀ p ∈ x.lanes, p.ptype ≠ 1) → s1.mem = s.mem) ∧ ((∀ i, Config.freeBit i = false) → s1 = s) := by
  unfold State.abandon
  extract_lets late maybe s1
  have abroad : ∀ p i, maybe p i = true → (locDev p.loc).isSome = true := by
    intro p i performed
    simp only [maybe, late, Bool.and_eq_true] at performed
    obtain ⟨⟨⟨⟨⟨⟨far, _⟩, _⟩, _⟩, _⟩, _⟩, _⟩ := performed
    exact far
  obtain ⟨keeps, mem⟩ := performs_keep (s := s) src abroad x.lanes.zipIdx fun u hu => List.fst_mem_of_mem_zipIdx hu
  exact ⟨s1, rfl, keeps, mem, fun never => foldl_unchanged fun y _ => if_neg (by simp [maybe, never])⟩

theorem Txn.dueDetail_le_of_own {x : Txn} {a : Nat} (own : (if x.lost then some 32 else if x.noBorrow then some 33 else none) = some a) :
    ∃ d, x.dueDetail = some d ∧ d ≤ a := by
  unfold Txn.dueDetail
  rw [own]
  cases x.trap with
  | none => exact ⟨a, rfl, Nat.le_refl a⟩
  | some b => exact ⟨min a b, rfl, Nat.min_le_left a b⟩

theorem Group.owesPeer.mono {g : Group} {a b : Nat} (h : g.owesPeer a) (hab : a ≤ b) : g.owesPeer b := by
  obtain ⟨e, he, code, le⟩ := h
  exact ⟨e, he, code, le.trans hab⟩

theorem State.passOwes.mono {t : State} {x : Txn} {a b : Nat} (h : t.passOwes x a) (hab : a ≤ b) : t.passOwes x b := by
  obtain ⟨u, hu, first, group, e, trap, le⟩ := h
  exact ⟨u, hu, first, group, e, trap, le.trans hab⟩

/-- What O47 says of an access that the event i ends: it is over, and its trap is owed. -/
def EndsOwing (s : State) (n : Nat) (x : Txn) (i : Instr) (d : Nat) : Prop :=
  ∃ t, exec i s = .next t ∧ Over s t n x ∧ (¬ s.passesLeft n x → (t.group x.group).owesPeer d) ∧ (s.passesLeft n x → t.passOwes x d)

/-- The reach limit ends an access as O47 states where accesses have numbers of their own, whatever the free choices are. Where none
performs a store given up it does so in every state. -/
theorem endsOwing_reachLimit {s : State} {n : Nat} {x : Txn} (kept : s.distinctTxns ∨ ∀ i, Config.freeBit i = false)
    (found : tfind s.txns n = some x) (src : x.src = none) (copy : x.copy = none) (lives : s.hasGroup x.group = true)
    (live : (s.group x.group).live ≠ 0) (waits : ∃ p ∈ x.lanes, p.arrived = false) : EndsOwing s n x (.reachLimit n) 32 := by
  obtain ⟨p, hp, late⟩ := waits
  have some_late : ¬ x.lanes.all (·.arrived) = true := fun all => by simp [List.all_eq_true.1 all p hp] at late
  obtain ⟨d, due, le⟩ := Txn.dueDetail_le_of_own (x := x.givenUp) (a := 32) rfl
  obtain ⟨s1, abandoned, keeps, mem, same⟩ := abandon_eq_complete s n src
  have group (j : Nat) : s1.group j = s.group j := by rw [State.group, keeps.groups]; rfl
  have passes : s1.passesLeft n x ↔ s.passesLeft n x := by
    rcases kept with distinct | never
    · simp only [State.passesLeft_iff, (keeps.tags distinct).mem_iff]
    · rw [same never]
  obtain ⟨finished, own, passed⟩ := over_complete (s := { s1 with free := s1.free + 1 }) (n := n) (x := x.givenUp) src copy
    (by rw [State.hasGroup, keeps.groups]; exact lives) (fun h => live ((congrArg Group.live (group x.group)).symm.trans h)) due
  refine ⟨s.abandon n x, ?_, ?_⟩
  · simp only [exec, execReachLimit, found, if_neg some_late]
  · rw [abandoned]
    refine ⟨⟨finished.gone, fun plain => (finished.mem (x.givenUp_plain plain)).trans (mem plain), finished.busy, ?_, fun j hj => ?_⟩,
      fun h => (own fun h' => h (passes.1 h')).1.mono le, fun h => State.passOwes.mono (passed (passes.2 h)) le⟩
    · rw [← group]
      exact finished.cur
    · rw [← group]
      exact finished.others j hj

theorem endsOwing_reply {s : State} {n : Nat} {x : Txn} (found : tfind s.txns n = some x)
    (src : x.src = none) (copy : x.copy = none) (lives : s.hasGroup x.group = true) (live : (s.group x.group).live ≠ 0)
    (noBorrow : x.noBorrow = true) (kept : x.lost = false) (back : ∀ p ∈ x.lanes, p.going = false ∧ p.coming = false) :
    EndsOwing s n x (if x.op = .store then .storeAck n else .loadReply n) 33 := by
  have allIn : x.allIn = true := by
    rw [Txn.allIn, noBorrow, if_pos rfl, List.all_eq_true.2 fun p hp => by simp [back p hp], Bool.or_true]
  obtain ⟨d, due, le⟩ := Txn.dueDetail_le_of_own (x := x) (a := 33) (by simp [noBorrow, kept])
  obtain ⟨finished, own, passed⟩ := over_complete src copy lives live due
  refine ⟨s.complete n x, ?_, finished, fun h => (own h).1.mono le, fun h => State.passOwes.mono (passed h) le⟩
  by_cases store : x.op = .store
  · simp [store, exec, execStoreAck, found, allIn]
  · simp [store, exec, execLoadReply, found, allIn]

/-- A chunk of a copy that is gone or killed is dropped; another is sent again, or, the second time, its fault domain is killed (R305). -/
theorem exec_reachLimit_chunk {s : State} {n : Nat} {k : Chunk} (noTxn : tfind s.txns n = none) (noReq : tfind s.reqs n = none)
    (found : tfind s.chunks n = some k) : exec (.reachLimit n) s = .next (s.abandonChunk n k) := by
  simp only [exec, execReachLimit, noTxn, noReq, found]

theorem State.aliveCopy_isNone (s : State) (k : Chunk) :
    (s.aliveCopy k).isNone = true ↔ ¬ ∃ c, tfind s.copies k.copy = some c ∧ c.killed = false := by
  unfold State.aliveCopy
  cases tfind s.copies k.copy <;> simp [Option.filter]

/-- Where no free choice performs a store given up, the reach limit acts as O47 states. -/
theorem reachLimits_of_never (never : ∀ i, Config.freeBit i = false) : Rules.ReachLimits := by
  intro s n
  refine ⟨fun x found src copy lives live => ?_, fun r noTxn found unended owing purpose lives resident => ?_, fun k noTxn noReq found => ?_⟩
  · intro ends other owes
    have owes_of {i : Instr} {d : Nat} (h : EndsOwing s n x i d) : owes i d := by
      obtain ⟨t, run, finished, own, passed⟩ := h
      have endsWith {P : State → Prop} (hP : P t) : ends i P :=
        ⟨t, run, finished.gone, finished.mem, finished.busy, finished.cur, finished.others, hP⟩
      exact ⟨fun h => endsWith (own h), fun h => endsWith (passed h)⟩
    exact ⟨fun waits _ => owes_of (endsOwing_reachLimit (.inr never) found src copy lives live waits),
      fun noBorrow kept back => owes_of (endsOwing_reply found src copy lives live noBorrow kept back)⟩
  · refine ⟨fun silent => ⟨s.failRequest n r 4 none, ?_, borEnds_failRequest purpose lives resident (by decide) none⟩, fun waits => ?_⟩
    · simp [exec, execReachLimit, noTxn, found, unended, silent, purpose]
    · simp [exec, execReachLimit, noTxn, found, waits]
  · have run := exec_reachLimit_chunk noTxn noReq found
    refine ⟨fun dead => ?_, fun alive first => ?_, fun alive second => ?_⟩
    · rw [run, State.abandonChunk, if_pos ((s.aliveCopy_isNone k).2 dead)]
    · rw [run, State.abandonChunk, if_neg (fun h => (s.aliveCopy_isNone k).1 h alive), if_pos (by simp [first])]
      rfl
    · rw [run, State.abandonChunk, if_neg (fun h => (s.aliveCopy_isNone k).1 h alive), if_neg (by simp [second])]

/-! ### Where one is performed -/

/-- A piece of a store on a write-combining page of device 0. -/
def peerPiece : LaneAcc := { loc := 2 ^ 60, ptype := 1 }

/-- A remote store whose pieces have been answered but the last, which is place m of its list. -/
def lostStore (m : Nat) : Txn :=
  { op := .store, remote := true, lanes := List.replicate m { result := some 0 } ++ [peerPiece] }

/-- A store of the cluster that its write-combining buffer holds. -/
def bufferedStore : Txn := { op := .store, first := 2, lanes := [peerPiece] }

/-- Access 1 is to be given up. Number 2 stands for two accesses: a store in the line's buffer, and the other pass of the instruction of
access 1. -/
def sharedNumber (m : Nat) : State where
  groups := [(0, {})]
  peers := [(0, {})]
  clusters := [(0, { wc := [(2 ^ 53, {})] })]
  txns := [(1, lostStore m), (2, bufferedStore), (2, { remote := true })]

/-- The store in the buffer as it leaves: the other access of its number goes with it. -/
def drainedStore : Txn := { bufferedStore with lanes := [{ peerPiece with result := some 0 }] }

/-- As the line leaves, its store is noted under number 2, and the other access of that number is lost. -/
theorem drainLine_sharedNumber (m : Nat) :
    ((sharedNumber m).drainLine 0 (2 ^ 53)).txns = [(1, lostStore m), (2, drainedStore)] ∧
      ((sharedNumber m).drainLine 0 (2 ^ 53)).groups = [(0, {})] := by
  have line : tfind ((sharedNumber m).clusterOf 0).wc (2 ^ 53) = some {} := rfl
  have drains : (sharedNumber m).txns.filter (fun x => x.2.cluster == 0 && x.2.lanes.any fun p =>
      x.2.buffers p && p.result.isNone && lineOf p.loc == 2 ^ 53) = [(2, bufferedStore)] := by
    simp [sharedNumber, lostStore, bufferedStore, peerPiece, Txn.buffers, lineOf]
  simp only [State.drainLine, line, List.foldl_nil, List.map_nil]
  show (List.foldl _ _ (List.filter _ (sharedNumber m).txns) : State).txns = _ ∧
    (List.foldl _ _ (List.filter _ (sharedNumber m).txns) : State).groups = _
  rw [drains]
  exact ⟨rfl, rfl⟩

/-- Access 1 as the free choice has performed its last piece. -/
def performedState (m : Nat) : State := ((sharedNumber m).drainLine 0 (2 ^ 53)).writeThrough 0 (2 ^ 60) 0 4

theorem perform_sharedNumber (m : Nat) : ((sharedNumber m).perform false (lostStore m) peerPiece).1 = performedState m := by
  simp [State.perform, performedState, AccOp.writes, AccOp.result, lostStore, peerPiece, lineOf]

theorem abandon_sharedNumber {m : Nat} (performed : Config.freeBit m = true) :
    (sharedNumber m).abandon 1 (lostStore m) =
      { performedState m with free := (performedState m).free + 1 }.complete 1 (lostStore m).givenUp := by
  unfold State.abandon
  extract_lets late maybe s1
  have places : (lostStore m).lanes.zipIdx = (List.replicate m { result := some 0 }).zipIdx ++ [(peerPiece, m)] := by
    simp [lostStore, List.zipIdx_append]
  have answered : ∀ y ∈ (List.replicate m ({ result := some 0 } : LaneAcc)).zipIdx, maybe y.1 y.2 = false := by
    intro y hy
    rw [List.eq_of_mem_replicate (List.fst_mem_of_mem_zipIdx hy)]
    simp [maybe]
  have last : maybe peerPiece m = true := by
    simp [maybe, late, peerPiece, locDev, LaneAcc.arrived, lostStore, AccOp.writes, sharedNumber, tfind, performed]
  have start : s1 = performedState m := by
    show List.foldl _ _ (lostStore m).lanes.zipIdx = _
    rw [places, List.foldl_append, foldl_unchanged (l := (List.replicate m _).zipIdx) fun y hy => if_neg (by simp [answered y hy])]
    exact (if_pos last).trans (perform_sharedNumber m)
  rw [start]
  rfl

/-- The free choice that performs the last piece of access 1 writes its line through first, and of the accesses numbered 2 only the store
is left. -/
theorem exec_sharedNumber {m : Nat} (performed : Config.freeBit m = true) :
    ∃ t, exec (.reachLimit 1) (sharedNumber m) = .next t ∧ t.txns = [(2, drainedStore)] := by
  obtain ⟨txns, groups⟩ := drainLine_sharedNumber m
  obtain ⟨txns', groups'⟩ := sameWork_writeThrough ((sharedNumber m).drainLine 0 (2 ^ 53)) 0 (2 ^ 60) 0 4
  let s1 : State := { performedState m with free := (performedState m).free + 1 }
  have txns1 : s1.txns = [(1, lostStore m), (2, drainedStore)] := txns'.trans txns
  have groups1 : s1.groups = [(0, {})] := groups'.trans groups
  have alone : ¬ s1.passesLeft 1 (lostStore m).givenUp := by
    rintro ⟨_, u, hu, other, remote, _⟩
    simp only [txns1, List.mem_cons, List.not_mem_nil, or_false] at hu
    rcases hu with rfl | rfl
    · exact other rfl
    · exact absurd remote (by decide)
  obtain ⟨_, ends, _⟩ := over_complete (s := s1) (n := 1) (x := (lostStore m).givenUp) rfl rfl
    (by rw [State.hasGroup, groups1]; rfl) (by rw [State.group, groups1]; exact (by decide : ({} : Group).live ≠ 0)) rfl
  have late : ¬ (lostStore m).lanes.all (·.arrived) = true := by
    simp [lostStore, peerPiece, LaneAcc.arrived]
  refine ⟨(sharedNumber m).abandon 1 (lostStore m), ?_, ?_⟩
  · simp only [exec, execReachLimit, show tfind (sharedNumber m).txns 1 = some (lostStore m) from rfl, if_neg late]
  · rw [abandon_sharedNumber performed, (ends alone).2, txns1]
    rfl

/-- The other pass is in flight before the event, and after it no access owes the trap of the instruction. -/
theorem not_reachLimits_of_performed {m : Nat} (performed : Config.freeBit m = true) : ¬ Rules.ReachLimits := by
  intro h
  obtain ⟨accesses, _⟩ := h (sharedNumber m) 1
  obtain ⟨givenUp, _⟩ := accesses (lostStore m) rfl rfl rfl rfl (by decide : ({} : Group).live ≠ 0)
  obtain ⟨_, passed⟩ := givenUp ⟨peerPiece, by simp [lostStore], rfl⟩ fun p hp => by
    rcases List.mem_append.1 hp with answered | last
    · exact .inl (by rw [List.eq_of_mem_replicate answered]; rfl)
    · exact .inr (by rw [List.mem_singleton.1 last]; rfl)
  obtain ⟨t, run, _, _, _, _, _, u, hu, first, _⟩ := passed ⟨rfl, (2, { remote := true }), by simp [sharedNumber], by decide, rfl, rfl, rfl⟩
  obtain ⟨t', run', txns⟩ := exec_sharedNumber performed
  obtain rfl : t = t' := by simpa [run] using run'
  rw [txns, List.mem_singleton] at hu
  subst hu
  exact absurd first (by decide : (2 : Nat) ≠ 0)

/-- O47 says no more and no less than that no free choice ever performs a store given up (R259). The choices are opaque (log 2), so that this can
neither be proved nor refuted: the statement quantifies over states in which two accesses have one number, of which the write of such a store
may keep one only. Where accesses have numbers of their own its clause on accesses holds whatever the choices are (`endsOwing_reachLimit`). -/
theorem walksAndReach_iff_never_performed : Obligations.WalksAndReach ↔ ∀ m, Config.freeBit m = false := by
  unfold Obligations.WalksAndReach
  constructor
  · rintro ⟨_, reachLimits⟩ m
    by_contra performed
    exact not_reachLimits_of_performed (by simpa using performed) reachLimits
  · intro never
    exact ⟨walksEnd, reachLimits_of_never never⟩

end Sys2Proof.Machine
end

section
/-! SUPPORT. Words and instructions (R20 to R24, R35 to R48): the fields of a word, and that decoding and encoding are each other's
inverse. Every word has one of two layouts: three register fields and a minor code of five bits, or one register field and 17 bits that
the instruction divides up. -/

namespace Sys2Proof

set_option Elab.async false

/-! ### Fields of words -/

theorem fld_toNat (n lo w : Nat) : (fld n lo w).toNat = w / 2 ^ lo % 2 ^ n := by simp [fld]

theorem fld_eq_iff {n lo w : Nat} {v : BitVec n} : fld n lo w = v ↔ w / 2 ^ lo % 2 ^ n = v.toNat := by
  rw [← BitVec.toNat_inj, fld_toNat]

theorem fld_eq_zero_iff {n lo w : Nat} : fld n lo w = 0 ↔ w / 2 ^ lo % 2 ^ n = 0 := by
  rw [fld_eq_iff]
  simp

/-- The bits of the fields that must be zero are zero (R22). -/
def Clear (w : Nat) : List Operand → Prop
  | [] => True
  | o :: os => (fld o.width o.lo w).toNat &&& o.zeros = 0 ∧ Clear w os

theorem zero_and_mask {n z : Nat} : (0 : BitVec n).toNat &&& z = 0 := by simp

/-- A word keeps to what the fields of an instruction must hold besides its operands: zeros (R22) and no stall count of an instruction of
variable latency (R26). -/
structure Fills (w : Nat) (i : Instr) : Prop where
  clear : Clear w i.operands
  stall : i.isVariable = true → fld 3 23 w = 0

theorem fieldFault_eq_none_iff {w : Nat} {os : List Operand} :
    fieldFault w os = none ↔ Clear w os ∧ os.findSome? (fun o => o.kind.bad o.val) = none := by
  induction os with
  | nil => simp [fieldFault, Clear]
  | cons o os ih =>
    simp only [fieldFault, Clear, List.findSome?_cons, fld_toNat] at ih ⊢
    by_cases hz : w / 2 ^ o.lo % 2 ^ o.width &&& o.zeros = 0
    · cases o.kind.bad o.val <;> simp [hz, ih]
    · simp [hz]

/-- Steps 1 to 3 of R35: a word stands for an instruction if its codes name it, its fields are filled, and their values are admitted. -/
theorem decode_eq_ok_iff {w : Nat} {i : Instr} : decode w = .ok i ↔ candidate w = .ok i ∧ Fills w i ∧ i.badField = none := by
  have stall : w / 2 ^ 23 % 8 = 0 ↔ fld 3 23 w = 0 := by rw [fld_eq_iff]; rfl
  unfold decode
  split
  · next e he => simp [he]
  · next j hj =>
    have whole : fieldFault w i.operands = none ∧ (i.isVariable = true → w / 2 ^ 23 % 8 = 0) ↔ Fills w i ∧ i.badField = none := by
      rw [fieldFault_eq_none_iff, stall, Instr.badField]
      exact ⟨fun h => ⟨⟨h.1.1, h.2⟩, h.1.2⟩, fun h => ⟨⟨h.1.clear, h.2⟩, h.1.stall⟩⟩
    rw [hj, Except.ok.injEq, ← whole]
    split
    · next e he =>
      simp only [reduceCtorEq, false_iff]
      rintro ⟨rfl, h, -⟩
      simp [h] at he
    · next he =>
      by_cases hv : (j.isVariable && w / 2 ^ 23 % 8 != 0) = true
      · simp only [hv, if_true, reduceCtorEq, false_iff]
        rintro ⟨rfl, -, h⟩
        simp_all
      · simp only [hv]
        constructor
        · rintro h
          obtain rfl : j = i := by simpa using h
          exact ⟨rfl, he, by simpa using hv⟩
        · rintro ⟨rfl, -⟩
          rfl

/-! ### The two layouts -/

theorem word_eq_add (base : Nat) (fs : List (Nat × Nat)) : word base fs = base + word 0 fs := by
  induction fs generalizing base with
  | nil => rfl
  | cons f fs ih => rw [word, word, ih, ih (0 + _), Nat.zero_add, Nat.add_assoc]

/-- The codes of a word name an instruction, and its fields that must be zero are zero. -/
structure Row (w : Nat) (i : Instr) : Prop where
  names : candidate w = .ok i
  clear : Clear w i.operands

/-- The word of an instruction names it and fills its fields, and still does with a stall count that the instruction may not have. -/
structure Encodes (i : Instr) : Prop where
  isWord : encode i < 2 ^ 32
  stall : i.isVariable = true → fld 3 23 (encode i) = 0
  row : ∀ n, n < 8 → i.isVariable = true ∨ n = 0 → Row (encode i + n * 2 ^ 23) i

/-- A word of three register fields and a minor code. -/
theorem encodes_of_regs {i : Instr} {base : Nat} {s : BitVec 3} {d a b : BitVec 6}
    (he : encode i = word base [(s.toNat, 23), (d.toNat, 17), (a.toNat, 11), (b.toNat, 5)]) (hb : base < 2 ^ 32 ∧ base % 2 ^ 26 < 32)
    (hv : i.isVariable = false ∨ s = 0)
    (h : ∀ w, w / 2 ^ 26 % 64 = base / 2 ^ 26 → w % 32 = base % 32 → (i.isVariable = false → fld 3 23 w = s) → fld 6 17 w = d →
      fld 6 11 w = a → fld 6 5 w = b → Row w i) : Encodes i := by
  have := s.isLt; have := d.isLt; have := a.isLt; have := b.isLt
  have value : encode i = base + s.toNat * 2 ^ 23 + d.toNat * 2 ^ 17 + a.toNat * 2 ^ 11 + b.toNat * 2 ^ 5 := he
  have stall : i.isVariable = true → s.toNat = 0 := fun v => by simp [hv.resolve_left (by simp [v])]
  simp only [fld_eq_iff] at h
  refine ⟨by omega, fun v => fld_eq_zero_iff.2 (by have := stall v; omega), fun n hn free => ?_⟩
  have : s.toNat + n < 8 := by rcases free with v | rfl <;> [have := stall v; skip] <;> omega
  exact h _ (by omega) (by omega) (fun v => by have := free.resolve_left (by simp [v]); omega) (by omega) (by omega) (by omega)

/-- A word of one register field and 17 more bits, of which the base holds a minor code. -/
theorem encodes_of_wide {i : Instr} {base s d : Nat} {fs : List (Nat × Nat)} (he : encode i = word base ((s, 23) :: (d, 17) :: fs))
    (hb : base < 2 ^ 32 ∧ base % 2 ^ 26 < 32) (hs : s < 2 ^ 3) (hd : d < 2 ^ 6) (hx : word (base % 2 ^ 26) fs < 2 ^ 17)
    (hv : i.isVariable = false ∨ s = 0)
    (h : ∀ w, w / 2 ^ 26 % 64 = base / 2 ^ 26 → (i.isVariable = false → w / 2 ^ 23 % 2 ^ 3 = s) → w / 2 ^ 17 % 2 ^ 6 = d →
      w % 2 ^ 17 = word (base % 2 ^ 26) fs → Row w i) : Encodes i := by
  have value : encode i = base + s * 2 ^ 23 + d * 2 ^ 17 + word 0 fs := he.trans (word_eq_add _ fs)
  have low := word_eq_add (base % 2 ^ 26) fs
  have stall : i.isVariable = true → s = 0 := fun v => hv.resolve_left (by simp [v])
  refine ⟨by omega, fun v => fld_eq_zero_iff.2 (by have := stall v; omega), fun n hn free => ?_⟩
  have : s + n < 8 := by rcases free with v | rfl <;> [have := stall v; skip] <;> omega
  exact h _ (by omega) (fun v => by have := free.resolve_left (by simp [v]); omega) (by omega) (by omega)

/-- A word of an offset. -/
theorem encodes_of_offset {i : Instr} {base : Nat} {s : BitVec 3} {o : BitVec 23} (he : encode i = word base [(s.toNat, 23), (o.toNat, 0)])
    (hb : base < 2 ^ 32 ∧ base % 2 ^ 26 = 0) (hv : i.isVariable = false)
    (h : ∀ w, w / 2 ^ 26 % 64 = base / 2 ^ 26 → fld 3 23 w = s → fld 23 0 w = o → Row w i) : Encodes i := by
  have := s.isLt; have := o.isLt
  have value : encode i = base + s.toNat * 2 ^ 23 + o.toNat * 2 ^ 0 := he
  simp only [fld_eq_iff] at h
  refine ⟨by omega, fun v => absurd (hv.symm.trans v) Bool.false_ne_true, fun n hn free => ?_⟩
  obtain rfl := free.resolve_left (by simp [hv])
  exact h _ (by omega) (by omega) (by omega)

/-- A word that names an instruction and fills its fields is the instruction's, and the instruction has a word. -/
def Faithful (w : Nat) (i : Instr) : Prop := Fills w i → encode i = w ∧ i.isEvent = false ∧ i.badMinor = false

theorem faithful_of_regs {w m f base : Nat} {i : Instr} {s : BitVec 3} {d a b : BitVec 6}
    (he : encode i = word base [(s.toNat, 23), (d.toNat, 17), (a.toNat, 11), (b.toNat, 5)]) (hi : i.isEvent = false ∧ i.badMinor = false)
    (hw : w < 2 ^ 32) (hm : w / 2 ^ 26 % 64 = m) (hf : w % 32 = f) (hb : base = m * 2 ^ 26 + f)
    (hs : Fills w i → fld 3 23 w = s := by exact fun _ => rfl) (hd : Fills w i → fld 6 17 w = d := by exact fun _ => rfl)
    (ha : Fills w i → fld 6 11 w = a := by exact fun _ => rfl) (hc : Fills w i → fld 6 5 w = b := by exact fun _ => rfl) :
    Faithful w i := by
  intro h
  have := fld_eq_iff.1 (hs h); have := fld_eq_iff.1 (hd h); have := fld_eq_iff.1 (ha h); have := fld_eq_iff.1 (hc h)
  have value : encode i = base + s.toNat * 2 ^ 23 + d.toNat * 2 ^ 17 + a.toNat * 2 ^ 11 + b.toNat * 2 ^ 5 := he
  exact ⟨by omega, hi⟩

theorem faithful_of_wide {w m base s d : Nat} {i : Instr} {fs : List (Nat × Nat)} (he : encode i = word base ((s, 23) :: (d, 17) :: fs))
    (hi : i.isEvent = false ∧ i.badMinor = false) (hw : w < 2 ^ 32) (hm : w / 2 ^ 26 % 64 = m) (hb : base / 2 ^ 26 = m)
    (hs : Fills w i → w / 2 ^ 23 % 2 ^ 3 = s) (hd : Fills w i → w / 2 ^ 17 % 2 ^ 6 = d)
    (hx : Fills w i → w % 2 ^ 17 = word (base % 2 ^ 26) fs) : Faithful w i := by
  intro h
  have := hs h; have := hd h; have := hx h
  have value : encode i = base + s * 2 ^ 23 + d * 2 ^ 17 + word 0 fs := he.trans (word_eq_add _ fs)
  have low := word_eq_add (base % 2 ^ 26) fs
  exact ⟨by omega, hi⟩

theorem faithful_of_offset {w m base : Nat} {i : Instr}
    (he : encode i = word base [((fld 3 23 w).toNat, 23), ((fld 23 0 w).toNat, 0)]) (hi : i.isEvent = false ∧ i.badMinor = false)
    (hw : w < 2 ^ 32) (hm : w / 2 ^ 26 % 64 = m) (hb : base = m * 2 ^ 26) : Faithful w i := by
  refine fun _ => ⟨he.trans ?_, hi⟩
  simp only [word, fld_toNat]
  omega

theorem and_mask_eq_zero_iff {n k z : Nat} {x : BitVec n} (hz : z = 2 ^ n - 2 ^ k) (hk : k ≤ n) : x.toNat &&& z = 0 ↔ x.toNat < 2 ^ k := by
  have mask : z = (2 ^ (n - k) - 1) * 2 ^ k := by
    rw [hz, Nat.sub_mul, ← pow_add, Nat.sub_add_cancel hk, one_mul]
  have bit (j : Nat) : z.testBit j = (decide (k ≤ j) && decide (j < n)) := by
    rw [mask, Nat.testBit_mul_two_pow, Nat.testBit_two_pow_sub_one]
    by_cases h : k ≤ j
    · simp only [h, decide_true, Bool.true_and, decide_eq_decide]
      omega
    · simp [h]
  constructor
  · intro h
    refine Nat.lt_pow_two_of_testBit _ fun j hj => ?_
    have both := congrArg (·.testBit j) h
    simp only [Nat.testBit_and, bit, Nat.zero_testBit] at both
    by_cases hn : j < n
    · simpa [hj, hn] using both
    · exact Nat.testBit_lt_two_pow (x.isLt.trans_le (Nat.pow_le_pow_right (by decide) (by omega)))
  · intro h
    refine Nat.eq_of_testBit_eq fun j => ?_
    by_cases hj : k ≤ j
    · simp [Nat.testBit_lt_two_pow (h.trans_le (Nat.pow_le_pow_right (by decide) hj))]
    · simp [bit, hj]

/-- The bits of a field that must be zero are those from bit k on. -/
theorem clear_from (n lo k : Nat) {w z : Nat} (h : w / 2 ^ lo % 2 ^ n < 2 ^ k) (hz : z = 2 ^ n - 2 ^ k := by exact rfl) (hk : k ≤ n := by decide) :
    (fld n lo w).toNat &&& z = 0 := by rwa [and_mask_eq_zero_iff hz hk, fld_toNat]

theorem below_of_clear (n lo k : Nat) {w z : Nat} (h : (fld n lo w).toNat &&& z = 0)
    (hz : z = 2 ^ n - 2 ^ k := by exact rfl) (hk : k ≤ n := by decide) : w / 2 ^ lo % 2 ^ n < 2 ^ k := by
  rwa [and_mask_eq_zero_iff hz hk, fld_toNat] at h

/-- A field of six bits that must be zero. -/
theorem fld_eq_zero_of_mask {lo w : Nat} (h : (fld 6 lo w).toNat &&& 63 = 0) : fld 6 lo w = 0 := by
  have none := below_of_clear 6 lo 0 h
  exact fld_eq_iff.2 (by simpa using none)

/-! ### Words that leave register fields at zero -/

section
variable {base : Nat} {s : BitVec 3} {d a b : BitVec 6}

theorem word_dab : word base [(d.toNat, 17), (a.toNat, 11), (b.toNat, 5)] =
    word base [((0 : BitVec 3).toNat, 23), (d.toNat, 17), (a.toNat, 11), (b.toNat, 5)] := by
  simp [word]

theorem word_ab : word base [(a.toNat, 11), (b.toNat, 5)] =
    word base [((0 : BitVec 3).toNat, 23), ((0 : BitVec 6).toNat, 17), (a.toNat, 11), (b.toNat, 5)] := by
  simp [word]

theorem word_sda : word base [(s.toNat, 23), (d.toNat, 17), (a.toNat, 11)] =
    word base [(s.toNat, 23), (d.toNat, 17), (a.toNat, 11), ((0 : BitVec 6).toNat, 5)] := by
  simp [word]

theorem word_da : word base [(d.toNat, 17), (a.toNat, 11)] =
    word base [((0 : BitVec 3).toNat, 23), (d.toNat, 17), (a.toNat, 11), ((0 : BitVec 6).toNat, 5)] := by
  simp [word]

theorem word_db : word base [(d.toNat, 17), (b.toNat, 5)] =
    word base [((0 : BitVec 3).toNat, 23), (d.toNat, 17), ((0 : BitVec 6).toNat, 11), (b.toNat, 5)] := by
  simp [word]

theorem word_sa : word base [(s.toNat, 23), (a.toNat, 11)] =
    word base [(s.toNat, 23), ((0 : BitVec 6).toNat, 17), (a.toNat, 11), ((0 : BitVec 6).toNat, 5)] := by
  simp [word]

theorem word_sb : word base [(s.toNat, 23), (b.toNat, 5)] =
    word base [(s.toNat, 23), ((0 : BitVec 6).toNat, 17), ((0 : BitVec 6).toNat, 11), (b.toNat, 5)] := by
  simp [word]

theorem word_d : word base [(d.toNat, 17)] =
    word base [((0 : BitVec 3).toNat, 23), (d.toNat, 17), ((0 : BitVec 6).toNat, 11), ((0 : BitVec 6).toNat, 5)] := by
  simp [word]

theorem word_a : word base [(a.toNat, 11)] =
    word base [((0 : BitVec 3).toNat, 23), ((0 : BitVec 6).toNat, 17), (a.toNat, 11), ((0 : BitVec 6).toNat, 5)] := by
  simp [word]

theorem word_b : word base [(b.toNat, 5)] =
    word base [((0 : BitVec 3).toNat, 23), ((0 : BitVec 6).toNat, 17), ((0 : BitVec 6).toNat, 11), (b.toNat, 5)] := by
  simp [word]

theorem word_s : word base [(s.toNat, 23)] =
    word base [(s.toNat, 23), ((0 : BitVec 6).toNat, 17), ((0 : BitVec 6).toNat, 11), ((0 : BitVec 6).toNat, 5)] := by
  simp [word]

theorem word_nil : word base [] =
    word base [((0 : BitVec 3).toNat, 23), ((0 : BitVec 6).toNat, 17), ((0 : BitVec 6).toNat, 11), ((0 : BitVec 6).toNat, 5)] := by
  simp [word]

theorem word_wide_d {d : Nat} {fs : List (Nat × Nat)} : word base ((d, 17) :: fs) = word base ((0, 23) :: (d, 17) :: fs) := by
  simp [word]

theorem word_wide_s {s : Nat} {fs : List (Nat × Nat)} : word base ((s, 23) :: fs) = word base ((s, 23) :: (0, 17) :: fs) := by
  simp [word]

theorem word_wide {fs : List (Nat × Nat)} : word base fs = word base ((0, 23) :: (0, 17) :: fs) := by
  simp [word]

end
/-! ### The opcode map by major code (R37) -/

section
variable {w : Nat}

theorem candidate_control (h : w / 2 ^ 26 % 64 = 0x05) : candidate w = minorControl w := by rw [candidate, h]; rfl
theorem candidate_arith (h : w / 2 ^ 26 % 64 = 0x08) : candidate w = minorArith w := by rw [candidate, h]; rfl
theorem candidate_bits (h : w / 2 ^ 26 % 64 = 0x09) : candidate w = minorBits w := by rw [candidate, h]; rfl
theorem candidate_compare (h : w / 2 ^ 26 % 64 = 0x0C) : candidate w = minorCompare w := by rw [candidate, h]; rfl
theorem candidate_lanes (h : w / 2 ^ 26 % 64 = 0x0E) : candidate w = minorLanes w := by rw [candidate, h]; rfl
theorem candidate_preds (h : w / 2 ^ 26 % 64 = 0x0F) : candidate w = minorPreds w := by rw [candidate, h]; rfl
theorem candidate_float (h : w / 2 ^ 26 % 64 = 0x19) : candidate w = minorFloat w := by rw [candidate, h]; rfl
theorem candidate_fcmp (h : w / 2 ^ 26 % 64 = 0x1A) : candidate w = minorFcmp w := by rw [candidate, h]; rfl
theorem candidate_blocks (h : w / 2 ^ 26 % 64 = 0x1C) : candidate w = minorBlocks w := by rw [candidate, h]; rfl
theorem candidate_events (h : w / 2 ^ 26 % 64 = 0x1D) : candidate w = minorEvents w := by rw [candidate, h]; rfl
theorem candidate_publish (h : w / 2 ^ 26 % 64 = 0x20) : candidate w = minorPublish w := by rw [candidate, h]; rfl
theorem candidate_borrow (h : w / 2 ^ 26 % 64 = 0x22) : candidate w = minorBorrow w := by rw [candidate, h]; rfl
theorem candidate_scratch (h : w / 2 ^ 26 % 64 = 0x26) : candidate w = minorScratch w := by rw [candidate, h]; rfl
theorem candidate_address (h : w / 2 ^ 26 % 64 = 0x27) : candidate w = minorAddress w := by rw [candidate, h]; rfl
theorem candidate_copy (h : w / 2 ^ 26 % 64 = 0x34) : candidate w = minorCopy w := by rw [candidate, h]; rfl
theorem candidate_barrier (h : w / 2 ^ 26 % 64 = 0x35) : candidate w = minorBarrier w := by rw [candidate, h]; rfl
theorem candidate_fence (h : w / 2 ^ 26 % 64 = 0x36) :
    candidate w = if w % 32 = 0 then .ok (.fencei) else .ok (.fence (fld 2 3 w) (fld 3 0 w)) := by rw [candidate, h]; rfl
theorem candidate_matrix (h : w / 2 ^ 26 % 64 = 0x39) : candidate w = minorMatrix w := by rw [candidate, h]; rfl
theorem candidate_task (h : w / 2 ^ 26 % 64 = 0x3B) : candidate w = minorTask w := by rw [candidate, h]; rfl
theorem candidate_system (h : w / 2 ^ 26 % 64 = 0x3C) : candidate w = minorSystem w := by rw [candidate, h]; rfl

/-- The majors of commons accesses carry the two order bits (R46). -/
theorem candidate_atomic (h : w / 2 ^ 28 % 16 = 0x0C) : candidate w = minorAtomic w := by
  have split : w / 2 ^ 26 % 64 = 0x30 ∨ w / 2 ^ 26 % 64 = 0x31 ∨ w / 2 ^ 26 % 64 = 0x32 ∨ w / 2 ^ 26 % 64 = 0x33 := by omega
  rcases split with h | h | h | h <;> rw [candidate, h] <;> rfl
end
/-! ### Shapes of the 17 low bits with a minor code -/

theorem block_fields {w c : Nat} {a : BitVec 6} {l : BitVec 1} {f : BitVec 2} (hc : c % 8 = 0 ∧ c < 32)
    (hx : w % 2 ^ 17 = word c [(a.toNat, 11), (l.toNat, 2), (f.toNat, 0)]) :
    w / 8 % 4 = c / 8 ∧ w % 4 = f.toNat ∧ w / 2 ^ 5 % 2 ^ 6 = 0 ∧ fld 6 11 w = a ∧ fld 1 2 w = l ∧ fld 2 0 w = f := by
  have := a.isLt; have := l.isLt; have := f.isLt
  simp only [word] at hx
  simp only [fld_eq_iff]
  omega

theorem scratch_fields {w c : Nat} {a : BitVec 6} {z : BitVec 3} (hc : c % 8 = 0 ∧ c < 32)
    (hx : w % 2 ^ 17 = word c [(a.toNat, 11), (z.toNat, 0)]) :
    w / 8 % 4 = c / 8 ∧ w % 8 = z.toNat ∧ w / 2 ^ 5 % 2 ^ 6 = 0 ∧ fld 6 11 w = a ∧ fld 3 0 w = z := by
  have := a.isLt; have := z.isLt
  simp only [word] at hx
  simp only [fld_eq_iff]
  omega

/-- The words of the commons carry order bits within the major (R46). -/
theorem encodes_of_atomic {i : Instr} {base q : Nat} {d a : BitVec 6} {g : BitVec 5} {k : BitVec 2}
    (he : encode i = word base [(q, 26), (d.toNat, 17), (g.toNat, 12), (a.toNat, 6), (k.toNat, 4)])
    (hb : base / 2 ^ 26 = 0x30 ∧ base % 2 ^ 26 < 16) (hq : q < 4)
    (h : ∀ w, candidate w = minorAtomic w → w % 16 = base % 16 → w / 2 ^ 26 % 2 ^ 2 = q → fld 6 17 w = d → fld 5 12 w = g →
      fld 6 6 w = a → fld 2 4 w = k → Row w i) : Encodes i := by
  have := d.isLt; have := g.isLt; have := a.isLt; have := k.isLt
  have value : encode i = base + q * 2 ^ 26 + d.toNat * 2 ^ 17 + g.toNat * 2 ^ 12 + a.toNat * 2 ^ 6 + k.toNat * 2 ^ 4 := he
  simp only [fld_eq_iff] at h
  refine ⟨by omega, fun _ => fld_eq_zero_iff.2 (by omega), fun n hn _ => ?_⟩
  exact h _ (candidate_atomic (by omega)) (by omega) (by omega) (by omega) (by omega) (by omega) (by omega)

/-! ### Encoding: the word of an instruction names it -/

theorem encodes_of_fixed {i : Instr} (hm' : i.badMinor = false) (hv : i.isEvent = false ∧ i.isVariable = false) : Encodes i := by
  cases i with
  | bra s a | calla s a =>
    exact encodes_of_regs word_sa (by decide) (.inl rfl) fun w hm hf hs hd ha hb => by
      refine ⟨?_, ?_⟩
      · simp only [candidate_control hm, minorControl, hf, hs rfl, ha]
      · simp only [Instr.operands, Clear, hd, hb, zero_and_mask, Nat.and_zero, and_self]
  | ret s | join s | yield s | exit s | nop s =>
    exact encodes_of_regs word_s (by decide) (.inl rfl) fun w hm hf hs hd ha hb => by
      refine ⟨?_, ?_⟩
      · simp only [candidate_control hm, minorControl, hf, hs rfl]
      · simp only [Instr.operands, Clear, hd, ha, hb, zero_and_mask, and_self]
  | add s d a b | sub s d a b | mul s d a b | mulh s d a b | min s d a b | max s d a b =>
    exact encodes_of_regs rfl (by decide) (.inl rfl) fun w hm hf hs hd ha hb => by
      refine ⟨?_, ?_⟩
      · simp only [candidate_arith hm, minorArith, hf, hs rfl, hd, ha, hb]
      · exact ⟨Nat.and_zero _, Nat.and_zero _, Nat.and_zero _, trivial⟩
  | abs s d a | neg s d a =>
    exact encodes_of_regs word_sda (by decide) (.inl rfl) fun w hm hf hs hd ha hb => by
      refine ⟨?_, ?_⟩
      · simp only [candidate_arith hm, minorArith, hf, hs rfl, hd, ha]
      · simp only [Instr.operands, Clear, hb, zero_and_mask, Nat.and_zero, and_self]
  | and s d a b | or s d a b | xor s d a b | andn s d a b | shl s d a b | shr s d a b | sra s d a b | rotl s d a b | bext s d a b
  | bins s d a b | ext s d a b | cvti s d a b =>
    exact encodes_of_regs rfl (by decide) (.inl rfl) fun w hm hf hs hd ha hb => by
      refine ⟨?_, ?_⟩
      · simp only [candidate_bits hm, minorBits, hf, hs rfl, hd, ha, hb]
      · exact ⟨Nat.and_zero _, Nat.and_zero _, Nat.and_zero _, trivial⟩
  | not s d a | clz s d a | ctz s d a | popc s d a | brev s d a | mov s d a =>
    exact encodes_of_regs word_sda (by decide) (.inl rfl) fun w hm hf hs hd ha hb => by
      refine ⟨?_, ?_⟩
      · simp only [candidate_bits hm, minorBits, hf, hs rfl, hd, ha]
      · simp only [Instr.operands, Clear, hb, zero_and_mask, Nat.and_zero, and_self]
  | cmpEq s d a b | cmpNe s d a b | cmpLt s d a b | cmpLe s d a b | cmpGt s d a b | cmpGe s d a b =>
    exact encodes_of_regs rfl (by decide) (.inl rfl) fun w hm hf hs hd ha hb => by
      refine ⟨?_, ?_⟩
      · simp only [candidate_compare hm, minorCompare, hf, hs rfl, hd, ha, hb]
      · exact ⟨Nat.and_zero _, Nat.and_zero _, Nat.and_zero _, trivial⟩
  | shflAt s d a b | shflRise s d a b | shflFall s d a b | shflFlip s d a b =>
    exact encodes_of_regs rfl (by decide) (.inl rfl) fun w hm hf hs hd ha hb => by
      refine ⟨?_, ?_⟩
      · simp only [candidate_lanes hm, minorLanes, hf, hs rfl, hd, ha, hb]
      · exact ⟨Nat.and_zero _, Nat.and_zero _, Nat.and_zero _, trivial⟩
  | voteAny s d a | voteAll s d a | voteBallot s d a | scanAdd s d a | scanMin s d a | scanMax s d a | scanAddx s d a =>
    exact encodes_of_regs word_sda (by decide) (.inl rfl) fun w hm hf hs hd ha hb => by
      refine ⟨?_, ?_⟩
      · simp only [candidate_lanes hm, minorLanes, hf, hs rfl, hd, ha]
      · simp only [Instr.operands, Clear, hb, zero_and_mask, Nat.and_zero, and_self]
  | pand s d a b | por s d a b | pxor s d a b =>
    exact encodes_of_regs rfl (by decide) (.inl rfl) fun w hm hf hs hd ha hb => by
      refine ⟨?_, ?_⟩
      · simp only [candidate_preds hm, minorPreds, hf, hs rfl, hd, ha, hb]
      · exact ⟨Nat.and_zero _, Nat.and_zero _, Nat.and_zero _, trivial⟩
  | pnot s d a =>
    exact encodes_of_regs word_sda (by decide) (.inl rfl) fun w hm hf hs hd ha hb => by
      refine ⟨?_, ?_⟩
      · simp only [candidate_preds hm, minorPreds, hf, hs rfl, hd, ha]
      · simp only [Instr.operands, Clear, hb, zero_and_mask, Nat.and_zero, and_self]
  | fadd s d a b | fsub s d a b | fmul s d a b | fmin s d a b | fmax s d a b | fdot2 s d a b =>
    exact encodes_of_regs rfl (by decide) (.inl rfl) fun w hm hf hs hd ha hb => by
      refine ⟨?_, ?_⟩
      · simp only [candidate_float hm, minorFloat, hf, hs rfl, hd, ha, hb]
      · exact ⟨Nat.and_zero _, Nat.and_zero _, Nat.and_zero _, trivial⟩
  | fabs s d a | fneg s d a | frcp s d a | frsq s d a | fexp2 s d a | flog2 s d a | fclass s d a =>
    exact encodes_of_regs word_sda (by decide) (.inl rfl) fun w hm hf hs hd ha hb => by
      refine ⟨?_, ?_⟩
      · simp only [candidate_float hm, minorFloat, hf, hs rfl, hd, ha]
      · simp only [Instr.operands, Clear, hb, zero_and_mask, Nat.and_zero, and_self]
  | fcmpEq s d a b | fcmpNe s d a b | fcmpLt s d a b | fcmpLe s d a b | fcmpGt s d a b | fcmpGe s d a b | fcmpUn s d a b | fcmpOr s d a b =>
    exact encodes_of_regs rfl (by decide) (.inl rfl) fun w hm hf hs hd ha hb => by
      refine ⟨?_, ?_⟩
      · simp only [candidate_fcmp hm, minorFcmp, hf, hs rfl, hd, ha, hb]
      · exact ⟨Nat.and_zero _, Nat.and_zero _, Nat.and_zero _, trivial⟩
  | cvtaGl s d a | cvtaGc s d a | cvtaLg s d a | cvtaCg s d a | inapGlobal s d a | inapPeer s d a | inapCluster s d a | inapLocal s d a =>
    exact encodes_of_regs word_sda (by decide) (.inl rfl) fun w hm hf hs hd ha hb => by
      refine ⟨?_, ?_⟩
      · simp only [candidate_address hm, minorAddress, hf, hs rfl, hd, ha]
      · simp only [Instr.operands, Clear, hb, zero_and_mask, Nat.and_zero, and_self]
  | trap s b | brk s b =>
    exact encodes_of_regs word_sb (by decide) (.inl rfl) fun w hm hf hs hd ha hb => by
      refine ⟨?_, ?_⟩
      · simp only [candidate_system hm, minorSystem, hf, hs rfl, hb]
      · simp only [Instr.operands, Clear, hd, ha, zero_and_mask, Nat.and_zero, and_self]
  | br s o | call s o | fuse s o =>
    exact encodes_of_offset rfl (by decide) rfl fun w hm hs ho => ⟨by rw [candidate, hm]; show Except.ok _ = _; simp only [hs, ho], trivial⟩
  | mode s m =>
    have := m.isLt
    refine encodes_of_wide word_wide_s (by decide) s.isLt (by decide) (by simp only [word]; omega) (.inl rfl) fun w hm hs hd hx => ?_
    have := hs rfl
    simp only [word] at hx
    have fields : fld 3 23 w = s ∧ fld 16 0 w = m := by simp only [fld_eq_iff]; omega
    exact ⟨by rw [candidate, hm]; show Except.ok _ = _; simp only [fields],
      ⟨clear_from 6 17 0 (by omega), clear_from 17 0 16 (by omega), trivial⟩⟩
  | modg s n p =>
    have := n.isLt; have := p.isLt
    refine encodes_of_wide word_wide_s (by decide) s.isLt (by decide) (by simp only [word]; omega) (.inl rfl) fun w hm hs hd hx => ?_
    have := hs rfl
    simp only [word] at hx
    have fields : fld 3 23 w = s ∧ fld 1 3 w = n ∧ fld 3 0 w = p := by simp only [fld_eq_iff]; omega
    exact ⟨by rw [candidate, hm]; show Except.ok _ = _; simp only [fields],
      ⟨clear_from 6 17 0 (by omega), clear_from 17 0 4 (by omega), trivial⟩⟩
  | lea s d a b x =>
    have := a.isLt; have := b.isLt; have := x.isLt
    refine encodes_of_wide rfl (by decide) s.isLt d.isLt (by simp only [word]; omega) (.inl rfl) fun w hm hs hd hx => ?_
    have := hs rfl
    simp only [word] at hx
    have fields : fld 3 23 w = s ∧ fld 6 17 w = d ∧ fld 6 11 w = a ∧ fld 6 5 w = b ∧ fld 2 0 w = x := by
      simp only [fld_eq_iff]; omega
    refine ⟨?_, ⟨Nat.and_zero _, Nat.and_zero _, Nat.and_zero _, trivial⟩⟩
    have minor : w % 32 = 12 ∨ w % 32 = 13 ∨ w % 32 = 14 ∨ w % 32 = 15 := by omega
    rcases minor with hf | hf | hf | hf <;> simp only [candidate_arith hm, minorArith, hf, fields]
  | mad s d a b c | madh s d a b c | fma s d a b c =>
    have := a.isLt; have := b.isLt; have := c.isLt
    refine encodes_of_wide rfl (by decide) s.isLt d.isLt (by simp only [word]; omega) (.inl rfl) fun w hm hs hd hx => ?_
    have := hs rfl
    simp only [word] at hx
    have fields : fld 3 23 w = s ∧ fld 6 17 w = d ∧ fld 6 11 w = a ∧ fld 6 5 w = b ∧ fld 5 0 w = c := by
      simp only [fld_eq_iff]; omega
    exact ⟨by rw [candidate, hm]; show Except.ok _ = _; simp only [fields],
      ⟨Nat.and_zero _, Nat.and_zero _, Nat.and_zero _, Nat.and_zero _, trivial⟩⟩
  | sel s d a b n p =>
    have := a.isLt; have := b.isLt; have := n.isLt; have := p.isLt
    refine encodes_of_wide rfl (by decide) s.isLt d.isLt (by simp only [word]; omega) (.inl rfl) fun w hm hs hd hx => ?_
    have := hs rfl
    simp only [word] at hx
    have fields : fld 3 23 w = s ∧ fld 6 17 w = d ∧ fld 6 11 w = a ∧ fld 6 5 w = b ∧ fld 1 3 w = n ∧ fld 3 0 w = p := by
      simp only [fld_eq_iff]; omega
    exact ⟨by rw [candidate, hm]; show Except.ok _ = _; simp only [fields],
      ⟨Nat.and_zero _, Nat.and_zero _, Nat.and_zero _, clear_from 1 4 0 (by omega), trivial⟩⟩
  | fcvt s d a e =>
    have := a.isLt; have := e.isLt
    refine encodes_of_wide rfl (by decide) s.isLt d.isLt (by simp only [word]; omega) (.inl rfl) fun w hm hs hd hx => ?_
    have := hs rfl
    simp only [word] at hx
    have fields : fld 3 23 w = s ∧ fld 6 17 w = d ∧ fld 6 11 w = a ∧ fld 4 0 w = e := by simp only [fld_eq_iff]; omega
    exact ⟨by rw [candidate, hm]; show Except.ok _ = _; simp only [fields],
      ⟨Nat.and_zero _, Nat.and_zero _, clear_from 6 5 0 (by omega), clear_from 1 4 0 (by omega), Nat.and_zero _, trivial⟩⟩
  | movi s d i | movu s d i =>
    have := i.isLt
    refine encodes_of_wide rfl (by decide) s.isLt d.isLt (by simp only [word]; omega) (.inl rfl) fun w hm hs hd hx => ?_
    have := hs rfl
    simp only [word] at hx
    have fields : fld 3 23 w = s ∧ fld 6 17 w = d ∧ fld 17 0 w = i := by simp only [fld_eq_iff]; omega
    exact ⟨by rw [candidate, hm]; show Except.ok _ = _; simp only [fields], ⟨Nat.and_zero _, Nat.and_zero _, trivial⟩⟩
  | rds s d n | wrs s d n =>
    have := n.isLt
    refine encodes_of_wide rfl (by decide) s.isLt d.isLt (by simp only [word]; omega) (.inl rfl) fun w hm hs hd hx => ?_
    have := hs rfl
    simp only [word] at hx
    have fields : fld 3 23 w = s ∧ fld 6 17 w = d ∧ fld 12 0 w = n := by simp only [fld_eq_iff]; omega
    exact ⟨by rw [candidate, hm]; show Except.ok _ = _; simp only [fields], ⟨Nat.and_zero _, clear_from 17 0 12 (by omega), trivial⟩⟩
  | addi s d a i | andi s d a i | ori s d a i | xori s d a i =>
    have := a.isLt; have := i.isLt
    refine encodes_of_wide rfl (by decide) s.isLt d.isLt (by simp only [word]; omega) (.inl rfl) fun w hm hs hd hx => ?_
    have := hs rfl
    simp only [word] at hx
    have fields : fld 3 23 w = s ∧ fld 6 17 w = d ∧ fld 6 11 w = a ∧ fld 11 0 w = i := by simp only [fld_eq_iff]; omega
    exact ⟨by rw [candidate, hm]; show Except.ok _ = _; simp only [fields],
      ⟨Nat.and_zero _, Nat.and_zero _, Nat.and_zero _, trivial⟩⟩
  | shli s d a c | shri s d a c =>
    have := a.isLt; have := c.isLt
    refine encodes_of_wide rfl (by decide) s.isLt d.isLt (by simp only [word]; omega) (.inl rfl) fun w hm hs hd hx => ?_
    have := hs rfl
    simp only [word] at hx
    have fields : fld 3 23 w = s ∧ fld 6 17 w = d ∧ fld 6 11 w = a ∧ fld 6 0 w = c := by simp only [fld_eq_iff]; omega
    exact ⟨by rw [candidate, hm]; show Except.ok _ = _; simp only [fields],
      ⟨Nat.and_zero _, Nat.and_zero _, clear_from 11 0 6 (by omega), trivial⟩⟩
  | sxpk s d a l f | sxupk s d a l f | zpk s d a l f | zupk s d a l f =>
    have := a.isLt; have := l.isLt; have := f.isLt
    refine encodes_of_wide rfl (by decide) s.isLt d.isLt (by simp only [word]; omega) (.inl rfl) fun w hm hs hd hx => ?_
    obtain ⟨minor, format, zero, fields⟩ := block_fields (by decide) hx
    simp only [Instr.badMinor, decide_eq_false_iff_not] at hm'
    refine ⟨?_, ⟨Nat.and_zero _, Nat.and_zero _, clear_from 6 5 0 (by omega), trivial⟩⟩
    simp only [candidate_blocks hm, minorBlocks, minor, Nat.reducePow, Nat.reduceMod, Nat.reduceDiv, format, if_neg hm', fld_eq_iff.2 (hs rfl),
        fld_eq_iff.2 hd, fields]
  | _ => exact absurd hv (by rintro ⟨⟨⟩, ⟨⟩⟩)

theorem encodes_of_variable {i : Instr} (hm' : i.badMinor = false) (hb : i.badField = none) (hv : i.isVariable = true) : Encodes i := by
  cases i with
  | div d a b | rem d a b =>
    exact encodes_of_regs word_dab (by decide) (.inr rfl) fun w hm hf hs hd ha hb => by
      refine ⟨?_, ?_⟩
      · simp only [candidate_arith hm, minorArith, hf, hd, ha, hb]
      · exact ⟨Nat.and_zero _, Nat.and_zero _, Nat.and_zero _, trivial⟩
  | fdiv d a b =>
    exact encodes_of_regs word_dab (by decide) (.inr rfl) fun w hm hf hs hd ha hb => by
      refine ⟨?_, ?_⟩
      · simp only [candidate_float hm, minorFloat, hf, hd, ha, hb]
      · exact ⟨Nat.and_zero _, Nat.and_zero _, Nat.and_zero _, trivial⟩
  | fsqrt d a =>
    exact encodes_of_regs word_da (by decide) (.inr rfl) fun w hm hf hs hd ha hb => by
      refine ⟨?_, ?_⟩
      · simp only [candidate_float hm, minorFloat, hf, hd, ha]
      · simp only [Instr.operands, Clear, hb, zero_and_mask, Nat.and_zero, and_self]
  | evrd d b =>
    exact encodes_of_regs word_db (by decide) (.inr rfl) fun w hm hf hs hd ha hb => by
      refine ⟨?_, ?_⟩
      · simp only [candidate_events hm, minorEvents, hf, hd, hb]
      · simp only [Instr.operands, Clear, ha, zero_and_mask, Nat.and_zero, and_self]
  | evclr b =>
    exact encodes_of_regs word_b (by decide) (.inr rfl) fun w hm hf hs hd ha hb => by
      refine ⟨?_, ?_⟩
      · simp only [candidate_events hm, minorEvents, hf, hb]
      · simp only [Instr.operands, Clear, hd, ha, zero_and_mask, Nat.and_zero, and_self]
  | pub a b =>
    exact encodes_of_regs word_ab (by decide) (.inr rfl) fun w hm hf hs hd ha hb => by
      refine ⟨?_, ?_⟩
      · simp only [candidate_publish hm, minorPublish, hf, ha, hb]
      · simp only [Instr.operands, Clear, hd, zero_and_mask, Nat.and_zero, and_self]
  | borX d a b | borS d a b | borC d a b | borXW d a b | borSW d a b | borCW d a b | bsplit d a b =>
    exact encodes_of_regs word_dab (by decide) (.inr rfl) fun w hm hf hs hd ha hb => by
      refine ⟨?_, ?_⟩
      · simp only [candidate_borrow hm, minorBorrow, hf, hd, ha, hb]
      · exact ⟨Nat.and_zero _, Nat.and_zero _, Nat.and_zero _, trivial⟩
  | bdown b | bret b =>
    exact encodes_of_regs word_b (by decide) (.inr rfl) fun w hm hf hs hd ha hb => by
      refine ⟨?_, ?_⟩
      · simp only [candidate_borrow hm, minorBorrow, hf, hb]
      · simp only [Instr.operands, Clear, hd, ha, zero_and_mask, Nat.and_zero, and_self]
  | bup d b | bjoin d b | bquery d b =>
    exact encodes_of_regs word_db (by decide) (.inr rfl) fun w hm hf hs hd ha hb => by
      refine ⟨?_, ?_⟩
      · simp only [candidate_borrow hm, minorBorrow, hf, hd, hb]
      · simp only [Instr.operands, Clear, ha, zero_and_mask, Nat.and_zero, and_self]
  | bhand a b =>
    exact encodes_of_regs word_ab (by decide) (.inr rfl) fun w hm hf hs hd ha hb => by
      refine ⟨?_, ?_⟩
      · simp only [candidate_borrow hm, minorBorrow, hf, ha, hb]
      · simp only [Instr.operands, Clear, hd, zero_and_mask, Nat.and_zero, and_self]
  | bankset a b | fput a b =>
    exact encodes_of_regs word_ab (by decide) (.inr rfl) fun w hm hf hs hd ha hb => by
      refine ⟨?_, ?_⟩
      · simp only [candidate_address hm, minorAddress, hf, ha, hb]
      · simp only [Instr.operands, Clear, hd, zero_and_mask, Nat.and_zero, and_self]
  | fget d a =>
    exact encodes_of_regs word_da (by decide) (.inr rfl) fun w hm hf hs hd ha hb => by
      refine ⟨?_, ?_⟩
      · simp only [candidate_address hm, minorAddress, hf, hd, ha]
      · simp only [Instr.operands, Clear, hb, zero_and_mask, Nat.and_zero, and_self]
  | waitc b =>
    exact encodes_of_regs word_b (by decide) (.inr rfl) fun w hm hf hs hd ha hb => by
      refine ⟨?_, ?_⟩
      · simp only [candidate_address hm, minorAddress, hf, hb]
      · simp only [Instr.operands, Clear, hd, ha, zero_and_mask, Nat.and_zero, and_self]
  | cpl d a b | cpb d a b | cprAdd d a b | cprMin d a b | cprMax d a b | cprFadd d a b =>
    exact encodes_of_regs word_dab (by decide) (.inr rfl) fun w hm hf hs hd ha hb => by
      refine ⟨?_, ?_⟩
      · simp only [candidate_copy hm, minorCopy, hf, hd, ha, hb]
      · exact ⟨Nat.and_zero _, Nat.and_zero _, Nat.and_zero _, trivial⟩
  | winit d a b =>
    exact encodes_of_regs word_dab (by decide) (.inr rfl) fun w hm hf hs hd ha hb => by
      refine ⟨?_, ?_⟩
      · simp only [candidate_barrier hm, minorBarrier, hf, hd, ha, hb]
      · exact ⟨Nat.and_zero _, Nat.and_zero _, Nat.and_zero _, trivial⟩
  | wexp d a | wtest d a =>
    exact encodes_of_regs word_da (by decide) (.inr rfl) fun w hm hf hs hd ha hb => by
      refine ⟨?_, ?_⟩
      · simp only [candidate_barrier hm, minorBarrier, hf, hd, ha]
      · simp only [Instr.operands, Clear, hb, zero_and_mask, Nat.and_zero, and_self]
  | warr d | wwait d =>
    exact encodes_of_regs word_d (by decide) (.inr rfl) fun w hm hf hs hd ha hb => by
      refine ⟨?_, ?_⟩
      · simp only [candidate_barrier hm, minorBarrier, hf, hd]
      · simp only [Instr.operands, Clear, ha, hb, zero_and_mask, Nat.and_zero, and_self]
  | mclaim d | mrel d | mzero d =>
    exact encodes_of_regs word_d (by decide) (.inr rfl) fun w hm hf hs hd ha hb => by
      refine ⟨?_, ?_⟩
      · simp only [candidate_matrix hm, minorMatrix, hf, hd]
      · simp only [Instr.operands, Clear, ha, hb, zero_and_mask, Nat.and_zero, and_self]
  | mld d a b | mst d a b =>
    exact encodes_of_regs word_dab (by decide) (.inr rfl) fun w hm hf hs hd ha hb => by
      refine ⟨?_, ?_⟩
      · simp only [candidate_matrix hm, minorMatrix, hf, hd, ha, hb]
      · exact ⟨Nat.and_zero _, Nat.and_zero _, Nat.and_zero _, trivial⟩
  | macc d a | mshape d a =>
    exact encodes_of_regs word_da (by decide) (.inr rfl) fun w hm hf hs hd ha hb => by
      refine ⟨?_, ?_⟩
      · simp only [candidate_matrix hm, minorMatrix, hf, hd, ha]
      · simp only [Instr.operands, Clear, hb, zero_and_mask, Nat.and_zero, and_self]
  | spawn d a b | spawnh d a b =>
    exact encodes_of_regs word_dab (by decide) (.inr rfl) fun w hm hf hs hd ha hb => by
      refine ⟨?_, ?_⟩
      · simp only [candidate_task hm, minorTask, hf, hd, ha, hb]
      · exact ⟨Nat.and_zero _, Nat.and_zero _, Nat.and_zero _, trivial⟩
  | bin d a =>
    exact encodes_of_regs word_da (by decide) (.inr rfl) fun w hm hf hs hd ha hb => by
      refine ⟨?_, ?_⟩
      · simp only [candidate_task hm, minorTask, hf, hd, ha]
      · simp only [Instr.operands, Clear, hb, zero_and_mask, Nat.and_zero, and_self]
  | patch a b =>
    exact encodes_of_regs word_ab (by decide) (.inr rfl) fun w hm hf hs hd ha hb => by
      refine ⟨?_, ?_⟩
      · simp only [candidate_task hm, minorTask, hf, ha, hb]
      · simp only [Instr.operands, Clear, hd, zero_and_mask, Nat.and_zero, and_self]
  | release a =>
    exact encodes_of_regs word_a (by decide) (.inr rfl) fun w hm hf hs hd ha hb => by
      refine ⟨?_, ?_⟩
      · simp only [candidate_task hm, minorTask, hf, ha]
      · simp only [Instr.operands, Clear, hd, hb, zero_and_mask, Nat.and_zero, and_self]
  | tret =>
    exact encodes_of_regs (base := 0xf0000001) word_nil (by decide) (.inr rfl) fun w hm hf hs hd ha hb => by
      refine ⟨?_, ?_⟩
      · simp only [candidate_system hm, minorSystem, hf]
      · simp only [Instr.operands, Clear, hd, ha, hb, zero_and_mask, and_self]
  | halt =>
    exact encodes_of_regs (base := 0xf0000004) word_nil (by decide) (.inr rfl) fun w hm hf hs hd ha hb => by
      refine ⟨?_, ?_⟩
      · simp only [candidate_system hm, minorSystem, hf]
      · simp only [Instr.operands, Clear, hd, ha, hb, zero_and_mask, and_self]
  | tlbi a b =>
    exact encodes_of_regs word_ab (by decide) (.inr rfl) fun w hm hf hs hd ha hb => by
      refine ⟨?_, ?_⟩
      · simp only [candidate_system hm, minorSystem, hf, ha, hb]
      · simp only [Instr.operands, Clear, hd, zero_and_mask, Nat.and_zero, and_self]
  | preempt a =>
    exact encodes_of_regs word_a (by decide) (.inr rfl) fun w hm hf hs hd ha hb => by
      refine ⟨?_, ?_⟩
      · simp only [candidate_system hm, minorSystem, hf, ha]
      · simp only [Instr.operands, Clear, hd, hb, zero_and_mask, Nat.and_zero, and_self]
  | brt a n =>
    have := a.isLt; have := n.isLt
    refine encodes_of_wide word_wide (by decide) (by decide) (by decide) (by simp only [word]; omega) (.inr rfl) fun w hm hs hd hx => ?_
    simp only [word] at hx
    have fields : fld 6 11 w = a ∧ fld 11 0 w = n := by simp only [fld_eq_iff]; omega
    exact ⟨by rw [candidate, hm]; show Except.ok _ = _; simp only [fields],
      ⟨clear_from 6 17 0 (by omega), Nat.and_zero _, Nat.and_zero _, trivial⟩⟩
  | mma d a b c =>
    have := a.isLt; have := b.isLt; have := c.isLt
    refine encodes_of_wide word_wide_d (by decide) (by decide) d.isLt (by simp only [word]; omega) (.inr rfl) fun w hm hs hd hx => ?_
    simp only [word] at hx
    have fields : fld 6 17 w = d ∧ fld 6 11 w = a ∧ fld 6 5 w = b ∧ fld 5 0 w = c := by
      simp only [fld_eq_iff]; omega
    exact ⟨by rw [candidate, hm]; show Except.ok _ = _; simp only [fields],
      ⟨Nat.and_zero _, Nat.and_zero _, Nat.and_zero _, Nat.and_zero _, trivial⟩⟩
  | rdsp d n | wrsp d n =>
    have := n.isLt
    refine encodes_of_wide word_wide_d (by decide) (by decide) d.isLt (by simp only [word]; omega) (.inr rfl) fun w hm hs hd hx => ?_
    simp only [word] at hx
    have fields : fld 6 17 w = d ∧ fld 12 0 w = n := by simp only [fld_eq_iff]; omega
    exact ⟨by rw [candidate, hm]; show Except.ok _ = _; simp only [fields], ⟨Nat.and_zero _, clear_from 17 0 12 (by omega), trivial⟩⟩
  | cdef d j k =>
    have := j.isLt; have := k.isLt
    refine encodes_of_wide word_wide_d (by decide) (by decide) d.isLt (by simp only [word]; omega) (.inr rfl) fun w hm hs hd hx => ?_
    simp only [word] at hx
    have fields : fld 6 17 w = d ∧ fld 2 11 w = j ∧ fld 10 0 w = k := by
      simp only [fld_eq_iff]; omega
    exact ⟨by rw [candidate, hm]; show Except.ok _ = _; simp only [fields],
      ⟨Nat.and_zero _, clear_from 6 11 2 (by omega), clear_from 11 0 10 (by omega), trivial⟩⟩
  | ld d g a k z h | st d g a k z h =>
    have := g.isLt; have := a.isLt; have := k.isLt; have := z.isLt; have := h.isLt
    refine encodes_of_wide word_wide_d (by decide) (by decide) d.isLt (by simp only [word]; omega) (.inr rfl) fun w hm hs hd hx => ?_
    simp only [word] at hx
    have fields : fld 6 17 w = d ∧ fld 5 12 w = g ∧ fld 6 6 w = a ∧ fld 2 4 w = k ∧ fld 3 1 w = z ∧ fld 1 0 w = h := by
      simp only [fld_eq_iff]; omega
    have size : ¬ 5 ≤ w / 2 % 8 := by
      simp only [Instr.badMinor, decide_eq_false_iff_not] at hm'
      omega
    exact ⟨by rw [candidate, hm]; show ite _ _ _ = _; simp only [fields, if_neg size], ⟨Nat.and_zero _, Nat.and_zero _, trivial⟩⟩
  | pref g a k h =>
    have := g.isLt; have := a.isLt; have := k.isLt; have := h.isLt
    refine encodes_of_wide word_wide (by decide) (by decide) (by decide) (by simp only [word]; omega) (.inr rfl) fun w hm hs hd hx => ?_
    simp only [word] at hx
    have fields : fld 5 12 w = g ∧ fld 6 6 w = a ∧ fld 2 4 w = k ∧ fld 1 0 w = h := by
      simp only [fld_eq_iff]; omega
    exact ⟨by rw [candidate, hm]; show Except.ok _ = _; simp only [fields],
      ⟨clear_from 6 17 0 (by omega), Nat.and_zero _, clear_from 3 1 0 (by omega), trivial⟩⟩
  | ldl d a z | stl d a z | ldc d a z | stc d a z =>
    have := a.isLt; have := z.isLt
    refine encodes_of_wide word_wide_d (by decide) (by decide) d.isLt (by simp only [word]; omega) (.inr rfl) fun w hm hs hd hx => ?_
    obtain ⟨minor, size, zero, fields⟩ := scratch_fields (by decide) hx
    simp only [Instr.badMinor, decide_eq_false_iff_not] at hm'
    refine ⟨?_, ⟨Nat.and_zero _, Nat.and_zero _, clear_from 6 5 0 (by omega), trivial⟩⟩
    simp only [candidate_scratch hm, minorScratch, minor, Nat.reducePow, Nat.reduceMod, Nat.reduceDiv, size, if_neg hm', fld_eq_iff.2 hd, fields]
  | rld d p o k g | rst d p o k g | ratmAdd d p o k g | ratmXchg d p o k g | ratmCas d p o k g =>
    have := p.isLt; have := o.isLt; have := k.isLt; have := g.isLt
    refine encodes_of_wide word_wide_d (by decide) (by decide) d.isLt (by simp only [word]; omega) (.inr rfl) fun w hm hs hd hx => ?_
    simp only [word] at hx
    have fields : fld 6 17 w = d ∧ fld 6 11 w = p ∧ fld 6 5 w = o ∧ fld 2 3 w = k ∧ fld 3 0 w = g := by
      simp only [fld_eq_iff]; omega
    exact ⟨by rw [candidate, hm]; show Except.ok _ = _; simp only [fields],
      ⟨Nat.and_zero _, Nat.and_zero _, Nat.and_zero _, trivial⟩⟩
  | fencei =>
    refine encodes_of_regs (base := 0xd8000000) word_nil (by decide) (.inr rfl) fun w hm hf hs hd ha hb => ⟨?_, ?_⟩
    · rw [candidate_fence hm, if_pos hf]
    · simp only [Instr.operands, Clear, hd, ha, hb, zero_and_mask, and_self]
  | fence r k =>
    have := r.isLt; have := k.isLt
    refine encodes_of_wide word_wide (by decide) (by decide) (by decide) (by simp only [word]; omega) (.inr rfl) fun w hm hs hd hx => ?_
    simp only [word] at hx
    have fields : fld 2 3 w = r ∧ fld 3 0 w = k := by simp only [fld_eq_iff]; omega
    have covers : w % 32 ≠ 0 := by
      simp [Instr.badField, Instr.operands, FieldKind.bad] at hb
      omega
    refine ⟨by rw [candidate_fence hm, if_neg covers, fields.1, fields.2], ?_⟩
    exact ⟨clear_from 6 17 0 (by omega), clear_from 6 11 0 (by omega), clear_from 6 5 0 (by omega), Nat.and_zero _, trivial⟩
  | fencer a b r k =>
    have := a.isLt; have := b.isLt; have := r.isLt; have := k.isLt
    refine encodes_of_wide word_wide (by decide) (by decide) (by decide) (by simp only [word]; omega) (.inr rfl) fun w hm hs hd hx => ?_
    simp only [word] at hx
    have fields : fld 6 11 w = a ∧ fld 6 5 w = b ∧ fld 2 3 w = r ∧ fld 3 0 w = k := by
      simp only [fld_eq_iff]; omega
    exact ⟨by rw [candidate, hm]; show Except.ok _ = _; simp only [fields],
      ⟨clear_from 6 17 0 (by omega), Nat.and_zero _, Nat.and_zero _, Nat.and_zero _, trivial⟩⟩
  | aadd q d g a k | asub q d g a k | amin q d g a k | amax q d g a k | aand q d g a k | aor q d g a k | axor q d g a k | axchg q d g a k
  | acas q d g a k | ainc q d g a k | adec q d g a k | afadd q d g a k =>
    refine encodes_of_atomic rfl (by decide) q.isLt fun w hm hf hq hd hg ha hk => ⟨?_, ⟨Nat.and_zero _, Nat.and_zero _, trivial⟩⟩
    simp only [hm, minorAtomic, hf, fld_eq_iff.2 hq, hd, hg, ha, hk]
  | ald q d g a k =>
    have := q.isLt
    refine encodes_of_atomic rfl (by decide) (by omega) fun w hm hf hq hd hg ha hk => ⟨?_, ⟨Nat.and_zero _, Nat.and_zero _, trivial⟩⟩
    have acquire : fld 1 26 w = q := fld_eq_iff.2 (by omega)
    have relaxed : ¬ w / 2 ^ 27 % 2 = 1 := by omega
    simp only [hm, minorAtomic, hf, if_neg relaxed, acquire, hd, hg, ha, hk]
  | ast q d g a k =>
    have := q.isLt
    refine encodes_of_atomic (base := 0xc000000d) (q := 2 * q.toNat) (d := d) (g := g) (a := a) (k := k) ?_ (by decide) (by omega)
      fun w hm hf hq hd hg ha hk =>
      ⟨?_, ⟨Nat.and_zero _, Nat.and_zero _, trivial⟩⟩
    · show word _ _ = word _ _
      simp only [word]
      omega
    have release : fld 1 27 w = q := fld_eq_iff.2 (by omega)
    have relaxed : ¬ w / 2 ^ 26 % 2 = 1 := by omega
    simp only [hm, minorAtomic, hf, if_neg relaxed, release, hd, hg, ha, hk]
  | ahint h g =>
    refine encodes_of_atomic (q := 0) (a := 0) (k := 0) (g := g) (d := h) (base := 0xc000000e) ?_ (by decide) (by decide)
      fun w hm hf hq hd hg ha hk => ⟨?_, ?_⟩
    · show word _ _ = word _ _
      simp [word]
    · have plain : ¬ w / 2 ^ 26 % 4 ≠ 0 := by omega
      simp only [hm, minorAtomic, hf, if_neg plain, hd, hg]
    · simp only [Instr.operands, Clear, hd, ha, hk, zero_and_mask, Nat.and_zero, and_self]
  | _ => exact absurd hv Bool.false_ne_true

/-! ### Decoding: a word is that of the instruction it names -/

theorem faithful_minorControl {w : Nat} {i : Instr} (hw : w < 2 ^ 32) (hm : w / 2 ^ 26 % 64 = 0x05) (h : minorControl w = .ok i) :
    Faithful w i := by
  unfold minorControl at h
  split at h <;> cases h
  case h_1 hf | h_2 hf =>
    exact faithful_of_regs word_sa ⟨rfl, rfl⟩ hw hm hf rfl (hd := fun h => fld_eq_zero_of_mask h.clear.1)
      (hc := fun h => fld_eq_zero_of_mask h.clear.2.2.1)
  case h_3 hf | h_4 hf | h_5 hf | h_6 hf | h_7 hf =>
    exact faithful_of_regs word_s ⟨rfl, rfl⟩ hw hm hf rfl (hd := fun h => fld_eq_zero_of_mask h.clear.1)
      (ha := fun h => fld_eq_zero_of_mask h.clear.2.1) (hc := fun h => fld_eq_zero_of_mask h.clear.2.2.1)

theorem faithful_minorArith {w : Nat} {i : Instr} (hw : w < 2 ^ 32) (hm : w / 2 ^ 26 % 64 = 0x08) (h : minorArith w = .ok i) : Faithful w i := by
  unfold minorArith at h
  split at h <;> cases h
  case h_1 hf | h_2 hf | h_3 hf | h_4 hf | h_7 hf | h_8 hf =>
    exact faithful_of_regs rfl ⟨rfl, rfl⟩ hw hm hf rfl
  case h_5 hf | h_6 hf =>
    exact faithful_of_regs word_dab ⟨rfl, rfl⟩ hw hm hf rfl (hs := fun h => h.stall rfl)
  case h_9 hf | h_10 hf =>
    exact faithful_of_regs word_sda ⟨rfl, rfl⟩ hw hm hf rfl (hc := fun h => fld_eq_zero_of_mask h.clear.2.2.1)
  case h_11 hf | h_12 hf | h_13 hf | h_14 hf =>
    refine faithful_of_wide (fs := [((fld 6 11 w).toNat, 11), ((fld 6 5 w).toNat, 5), ((fld 2 0 w).toNat, 0)]) rfl ⟨rfl, rfl⟩ hw hm rfl
      (fun _ => (fld_toNat ..).symm) (fun _ => (fld_toNat ..).symm) fun _ => ?_
    simp only [word, fld_toNat]
    omega

theorem faithful_minorBits {w : Nat} {i : Instr} (hw : w < 2 ^ 32) (hm : w / 2 ^ 26 % 64 = 0x09) (h : minorBits w = .ok i) : Faithful w i := by
  unfold minorBits at h
  split at h <;> cases h
  case h_1 hf | h_2 hf | h_3 hf | h_4 hf | h_6 hf | h_7 hf | h_8 hf | h_9 hf | h_14 hf | h_15 hf | h_17 hf | h_18 hf =>
    exact faithful_of_regs rfl ⟨rfl, rfl⟩ hw hm hf rfl
  case h_5 hf | h_10 hf | h_11 hf | h_12 hf | h_13 hf | h_16 hf =>
    exact faithful_of_regs word_sda ⟨rfl, rfl⟩ hw hm hf rfl (hc := fun h => fld_eq_zero_of_mask h.clear.2.2.1)

theorem faithful_minorCompare {w : Nat} {i : Instr} (hw : w < 2 ^ 32) (hm : w / 2 ^ 26 % 64 = 0x0C) (h : minorCompare w = .ok i) :
    Faithful w i := by
  unfold minorCompare at h
  split at h <;> cases h
  case h_1 hf | h_2 hf | h_3 hf | h_4 hf | h_5 hf | h_6 hf =>
    exact faithful_of_regs rfl ⟨rfl, rfl⟩ hw hm hf rfl

theorem faithful_minorLanes {w : Nat} {i : Instr} (hw : w < 2 ^ 32) (hm : w / 2 ^ 26 % 64 = 0x0E) (h : minorLanes w = .ok i) : Faithful w i := by
  unfold minorLanes at h
  split at h <;> cases h
  case h_1 hf | h_2 hf | h_3 hf | h_4 hf =>
    exact faithful_of_regs rfl ⟨rfl, rfl⟩ hw hm hf rfl
  case h_5 hf | h_6 hf | h_7 hf | h_8 hf | h_9 hf | h_10 hf | h_11 hf =>
    exact faithful_of_regs word_sda ⟨rfl, rfl⟩ hw hm hf rfl (hc := fun h => fld_eq_zero_of_mask h.clear.2.2.1)

theorem faithful_minorPreds {w : Nat} {i : Instr} (hw : w < 2 ^ 32) (hm : w / 2 ^ 26 % 64 = 0x0F) (h : minorPreds w = .ok i) : Faithful w i := by
  unfold minorPreds at h
  split at h <;> cases h
  case h_1 hf | h_2 hf | h_3 hf =>
    exact faithful_of_regs rfl ⟨rfl, rfl⟩ hw hm hf rfl
  case h_4 hf =>
    exact faithful_of_regs word_sda ⟨rfl, rfl⟩ hw hm hf rfl (hc := fun h => fld_eq_zero_of_mask h.clear.2.2.1)

theorem faithful_minorFloat {w : Nat} {i : Instr} (hw : w < 2 ^ 32) (hm : w / 2 ^ 26 % 64 = 0x19) (h : minorFloat w = .ok i) : Faithful w i := by
  unfold minorFloat at h
  split at h <;> cases h
  case h_1 hf | h_2 hf | h_3 hf | h_4 hf | h_5 hf | h_14 hf =>
    exact faithful_of_regs rfl ⟨rfl, rfl⟩ hw hm hf rfl
  case h_6 hf | h_7 hf | h_10 hf | h_11 hf | h_12 hf | h_13 hf | h_15 hf =>
    exact faithful_of_regs word_sda ⟨rfl, rfl⟩ hw hm hf rfl (hc := fun h => fld_eq_zero_of_mask h.clear.2.2.1)
  case h_8 hf =>
    exact faithful_of_regs word_dab ⟨rfl, rfl⟩ hw hm hf rfl (hs := fun h => h.stall rfl)
  case h_9 hf =>
    exact faithful_of_regs word_da ⟨rfl, rfl⟩ hw hm hf rfl (hs := fun h => h.stall rfl) (hc := fun h => fld_eq_zero_of_mask h.clear.2.2.1)

theorem faithful_minorFcmp {w : Nat} {i : Instr} (hw : w < 2 ^ 32) (hm : w / 2 ^ 26 % 64 = 0x1A) (h : minorFcmp w = .ok i) : Faithful w i := by
  unfold minorFcmp at h
  split at h <;> cases h
  case h_1 hf | h_2 hf | h_3 hf | h_4 hf | h_5 hf | h_6 hf | h_7 hf | h_8 hf =>
    exact faithful_of_regs rfl ⟨rfl, rfl⟩ hw hm hf rfl

theorem faithful_minorEvents {w : Nat} {i : Instr} (hw : w < 2 ^ 32) (hm : w / 2 ^ 26 % 64 = 0x1D) (h : minorEvents w = .ok i) :
    Faithful w i := by
  unfold minorEvents at h
  split at h <;> cases h
  case h_1 hf =>
    exact faithful_of_regs word_db ⟨rfl, rfl⟩ hw hm hf rfl (hs := fun h => h.stall rfl) (ha := fun h => fld_eq_zero_of_mask h.clear.2.1)
  case h_2 hf =>
    exact faithful_of_regs word_b ⟨rfl, rfl⟩ hw hm hf rfl (hs := fun h => h.stall rfl)
      (hd := fun h => fld_eq_zero_of_mask h.clear.1) (ha := fun h => fld_eq_zero_of_mask h.clear.2.1)

theorem faithful_minorPublish {w : Nat} {i : Instr} (hw : w < 2 ^ 32) (hm : w / 2 ^ 26 % 64 = 0x20) (h : minorPublish w = .ok i) :
    Faithful w i := by
  unfold minorPublish at h
  split at h <;> cases h
  case h_1 hf =>
    exact faithful_of_regs word_ab ⟨rfl, rfl⟩ hw hm hf rfl (hs := fun h => h.stall rfl) (hd := fun h => fld_eq_zero_of_mask h.clear.1)

theorem faithful_minorBorrow {w : Nat} {i : Instr} (hw : w < 2 ^ 32) (hm : w / 2 ^ 26 % 64 = 0x22) (h : minorBorrow w = .ok i) :
    Faithful w i := by
  unfold minorBorrow at h
  split at h <;> cases h
  case h_1 hf | h_2 hf | h_3 hf | h_4 hf | h_5 hf | h_6 hf | h_9 hf =>
    exact faithful_of_regs word_dab ⟨rfl, rfl⟩ hw hm hf rfl (hs := fun h => h.stall rfl)
  case h_7 hf | h_12 hf =>
    exact faithful_of_regs word_b ⟨rfl, rfl⟩ hw hm hf rfl (hs := fun h => h.stall rfl)
      (hd := fun h => fld_eq_zero_of_mask h.clear.1) (ha := fun h => fld_eq_zero_of_mask h.clear.2.1)
  case h_8 hf | h_10 hf | h_13 hf =>
    exact faithful_of_regs word_db ⟨rfl, rfl⟩ hw hm hf rfl (hs := fun h => h.stall rfl) (ha := fun h => fld_eq_zero_of_mask h.clear.2.1)
  case h_11 hf =>
    exact faithful_of_regs word_ab ⟨rfl, rfl⟩ hw hm hf rfl (hs := fun h => h.stall rfl) (hd := fun h => fld_eq_zero_of_mask h.clear.1)

theorem faithful_minorAddress {w : Nat} {i : Instr} (hw : w < 2 ^ 32) (hm : w / 2 ^ 26 % 64 = 0x27) (h : minorAddress w = .ok i) :
    Faithful w i := by
  unfold minorAddress at h
  split at h <;> cases h
  case h_1 hf | h_2 hf | h_3 hf | h_4 hf | h_5 hf | h_6 hf | h_7 hf | h_8 hf =>
    exact faithful_of_regs word_sda ⟨rfl, rfl⟩ hw hm hf rfl (hc := fun h => fld_eq_zero_of_mask h.clear.2.2.1)
  case h_9 hf | h_10 hf =>
    exact faithful_of_regs word_ab ⟨rfl, rfl⟩ hw hm hf rfl (hs := fun h => h.stall rfl) (hd := fun h => fld_eq_zero_of_mask h.clear.1)
  case h_11 hf =>
    exact faithful_of_regs word_da ⟨rfl, rfl⟩ hw hm hf rfl (hs := fun h => h.stall rfl) (hc := fun h => fld_eq_zero_of_mask h.clear.2.2.1)
  case h_12 hf =>
    exact faithful_of_regs word_b ⟨rfl, rfl⟩ hw hm hf rfl (hs := fun h => h.stall rfl)
      (hd := fun h => fld_eq_zero_of_mask h.clear.1) (ha := fun h => fld_eq_zero_of_mask h.clear.2.1)

theorem faithful_minorCopy {w : Nat} {i : Instr} (hw : w < 2 ^ 32) (hm : w / 2 ^ 26 % 64 = 0x34) (h : minorCopy w = .ok i) : Faithful w i := by
  unfold minorCopy at h
  split at h <;> cases h
  case h_1 hf | h_2 hf | h_3 hf | h_4 hf | h_5 hf | h_6 hf =>
    exact faithful_of_regs word_dab ⟨rfl, rfl⟩ hw hm hf rfl (hs := fun h => h.stall rfl)

theorem faithful_minorBarrier {w : Nat} {i : Instr} (hw : w < 2 ^ 32) (hm : w / 2 ^ 26 % 64 = 0x35) (h : minorBarrier w = .ok i) :
    Faithful w i := by
  unfold minorBarrier at h
  split at h <;> cases h
  case h_1 hf =>
    exact faithful_of_regs word_dab ⟨rfl, rfl⟩ hw hm hf rfl (hs := fun h => h.stall rfl)
  case h_2 hf | h_5 hf =>
    exact faithful_of_regs word_da ⟨rfl, rfl⟩ hw hm hf rfl (hs := fun h => h.stall rfl) (hc := fun h => fld_eq_zero_of_mask h.clear.2.2.1)
  case h_3 hf | h_4 hf =>
    exact faithful_of_regs word_d ⟨rfl, rfl⟩ hw hm hf rfl (hs := fun h => h.stall rfl)
      (ha := fun h => fld_eq_zero_of_mask h.clear.2.1) (hc := fun h => fld_eq_zero_of_mask h.clear.2.2.1)

theorem faithful_minorMatrix {w : Nat} {i : Instr} (hw : w < 2 ^ 32) (hm : w / 2 ^ 26 % 64 = 0x39) (h : minorMatrix w = .ok i) :
    Faithful w i := by
  unfold minorMatrix at h
  split at h <;> cases h
  case h_1 hf | h_2 hf | h_5 hf =>
    exact faithful_of_regs word_d ⟨rfl, rfl⟩ hw hm hf rfl (hs := fun h => h.stall rfl)
      (ha := fun h => fld_eq_zero_of_mask h.clear.2.1) (hc := fun h => fld_eq_zero_of_mask h.clear.2.2.1)
  case h_3 hf | h_4 hf =>
    exact faithful_of_regs word_dab ⟨rfl, rfl⟩ hw hm hf rfl (hs := fun h => h.stall rfl)
  case h_6 hf | h_7 hf =>
    exact faithful_of_regs word_da ⟨rfl, rfl⟩ hw hm hf rfl (hs := fun h => h.stall rfl) (hc := fun h => fld_eq_zero_of_mask h.clear.2.2.1)

theorem faithful_minorTask {w : Nat} {i : Instr} (hw : w < 2 ^ 32) (hm : w / 2 ^ 26 % 64 = 0x3B) (h : minorTask w = .ok i) : Faithful w i := by
  unfold minorTask at h
  split at h <;> cases h
  case h_1 hf | h_2 hf =>
    exact faithful_of_regs word_dab ⟨rfl, rfl⟩ hw hm hf rfl (hs := fun h => h.stall rfl)
  case h_3 hf =>
    exact faithful_of_regs word_da ⟨rfl, rfl⟩ hw hm hf rfl (hs := fun h => h.stall rfl) (hc := fun h => fld_eq_zero_of_mask h.clear.2.2.1)
  case h_4 hf =>
    exact faithful_of_regs word_ab ⟨rfl, rfl⟩ hw hm hf rfl (hs := fun h => h.stall rfl) (hd := fun h => fld_eq_zero_of_mask h.clear.1)
  case h_5 hf =>
    exact faithful_of_regs word_a ⟨rfl, rfl⟩ hw hm hf rfl (hs := fun h => h.stall rfl)
      (hd := fun h => fld_eq_zero_of_mask h.clear.1) (hc := fun h => fld_eq_zero_of_mask h.clear.2.2.1)

theorem faithful_minorSystem {w : Nat} {i : Instr} (hw : w < 2 ^ 32) (hm : w / 2 ^ 26 % 64 = 0x3C) (h : minorSystem w = .ok i) :
    Faithful w i := by
  unfold minorSystem at h
  split at h <;> cases h
  case h_1 hf | h_6 hf =>
    exact faithful_of_regs word_sb ⟨rfl, rfl⟩ hw hm hf rfl (hd := fun h => fld_eq_zero_of_mask h.clear.1)
      (ha := fun h => fld_eq_zero_of_mask h.clear.2.1)
  case h_2 hf | h_5 hf =>
    exact faithful_of_regs word_nil ⟨rfl, rfl⟩ hw hm hf rfl (hs := fun h => h.stall rfl)
      (hd := fun h => fld_eq_zero_of_mask h.clear.1) (ha := fun h => fld_eq_zero_of_mask h.clear.2.1)
      (hc := fun h => fld_eq_zero_of_mask h.clear.2.2.1)
  case h_3 hf =>
    exact faithful_of_regs word_ab ⟨rfl, rfl⟩ hw hm hf rfl (hs := fun h => h.stall rfl) (hd := fun h => fld_eq_zero_of_mask h.clear.1)
  case h_4 hf =>
    exact faithful_of_regs word_a ⟨rfl, rfl⟩ hw hm hf rfl (hs := fun h => h.stall rfl)
      (hd := fun h => fld_eq_zero_of_mask h.clear.1) (hc := fun h => fld_eq_zero_of_mask h.clear.2.2.1)
theorem eq_three {n : Nat} (h : n < 4) (h0 : n ≠ 0) (h1 : n ≠ 1) (h2 : n ≠ 2) : n = 3 := by omega

theorem faithful_of_block {w c base : Nat} {i : Instr} (hw : w < 2 ^ 32) (hm : w / 2 ^ 26 % 64 = 0x1C) (minor : w / 8 % 4 = c)
    (he : encode i = word base [((fld 3 23 w).toNat, 23), ((fld 6 17 w).toNat, 17), ((fld 6 11 w).toNat, 11), ((fld 1 2 w).toNat, 2),
      ((fld 2 0 w).toNat, 0)]) (hb : base = 0x70000000 + 8 * c) (hi : i.isEvent = false ∧ i.badMinor = false)
    (zero : Fills w i → w / 2 ^ 5 % 2 ^ 6 = 0) : Faithful w i := by
  refine faithful_of_wide he hi hw hm (by omega) (fun _ => (fld_toNat ..).symm) (fun _ => (fld_toNat ..).symm) fun h => ?_
  have := zero h
  simp only [word, fld_toNat]
  omega

theorem faithful_minorBlocks {w : Nat} {i : Instr} (hw : w < 2 ^ 32) (hm : w / 2 ^ 26 % 64 = 0x1C) (h : minorBlocks w = .ok i) :
    Faithful w i := by
  have admitted {n : Nat} (format : ¬ n ≤ w % 4) : decide (n ≤ (fld 2 0 w).toNat) = false := by
    simp only [decide_eq_false_iff_not, fld_toNat]
    omega
  unfold minorBlocks at h
  split at h <;> split at h <;> cases h
  case h_1.isFalse.refl minor format | h_2.isFalse.refl minor format | h_3.isFalse.refl minor format =>
    exact faithful_of_block hw hm minor rfl rfl ⟨rfl, admitted format⟩ fun h => Nat.lt_one_iff.1 (below_of_clear 6 5 0 h.clear.2.2.1)
  case h_4.isFalse.refl _ n0 n1 n2 format =>
    exact faithful_of_block hw hm (eq_three (by omega) n0 n1 n2) rfl rfl ⟨rfl, admitted format⟩
      fun h => Nat.lt_one_iff.1 (below_of_clear 6 5 0 h.clear.2.2.1)

theorem faithful_of_scratch {w c base : Nat} {i : Instr} (hw : w < 2 ^ 32) (hm : w / 2 ^ 26 % 64 = 0x26) (minor : w / 8 % 4 = c)
    (he : encode i = word base [((fld 6 17 w).toNat, 17), ((fld 6 11 w).toNat, 11), ((fld 3 0 w).toNat, 0)])
    (hb : base = 0x98000000 + 8 * c) (hi : i.isEvent = false ∧ i.badMinor = false) (zero : Fills w i → w / 2 ^ 5 % 2 ^ 6 = 0)
    (hv : i.isVariable = true) : Faithful w i := by
  refine faithful_of_wide (he.trans word_wide_d) hi hw hm (by omega) (fun h => fld_eq_zero_iff.1 (h.stall hv))
    (fun _ => (fld_toNat ..).symm) fun h => ?_
  have := zero h
  simp only [word, fld_toNat]
  omega

theorem faithful_minorScratch {w : Nat} {i : Instr} (hw : w < 2 ^ 32) (hm : w / 2 ^ 26 % 64 = 0x26) (h : minorScratch w = .ok i) :
    Faithful w i := by
  have admitted (size : ¬ 5 ≤ w % 8) : decide (5 ≤ (fld 3 0 w).toNat) = false := by
    simp only [decide_eq_false_iff_not, fld_toNat]
    omega
  unfold minorScratch at h
  split at h <;> split at h <;> cases h
  case h_1.isFalse.refl minor size | h_2.isFalse.refl minor size | h_3.isFalse.refl minor size =>
    exact faithful_of_scratch hw hm minor rfl rfl ⟨rfl, admitted size⟩
      (fun h => Nat.lt_one_iff.1 (below_of_clear 6 5 0 h.clear.2.2.1)) rfl
  case h_4.isFalse.refl _ n0 n1 n2 size =>
    exact faithful_of_scratch hw hm (eq_three (by omega) n0 n1 n2) rfl rfl ⟨rfl, admitted size⟩
      (fun h => Nat.lt_one_iff.1 (below_of_clear 6 5 0 h.clear.2.2.1)) rfl

theorem faithful_of_atomic {w f base q : Nat} {i : Instr} {d a : BitVec 6} {g : BitVec 5} {k : BitVec 2} (hw : w < 2 ^ 32)
    (hm : w / 2 ^ 28 % 16 = 0x0C) (hf : w % 16 = f)
    (he : encode i = word base [(q, 26), (d.toNat, 17), (g.toNat, 12), (a.toNat, 6), (k.toNat, 4)]) (hb : base = 0xC0000000 + f)
    (hi : i.isEvent = false ∧ i.badMinor = false) (hq : q = w / 2 ^ 26 % 4) (hv : i.isVariable = true)
    (hd : Fills w i → fld 6 17 w = d := by exact fun _ => rfl) (hg : Fills w i → fld 5 12 w = g := by exact fun _ => rfl)
    (ha : Fills w i → fld 6 6 w = a := by exact fun _ => rfl) (hk : Fills w i → fld 2 4 w = k := by exact fun _ => rfl) :
    Faithful w i := by
  intro h
  have := fld_eq_zero_iff.1 (h.stall hv)
  have := fld_eq_iff.1 (hd h); have := fld_eq_iff.1 (hg h); have := fld_eq_iff.1 (ha h); have := fld_eq_iff.1 (hk h)
  have value : encode i = base + q * 2 ^ 26 + d.toNat * 2 ^ 17 + g.toNat * 2 ^ 12 + a.toNat * 2 ^ 6 + k.toNat * 2 ^ 4 := he
  exact ⟨by omega, hi⟩

theorem faithful_minorAtomic {w : Nat} {i : Instr} (hw : w < 2 ^ 32) (hm : w / 2 ^ 28 % 16 = 0x0C) (h : minorAtomic w = .ok i) :
    Faithful w i := by
  unfold minorAtomic at h
  split at h
  case h_13 hf =>
    split at h <;> cases h
    next relaxed =>
    exact faithful_of_atomic hw hm hf rfl rfl ⟨rfl, rfl⟩ (by rw [fld_toNat]; omega) rfl
  case h_14 hf =>
    split at h <;> cases h
    next relaxed =>
    refine faithful_of_atomic (q := 2 * (fld 1 27 w).toNat) hw hm hf ?_ rfl ⟨rfl, rfl⟩ (by rw [fld_toNat]; omega) rfl
      (d := fld 6 17 w) (g := fld 5 12 w) (a := fld 6 6 w) (k := fld 2 4 w)
    show word _ _ = word _ _
    simp only [word]
    omega
  case h_15 hf =>
    split at h <;> cases h
    next plain =>
    refine faithful_of_atomic (q := 0) (d := fld 6 17 w) (g := fld 5 12 w) (a := 0) (k := 0) hw hm hf ?_ rfl ⟨rfl, rfl⟩ (by omega) rfl
      (ha := fun h => fld_eq_zero_of_mask h.clear.2.1)
      (hk := fun h => fld_eq_zero_iff.2 (Nat.lt_one_iff.1 (below_of_clear 2 4 0 h.clear.2.2.1)))
    show word _ _ = word _ _
    simp [word]
  case h_16 => cases h
  all_goals
    cases h
    next hf => exact faithful_of_atomic hw hm hf rfl rfl ⟨rfl, rfl⟩ (fld_toNat ..) rfl

/-- Every word that the opcode map gives an instruction to is that instruction's word, once its fields are filled (R22, R36). -/
theorem faithful_of_candidate {w : Nat} {i : Instr} (hw : w < 2 ^ 32) (h : candidate w = .ok i) : Faithful w i := by
  have own {n lo : Nat} : w / 2 ^ lo % 2 ^ n = (fld n lo w).toNat := (fld_toNat ..).symm
  unfold candidate at h
  split at h
  case h_5 hm => exact faithful_minorControl hw hm h
  case h_8 hm => exact faithful_minorArith hw hm h
  case h_9 hm => exact faithful_minorBits hw hm h
  case h_12 hm => exact faithful_minorCompare hw hm h
  case h_14 hm => exact faithful_minorLanes hw hm h
  case h_15 hm => exact faithful_minorPreds hw hm h
  case h_25 hm => exact faithful_minorFloat hw hm h
  case h_26 hm => exact faithful_minorFcmp hw hm h
  case h_28 hm => exact faithful_minorBlocks hw hm h
  case h_29 hm => exact faithful_minorEvents hw hm h
  case h_32 hm => exact faithful_minorPublish hw hm h
  case h_34 hm => exact faithful_minorBorrow hw hm h
  case h_37 hm => exact faithful_minorScratch hw hm h
  case h_38 hm => exact faithful_minorAddress hw hm h
  case h_45 hm | h_46 hm | h_47 hm | h_48 hm => exact faithful_minorAtomic hw (by omega) h
  case h_49 hm => exact faithful_minorCopy hw hm h
  case h_50 hm => exact faithful_minorBarrier hw hm h
  case h_53 hm => exact faithful_minorMatrix hw hm h
  case h_55 hm => exact faithful_minorTask hw hm h
  case h_56 hm => exact faithful_minorSystem hw hm h
  case h_1 hm | h_2 hm | h_3 hm =>
    cases h
    exact faithful_of_offset rfl ⟨rfl, rfl⟩ hw hm rfl
  case h_4 hm =>
    cases h
    refine faithful_of_wide word_wide ⟨rfl, rfl⟩ hw hm rfl (fun h => fld_eq_zero_iff.1 (h.stall rfl))
      (fun h => Nat.lt_one_iff.1 (below_of_clear 6 17 0 h.clear.1)) fun _ => ?_
    simp only [word, fld_toNat]
    omega
  case h_6 hm =>
    cases h
    refine faithful_of_wide word_wide_s ⟨rfl, rfl⟩ hw hm rfl (fun _ => own)
      (fun h => Nat.lt_one_iff.1 (below_of_clear 6 17 0 h.clear.1)) fun h => ?_
    have := below_of_clear 17 0 16 h.clear.2.1
    simp only [word, fld_toNat]
    omega
  case h_7 hm =>
    cases h
    refine faithful_of_wide word_wide_s ⟨rfl, rfl⟩ hw hm rfl (fun _ => own)
      (fun h => Nat.lt_one_iff.1 (below_of_clear 6 17 0 h.clear.1)) fun h => ?_
    have := below_of_clear 17 0 4 h.clear.2.1
    simp only [word, fld_toNat]
    omega
  case h_10 hm | h_11 hm | h_24 hm | h_16 hm | h_17 hm | h_18 hm | h_19 hm | h_20 hm | h_21 hm =>
    cases h
    refine faithful_of_wide rfl ⟨rfl, rfl⟩ hw hm rfl (fun _ => own) (fun _ => own) fun _ => ?_
    simp only [word, fld_toNat]
    omega
  case h_13 hm =>
    cases h
    refine faithful_of_wide rfl ⟨rfl, rfl⟩ hw hm rfl (fun _ => own) (fun _ => own) fun h => ?_
    have := below_of_clear 1 4 0 h.clear.2.2.2.1
    simp only [word, fld_toNat]
    omega
  case h_22 hm | h_23 hm =>
    cases h
    refine faithful_of_wide rfl ⟨rfl, rfl⟩ hw hm rfl (fun _ => own) (fun _ => own) fun h => ?_
    have := below_of_clear 11 0 6 h.clear.2.2.1
    simp only [word, fld_toNat]
    omega
  case h_27 hm =>
    cases h
    refine faithful_of_wide rfl ⟨rfl, rfl⟩ hw hm rfl (fun _ => own) (fun _ => own) fun h => ?_
    have := below_of_clear 6 5 0 h.clear.2.2.1
    have := below_of_clear 1 4 0 h.clear.2.2.2.1
    simp only [word, fld_toNat]
    omega
  case h_30 hm | h_31 hm =>
    cases h
    refine faithful_of_wide rfl ⟨rfl, rfl⟩ hw hm rfl (fun _ => own) (fun _ => own) fun h => ?_
    have := below_of_clear 17 0 12 h.clear.2.1
    simp only [word, fld_toNat]
    omega
  case h_57 hm | h_58 hm =>
    cases h
    refine faithful_of_wide word_wide_d ⟨rfl, rfl⟩ hw hm rfl (fun h => fld_eq_zero_iff.1 (h.stall rfl)) (fun _ => own) fun h => ?_
    have := below_of_clear 17 0 12 h.clear.2.1
    simp only [word, fld_toNat]
    omega
  case h_33 hm =>
    cases h
    refine faithful_of_wide word_wide_d ⟨rfl, rfl⟩ hw hm rfl (fun h => fld_eq_zero_iff.1 (h.stall rfl)) (fun _ => own) fun h => ?_
    have := below_of_clear 6 11 2 h.clear.2.1
    have := below_of_clear 11 0 10 h.clear.2.2.1
    simp only [word, fld_toNat]
    omega
  case h_35 hm | h_36 hm =>
    split at h <;> cases h
    next size =>
    refine faithful_of_wide word_wide_d ⟨rfl, ?_⟩ hw hm rfl (fun h => fld_eq_zero_iff.1 (h.stall rfl)) (fun _ => own) fun h => ?_
    · simp only [Instr.badMinor, decide_eq_false_iff_not, fld_toNat]
      omega
    · simp only [word, fld_toNat]
      omega
  case h_39 hm =>
    cases h
    refine faithful_of_wide word_wide ⟨rfl, rfl⟩ hw hm rfl (fun h => fld_eq_zero_iff.1 (h.stall rfl))
      (fun h => Nat.lt_one_iff.1 (below_of_clear 6 17 0 h.clear.1)) fun h => ?_
    have := below_of_clear 3 1 0 h.clear.2.2.1
    simp only [word, fld_toNat]
    omega
  case h_40 hm | h_41 hm | h_42 hm | h_43 hm | h_44 hm | h_54 hm =>
    cases h
    refine faithful_of_wide word_wide_d ⟨rfl, rfl⟩ hw hm rfl (fun h => fld_eq_zero_iff.1 (h.stall rfl)) (fun _ => own) fun _ => ?_
    simp only [word, fld_toNat]
    omega
  case h_51 hm =>
    split at h <;> cases h
    · next hf =>
      exact faithful_of_regs (base := 0xd8000000) word_nil ⟨rfl, rfl⟩ hw hm hf rfl (hs := fun h => h.stall rfl)
        (hd := fun h => fld_eq_zero_of_mask h.clear.1) (ha := fun h => fld_eq_zero_of_mask h.clear.2.1)
        (hc := fun h => fld_eq_zero_of_mask h.clear.2.2.1)
    · refine faithful_of_wide word_wide ⟨rfl, rfl⟩ hw hm rfl (fun h => fld_eq_zero_iff.1 (h.stall rfl))
        (fun h => Nat.lt_one_iff.1 (below_of_clear 6 17 0 h.clear.1)) fun h => ?_
      have := below_of_clear 6 11 0 h.clear.2.1
      have := below_of_clear 6 5 0 h.clear.2.2.1
      simp only [word, fld_toNat]
      omega
  case h_52 hm =>
    cases h
    refine faithful_of_wide word_wide ⟨rfl, rfl⟩ hw hm rfl (fun h => fld_eq_zero_iff.1 (h.stall rfl))
      (fun h => Nat.lt_one_iff.1 (below_of_clear 6 17 0 h.clear.1)) fun _ => ?_
    simp only [word, fld_toNat]
    omega
  case h_59 => cases h

/-! ### Decoding and encoding -/

theorem wf_iff {i : Instr} : i.wf = true ↔ i.isEvent = false ∧ i.badMinor = false ∧ i.badField = none := by
  simp [Instr.wf, and_assoc]

theorem encodes_of_wf {i : Instr} (h : i.wf = true) : Encodes i := by
  obtain ⟨event, minor, field⟩ := wf_iff.1 h
  by_cases hv : i.isVariable = true
  · exact encodes_of_variable minor field hv
  · exact encodes_of_fixed minor ⟨event, by simpa using hv⟩

theorem decode_encode {i : Instr} (h : i.wf = true) : decode (encode i) = .ok i := by
  have encodes := encodes_of_wf h
  have row : Row (encode i) i := by simpa using encodes.row 0 (by decide) (.inr rfl)
  exact decode_eq_ok_iff.2 ⟨row.names, ⟨row.clear, encodes.stall⟩, (wf_iff.1 h).2.2⟩

/-- No field of a word that decodes is ignored (R22, R36). -/
theorem encode_of_decode {w : Nat} {i : Instr} (hw : w < 2 ^ 32) (h : decode w = .ok i) : i.wf = true ∧ encode i = w := by
  obtain ⟨names, fills, field⟩ := decode_eq_ok_iff.1 h
  obtain ⟨word, event, minor⟩ := faithful_of_candidate hw names fills
  exact ⟨wf_iff.2 ⟨event, minor, field⟩, word⟩

theorem candidate_of_unassigned {w : Nat} (h : w / 2 ^ 26 % 64 ∈ [0x00, 0x23, 0x29, 0x2F, 0x38, 0x3F]) : candidate w = .error 1 := by
  simp only [List.mem_cons, List.not_mem_nil, or_false] at h
  rcases h with h | h | h | h | h | h <;> rw [candidate, h] <;> rfl

theorem decode_of_unassigned {w : Nat} (hw : w < 2 ^ 32) (h : w / 2 ^ 26 ∈ [0x00, 0x23, 0x29, 0x2F, 0x38, 0x3F]) :
    decode w = .error 1 := by
  have major : w / 2 ^ 26 % 64 = w / 2 ^ 26 := Nat.mod_eq_of_lt (by omega)
  rw [decode, candidate_of_unassigned (by rwa [major])]

theorem decode_of_stalled_row {w : Nat} {i : Instr} (row : Row w i) (field : i.badField = none) (hv : i.isVariable = true)
    (stall : w / 2 ^ 23 % 8 ≠ 0) : decode w = .error 5 := by
  have filled : fieldFault w i.operands = none := fieldFault_eq_none_iff.2 ⟨row.clear, field⟩
  simp only [decode, row.names, filled, hv, Bool.true_and, bne_iff_ne, ne_eq, stall, not_false_eq_true, if_true]

/-- A variable-latency instruction with a stall count draws detail 5 (R26, R36). -/
theorem decode_of_stall {i : Instr} {n : Nat} (h : i.wf = true) (hv : i.isVariable = true) (hn : 0 < n) (hn8 : n < 8) :
    decode (encode i + n * 2 ^ 23) = .error 5 := by
  have encodes := encodes_of_wf h
  have unstalled := fld_eq_zero_iff.1 (encodes.stall hv)
  exact decode_of_stalled_row (encodes.row n hn8 (.inl hv)) (wf_iff.1 h).2.2 hv (by omega)

/-- Settles O1: the word of a well-formed instruction names it by the opcode map and fills its fields. -/
theorem decodeEncode : Obligations.DecodeEncode := by
  unfold Obligations.DecodeEncode Rules.DecodeEncode
  exact fun i h => ⟨(encodes_of_wf h).isWord, decode_encode h⟩

/-- Settles O2: a row of the opcode map and the filled fields fix every bit of the word. -/
theorem decodeIsFaithful : Obligations.DecodeIsFaithful := by
  unfold Obligations.DecodeIsFaithful Rules.DecodeIsFaithful
  exact fun w i => encode_of_decode

/-- Settles O3: an unassigned major has no row; a stall count leaves the row and the fields as they are. -/
theorem refusedWords : Obligations.RefusedWords := by
  unfold Obligations.RefusedWords Rules.RefusedWords
  exact ⟨fun w => decode_of_unassigned, fun i n => decode_of_stall⟩

/-- A list of words with the instructions they stand for. -/
theorem decode_of_words {ws : List (Nat × Instr)} (h : ∀ x ∈ ws, x.2.wf = true ∧ encode x.2 = x.1) : ∀ x ∈ ws, decode x.1 = .ok x.2 := by
  intro x hx
  obtain ⟨wf, word⟩ := h x hx
  rw [← word, decode_encode wf]

/-- Settles O4: each instruction is well-formed and has the word that the manual writes out. -/
theorem manualWords : Obligations.ManualWords := by
  unfold Obligations.ManualWords Rules.ManualWords
  exact decode_of_words (by decide +kernel)

end Sys2Proof
end

section
/-! SUPPORT. What a re-evaluation of the selection leaves (R65 to R67): each lane where it stood, and the fragment selected that nothing comes
before. -/

namespace Sys2Proof.Machine

set_option Elab.async false

/-! ### Lanes -/

/-- Some fragment of a list, no free entry, holds lane l at place q. -/
def Held (fs : List Frag) (l : Nat) (q : Place) : Prop := ∃ f ∈ fs, f.st ≠ .free ∧ f.mask.getLsbD l = true ∧ f.place = q

theorem held_cons {f : Frag} {fs : List Frag} {l : Nat} {q : Place} :
    Held (f :: fs) l q ↔ (f.st ≠ .free ∧ f.mask.getLsbD l = true ∧ f.place = q) ∨ Held fs l q := by simp [Held]

theorem held_append {fs hs : List Frag} {l : Nat} {q : Place} : Held (fs ++ hs) l q ↔ Held fs l q ∨ Held hs l q := by
  simp only [Held, List.mem_append, or_and_right, exists_or]

theorem Regroups.held {fs hs : List Frag} (h : Regroups fs hs) {l : Nat} {q : Place} : Held fs l q → Held hs l q := by
  rintro ⟨f, hf, hst, hl, rfl⟩
  exact h.lanes f hf hst l hl

theorem held_erase_cons {fs : List Frag} {f : Frag} (h : f ∈ fs) {l : Nat} {q : Place} : Held (f :: fs.erase f) l q ↔ Held fs l q := by
  have perm := List.perm_cons_erase h
  simp only [Held, perm.mem_iff]

theorem held_filter_not_free {fs : List Frag} {l : Nat} {q : Place} : Held (fs.filter (fun f => f.st != .free)) l q ↔ Held fs l q := by
  simp only [Held, List.mem_filter, bne_iff_ne, ne_eq, and_assoc]
  exact exists_congr fun f => and_congr_right fun _ => ⟨fun h => h.2, fun h => ⟨h.1, h⟩⟩

theorem held_map {fs : List Frag} {u : Frag → Frag} (hm : ∀ f, (u f).mask = f.mask) (hp : ∀ f, (u f).place = f.place) {l : Nat} {q : Place} :
    Held (fs.map u) l q ↔ Held fs l q := by
  have hst : ∀ f, (u f).st = f.st := fun f => congrArg Place.st (hp f)
  simp only [Held, List.mem_map, exists_exists_and_eq_and, hst, hm, hp]

theorem held_spillHighest {fs : List Frag} {l : Nat} {q : Place} : Held (spillHighest fs) l q ↔ Held fs l q := by
  simp only [spillHighest]
  split
  · rfl
  · split
    · rfl
    · exact held_map (fun f => by split <;> rfl) (fun f => by split <;> rfl)

theorem held_mergeFrags {fs : List Frag} {l : Nat} {q : Place} : Held (mergeFrags fs) l q ↔ Held fs l q := by
  refine ⟨fun h => ?_, (regroups_mergeFrags fs).held⟩
  induction fs with
  | nil => exact h
  | cons f fs ih =>
    simp only [mergeFrags] at h
    rw [held_cons]
    split at h
    · exact (held_cons.1 h).imp id ih
    · next k found =>
      obtain ⟨kst, kp⟩ := Frag.place_of_same (List.find?_some found)
      rcases held_cons.1 h with ⟨hst, hl, hq⟩ | hrest
      · rcases (by simpa using hl : f.mask.getLsbD l = true ∨ k.mask.getLsbD l = true) with hl | hl
        · exact .inl ⟨hst, hl, hq⟩
        · exact .inr (ih ⟨k, List.mem_of_find?_eq_some found, kst, hl, kp.trans hq⟩)
      · exact .inr (ih ((held_erase_cons (List.mem_of_find?_eq_some found)).1 (held_cons.2 (.inr hrest))))

/-- Choosing the fragment that issues next moves no lane. -/
theorem Group.holds_reselect (g : Group) (l : Nat) (q : Place) : g.reselect.holds l q ↔ g.holds l q := by
  refine ⟨?_, g.regroups_reselect.held⟩
  have merged : Held (mergeFrags g.frags) l q → g.holds l q := fun h => held_filter_not_free.1 (held_mergeFrags.1 h)
  show Held (g.reselect.cur :: g.reselect.rest) l q → _
  simp only [Group.reselect]
  split
  · exact id
  · split
    · next f picked =>
      intro h
      refine merged ((held_erase_cons (List.mem_of_mem_filter (mem_of_pickBest picked))).1 ?_)
      refine held_cons.2 ((held_cons.1 h).imp id fun h => ?_)
      split at h
      · exact held_spillHighest.1 h
      · exact h
    · split
      · simp [Held]
      · next cons => exact fun h => merged (cons ▸ h)

/-! ### The order of selection -/

theorem Frag.before_iff {f h : Frag} : f.before h = true ↔ f.pc.toNat < h.pc.toNat ∨
    f.pc.toNat = h.pc.toNat ∧ (f.depth < h.depth ∨ f.depth = h.depth ∧ lowest f.mask < lowest h.mask) := by
  unfold Frag.before
  split
  · next hpc => simp [hpc]
  · next hpc =>
    rw [ne_eq, not_not] at hpc
    split
    · next hd => simp [hpc, hd]
    · next hd => rw [ne_eq, not_not] at hd; simp [hpc, hd]

theorem Frag.before_irrefl (f : Frag) : f.before f = false := by
  rw [Bool.eq_false_iff, ne_eq, Frag.before_iff]
  omega

theorem Frag.before_trans {f h k : Frag} (hfh : f.before h = true) (hhk : h.before k = true) : f.before k = true := by
  rw [Frag.before_iff] at *
  omega

/-- The first of a list under a strict order has none before it. -/
theorem pickBest_least {α : Type} {lt : α → α → Bool} (irrefl : ∀ x, lt x x = false)
    (trans : ∀ x y z, lt x y = true → lt y z = true → lt x z = true) {xs : List α} {b : α} (h : pickBest lt xs = some b) :
    ∀ x ∈ xs, lt x b = false := by
  have key : ∀ (zs seen : List α) (b : α), (∀ x ∈ seen, lt x b = false) → ∀ x ∈ seen ++ zs,
      lt x (zs.foldl (fun b y => if lt y b then y else b) b) = false := by
    intro zs
    induction zs with
    | nil => intro seen b hs x hx; exact hs x (by simpa using hx)
    | cons z zs ih =>
      intro seen b hs x hx
      rw [List.foldl_cons]
      refine ih (seen ++ [z]) _ (fun y hy => ?_) x (by simpa using hx)
      rcases List.mem_append.1 hy with hy | hy
      · split
        · next hzb => exact Bool.eq_false_iff.2 fun hyz => by simpa [hs y hy] using trans y z b hyz hzb
        · exact hs y hy
      · obtain rfl : y = z := by simpa using hy
        split
        · exact irrefl y
        · next hzb => exact Bool.eq_false_iff.2 hzb
  cases xs with
  | nil => simp [pickBest] at h
  | cons y ys =>
    obtain rfl : ys.foldl (fun b z => if lt z b then z else b) y = b := by simpa [pickBest] using h
    exact key ys [y] y (by simpa using irrefl y)

theorem pickBest_eq_none_iff {α : Type} {lt : α → α → Bool} {xs : List α} : pickBest lt xs = none ↔ xs = [] := by
  cases xs <;> simp [pickBest]

/-- What spilling changes plays no part in the selection. -/
theorem spillHighest_select {fs : List Frag} {f : Frag} (h : f ∈ spillHighest fs) :
    ∃ k ∈ fs, (∀ g : Group, g.selectable f = g.selectable k) ∧ ∀ b : Frag, f.before b = k.before b := by
  simp only [spillHighest] at h
  split at h
  · exact ⟨f, h, fun _ => rfl, fun _ => rfl⟩
  · split at h
    · exact ⟨f, h, fun _ => rfl, fun _ => rfl⟩
    · obtain ⟨k, hk, rfl⟩ := List.mem_map.1 h
      refine ⟨k, hk, fun g => ?_, fun b => ?_⟩ <;> split <;> rfl

/-- A re-evaluation that no fence holds back leaves no fragment that comes before the selected one. -/
theorem Group.selects_reselect (g : Group) (free : (g.cur.wait.pinned && g.cur.st == .ready) = false) : g.reselect.selects := by
  have hsel : ∀ f, g.reselect.selectable f = g.selectable f := fun f => by
    have h := congrArg Group.record g.reselect_bare
    unfold Group.selectable
    rw [show g.reselect.record = g.record from h]
  simp only [Group.selects, hsel]
  unfold Group.reselect
  rw [free]
  simp only [Bool.false_eq_true, if_false]
  split
  · next f picked =>
    obtain ⟨hf, hs⟩ := List.mem_filter.1 (mem_of_pickBest picked)
    have least := pickBest_least Frag.before_irrefl (fun _ _ _ => Frag.before_trans) picked
    have leastOf : ∀ k ∈ (mergeFrags g.frags).erase f, g.selectable k = true → k.before f = false :=
      fun k hk hks => least k (List.mem_filter.2 ⟨List.mem_of_mem_erase hk, hks⟩)
    refine fun _ => ⟨hs, fun k hk hks => ?_⟩
    show k.before f = false
    dsimp only at hk
    split at hk
    · obtain ⟨j, hj, sel, bef⟩ := spillHighest_select hk
      rw [bef]
      exact leastOf j hj (sel g ▸ hks)
    · exact leastOf k hk hks
  · next none =>
    have noneSel := List.filter_eq_nil_iff.1 (pickBest_eq_none_iff.1 none)
    split
    · rintro ⟨f, hf, hs⟩
      obtain rfl : f = {} := by simpa using hf
      simp [Group.selectable] at hs
    · next cons =>
      rintro ⟨f, hf, hs⟩
      exact absurd hs (noneSel f (cons ▸ hf))

/-! ### Instructions that read nothing -/

/-- What an instruction may need that reads no register, consults no guard and has nothing checked. -/
structure Use.Bare (u : Use) : Prop where
  guarded : u.guarded = false
  priv : u.priv = none
  cls : u.cls ≠ 3
  step6 : u.step6 = none
  step7 : u.step7 = false
  srcs : u.srcs = []
  sel : u.sel = none
  dsts : u.dsts = []
  redirect : u.redirect = none
  check : ∀ t, u.check t = none

/-- Such an instruction is never held: it acts at once for the active lanes. -/
theorem Use.Bare.verdict {u : Use} (h : u.Bare) (s : State) : s.verdict u = .go { see := s.see u, t := s.active, w := 0, needs := [] } := by
  have himp : s.implicit u = [] := by simp [State.implicit, h.guarded, h.sel]
  have hslots : u.slots = [] := by simp [Use.slots, h.srcs]
  have hshort : s.shortSource u = none := by simp [State.shortSource, h.srcs, himp]
  have hwait : s.mustWait u = false := by simp [State.mustWait, h.srcs, h.dsts, himp]
  have hcells : ∀ (see : Group) (l : Nat), u.cells see l = [] := fun see l => by simp [Use.cells, h.redirect, h.srcs]
  have hspoilt : s.spoilt u = false := by simp [State.spoilt, hslots, hcells]
  have hun : s.unordered u = none := by simp [State.unordered, hslots]
  have hadm : s.admitViews u = .go { see := s.see u, t := s.active, w := 0, needs := [] } := by
    simp [State.admitViews, hslots, State.lanesOn, h.guarded]
  simp only [State.verdict, h.priv, h.cls, h.step6, h.step7, hshort, hwait, hspoilt, h.check, hun, hadm, if_false, Bool.false_eq_true,
    Bool.or_false, Bool.and_false, ite_self]

theorem Use.Bare.run {u : Use} (h : u.Bare) (s : State) (act : Issue → State) :
    s.run u act = .next (act { see := s.see u, t := s.active, w := 0, needs := [] }) := run_go s u act (h.verdict s)

/-- A word that has nothing but its slots. -/
theorem Use.bare_stall (n : Nat) : ({ stall := n, guarded := false } : Use).Bare :=
  ⟨rfl, rfl, Nat.zero_ne_add_one 2, rfl, rfl, rfl, rfl, rfl, rfl, fun _ => rfl⟩

end Sys2Proof.Machine
end

section
/-! SUPPORT. The control of a group: `nop`, the mode instructions, `yield` and its end (R31, R85, R87 to R89). -/

namespace Sys2Proof.Machine

set_option Elab.async false

theorem modeOk_iff (m : Nat) : modeOk m = true ↔ m / 2 ^ 7 % 16 ≤ 10 ∧ m / 2 ^ 11 % 8 ≤ 4 ∧ m % 8 = 0 := by
  simp only [modeOk, bits, Bool.and_eq_true, beq_iff_eq, and_assoc]
  norm_num

/-- The bits that `modg` writes: GN at 6, GP at 5 to 3. -/
theorem getLsbD_guardBits : ∀ (n : BitVec 1) (p : BitVec 3), ∀ k < 16, (BitVec.ofNat 16 (n.toNat * 64 + p.toNat * 8)).getLsbD k =
    if k = 6 then decide (n = 1) else if 3 ≤ k ∧ k ≤ 5 then p.getLsbD (k - 3) else false := by decide

theorem getLsbD_unguarded : ∀ k < 16, (0xFF87 : BitVec 16).getLsbD k = !decide (3 ≤ k ∧ k ≤ 6) := by decide

/-- A mode as `modg` leaves it (R89). -/
theorem getLsbD_modg (m : BitVec 16) (n : BitVec 1) (p : BitVec 3) {k : Nat} (hk : k < 16) :
    ((m &&& 0xFF87) ||| BitVec.ofNat 16 (n.toNat * 64 + p.toNat * 8)).getLsbD k =
      if k = 6 then decide (n = 1) else if 3 ≤ k ∧ k ≤ 5 then p.getLsbD (k - 3) else m.getLsbD k := by
  rw [BitVec.getLsbD_or, BitVec.getLsbD_and, getLsbD_guardBits n p k hk, getLsbD_unguarded k hk]
  by_cases h6 : k = 6
  · simp [h6]
  · by_cases h5 : 3 ≤ k ∧ k ≤ 5
    · simp [h6, h5, show k ≤ 6 by omega]
    · simp [h6, h5, show ¬ (3 ≤ k ∧ k ≤ 6) by omega]

/-- Writing back the group that issues is no change of it. -/
theorem Passes.of_setGrp_self {s t : State} {evs : List Nat} (h : Passes (s.setGrp s.grp) t evs) : Passes s t evs := by
  obtain ⟨frame, ⟨cur, rest, group, bad⟩, regs, preds, counted⟩ := h
  have same := s.group_setGrp_same s.grp
  rw [same] at cur rest group bad regs preds
  refine ⟨(frame_setGrp s s.grp).trans frame, ⟨cur, rest, group, bad⟩, regs, preds, ?_⟩
  have team : (s.setGrp s.grp).team = s.team := by rw [State.team, same]; rfl
  intro c hc
  rw [← team]
  exact counted c hc

theorem nop_passes (s : State) (st : BitVec 3) : ∃ t, exec (.nop st) s = .next t ∧ Passes s t [] :=
  ⟨_, (Use.bare_stall st.toNat).run s _, (finish_passes s _ _ s.grp [] rfl rfl).of_setGrp_self⟩

theorem mode_passes (s : State) (st : BitVec 3) {m : BitVec 16} (ok : modeOk m.toNat = true) :
    ∃ t, exec (.mode st m) s = .next t ∧ Passes (s.setGrp { s.grp with cur := { s.grp.cur with mode := m } }) t [] := by
  refine ⟨_, (Use.bare_stall st.toNat).run s _, ?_⟩
  rw [if_pos ok]
  exact finish_passes s _ _ _ [] rfl rfl

theorem mode_traps (s : State) (st : BitVec 3) {m : BitVec 16} (bad : modeOk m.toNat ≠ true) : exec (.mode st m) s = .next (s.trap 2 1) := by
  refine ((Use.bare_stall st.toNat).run s _).trans ?_
  rw [if_neg bad]

theorem modg_passes (s : State) (st : BitVec 3) (n : BitVec 1) (p : BitVec 3) :
    ∃ t m', exec (.modg st n p) s = .next t ∧ Passes (s.setGrp { s.grp with cur := { s.grp.cur with mode := m' } }) t [] ∧
      ∀ k, k < 16 → m'.getLsbD k =
        if k = 6 then decide (n = 1) else if 3 ≤ k ∧ k ≤ 5 then p.getLsbD (k - 3) else s.grp.cur.mode.getLsbD k :=
  ⟨_, _, (Use.bare_stall st.toNat).run s _, finish_passes s _ _ _ [] rfl rfl, fun _ hk => getLsbD_modg _ n p hk⟩

/-- Giving up the turn is a change of the group's own that its moving on to the next word keeps. -/
theorem yield_passes (s : State) (st : BitVec 3) :
    ∃ t, exec (.yield st) s = .next t ∧ Passes (s.setGrp { s.grp with yielded := 16 }) t [] := by
  refine ⟨_, (Use.bare_stall st.toNat).run s _, ?_⟩
  rw [Group.proceed_next _ _ rfl]
  have moved := finish_passes s { stall := st.toNat, guarded := false } { see := s.see { stall := st.toNat, guarded := false }, t := s.active }
    { s.grp with yielded := 16 } [] rfl rfl
  rwa [State.finish, State.close, Group.proceed_next _ _ rfl] at moved

theorem yieldEnd_reselects (s : State) {k : Nat} (yielded : (s.group k).yielded ≠ 0) (free : (s.group k).cur.wait.pinned = false) :
    ∃ t, exec (.yieldEnd k) s = .next t ∧ (t.group k).yielded = 0 ∧ (t.group k).selects ∧
      (∀ l q, (t.group k).holds l q ↔ (s.group k).holds l q) ∧ (t.group k).regs = (s.group k).regs ∧
      (t.group k).preds = (s.group k).preds ∧ t = s.putGroup k (t.group k) := by
  let g := { s.group k with yielded := 0 }
  have bare := g.reselect_bare
  have same : (s.putGroup k g.reselect).group k = g.reselect := by rw [State.group_putGroup, if_pos rfl]
  refine ⟨s.putGroup k g.reselect, ?_, ?_⟩
  · simp only [exec_yieldEnd, execYieldEnd, if_neg yielded, g]
  · rw [same]
    refine ⟨?_, g.selects_reselect (by simp [g, free]), g.holds_reselect, ?_, ?_, rfl⟩
    · have h := congrArg Group.yielded bare
      exact h
    · have h := congrArg Group.regs bare
      exact h
    · have h := congrArg Group.preds bare
      exact h

/-- Settles O28: no instruction of a group's control reads a register, so none is held; and a re-evaluation selects the first fragment. -/
theorem groupControl : Obligations.GroupControl := by
  unfold Obligations.GroupControl
  intro s st m n p
  refine ⟨nop_passes s st, ⟨?_, ?_⟩, modg_passes s st n p, yield_passes s st, fun k => yieldEnd_reselects s, fun k idle => ?_⟩
  · exact fun ok => mode_passes s st ((modeOk_iff _).2 ok)
  · exact fun bad => mode_traps s st (mt (modeOk_iff _).1 bad)
  · simp only [exec_yieldEnd, execYieldEnd, if_pos idle]

end Sys2Proof.Machine
end

section
/-! SUPPORT. Software traps, `halt` and RUN, and what draws PRIVILEGE (R25, R373, R386, R389). -/

namespace Sys2Proof.Machine

set_option Elab.async false

/-! ### Privilege -/

/-- The missing privilege is what an instruction traps for first of all (R35). -/
theorem run_priv (s : State) {u : Use} {d : Nat} (act : Issue → State) (h : u.priv = some d) : s.run u act = .next (s.trap 0x48 d) :=
  run_trap s u act (by simp only [State.verdict, h])

theorem State.sysCheck_level (s : State) (n : Nat) (write : Bool) (level : s.grp.cur.handler = false) (system : s.inSystem = false) :
    s.sysCheck n write = some 1 := by simp [State.sysCheck, level, system]

theorem State.sysCheck_view (s : State) (n : Nat) (write : Bool) (may : s.grp.cur.handler = true ∨ s.inSystem = true)
    (closed : s.sysView n = false ∨ write = true ∧ s.sysWritable n = false) : s.sysCheck n write = some 4 := by
  rcases may with h | h <;> rcases closed with c | ⟨rfl, c⟩ <;> simp [State.sysCheck, h, c]

theorem rdsp_traps (s : State) (d : BitVec 6) (n : BitVec 12) {x : Nat} (h : s.sysCheck n.toNat false = some x) :
    exec (.rdsp d n) s = .next (s.trap 0x48 x) := run_priv s _ h

theorem wrsp_traps (s : State) (d : BitVec 6) (n : BitVec 12) {x : Nat} (h : s.sysCheck n.toNat true = some x) :
    exec (.wrsp d n) s = .next (s.trap 0x48 x) := run_priv s _ h

theorem State.systemOnly_of_not (s : State) (system : s.inSystem = false) : s.systemOnly = some 3 := by simp [State.systemOnly, system]

/-- The registers that only a context with more privilege may write, or none. -/
theorem sysWritable_false (s : State) {n : BitVec 12} (h : n ∈ ([0x001, 0x002, 0x003, 0x010, 0x012, 0x013] : List (BitVec 12))) :
    s.sysWritable n.toNat = false := by
  simp only [List.mem_cons, List.not_mem_nil, or_false] at h
  rcases h with rfl | rfl | rfl | rfl | rfl | rfl <;> simp [State.sysWritable]

theorem sysWritable_false_of_not (s : State) (system : s.inSystem = false) {n : BitVec 12}
    (h : n ∈ ([0x000, 0x001, 0x002, 0x003, 0x010, 0x012, 0x013, 0x040] : List (BitVec 12))) : s.sysWritable n.toNat = false := by
  simp only [List.mem_cons, List.not_mem_nil, or_false] at h
  rcases h with rfl | rfl | rfl | rfl | rfl | rfl | rfl | rfl <;> simp [State.sysWritable, system]

theorem privilege : Rules.Privilege := by
  intro s d a b n level system
  refine ⟨fun hl hs => ⟨rdsp_traps s d n (s.sysCheck_level _ _ hl hs), wrsp_traps s d n (s.sysCheck_level _ _ hl hs)⟩, fun hl => ?_,
    fun hs => ?_, fun hl hs => ⟨?_, fun hn => ?_⟩, fun hs hn => ?_⟩
  · exact run_priv s _ (by simp only [show s.grp.cur.handler = false from hl, Bool.false_eq_true, if_false])
  · have only := s.systemOnly_of_not hs
    exact ⟨run_priv s _ only, run_priv s _ only, run_priv s _ only⟩
  · rintro rfl
    exact rdsp_traps s d _ (s.sysCheck_view _ _ (.inl hl) (.inl (by simp [State.sysView, show s.inSystem = false from hs])))
  · exact wrsp_traps s d n (s.sysCheck_view _ _ (.inl hl) (.inr ⟨rfl, sysWritable_false_of_not s hs hn⟩))
  · exact wrsp_traps s d n (s.sysCheck_view _ _ (.inr hs) (.inr ⟨rfl, sysWritable_false s hn⟩))

/-! ### Software traps -/

/-- A word that reads its guard alone. -/
theorem Use.plain_stall (s : State) (n : Nat) : ({ stall := n } : Use).Plain s [] [] :=
  ⟨rfl, rfl, rfl, rfl, rfl, Nat.zero_ne_add_one 2, rfl, rfl, rfl, rfl⟩

/-- What a gap still owed n slots later was before. -/
theorem mem_shrinkGaps {n : Nat} {own : Nat → Mask} {gaps : List Owed} {e : Owed} (h : e ∈ shrinkGaps n own gaps) :
    ∃ e0 ∈ gaps, e0.code = e.code ∧ e0.due = e.due ∧ e0.left = e.left + n := by
  induction gaps with
  | nil => simp [shrinkGaps] at h
  | cons f fs ih =>
    have later (h : e ∈ shrinkGaps n own fs) : ∃ e0 ∈ f :: fs, e0.code = e.code ∧ e0.due = e.due ∧ e0.left = e.left + n := by
      obtain ⟨e0, h0, same⟩ := ih h
      exact ⟨e0, List.mem_cons_of_mem _ h0, same⟩
    simp only [shrinkGaps] at h
    split at h
    · next long =>
      rcases List.mem_cons.1 h with rfl | h
      · exact ⟨f, List.mem_cons_self, rfl, rfl, by dsimp only; omega⟩
      · exact later h
    · exact later h

/-- A word without a result of fixed latency adds no gap. -/
theorem Group.oweGaps_of_lat_zero (g : Group) {u : Use} (h : u.lat = 0) (t : Mask) (cycle : Nat) :
    g.oweGaps u t cycle = shrinkGaps (1 + u.stall) (fun c => if u.lat ≤ 1 + u.stall ∧ c ∈ u.dsts then t else 0) g.owed := by
  simp [Group.oweGaps, h]

/-- The group after the slot of a word has passed. -/
theorem pass_grp (s : State) (g : Group) (n : Nat) : ((s.setGrp g).pass n).grp.kept = g.kept := by
  have h := keeps_pass (s.setGrp g) n
  have hc : ((s.setGrp g).pass n).cur = s.cur := h.cur
  have own := h.own
  rw [show (s.setGrp g).cur = s.cur from rfl, show (s.setGrp g).group s.cur = g from s.group_setGrp_same g] at own
  rw [State.grp, hc]
  exact own

/-- Before a software trap is taken its word's slots have passed, and nothing else. -/
theorem softTrap_eq (s : State) {u : Use} (lat : u.lat = 0) (code detail : Nat) :
    ∃ s1, s.softTrap u code detail = s1.trap code detail ∧ Frame s.cur s s1 ∧ s1.cycle = s.cycle + 2 * (1 + u.stall) ∧
      s1.grp.cur = s.grp.cur ∧ s1.grp.rest = s.grp.rest ∧ s1.grp.regs = s.grp.regs ∧ s1.grp.preds = s.grp.preds ∧
      s1.grp.fixed = s.grp.fixed ∧
      ∀ e ∈ s1.grp.owed, ∃ e0 ∈ s.grp.owed, e0.code = e.code ∧ e0.due = e.due ∧ e0.left = e.left + (1 + u.stall) := by
  let g := { s.grp with owed := s.grp.oweGaps u 0 s.cycle }
  have kept : ((s.setGrp g).pass u.stall).grp.kept = g.kept := pass_grp s g u.stall
  refine ⟨(s.setGrp g).pass u.stall, rfl, (frame_setGrp s g).trans (keeps_pass (s.setGrp g) u.stall).toFrame, rfl, ?_, ?_, ?_, ?_, ?_, ?_⟩
  · exact (congrArg Group.cur kept :)
  · exact (congrArg Group.rest kept :)
  · exact (congrArg Group.regs kept :)
  · exact (congrArg Group.preds kept :)
  · exact (congrArg Group.fixed kept :)
  · have owed : ((s.setGrp g).pass u.stall).grp.owed = g.owed := (congrArg Group.owed kept :)
    rw [owed]
    intro e he
    rw [show g.owed = _ from s.grp.oweGaps_of_lat_zero lat 0 s.cycle] at he
    exact mem_shrinkGaps he

/-! ### A context that halts and resumes -/

/-- A context that is halted once a slot has passed. -/
theorem Passes.haltContext {s t : State} (h : Passes s t []) (pc : Nat) :
    Passes (s.putCtx s.team.ctx { s.ctx with halted := true }) (t.haltContext pc) [] ∧
      ((t.haltContext pc).ctxOf s.team.ctx).halted = true ∧ ⟨9, placeName s.team s.grp, pc, 0⟩ ∈ (t.haltContext pc).interrupts := by
  obtain ⟨frame, advances, regs, preds, counted⟩ := h
  have team : t.team.fixed = s.team.fixed := by
    have same : t.grp.team = s.grp.team := (congrArg Group.team advances.group :)
    rw [State.team, same]
    exact frame.teams s.grp.team
  have ctx : t.team.ctx = s.team.ctx := (congrArg Team.ctx team :)
  have cluster : t.team.cluster = s.team.cluster := (congrArg Team.cluster team :)
  have core : t.grp.core = s.grp.core := (congrArg Group.core advances.group :)
  have place : t.grp.place = s.grp.place := (congrArg Group.place advances.group :)
  have ctxNow : t.ctx = s.ctx := by rw [State.ctx, State.ctxOf, ctx, frame.ctxs]; rfl
  have eq : t.haltContext pc = (t.putCtx s.team.ctx { s.ctx with halted := true }).interrupt 9 (placeName s.team s.grp) pc 0 := by
    simp only [State.haltContext, ctxNow, ctx, placeName, cluster, core, place]
  rw [eq]
  refine ⟨⟨⟨?_, frame.groups, frame.teams, frame.launches⟩, ⟨advances.cur, advances.rest, advances.group, advances.bad⟩, regs,
    preds, counted⟩, ?_, ?_⟩
  · have rest := congrArg (fun x : State => x.putCtx s.team.ctx { s.ctx with halted := true }) frame.rest
    simp only [State.putCtx, State.fixed] at rest ⊢
    exact rest
  · show (tget _ (tput t.ctxs _ _) _).halted = true
    rw [tget_tput, if_pos rfl]
  · simp [State.interrupt]

/-- RUN (R377): the context is halted no more; its groups keep their deferred traps, by code and detail. -/
theorem run_resumes (s : State) (v : Nat) :
    ∃ t, exec (.run v) s = .next t ∧ (t.ctxOf (v % 2 ^ 20)).halted = false ∧ (∀ d, d ≠ v % 2 ^ 20 → t.ctxOf d = s.ctxOf d) ∧
      t = { s with ctxs := t.ctxs, stalled := t.stalled, groups := t.groups } ∧
      ∀ x ∈ t.groups, ∃ g, (x.1, g) ∈ s.groups ∧ x.2 = { g with deferred := x.2.deferred } ∧
        x.2.deferred.map (fun d => (d.code, d.detail)) = g.deferred.map (fun d => (d.code, d.detail)) := by
  by_cases halted : (s.ctxOf (v % 2 ^ 20)).halted = true
  · refine ⟨s.resumeContext (v % 2 ^ 20), by simp only [exec_run, execRun, halted, if_true], ?_, fun d hd => ?_, rfl, fun x hx => ?_⟩
    · show (tget _ (tput s.ctxs _ _) _).halted = false
      rw [tget_tput, if_pos rfl]
    · show tget _ (tput s.ctxs _ _) _ = _
      rw [tget_tput, if_neg hd]
      rfl
    · obtain ⟨⟨k, g⟩, hg, rfl⟩ := List.mem_map.1 hx
      refine ⟨g, hg, ?_⟩
      dsimp only
      split
      · exact ⟨rfl, by simp [Group.holdTraps]⟩
      · exact ⟨rfl, rfl⟩
  · refine ⟨s, by simp only [exec_run, execRun, halted, Bool.false_eq_true, if_false], by simpa using halted, fun _ _ => rfl, rfl, ?_⟩
    exact fun x hx => ⟨x.2, hx, rfl, rfl⟩

theorem softwareTrapsAndHalt : Rules.SoftwareTrapsAndHalt := by
  intro s st n halts traps
  have act (ready : Ready s [] []) := plain_go ready (Use.plain_stall s st.toNat)
  have passes : Passes s (s.finish { stall := st.toNat } { see := s.see { stall := st.toNat }, t := s.lanesT, w := 0, needs := [] } s.grp) [] :=
    (finish_passes s _ _ s.grp [] rfl rfl).of_setGrp_self
  refine ⟨fun ready => ⟨fun none => ?_, fun some => ?_, fun none => ?_, fun some brkh => ?_, fun some brkh => ?_⟩, fun system => ?_, run_resumes s⟩
  · refine ⟨_, (run_go s _ _ (act ready)).trans ?_, passes⟩
    rw [if_pos none]
  · obtain ⟨s1, trapped, rest⟩ := softTrap_eq s (u := { stall := st.toNat }) rfl 0x40 n.toNat
    refine ⟨s1, (run_go s _ _ (act ready)).trans ?_, rest⟩
    rw [if_neg some, trapped]
  · refine ⟨_, (run_go s _ _ (act ready)).trans ?_, passes⟩
    rw [if_pos none]
  · obtain ⟨s1, trapped, rest⟩ := softTrap_eq s (u := { stall := st.toNat }) rfl 0x41 n.toNat
    refine ⟨s1, (run_go s _ _ (act ready)).trans ?_, rest⟩
    rw [if_neg some, brkh, if_neg Bool.false_ne_true, trapped]
  · refine ⟨_, (run_go s _ _ (act ready)).trans ?_, passes.haltContext s.grp.cur.pc.toNat⟩
    rw [if_neg some, if_pos brkh]
  · have bare : ({ guarded := false, priv := s.systemOnly } : Use).Bare :=
      ⟨rfl, by simp [State.systemOnly, system], Nat.zero_ne_add_one 2, rfl, rfl, rfl, rfl, rfl, rfl, fun _ => rfl⟩
    exact ⟨_, bare.run s _, (finish_passes s _ _ s.grp [] rfl rfl).of_setGrp_self.haltContext s.grp.cur.pc.toNat⟩

/-- Settles O32: a software trap is what follows its word's slots, and a missing privilege what is found first. -/
theorem softwareTrapsAndPrivilege : Obligations.SoftwareTrapsAndPrivilege := ⟨softwareTrapsAndHalt, privilege⟩

end Sys2Proof.Machine
end

section
/-! SUPPORT. O11 fails: an instruction held back by the scoreboard that is also to read a poisoned register. -/

namespace Sys2Proof.Machine

set_option Elab.async false

/-- Lanes 0 and 31 are active; access 7 is to write register 1, which holds poison in lane 0. -/
def busyAndPoisoned : State where
  cur := 16
  groups := [(16, { absent := 0x7FFFFFFE, cur := { mask := 0x80000001, st := .ready, id := 1 }, team := 1, busy := [(1, 7)], bad := [32] })]
  teams := [(1, { st := .resident, launch := 5, size := 1 })]
  launches := [(5, { st := .running })]

theorem State.stopsFor_spoilt (s : State) {u : Use} (h : s.spoilt u = true) : s.stopsFor u = s.meetBad := by simp [State.stopsFor, h]

/-- The addition of registers 1 and 2 waits for the access; and since it would read poison, its fault domain stops and the control complex
is interrupted (R417). -/
theorem exec_busyAndPoisoned : exec (.add 0 0 1 2) busyAndPoisoned = .next busyAndPoisoned.meetBad.stand := by
  have spoilt : busyAndPoisoned.spoilt (busyAndPoisoned.intUse 0 1 2 intTypes 0 [1, 2]) = true := by decide +kernel
  have waits : busyAndPoisoned.verdict (busyAndPoisoned.intUse 0 1 2 intTypes 0 [1, 2]) = .wait := rfl
  rw [exec_add, execAdd, State.intOp, State.lanewise]
  exact (run_wait _ _ _ waits).trans (by rw [busyAndPoisoned.stopsFor_spoilt spoilt])

/-- The clause on the scoreboard asks that an instruction held back leave nothing but its wait. -/
theorem not_rulesAdmission : ¬ Rules.Admission := by
  intro h
  obtain ⟨integers, _⟩ := h busyAndPoisoned 0 0 1 2
  obtain ⟨_, _, admitted⟩ := integers (.add 0 0 1 2) (by simp)
  obtain ⟨_, heldBack⟩ := admitted (by decide) (by decide)
  have stands : exec (.add 0 0 1 2) busyAndPoisoned = .next busyAndPoisoned.stand :=
    heldBack rfl (.inl rfl) ⟨1, by decide, (1, 7), by decide, rfl⟩
  rw [exec_busyAndPoisoned, Host.Outcome.next.injEq] at stands
  exact absurd (congrArg State.interrupts stands) (by decide)

/-- Refutes O11 by its clause on the scoreboard: where a source of the instruction held back is poisoned, its fault domain stops as well
(R417), which the clause leaves out. -/
theorem not_admission : ¬ Obligations.Admission := by
  unfold Obligations.Admission
  rintro ⟨admission, _⟩
  exact not_rulesAdmission admission

end Sys2Proof.Machine
end

section
/-! SUPPORT. What is left to check of an instruction once its fields are admitted, nothing hinders it and it reads no poison: its own check, then
the back views (R35, R162, R163). -/

namespace Sys2Proof.Machine

set_option Elab.async false

/-- The verdict from the instruction's own check on. -/
def State.lateVerdict (s : State) (u : Use) : Verdict :=
  match u.check (s.lanesFor u) with
  | some (c, d) => .trap c d
  | none => match s.unordered u with
    | some d => .trap 0x22 d
    | none => s.admitViews u

theorem State.lateVerdict_check {s : State} {u : Use} {c d : Nat} (h : u.check (s.lanesFor u) = some (c, d)) :
    s.lateVerdict u = .trap c d := by simp [State.lateVerdict, h]

theorem State.lateVerdict_unordered {s : State} {u : Use} {d : Nat} (h : u.check (s.lanesFor u) = none) (hd : s.unordered u = some d) :
    s.lateVerdict u = .trap 0x22 d := by simp [State.lateVerdict, h, hd]

theorem State.lateVerdict_views {s : State} {u : Use} (h : u.check (s.lanesFor u) = none) (hd : s.unordered u = none) :
    s.lateVerdict u = s.admitViews u := by simp [State.lateVerdict, h, hd]

/-- The codes whose gaps an instruction reads are among those that may hinder it. -/
theorem State.sources_subset (s : State) (u : Use) :
    ∀ c ∈ u.srcs ++ s.implicit u, c ∈ (64 + s.grp.cur.gp) :: (u.srcs ++ u.sel.toList.map (64 + ·) ++ u.dsts) := by
  intro c hc
  simp only [State.implicit, List.mem_append, Option.mem_toList, Option.map_eq_some_iff] at hc
  rcases hc with hc | hc | ⟨a, ha, rfl⟩
  · simp [hc]
  · split at hc
    · simp only [List.mem_singleton] at hc; simp [hc]
    · simp at hc
  · simp [ha]

/-- An instruction that reads no lane's registers but each lane's own meets no poison among whole sources. -/
theorem State.spoilt_of_whole {s : State} {u : Use} (own : u.redirect = none)
    (owed : ∀ c ∈ u.srcs ++ s.implicit u, s.grp.owedOf c = []) (whole : s.whole u.srcs (s.lanesFor u)) : s.spoilt u = false := by
  have cells (l : Nat) : u.cells (s.see u) l = u.srcs.map (·, l) := by simp only [Use.cells, own]
  have reads (l : Nat) : u.reads (s.see u) l = u.slots.map (fun j => (j, l)) := by
    simp only [Use.reads, Use.farReads, Use.ownReads, own, Use.slots, List.nil_append, List.map_map]
    rfl
  have noRegister : ∀ l ∈ lanesOf (s.lanesFor u), (u.srcs.map (·, l)).any (fun x => decide (x.1 < 60) && s.grp.bad.contains (32 * x.1 + x.2)) =
      false := by
    intro l hl
    simp only [List.any_map, List.any_eq_false, Function.comp, Bool.and_eq_true, decide_eq_true_eq, List.contains_iff_mem, not_and]
    exact fun c hc h60 => (whole c hc l (mem_lanesOf.1 hl)).1 h60
  have noView : ∀ l ∈ lanesOf (s.lanesFor u), (u.slots.map (fun j => (j, l))).any (fun x => s.viewBad x.1 x.2) = false := by
    intro l hl
    simp only [List.any_map, List.any_eq_false, Function.comp]
    intro j hj
    simp only [Use.slots, List.mem_map, List.mem_filter, Bool.and_eq_true, decide_eq_true_eq] at hj
    obtain ⟨n, ⟨hn, h1, h2⟩, rfl⟩ := hj
    simp [(whole n hn l (mem_lanesOf.1 hl)).2 h1 h2]
  simp only [State.spoilt, lanesOn_see owed, cells, reads, Bool.or_eq_false_iff, Bool.and_eq_false_iff]
  exact ⟨.inr (List.any_eq_false.2 fun l hl => Bool.eq_false_iff.1 (noRegister l hl)),
    .inr (List.any_eq_false.2 fun l hl => Bool.eq_false_iff.1 (noView l hl))⟩

/-- What an instruction needs apart from its own check and the back views. -/
structure Use.Admitted (s : State) (u : Use) : Prop where
  priv : u.priv = none
  cls : u.cls ≠ 3
  step6 : u.step6 = none
  step7 : u.step7 = false
  redirect : u.redirect = none
  free : Unhindered s (u.srcs ++ u.sel.toList.map (64 + ·) ++ u.dsts)
  whole : s.whole u.srcs (s.lanesFor u)

theorem Use.Admitted.owed {s : State} {u : Use} (h : u.Admitted s) : ∀ c ∈ u.srcs ++ s.implicit u, s.grp.owedOf c = [] :=
  fun c hc => h.free.owedOf (s.sources_subset u c hc)

theorem Use.Admitted.verdict {s : State} {u : Use} (h : u.Admitted s) : s.verdict u = s.lateVerdict u := by
  have short : s.shortSource u = none := by
    simp only [State.shortSource]
    split
    · simp only [List.find?_eq_none, List.any_eq_true, beq_iff_eq, not_exists, not_and]
      exact fun c hc e he => h.free.owed c (s.sources_subset u c hc) e he
    · rfl
  have wait : s.mustWait u = false := by
    simp only [State.mustWait, h.free.foot, List.isEmpty_nil, Bool.not_true, Bool.false_and, Bool.or_false, List.any_eq_false,
      List.any_eq_true, beq_iff_eq, not_exists, not_and]
    intro c hc b hb
    refine h.free.busy c ?_ b hb
    rcases List.mem_append.1 hc with hc | hc
    · exact s.sources_subset u c hc
    · simp [hc]
  simp only [State.verdict, h.priv, h.cls, h.step6, h.step7, short, wait, State.spoilt_of_whole h.redirect h.owed h.whole,
    lanesOn_see h.owed, if_false, Bool.false_eq_true, Bool.or_false, Bool.and_false, ite_self]
  rfl

end Sys2Proof.Machine
end

section
/-! SUPPORT. Carry instructions: `pub` and `cdef` (R34, R159, R165, R167, R177, R178). -/

namespace Sys2Proof.Machine

set_option Elab.async false

/-! ### Their checks -/

theorem State.carryCheck_none (s : State) {t : Mask} {j : Nat} (h : t = 0 ∨ s.launch.ordered = true ∧ (s.slotOf j).valid = true) :
    s.carryCheck t j = none := by
  unfold State.carryCheck
  rcases h with h | ⟨ordered, valid⟩
  · rw [if_pos h]
  · simp [ordered, valid]

theorem State.carryCheck_unordered (s : State) {t : Mask} {j : Nat} (some : t ≠ 0) (h : s.launch.ordered = false) :
    s.carryCheck t j = .some (0x22, 4 + j) := by
  unfold State.carryCheck
  rw [if_neg some, h]
  rfl

theorem State.carryCheck_undeclared (s : State) {t : Mask} {j : Nat} (some : t ≠ 0) (ordered : s.launch.ordered = true)
    (h : (s.slotOf j).valid = false) : s.carryCheck t j = .some (0x22, 8 + j) := by
  unfold State.carryCheck
  rw [if_neg some, ordered, h]
  rfl

/-- What `pub` needs (R177). -/
def State.pubUse (s : State) (a j : Nat) : Use :=
  { srcs := [a]
    check := fun t => (s.carryCheck t j).orElse (fun _ =>
      if t &&& tget 0 s.grp.pub j = 0 then none else some (0x21, 4 * lowest (t &&& tget 0 s.grp.pub j) + j)) }

/-- What `cdef` needs (R178). -/
def State.cdefUse (s : State) (j k : Nat) : Use :=
  { check := fun t => (s.carryCheck t j).orElse (fun _ => if t = 0 ∨ k + 1 = (s.slotOf j).k then none else some (0x22, 12 + j)) }

theorem State.pubUse_check (s : State) (a j : Nat) (t : Mask) : (s.pubUse a j).check t = (s.carryCheck t j).orElse (fun _ =>
    if t &&& tget 0 s.grp.pub j = 0 then none else some (0x21, 4 * lowest (t &&& tget 0 s.grp.pub j) + j)) := rfl

theorem State.cdefUse_check (s : State) (j k : Nat) (t : Mask) : (s.cdefUse j k).check t = (s.carryCheck t j).orElse (fun _ =>
    if t = 0 ∨ k + 1 = (s.slotOf j).k then none else some (0x22, 12 + j)) := rfl

/-- Lanes that a slot admits and of which none has published: nothing to trap for. -/
theorem State.pubUse_check_none (s : State) (a : Nat) {j : Nat} {t : Mask} (slot : t = 0 ∨ s.launch.ordered = true ∧ (s.slotOf j).valid = true)
    (fresh : t &&& tget 0 s.grp.pub j = 0) : (s.pubUse a j).check t = none := by
  rw [State.pubUse_check, s.carryCheck_none slot]
  exact if_pos fresh

theorem exec_pub_run (s : State) (a n : BitVec 6) : exec (.pub a n) s = s.run (s.pubUse a.toNat n.toNat) (fun io =>
    if io.t ≠ 0 ∧ s.returning then s.stand
    else (lanesOf io.t).foldl (fun s' l => s'.publish s.team.launch (32 * s.grp.ord + l) n.toNat (some (io.see.reg a.toNat l)))
      (s.finish (s.pubUse a.toNat n.toNat) io { s.grp with pub := mset 0 s.grp.pub n.toNat (tget 0 s.grp.pub n.toNat ||| io.t) })) := rfl

theorem exec_cdef_run (s : State) (d : BitVec 6) (j : BitVec 2) (k : BitVec 10) : exec (.cdef d j k) s = s.run (s.cdefUse j.toNat k.toNat)
    (fun io => s.finish (s.cdefUse j.toNat k.toNat) io
      { s.grp with bind := (lanesOf io.t).foldl (fun b l => tput b (32 * j.toNat + l) d.toNat) s.grp.bind }) := rfl

theorem State.pubUse_admitted {s : State} {a : Nat} (j : Nat) (free : Unhindered s [a]) (whole : s.whole [a] s.lanesT) :
    (s.pubUse a j).Admitted s :=
  ⟨rfl, Nat.zero_ne_add_one 2, rfl, rfl, rfl, free, whole⟩

theorem State.cdefUse_admitted {s : State} (j k : Nat) (ready : Ready s [] []) : (s.cdefUse j k).Admitted s :=
  ⟨rfl, Nat.zero_ne_add_one 2, rfl, rfl, rfl, ready.free, ready.whole⟩

/-- An admitted instruction whose own check fails traps. -/
theorem run_check {s : State} {u : Use} (h : u.Admitted s) (act : Issue → State) {c d : Nat} (hc : u.check (s.lanesFor u) = some (c, d)) :
    s.run u act = .next (s.trap c d) := run_trap s u act (h.verdict.trans (State.lateVerdict_check hc))

theorem pub_traps {s : State} {a n : BitVec 6} (free : Unhindered s [a.toNat]) (whole : s.whole [a.toNat] s.lanesT) {c d : Nat}
    (hc : (s.pubUse a.toNat n.toNat).check s.lanesT = some (c, d)) : exec (.pub a n) s = .next (s.trap c d) :=
  (exec_pub_run s a n).trans (run_check (State.pubUse_admitted _ free whole) _ hc)

theorem cdef_traps {s : State} {d : BitVec 6} {n : BitVec 2} {k : BitVec 10} (ready : Ready s [] []) {c x : Nat}
    (hc : (s.cdefUse n.toNat k.toNat).check s.lanesT = some (c, x)) : exec (.cdef d n k) s = .next (s.trap c x) :=
  (exec_cdef_run s d n k).trans (run_check (State.cdefUse_admitted _ _ ready) _ hc)

/-! ### Publication -/

/-- Values published for lanes one after the other: the entries, and their messages. -/
theorem publish_foldl (l ord j : Nat) (v : Nat → Option Word) (ls : List Nat) (s : State) :
    ls.foldl (fun s' x => s'.publish l (32 * ord + x) j (v x)) s =
      { s with carried := s.carried ++ ls.map (fun x =>
                 { launch := l, item := 32 * ord + x, slot := j, value := v x, cluster := s.team.cluster, issued := s.cycle })
               agenda := s.agenda ++ ls.map (fun x => .carryMessage l (32 * ord + x) j) } := by
  induction ls generalizing s with
  | nil => simp
  | cons x ls ih =>
    rw [List.foldl_cons, ih]
    simp only [State.publish, List.map_cons, List.append_assoc, List.cons_append, List.nil_append]
    rfl

/-- What a slot leaves alone stays alone when an instruction's own effect lies outside the group. -/
theorem Passes.withCarried {s t : State} {evs : List Nat} (h : Passes s t evs) (cs : List Carried) (es : List Event) :
    Passes { s with carried := cs } { t with carried := cs, agenda := es } evs := by
  obtain ⟨frame, ⟨cur, rest, group, bad⟩, regs, preds, counted⟩ := h
  refine ⟨⟨?_, frame.groups, frame.teams, frame.launches⟩, ⟨cur, rest, group, bad⟩, regs, preds, counted⟩
  have fixed := congrArg (fun x : State => { x with carried := cs }) frame.rest
  exact fixed

/-- `pub` of lanes that may publish: each lane's value stands published, and its message is to come. -/
theorem pub_passes {s : State} {a n : BitVec 6} (ready : Ready s [a.toNat] []) (check : (s.pubUse a.toNat n.toNat).check s.lanesT = none)
    (go : ¬ (s.lanesT ≠ 0 ∧ s.returning = true)) : ∃ t, exec (.pub a n) s = .next t ∧
      Passes { s.setGrp { s.grp with pub := mset 0 s.grp.pub n.toNat (tget 0 s.grp.pub n.toNat ||| s.lanesT) } with
        carried := s.carried ++ (lanesOf s.lanesT).map (fun l =>
          ({ launch := s.team.launch, item := 32 * s.grp.ord + l, slot := n.toNat, value := some (s.source a.toNat l), place := .sent,
             cluster := s.team.cluster, issued := t.cycle } : Carried)) } t [] ∧
      ∀ l, s.lanesT.getLsbD l = true → .carryMessage s.team.launch (32 * s.grp.ord + l) n.toNat ∈ t.agenda := by
  let u := s.pubUse a.toNat n.toNat
  have plain : u.Plain s [a.toNat] [] := ⟨rfl, rfl, rfl, rfl, rfl, Nat.zero_ne_add_one 2, rfl, rfl, check, rfl⟩
  let g := { s.grp with pub := mset 0 s.grp.pub n.toNat (tget 0 s.grp.pub n.toNat ||| s.lanesT) }
  let f := s.finish u { see := s.see u, t := s.lanesT, w := 0, needs := [] } g
  have passes : Passes (s.setGrp g) f [] := finish_passes s u _ g [] rfl rfl
  have team : f.team.fixed = s.team.fixed := by
    have same : f.grp.team = s.grp.team := (congrArg Group.team (finish_fixed s u _ g []) :)
    rw [State.team, same]
    exact (finish_frame s u _ g []).teams s.grp.team
  have cluster : f.team.cluster = s.team.cluster := (congrArg Team.cluster team :)
  have carried : f.carried = s.carried := (congrArg State.carried (finish_frame s u { see := s.see u, t := s.lanesT } g []).rest :)
  have values : (lanesOf s.lanesT).map (fun x =>
        ({ launch := s.team.launch, item := 32 * s.grp.ord + x, slot := n.toNat, value := some ((s.see u).reg a.toNat x),
           cluster := f.team.cluster, issued := f.cycle } : Carried)) =
      (lanesOf s.lanesT).map (fun l =>
        ({ launch := s.team.launch, item := 32 * s.grp.ord + l, slot := n.toNat, value := some (s.source a.toNat l), place := .sent,
           cluster := s.team.cluster, issued := f.cycle } : Carried)) := by
    refine List.map_congr_left fun l hl => ?_
    rw [plain_see ready plain (lt_of_mem_lanesOf hl) List.mem_cons_self, cluster]
  refine ⟨_, (exec_pub_run s a n).trans (run_go s u _ (plain_go ready plain)), ?_⟩
  rw [if_neg go, publish_foldl _ _ _ (fun x => some ((s.see u).reg a.toNat x)), values, carried]
  exact ⟨passes.withCarried _ _, fun l hl => List.mem_append.2 (.inr (List.mem_map.2 ⟨l, mem_lanesOf.2 hl, rfl⟩))⟩

theorem publishing : Rules.Publishing := by
  intro s a n hn j valid flags
  refine ⟨fun free whole => ⟨fun some un => ?_, fun some ordered undeclared => ?_, fun ordered declared twice => ?_⟩,
    fun ready => ⟨fun ordered declared fresh some returning => ?_, fun may => ?_⟩⟩
  · refine pub_traps free whole ?_
    rw [State.pubUse_check, s.carryCheck_unordered some un]
    rfl
  · refine pub_traps free whole ?_
    rw [State.pubUse_check, s.carryCheck_undeclared some ordered undeclared]
    rfl
  · refine pub_traps free whole ?_
    rw [State.pubUse_check, s.carryCheck_none (.inr ⟨ordered, declared⟩)]
    exact if_neg twice
  · have check := s.pubUse_check_none a.toNat (.inr ⟨ordered, declared⟩) fresh
    have plain : (s.pubUse a.toNat n.toNat).Plain s [a.toNat] [] := ⟨rfl, rfl, rfl, rfl, rfl, Nat.zero_ne_add_one 2, rfl, rfl, check, rfl⟩
    refine ((exec_pub_run s a n).trans (run_go s _ _ (plain_go ready plain))).trans ?_
    rw [if_pos ⟨some, returning⟩]
  · rcases may with none | ⟨ordered, declared, fresh, stays⟩
    · exact pub_passes ready (s.pubUse_check_none _ (.inl none) (by simp [none])) (fun h => h.1 none)
    · exact pub_passes ready (s.pubUse_check_none _ (.inr ⟨ordered, declared⟩) fresh) (fun h => by simp [stays] at h)

/-! ### Binding -/

/-- Lanes of a slot bound one after the other. -/
theorem tfind_bindings (j d : Nat) (ls : List Nat) (b : Table Nat) (hls : ∀ l ∈ ls, l < 32) (c l : Nat) (hl : l < 32) :
    tfind (ls.foldl (fun b l => tput b (32 * j + l) d) b) (32 * c + l) = if c = j ∧ l ∈ ls then some d else tfind b (32 * c + l) := by
  induction ls generalizing b with
  | nil => simp
  | cons x ls ih =>
    have hx : x < 32 := hls x List.mem_cons_self
    rw [List.foldl_cons, ih _ fun y hy => hls y (List.mem_cons_of_mem _ hy), tfind_tput]
    have key : 32 * c + l = 32 * j + x ↔ c = j ∧ l = x := by omega
    simp only [key, List.mem_cons]
    by_cases hc : c = j <;> by_cases hlx : l = x <;> by_cases hm : l ∈ ls <;> simp [hc, hlx, hm]

theorem cdef_passes {s : State} (d : BitVec 6) {n : BitVec 2} {k : BitVec 10} (ready : Ready s [] [])
    (check : (s.cdefUse n.toNat k.toNat).check s.lanesT = none) :
    ∃ t bind, exec (.cdef d n k) s = .next t ∧ Passes (s.setGrp { s.grp with bind := bind }) t [] ∧
      ∀ c l, l < 32 → tfind bind (32 * c + l) =
        if c = n.toNat ∧ s.lanesT.getLsbD l = true then some d.toNat else tfind s.grp.bind (32 * c + l) := by
  have plain : (s.cdefUse n.toNat k.toNat).Plain s [] [] := ⟨rfl, rfl, rfl, rfl, rfl, Nat.zero_ne_add_one 2, rfl, rfl, check, rfl⟩
  refine ⟨_, _, (exec_cdef_run s d n k).trans (run_go s _ _ (plain_go ready plain)), finish_passes s _ _ _ [] rfl rfl, fun c l hl => ?_⟩
  rw [tfind_bindings _ _ _ _ (fun _ => lt_of_mem_lanesOf) c l hl]
  simp only [mem_lanesOf]

theorem binding : Rules.Binding := by
  intro s d n k ready j slot
  refine ⟨fun some un => ?_, fun some ordered undeclared => ?_, fun some ordered declared other => ?_, fun may => ?_⟩
  · refine cdef_traps ready ?_
    rw [State.cdefUse_check, s.carryCheck_unordered some un]
    rfl
  · refine cdef_traps ready ?_
    rw [State.cdefUse_check, s.carryCheck_undeclared some ordered undeclared]
    rfl
  · refine cdef_traps ready ?_
    rw [State.cdefUse_check, s.carryCheck_none (.inr ⟨ordered, declared⟩)]
    exact if_neg (not_or.2 ⟨some, other⟩)
  · refine cdef_passes d ready ?_
    rw [State.cdefUse_check, s.carryCheck_none (may.imp id fun h => ⟨h.1, h.2.1⟩)]
    exact if_pos (may.imp id fun h => h.2.2)

end Sys2Proof.Machine
end
section
/-! SUPPORT. Lanes that wait for a back view (R161 to R164): the division that leaves them behind, and the instruction for the others. -/

namespace Sys2Proof.Machine

set_option Elab.async false

/-! ### Division -/

theorem held_addResident {fs ns : List Frag} {l : Nat} {q : Place} : Held (addResident fs ns) l q ↔ Held fs l q ∨ Held ns l q := by
  induction ns generalizing fs with
  | nil => simp [addResident, Held]
  | cons n ns ih => rw [addResident, ih, held_append, held_spillHighest, held_cons, held_cons]; simp [Held, Frag.place, or_assoc]

theorem held_of_mem {fs : List Frag} {f : Frag} {l : Nat} (h : f ∈ fs) (hst : f.st ≠ .free) (hl : f.mask.getLsbD l = true) :
    Held fs l f.place := ⟨f, h, hst, hl, rfl⟩

theorem none_of_orElse {α : Type} {x : Option α} {f : Unit → Option α} (h : x.orElse f = none) : f () = none := by
  cases x with
  | none => exact h
  | some _ => cases h

/-- Every part of a divided fragment is a fragment of the group after it. -/
theorem Group.held_divide (g : Group) (next : BitVec 64) {parts : List Part} {p : Part} (hp : p ∈ parts) (hst : p.st ≠ .free) {l : Nat}
    (hl : p.mask.getLsbD l = true) : Held ((g.divide next parts).cur :: (g.divide next parts).rest) l (p.frag g.cur).place := by
  have hmem : p ∈ parts.filter (fun p => p.mask != 0) := by
    refine List.mem_filter.2 ⟨hp, ?_⟩
    rw [bne_iff_ne]
    intro h
    simp [h] at hl
  simp only [Group.divide]
  generalize parts.filter (fun p => p.mask != 0) = ps at hmem
  split
  · next none =>
    exfalso
    have empty := List.head?_eq_none_iff.1 (none_of_orElse (none_of_orElse none))
    simp [empty] at hmem
  · next k _ =>
    have part : Held (addResident (k.frag g.cur :: g.rest.filter (fun f => f.st != .free))
        ((ps.erase k).zipIdx.map (fun (p, i) => { p.frag g.cur with id := g.freshFrag + i }))) l (p.frag g.cur).place := by
      rw [held_addResident]
      by_cases hk : p = k
      · subst hk
        exact .inl (held_of_mem List.mem_cons_self hst hl)
      · right
        obtain ⟨i, hi⟩ := List.mem_iff_getElem?.1 ((List.mem_erase_of_ne hk).2 hmem)
        exact ⟨_, List.mem_map.2 ⟨(p, i), List.mem_zipIdx_iff_getElem?.2 hi, rfl⟩, hst, hl, rfl⟩
    split
    · next empty => simp [empty, Held] at part
    · next cons => rwa [cons] at part

/-- A fragment of lanes that are left behind, once it says what it waits for. -/
def Frag.marked (io : Issue) (f : Frag) : Frag := if f.st == .parked && f.mask == io.w then { f with wait := .carry io.needs } else f

theorem Frag.marked_mask (io : Issue) (f : Frag) : (f.marked io).mask = f.mask := by unfold Frag.marked; split <;> rfl

theorem Frag.marked_place (io : Issue) (f : Frag) : (f.marked io).place = f.place := by unfold Frag.marked; split <;> rfl

/-- The two parts of a fragment that leaves lanes behind. -/
def Frag.partsBehind (f : Frag) (w : Mask) : List Part :=
  [{ mask := f.mask &&& ~~~w, pc := f.pc + 4, depth := f.depth }, { mask := w, pc := f.pc, depth := f.depth, st := .parked }]

theorem Group.proceed_behind (g : Group) (io : Issue) (h : io.w ≠ 0) :
    g.proceed io none = { g.divide (g.cur.pc + 4) (g.cur.partsBehind io.w) with
      cur := (g.divide (g.cur.pc + 4) (g.cur.partsBehind io.w)).cur.marked io
      rest := (g.divide (g.cur.pc + 4) (g.cur.partsBehind io.w)).rest.map (Frag.marked io) }.reselect := by
  simp only [Group.proceed, if_neg h]
  rfl

/-- Where the lanes of a fragment stand once its instruction is over: at the next word, and at the same word those that wait (R162). -/
theorem Group.holds_proceed (g : Group) (io : Issue) {l : Nat} (hl : g.cur.mask.getLsbD l = true) (hst : g.cur.st = .ready) :
    (io.w.getLsbD l = true → (g.proceed io none).holds l { g.cur.place with st := .parked }) ∧
      (io.w.getLsbD l = false → (g.proceed io none).holds l { g.cur.place with pc := g.cur.pc + 4 }) := by
  by_cases hw : io.w = 0
  · refine ⟨fun h => by simp [hw] at h, fun _ => ?_⟩
    rw [Group.proceed_next g io hw]
    exact ⟨_, List.mem_cons_self, by simp [hst], hl, rfl⟩
  · have behind {q : Place} (h : Held ((g.divide (g.cur.pc + 4) (g.cur.partsBehind io.w)).cur ::
        (g.divide (g.cur.pc + 4) (g.cur.partsBehind io.w)).rest) l q) : (g.proceed io none).holds l q := by
      rw [Group.proceed_behind g io hw, Group.holds_reselect]
      exact (held_map (Frag.marked_mask io) (Frag.marked_place io)).2 h
    refine ⟨fun h => behind ?_, fun h => behind ?_⟩
    · exact g.held_divide _ (p := { mask := io.w, pc := g.cur.pc, depth := g.cur.depth, st := .parked }) (by simp [Frag.partsBehind]) (by simp) h
    · have part := g.held_divide (g.cur.pc + 4) (parts := g.cur.partsBehind io.w) (l := l)
        (p := { mask := g.cur.mask &&& ~~~io.w, pc := g.cur.pc + 4, depth := g.cur.depth })
        (by simp [Frag.partsBehind]) (by simp) (by rw [BitVec.getLsbD_and, BitVec.getLsbD_not, hl, h]; simp [BitVec.lt_of_getLsbD hl])
      simpa only [Part.frag, Frag.place, hst, Option.map_none, Option.getD_none] using part

/-- Retiring moves no lane but as the instruction says. -/
theorem finish_holds (s : State) (u : Use) (io : Issue) (g : Group) (evs : List Nat) (l : Nat) (q : Place) :
    (s.finish u io g evs).grp.holds l q ↔ (g.proceed io none).holds l q := by
  have kept := finish_grp s u io g evs
  have cur : (s.finish u io g evs).grp.cur = (g.proceed io none).cur := (congrArg Group.cur kept :)
  have rest : (s.finish u io g evs).grp.rest = (g.proceed io none).rest := (congrArg Group.rest kept :)
  simp only [Group.holds, cur, rest]

end Sys2Proof.Machine
end

section
/-! SUPPORT. `mov` of a back view: the traps of R162 and R163, and the lanes that act. -/

namespace Sys2Proof.Machine

set_option Elab.async false

/-- What `mov` from a back view needs: it reads slot j alone. -/
structure Use.ReadsView (u : Use) (j : Nat) : Prop where
  srcs : u.srcs = [60 + j]
  lt : j < 4
  redirect : u.redirect = none
  check : ∀ t, u.check t = none

theorem Use.ReadsView.slots {u : Use} {j : Nat} (h : u.ReadsView j) : u.slots = [j] := by
  have := h.lt
  simp [Use.slots, h.srcs, show 60 + j < 64 by omega]

theorem Use.ReadsView.reads {u : Use} {j : Nat} (h : u.ReadsView j) (see : Group) (l : Nat) : u.reads see l = [(j, l)] := by
  have := h.lt
  simp [Use.reads, Use.farReads, Use.ownReads, h.redirect, h.srcs, show 60 + j < 64 by omega]

theorem Use.ReadsView.available {u : Use} {j : Nat} (h : u.ReadsView j) (s : State) (see : Group) (l : Nat) :
    s.available u see l = s.viewed (j, l) := by simp [State.available, h.reads]

theorem Use.ReadsView.brokenSlot {u : Use} {j : Nat} (h : u.ReadsView j) (s : State) (see : Group) (l : Nat) :
    s.brokenSlot u see l = if s.view j l = .broken then some j else none := by
  have hj := h.lt
  simp only [State.brokenSlot, h.reads, List.any_cons, List.any_nil, Bool.or_false]
  by_cases hb : s.view j l = .broken
  · simp only [hb, BEq.rfl, Bool.and_true, if_true]
    rw [List.find?_range_eq_some]
    exact ⟨by simp, by simpa using hj, fun i hi => by simp; omega⟩
  · simp [hb]

/-- The lanes of a mask whose back view of a slot is there. -/
def State.viewedLanes (s : State) (j : Nat) (t : Mask) : Mask := maskOf ((lanesOf t).filter (fun l => s.viewed (j, l)))

theorem State.getLsbD_viewedLanes (s : State) (j : Nat) (t : Mask) (l : Nat) :
    (s.viewedLanes j t).getLsbD l = (t.getLsbD l && s.viewed (j, l)) := by
  rw [State.viewedLanes, getLsbD_maskOf _ _ fun i hi => lt_of_mem_lanesOf (List.mem_of_mem_filter hi)]
  simp [mem_lanesOf]

theorem Use.ReadsView.admitViews_broken {s : State} {u : Use} {j : Nat} (h : u.ReadsView j)
    (owed : ∀ c ∈ u.srcs ++ s.implicit u, s.grp.owedOf c = []) {l : Nat} (hl : (s.lanesFor u).getLsbD l = true)
    (broken : s.view j l = .broken) (first : ∀ i, i < l → (s.lanesFor u).getLsbD i = true → s.view j i ≠ .broken) :
    s.admitViews u = .trap 0x20 (4 * l + j) := by
  have found : ((lanesOf (s.lanesFor u)).filter (fun l => s.viewed (j, l))).find?
      (fun l => (s.brokenSlot u (s.see u) l).isSome) = some l := by
    rw [lanesOf, List.filter_filter, List.find?_filter, List.find?_range_eq_some]
    refine ⟨by simp [h.brokenSlot, broken, State.viewed, hl], List.mem_range.2 (BitVec.lt_of_getLsbD hl), fun i hi => ?_⟩
    by_cases hi' : (s.lanesFor u).getLsbD i = true
    · simp [h.brokenSlot, first i hi hi']
    · simp [hi']
  simp only [State.admitViews, lanesOn_see owed, h.slots, List.isEmpty_cons, Bool.false_eq_true, if_false]
  rw [show s.available u (s.see u) = fun l => s.viewed (j, l) from funext (h.available s _), found]
  simp [h.brokenSlot, broken]

/-- The lanes whose view is there act, and the others are left behind. -/
def State.viewIssue (s : State) (u : Use) (j : Nat) (needs : List (Nat × Nat × Nat)) : Issue :=
  { see := s.see u, t := s.viewedLanes j (s.lanesFor u), w := s.lanesFor u &&& ~~~ s.viewedLanes j (s.lanesFor u), needs }

theorem Use.ReadsView.admitViews_go {s : State} {u : Use} {j : Nat} (h : u.ReadsView j)
    (owed : ∀ c ∈ u.srcs ++ s.implicit u, s.grp.owedOf c = []) (whole : ∀ l, (s.lanesFor u).getLsbD l = true → s.view j l ≠ .broken) :
    ∃ needs, s.admitViews u = .go (s.viewIssue u j needs) := by
  have none : ((lanesOf (s.lanesFor u)).filter (fun l => s.viewed (j, l))).find?
      (fun l => (s.brokenSlot u (s.see u) l).isSome) = none := by
    rw [List.find?_eq_none]
    intro l hl
    simp [h.brokenSlot, whole l (mem_lanesOf.1 (List.mem_of_mem_filter hl))]
  refine ⟨(lanesOf (s.lanesFor u &&& ~~~ s.viewedLanes j (s.lanesFor u))).flatMap (s.needsOf u (s.see u)), ?_⟩
  simp only [State.admitViews, lanesOn_see owed, h.slots, List.isEmpty_cons, Bool.false_eq_true, if_false]
  rw [show s.available u (s.see u) = fun l => s.viewed (j, l) from funext (h.available s _), none]
  rfl

/-- What `mov` of a word from a back view reads. -/
theorem movUse_readsView {s : State} (st : BitVec 3) (d a : BitVec 6) (narrow : s.wide = false) (ha : 60 ≤ a.toNat) :
    (s.anyUse st 1 2 d.toNat [a.toNat]).ReadsView (a.toNat - 60) :=
  ⟨by simp [State.anyUse, regs, narrow, ha], by have := a.isLt; omega, rfl, fun _ => rfl⟩

theorem movUse_admitted {s : State} {st : BitVec 3} {d a : BitVec 6} (narrow : s.wide = false) (free : Unhindered s [a.toNat, d.toNat])
    (whole : s.whole [a.toNat] s.lanesT) : (s.anyUse st 1 2 d.toNat [a.toNat]).Admitted s := by
  refine ⟨rfl, Nat.zero_ne_add_one 2, rfl, by simp [State.anyUse, narrow], rfl, ?_, ?_⟩
  · simpa [State.anyUse, regs, narrow] using free
  · simpa [State.anyUse, regs, narrow, State.lanesFor] using whole

/-- `mov` from a back view that no lane of T finds broken: lanes whose value is there take it and go on, the others wait at the word. -/
theorem mov_parks {s : State} {st : BitVec 3} {d a : BitVec 6} (narrow : s.wide = false) (ha : 60 ≤ a.toNat)
    (adm : (s.anyUse st 1 2 d.toNat [a.toNat]).Admitted s) (ready : s.grp.cur.st = .ready) {needs : List (Nat × Nat × Nat)}
    (go : s.verdict (s.anyUse st 1 2 d.toNat [a.toNat]) = .go (s.viewIssue (s.anyUse st 1 2 d.toNat [a.toNat]) (a.toNat - 60) needs)) :
    let waits (l : Nat) : Prop := s.lanesT.getLsbD l = true ∧ s.viewed (a.toNat - 60, l) = false
    ∃ t, exec (.mov st d a) s = .next t ∧ Frame s.cur s t ∧ t.grp.preds = s.grp.preds ∧
      (∀ r l, l < 32 → t.grp.reg r l = if r = d.toNat ∧ s.lanesT.getLsbD l = true ∧ s.viewed (a.toNat - 60, l) = true then
        (s.view (a.toNat - 60) l).word else s.grp.reg r l) ∧
      ∀ l, s.active.getLsbD l = true →
        (waits l → t.grp.holds l { s.here with st := .parked }) ∧ (¬ waits l → t.grp.holds l { s.here with pc := s.grp.cur.pc + 4 }) := by
  intro waits
  let u := s.anyUse st 1 2 d.toNat [a.toNat]
  let t := s.viewedLanes (a.toNat - 60) s.lanesT
  let io : Issue := s.viewIssue u (a.toNat - 60) needs
  let g := s.grp.putVal false d.toNat (fun l => (s.see u).val false a.toNat l) (lanesOf t)
  have cur : g.cur = s.grp.cur := by rw [show g = _ from Group.putVal_eq _ _ _ _ _]
  have preds : g.preds = s.grp.preds := by rw [show g = _ from Group.putVal_eq _ _ _ _ _]
  have lanes (l : Nat) : t.getLsbD l = (s.lanesT.getLsbD l && s.viewed (a.toNat - 60, l)) := s.getLsbD_viewedLanes _ _ l
  have behind {l : Nat} (hl : l < 32) : io.w.getLsbD l = true ↔ waits l := by
    rw [show io.w = s.lanesT &&& ~~~ t from rfl, BitVec.getLsbD_and, BitVec.getLsbD_not, lanes l]
    simp only [waits, hl, decide_true, Bool.true_and]
    cases s.lanesT.getLsbD l <;> simp
  have step : exec (.mov st d a) s = .next (s.finish u io g ((lanesOf t).flatMap fun _ => [])) := by
    rw [exec_mov, execMov, State.lanewise, run_go s _ _ go, narrow]
    rfl
  refine ⟨_, step, finish_frame s u io g _, (finish_preds s u io g _).trans preds, fun r l hl => ?_, fun l hl => ?_⟩
  · rw [finish_reg, Group.reg_putVal _ _ _ _ _ _ _ (fun _ => lt_of_mem_lanesOf) hl]
    have value : BitVec.ofNat 32 ((s.see u).val false a.toNat l) = (s.view (a.toNat - 60) l).word := by
      have srcs : a.toNat ∈ u.srcs := by simp [u, State.anyUse, regs, narrow]
      have := a.isLt
      rw [Group.val, if_neg Bool.false_ne_true, see_source adm.owed hl srcs, State.source_view s l ⟨ha, by omega⟩]
      simp
    simp only [mem_lanesOf, lanes l, Bool.and_eq_true, value, Bool.false_eq_true, false_and, if_false]
  · have hl32 : l < 32 := BitVec.lt_of_getLsbD hl
    obtain ⟨parked, moved⟩ := g.holds_proceed io (l := l) (by rw [cur]; exact hl) (by rw [cur]; exact ready)
    rw [cur] at parked moved
    have here : s.here = s.grp.cur.place := by simp only [State.here, Frag.place, ready]
    rw [here, finish_holds, finish_holds]
    exact ⟨fun w => parked ((behind hl32).2 w), fun w => moved (by simpa using mt (behind hl32).1 w)⟩

theorem View.viewed_iff {s : State} {j l : Nat} (whole : s.view j l ≠ .broken) : s.viewed (j, l) = true ↔ ∃ x, s.view j l = .val x := by
  unfold State.viewed
  cases h : s.view j l with
  | val x => simp
  | broken => exact absurd h whole
  | waiting i => simp

theorem backViews : Rules.BackViews := by
  intro s st d a narrow ha free whole ready j valid
  have reads := movUse_readsView st d a narrow ha
  have adm := movUse_admitted (st := st) narrow free whole
  have lanes : s.lanesFor (s.anyUse st 1 2 d.toNat [a.toNat]) = s.lanesT := rfl
  have traps {c x : Nat} (h : s.lateVerdict (s.anyUse st 1 2 d.toNat [a.toNat]) = .trap c x) : exec (.mov st d a) s = .next (s.trap c x) := by
    rw [exec_mov, execMov, State.lanewise, run_trap s _ _ (adm.verdict.trans h)]
  have unordered : s.unordered (s.anyUse st 1 2 d.toNat [a.toNat]) =
      if s.launch.ordered = true then (if valid = true then none else some (8 + j)) else some (4 + j) := by
    simp only [State.unordered, reads.slots]
    cases s.launch.ordered <;> cases h : valid <;> simp_all [valid, j]
  refine ⟨fun un => traps (State.lateVerdict_unordered rfl (by simp [unordered, un])),
    fun ordered undeclared => traps (State.lateVerdict_unordered rfl (by simp [unordered, ordered, undeclared])), fun ordered declared => ?_⟩
  have late := State.lateVerdict_views (s := s) (u := s.anyUse st 1 2 d.toNat [a.toNat]) rfl (by simp [unordered, ordered, declared])
  refine ⟨fun l hl broken first => traps (late.trans (reads.admitViews_broken adm.owed hl broken first)), fun fine => ?_⟩
  intro waits
  obtain ⟨needs, go⟩ := reads.admitViews_go adm.owed fine
  obtain ⟨t, step, frame, preds, regs, holds⟩ := mov_parks narrow ha adm ready (adm.verdict.trans (late.trans go))
  refine ⟨t, step, frame, preds, fun r l hl => ⟨fun x on val rd => ?_, fun other => ?_⟩, fun l hl => ?_⟩
  · rw [regs r l hl, if_pos ⟨rd, on, (View.viewed_iff (fine l on)).2 ⟨x, val⟩⟩, val]
    rfl
  · rw [regs r l hl, if_neg]
    rintro ⟨rd, on, seen⟩
    obtain ⟨x, hx⟩ := (View.viewed_iff (fine l on)).1 seen
    rcases other with h | h | h
    · exact h rd
    · simp [on] at h
    · exact h.2 x hx
  · have same : waits l ↔ s.lanesT.getLsbD l = true ∧ s.viewed (a.toNat - 60, l) = false := by
      refine and_congr_right fun on => ?_
      rw [← Bool.not_eq_true, View.viewed_iff (fine l on)]
      simp [j]
    rw [same]
    exact holds l hl

end Sys2Proof.Machine
end

section
/-! SUPPORT. The travel of carried values (R164, R173, R174): the spill area, and the fragments that a value wakes. -/

namespace Sys2Proof.Machine

set_option Elab.async false

/-! ### Parts of a number in memory -/

theorem readByte_writeLe {m : List Host.Cell} {n a v i : Nat} (h : i < n) : readByte (writeLe m a v n) (a + i) = BitVec.ofNat 8 (v / 256 ^ i) := by
  induction n generalizing a v i with
  | zero => omega
  | succ n ih =>
    rw [writeLe, readByte_writeByte]
    cases i with
    | zero => simp
    | succ i =>
      rw [if_neg (by omega), show a + (i + 1) = a + 1 + i by omega, ih (by omega), Nat.div_div_eq_div_mul, Nat.pow_succ, Nat.mul_comm 256]

theorem readLe_of_bytes {m : List Host.Cell} {n a v : Nat} (h : ∀ i < n, readByte m (a + i) = BitVec.ofNat 8 (v / 256 ^ i)) :
    readLe m a n = v % 256 ^ n := by
  induction n generalizing a v with
  | zero => simp [readLe, Nat.mod_one]
  | succ n ih =>
    have low := h 0 (by omega)
    have high : readLe m (a + 1) n = v / 256 % 256 ^ n := ih fun i hi => by
      rw [show a + 1 + i = a + (i + 1) by omega, h (i + 1) (by omega), Nat.div_div_eq_div_mul, Nat.pow_succ, Nat.mul_comm 256]
    rw [readLe, high, show readByte m a = _ from low, Nat.pow_succ, Nat.mul_comm _ 256, Nat.mod_mul]
    simp

/-- Bytes i to i + k of a number written. -/
theorem readLe_writeLe_part {m : List Host.Cell} {n a v i k : Nat} (h : i + k ≤ n) :
    readLe (writeLe m a v n) (a + i) k = v / 256 ^ i % 256 ^ k := by
  refine readLe_of_bytes fun x hx => ?_
  rw [Nat.add_assoc, readByte_writeLe (by omega), Nat.div_div_eq_div_mul, Nat.pow_add]

/-! ### The spill area -/

/-- A value's entry in the spill area (R173). -/
def Carried.spillWord (c : Carried) : Nat :=
  c.item * 2 ^ 64 + (c.value.getD 0).toNat * 2 ^ 32 + c.slot * 2 ^ 30 + (if c.value.isSome then 1 else 2) * 2 ^ 28

theorem writeSpill_none {s : State} {c : Carried} (h : s.spillAt c = none) : s.writeSpill c = s := by simp only [State.writeSpill, h]

theorem writeSpill_some {s : State} {c : Carried} {pa : Nat} (h : s.spillAt c = some pa) :
    s.writeSpill c = { s with mem := writeLe s.mem pa c.spillWord 16 } := by
  simp only [State.writeSpill, h]
  rfl

theorem writeSpill_eq (s : State) (c : Carried) : s.writeSpill c = { s with mem := (s.writeSpill c).mem } := by
  rcases h : s.spillAt c with _ | pa
  · rw [writeSpill_none h]
  · rw [writeSpill_some h]

/-- The fields of an entry. -/
theorem Carried.spillWord_fields (c : Carried) (hj : c.slot < 4) : c.spillWord / 256 ^ 8 % 256 ^ 8 = c.item % 2 ^ 64 ∧
    c.spillWord / 256 ^ 4 % 256 ^ 4 = (c.value.getD 0).toNat ∧
    c.spillWord / 256 ^ 0 % 256 ^ 4 = c.slot % 4 * 2 ^ 30 + (if c.value.isSome then 1 else 2) * 2 ^ 28 := by
  have value : (c.value.getD 0).toNat < 2 ^ 32 := (c.value.getD 0).isLt
  unfold Carried.spillWord
  split <;> omega

/-- The entry of a value in the spill area, written or nowhere. -/
theorem writeSpill_mem (s : State) (c : Carried) (hj : c.slot < 4) :
    match s.spillAt c with
    | none => (s.writeSpill c).mem = s.mem
    | some pa => (∀ q, q < pa ∨ pa + 16 ≤ q → readByte (s.writeSpill c).mem q = readByte s.mem q) ∧
      readLe (s.writeSpill c).mem (pa + 8) 8 = c.item % 2 ^ 64 ∧ readLe (s.writeSpill c).mem (pa + 4) 4 = (c.value.getD 0).toNat ∧
      readLe (s.writeSpill c).mem pa 4 = c.slot % 4 * 2 ^ 30 + (if c.value.isSome then 1 else 2) * 2 ^ 28 := by
  rcases h : s.spillAt c with _ | pa
  · rw [writeSpill_none h]
  · obtain ⟨item, value, head⟩ := c.spillWord_fields hj
    rw [writeSpill_some h]
    exact ⟨fun q hq => readByte_writeLe_other _ _ _ _ _ hq, (readLe_writeLe_part (by omega)).trans item,
      (readLe_writeLe_part (by omega)).trans value, (readLe_writeLe_part (i := 0) (by omega)).trans head⟩

/-! ### Waking -/

/-- A parked fragment of which some lane has every value it waits for (R164). -/
def State.wakes (s : State) (g : Group) (f : Frag) : Prop :=
  f.st = .parked ∧ ∃ needs, f.wait = .carry needs ∧ ∃ l, f.mask.getLsbD l = true ∧
    ∀ x ∈ needs, x.1 = l → ∃ c ∈ s.carried, c.at_ (s.teamOf g.team).launch x.2.2 x.2.1 (s.teamOf g.team).cluster = true

theorem State.met_iff (s : State) (g : Group) (needs : List (Nat × Nat × Nat)) (m : Mask) :
    (lanesOf m).any (fun l => !(s.unmet g needs).any (fun x => x.1 == l)) = true ↔ ∃ l, m.getLsbD l = true ∧
      ∀ x ∈ needs, x.1 = l → ∃ c ∈ s.carried, c.at_ (s.teamOf g.team).launch x.2.2 x.2.1 (s.teamOf g.team).cluster = true := by
  simp only [List.any_eq_true, mem_lanesOf, Bool.not_eq_true', State.unmet, List.any_eq_false, List.mem_filter, beq_iff_eq, and_imp]
  refine exists_congr fun l => and_congr_right fun _ => forall_congr' fun x => forall_congr' fun _ => ?_
  constructor
  · intro h hx
    by_contra none
    exact h (by simpa using none) hx
  · intro h none hx
    obtain ⟨c, hc, there⟩ := h hx
    exact absurd there (by simpa using none c hc)

theorem State.wakeFrag_of_wakes {s : State} {g : Group} {f : Frag} (h : s.wakes g f) : s.wakeFrag g f = { f with st := .ready, wait := .none } := by
  obtain ⟨parked, needs, waits, met⟩ := h
  simp only [State.wakeFrag, parked, waits]
  rw [if_pos ((s.met_iff g needs f.mask).2 met)]

theorem State.wakeFrag_of_not {s : State} {g : Group} {f : Frag} (h : ¬ s.wakes g f) : s.wakeFrag g f = f := by
  unfold State.wakeFrag
  split
  · next needs parked waits =>
    dsimp only
    split
    · next met => exact absurd ⟨parked, needs, waits, (s.met_iff g needs f.mask).1 met⟩ h
    · rfl
  · rfl

/-- The fragments of a group once those that wake are ready. -/
theorem State.held_wakeFrag {s : State} {g : Group} {fs : List Frag} {l : Nat} {q : Place} : Held (fs.map (s.wakeFrag g)) l q ↔
    ∃ f ∈ fs, f.st ≠ .free ∧ f.mask.getLsbD l = true ∧
      ((s.wakes g f ∧ q = { f.place with st := .ready }) ∨ (¬ s.wakes g f ∧ q = f.place)) := by
  simp only [Held, List.mem_map, exists_exists_and_eq_and]
  refine exists_congr fun f => and_congr_right fun _ => ?_
  by_cases h : s.wakes g f
  · rw [State.wakeFrag_of_wakes h]
    refine ⟨fun ⟨_, hl, hq⟩ => ⟨by simp [h.1], hl, .inl ⟨h, hq.symm⟩⟩, fun ⟨_, hl, hq⟩ => ⟨by simp, hl, ?_⟩⟩
    exact (hq.resolve_right fun no => no.1 h).2.symm
  · rw [State.wakeFrag_of_not h]
    exact and_congr_right fun _ => and_congr_right fun _ => ⟨fun hq => .inr ⟨h, hq.symm⟩, fun hq => (hq.resolve_left fun yes => h yes.1).2.symm⟩

theorem Group.holds_keepSelect (g : Group) (l : Nat) (q : Place) : g.keepSelect.holds l q ↔ g.holds l q := by
  unfold Group.keepSelect
  split
  · rfl
  · exact g.holds_reselect l q

/-- The group as its parked fragments wake. -/
def State.woken (s : State) (g : Group) : Group := { g with cur := s.wakeFrag g g.cur, rest := g.rest.map (s.wakeFrag g) }

theorem State.holds_woken (s : State) (g : Group) (l : Nat) (q : Place) : (s.woken g).holds l q ↔
    ∃ f ∈ g.cur :: g.rest, f.st ≠ .free ∧ f.mask.getLsbD l = true ∧
      ((s.wakes g f ∧ q = { f.place with st := .ready }) ∨ (¬ s.wakes g f ∧ q = f.place)) :=
  State.held_wakeFrag (fs := g.cur :: g.rest)

theorem State.wakeGroup_cases (s : State) (k : Nat) : s.wakeGroup k = s ∧ s.woken (s.group k) = s.group k ∨
    s.wakeGroup k = s.putGroup k (s.woken (s.group k)).keepSelect := by
  by_cases same : (s.wakeFrag (s.group k) (s.group k).cur == (s.group k).cur && (s.group k).rest.map (s.wakeFrag (s.group k)) ==
      (s.group k).rest) = true
  · refine .inl ⟨by simp only [State.wakeGroup, same, if_true], ?_⟩
    simp only [Bool.and_eq_true, beq_iff_eq] at same
    simp only [State.woken, same]
  · exact .inr (by simp only [State.wakeGroup, same]; rfl)

theorem State.wakeGroup_eq (s : State) (k : Nat) : s.wakeGroup k = { s with groups := (s.wakeGroup k).groups } := by
  rcases s.wakeGroup_cases k with ⟨same, _⟩ | woken
  · rw [same]
  · rw [woken]; rfl

theorem wakes_wakeGroup (s : State) (k : Nat) : Wakes s (s.wakeGroup k) k := by
  have carried : (s.wakeGroup k).carried = s.carried := by rw [s.wakeGroup_eq k]
  have holds (l : Nat) (q : Place) : ((s.wakeGroup k).group k).holds l q ↔ (s.woken (s.group k)).holds l q := by
    rcases s.wakeGroup_cases k with ⟨same, idle⟩ | woken
    · rw [same, idle]
    · rw [woken, State.group_putGroup, if_pos rfl, Group.holds_keepSelect]
  have bare : ((s.wakeGroup k).group k).bare = (s.group k).bare := by
    rcases s.wakeGroup_cases k with ⟨same, _⟩ | woken
    · rw [same]
    · rw [woken, State.group_putGroup, if_pos rfl, Group.keepSelect_bare]; rfl
  refine ⟨(congrArg Group.regs bare :), (congrArg Group.preds bare :), fun i hi => ?_, fun l q _ => ?_⟩
  · rcases s.wakeGroup_cases k with ⟨same, _⟩ | woken
    · rw [same]
    · rw [woken, State.group_putGroup, if_neg hi]
  · rw [carried]
    exact (holds l q).trans (s.holds_woken (s.group k) l q)

/-! ### Messages -/

/-- Where a value that is named goes (R174). -/
theorem setPlace_eq (s : State) (l i j : Nat) (p : CarryPlace) : s.setPlace l i j p =
    { s with carried := s.carried.map (fun c => if (c.launch == l && c.item == i && c.slot == j) = true then { c with place := p } else c) } := rfl

theorem carriedIn_eq (s : State) (l i j : Nat) (ps : List CarryPlace) : s.carriedIn l i j ps =
    s.carried.find? (fun c => c.launch == l && c.item == i && c.slot == j && ps.contains c.place) := rfl

theorem exec_carryMessage_of_none {s : State} {l i j : Nat}
    (h : ∀ c ∈ s.carried, (c.launch == l && c.item == i && c.slot == j) = true → c.place ≠ .sent ∧ c.place ≠ .moving) :
    exec (.carryMessage l i j) s = .next s := by
  have none : s.carriedIn l i j [.sent, .moving] = none := by
    rw [carriedIn_eq, List.find?_eq_none]
    intro c hc
    by_cases named : (c.launch == l && c.item == i && c.slot == j) = true
    · simp [named, h c hc named]
    · simp [named]
  simp only [exec_carryMessage, execCarryMessage, none]

/-- The first value that a message finds, and what names it. -/
theorem carriedIn_of_find {s : State} {l i j : Nat} {ps : List CarryPlace} {c : Carried} {p : Carried → Bool}
    (same : ∀ c : Carried, ps.contains c.place = p c)
    (h : s.carried.find? (fun c => (c.launch == l && c.item == i && c.slot == j) && p c) = some c) :
    s.carriedIn l i j ps = some c ∧ c.launch = l ∧ c.item = i ∧ c.slot = j ∧ ps.contains c.place = true := by
  have found := List.find?_some h
  simp only [Bool.and_eq_true, beq_iff_eq] at found
  obtain ⟨⟨⟨hl, hi⟩, hj⟩, hp⟩ := found
  exact ⟨by rw [carriedIn_eq]; simpa only [same] using h, hl, hi, hj, (same c).trans hp⟩

theorem landCarry_none {s : State} {l i j dest : Nat} {c : Carried} (h : s.holder l dest = none) :
    s.landCarry l i j dest c = (s.writeSpill c).setPlace l i j .spill := by simp only [State.landCarry, h]

theorem landCarry_room {s : State} {l i j dest k : Nat} {g : Group} {c : Carried} (h : s.holder l dest = some (k, g))
    (room : s.carryUsed (s.teamOf g.team).cluster < Config.carryPlaces) :
    s.landCarry l i j dest c = (s.setPlace l i j (.buffer (s.teamOf g.team).cluster)).wakeGroup k := by
  simp only [State.landCarry, h, room, if_true]

/-- Where the buffer is full the value goes to the spill area, and is asked for there if it is waited for. -/
theorem landCarry_full {s : State} {l i j dest k : Nat} {g : Group} {c : Carried} (h : s.holder l dest = some (k, g))
    (full : Config.carryPlaces ≤ s.carryUsed (s.teamOf g.team).cluster) :
    ∃ es, s.landCarry l i j dest c = { (s.writeSpill c).setPlace l i j .spill with agenda := es } := by
  simp only [State.landCarry, h, if_neg (Nat.not_lt.2 full)]
  split
  · exact ⟨_, rfl⟩
  · exact ⟨_, rfl⟩

/-- CARRY_MESSAGE of a value that has been published or is on its way (R174). -/
theorem exec_carryMessage_of_some {s : State} {l i j : Nat} {c : Carried} (h : s.carriedIn l i j [.sent, .moving] = some c) :
    exec (.carryMessage l i j) s = .next (if (s.launchOf l).items ≤ (s.launchOf l).consumer i j then s.setPlace l i j .nowhere
      else if c.place == .sent then
        (s.setPlace l i j .moving).sendCarry 0 c (c.cluster / 2048)
          (match s.holder l ((s.launchOf l).consumer i j) with | some x => (s.teamOf x.2.team).cluster / 2048 | none => s.spillDie c)
          (.carryMessage l i j)
      else s.landCarry l i j ((s.launchOf l).consumer i j) c) := by
  simp only [exec_carryMessage, execCarryMessage, h]
  cases s.holder l ((s.launchOf l).consumer i j) <;> rfl

/-- CARRY_FETCH for a group that is there. -/
theorem exec_carryFetch_of_some {s : State} {l i j k : Nat} {c : Carried} (lives : s.hasGroup k = true)
    (launch : (s.teamOf (s.group k).team).launch = l) (resident : (s.teamOf (s.group k).team).st = .resident)
    (h : s.carriedIn l i j [.spill, .asked, .coming] = some c) :
    exec (.carryFetch l i j k) s = .next (match c.place with
      | .spill => (s.setPlace l i j .asked).sendCarry 0 c ((s.teamOf (s.group k).team).cluster / 2048) (s.spillDie c) (.carryFetch l i j k)
      | .asked => (s.setPlace l i j .coming).sendCarry 1 c (s.spillDie c) ((s.teamOf (s.group k).team).cluster / 2048) (.carryFetch l i j k)
      | _ => (s.setPlace l i j (.fetched (s.teamOf (s.group k).team).cluster)).wakeGroup k) := by
  have there : (s.hasGroup k && (s.teamOf (s.group k).team).launch == l && (s.teamOf (s.group k).team).st == .resident) = true := by
    simp [lives, launch, resident]
  simp only [exec_carryFetch, execCarryFetch, h, there, Bool.not_true, Bool.false_eq_true, if_false] <;> rfl

theorem carryTravel : Rules.CarryTravel := by
  intro s l i j lcb dest named moved spilled goes
  have spills {c : Carried} (hl : c.launch = l) (hi : c.item = i) (hj : c.slot = j) (lt : j < 4) {t : State}
      (mem : t.mem = (s.writeSpill c).mem) : spilled t c := by
    have entry := writeSpill_mem s c (hj ▸ lt)
    subst hl hi hj
    rw [← mem] at entry
    exact entry
  refine ⟨exec_carryMessage_of_none, fun c found lt => ?_, fun k c lives launch resident found => ?_⟩
  · obtain ⟨inMotion, hl, hi, hj, _⟩ := carriedIn_of_find (ps := [.sent, .moving])
      (p := fun c => c.place == .sent || c.place == .moving) (fun c => by cases c.place <;> rfl) found
    have step := exec_carryMessage_of_some inMotion
    rw [show (s.launchOf l).consumer i j = dest from rfl] at step
    refine ⟨fun past => ?_, fun within sent => ?_, fun within moving => ⟨fun alone => ?_, fun k g holds same => ?_⟩⟩
    · rw [step, if_pos past]
      rfl
    · rw [step, if_neg (Nat.not_le.2 within), if_pos (by simp [sent])]
      rfl
    · refine ⟨_, step, ?_⟩
      rw [if_neg (Nat.not_le.2 within), if_neg (by simp [moving]), landCarry_none alone, setPlace_eq, writeSpill_eq]
      exact ⟨spills hl hi hj lt rfl, rfl⟩
    · refine ⟨_, step, ?_⟩
      rw [if_neg (Nat.not_le.2 within), if_neg (by simp [moving])]
      refine ⟨fun room => ?_, fun full => ?_⟩
      · rw [landCarry_room holds room, State.wakeGroup_eq]
        refine ⟨rfl, rfl, ?_⟩
        rw [← State.wakeGroup_eq]
        exact wakes_wakeGroup (s.setPlace l i j (.buffer (s.teamOf g.team).cluster)) k
      · obtain ⟨es, lands⟩ := landCarry_full holds full
        rw [lands, setPlace_eq, writeSpill_eq]
        exact ⟨rfl, spills hl hi hj lt rfl, fun _ => rfl⟩
  · obtain ⟨inSpill, -⟩ := carriedIn_of_find (ps := [.spill, .asked, .coming])
      (p := fun c => c.place == .spill || c.place == .asked || c.place == .coming) (fun c => by cases c.place <;> rfl) found
    have step := exec_carryFetch_of_some lives launch resident inSpill
    refine ⟨fun spill => ?_, fun asked => ?_, fun coming => ⟨_, step, ?_⟩⟩
    · rw [step, spill]
      rfl
    · rw [step, asked]
      rfl
    · rw [coming]
      dsimp only
      rw [State.wakeGroup_eq]
      refine ⟨rfl, rfl, ?_⟩
      rw [← State.wakeGroup_eq]
      exact wakes_wakeGroup (s.setPlace l i j (.fetched (s.teamOf (s.group k).team).cluster)) k

/-- Settles O36: a back view settles which lanes act, `pub` and `cdef` trap before they do anything, and each event moves one value on. -/
theorem carryValues : Obligations.CarryValues := ⟨backViews, publishing, binding, carryTravel⟩

end Sys2Proof.Machine
end

section
/-! SUPPORT. O6 fails: a refused request of a device that does not answer, served at that device itself, is sent again to nobody. -/

namespace Sys2Proof.Machine

set_option Elab.async false

/-- Access 7 came from device 1, which is no peer of this one; its one piece is at that device, and was refused. -/
def refusedBySilentDevice : State where
  cmsgs := [(7, { kind := .resend, line := 2 ^ 54, txn := 7 })]
  txns := [(7, { src := .some 1, lanes := [{ loc := 2 ^ 61 }] })]

/-- The request's packet is at its destination where it sets out, and a device that does not answer receives nothing (R246): no event is due
and no packet is on its way. -/
theorem exec_refusedBySilentDevice :
    ∃ t, exec (.commonsResend 7) refusedBySilentDevice = .next t ∧ t.agenda = [] ∧ t.net.packets = [] :=
  ⟨_, rfl, by decide +kernel, by decide +kernel⟩

/-- The clause on a refused request asks that it be due at its home or on its way there. -/
theorem not_rulesCommonsMessagesComplete : ¬ Rules.CommonsMessagesComplete := by
  intro h
  obtain ⟨_, _, _, _, _, resent, _⟩ := h refusedBySilentDevice 7 { kind := .resend, line := 2 ^ 54, txn := 7 } rfl
  obtain ⟨t, runs, leaves⟩ := resent { src := .some 1, lanes := [{ loc := 2 ^ 61 }] } rfl rfl rfl ⟨_, .head _, rfl, rfl, rfl⟩
  obtain ⟨t', runs', agenda, packets⟩ := exec_refusedBySilentDevice
  obtain rfl := Host.Outcome.next.inj (runs.symm.trans runs')
  simp [agenda, packets] at leaves

/-- Refutes O6 by its clause on refused requests: the one of a device that this one does not know as a peer, whose home is that device too,
goes nowhere when it is sent again. -/
theorem not_issueOrder : ¬ Obligations.IssueOrder := by
  unfold Obligations.IssueOrder
  rintro ⟨_, _, _, _, messages, _⟩
  exact not_rulesCommonsMessagesComplete messages

end Sys2Proof.Machine
end

section
/-! SUPPORT. Region loads, stores and prefetches: their checks, what they issue and what holds them (R35, R184, R218 to R226, R251). -/

namespace Sys2Proof.Machine

set_option Elab.async false

/-! ### The checks -/

theorem regionCheck_of_serves {r : Region} {pos : Nat} {write commons : Bool} (h : r.Serves pos write commons) :
    regionCheck r pos write commons = none := by
  obtain ⟨⟨held, pend⟩, holder, kind, isC⟩ := h
  have holder' : ¬ ((!r.all && r.holder != pos) = true) := by
    rcases holder with h | h <;> simp [h]
  have kind' : ¬ ((write && r.kind == .s) = true) := by simpa using kind
  have isC' : ¬ ((commons && r.kind != .c) = true) := by simpa using isC
  have held' : ¬ ((r.kind == .empty || r.pend) = true) := by simp [held, pend]
  rw [regionCheck, if_neg held', if_neg holder', if_neg kind', if_neg isC']

theorem serves_of_regionCheck {r : Region} {pos : Nat} {write commons : Bool} (h : regionCheck r pos write commons = none) :
    r.Serves pos write commons := by
  unfold regionCheck at h
  split at h
  · cases h
  split at h
  · cases h
  split at h
  · cases h
  split at h
  · cases h
  next held holder kind isC =>
    simp only [Bool.or_eq_true, beq_iff_eq, not_or, Bool.not_eq_true] at held
    refine ⟨held, ?_, ?_, ?_⟩
    · simpa [or_iff_not_imp_left] using holder
    · simpa using kind
    · simpa using isC

theorem lanesOf_find? (m : Mask) (p : Nat → Bool) {l : Nat} (hl : m.getLsbD l = true) (hp : p l = true)
    (first : ∀ j, j < l → ¬ (m.getLsbD j = true ∧ p j = true)) : (lanesOf m).find? p = some l := by
  rw [lanesOf, List.find?_filter, List.find?_range_eq_some]
  refine ⟨by simp [hl, hp], List.mem_range.2 (BitVec.lt_of_getLsbD hl), fun j hj => ?_⟩
  simpa only [Bool.not_eq_true', decide_eq_false_iff_not] using first j hj

theorem boundsCheck_of_inside {s : State} {r : Region} {a n : Nat} (h : s.inside r a n) : boundsCheck r n (s.lanesAt true a) = none := by
  rw [boundsCheck, Option.map_eq_none_iff, List.find?_eq_none]
  intro x hx
  obtain ⟨l, hl, rfl⟩ := List.mem_map.1 hx
  have := h l (mem_lanesOf.1 hl)
  simp only [decide_eq_true_eq]
  omega

theorem inside_of_boundsCheck {s : State} {r : Region} {a n : Nat} (h : boundsCheck r n (s.lanesAt true a) = none) : s.inside r a n := by
  rw [boundsCheck, Option.map_eq_none_iff, List.find?_eq_none] at h
  intro l hl
  have := h _ (List.mem_map_of_mem (mem_lanesOf.2 hl))
  simp only [decide_eq_true_eq] at this
  omega

/-- The first lane outside the region is the one named. -/
theorem boundsCheck_of_first {s : State} {r : Region} {a n l : Nat} (hl : s.lanesT.getLsbD l = true) (out : r.len < s.operand true a l + n)
    (first : ∀ j, j < l → ¬ (s.lanesT.getLsbD j = true ∧ r.len < s.operand true a j + n)) :
    boundsCheck r n (s.lanesAt true a) = some (0x10, l) := by
  rw [boundsCheck, State.lanesAt, List.find?_map, lanesOf_find? s.lanesT _ hl (by simpa using out) (by simpa using first)]
  rfl

/-! ### An access whose operands stand ready -/

/-- How an instruction issues whose operands stand ready. -/
def State.issuing (s : State) (u : Use) : Issue := { see := s.see u, t := s.lanesT, w := 0, needs := [] }

theorem Ready.verdict_go {s : State} {c : Nat} {srcs dsts : List Nat} (h : Ready s srcs dsts) (hc : c ≠ 3) :
    s.verdict { cls := c, srcs, dsts } = .go (s.issuing { cls := c, srcs, dsts }) :=
  Machine.verdict_go s _ ⟨rfl, hc, rfl, rfl, rfl, rfl⟩ (by simpa using h.free) h.views h.whole

theorem Ready.admitted {s : State} {c : Nat} {srcs dsts : List Nat} (h : Ready s srcs dsts) (hc : c ≠ 3) :
    Use.Admitted s { cls := c, srcs, dsts } where
  priv := rfl
  cls := hc
  step6 := rfl
  step7 := rfl
  redirect := rfl
  free := by simpa using h.free
  whole := h.whole

theorem Ready.see_reg {s : State} {c : Nat} {srcs dsts : List Nat} (h : Ready s srcs dsts) (hc : c ≠ 3) {n l : Nat} (hn : n ∈ srcs)
    (hl : l < 32) : (s.see { cls := c, srcs, dsts }).reg n l = s.source n l := see_source (h.admitted hc).owed hl hn

/-- The offsets that an instruction reads in a pair among its sources. -/
theorem Ready.see_offsets {s : State} {c a : Nat} {srcs dsts : List Nat} (h : Ready s srcs dsts) (hc : c ≠ 3)
    (pair : ∀ n ∈ regs true a, n ∈ srcs) : (s.see { cls := c, srcs, dsts }).offsets a s.lanesT = s.lanesAt true a := by
  refine List.map_congr_left fun l hl => ?_
  have hl := lt_of_mem_lanesOf hl
  simp only [Group.val, State.operand, if_true, h.see_reg hc (pair a (by simp [regs])) hl, h.see_reg hc (pair (a + 1) (by simp [regs])) hl]

/-- The element that an instruction reads in registers among its sources. -/
theorem Ready.see_element {s : State} {c d n l : Nat} {srcs dsts : List Nat} (h : Ready s srcs dsts) (hc : c ≠ 3)
    (words : ∀ m ∈ wordRegs d n, m ∈ srcs) (hl : l < 32) : (s.see { cls := c, srcs, dsts }).element d n l = s.elementAt d n l := by
  refine congrArg List.sum (List.map_congr_left fun i hi => ?_)
  rw [h.see_reg hc (words (d + i) (List.mem_map_of_mem hi)) hl]

theorem regionPieces_congr (s : State) (r : Region) (n a : Nat) {f f' : Nat → Nat} (h : Nat → Nat) (same : ∀ l, l < 32 → f l = f' l) :
    s.regionPieces r n (s.lanesAt true a) f h = s.regionPieces r n (s.lanesAt true a) f' h := by
  refine List.flatMap_congr fun x hx => ?_
  obtain ⟨l, hl, rfl⟩ := List.mem_map.1 hx
  simp only [same l (lt_of_mem_lanesOf hl)]

/-- What an access through a region register does once its operands are read: the trap of its check, nothing where no lane is active, its wait,
or its issue. -/
def State.throughRegion (s : State) (u : Use) (check : Option (Nat × Nat)) (x : Txn) : State :=
  match check with
  | some (c, d) => s.trap c d
  | none =>
    if s.lanesT = 0 then s.finish u (s.issuing u) s.grp else if s.accessHeld x then s.stand else s.issueAccess u (s.issuing u) x

def ldUse (d g a k n : Nat) : Use := { cls := k, srcs := (128 + g) :: regs true a, dsts := wordRegs d n }

def stUse (d g a k n : Nat) : Use := { cls := k, srcs := wordRegs d n ++ (128 + g) :: regs true a, dsts := [] }

def prefUse (g a k : Nat) : Use := { cls := k, srcs := (128 + g) :: regs true a, dsts := [] }

/-- The check of an access of n bytes in each lane. -/
def State.accessCheck (s : State) (r : Region) (write : Bool) (a n : Nat) : Option (Nat × Nat) :=
  (regionCheck r s.grp.pos write false).orElse (fun _ => boundsCheck r n (s.lanesAt true a))

def State.ldTxn (s : State) (d g a k n : Nat) (nalloc : Bool) : Txn :=
  { s.txn .load n k g (s.region g) with
    dst := d, counter := some 0, nalloc, lanes := s.regionPieces (s.region g) n (s.lanesAt true a) (fun _ => 0) (fun _ => 0) }

def State.stTxn (s : State) (d g a k n : Nat) (nalloc : Bool) : Txn :=
  { s.txn .store n k g (s.region g) with
    counter := some 1, nalloc, lanes := s.regionPieces (s.region g) n (s.lanesAt true a) (s.elementAt d n) (fun _ => 0) }

def State.prefTxn (s : State) (g a k : Nat) (nalloc : Bool) : Txn :=
  { s.txn .prefetch 1 k g (s.region g) with
    counter := some 5, nalloc
    lanes := (s.regionPieces (s.region g) 1 (s.lanesAt true a) (fun _ => 0) (fun _ => 0)).filter (·.normal) }

theorem toNat_ne_three {k : BitVec 2} (h : k ≠ 3) : k.toNat ≠ 3 := fun e => h (BitVec.eq_of_toNat_eq e)

section
variable {s : State} {d : BitVec 6} {g : BitVec 5} {a : BitVec 6} {k : BitVec 2} {z : BitVec 3} {h : BitVec 1}

theorem exec_ld_of_ready (hk : k ≠ 3) (free : s.memoryHeld = false)
    (ready : Ready s ((128 + g.toNat) :: regs true a.toNat) (wordRegs d.toNat (2 ^ z.toNat))) :
    exec (.ld d g a k z h) s = .next (s.throughRegion (ldUse d.toNat g.toNat a.toNat k.toNat (2 ^ z.toNat))
      (s.accessCheck (s.region g.toNat) false a.toNat (2 ^ z.toNat)) (s.ldTxn d.toNat g.toNat a.toNat k.toNat (2 ^ z.toNat) (h == 1))) := by
  have hk := toNat_ne_three hk
  rw [exec_ld, execLd, run_go _ _ _ (ready.verdict_go hk)]
  simp only [State.issuing, free, Bool.false_eq_true, if_false, ready.see_offsets hk (fun n hn => List.mem_cons_of_mem _ hn)]
  rfl

theorem exec_st_of_ready (hk : k ≠ 3) (free : s.memoryHeld = false)
    (ready : Ready s (wordRegs d.toNat (2 ^ z.toNat) ++ (128 + g.toNat) :: regs true a.toNat) []) :
    exec (.st d g a k z h) s = .next (s.throughRegion (stUse d.toNat g.toNat a.toNat k.toNat (2 ^ z.toNat))
      (s.accessCheck (s.region g.toNat) true a.toNat (2 ^ z.toNat)) (s.stTxn d.toNat g.toNat a.toNat k.toNat (2 ^ z.toNat) (h == 1))) := by
  have hk := toNat_ne_three hk
  rw [exec_st, execSt, run_go _ _ _ (ready.verdict_go hk)]
  simp only [State.issuing, free, Bool.false_eq_true, if_false,
    ready.see_offsets hk (fun n hn => List.mem_append_right _ (List.mem_cons_of_mem _ hn)),
    regionPieces_congr s _ _ a.toNat (fun _ => 0) (fun l hl => ready.see_element hk (fun m hm => List.mem_append_left _ hm) hl)]
  rfl

theorem exec_pref_of_ready (hk : k ≠ 3) (free : s.memoryHeld = false) (ready : Ready s ((128 + g.toNat) :: regs true a.toNat) []) :
    exec (.pref g a k h) s = .next (
      if (s.accessCheck (s.region g.toNat) false a.toNat 1).isSome || (s.prefTxn g.toNat a.toNat k.toNat (h == 1)).lanes.isEmpty then
        s.finish (prefUse g.toNat a.toNat k.toNat) (s.issuing (prefUse g.toNat a.toNat k.toNat)) s.grp
      else if s.accessHeld (s.prefTxn g.toNat a.toNat k.toNat (h == 1)) then s.stand
      else s.issueAccess (prefUse g.toNat a.toNat k.toNat) (s.issuing (prefUse g.toNat a.toNat k.toNat))
        (s.prefTxn g.toNat a.toNat k.toNat (h == 1))) := by
  have hk := toNat_ne_three hk
  have fails : (s.accessCheck (s.region g.toNat) false a.toNat 1).isSome =
      ((regionCheck (s.region g.toNat) s.grp.pos false false).isSome || (boundsCheck (s.region g.toNat) 1 (s.lanesAt true a.toNat)).isSome) := by
    unfold State.accessCheck
    cases regionCheck (s.region g.toNat) s.grp.pos false false <;> rfl
  rw [exec_pref, execPref, run_go _ _ _ (ready.verdict_go hk), fails]
  simp only [State.issuing, free, Bool.false_eq_true, if_false, ready.see_offsets hk (fun n hn => List.mem_cons_of_mem _ hn)]
  rfl

end

theorem accessCheck_of_serves {s : State} {r : Region} {write : Bool} {a n : Nat} (h : r.Serves s.grp.pos write false) :
    s.accessCheck r write a n = boundsCheck r n (s.lanesAt true a) := by rw [State.accessCheck, regionCheck_of_serves h]; rfl

theorem accessCheck_eq_none {s : State} {r : Region} {write : Bool} {a n : Nat} (h : r.Serves s.grp.pos write false) (inside : s.inside r a n) :
    s.accessCheck r write a n = none := by rw [accessCheck_of_serves h, boundsCheck_of_inside inside]

theorem accessCheck_of_empty {s : State} {r : Region} (write : Bool) (a n : Nat) (h : r.kind = .empty ∨ r.pend = true) :
    s.accessCheck r write a n = some (0x11, 0) := by
  have : regionCheck r s.grp.pos write false = some (0x11, 0) := if_pos (by simpa using h)
  rw [State.accessCheck, this]
  rfl

theorem accessCheck_of_held {s : State} {r : Region} (write : Bool) (a n : Nat) (kind : r.kind ≠ .empty) (pend : r.pend = false)
    (all : r.all = false) (holder : r.holder ≠ s.grp.pos) : s.accessCheck r write a n = some (0x12, 0) := by
  have : regionCheck r s.grp.pos write false = some (0x12, 0) := by simp [regionCheck, kind, pend, all, holder]
  rw [State.accessCheck, this]
  rfl

theorem accessCheck_of_shared {s : State} {r : Region} (a n : Nat) (kind : r.kind = .s) (pend : r.pend = false)
    (holder : r.all = true ∨ r.holder = s.grp.pos) : s.accessCheck r true a n = some (0x11, 1) := by
  have : regionCheck r s.grp.pos true false = some (0x11, 1) := by
    rcases holder with h | h <;> simp [regionCheck, kind, pend, h]
  rw [State.accessCheck, this]
  rfl

theorem regionChecks : Rules.RegionChecks := by
  intro s d g a k z h n r out checks
  refine ⟨⟨?_, ?_⟩, fun hk free => ?_⟩
  · rw [exec_ld, execLd]
    exact run_trap s _ _ (by simp [State.verdict])
  · rw [exec_st, execSt]
    exact run_trap s _ _ (by simp [State.verdict])
  have made {i : Instr} {write : Bool} {u : Use} {x : Txn}
      (runs : exec i s = .next (s.throughRegion u (s.accessCheck r write a.toNat n) x)) : checks i write := by
    have traps {c d : Nat} (h : s.accessCheck r write a.toNat n = some (c, d)) : exec i s = .next (s.trap c d) := by rw [runs, h]; rfl
    refine ⟨fun h => traps (accessCheck_of_empty _ _ _ h), fun h1 h2 h3 h4 => traps (accessCheck_of_held _ _ _ h1 h2 h3 h4), ?_, ?_⟩
    · rintro h1 h2 h3 rfl
      exact traps (accessCheck_of_shared _ _ h1 h2 h3)
    · intro l serves outl first
      exact traps (by rw [accessCheck_of_serves serves, boundsCheck_of_first outl.1 outl.2 first])
  exact ⟨fun ready => made (exec_ld_of_ready hk free ready), fun ready => made (exec_st_of_ready hk free ready)⟩

/-! ### What holds an access -/

theorem State.handing_iff (s : State) :
    s.handing = true ↔ ∃ r ∈ s.reqs, r.2.group = s.cur ∧ (r.2.purpose = .ret ∨ r.2.purpose = .down) := by
  simp [State.handing, List.any_eq_true]

theorem State.memoryHeld_iff (s : State) :
    s.memoryHeld = true ↔ (∃ r ∈ s.reqs, r.2.group = s.cur ∧ (r.2.purpose = .ret ∨ r.2.purpose = .down)) ∨
      (∃ u ∈ s.txns, u.2.group = s.cur ∧ (u.2.acquire = true ∨ ∃ q ∈ u.2.lanes, q.ptype = 3)) ∨
      ∃ c ∈ s.copies, c.2.group = s.cur ∧ c.2.strong = true := by
  rw [State.memoryHeld, Bool.or_eq_true, Bool.or_eq_true, or_assoc, s.handing_iff]
  simp only [List.any_eq_true, Bool.and_eq_true, Bool.or_eq_true, beq_iff_eq]

theorem State.relocating_iff (s : State) (n : Nat) :
    s.relocating n = true ↔ (s.region n).kind ≠ .empty ∧ ∃ q ∈ s.reqs, q.2.purpose = .reloc ∧ q.2.team = s.grp.team ∧
      if q.2.moves = 0 then q.2.handle = (s.region n).handle else q.2.reg = n := by
  simp only [State.relocating, Bool.and_eq_true, bne_iff_ne, ne_eq, List.any_eq_true, beq_iff_eq, and_assoc]
  refine and_congr_right fun _ => exists_congr fun q => and_congr_right fun _ => and_congr_right fun _ => and_congr_right fun _ => ?_
  split <;> simp

theorem State.lineHeld_iff (s : State) (x : Txn) :
    s.lineHeld x = true ↔
      (∃ u ∈ s.txns, u.2.group = s.cur ∧ u.2.copy = none ∧ ∃ q ∈ u.2.lanes, ∃ p ∈ x.lanes, s.sameLine x u.2 p q = true ∧
        (u.2.clsOf q ≠ 0 ∨ u.2.clsOf q ≠ x.clsOf p)) ∨
      ∃ c ∈ s.copies, c.2.group = s.cur ∧ ∃ q ∈ c.2.places, ∃ p ∈ x.lanes, s.meetsPlace x p q.1 = true ∧ (q.2 ≠ 0 ∨ q.2 ≠ x.clsOf p) := by
  simp only [State.lineHeld, Bool.or_eq_true, Bool.and_eq_true, List.any_eq_true, beq_iff_eq, bne_iff_ne, Option.isNone_iff_eq_none, and_assoc]

theorem State.bufferHeld_iff (s : State) (x : Txn) :
    s.bufferHeld x = true ↔
      (∃ p ∈ x.lanes, x.buffers p = true ∧ (tget ({} : WcLine) (s.clusterOf x.cluster).wc (lineOf p.loc)).leaving = true) ∨
      ∃ u ∈ s.txns, u.2.group = s.cur ∧ ∃ q ∈ u.2.lanes, u.2.buffers q = false ∧ q.result = none ∧ ∃ p ∈ x.lanes, x.buffers p = true ∧
        lineOf p.loc = lineOf q.loc := by
  rw [or_comm]
  simp only [State.bufferHeld, Bool.or_eq_true, Bool.and_eq_true, List.any_eq_true, beq_iff_eq, Bool.not_eq_true',
    Option.isNone_iff_eq_none, and_assoc]

theorem linesMeet_iff (a n b m : Nat) :
    linesMeet a n b m = true ↔ n ≠ 0 ∧ m ≠ 0 ∧ a / 128 ≤ (b + m - 1) / 128 ∧ b / 128 ≤ (a + n - 1) / 128 := by
  simp only [linesMeet, Bool.and_eq_true, bne_iff_ne, decide_eq_true_eq, and_assoc]

/-- The footprint of a copy holds an access that writes where it writes or reads, and any other where it writes (R298). -/
theorem Group.footHeld_iff (g : Group) (x : Txn) :
    g.footHeld (x.lanes.map (fun p => (p.va, p.n))) (if x.op.writes then x.lanes.map (fun p => (p.va, p.n)) else []) = true ↔
      ∃ f ∈ g.foot, ∃ p ∈ x.lanes, (f.writes = true ∨ x.op.writes = true) ∧ linesMeet p.va p.n f.base f.len = true := by
  simp only [Group.footHeld, List.any_eq_true, Bool.or_eq_true, Bool.and_eq_true]
  refine exists_congr fun f => and_congr_right fun _ => ?_
  cases x.op.writes <;> cases f.writes <;> simp

theorem State.allQuiet_iff (s : State) : s.allQuiet = false ↔ ∃ c, c < 6 ∧ s.inFlight c ≠ 0 := by
  simp [State.allQuiet, List.all_eq_false]

theorem counterFull_iff (s : State) (x : Txn) :
    ((x.counter.map s.grp.counterFull).getD false) = true ↔ ∃ c, x.counter = some c ∧ 63 ≤ tget 0 s.grp.count c := by
  cases x.counter <;> simp [Group.counterFull]

theorem State.accessHeld_iff (s : State) (x : Txn) :
    s.accessHeld x = true ↔ s.memoryHeld = true ∨ s.relocating x.region = true ∨ s.lineHeld x = true ∨ s.bufferHeld x = true ∨
      (∃ c, x.counter = some c ∧ 63 ≤ tget 0 s.grp.count c) ∨
      (∃ f ∈ s.grp.foot, ∃ p ∈ x.lanes, (f.writes = true ∨ x.op.writes = true) ∧ linesMeet p.va p.n f.base f.len = true) ∨
      ((∃ p ∈ x.lanes, p.ptype = 3) ∧ ∃ c, c < 6 ∧ s.inFlight c ≠ 0) := by
  rw [← counterFull_iff, ← Group.footHeld_iff, ← s.allQuiet_iff]
  simp only [State.accessHeld, Bool.or_eq_true, Bool.and_eq_true, or_assoc, List.any_eq_true, beq_iff_eq, Bool.not_eq_true']

theorem accessesHeld : Rules.AccessesHeld := by
  intro s x mine behind meets
  have held : s.memoryHeld = true ↔ behind := s.memoryHeld_iff
  refine ⟨held, ?_⟩
  rw [s.accessHeld_iff, held, s.relocating_iff, s.lineHeld_iff, s.bufferHeld_iff]
  simp only [linesMeet_iff, or_assoc]
  exact Iff.rfl

/-! ### Bytes at their homes and in caches -/

theorem tfind_map {α β : Type} (f : Nat → α → β) (m : Table α) (n : Nat) :
    tfind (m.map (fun e => (e.1, f e.1 e.2))) n = (tfind m n).map (f n) := by
  induction m with
  | nil => rfl
  | cons e m ih =>
    obtain ⟨k, x⟩ := e
    by_cases h : k = n
    · simp [tfind, h]
    · simpa [tfind, h] using ih

theorem mem_of_tfind {α : Type} {m : Table α} {n : Nat} {x : α} (h : tfind m n = some x) : (n, x) ∈ m := by
  induction m with
  | nil => cases h
  | cons e m ih =>
    obtain ⟨k, y⟩ := e
    by_cases hk : k = n
    · simp only [tfind, hk, if_true, Option.some.injEq] at h
      simp [hk, h]
    · exact List.mem_cons_of_mem _ (ih (by simpa [tfind, hk] using h))

theorem tfind_isSome_of_mem {α : Type} {m : Table α} {n : Nat} {x : α} (h : (n, x) ∈ m) : (tfind m n).isSome = true := by
  induction m with
  | nil => cases h
  | cons e m ih =>
    obtain ⟨k, y⟩ := e
    by_cases hk : k = n
    · simp [tfind, hk]
    · rcases List.mem_cons.1 h with h | h
      · exact absurd (congrArg Prod.fst h).symm hk
      · simpa [tfind, hk] using ih h

/-- Only bytes, the caches that hold copies of them, and the notes of their change differ between s and t. -/
structure Stores (s t : State) : Prop where
  eq : t = { s with mem := t.mem, peers := t.peers, hostEdges := t.hostEdges, poison := t.poison, clusters := t.clusters, launches := t.launches }
  launches : ∀ j, (t.launchOf j).fixed = (s.launchOf j).fixed

theorem Stores.refl (s : State) : Stores s s := ⟨rfl, fun _ => rfl⟩

theorem Stores.trans {s t u : State} (h : Stores s t) (h' : Stores t u) : Stores s u :=
  ⟨by rw [h'.eq, h.eq], fun j => (h'.launches j).trans (h.launches j)⟩

theorem Stores.foldl {β : Type} {f : State → β → State} (h : ∀ s x, Stores s (f s x)) (l : List β) (s : State) : Stores s (l.foldl f s) := by
  induction l generalizing s with
  | nil => exact .refl s
  | cons x l ih => exact (h s x).trans (ih _)

theorem Stores.groups {s t : State} (h : Stores s t) : t.groups = s.groups := by rw [h.eq]
theorem Stores.teams {s t : State} (h : Stores s t) : t.teams = s.teams := by rw [h.eq]
theorem Stores.cur {s t : State} (h : Stores s t) : t.cur = s.cur := by rw [h.eq]
theorem Stores.txns {s t : State} (h : Stores s t) : t.txns = s.txns := by rw [h.eq]
theorem Stores.nextId {s t : State} (h : Stores s t) : t.nextId = s.nextId := by rw [h.eq]
theorem Stores.grp {s t : State} (h : Stores s t) : t.grp = s.grp := by
  rw [State.grp, State.group, h.groups, h.cur]
  rfl

theorem Launch.note_fixed (l : Launch) (a : Nat) : (l.note a).fixed = l.fixed := by
  unfold Launch.note
  split <;> rfl

theorem stores_noteChange (s : State) (a : Nat) : Stores s (s.noteChange a) where
  eq := rfl
  launches j := by
    show (tget {} (s.launches.map (fun (e : Nat × Launch) => (e.1, e.2.note a))) j).fixed = _
    rw [tget, tfind_map (fun _ (l : Launch) => l.note a), State.launchOf, tget]
    cases tfind s.launches j
    · rfl
    · exact Launch.note_fixed _ a

theorem stores_setHomeByte (s : State) (loc : Nat) (b : Byte) : Stores s (s.setHomeByte loc b) := by
  unfold State.setHomeByte
  split
  · by_cases same : readByte s.mem loc = b
    · rw [if_pos same]
      exact ⟨rfl, fun _ => rfl⟩
    · rw [if_neg same]
      exact (stores_noteChange s loc).trans ⟨rfl, fun _ => rfl⟩
  · exact ⟨rfl, fun _ => rfl⟩

theorem stores_cleansed (s : State) (as : List Nat) : Stores s (s.cleansed as) := ⟨rfl, fun _ => rfl⟩

theorem stores_putCluster (s : State) (k : Nat) (c : Cluster) : Stores s (s.putCluster k c) := ⟨rfl, fun _ => rfl⟩

/-- Two locations of one device, or of this one, are one location if they are so on it. -/
theorem locDev_inj {a b : Nat} (dev : locDev a = locDev b) (on : a % 2 ^ 60 = b % 2 ^ 60) : a = b := by
  unfold locDev at dev
  split at dev <;> split at dev
  · omega
  · cases dev
  · cases dev
  · injection dev with dev
    omega

theorem State.homeByte_setHomeByte (s : State) (a : Nat) (b : Byte) (loc : Nat) :
    (s.setHomeByte a b).homeByte loc = if loc = a then b else s.homeByte loc := by
  cases ha : locDev a with
  | none =>
    cases hl : locDev loc with
    | none => exact Machine.homeByte_setHomeByte s a loc b ha hl
    | some d =>
      have ne : loc ≠ a := fun e => by simp [e, ha] at hl
      have peers : (s.setHomeByte a b).peers = s.peers := by
        simp only [State.setHomeByte, ha]
        split <;> rfl
      rw [if_neg ne]
      simp only [State.homeByte, hl, State.peer, peers]
  | some d =>
    have written : s.setHomeByte a b = s.putPeer d { s.peer d with mem := writeByte (s.peer d).mem (a % 2 ^ 60) b } := by
      simp only [State.setHomeByte, ha]
    rw [written]
    cases hl : locDev loc with
    | none =>
      have ne : loc ≠ a := fun e => by simp [e, ha] at hl
      rw [if_neg ne]
      simp only [State.homeByte, hl]
      rfl
    | some e =>
      simp only [State.homeByte, hl, State.peer, State.putPeer, tget_tput]
      by_cases he : e = d
      · subst he
        simp only [if_true, readByte_writeByte]
        by_cases on : loc % 2 ^ 60 = a % 2 ^ 60
        · rw [if_pos on, if_pos (locDev_inj (hl.trans ha.symm) on)]
        · rw [if_neg on, if_neg (fun e => on (by rw [e]))]
      · rw [if_neg he, if_neg (fun e' => he (by simpa [e', ha] using hl.symm))]

theorem State.clusters_setHomeByte (s : State) (a : Nat) (b : Byte) : (s.setHomeByte a b).clusters = s.clusters := by
  unfold State.setHomeByte
  split
  · dsimp only
    split <;> rfl
  · rfl

theorem clusters_foldl_setHomeByte {β : Type} (at_ : β → Nat) (val : β → Byte) (xs : List β) (s : State) :
    (xs.foldl (fun s' x => s'.setHomeByte (at_ x) (val x)) s).clusters = s.clusters := by
  induction xs generalizing s with
  | nil => rfl
  | cons x xs ih => rw [List.foldl_cons, ih, State.clusters_setHomeByte]

/-- Bytes written one after the other: a home holds one of those for it, or what it held. -/
theorem homeByte_foldl_setHomeByte {β : Type} (at_ : β → Nat) (val : β → Byte) (xs : List β) (s : State) (loc : Nat) :
    (xs.foldl (fun s' x => s'.setHomeByte (at_ x) (val x)) s).homeByte loc = s.homeByte loc ∨
      ∃ x ∈ xs, at_ x = loc ∧ (xs.foldl (fun s' x => s'.setHomeByte (at_ x) (val x)) s).homeByte loc = val x := by
  induction xs generalizing s with
  | nil => exact .inl rfl
  | cons x xs ih =>
    rw [List.foldl_cons]
    rcases ih (s.setHomeByte (at_ x) (val x)) with same | ⟨y, hy, hat, hval⟩
    · by_cases h : loc = at_ x
      · exact .inr ⟨x, List.mem_cons_self, h.symm, by rw [same, State.homeByte_setHomeByte, if_pos h]⟩
      · exact .inl (by rw [same, State.homeByte_setHomeByte, if_neg h])
    · exact .inr ⟨y, List.mem_cons_of_mem _ hy, hat, hval⟩

theorem State.seenByte_eq (s : State) (cl loc : Nat) :
    s.seenByte cl loc = ((tfind (s.clusterOf cl).cache loc).map (·.val)).getD (s.homeByte loc) := rfl

/-- From s to t dirty bytes of a cluster's cache that P picks out have gone to their homes. -/
structure WritesBack (cl : Nat) (P : Nat → CByte → Prop) (s t : State) : Prop where
  stores : Stores s t
  others : ∀ c, c ≠ cl → t.clusterOf c = s.clusterOf c
  none : (∀ loc b, (loc, b) ∈ (s.clusterOf cl).cache → b.dirty = true → ¬ P loc b) →
    t.mem = s.mem ∧ t.peers = s.peers ∧ t.clusterOf cl = s.clusterOf cl
  home : ∀ loc, t.homeByte loc ≠ s.homeByte loc →
    ∃ b, (loc, b) ∈ (s.clusterOf cl).cache ∧ b.dirty = true ∧ P loc b ∧ t.homeByte loc = b.val
  seen : ∀ loc, t.seenByte cl loc = s.seenByte cl loc
  dirty : ∀ loc b, (loc, b) ∈ (t.clusterOf cl).cache → b.dirty = true → (loc, b) ∈ (s.clusterOf cl).cache

theorem WritesBack.refl (cl : Nat) (P : Nat → CByte → Prop) (s : State) : WritesBack cl P s s :=
  ⟨.refl s, fun _ _ => rfl, fun _ => ⟨rfl, rfl, rfl⟩, fun _ h => absurd rfl h, fun _ => rfl, fun _ _ h _ => h⟩

theorem WritesBack.trans {cl : Nat} {P : Nat → CByte → Prop} {s t u : State} (h : WritesBack cl P s t) (h' : WritesBack cl P t u) :
    WritesBack cl P s u where
  stores := h.stores.trans h'.stores
  others c hc := (h'.others c hc).trans (h.others c hc)
  none idle := by
    obtain ⟨mem, peers, cluster⟩ := h.none idle
    obtain ⟨mem', peers', cluster'⟩ := h'.none (by rw [cluster]; exact idle)
    exact ⟨mem'.trans mem, peers'.trans peers, cluster'.trans cluster⟩
  home loc changed := by
    by_cases later : u.homeByte loc = t.homeByte loc
    · rw [later] at changed ⊢
      exact h.home loc changed
    · obtain ⟨b, hb, dirty, picked, val⟩ := h'.home loc later
      exact ⟨b, h.dirty loc b hb dirty, dirty, picked, val⟩
  seen loc := (h'.seen loc).trans (h.seen loc)
  dirty loc b hb dirty := h.dirty loc b (h'.dirty loc b hb dirty) dirty

/-- A byte that is written back, or not, as p says. -/
def CByte.cleaned (p : Nat → CByte → Bool) (a : Nat) (b : CByte) : CByte := if p a b then { b with dirty := false } else b

theorem writesBack_writeBackBytes (s : State) (cl : Nat) (p : Nat → CByte → Bool) :
    WritesBack cl (fun a b => p a b = true) s (s.writeBackBytes cl p) := by
  let c := s.clusterOf cl
  let out := c.cache.filter (fun (x : Nat × CByte) => x.2.dirty && p x.1 x.2)
  let s1 := out.foldl (fun s' (x : Nat × CByte) => s'.setHomeByte x.1 x.2.val) s
  let cache := c.cache.map (fun (x : Nat × CByte) => (x.1, x.2.cleaned p x.1))
  have eq : s.writeBackBytes cl p = (s1.cleansed (out.map (·.1))).putCluster cl { c with cache := cache } := by
    have cleaned : (fun (x : Nat × CByte) => if p x.1 x.2 then (x.1, { x.2 with dirty := false }) else (x.1, x.2)) =
        fun x => (x.1, x.2.cleaned p x.1) := by
      funext x
      unfold CByte.cleaned
      split <;> rfl
    show _ = (s1.cleansed (out.map (·.1))).putCluster cl { c with cache := c.cache.map _ }
    rw [← cleaned]
    rfl
  have clusters : (s1.cleansed (out.map (·.1))).clusters = s.clusters := clusters_foldl_setHomeByte _ _ out s
  have cluster : (s.writeBackBytes cl p).clusterOf cl = { c with cache := cache } := by rw [eq, State.clusterOf_putCluster, if_pos rfl]
  have homes (loc : Nat) : (s.writeBackBytes cl p).homeByte loc = s1.homeByte loc := by rw [eq]; rfl
  have inOut {x : Nat × CByte} : x ∈ out ↔ x ∈ c.cache ∧ x.2.dirty = true ∧ p x.1 x.2 = true := by simp [out, List.mem_filter]
  have home (loc : Nat) : s1.homeByte loc = s.homeByte loc ∨ ∃ x ∈ out, x.1 = loc ∧ s1.homeByte loc = x.2.val :=
    homeByte_foldl_setHomeByte (·.1) (·.2.val) out s loc
  refine ⟨?_, fun k hk => ?_, fun idle => ?_, fun loc changed => ?_, fun loc => ?_, fun loc b hb dirty => ?_⟩
  · rw [eq]
    exact ((Stores.foldl (fun s x => stores_setHomeByte s _ _) out s).trans (stores_cleansed _ _)).trans (stores_putCluster _ _ _)
  · rw [eq, State.clusterOf_putCluster, if_neg hk, State.clusterOf, clusters]
    rfl
  · have nothing : out = [] := List.eq_nil_iff_forall_not_mem.2 fun x hx => by
      obtain ⟨listed, dirty, picked⟩ := inOut.1 hx
      exact idle x.1 x.2 listed dirty picked
    have unchanged : cache = c.cache := by
      refine (List.map_congr_left fun x hx => ?_).trans (List.map_id _)
      have clean : p x.1 x.2 = true → x.2.dirty = false := fun picked => by
        by_contra dirty
        exact idle x.1 x.2 hx (by simpa using dirty) picked
      obtain ⟨a, b⟩ := x
      show (a, b.cleaned p a) = (a, b)
      unfold CByte.cleaned
      split
      · next picked => rw [← clean picked]
      · rfl
    rw [cluster, unchanged, eq]
    simp only [s1, nothing]
    exact ⟨rfl, rfl, rfl⟩
  · rw [homes] at changed ⊢
    rcases home loc with same | ⟨x, hx, rfl, val⟩
    · exact absurd same changed
    · obtain ⟨listed, dirty, picked⟩ := inOut.1 hx
      exact ⟨x.2, listed, dirty, picked, val⟩
  · rw [State.seenByte_eq, State.seenByte_eq, cluster, homes]
    show ((tfind (c.cache.map (fun (x : Nat × CByte) => (x.1, x.2.cleaned p x.1))) loc).map (·.val)).getD (s1.homeByte loc) =
      ((tfind c.cache loc).map (·.val)).getD (s.homeByte loc)
    rw [tfind_map (fun a (b : CByte) => b.cleaned p a)]
    cases held : tfind c.cache loc with
    | some b =>
      show (b.cleaned p loc).val = b.val
      unfold CByte.cleaned
      split <;> rfl
    | none =>
      rcases home loc with same | ⟨x, hx, rfl, _⟩
      · exact same
      · have := tfind_isSome_of_mem (inOut.1 hx).1
        rw [held] at this
        cases this
  · rw [cluster] at hb
    obtain ⟨x, hx, e⟩ := List.mem_map.1 hb
    obtain ⟨rfl, rfl⟩ := Prod.mk.inj e
    unfold CByte.cleaned at dirty ⊢
    split at dirty
    · cases dirty
    · next clean =>
      rw [if_neg clean]
      exact hx

/-! ### What a cluster serves -/

theorem WritesBack.mono {cl : Nat} {P Q : Nat → CByte → Prop} {s t : State} (h : WritesBack cl P s t)
    (weaker : ∀ loc b, P loc b → Q loc b) : WritesBack cl Q s t where
  stores := h.stores
  others := h.others
  none idle := h.none fun loc b hb dirty picked => idle loc b hb dirty (weaker loc b picked)
  home loc changed := by
    obtain ⟨b, hb, dirty, picked, val⟩ := h.home loc changed
    exact ⟨b, hb, dirty, weaker loc b picked, val⟩
  seen := h.seen
  dirty := h.dirty

/-- The team's own commons writes to lines that an access reads under S. -/
def Txn.ownWrite (x : Txn) (loc : Nat) (b : CByte) : Prop :=
  x.kind = .s ∧ b.commons = true ∧ b.team = x.team ∧ ∃ p ∈ x.lanes, lineOf loc = lineOf p.loc

theorem backs_iff (s : State) (x : Txn) (loc : Nat) (b : CByte) :
    s.backs x loc b ↔ (loc, b) ∈ (s.clusterOf x.cluster).cache ∧ b.dirty = true ∧ x.ownWrite loc b := by
  unfold State.backs Txn.ownWrite
  tauto

theorem writesBack_backOwn (s : State) (x : Txn) : WritesBack x.cluster x.ownWrite s (s.backOwn x) := by
  unfold State.backOwn
  split
  · exact .refl _ _ s
  · next kind =>
    have lines : ∀ l ∈ (x.lanes.map (fun p => lineOf p.loc)).eraseDups, ∃ p ∈ x.lanes, lineOf p.loc = l := by simp
    generalize (x.lanes.map (fun p => lineOf p.loc)).eraseDups = ls at lines
    induction ls generalizing s with
    | nil => exact .refl _ _ s
    | cons l ls ih =>
      obtain ⟨p, hp, rfl⟩ := lines l List.mem_cons_self
      refine ((writesBack_writeBackBytes s x.cluster _).mono fun loc b picked => ?_).trans (ih _ fun l hl => lines l (List.mem_cons_of_mem _ hl))
      simp only [Bool.and_eq_true, beq_iff_eq] at picked
      exact ⟨by simpa using kind, picked.1.1, picked.1.2, p, hp, picked.2⟩

/-- Only a cluster's cache, and the notes of what changes, differ between s and t. -/
structure Caches (cl : Nat) (s t : State) : Prop where
  stores : Stores s t
  others : ∀ c, c ≠ cl → t.clusterOf c = s.clusterOf c
  mem : t.mem = s.mem
  peers : t.peers = s.peers

theorem Caches.refl (cl : Nat) (s : State) : Caches cl s s := ⟨.refl s, fun _ _ => rfl, rfl, rfl⟩

theorem Caches.trans {cl : Nat} {s t u : State} (h : Caches cl s t) (h' : Caches cl t u) : Caches cl s u :=
  ⟨h.stores.trans h'.stores, fun c hc => (h'.others c hc).trans (h.others c hc), h'.mem.trans h.mem, h'.peers.trans h.peers⟩

theorem Caches.homeByte {cl : Nat} {s t : State} (h : Caches cl s t) (loc : Nat) : t.homeByte loc = s.homeByte loc := by
  simp only [State.homeByte, State.peer, h.mem, h.peers]

theorem caches_noteChange (cl : Nat) (s : State) (a : Nat) : Caches cl s (s.noteChange a) := ⟨stores_noteChange s a, fun _ _ => rfl, rfl, rfl⟩

theorem Caches.foldl {cl : Nat} {β : Type} {f : State → β → State} (h : ∀ s x, Caches cl s (f s x)) (l : List β) (s : State) :
    Caches cl s (l.foldl f s) := by
  induction l generalizing s with
  | nil => exact .refl cl s
  | cons x l ih => exact (h s x).trans (ih _)

theorem caches_putCluster (cl : Nat) (s : State) (c : Cluster) : Caches cl s (s.putCluster cl c) :=
  ⟨stores_putCluster s cl c, fun k hk => by rw [State.clusterOf_putCluster, if_neg hk], rfl, rfl⟩

theorem caches_cacheWrite (s : State) (cl loc v n team : Nat) (commons : Bool) : Caches cl s (s.cacheWrite cl loc v n team commons) :=
  (Caches.foldl (fun s i => caches_noteChange cl s (loc + i)) _ s).trans (caches_putCluster cl _ _)

/-- Entries written at consecutive numbers. -/
theorem tfind_foldl_tput {α : Type} (f : Nat → α) (m : Table α) (a n k : Nat) :
    tfind ((List.range n).foldl (fun m i => tput m (a + i) (f i)) m) k = if a ≤ k ∧ k < a + n then some (f (k - a)) else tfind m k := by
  induction n with
  | zero => simp
  | succ n ih =>
    rw [List.range_succ, List.foldl_append, List.foldl_cons, List.foldl_nil, tfind_tput, ih]
    by_cases last : k = a + n
    · simp [last]
    · rw [if_neg last]
      by_cases before : a ≤ k ∧ k < a + n
      · rw [if_pos before, if_pos ⟨before.1, by omega⟩]
      · rw [if_neg before, if_neg (by omega)]

/-- A cluster sees the bytes it writes in its cache. -/
theorem seenByte_cacheWrite (s : State) (cl loc v n team : Nat) (commons : Bool) (k : Nat) :
    (s.cacheWrite cl loc v n team commons).seenByte cl k =
      if loc ≤ k ∧ k < loc + n then BitVec.ofNat 8 (v / 256 ^ (k - loc)) else s.seenByte cl k := by
  let retag (a : Nat) (b : CByte) : CByte := if commons && (lineOf a == lineOf loc) then { b with team } else b
  have cache : ((s.cacheWrite cl loc v n team commons).clusterOf cl).cache = (List.range n).foldl (fun m i =>
      tput m (loc + i) { val := BitVec.ofNat 8 (v / 256 ^ i), dirty := true, team, commons })
        ((s.clusterOf cl).cache.map (fun (e : Nat × CByte) => (e.1, retag e.1 e.2))) := by
    unfold State.cacheWrite
    dsimp only
    rw [State.clusterOf_putCluster, if_pos rfl]
    cases commons with
    | false =>
      have same : (fun (e : Nat × CByte) => (e.1, retag e.1 e.2)) = id := by
        funext e
        simp [retag]
      rw [same, List.map_id]
      rfl
    | true =>
      have same : (fun (e : Nat × CByte) => (e.1, retag e.1 e.2)) =
          fun e => if lineOf e.1 == lineOf loc then (e.1, { e.2 with team }) else (e.1, e.2) := by
        funext e
        simp only [retag, Bool.true_and]
        split <;> rfl
      rw [same]
      rfl
  rw [State.seenByte_eq, State.seenByte_eq, cache, (caches_cacheWrite s cl loc v n team commons).homeByte,
    tfind_foldl_tput (fun i => ({ val := BitVec.ofNat 8 (v / 256 ^ i), dirty := true, team, commons } : CByte))]
  split
  · rfl
  · rw [tfind_map retag]
    cases tfind (s.clusterOf cl).cache k with
    | none => rfl
    | some b =>
      show (retag k b).val = b.val
      simp only [retag]
      split <;> rfl

/-- A piece as it is asked for. -/
def LaneAcc.unserved (p : LaneAcc) : LaneAcc := { p with result := none }

theorem perform_here (s : State) (x : Txn) (p : LaneAcc) :
    (s.perform true x p).2 = { p with result := some (s.seenLe x.cluster p.loc p.n) } := rfl

theorem caches_perform_here (s : State) (x : Txn) (p : LaneAcc) : Caches x.cluster s (s.perform true x p).1 := by
  simp only [State.perform, if_true]
  split
  · exact .refl _ s
  · exact caches_cacheWrite _ _ _ _ _ _ _

theorem perform_here_of_reads (s : State) {x : Txn} (reads : x.op.writes = false) (p : LaneAcc) : (s.perform true x p).1 = s :=
  if_pos (by simp [reads])

theorem seenByte_perform_store (s : State) {x : Txn} (op : x.op = .store) (p : LaneAcc) (k : Nat) :
    (s.perform true x p).1.seenByte x.cluster k =
      if p.loc ≤ k ∧ k < p.loc + p.n then BitVec.ofNat 8 (p.a / 256 ^ (k - p.loc)) else s.seenByte x.cluster k := by
  have write : (s.perform true x p).1 = s.cacheWrite x.cluster p.loc p.a p.n x.team (x.kind == .c) := by
    unfold State.perform
    rw [op]
    rfl
  rw [write, seenByte_cacheWrite]

section
variable {x : Txn} (apart : x.commons = false) (left : List Nat)
include apart

theorem serveHere_cons (s : State) (p : LaneAcc) (ps : List LaneAcc) :
    s.serveHere x left (p :: ps) =
      if left.contains (lineOf p.loc) then ((s.serveHere x left ps).1, p :: (s.serveHere x left ps).2)
      else (((s.perform true x p).1.serveHere x left ps).1,
        { p with result := some (s.seenLe x.cluster p.loc p.n) } :: ((s.perform true x p).1.serveHere x left ps).2) := by
  rw [State.serveHere]
  split
  · rfl
  · rw [apart]
    rfl

theorem caches_serveHere (s : State) (ps : List LaneAcc) : Caches x.cluster s (s.serveHere x left ps).1 := by
  induction ps generalizing s with
  | nil => exact .refl _ s
  | cons p ps ih =>
    rw [serveHere_cons apart]
    split
    · exact ih s
    · exact (caches_perform_here s x p).trans (ih _)

/-- What is served of the pieces, and what of them is as it was asked for. -/
theorem serveHere_pieces (s : State) (ps : List LaneAcc) :
    (s.serveHere x left ps).2.map (·.result.isSome) = ps.map (fun p => !left.contains (lineOf p.loc) || p.result.isSome) ∧
      (s.serveHere x left ps).2.map LaneAcc.unserved = ps.map LaneAcc.unserved := by
  induction ps generalizing s with
  | nil => exact ⟨rfl, rfl⟩
  | cons p ps ih =>
    rw [serveHere_cons apart]
    split
    · next leaves =>
      obtain ⟨served, asked⟩ := ih s
      simp only [List.map_cons, served, asked, leaves, Bool.not_true, Bool.false_or, true_and]
    · next stays =>
      obtain ⟨served, asked⟩ := ih (s.perform true x p).1
      simp only [Bool.not_eq_true] at stays
      simp only [List.map_cons, served, asked, stays, Bool.not_false, Bool.true_or, Option.isSome_some, true_and]
      rfl

theorem serveHere_of_reads (reads : x.op.writes = false) (s : State) (ps : List LaneAcc) :
    s.serveHere x left ps = (s, ps.map (fun p => if left.contains (lineOf p.loc) then p
      else { p with result := some (s.seenLe x.cluster p.loc p.n) })) := by
  induction ps with
  | nil => rfl
  | cons p ps ih =>
    rw [serveHere_cons apart, perform_here_of_reads s reads, ih]
    simp only [List.map_cons]
    split <;> rfl

end

/-- Of the pieces to store, the last that covers a byte decides it. -/
theorem stored_cons (p : LaneAcc) (ps : List LaneAcc) (loc : Nat) (old : Byte) :
    stored (p :: ps) loc old =
      stored ps loc (if p.loc ≤ loc ∧ loc < p.loc + p.n then BitVec.ofNat 8 (p.a / 256 ^ (loc - p.loc)) else old) := by
  unfold stored
  rw [List.reverse_cons, List.find?_append]
  cases List.find? (fun p => decide (p.loc ≤ loc ∧ loc < p.loc + p.n)) ps.reverse with
  | some q => rfl
  | none =>
    by_cases covers : p.loc ≤ loc ∧ loc < p.loc + p.n <;> simp [covers]

theorem seenByte_serveHere_store {x : Txn} (apart : x.commons = false) (op : x.op = .store) (left : List Nat) (s : State) (ps : List LaneAcc)
    (loc : Nat) : (s.serveHere x left ps).1.seenByte x.cluster loc =
      stored (ps.filter (fun p => !left.contains (lineOf p.loc))) loc (s.seenByte x.cluster loc) := by
  induction ps generalizing s with
  | nil => rfl
  | cons p ps ih =>
    rw [serveHere_cons apart]
    split
    · next leaves =>
      rw [List.filter_cons_of_neg (by simp only [leaves, Bool.not_true, Bool.false_eq_true, not_false_eq_true])]
      exact ih s
    · next stays =>
      rw [List.filter_cons_of_pos (by simpa using stays), stored_cons, ih, seenByte_perform_store s op]

theorem leaving_contains (s : State) (x : Txn) (p : LaneAcc) : (s.leaving x).contains (lineOf p.loc) = !s.serves x p := by
  rw [Bool.eq_iff_iff]
  simp only [State.leaving, State.serves, List.contains_iff_mem, List.mem_eraseDups, List.mem_map, List.mem_filter, Bool.not_eq_true',
    List.all_eq_false, Bool.or_eq_true, bne_iff_ne, not_or, Bool.not_eq_true, ne_eq, not_not]
  exact exists_congr fun q => by tauto

/-! ### The write-combining buffer, and what leaves the cluster -/

/-- Between s and t a cluster's buffer, and messages, differ. -/
structure Buffers (cl : Nat) (s t : State) : Prop where
  eq : t = { s with
    clusters := t.clusters, slips := t.slips, chunks := t.chunks, net := t.net, agenda := t.agenda, nextId := t.nextId, free := t.free }
  others : ∀ c, c ≠ cl → t.clusterOf c = s.clusterOf c
  cache : (t.clusterOf cl).cache = (s.clusterOf cl).cache

theorem Buffers.refl (cl : Nat) (s : State) : Buffers cl s s := ⟨rfl, fun _ _ => rfl, rfl⟩

theorem Buffers.cur {cl : Nat} {s t : State} (h : Buffers cl s t) : t.cur = s.cur := by rw [h.eq]
theorem Buffers.groups {cl : Nat} {s t : State} (h : Buffers cl s t) : t.groups = s.groups := by rw [h.eq]
theorem Buffers.teams {cl : Nat} {s t : State} (h : Buffers cl s t) : t.teams = s.teams := by rw [h.eq]
theorem Buffers.launches {cl : Nat} {s t : State} (h : Buffers cl s t) : t.launches = s.launches := by rw [h.eq]
theorem Buffers.txns {cl : Nat} {s t : State} (h : Buffers cl s t) : t.txns = s.txns := by rw [h.eq]
theorem Buffers.mem {cl : Nat} {s t : State} (h : Buffers cl s t) : t.mem = s.mem := by rw [h.eq]
theorem Buffers.peers {cl : Nat} {s t : State} (h : Buffers cl s t) : t.peers = s.peers := by rw [h.eq]

theorem Buffers.trans {cl : Nat} {s t u : State} (h : Buffers cl s t) (h' : Buffers cl t u) : Buffers cl s u :=
  ⟨by rw [h'.eq, h.eq], fun c hc => (h'.others c hc).trans (h.others c hc), h'.cache.trans h.cache⟩

theorem Buffers.foldl {cl : Nat} {β : Type} {f : State → β → State} (h : ∀ s x, Buffers cl s (f s x)) (l : List β) (s : State) :
    Buffers cl s (l.foldl f s) := by
  induction l generalizing s with
  | nil => exact .refl cl s
  | cons x l ih => exact (h s x).trans (ih _)

theorem Sends.clusterOf {s t : State} (h : Sends s t) (c : Nat) : t.clusterOf c = s.clusterOf c := by rw [h]; rfl

theorem Sends.buffers {s t : State} (h : Sends s t) (cl : Nat) : Buffers cl s t :=
  ⟨by rw [h], fun c _ => h.clusterOf c, by rw [h.clusterOf]⟩

theorem buffers_putWc (cl : Nat) (s : State) (wc : Table WcLine) : Buffers cl s (s.putCluster cl { s.clusterOf cl with wc := wc }) :=
  ⟨rfl, fun c hc => by rw [State.clusterOf_putCluster, if_neg hc], by rw [State.clusterOf_putCluster, if_pos rfl]⟩

/-- The byte that a cluster's buffer holds of a line. -/
def State.buffered (s : State) (cl line loc : Nat) : Option Byte := tfind (tget ({} : WcLine) (s.clusterOf cl).wc line).bytes loc

theorem Sends.buffered {s t : State} (h : Sends s t) (cl line loc : Nat) : t.buffered cl line loc = s.buffered cl line loc := by
  rw [State.buffered, h.clusterOf]
  rfl

theorem buffered_putWc (s : State) (cl n : Nat) (l : WcLine) (line loc : Nat) :
    (s.putCluster cl { s.clusterOf cl with wc := tput (s.clusterOf cl).wc n l }).buffered cl line loc =
      if line = n then tfind l.bytes loc else s.buffered cl line loc := by
  rw [State.buffered, State.clusterOf_putCluster, if_pos rfl, tget_tput]
  split <;> rfl

theorem sendDrain_keeps (s : State) (cl n : Nat) :
    Buffers cl s (s.sendDrain cl n) ∧ ∀ line loc, (s.sendDrain cl n).buffered cl line loc = s.buffered cl line loc := by
  unfold State.sendDrain
  dsimp only
  split
  · exact ⟨.refl cl s, fun _ _ => rfl⟩
  · next l found =>
    split
    · exact ⟨.refl cl s, fun _ _ => rfl⟩
    · have sent (k : Packet) (h : k.event = some (.wcDrain cl n)) (h' : k.owes = none) (t : State) : Sends t (t.inject k) :=
        sends_inject t k h h'
      refine ⟨(buffers_putWc cl s _).trans ((sent _ rfl rfl _).buffers cl), fun line loc => ?_⟩
      rw [(sent _ rfl rfl _).buffered, buffered_putWc]
      split
      · next same => rw [same, State.buffered, tget, found]; rfl
      · rfl

theorem wcPut_keeps (s : State) (cl group : Nat) (p : LaneAcc) :
    Buffers cl s (s.wcPut cl group p) ∧ ∀ line loc, (s.wcPut cl group p).buffered cl line loc =
      if line = lineOf p.loc ∧ p.loc ≤ loc ∧ loc < p.loc + p.n then some (BitVec.ofNat 8 (p.a / 256 ^ (loc - p.loc)))
      else s.buffered cl line loc := by
  unfold State.wcPut
  extract_lets line wc s0 c l l1 s1
  have room : Buffers cl s s0 ∧ ∀ line loc, s0.buffered cl line loc = s.buffered cl line loc := by
    simp only [s0]
    split
    · split
      · exact sendDrain_keeps s cl _
      · exact ⟨.refl cl s, fun _ _ => rfl⟩
    · exact ⟨.refl cl s, fun _ _ => rfl⟩
  have put : Buffers cl s s1 ∧ ∀ n loc, s1.buffered cl n loc = if n = line then tfind l1.bytes loc else s.buffered cl n loc :=
    ⟨room.1.trans (buffers_putWc cl s0 _), fun n loc => by rw [buffered_putWc, room.2]⟩
  have before (loc : Nat) : tfind l.bytes loc = s.buffered cl line loc := by
    rw [← room.2 line loc, State.buffered, tget]
    show tfind ((tfind c.wc line).getD _).bytes loc = tfind ((tfind c.wc line).getD _).bytes loc
    cases tfind c.wc line <;> rfl
  have bytes (loc : Nat) : tfind l1.bytes loc =
      if p.loc ≤ loc ∧ loc < p.loc + p.n then some (BitVec.ofNat 8 (p.a / 256 ^ (loc - p.loc))) else s.buffered cl line loc := by
    rw [← before]
    exact tfind_foldl_tput (fun i => BitVec.ofNat 8 (p.a / 256 ^ i)) _ _ _ _
  have held (n loc : Nat) : s1.buffered cl n loc =
      if n = line ∧ p.loc ≤ loc ∧ loc < p.loc + p.n then some (BitVec.ofNat 8 (p.a / 256 ^ (loc - p.loc))) else s.buffered cl n loc := by
    rw [put.2]
    by_cases same : n = line
    · simp only [same, if_true, bytes, true_and]
    · simp only [same, if_false, false_and]
  split
  · exact ⟨put.1.trans ((show Sends s1 (s1.owe _) from rfl).buffers cl), fun n loc => held n loc⟩
  · exact ⟨put.1, held⟩

theorem bufferAll_keeps (s : State) (x : Txn) : Buffers x.cluster s (s.bufferAll x) :=
  Buffers.foldl (fun s _ => Buffers.foldl (fun s p => (wcPut_keeps s _ _ p).1) _ s) _ s

/-- A byte of a piece that no later one of its line covers is in the buffer once the pieces of the line are. -/
theorem buffered_foldl_wcPut (cl group : Nat) (ps qs : List LaneAcc) (p : LaneAcc) {loc : Nat} (covers : p.loc ≤ loc ∧ loc < p.loc + p.n)
    (last : ∀ q ∈ qs, ¬ (q.loc ≤ loc ∧ loc < q.loc + q.n)) (s : State) :
    ((ps ++ p :: qs).foldl (fun t q => t.wcPut cl group q) s).buffered cl (lineOf p.loc) loc =
      some (BitVec.ofNat 8 (p.a / 256 ^ (loc - p.loc))) := by
  rw [List.foldl_append, List.foldl_cons]
  have put := (wcPut_keeps (ps.foldl (fun t q => t.wcPut cl group q) s) cl group p).2 (lineOf p.loc) loc
  rw [if_pos ⟨rfl, covers⟩] at put
  rw [← put]
  generalize (ps.foldl (fun t q => t.wcPut cl group q) s).wcPut cl group p = t
  clear put
  induction qs generalizing t with
  | nil => rfl
  | cons q qs ih =>
    rw [List.foldl_cons, ih (fun r hr => last r (List.mem_cons_of_mem _ hr)), (wcPut_keeps t cl group q).2,
      if_neg (fun h => last q List.mem_cons_self h.2)]

/-- Pieces of other lines leave what the buffer holds of a line. -/
theorem buffered_foldl_wcPut_other (cl group : Nat) (qs : List LaneAcc) {line : Nat} (other : ∀ q ∈ qs, lineOf q.loc ≠ line) (loc : Nat)
    (s : State) : (qs.foldl (fun t q => t.wcPut cl group q) s).buffered cl line loc = s.buffered cl line loc := by
  induction qs generalizing s with
  | nil => rfl
  | cons q qs ih =>
    rw [List.foldl_cons, ih (fun r hr => other r (List.mem_cons_of_mem _ hr)), (wcPut_keeps s cl group q).2,
      if_neg (fun h => other q List.mem_cons_self h.1.symm)]

/-- After the pieces of an access have gone to the buffer, it holds each byte as the last of them that covers it stores it. -/
theorem buffered_bufferAll (s : State) (x : Txn) {ps qs : List LaneAcc} {p : LaneAcc}
    (pieces : x.lanes.filter (fun p => x.buffers p && p.result.isNone) = ps ++ p :: qs) {loc : Nat} (covers : p.loc ≤ loc ∧ loc < p.loc + p.n)
    (last : ∀ q ∈ qs, ¬ (q.loc ≤ loc ∧ loc < q.loc + q.n)) :
    (s.bufferAll x).buffered x.cluster (lineOf p.loc) loc = some (BitVec.ofNat 8 (p.a / 256 ^ (loc - p.loc))) := by
  unfold State.bufferAll
  dsimp only
  rw [pieces]
  have lines : lineOf p.loc ∈ ((ps ++ p :: qs).map (fun p => lineOf p.loc)).eraseDups := by simp
  have here (t : State) : (((ps ++ p :: qs).filter (fun q => lineOf q.loc == lineOf p.loc)).foldl (fun t q => t.wcPut x.cluster x.group q) t).buffered
      x.cluster (lineOf p.loc) loc = some (BitVec.ofNat 8 (p.a / 256 ^ (loc - p.loc))) := by
    rw [List.filter_append, List.filter_cons_of_pos (by simp)]
    exact buffered_foldl_wcPut _ _ _ _ p covers (fun q hq => last q (List.mem_of_mem_filter hq)) t
  have step (l : Nat) (t : State) (kept : l = lineOf p.loc ∨
      t.buffered x.cluster (lineOf p.loc) loc = some (BitVec.ofNat 8 (p.a / 256 ^ (loc - p.loc)))) :
      (((ps ++ p :: qs).filter (fun q => lineOf q.loc == l)).foldl (fun t q => t.wcPut x.cluster x.group q) t).buffered
        x.cluster (lineOf p.loc) loc = some (BitVec.ofNat 8 (p.a / 256 ^ (loc - p.loc))) := by
    by_cases same : l = lineOf p.loc
    · rw [same]
      exact here t
    · rw [buffered_foldl_wcPut_other x.cluster x.group _ (fun q hq => ?_)]
      · exact kept.resolve_left same
      · have := (List.mem_filter.1 hq).2
        simp only [beq_iff_eq] at this
        rw [this]
        exact same
  have all (ls : List Nat) (t : State) (kept : lineOf p.loc ∈ ls ∨
      t.buffered x.cluster (lineOf p.loc) loc = some (BitVec.ofNat 8 (p.a / 256 ^ (loc - p.loc)))) :
      (ls.foldl (fun s' l => ((ps ++ p :: qs).filter (fun q => lineOf q.loc == l)).foldl (fun t q => t.wcPut x.cluster x.group q) s') t).buffered
        x.cluster (lineOf p.loc) loc = some (BitVec.ofNat 8 (p.a / 256 ^ (loc - p.loc))) := by
    induction ls generalizing t with
    | nil => exact kept.resolve_left (by simp)
    | cons l ls ih =>
      refine ih _ ?_
      by_cases later : lineOf p.loc ∈ ls
      · exact .inl later
      · refine .inr (step l t ?_)
        rcases kept with listed | held
        · exact .inl ((List.mem_cons.1 listed).resolve_right later).symm
        · exact .inr held
  exact all _ s (.inl lines)

/-- A request of access n leaves between s and t: packets, and what they carry of it. -/
structure Departs (n : Nat) (s t : State) : Prop where
  eq : t = { s with txns := t.txns, net := t.net, agenda := t.agenda, nextId := t.nextId, free := t.free }
  pending : ∀ y, tfind s.txns n = some y → ∃ y', tfind t.txns n = some y' ∧ y'.asked = y.asked ∧
    y'.lanes.map (·.result) = y.lanes.map (·.result)

theorem Departs.refl (n : Nat) (s : State) : Departs n s s := ⟨rfl, fun y h => ⟨y, h, rfl, rfl⟩⟩

theorem Departs.cur {n : Nat} {s t : State} (h : Departs n s t) : t.cur = s.cur := by rw [h.eq]
theorem Departs.groups {n : Nat} {s t : State} (h : Departs n s t) : t.groups = s.groups := by rw [h.eq]
theorem Departs.teams {n : Nat} {s t : State} (h : Departs n s t) : t.teams = s.teams := by rw [h.eq]
theorem Departs.launches {n : Nat} {s t : State} (h : Departs n s t) : t.launches = s.launches := by rw [h.eq]
theorem Departs.clusters {n : Nat} {s t : State} (h : Departs n s t) : t.clusters = s.clusters := by rw [h.eq]
theorem Departs.mem {n : Nat} {s t : State} (h : Departs n s t) : t.mem = s.mem := by rw [h.eq]
theorem Departs.peers {n : Nat} {s t : State} (h : Departs n s t) : t.peers = s.peers := by rw [h.eq]

theorem Departs.trans {n : Nat} {s t u : State} (h : Departs n s t) (h' : Departs n t u) : Departs n s u where
  eq := by rw [h'.eq, h.eq]
  pending y found := by
    obtain ⟨y1, found1, asked1, results1⟩ := h.pending y found
    obtain ⟨y2, found2, asked2, results2⟩ := h'.pending y1 found1
    exact ⟨y2, found2, asked2.trans asked1, results2.trans results1⟩

theorem Departs.foldl {n : Nat} {β : Type} {f : State → β → State} (h : ∀ s x, Departs n s (f s x)) (l : List β) (s : State) :
    Departs n s (l.foldl f s) := by
  induction l generalizing s with
  | nil => exact .refl n s
  | cons x l ih => exact (h s x).trans (ih _)

theorem departs_oweOnce (n : Nat) (s : State) (e : Event) : Departs n s (s.oweOnce e) := by
  unfold State.oweOnce
  split
  · exact .refl n s
  · exact ⟨rfl, fun y h => ⟨y, h, rfl, rfl⟩⟩

/-- An access whose pieces are where f says is the same access, with the results it had. -/
theorem departs_tput {n : Nat} {s : State} {y : Txn} (f : LaneAcc → Nat → LaneAcc) (old : Bool)
    (asked : ∀ p i, ({ f p i with result := none, going := false, coming := false, done := false, cont := none, granted := false } : LaneAcc) =
      { p with result := none, going := false, coming := false, done := false, cont := none, granted := false })
    (results : ∀ p i, (f p i).result = p.result) (same : old = y.old) (found : tfind s.txns n = some y) :
    Departs n s { s with txns := tput s.txns n { y with lanes := y.lanes.zipIdx.map (fun (p, i) => f p i), old := old } } where
  eq := rfl
  pending z hz := by
    obtain rfl := Option.some.inj (found.symm.trans hz)
    refine ⟨_, by rw [tfind_tput, if_pos rfl], ?_, ?_⟩
    · have lanes : (y.lanes.zipIdx.map (fun (p, i) => f p i)).map
          (fun p => ({ p with result := none, going := false, coming := false, done := false, cont := none, granted := false } : LaneAcc)) =
          y.lanes.map (fun p => { p with result := none, going := false, coming := false, done := false, cont := none, granted := false }) := by
        rw [List.map_map, ← List.zipIdx_map_fst 0 y.lanes, List.map_map, List.zipIdx_map_fst]
        exact List.map_congr_left fun x _ => asked x.1 x.2
      unfold Txn.asked
      rw [lanes, same]
    · show (y.lanes.zipIdx.map (fun (p, i) => f p i)).map (·.result) = y.lanes.map (·.result)
      rw [List.map_map]
      conv_rhs => rw [← List.zipIdx_map_fst 0 y.lanes, List.map_map]
      exact List.map_congr_left fun x _ => results x.1 x.2

/-- A packet of the request of access n, not of an earlier message, to its home. -/
theorem departs_inject (s : State) (k : Packet) (event : k.event = none) (response : k.response = false) (owes : k.owes = none)
    (old : k.old = false) : Departs k.txn s (s.inject k) := by
  unfold State.inject
  extract_lets own p s1 k1 plane away dst
  have start : Departs k.txn s s1 := ⟨rfl, fun y h => ⟨y, h, rfl, rfl⟩⟩
  have put (x : State) (q : Packet) : Departs k.txn x (x.putPacket p q) := ⟨rfl, fun y h => ⟨y, h, rfl, rfl⟩⟩
  split
  · refine start.trans ?_
    simp only [State.returnOwed, owes, State.receive, event, response]
    split
    · exact .refl _ s1
    · split
      · exact .refl _ s1
      · next y found =>
        refine Departs.trans (departs_tput (fun p i => if k.pieces.contains i then { p with going := false } else p) (y.old || k.old)
          (fun p i => by split <;> rfl) (fun p i => by split <;> rfl) (by simp [old]) found) ?_
        exact departs_oweOnce _ _ _
  · split
    · exact start.trans (put _ _)
    · split
      · exact (start.trans (put _ _)).trans ⟨rfl, fun y h => ⟨y, h, rfl, rfl⟩⟩
      · split
        · exact (start.trans (put _ _)).trans (departs_oweOnce _ _ _)
        · exact (start.trans (put _ _)).trans (departs_oweOnce _ _ _)

theorem departs_packetOf (n : Nat) (y : Txn) (s : State) (places : List Nat) : Departs n s (s.inject (s.packetOf n y places false)) :=
  departs_inject s (s.packetOf n y places false) rfl rfl rfl rfl

theorem departs_depart {s : State} {n : Nat} {y : Txn} (found : tfind s.txns n = some y) : Departs n s (s.depart n) := by
  have there : tget {} s.txns n = y := by rw [tget, found]; rfl
  unfold State.depart
  dsimp only
  rw [there]
  refine Departs.trans (t := { s with txns := tput s.txns n { y with lanes := y.lanes.map (fun p => if y.waits p then { p with going := true } else p) } })
    ?_ (Departs.foldl (departs_packetOf n _) _ _)
  refine ⟨rfl, fun z hz => ?_⟩
  obtain rfl := Option.some.inj (found.symm.trans hz)
  refine ⟨_, by rw [tfind_tput, if_pos rfl], ?_, ?_⟩
  · unfold Txn.asked
    rw [List.map_map]
    congr 1
    refine List.map_congr_left fun p _ => ?_
    dsimp only [Function.comp]
    split <;> rfl
  · rw [List.map_map]
    refine List.map_congr_left fun p _ => ?_
    dsimp only [Function.comp]
    split <;> rfl

/-! ### Issuing an access -/

/-- From s to t the issuing fragment goes on at the next word; of its group only registers and what it keeps of its accesses differ, and of the
rest of the device nothing of a group, team or launch but what the passing of a slot may change. -/
structure Goes (s t : State) : Prop where
  groups : ∀ j, j ≠ s.cur → (t.group j).calm = (s.group j).calm
  teams : ∀ j, (t.teamOf j).fixed = (s.teamOf j).fixed
  launches : ∀ j, (t.launchOf j).fixed = (s.launchOf j).fixed
  cur : t.grp.cur = { s.grp.cur with pc := s.grp.cur.pc + 4, wait := .none }
  rest : t.grp.rest = s.grp.rest
  still : t.grp.still = s.grp.still
  bad : ∀ x ∈ t.grp.bad, x ∈ s.grp.bad
  preds : t.grp.preds = s.grp.preds

/-- An instruction retires from m, where only its group, bytes, caches, accesses and messages differ from s. -/
theorem goes_finish {s m : State} (u : Use) {io : Issue} (parks : io.w = 0) {g : Group} (evs : List Nat) (cur : m.cur = s.cur)
    (others : ∀ j, j ≠ s.cur → m.group j = s.group j) (teams : m.teams = s.teams)
    (launches : ∀ j, (m.launchOf j).fixed = (s.launchOf j).fixed) (gcur : g.cur = s.grp.cur) (rest : g.rest = s.grp.rest)
    (still : g.still = s.grp.still) (bad : ∀ x ∈ g.bad, x ∈ s.grp.bad) (preds : g.preds = s.grp.preds) : Goes s (m.finish u io g evs) := by
  have frame := finish_frame m u io g evs
  have grp := finish_grp m u io g evs
  rw [Group.proceed_next _ _ parks] at grp
  rw [cur] at frame
  refine ⟨fun j hj => (frame.groups j hj).trans (by rw [others j hj]), fun j => (frame.teams j).trans ?_,
    fun j => (frame.launches j).trans (launches j), ?_, ?_, ?_, ?_, ?_⟩
  · rw [State.teamOf, teams]
    rfl
  · rw [← gcur]
    exact (congrArg Group.cur grp :)
  · rw [← rest]
    exact (congrArg Group.rest grp :)
  · rw [← still]
    exact (congrArg Group.still grp :)
  · rw [finish_bad]
    exact bad
  · rw [finish_preds]
    exact preds

theorem Goes.of_same {s f t : State} (h : Goes s f) (groups : t.groups = f.groups) (cur : t.cur = f.cur) (teams : t.teams = f.teams)
    (launches : t.launches = f.launches) : Goes s t := by
  have group (j : Nat) : t.group j = f.group j := by rw [State.group, groups]; rfl
  have grp : t.grp = f.grp := by rw [State.grp, cur, group]; rfl
  refine ⟨fun j hj => by rw [group]; exact h.groups j hj, fun j => ?_, fun j => ?_, ?_, ?_, ?_, ?_, ?_⟩
  · rw [State.teamOf, teams]
    exact h.teams j
  · rw [State.launchOf, launches]
    exact h.launches j
  all_goals rw [grp]
  · exact h.cur
  · exact h.rest
  · exact h.still
  · exact h.bad
  · exact h.preds

theorem Group.noteWrites_eq (g : Group) (x : Txn) : g.noteWrites x = { g with unswept := (g.noteWrites x).unswept } := by
  unfold Group.noteWrites
  split <;> rfl

theorem Group.noteWrites_unread (g : Group) (x : Txn) : (g.noteWrites x).unread = { g.unread with unswept := (g.noteWrites x).unswept } := by
  rw [g.noteWrites_eq x]
  rfl

/-! ### The results of an access -/

/-- Word i of what lane l gets. -/
def Txn.laneWord (x : Txn) (free l i : Nat) : Word :=
  match laneValue x.lanes l with
  | some v => BitVec.ofNat 32 (v / 2 ^ (32 * i))
  | none => Config.freeWord ((free * 32 + l) * 4 + i)

theorem Group.takeLanes_eq (g : Group) {x : Txn} (returns : x.op.returns = true) (free : Nat) (ls : List Nat) :
    g.takeLanes x free ls = ls.foldl (fun g' l => (List.range (wordsOf x.bytes)).foldl (fun g2 i =>
      g2.setReg (x.dst + i) l (x.laneWord free l i)) g') g := by
  rw [Group.takeLanes, if_pos returns]
  rfl

theorem Group.reg_foldl_setReg (f : Nat → Word) (d n l : Nat) (hl : l < 32) (g : Group) (r k : Nat) (hk : k < 32) :
    ((List.range n).foldl (fun g i => g.setReg (d + i) l (f i)) g).reg r k =
      if k = l ∧ d ≤ r ∧ r < d + n then f (r - d) else g.reg r k := by
  induction n with
  | zero => simp
  | succ n ih =>
    rw [List.range_succ, List.foldl_append, List.foldl_cons, List.foldl_nil, Group.reg_setReg, ih]
    by_cases last : r = d + n ∧ k = l
    · obtain ⟨rfl, rfl⟩ := last
      simp
    · rw [if_neg (by omega)]
      by_cases before : k = l ∧ d ≤ r ∧ r < d + n
      · rw [if_pos before, if_pos ⟨before.1, before.2.1, by omega⟩]
      · rw [if_neg before, if_neg (fun h => by omega)]

theorem Group.reg_takeLanes (g : Group) {x : Txn} (returns : x.op.returns = true) (free : Nat) (ls : List Nat) (lanes : ∀ l ∈ ls, l < 32)
    (r k : Nat) (hk : k < 32) : (g.takeLanes x free ls).reg r k =
      if k ∈ ls ∧ x.dst ≤ r ∧ r < x.dst + wordsOf x.bytes then x.laneWord free k (r - x.dst) else g.reg r k := by
  rw [g.takeLanes_eq returns]
  induction ls generalizing g with
  | nil => simp
  | cons l ls ih =>
    rw [List.foldl_cons, ih _ (fun k hk => lanes k (List.mem_cons_of_mem _ hk)),
      Group.reg_foldl_setReg (x.laneWord free l) x.dst _ l (lanes l List.mem_cons_self) g r k hk]
    by_cases inside : x.dst ≤ r ∧ r < x.dst + wordsOf x.bytes
    · by_cases later : k ∈ ls
      · simp [inside, later]
      · by_cases same : k = l
        · subst same
          simp [inside, later]
        · simp [later, same]
    · simp [inside]

theorem Group.takeLanes_of_not_returns (g : Group) {x : Txn} (returns : x.op.returns = false) (free : Nat) (ls : List Nat) :
    g.takeLanes x free ls = g := by rw [Group.takeLanes, if_neg (by simp [returns])]

theorem Group.bad_takeReply (g : Group) (x : Txn) (free : Nat) : ∀ k ∈ (g.takeReply x free).bad, k ∈ g.bad := by
  unfold Group.takeReply
  generalize x.laneList.filter _ = ls
  cases returns : x.op.returns with
  | false =>
    rw [g.takeLanes_of_not_returns returns]
    exact fun _ h => h
  | true =>
    rw [g.takeLanes_eq returns]
    have inner (l : Nat) (is : List Nat) (g : Group) : ∀ k ∈ (is.foldl (fun g i => g.setReg (x.dst + i) l (x.laneWord free l i)) g).bad,
        k ∈ g.bad := by
      induction is generalizing g with
      | nil => exact fun _ h => h
      | cons i is ih => exact fun k hk => List.mem_of_mem_filter (ih _ k hk)
    induction ls generalizing g with
    | nil => exact fun _ h => h
    | cons l ls ih => exact fun k hk => inner l _ g k (ih _ k hk)

/-! ### What an access leaves -/

/-- The state in which the cluster has served what it serves of an access. -/
def State.afterServing (s : State) (x : Txn) : State := (s.serveCluster x).1.setGrp ((s.serveCluster x).1.grp.noteWrites x)

/-- The access with what the cluster has served of it. -/
def State.partServed (s : State) (x : Txn) : Txn := { x with lanes := (s.serveCluster x).2 }

/-- The state in which what is left of an access has its number. -/
def State.numbered (s : State) (x : Txn) : State :=
  { s.afterServing x with
    txns := tput (s.afterServing x).txns (s.afterServing x).nextId (s.partServed x), nextId := (s.afterServing x).nextId + 1 }

/-- The state in which it also stands in the buffer, where it may. -/
def State.afterBuffering (s : State) (x : Txn) : State := (s.numbered x).bufferAll (s.partServed x)

/-- The group that keeps its destinations and a count for an access that is outstanding under a number. -/
def Group.awaits (g : Group) (x : Txn) (id : Nat) : Group :=
  let g1 := { g with busy := g.busy ++ (if x.op.returns then (List.range (wordsOf x.bytes)).map (fun i => (x.dst + i, id)) else []) }
  match x.counter with
  | some c => g1.countUp c
  | none => g1

theorem issueAccess_eq (s : State) (u : Use) (io : Issue) (x : Txn) :
    s.issueAccess u io x =
      if (s.serveCluster x).2.all (fun p => p.result.isSome) then
        (s.afterServing x).finish u io ((s.afterServing x).grp.takeReply (s.partServed x) s.free) (s.partServed x).events
      else ((s.afterBuffering x).finish u io ((s.afterServing x).grp.awaits x (s.afterServing x).nextId)).depart (s.afterServing x).nextId := by
  unfold State.issueAccess
  dsimp only
  split
  · rfl
  · rfl

/-- An access as an instruction makes it: no piece of it is served. -/
structure Txn.Fresh (x : Txn) : Prop where
  apart : x.commons = false
  lanes : ∀ p ∈ x.lanes, p.lane < 32 ∧ p.result = none ∧ p.done = false

section
variable {x : Txn} (fresh : x.Fresh) (s : State)
include fresh

theorem caches_serveCluster : Caches x.cluster (s.backOwn x) (s.serveCluster x).1 := caches_serveHere fresh.apart _ _ _

theorem stores_serveCluster : Stores s (s.serveCluster x).1 := (writesBack_backOwn s x).stores.trans (caches_serveCluster fresh s).stores

/-- The pieces that the cluster serves, by lines. -/
theorem serveCluster_isSome :
    (s.serveCluster x).2.map (·.result.isSome) = x.lanes.map ((s.backOwn x).serves x) := by
  rw [show (s.serveCluster x).2 = ((s.backOwn x).serveHere x ((s.backOwn x).leaving x) x.lanes).2 from rfl,
    (serveHere_pieces fresh.apart _ _ _).1]
  refine List.map_congr_left fun p hp => ?_
  rw [leaving_contains, (fresh.lanes p hp).2.1]
  simp

theorem serveCluster_unserved : (s.serveCluster x).2.map LaneAcc.unserved = x.lanes := by
  rw [show (s.serveCluster x).2 = ((s.backOwn x).serveHere x ((s.backOwn x).leaving x) x.lanes).2 from rfl,
    (serveHere_pieces fresh.apart _ _ _).2]
  refine (List.map_congr_left fun p hp => ?_).trans (List.map_id _)
  rw [LaneAcc.unserved, ← (fresh.lanes p hp).2.1]
  rfl

theorem partServed_asked : (s.partServed x).asked = x.asked := by
  have lanes := congrArg (List.map (fun p : LaneAcc =>
    { p with result := none, going := false, coming := false, done := false, cont := none, granted := false })) (serveCluster_unserved fresh s)
  rw [List.map_map] at lanes
  unfold Txn.asked
  congr 1

/-- Every piece is served where the cluster's cache serves every one, and otherwise some is left. -/
theorem serveCluster_all :
    ((s.serveCluster x).2.all (fun p => p.result.isSome) = true ↔ ∀ p ∈ x.lanes, (s.backOwn x).hits x p = true) := by
  have all : (s.serveCluster x).2.all (fun p => p.result.isSome) = x.lanes.all ((s.backOwn x).serves x) := by
    have h := congrArg (fun bs : List Bool => bs.all id) (serveCluster_isSome fresh s)
    rw [List.all_map, List.all_map] at h
    exact h
  rw [all]
  simp only [List.all_eq_true, State.serves, Bool.or_eq_true, bne_iff_ne]
  constructor
  · exact fun h p hp => (h p hp p hp).resolve_left (by simp)
  · exact fun h p _ q hq => .inr (h q hq)

theorem partServed_laneList : (s.partServed x).laneList = x.laneList := by
  have lanes := congrArg (List.map (·.lane)) (serveCluster_unserved fresh s)
  rw [List.map_map] at lanes
  unfold Txn.laneList
  rw [← lanes]
  rfl

theorem afterServing_grp : (s.afterServing x).grp = s.grp.noteWrites x := by
  rw [State.afterServing, State.grp_setGrp, (stores_serveCluster fresh s).grp]

theorem afterServing_cur : (s.afterServing x).cur = s.cur := (stores_serveCluster fresh s).cur

theorem afterServing_nextId : (s.afterServing x).nextId = s.nextId := (stores_serveCluster fresh s).nextId

theorem afterServing_group {j : Nat} (hj : j ≠ s.cur) : (s.afterServing x).group j = s.group j := by
  have stores := stores_serveCluster fresh s
  rw [State.afterServing, State.setGrp, State.group_putGroup, if_neg (by rw [stores.cur]; exact hj), State.group, stores.groups]
  rfl

end

theorem buffers_afterBuffering (s : State) (x : Txn) : Buffers x.cluster (s.numbered x) (s.afterBuffering x) :=
  bufferAll_keeps _ (s.partServed x)

theorem Group.awaits_eq (g : Group) (x : Txn) (id : Nat) :
    g.awaits x id = { g with busy := (g.awaits x id).busy, count := (g.awaits x id).count } := by
  unfold Group.awaits
  dsimp only
  split <;> rfl

theorem Group.awaits_busy (g : Group) (x : Txn) (id : Nat) :
    (g.awaits x id).busy = g.busy ++ (if x.op.returns then (wordRegs x.dst x.bytes).map (fun r => (r, id)) else []) := by
  have words : (wordRegs x.dst x.bytes).map (fun r => (r, id)) = (List.range (wordsOf x.bytes)).map (fun i => (x.dst + i, id)) := by
    rw [wordRegs, List.map_map]
    rfl
  rw [words]
  unfold Group.awaits
  dsimp only
  split <;> rfl

theorem Group.awaits_count (g : Group) (x : Txn) (id c : Nat) :
    tget 0 (g.awaits x id).count c = tget 0 g.count c + if x.counter = some c then 1 else 0 := by
  unfold Group.awaits
  dsimp only
  split
  · next k counter =>
    rw [Group.countUp, tget_mset, counter]
    by_cases same : c = k
    · simp [same]
    · simp [same, Ne.symm same]
  · next counter => simp [counter]

/-- What the issue of an access leaves, beyond what every access does: what the cluster has served of it, in state b. -/
structure IssuesFrom (s t : State) (x : Txn) : Prop where
  issued : Issued s t x
  others : ∀ c, c ≠ x.cluster → t.clusterOf c = s.clusterOf c
  seen : ∀ loc, t.seenByte x.cluster loc = (s.serveCluster x).1.seenByte x.cluster loc
  reads : (∀ loc b, ¬ s.backs x loc b) → x.op.writes = false → t.clusterOf x.cluster = s.clusterOf x.cluster
  whole : (∀ p ∈ x.lanes, (s.backOwn x).hits x p = true) →
    t.txns = s.txns ∧ t.grp.regs = ((s.grp.noteWrites x).takeReply (s.partServed x) s.free).regs
  part : (∃ p ∈ x.lanes, (s.backOwn x).hits x p = false) → t.grp.regs = s.grp.regs ∧
    (∃ y, tfind t.txns s.nextId = some y ∧ y.lanes.map (·.result) = (s.serveCluster x).2.map (·.result)) ∧
    ∀ line loc, t.buffered x.cluster line loc = (s.afterBuffering x).buffered x.cluster line loc


theorem bufferAll_of_reads (s : State) {x : Txn} (reads : x.op.writes = false) : s.bufferAll x = s := by
  have none : x.lanes.filter (fun p => x.buffers p && p.result.isNone) = [] := by
    refine List.filter_eq_nil_iff.2 fun p _ => ?_
    have op : (x.op == .store) = false := by
      revert reads
      cases x.op <;> decide
    simp [Txn.buffers, op]
  rw [State.bufferAll, none]
  rfl

/-- The bytes at homes after an access has been served are those of before but for the team's own writes under S. -/
theorem homeByte_afterServing {s : State} {x : Txn} (fresh : x.Fresh) (loc : Nat) :
    (s.serveCluster x).1.homeByte loc = (s.backOwn x).homeByte loc := (caches_serveCluster fresh s).homeByte loc

theorem issued_of_goes {s t : State} {x : Txn} (fresh : x.Fresh) (goes : Goes s t) (mem : t.mem = (s.serveCluster x).1.mem)
    (peers : t.peers = (s.serveCluster x).1.peers)
    (outcome : (t.txns = s.txns ∧ t.grp.busy = s.grp.busy ∧ t.grp.count = s.grp.count ∧
        RegsKept s t (if x.op.returns then wordRegs x.dst x.bytes else []) (maskOf x.laneList)) ∨
      (∃ y, tfind t.txns s.nextId = some y ∧ y.asked = x.asked ∧ (∃ p ∈ y.lanes, p.result = none) ∧ t.grp.regs = s.grp.regs ∧
        t.grp.busy = s.grp.busy ++ (if x.op.returns then (wordRegs x.dst x.bytes).map (fun r => (r, s.nextId)) else []) ∧
        ∀ c, tget 0 t.grp.count c = tget 0 s.grp.count c + if x.counter = some c then 1 else 0)) : Issued s t x where
  mem none := by
    obtain ⟨memA, peersA, _⟩ := (writesBack_backOwn s x).none fun loc b listed dirty own => none loc b ((backs_iff s x loc b).2 ⟨listed, dirty, own⟩)
    have caches := caches_serveCluster fresh s
    exact ⟨mem.trans (caches.mem.trans memA), peers.trans (caches.peers.trans peersA)⟩
  home loc changed := by
    have same : t.homeByte loc = (s.backOwn x).homeByte loc := by
      rw [← homeByte_afterServing fresh]
      simp only [State.homeByte, State.peer, mem, peers]
    rw [same] at changed ⊢
    obtain ⟨b, listed, dirty, own, val⟩ := (writesBack_backOwn s x).home loc changed
    exact ⟨b, (backs_iff s x loc b).2 ⟨listed, dirty, own⟩, val⟩
  groups := goes.groups
  teams := goes.teams
  launches := goes.launches
  cur := goes.cur
  rest := goes.rest
  still := goes.still
  bad := goes.bad
  preds := goes.preds
  outcome := outcome


theorem Frame.peers {k : Nat} {s t : State} (h : Frame k s t) : t.peers = s.peers := by
  have h' := congrArg State.peers h.rest
  exact h'

theorem finish_busy (s : State) (u : Use) (io : Issue) (g : Group) (evs : List Nat) : (s.finish u io g evs).grp.busy = g.busy := by
  have h := congrArg Group.busy (finish_grp s u io g evs)
  have h' := congrArg Group.busy (g.proceed_bare io none)
  exact Eq.trans (b := (g.proceed io none).busy) h h'

theorem finish_count (s : State) (u : Use) (io : Issue) (g : Group) (evs : List Nat) : (s.finish u io g evs).grp.count = g.count := by
  have h := congrArg Group.count (finish_grp s u io g evs)
  have h' := congrArg Group.count (g.proceed_bare io none)
  exact Eq.trans (b := (g.proceed io none).count) h h'

theorem Txn.Fresh.laneList_lt {x : Txn} (h : x.Fresh) : ∀ l ∈ x.laneList, l < 32 := by
  intro l hl
  simp only [Txn.laneList, List.mem_eraseDups, List.mem_map] at hl
  obtain ⟨p, hp, rfl⟩ := hl
  exact (h.lanes p hp).1

/-- An access writes its destination registers in its lanes alone. -/
theorem Group.takeReply_reg_other (g : Group) {x : Txn} (free : Nat) (lanes : ∀ l ∈ x.laneList, l < 32) {r l : Nat} (hl : l < 32)
    (outside : ¬ (r ∈ (if x.op.returns then wordRegs x.dst x.bytes else []) ∧ (maskOf x.laneList).getLsbD l = true)) :
    (g.takeReply x free).reg r l = g.reg r l := by
  unfold Group.takeReply
  cases returns : x.op.returns with
  | false => rw [g.takeLanes_of_not_returns returns]
  | true =>
    rw [returns, if_pos rfl, getLsbD_maskOf _ _ lanes] at outside
    rw [g.reg_takeLanes returns _ _ (fun k hk => lanes k (List.mem_of_mem_filter hk)) r l hl]
    refine if_neg fun ⟨listed, low, high⟩ => outside ⟨List.mem_map.2 ⟨r - x.dst, List.mem_range.2 (by omega), by omega⟩, ?_⟩
    exact decide_eq_true (List.mem_of_mem_filter listed)

theorem takeReply_kept (g : Group) (y : Txn) (free : Nat) :
    g.takeReply y free = { g with regs := (g.takeReply y free).regs, bad := (g.takeReply y free).bad } := by
  have h := g.takeReply_unread y free
  revert h
  generalize g.takeReply y free = k
  intro h
  cases k
  cases g
  simp only [Group.unread, Group.mk.injEq] at h ⊢
  simp [h]

theorem issuesFrom_whole {s : State} {x : Txn} (fresh : x.Fresh) (u : Use) {io : Issue} (parks : io.w = 0)
    (hits : ∀ p ∈ x.lanes, (s.backOwn x).hits x p = true) : IssuesFrom s (s.issueAccess u io x) x := by
  let m := s.afterServing x
  let y := s.partServed x
  let g := m.grp.takeReply y s.free
  have eq : s.issueAccess u io x = m.finish u io g y.events := by
    rw [issueAccess_eq, if_pos ((serveCluster_all fresh s).2 hits)]
  have cur : m.cur = s.cur := afterServing_cur fresh s
  have grp : m.grp = s.grp.noteWrites x := afterServing_grp fresh s
  have kept : g = { s.grp.noteWrites x with regs := g.regs, bad := g.bad } := by rw [← grp]; exact takeReply_kept _ _ _
  have note := s.grp.noteWrites_eq x
  have frame : Frame s.cur m (m.finish u io g y.events) := by rw [← cur]; exact finish_frame m u io g y.events
  have goes : Goes s (m.finish u io g y.events) := by
    refine goes_finish u parks y.events cur (fun j hj => afterServing_group fresh s hj) (stores_serveCluster fresh s).teams
      (stores_serveCluster fresh s).launches ?_ ?_ ?_ ?_ ?_
    · rw [kept, note]
    · rw [kept, note]
    · rw [kept, note]
      rfl
    · intro k hk
      have h := Group.bad_takeReply m.grp y s.free k hk
      rw [grp, note] at h
      exact h
    · rw [kept, note]
  have regs (r l : Nat) : (m.finish u io g y.events).grp.reg r l = g.reg r l := finish_reg m u io g y.events r l
  have busy : (m.finish u io g y.events).grp.busy = s.grp.busy := by
    rw [finish_busy, kept, note]
  have count : (m.finish u io g y.events).grp.count = s.grp.count := by
    rw [finish_count, kept, note]
  have txns : (m.finish u io g y.events).txns = s.txns := frame.txns.trans (stores_serveCluster fresh s).txns
  have clusters : (m.finish u io g y.events).clusters = (s.serveCluster x).1.clusters := frame.clusters
  have clusterOf (c : Nat) : (m.finish u io g y.events).clusterOf c = (s.serveCluster x).1.clusterOf c := by
    rw [State.clusterOf, clusters]
    rfl
  have peers : (m.finish u io g y.events).peers = (s.serveCluster x).1.peers := frame.peers
  rw [eq]
  refine ⟨issued_of_goes fresh goes frame.mem peers (.inl ⟨txns, busy, count, fun r l hl outside => ?_⟩), fun c hc => ?_, fun loc => ?_,
    fun none reads => ?_, fun _ => ⟨txns, by rw [finish_regs, ← grp]⟩, fun ⟨p, hp, miss⟩ => by rw [hits p hp] at miss; cases miss⟩
  · have same : s.grp.reg r l = m.grp.reg r l := by rw [grp, note]; rfl
    rw [regs, same]
    refine m.grp.takeReply_reg_other (x := y) s.free ?_ hl (by rw [partServed_laneList fresh]; exact outside)
    rw [partServed_laneList fresh]
    exact fresh.laneList_lt
  · rw [clusterOf, (caches_serveCluster fresh s).others c hc, (writesBack_backOwn s x).others c hc]
  · rw [State.seenByte_eq, State.seenByte_eq, clusterOf]
    simp only [State.homeByte, State.peer, peers, show (m.finish u io g y.events).mem = (s.serveCluster x).1.mem from frame.mem]
  · obtain ⟨_, _, same⟩ := (writesBack_backOwn s x).none fun loc b listed dirty own => none loc b ((backs_iff s x loc b).2 ⟨listed, dirty, own⟩)
    rw [clusterOf, ← same]
    show ((s.backOwn x).serveHere x _ x.lanes).1.clusterOf x.cluster = _
    rw [serveHere_of_reads fresh.apart _ reads]


theorem issuesFrom_part {s : State} {x : Txn} (fresh : x.Fresh) (u : Use) {io : Issue} (parks : io.w = 0)
    (misses : ∃ p ∈ x.lanes, (s.backOwn x).hits x p = false) : IssuesFrom s (s.issueAccess u io x) x := by
  let m := s.afterBuffering x
  let g := (s.grp.noteWrites x).awaits x s.nextId
  let f := m.finish u io g
  let t := f.depart s.nextId
  have some_left : ¬ (s.serveCluster x).2.all (fun p => p.result.isSome) = true := by
    rw [serveCluster_all fresh s]
    intro all
    obtain ⟨p, hp, miss⟩ := misses
    rw [all p hp] at miss
    cases miss
  have eq : s.issueAccess u io x = t := by
    rw [issueAccess_eq, if_neg some_left, afterServing_grp fresh, afterServing_nextId fresh]
  have stores := stores_serveCluster fresh s
  have buffers := buffers_afterBuffering s x
  have cur : m.cur = s.cur := buffers.cur.trans (afterServing_cur fresh s)
  have groups : m.groups = (s.afterServing x).groups := buffers.groups
  have txnsM : m.txns = tput (s.afterServing x).txns (s.afterServing x).nextId (s.partServed x) := buffers.txns
  have kept : g = { s.grp.noteWrites x with busy := g.busy, count := g.count } := Group.awaits_eq _ _ _
  have note := s.grp.noteWrites_eq x
  have frame : Frame s.cur m f := by rw [← cur]; exact finish_frame m u io g []
  have goesF : Goes s f := by
    refine goes_finish u parks [] cur (fun j hj => ?_) (buffers.teams.trans stores.teams) (fun j => ?_) ?_ ?_ ?_ ?_ ?_
    · rw [State.group, groups]
      exact afterServing_group fresh s hj
    · rw [State.launchOf, (buffers.launches : m.launches = (s.serveCluster x).1.launches)]
      exact stores.launches j
    · rw [kept, note]
    · rw [kept, note]
    · rw [kept, note]
      rfl
    · rw [kept, note]
      exact fun _ h => h
    · rw [kept, note]
  have found : tfind f.txns s.nextId = some (s.partServed x) := by
    rw [frame.txns, txnsM, afterServing_nextId fresh, tfind_tput, if_pos rfl]
  have departs : Departs s.nextId f t := departs_depart found
  obtain ⟨y, foundY, asked, results⟩ := departs.pending _ found
  replace results : y.lanes.map (·.result) = (s.serveCluster x).2.map (·.result) := results
  have goes : Goes s t := goesF.of_same departs.groups departs.cur departs.teams departs.launches
  have grp : t.grp = f.grp := by
    rw [State.grp, State.group, departs.groups, departs.cur]
    rfl
  have regs : t.grp.regs = s.grp.regs := by rw [grp, finish_regs, kept, note]
  have clusters : t.clusters = m.clusters := departs.clusters.trans frame.clusters
  have clusterOf (c : Nat) : t.clusterOf c = m.clusterOf c := by rw [State.clusterOf, clusters]; rfl
  have mem : t.mem = (s.serveCluster x).1.mem :=
    (departs.mem.trans frame.mem).trans buffers.mem
  have peers : t.peers = (s.serveCluster x).1.peers :=
    (departs.peers.trans frame.peers).trans buffers.peers
  rw [eq]
  refine ⟨issued_of_goes fresh goes mem peers (.inr ⟨y, foundY, asked.trans (partServed_asked fresh s), ?_, ?_, ?_, fun c => ?_⟩), fun c hc => ?_,
    fun loc => ?_, fun none reads => ?_, fun all => ?_, fun _ => ⟨regs, ⟨y, foundY, results⟩, fun line loc => by rw [State.buffered, clusterOf]; rfl⟩⟩
  · by_contra none
    refine some_left ((List.all_map (f := fun p : LaneAcc => p.result) (p := Option.isSome)).symm.trans ?_)
    rw [← results, List.all_map, List.all_eq_true]
    exact fun p hp => Option.isSome_iff_ne_none.2 fun left => none ⟨p, hp, left⟩
  · exact regs
  · rw [grp, finish_busy, Group.awaits_busy, note]
  · rw [grp, finish_count, Group.awaits_count, note]
  · rw [clusterOf, buffers.others c hc]
    exact ((caches_serveCluster fresh s).others c hc).trans ((writesBack_backOwn s x).others c hc)
  · rw [State.seenByte_eq, State.seenByte_eq, clusterOf, buffers.cache]
    simp only [State.homeByte, State.peer, peers, mem]
    rfl
  · obtain ⟨_, _, same⟩ := (writesBack_backOwn s x).none fun loc b listed dirty own => none loc b ((backs_iff s x loc b).2 ⟨listed, dirty, own⟩)
    have idle : m = s.numbered x := bufferAll_of_reads _ reads
    rw [clusterOf, idle, ← same]
    show ((s.backOwn x).serveHere x _ x.lanes).1.clusterOf x.cluster = _
    rw [serveHere_of_reads fresh.apart _ reads]
  · exact absurd ((serveCluster_all fresh s).2 all) some_left

theorem issuesFrom_issueAccess {s : State} {x : Txn} (fresh : x.Fresh) (u : Use) {io : Issue} (parks : io.w = 0) :
    IssuesFrom s (s.issueAccess u io x) x := by
  by_cases hits : ∀ p ∈ x.lanes, (s.backOwn x).hits x p = true
  · exact issuesFrom_whole fresh u parks hits
  · exact issuesFrom_part fresh u parks (by simpa using hits)

/-! ### Loads, stores and prefetches -/

theorem passes_finish_self (s : State) (u : Use) {io : Issue} (parks : io.w = 0) : Passes s (s.finish u io s.grp) [] :=
  (finish_passes s u io s.grp [] parks rfl).of_setGrp_self

/-- An access that its check lets pass, in some lane. -/
theorem accesses_of_runs {s : State} {i : Instr} {u : Use} {io : Issue} {x : Txn} {P : State → Prop} (parks : io.w = 0) (fresh : x.Fresh)
    (runs : exec i s = .next (if s.accessHeld x then s.stand else s.issueAccess u io x)) (post : ∀ t, IssuesFrom s t x → P t) :
    Accesses s i x P := by
  refine ⟨fun held => by rw [runs, if_pos held], fun free => ⟨_, by rw [runs, if_neg (by simp [free])], ?_⟩⟩
  have issues := issuesFrom_issueAccess (s := s) fresh u parks
  exact ⟨issues.issued, post _ issues⟩

theorem mem_regionPieces {s : State} {r : Region} {n : Nat} {offs : List (Nat × Nat)} {f h : Nat → Nat} {p : LaneAcc}
    (hp : p ∈ s.regionPieces r n offs f h) : (∃ o ∈ offs, p.lane = o.1) ∧ p.result = none ∧ p.done = false := by
  obtain ⟨o, ho, hp⟩ := List.mem_flatMap.1 hp
  obtain ⟨e, _, rfl⟩ := List.mem_map.1 hp
  exact ⟨⟨o, ho, rfl⟩, rfl, rfl⟩

theorem regionPieces_fresh {s : State} {r : Region} {n a : Nat} {f h : Nat → Nat} :
    ∀ p ∈ s.regionPieces r n (s.lanesAt true a) f h, p.lane < 32 ∧ p.result = none ∧ p.done = false := by
  intro p hp
  obtain ⟨⟨o, ho, lane⟩, result, done⟩ := mem_regionPieces hp
  obtain ⟨l, hl, rfl⟩ := List.mem_map.1 ho
  exact ⟨by rw [lane]; exact lt_of_mem_lanesOf hl, result, done⟩

/-! ### The element that a load's lane gets -/

theorem pieceSize_le {va rem : Nat} (h : rem ≠ 0) : pieceSize va rem ≤ rem := by
  unfold pieceSize
  cases found : List.find? (fun k => decide (va % k = 0) && decide (k ≤ rem)) [16, 8, 4, 2] with
  | none => simp; omega
  | some k =>
    have fits := List.find?_some found
    simp only [Bool.and_eq_true, decide_eq_true_eq] at fits
    exact fits.2

theorem seenLe_lt (s : State) (cl loc n : Nat) : s.seenLe cl loc n < 256 ^ n := by
  induction n generalizing loc with
  | zero => simp [State.seenLe]
  | succ n ih =>
    have := ih (loc + 1)
    have byte := (s.seenByte cl loc).isLt
    rw [State.seenLe, Nat.pow_succ]
    omega

/-- Values in the pieces of an element, in their places, make a number of its bytes. -/
theorem sum_piecesOf_lt (v : Nat → Nat → Nat) (small : ∀ pos k, v pos k < 256 ^ k) (fuel va pos rem : Nat) :
    ((piecesOf fuel va pos rem).map (fun e => v e.1 e.2 * 256 ^ e.1)).sum + 256 ^ pos ≤ 256 ^ (pos + rem) := by
  induction fuel generalizing va pos rem with
  | zero => simpa [piecesOf] using Nat.pow_le_pow_right (by norm_num) (Nat.le_add_right pos rem)
  | succ fuel ih =>
    by_cases done : rem = 0
    · simp [piecesOf, done]
    · have fits := pieceSize_le (va := va) done
      have rest := ih (va + pieceSize va rem) (pos + pieceSize va rem) (rem - pieceSize va rem)
      rw [show pos + pieceSize va rem + (rem - pieceSize va rem) = pos + rem by omega] at rest
      have here : v pos (pieceSize va rem) * 256 ^ pos + 256 ^ pos ≤ 256 ^ (pos + pieceSize va rem) := by
        rw [Nat.pow_add, Nat.mul_comm (256 ^ pos), ← Nat.succ_mul]
        exact Nat.mul_le_mul_right _ (small pos _)
      simp only [piecesOf, done, if_false, List.map_cons, List.sum_cons]
      omega

/-- Words of a number, in their places. -/
theorem sum_words (v w : Nat) : ((List.range w).map (fun i => v / 2 ^ (32 * i) % 2 ^ 32 * 2 ^ (32 * i))).sum = v % 2 ^ (32 * w) := by
  induction w with
  | zero => simp [Nat.mod_one]
  | succ w ih =>
    rw [List.range_succ, List.map_append, List.sum_append, ih, Nat.mul_succ, Nat.pow_add, Nat.mod_mul]
    simp [Nat.mul_comm]

theorem pow_le_words (z : Nat) : 256 ^ 2 ^ z ≤ 2 ^ (32 * wordsOf (2 ^ z)) := by
  rw [show (256 : Nat) = 2 ^ 8 from rfl, ← Nat.pow_mul]
  refine Nat.pow_le_pow_right (by norm_num) ?_
  unfold wordsOf
  split
  · omega
  · next big =>
    have four : 4 ∣ 2 ^ z := by
      rcases Nat.lt_or_ge z 2 with small | large
      · exact absurd (Nat.pow_le_pow_right (n := 2) (by norm_num) (Nat.le_of_lt_succ small)) (by omega)
      · exact pow_dvd_pow 2 large
    omega


theorem flatMap_single {α : Type} {xs : List Nat} (distinct : xs.Nodup) {l : Nat} (hl : l ∈ xs) (g : Nat → List α) :
    xs.flatMap (fun k => if k = l then g k else []) = g l := by
  induction xs with
  | nil => cases hl
  | cons k xs ih =>
    obtain ⟨absent, distinct⟩ := List.nodup_cons.1 distinct
    rw [List.flatMap_cons]
    by_cases same : k = l
    · subst same
      rw [if_pos rfl, List.flatMap_eq_nil_iff.2 (fun j hj => if_neg (fun (e : j = k) => absent (e ▸ hj))), List.append_nil]
    · rw [if_neg same, List.nil_append, ih distinct ((List.mem_cons.1 hl).resolve_left (Ne.symm same))]

/-- The pieces of one lane. -/
theorem regionPieces_filter_lane (s : State) (r : Region) (n a : Nat) (f h : Nat → Nat) {l : Nat} (hl : s.lanesT.getLsbD l = true) :
    (s.regionPieces r n (s.lanesAt true a) f h).filter (fun p => p.lane == l) =
      lanePieces (tget [] s.pins r.handle) l (r.base + s.operand true a l) n (f l % 256 ^ n) (h l % 256 ^ n) := by
  have each (k : Nat) : (lanePieces (tget [] s.pins r.handle) k (r.base + s.operand true a k) n (f k % 256 ^ n) (h k % 256 ^ n)).filter
      (fun p => p.lane == l) = if k = l then lanePieces (tget [] s.pins r.handle) k (r.base + s.operand true a k) n (f k % 256 ^ n) (h k % 256 ^ n)
        else [] := by
    split
    · next same =>
      refine List.filter_eq_self.2 fun p hp => ?_
      obtain ⟨e, _, rfl⟩ := List.mem_map.1 hp
      simpa using same
    · next other =>
      refine List.filter_eq_nil_iff.2 fun p hp => ?_
      obtain ⟨e, _, rfl⟩ := List.mem_map.1 hp
      simpa using other
  unfold State.regionPieces
  rw [State.lanesAt, List.flatMap_map, List.filter_flatMap]
  simp only [each]
  exact flatMap_single (List.nodup_range.filter _) (mem_lanesOf.2 hl) _

/-- The element of a lane that its pieces make, where every one is served. -/
theorem element_of_pieces {g : Group} {x : Txn} (op : x.op = .load) {z : Nat} (bytes : x.bytes = 2 ^ z) (free : Nat)
    (lanes : ∀ l ∈ x.laneList, l < 32) (fresh : ∀ p ∈ x.lanes, p.done = false) {l v : Nat} (listed : l ∈ x.laneList)
    (value : laneValue x.lanes l = some v) (small : v < 256 ^ 2 ^ z) : (g.takeReply x free).element x.dst (2 ^ z) l = v := by
  have hl := lanes l listed
  have all : x.laneList.filter (fun l => x.lanes.all (fun p => p.lane != l || !p.done)) = x.laneList := by
    refine List.filter_eq_self.2 fun k _ => List.all_eq_true.2 fun p hp => ?_
    rw [fresh p hp]
    simp
  have word (i : Nat) (hi : i < wordsOf (2 ^ z)) : (g.takeReply x free).reg (x.dst + i) l = BitVec.ofNat 32 (v / 2 ^ (32 * i)) := by
    rw [Group.takeReply, all, Group.reg_takeLanes g (by rw [op]; rfl) free _ lanes _ _ hl,
      if_pos ⟨listed, by omega, by rw [bytes]; omega⟩, Nat.add_sub_cancel_left, Txn.laneWord, value]
  calc (g.takeReply x free).element x.dst (2 ^ z) l
      = ((List.range (wordsOf (2 ^ z))).map (fun i => v / 2 ^ (32 * i) % 2 ^ 32 * 2 ^ (32 * i))).sum := by
        refine congrArg List.sum (List.map_congr_left fun i hi => ?_)
        rw [word i (List.mem_range.1 hi), BitVec.toNat_ofNat]
    _ = v := by rw [sum_words, Nat.mod_eq_of_lt (Nat.lt_of_lt_of_le small (pow_le_words z))]

theorem seenLe_congr {s t : State} {cl : Nat} (seen : ∀ loc, t.seenByte cl loc = s.seenByte cl loc) (loc n : Nat) :
    t.seenLe cl loc n = s.seenLe cl loc n := by
  induction n generalizing loc with
  | zero => rfl
  | succ n ih => rw [State.seenLe, State.seenLe, seen, ih]

theorem ldTxn_fresh (s : State) (d g a k n : Nat) (nalloc : Bool) : (s.ldTxn d g a k n nalloc).Fresh where
  apart := rfl
  lanes := show ∀ p ∈ s.regionPieces (s.region g) n (s.lanesAt true a) (fun _ => 0) (fun _ => 0), _ from regionPieces_fresh

/-- The pieces of an access that writes nothing, after its cluster has served what it serves. -/
theorem serveCluster_of_reads {s : State} {x : Txn} (fresh : x.Fresh) (reads : x.op.writes = false) :
    (s.serveCluster x).1 = s.backOwn x ∧ (s.serveCluster x).2 = x.lanes.map (fun p =>
      if (s.backOwn x).serves x p then { p with result := some (s.seenLe x.cluster p.loc p.n) } else p) := by
  have served : s.serveCluster x = _ := serveHere_of_reads fresh.apart ((s.backOwn x).leaving x) reads (s.backOwn x) x.lanes
  rw [served]
  refine ⟨rfl, List.map_congr_left fun p _ => ?_⟩
  rw [leaving_contains, seenLe_congr (writesBack_backOwn s x).seen]
  cases (s.backOwn x).serves x p <;> rfl

/-- Bytes read in the pieces of one lane make a number of n bytes. -/
theorem sum_lanePieces_lt (s : State) (cl : Nat) (pins : List PagePin) (lane va n a b : Nat) :
    ((lanePieces pins lane va n a b).map (fun p => s.seenLe cl p.loc p.n * 256 ^ p.pos)).sum < 256 ^ n := by
  let loc (pos : Nat) : Nat := ((pinFind pins (va + pos)).map (·.at_ (va + pos))).getD (va + pos)
  have bound := sum_piecesOf_lt (fun pos k => s.seenLe cl (loc pos) k) (fun pos k => seenLe_lt s _ _ k) 16 va 0 n
  rw [Nat.zero_add, Nat.pow_zero] at bound
  rw [lanePieces, List.map_map]
  exact Nat.lt_of_succ_le bound

theorem lanePieces_ne_nil (pins : List PagePin) (lane va a b : Nat) {n : Nat} (hn : n ≠ 0) : lanePieces pins lane va n a b ≠ [] := by
  simp [lanePieces, piecesOf, hn]

/-- Every piece of a load is served: each of its lanes has its value. -/
theorem laneValue_of_served {ps : List LaneAcc} (value : LaneAcc → Nat) (l : Nat) :
    laneValue (ps.map (fun p => { p with result := some (value p) })) l =
      some (((ps.filter (fun p => p.lane == l)).map (fun p => value p * 256 ^ p.pos)).sum) := by
  have mine : (ps.map (fun p => { p with result := some (value p) })).filter (fun p => p.lane == l) =
      (ps.filter (fun p => p.lane == l)).map (fun p => { p with result := some (value p) }) := by
    rw [List.filter_map]
    rfl
  simp only [laneValue, mine, List.all_map, List.map_map]
  rw [if_pos (by simp)]
  rfl

/-- The pieces of a load that the cluster serves whole. -/
theorem partServed_lanes_of_hits {s : State} {x : Txn} (fresh : x.Fresh) (reads : x.op.writes = false)
    (hits : ∀ p ∈ x.lanes, (s.backOwn x).hits x p = true) :
    (s.partServed x).lanes = x.lanes.map (fun p => { p with result := some (s.seenLe x.cluster p.loc p.n) }) :=
  (serveCluster_of_reads fresh reads).2.trans (List.map_congr_left fun p _ => if_pos (List.all_eq_true.2 fun q hq => by
    rw [hits q hq, Bool.or_true]))

theorem loaded_element {s t : State} {x : Txn} (fresh : x.Fresh) (op : x.op = .load) {z : Nat} (bytes : x.bytes = 2 ^ z)
    (hits : ∀ p ∈ x.lanes, (s.backOwn x).hits x p = true)
    (regs : t.grp.regs = ((s.grp.noteWrites x).takeReply (s.partServed x) s.free).regs) {l : Nat} {pins : List PagePin} {va a b : Nat}
    (own : x.lanes.filter (fun p => p.lane == l) = lanePieces pins l va (2 ^ z) a b) :
    t.grp.element x.dst (2 ^ z) l =
      ((x.lanes.filter (fun p => p.lane == l)).map (fun p => s.seenLe x.cluster p.loc p.n * 256 ^ p.pos)).sum := by
  have served := partServed_lanes_of_hits fresh (by rw [op]; rfl) hits
  have value := laneValue_of_served (ps := x.lanes) (fun p => s.seenLe x.cluster p.loc p.n) l
  rw [← served] at value
  have small : ((x.lanes.filter (fun p => p.lane == l)).map (fun p => s.seenLe x.cluster p.loc p.n * 256 ^ p.pos)).sum < 256 ^ 2 ^ z := by
    rw [own]
    exact sum_lanePieces_lt s x.cluster pins l va (2 ^ z) a b
  have listed : l ∈ (s.partServed x).laneList := by
    obtain ⟨p, hp⟩ := List.exists_mem_of_ne_nil _ (own ▸ lanePieces_ne_nil pins l va a b (by positivity))
    obtain ⟨hp, lane⟩ := List.mem_filter.1 hp
    rw [partServed_laneList fresh, Txn.laneList, List.mem_eraseDups]
    exact List.mem_map.2 ⟨p, hp, by simpa using lane⟩
  have element : t.grp.element x.dst (2 ^ z) l = ((s.grp.noteWrites x).takeReply (s.partServed x) s.free).element x.dst (2 ^ z) l := by
    simp only [Group.element, Group.reg, regs]
  rw [element]
  refine element_of_pieces (x := s.partServed x) op bytes s.free (by rw [partServed_laneList fresh]; exact fresh.laneList_lt) ?_ listed value small
  intro p hp
  rw [served] at hp
  obtain ⟨q, hq, rfl⟩ := List.mem_map.1 hp
  exact (fresh.lanes q hq).2.2

theorem regionLoads : Rules.RegionLoads := by
  intro s d g a k z h n r i pieces x hk ready free serves inside
  have runs := exec_ld_of_ready (d := d) (h := h) hk free ready
  rw [accessCheck_eq_none serves inside] at runs
  have fresh : x.Fresh := ldTxn_fresh s _ _ _ _ _ _
  refine ⟨fun idle => ⟨_, runs.trans (congrArg _ (if_pos idle)), passes_finish_self s _ rfl⟩, ?_⟩
  intro s0 active
  refine accesses_of_runs rfl fresh (runs.trans (congrArg _ (if_neg active))) fun t issues => ?_
  have reads : x.op.writes = false := rfl
  refine ⟨fun none c => ?_, issues.others, fun loc => ?_, fun misses => ?_, fun hits => ?_⟩
  · by_cases own : c = x.cluster
    · rw [own]
      exact issues.reads none reads
    · exact issues.others c own
  · refine (issues.seen loc).trans ?_
    rw [(serveCluster_of_reads fresh reads).1]
    exact (writesBack_backOwn s x).seen loc
  · obtain ⟨_, ⟨y, found, results⟩, _⟩ := issues.part misses
    refine ⟨y, found, ?_⟩
    rw [results, (serveCluster_of_reads fresh reads).2, List.map_map]
    refine List.map_congr_left fun p hp => ?_
    show (if s0.serves x p then { p with result := _ } else p : LaneAcc).result = _
    split
    · rfl
    · exact (fresh.lanes p hp).2.1
  · obtain ⟨txns, regs⟩ := issues.whole hits
    exact ⟨txns, fun l hl => loaded_element fresh rfl rfl hits regs (regionPieces_filter_lane s r n a.toNat (fun _ => 0) (fun _ => 0) hl)⟩

theorem stTxn_fresh (s : State) (d g a k n : Nat) (nalloc : Bool) : (s.stTxn d g a k n nalloc).Fresh where
  apart := rfl
  lanes := show ∀ p ∈ s.regionPieces (s.region g) n (s.lanesAt true a) (s.elementAt d n) (fun _ => 0), _ from regionPieces_fresh

theorem prefTxn_fresh (s : State) (g a k : Nat) (nalloc : Bool) : (s.prefTxn g a k nalloc).Fresh where
  apart := rfl
  lanes := show ∀ p ∈ (s.regionPieces (s.region g) 1 (s.lanesAt true a) (fun _ => 0) (fun _ => 0)).filter (·.normal), _ from
    fun p hp => regionPieces_fresh p (List.mem_of_mem_filter hp)

theorem backOwn_of_not_s (s : State) {x : Txn} (kind : x.kind ≠ .s) : s.backOwn x = s := if_pos (by simpa using kind)

/-- The pieces that are not served are as they were asked for. -/
theorem serveHere_waiting {x : Txn} (apart : x.commons = false) (left : List Nat) (s : State) (ps : List LaneAcc) :
    (s.serveHere x left ps).2.filter (fun p => p.result.isNone) =
      ps.filter (fun p => left.contains (lineOf p.loc) && p.result.isNone) := by
  induction ps generalizing s with
  | nil => rfl
  | cons p ps ih =>
    rw [serveHere_cons apart]
    split
    · next leaves =>
      rw [List.filter_cons, List.filter_cons, ih, leaves, Bool.true_and]
    · next stays =>
      rw [List.filter_cons_of_neg (by simp), List.filter_cons_of_neg
          (by simp only [stays, Bool.false_and, Bool.false_eq_true, not_false_eq_true]), ih]

/-- The pieces of a store that go to the buffer are those on write-combining pages. -/
theorem partServed_buffered {s : State} {x : Txn} (fresh : x.Fresh) (kind : x.kind ≠ .s)
    (buffers : ∀ p, x.buffers p = true ↔ p.ptype = 1) :
    (s.partServed x).lanes.filter (fun p => (s.partServed x).buffers p && p.result.isNone) = x.lanes.filter (fun p => p.ptype == 1) := by
  have same (p : LaneAcc) : (s.partServed x).buffers p = x.buffers p := rfl
  have waiting := serveHere_waiting fresh.apart (s.leaving x) s x.lanes
  have served : (s.partServed x).lanes = (s.serveHere x (s.leaving x) x.lanes).2 := by
    show (s.serveCluster x).2 = _
    unfold State.serveCluster
    rw [backOwn_of_not_s s kind]
  rw [← List.filter_filter, served, waiting, List.filter_filter]
  refine List.filter_congr fun p hp => ?_
  rw [same, leaving_contains, (fresh.lanes p hp).2.1, Option.isNone_none, Bool.and_true]
  by_cases combining : p.ptype = 1
  · have misses : s.serves x p = false := by
      refine List.all_eq_false.2 ⟨p, hp, ?_⟩
      simp [State.hits, LaneAcc.normal, combining]
    rw [(buffers p).2 combining, misses]
    simp [combining]
  · rw [Bool.eq_false_iff.2 (fun h => combining ((buffers p).1 h))]
    simp [combining]

theorem serveCluster_store_seen {s : State} {x : Txn} (fresh : x.Fresh) (op : x.op = .store) (kind : x.kind ≠ .s) (loc : Nat) :
    (s.serveCluster x).1.seenByte x.cluster loc = stored (x.lanes.filter (s.serves x)) loc (s.seenByte x.cluster loc) := by
  unfold State.serveCluster
  rw [backOwn_of_not_s s kind]
  refine (seenByte_serveHere_store fresh.apart op _ s x.lanes loc).trans ?_
  congr 1
  refine List.filter_congr fun p _ => ?_
  rw [leaving_contains, Bool.not_not]

theorem regionStores : Rules.RegionStores := by
  intro s d g a k z h n r i cl pieces x hk ready free serves inside
  have runs := exec_st_of_ready (d := d) (h := h) hk free ready
  rw [accessCheck_eq_none serves inside] at runs
  have fresh : x.Fresh := stTxn_fresh s _ _ _ _ _ _
  have kind : x.kind ≠ .s := serves.kind.1 rfl
  have same := backOwn_of_not_s s kind
  refine ⟨fun idle => ⟨_, runs.trans (congrArg _ (if_pos idle)), passes_finish_self s _ rfl⟩, fun active => ?_⟩
  refine accesses_of_runs rfl fresh (runs.trans (congrArg _ (if_neg active))) fun t issues => ?_
  refine ⟨issues.others, fun loc => ?_, fun hits => ?_, fun misses => ?_, ?_⟩
  · exact (issues.seen loc).trans (serveCluster_store_seen fresh rfl kind loc)
  · exact (issues.whole (by rw [same]; exact hits)).1
  · obtain ⟨_, ⟨y, found, results⟩, _⟩ := issues.part (by rw [same]; exact misses)
    refine ⟨y, found, ?_⟩
    have isSome := congrArg (List.map Option.isSome) results
    rw [List.map_map, List.map_map] at isSome
    have served := serveCluster_isSome fresh s
    rw [same] at served
    exact isSome.trans served
  · intro ps p qs split combining j hj last _
    have listed : p ∈ x.lanes := by
      show p ∈ pieces
      simp [split]
    have miss : (s.backOwn x).hits x p = false := by simp [State.hits, LaneAcc.normal, combining]
    obtain ⟨_, _, buffered⟩ := issues.part ⟨p, listed, miss⟩
    have combine : (s.partServed x).lanes.filter (fun p => (s.partServed x).buffers p && p.result.isNone) =
        ps.filter (fun p => p.ptype == 1) ++ p :: qs.filter (fun p => p.ptype == 1) := by
      rw [partServed_buffered fresh kind (fun p => by simp [Txn.buffers, x, State.txn]), show x.lanes = ps ++ p :: qs from split, List.filter_append,
        List.filter_cons_of_pos (by simp [combining])]
    have held := buffered_bufferAll (s.numbered x) (s.partServed x) combine (loc := p.loc + j) ⟨by omega, by omega⟩ fun q hq covers => by
      obtain ⟨hq, kind⟩ := List.mem_filter.1 hq
      exact last q hq ⟨by simpa using kind, covers⟩
    rw [Nat.add_sub_cancel_left] at held
    exact (buffered (lineOf p.loc) (p.loc + j)).trans held

theorem of_accessCheck_eq_none {s : State} {r : Region} {write : Bool} {a n : Nat} (h : s.accessCheck r write a n = none) :
    r.Serves s.grp.pos write false ∧ s.inside r a n := by
  unfold State.accessCheck at h
  cases check : regionCheck r s.grp.pos write false with
  | some e => simp [check] at h
  | none => exact ⟨serves_of_regionCheck check, inside_of_boundsCheck (by simpa [check] using h)⟩

theorem prefetches : Rules.Prefetches := by
  intro s g a k h r i pieces x hk ready free
  have runs := exec_pref_of_ready (h := h) hk free ready
  have fresh : x.Fresh := prefTxn_fresh s _ _ _ _
  refine ⟨fun idle => ⟨_, runs.trans (congrArg _ (if_pos ?_)), passes_finish_self s _ rfl⟩, fun serves inside some => ?_⟩
  · rw [Bool.or_eq_true, List.isEmpty_iff]
    rcases idle with fails | none
    · refine .inl (Option.isSome_iff_ne_none.2 fun passes => fails ?_)
      exact of_accessCheck_eq_none passes
    · exact .inr none
  · have goes : ¬ ((s.accessCheck r false a.toNat 1).isSome || x.lanes.isEmpty) = true := by
      rw [accessCheck_eq_none serves inside]
      simpa using some
    refine accesses_of_runs rfl fresh (runs.trans (congrArg _ (if_neg goes))) fun t issues => ⟨fun none c => ?_, ?_⟩
    · by_cases own : c = x.cluster
      · rw [own]
        exact issues.reads none rfl
      · exact issues.others c own
    · by_cases hits : ∀ p ∈ x.lanes, (s.backOwn x).hits x p = true
      · rw [(issues.whole hits).2, Group.takeReply, Group.takeLanes_of_not_returns _ rfl, s.grp.noteWrites_eq]
      · exact (issues.part (by simpa using hits)).1

/-- Settles O37: an access whose operands stand ready either traps in the order of its checks, stands, or is served by its cluster line by line
with the rest leaving for its homes; and what holds it is read off the queries of the model. -/
theorem regionAccesses : Obligations.RegionAccesses := ⟨regionChecks, regionLoads, regionStores, prefetches, accessesHeld⟩

end Sys2Proof.Machine
end

section
/-! SUPPORT. What completes: carries, copies, fences and engine operations (R34, R165, R177, R178, R293 to R302, R322 to R326, R349, R350). -/

namespace Sys2Proof.Machine

set_option Elab.async false

/-! ### nop -/

theorem noOperation_nop : Rules.NoOperation := ⟨by decide +kernel, by decide +kernel, nop_passes⟩

/-! ### Carries -/

/-- Item i's value in slot j of launch l stands in place p, wherever it is noted. -/
def State.Placed (s : State) (l i j : Nat) (p : CarryPlace) : Prop :=
  ∀ c ∈ s.carried, c.launch = l → c.item = i → c.slot = j → c.place = p

theorem Sends.placed {s t : State} {l i j : Nat} {p : CarryPlace} (h : Sends s t) (placed : s.Placed l i j p) : t.Placed l i j p := by
  have same : t.carried = s.carried := (congrArg State.carried h :)
  rwa [State.Placed, same]

theorem setPlace_placed (s : State) (l i j : Nat) (p : CarryPlace) : (s.setPlace l i j p).Placed l i j p := by
  intro c hc hl hi hj
  rw [setPlace_eq] at hc
  obtain ⟨c', -, rfl⟩ := List.mem_map.1 hc
  split at hl <;> rename_i named
  · rw [if_pos named]
  · rw [if_neg named] at hi hj
    simp [hl, hi, hj] at named

theorem sendCarry_placed {s : State} {l i j : Nat} {p : CarryPlace} (placed : s.Placed l i j p) (vc : Nat) (c : Carried) (src dst : Nat)
    (e : Event) : (s.sendCarry vc c src dst e).Placed l i j p :=
  (sends_inject s _ rfl rfl).placed placed

theorem wakeGroup_placed {s : State} {l i j : Nat} {p : CarryPlace} (placed : s.Placed l i j p) (k : Nat) : (s.wakeGroup k).Placed l i j p := by
  rw [State.wakeGroup_eq]
  exact placed

/-- A value that stands in one place is found there. -/
theorem carriedIn_of_placed {s : State} {l i j : Nat} {p : CarryPlace} {ps : List CarryPlace}
    (noted : ∃ c ∈ s.carried, c.launch = l ∧ c.item = i ∧ c.slot = j) (placed : s.Placed l i j p) (hp : p ∈ ps) :
    ∃ c, s.carriedIn l i j ps = some c ∧ c.place = p := by
  obtain ⟨c, hc, hl, hi, hj⟩ := noted
  have found : (s.carriedIn l i j ps).isSome = true := by
    rw [State.carriedIn, List.find?_isSome]
    exact ⟨c, hc, by simp [hl, hi, hj, placed c hc hl hi hj, hp]⟩
  obtain ⟨c', hc'⟩ := Option.isSome_iff_exists.1 found
  have named := List.find?_some hc'
  simp only [Bool.and_eq_true, beq_iff_eq] at named
  obtain ⟨⟨⟨hl, hi⟩, hj⟩, -⟩ := named
  exact ⟨c', hc', placed c' (List.mem_of_find?_eq_some hc') hl hi hj⟩

theorem carriesComplete : Rules.CarriesComplete := by
  intro s a d n m k slot placed
  refine ⟨fun ready some ordered lt valid fresh stays => ?_, fun ready some ordered valid distance => ?_, fun l i j => ?_⟩
  · obtain ⟨t, run, passes, owed⟩ := pub_passes ready (s.pubUse_check_none a.toNat (.inr ⟨ordered, valid⟩) fresh) (fun h => by simp [stays] at h)
    refine ⟨t, run, ?_, owed⟩
    have pub : t.grp.pub = mset 0 s.grp.pub n.toNat (tget 0 s.grp.pub n.toNat ||| s.lanesT) :=
      (congrArg Group.pub passes.advances.group :).trans (congrArg Group.pub (s.grp_setGrp _) :)
    rw [pub, tget_mset, if_pos rfl]
  · have check : (s.cdefUse m.toNat k.toNat).check s.lanesT = none := by
      rw [State.cdefUse_check, s.carryCheck_none (.inr ⟨ordered, valid⟩)]
      exact if_pos (.inr distance)
    obtain ⟨t, bind, run, passes, bound⟩ := cdef_passes d ready check
    refine ⟨t, run, fun l hl => ?_⟩
    have same : t.grp.bind = bind := (congrArg Group.bind passes.advances.group :).trans (congrArg Group.bind (s.grp_setGrp _) :)
    rw [same, bound _ _ (lt_of_mem_lanesOf (mem_lanesOf.2 hl)), if_pos ⟨rfl, hl⟩]
  · intro dest all goes
    have consumer : (s.launchOf l).consumer i j = dest := rfl
    have moved {ps : List CarryPlace} {p : CarryPlace} (h : all p) (hp : p ∈ ps) := carriedIn_of_placed h.1 h.2 hp
    refine ⟨fun h past => ?_, fun within => ⟨fun h => ?_, fun h k g holds => ?_⟩, fun h lives launch resident =>
      ⟨fun spill => ?_, fun asked => ?_, fun coming => ?_⟩⟩
    · obtain ⟨c, found⟩ : ∃ c, s.carriedIn l i j [.sent, .moving] = some c := by
        rcases h with h | h
        · exact (moved h (by simp)).imp fun _ => And.left
        · exact (moved h (by simp)).imp fun _ => And.left
      refine ⟨_, exec_carryMessage_of_some found, ?_⟩
      rw [consumer, if_pos past]
      exact setPlace_placed _ _ _ _ _
    · obtain ⟨c, found, sent⟩ := moved h (ps := [.sent, .moving]) (by simp)
      refine ⟨_, exec_carryMessage_of_some found, ?_⟩
      rw [consumer, if_neg (Nat.not_le.2 within), if_pos (by simp [sent])]
      exact sendCarry_placed (setPlace_placed _ _ _ _ _) _ _ _ _ _
    · intro cl room
      obtain ⟨c, found, moving⟩ := moved h (ps := [.sent, .moving]) (by simp)
      refine ⟨_, exec_carryMessage_of_some found, ?_⟩
      rw [consumer, if_neg (Nat.not_le.2 within), if_neg (by simp [moving]), landCarry_room holds room]
      exact wakeGroup_placed (setPlace_placed _ _ _ _ _) _
    · obtain ⟨c, found, place⟩ := moved spill (ps := [.spill, .asked, .coming]) (by simp)
      refine ⟨_, exec_carryFetch_of_some lives launch resident found, ?_⟩
      rw [place]
      exact sendCarry_placed (setPlace_placed _ _ _ _ _) _ _ _ _ _
    · obtain ⟨c, found, place⟩ := moved asked (ps := [.spill, .asked, .coming]) (by simp)
      refine ⟨_, exec_carryFetch_of_some lives launch resident found, ?_⟩
      rw [place]
      exact sendCarry_placed (setPlace_placed _ _ _ _ _) _ _ _ _ _
    · obtain ⟨c, found, place⟩ := moved coming (ps := [.spill, .asked, .coming]) (by simp)
      refine ⟨_, exec_carryFetch_of_some lives launch resident found, ?_⟩
      rw [place]
      exact wakeGroup_placed (setPlace_placed _ _ _ _ _) _

/-! ### What a slot leaves of the issuing team -/

theorem Passes.team_fixed {s t : State} {evs : List Nat} (h : Passes s t evs) : t.team.fixed = s.team.fixed := by
  have team : t.grp.team = s.grp.team := (congrArg Group.team h.advances.group :)
  rw [State.team, team]
  exact h.frame.teams _

theorem Passes.cluster_eq {s t : State} {evs : List Nat} (h : Passes s t evs) : t.team.cluster = s.team.cluster :=
  (congrArg Team.cluster h.team_fixed :)

theorem Passes.launch_fixed {s t : State} {evs : List Nat} (h : Passes s t evs) : t.launch.fixed = s.launch.fixed := by
  have launch : t.team.launch = s.team.launch := (congrArg Team.launch h.team_fixed :)
  rw [State.launch, launch]
  exact h.frame.launches _

/-- Events owed are no part of what an instruction leaves. -/
theorem Passes.withAgenda {s t : State} {evs : List Nat} (h : Passes s t evs) (es : List Event) : Passes s { t with agenda := es } evs := by
  obtain ⟨⟨rest, groups, teams, launches⟩, ⟨cur, others, group, bad⟩, regs, preds, counted⟩ := h
  exact ⟨⟨rest, groups, teams, launches⟩, ⟨cur, others, group, bad⟩, regs, preds, counted⟩

/-- An instruction without a guard goes on at once for the active lanes when its operands stand ready. -/
theorem ReadyAll.verdict_go {s : State} {u : Use} {srcs : List Nat} (h : ReadyAll s srcs []) (legal : u.Legal s.active)
    (unguarded : u.guarded = false) (hs : u.srcs = srcs) (hd : u.dsts = []) (hsel : u.sel = none) :
    s.verdict u = .go { see := s.see u, t := s.active, w := 0, needs := [] } := by
  have lanes : s.lanesFor u = s.active := by simp [State.lanesFor, unguarded]
  have go := Machine.verdict_go s u (lanes ▸ legal) (by simpa [hs, hd, hsel] using h.free) (by rw [lanes, hs]; exact h.views)
    (by rw [lanes, hs]; exact h.whole)
  rwa [lanes] at go

/-! ### Fences and the instructions of a system context -/

theorem Use.legal_of_system {s : State} (sys : s.isSystem s.team.ctx = true) (srcs : List Nat) (t : Mask) :
    ({ guarded := false, priv := s.systemOnly, srcs := srcs } : Use).Legal t :=
  ⟨by simp [State.systemOnly, State.inSystem, sys], Nat.zero_ne_add_one 2, rfl, rfl, rfl, rfl⟩

/-- A request for pre-emption only owes its events. -/
theorem requestPreempt_eq (s : State) (w : Nat) (but : Option Nat) :
    s.requestPreempt w but = { s with agenda := (s.requestPreempt w but).agenda } := by
  have owes (xs : List (Nat × Team)) (u : State) : ∃ es, xs.foldl (fun s' (x : Nat × Team) =>
      if s'.agenda.contains (.preemption x.1) then s' else s'.owe (.preemption x.1)) u = { u with agenda := es } := by
    induction xs generalizing u with
    | nil => exact ⟨_, rfl⟩
    | cons x xs ih =>
      rw [List.foldl_cons]
      split
      · exact ih u
      · obtain ⟨es, h⟩ := ih (u.owe (.preemption x.1))
        exact ⟨es, h⟩
  unfold State.requestPreempt
  extract_lets die cl
  split
  · rfl
  · obtain ⟨es, h⟩ := owes (s.teams.filter (fun (_, t) => t.cluster == 2048 * die + cl && t.st == .resident && some t.launch != but)) s
    exact h ▸ rfl

theorem preempt_passes {s : State} {a : BitVec 6} (sys : s.isSystem s.team.ctx = true) (some : s.active ≠ 0) (ready : ReadyAll s [a.toNat] []) :
    ∃ t, exec (.preempt a) s = .next t ∧ Passes s t [] := by
  refine ⟨_, (exec_preempt a s).trans (run_go s _ _ (ready.verdict_go (Use.legal_of_system sys _ _) rfl rfl rfl rfl)), ?_⟩
  rw [if_neg some, requestPreempt_eq]
  exact (finish_passes s _ _ s.grp [] rfl rfl).of_setGrp_self.withAgenda _

theorem State.walking_eq_nil {s : State} (h : ∀ x ∈ s.walks, x.2.done = true) : s.walking = [] := by
  rw [State.walking, List.filter_eq_nil_iff.2 (fun x hx => by simp [h x hx])]
  rfl

/-- A cluster whose translation cache has lost the pages of a scope. -/
def Cluster.flush (scope ctx va : Nat) (c : Cluster) : Cluster := { c with tlb := c.tlb.filter (fun p => !p.flushed scope ctx va) }

theorem clusterOf_flushTlbs (s : State) (scope ctx va j : Nat) : (s.flushTlbs scope ctx va).clusterOf j = (s.clusterOf j).flush scope ctx va := by
  show (tfind (s.clusters.map (fun e => (e.1, e.2.flush scope ctx va))) j).getD {} = ((tfind s.clusters j).getD {}).flush scope ctx va
  rw [tfind_map (fun _ (c : Cluster) => c.flush scope ctx va)]
  cases tfind s.clusters j <;> rfl

/-- The translations of a scope are gone from every cluster, and no other came. -/
theorem flushTlbs_tlb {s : State} {scope ctx va j : Nat} {p : PagePin} (h : p ∈ ((s.flushTlbs scope ctx va).clusterOf j).tlb) :
    p ∈ (s.clusterOf j).tlb ∧ p.flushed scope ctx va = false := by
  rw [clusterOf_flushTlbs] at h
  simpa [Cluster.flush] using h

theorem tlbi_passes {s : State} {a b : BitVec 6} (sys : s.isSystem s.team.ctx = true) (ready : ReadyAll s (regs true a.toNat) []) :
    ((∀ ws, s.grp.cur.wait ≠ .flush ws) → (∀ x ∈ s.walks, x.2.done = true) → ∃ va t, exec (.tlbi a b) s = .next t ∧
      Passes (s.flushTlbs b.toNat s.team.ctx va) t []) ∧
    ∀ ws, s.grp.cur.wait = .flush ws → (∀ x ∈ s.walks, x.2.done = true ∨ x.1 ∉ ws) → ∃ t, exec (.tlbi a b) s = .next t ∧ Passes s t [] := by
  have run := (exec_tlbi a b s).trans (run_go s _ _ (ready.verdict_go (Use.legal_of_system sys _ _) rfl rfl rfl rfl))
  refine ⟨fun fresh ended => ?_, fun ws waits ended => ?_⟩
  · have all : s.walking.isEmpty = true := by rw [State.walking_eq_nil ended]; rfl
    refine ⟨(s.see { guarded := false, priv := s.systemOnly, srcs := regs true a.toNat }).val true a.toNat (lowest s.active), _, run, ?_⟩
    split
    · next ws waits => exact absurd waits (fresh ws)
    · rw [if_pos all]
      exact (finish_passes _ _ _ _ [] rfl rfl).of_setGrp_self
  · have none : ¬ ws.any s.walking.contains = true := by
      simp only [List.any_eq_true, List.contains_eq_mem, decide_eq_true_eq, State.walking, List.mem_map, List.mem_filter]
      rintro ⟨n, listed, x, ⟨hx, walks⟩, rfl⟩
      rcases ended x hx with h | h
      · simp [h] at walks
      · exact h listed
    refine ⟨_, run, ?_⟩
    simp only [waits]
    rw [if_neg none]
    exact (finish_passes s _ _ s.grp [] rfl rfl).of_setGrp_self

theorem fenceOp_clear {s : State} {u : Use} {io : Issue} {c : Cover} {scope : List CommonsWrite → List Scope} {wide : Bool} {w : Wait}
    {last : State → State} (idle : s.grp.sweeping = none) (flown : s.coveredInFlight c = false) (none : s.grp.coveredWrites c = []) :
    s.fenceOp u io c scope wide w last = last (s.finish u io s.grp) := by
  have swept : s.swept = .none := by rw [State.swept, idle]; rfl
  simp [State.fenceOp, flown, swept, none]

/-- Where the code range has been fetched anew, neither the group nor the cluster's instruction cache holds a word of it. -/
theorem refetchCode_drops (s : State) : s.refetchCode.grp.cur = s.grp.cur ∧ s.refetchCode.grp.ibuf = [] ∧
    ∀ x ∈ s.refetchCode.cluster.icache, inSpans s.launch.codeSpans x.1 = false := by
  let s1 := s.writeBackBytes s.team.cluster (fun a b => !b.commons && b.team == s.grp.team && inSpans s.launch.codeSpans a)
  let g := { s1.grp with ibuf := [], code := [] }
  let s2 := (s1.keepCode s.team.cluster s.launch).setGrp g
  have stores : Stores s s1 := (writesBack_writeBackBytes s s.team.cluster _).stores
  have grp : s.refetchCode.grp = g := State.grp_setGrp (s1.keepCode s.team.cluster s.launch) g
  have team : s.refetchCode.team = s.team := by
    rw [State.team, grp]
    show s1.teamOf s1.grp.team = _
    rw [stores.grp, State.teamOf, stores.teams]
    rfl
  refine ⟨?_, ?_, fun x hx => ?_⟩
  · rw [grp]
    exact (congrArg Group.cur stores.grp :)
  · rw [grp]
  · have cluster : s.refetchCode.cluster = { s2.clusterOf s.team.cluster with
        icache := (s2.clusterOf s.team.cluster).icache.filter (fun x => !inSpans s.launch.codeSpans x.1) } := by
      rw [State.cluster, team]
      exact (State.clusterOf_putCluster _ _ _ _).trans (if_pos rfl)
    rw [cluster] at hx
    simpa using (List.mem_filter.1 hx).2

theorem mem_lowest {m : Mask} (h : m ≠ 0) : lowest m ∈ lanesOf m := by
  have some : ((List.range 32).find? (fun l => m.getLsbD l)).isSome = true := by
    rw [List.find?_isSome]
    by_contra none
    exact h (BitVec.eq_of_getLsbD_eq fun l hl => by
      rw [show (0 : Mask).getLsbD l = false from BitVec.getLsbD_zero]
      exact Bool.eq_false_iff.2 fun set => none ⟨l, List.mem_range.2 hl, set⟩)
  obtain ⟨l, found⟩ := Option.isSome_iff_exists.1 some
  rw [lowest, found, Option.getD_some, mem_lanesOf]
  simpa using List.find?_some found

theorem lowest_lt {m : Mask} (h : m ≠ 0) : lowest m < 32 := lt_of_mem_lanesOf (mem_lowest h)

section
variable {s : State} (idle : s.grp.sweeping = none)
include idle

theorem fence_passes {r : BitVec 2} {k : BitVec 3} (flown : s.coveredInFlight (coverOf r k) = false)
    (none : s.grp.coveredWrites (coverOf r k) = []) : ∃ t, exec (.fence r k) s = .next t ∧ Passes s t [] := by
  refine ⟨_, (exec_fence r k s).trans ((Use.bare_stall 0).run s _), ?_⟩
  rw [fenceOp_clear idle flown none, id_eq]
  exact passes_finish_self s _ rfl

theorem fencei_passes {c : Cover} (hc : c = { classes := 7, loads := true, stores := true }) (flown : s.coveredInFlight c = false)
    (none : s.grp.coveredWrites c = []) : ∃ t, exec .fencei s = .next t ∧ t.grp.cur.pc = s.grp.cur.pc + 4 ∧ t.grp.ibuf = [] ∧
      ∀ x ∈ t.cluster.icache, inSpans s.launch.codeSpans x.1 = false := by
  let u : Use := { guarded := false }
  let io : Issue := { see := s.see u, t := s.active, w := 0, needs := [] }
  have run : exec .fencei s = .next (s.fenceOp u io c (fun _ => s.wholeScope) true .fence State.refetchCode) := by
    rw [hc]
    exact (exec_fencei s).trans ((Use.bare_stall 0).run s _)
  rw [fenceOp_clear idle flown none] at run
  have passes := passes_finish_self s u (io := io) rfl
  generalize s.finish u io s.grp = f at run passes
  obtain ⟨cur, ibuf, icache⟩ := refetchCode_drops f
  have spans : f.launch.codeSpans = s.launch.codeSpans := (congrArg Launch.codeSpans passes.launch_fixed :)
  rw [spans] at icache
  exact ⟨_, run, by rw [cur, passes.advances.cur], ibuf, icache⟩

theorem fencer_passes {a b : BitVec 6} {r : BitVec 2} {k : BitVec 3} {c : Cover} {base len : Nat}
    (ready : ReadyAll s (regs true a.toNat ++ regs true b.toNat) []) (some : s.active ≠ 0)
    (hbase : s.operand true a.toNat (lowest s.active) = base) (hlen : s.operand true b.toNat (lowest s.active) = len)
    (hc : c = { coverOf r k with range := .some (base, len) }) (fits : base + len ≤ 2 ^ 64)
    (flown : s.coveredInFlight c = false) (none : s.grp.coveredWrites c = []) : ∃ t, exec (.fencer a b r k) s = .next t ∧ Passes s t [] := by
  let u : Use := { guarded := false, srcs := regs true a.toNat ++ regs true b.toNat }
  have owed := ready_owed (u := u) ready.free rfl rfl
  have base' := (see_operand owed true (lowest_lt some) fun r hr => List.mem_append_left _ hr).trans hbase
  have len' := (see_operand owed true (lowest_lt some) fun r hr => List.mem_append_right _ hr).trans hlen
  have go := ready.verdict_go (u := u) ⟨rfl, Nat.zero_ne_add_one 2, rfl, rfl, rfl, rfl⟩ rfl rfl rfl rfl
  have run := (exec_fencer a b r k s).trans (run_go s u _ go)
  simp only [base', len', ← hc] at run
  rw [if_neg (Nat.not_lt.2 fits), fenceOp_clear idle flown none, id_eq] at run
  refine ⟨_, run, ?_⟩
  by_cases zero : len = 0
  · rw [if_pos zero]
    exact passes_finish_self s _ rfl
  · rw [if_neg zero]
    exact passes_finish_self s _ rfl

end

theorem fencesPass : Rules.FencesPass := by
  refine ⟨fun s a b sys some => ⟨preempt_passes sys some, fun ready => ⟨fun fresh ended => ?_, (tlbi_passes sys ready).2⟩⟩, fun s a b r k idle => ?_⟩
  · obtain ⟨va, t, run, passes⟩ := (tlbi_passes (b := b) sys ready).1 fresh ended
    refine ⟨_, t, run, passes, rfl, fun j p hp => ?_⟩
    obtain ⟨held, stays⟩ := flushTlbs_tlb hp
    refine ⟨held, fun hb same => ?_⟩
    simp [hb, PagePin.flushed, same] at stays
  · intro cover all clear base len
    exact ⟨fun _ covered => fence_passes idle covered.1 covered.2, fun _ covered => fencei_passes idle rfl covered.1 covered.2,
      fun ready some fits covered => fencer_passes idle ready some rfl rfl rfl fits covered.1 covered.2⟩

/-! ### The engine's queue -/

theorem State.maskCheck_none (s : State) (on : s.fullyOn = true) (see : Group) (needs : List (Nat × Nat × Nat)) :
    s.maskCheck { see := see, t := s.lanesT, w := 0, needs := needs } = none := by
  have on' : within s.grp.live (s.lanesT ||| 0) = true := by rw [show s.lanesT ||| 0 = s.lanesT from BitVec.or_zero]; exact on
  exact if_pos on'

/-- A matrix instruction that nothing holds and whose checks pass has its effect. -/
theorem matrixOp_acts {s : State} {srcs : List Nat} {hold : Bool} {check : Issue → Option (Nat × Nat)} {act : Use → Issue → State}
    (ready : Ready s srcs []) (on : s.fullyOn = true) (matrix : s.team.matrix = true) (some : s.lanesT ≠ 0) (free : hold = false)
    (checked : check (s.issuing { srcs := srcs }) = none) :
    s.matrixOp srcs hold check act = .next (act { srcs := srcs } (s.issuing { srcs := srcs })) := by
  have go : s.verdict { srcs := srcs } = .go (s.issuing { srcs := srcs }) := ready.verdict_go (by decide)
  have masked : s.matrixCheck (s.issuing { srcs := srcs }) = none := by
    rw [State.matrixCheck, State.issuing, s.maskCheck_none on, matrix]
    rfl
  rw [State.matrixOp, run_go s _ _ go]
  simp only [masked, if_neg (show ¬ (s.issuing { srcs := srcs }).t = 0 from some), free, checked, Bool.false_eq_true, if_false]

theorem postOp_enters (f : State) (op : EngOp) : ∃ r ∈ (f.postOp f.cur op).cluster.reserve, r.op = op ∧ r.engine = f.grp.core / 2 ∧
    r.group = f.cur ∧ r.id = f.nextId ∧ .passGrant f.team.cluster (f.grp.core / 2) ∈ (f.postOp f.cur op).agenda ∧
    (f.postOp f.cur op).grp = f.grp := by
  have cluster : (f.postOp f.cur op).cluster = (f.postOp f.cur op).clusterOf f.team.cluster := rfl
  have held : ((f.postOp f.cur op).clusterOf f.team.cluster).reserve = f.cluster.reserve ++ [_] :=
    (congrArg Cluster.reserve ((State.clusterOf_putCluster _ _ _ _).trans (if_pos rfl)) :)
  rw [cluster, held]
  exact ⟨_, List.mem_append_right _ (List.mem_singleton_self _), rfl, rfl, rfl, rfl, List.mem_append_right _ (List.mem_singleton_self _), rfl⟩

/-- An engine operation enters behind its instruction's slot, and whatever marks the slots that it is to read. -/
theorem enters_of_passes {s f0 f : State} {i : Instr} {op : EngOp} (run : exec i s = .next (f.postOp s.cur op)) (passes : Passes s f0 [])
    (marks : f.cur = f0.cur ∧ f.nextId = f0.nextId ∧ f.grp = f0.grp ∧ f.team = f0.team) {P : EngOp → Prop} (hP : P op) :
    ∃ t r, exec i s = .next t ∧ r ∈ t.cluster.reserve ∧ P r.op ∧ r.engine = s.grp.core / 2 ∧
      r.group = s.cur ∧ r.id = s.nextId ∧ .passGrant s.team.cluster (s.grp.core / 2) ∈ t.agenda ∧ t.grp.cur.pc = s.grp.cur.pc + 4 := by
  obtain ⟨cur0, nextId0, grp0, team0⟩ := marks
  have team : f.team.cluster = s.team.cluster := team0 ▸ passes.cluster_eq
  have cur : f.cur = s.cur := cur0.trans (congrArg State.cur passes.frame.rest :)
  have nextId : f.nextId = s.nextId := nextId0.trans (congrArg State.nextId passes.frame.rest :)
  have core : f.grp.core = s.grp.core := grp0 ▸ (congrArg Group.core passes.advances.group :)
  rw [← cur] at run ⊢
  obtain ⟨r, hr, rop, engine, group, id, owed, grp⟩ := postOp_enters f op
  rw [core] at engine owed
  rw [team] at owed
  refine ⟨_, r, run, hr, rop ▸ hP, engine, group, id.trans nextId, owed, ?_⟩
  rw [grp, grp0, passes.advances.cur]

theorem reserveRoom_of {s : State} (room : s.cluster.reserve.length < Config.reservations)
    (few : (s.cluster.reserve.filter (fun r => r.engine == s.grp.core / 2)).length < 12) : s.reserveRoom = true := by
  simp [State.reserveRoom, room, State.engineNum, few]

/-- The fields of the shape records and of the format word that `mma` compares. -/
theorem mmaCheck_none {s : State} {x y : OpSlot} {f : Nat} (hx : x.st = .loaded) (hy : y.st = .loaded)
    (roleA : shapeRole x.shape.toNat = 0) (roleB : shapeRole y.shape.toNat = 1) (kb : shapeKb x.shape.toNat = shapeKb y.shape.toNat)
    (named : bits f 31 26 = 0 ∧ bits f 15 10 = 0 ∧ bits f 2 0 = shapeFmt x.shape.toNat ∧ bit f 3 = shapeBl x.shape.toNat ∧
      bits f 6 4 = shapeFmt y.shape.toNat ∧ bit f 7 = shapeBl y.shape.toNat)
    (rate : rateClass (shapeFmt x.shape.toNat) = rateClass (shapeFmt y.shape.toNat)) (block : shapeBl x.shape.toNat = shapeBl y.shape.toNat)
    (plainA : bit f 8 = false) (plainB : bit f 9 = false) : s.mmaCheck x y f = none := by
  obtain ⟨h1, h2, h3, h4, h5, h6⟩ := named
  simp [State.mmaCheck, hx, hy, roleA, roleB, kb, h1, h2, h3, h4, h5, h6, rate, block, plainA, plainB]

/-- The effect of `mma` behind its checks. -/
def State.mmaAct (s : State) (a b : BitVec 6) (c : BitVec 5) (d : BitVec 6) (u : Use) (io : Issue) : State :=
  let word := io.see.reg c.toNat (lowest io.t)
  let f := word.toNat
  let o := 64 * bits f 25 16
  if !s.reserveRoom then s.stand
  else if s.scalesBad f then s.meetBad.stand
  else
    let s1 := s.finish u io s.grp
    let c1 := (s1.cluster.addReader (s.slotNum a.toNat) true).addReader (s.slotNum b.toNat) true
    (s1.setCluster c1).postOp s.cur (.pass d.toNat (s.slotNum a.toNat) (s.slotNum b.toNat) s.grp.core word
      (s.scales (bit f 8) o) (s.scales (bit f 9) (o + 64)))

theorem State.mmaAct_enters (s : State) (a b d : BitVec 6) {c : BitVec 5} {u : Use} {io : Issue} {w : Word}
    (reads : io.see.reg c.toNat (lowest io.t) = w) (free : s.reserveRoom = true) (whole : s.scalesBad w.toNat = false) :
    s.mmaAct a b c d u io = ((s.finish u io s.grp).setCluster
      (((s.finish u io s.grp).cluster.addReader (s.slotNum a.toNat) true).addReader (s.slotNum b.toNat) true)).postOp s.cur
        (.pass d.toNat (s.slotNum a.toNat) (s.slotNum b.toNat) s.grp.core w
          (s.scales (bit w.toNat 8) (64 * bits w.toNat 25 16)) (s.scales (bit w.toNat 9) (64 * bits w.toNat 25 16 + 64))) := by
  subst reads
  simp only [State.mmaAct, free, whole, Bool.not_true, Bool.false_eq_true, if_false]

theorem engineOperationsEnter : Rules.EngineOperationsEnter := by
  intro s d a b c on matrix some e room few enters
  have free := reserveRoom_of room few
  refine ⟨fun ready => ⟨?_, ?_⟩, fun ready => ?_⟩
  · have run := matrixOp_acts (hold := !s.reserveRoom) (check := fun _ => none)
      (act := fun u io => (s.finish u io s.grp).postOp s.cur (.zero d.toNat)) ready on matrix some (by rw [free]; rfl) rfl
    exact enters_of_passes ((exec_mzero d s).trans run) (passes_finish_self s {} rfl) ⟨rfl, rfl, rfl, rfl⟩ (P := (· = _)) rfl
  · have run := matrixOp_acts (hold := !s.reserveRoom) (check := fun _ => none)
      (act := fun u io => (s.finish u io s.grp).postOp s.cur (.acc d.toNat a.toNat)) ready on matrix some (by rw [free]; rfl) rfl
    exact enters_of_passes ((exec_macc d a s).trans run) (passes_finish_self s {} rfl) ⟨rfl, rfl, rfl, rfl⟩ (P := (· = _)) rfl
  · intro ka kb x y ra rb f cls loadedA loadedB freeA freeB roleA roleB same hi mid scales fmtA blA fmtB blB rate block
    have reads : (s.issuing { srcs := [c.toNat] }).see.reg c.toNat (lowest s.lanesT) = s.source c.toNat (lowest s.lanesT) :=
      ready.see_reg (by decide) List.mem_cons_self (lowest_lt some)
    have lt : f < 2 ^ 32 := (s.source c.toNat (lowest s.lanesT)).isLt
    have ra_lt : ra < 2 ^ 32 := x.shape.isLt
    have rb_lt : rb < 2 ^ 32 := y.shape.isLt
    have class_eq (r : Nat) : cls r = rateClass (shapeFmt r) := by
      show _ = rateClass (r / 2 ^ 27 % 8)
      simp only [cls]
      have lt8 : r / 2 ^ 27 % 8 < 8 := Nat.mod_lt _ (by decide)
      generalize r / 2 ^ 27 % 8 = m at lt8 ⊢
      interval_cases m <;> rfl
    rw [class_eq, class_eq] at rate
    have bit_eq {m n k l : Nat} (h : m / 2 ^ k % 2 = n / 2 ^ l % 2) : bit m k = bit n l := by simp only [bit, h]
    have clear {k : Nat} (h : f / 2 ^ k % 2 = 0) : bit f k = false := by simp only [bit, h]; rfl
    have roleA' : bits ra 31 30 = 0 := by simp only [bits]; omega
    have roleB' : bits rb 31 30 = 1 := by simp only [bits]; omega
    have same' : bits ra 3 0 = bits rb 3 0 := by simpa [bits] using same
    have fmtA' : bits f 2 0 = shapeFmt ra := by simpa [bits, shapeFmt] using fmtA
    have fmtB' : bits f 6 4 = shapeFmt rb := by simpa [bits, shapeFmt] using fmtB
    have hi' : bits f 31 26 = 0 := by simp only [bits]; omega
    have mid' : bits f 15 10 = 0 := mid
    have plainA : bit f 8 = false := clear (by omega)
    have plainB : bit f 9 = false := clear (by rw [show f / 2 ^ 9 = f / 2 ^ 8 / 2 from (Nat.div_div_eq_div_mul _ _ _).symm]; omega)
    have checked : s.mmaCheck x y f = none :=
      mmaCheck_none loadedA loadedB roleA' roleB' same' ⟨hi', mid', fmtA', bit_eq blA, fmtB', bit_eq blB⟩ rate (bit_eq block)
        plainA plainB
    let u : Use := { srcs := [c.toNat] }
    have run := matrixOp_acts (hold := (s.opSlot a.toNat).busy || (s.opSlot b.toNat).busy)
      (check := fun io => s.mmaCheck (s.opSlot a.toNat) (s.opSlot b.toNat) (io.see.reg c.toNat (lowest io.t)).toNat)
      (act := s.mmaAct a b c d) ready on matrix some (Bool.or_eq_false_iff.2 ⟨freeA, freeB⟩)
      ((congrArg (fun w : Word => s.mmaCheck x y w.toNat) reads).trans checked)
    have whole : s.scalesBad f = false := by simp only [State.scalesBad, plainA, plainB, Bool.false_and, Bool.or_self]
    have act := s.mmaAct_enters a b d (c := c) (u := u) reads free whole
    rw [act] at run
    exact enters_of_passes (P := fun op => ∃ u v, op = .pass d.toNat ka kb s.grp.core (s.source c.toNat (lowest s.lanesT)) u v)
      ((exec_mma d a b c s).trans run) (passes_finish_self s u rfl) ⟨rfl, rfl, rfl, rfl⟩ ⟨_, _, rfl⟩

/-! ### What leaves groups and the list of copies alone -/

/-- From s to t no group changes, and the same copies are listed. -/
structure KeepsCopies (s t : State) : Prop where
  groups : t.groups = s.groups
  cur : t.cur = s.cur
  copies : ∀ x, (tfind t.copies x).isSome = (tfind s.copies x).isSome

theorem KeepsCopies.refl (s : State) : KeepsCopies s s := ⟨rfl, rfl, fun _ => rfl⟩

theorem KeepsCopies.trans {s t u : State} (h : KeepsCopies s t) (h' : KeepsCopies t u) : KeepsCopies s u :=
  ⟨h'.groups.trans h.groups, h'.cur.trans h.cur, fun x => (h'.copies x).trans (h.copies x)⟩

theorem KeepsCopies.foldl {β : Type} {f : State → β → State} (h : ∀ s x, KeepsCopies s (f s x)) (l : List β) (s : State) :
    KeepsCopies s (l.foldl f s) := by
  induction l generalizing s with
  | nil => exact .refl s
  | cons x l ih => exact (h s x).trans (ih _)

theorem KeepsCopies.grp {s t : State} (h : KeepsCopies s t) : t.grp = s.grp := by
  unfold State.grp State.group
  rw [h.groups, h.cur]

theorem KeepsCopies.of_eq {s t : State} (groups : t.groups = s.groups) (cur : t.cur = s.cur) (copies : t.copies = s.copies) :
    KeepsCopies s t := ⟨groups, cur, fun x => by rw [copies]⟩

theorem Stores.keepsCopies {s t : State} (h : Stores s t) : KeepsCopies s t :=
  .of_eq h.groups h.cur (congrArg State.copies h.eq :)

theorem Sends.keepsCopies {s t : State} (h : Sends s t) : KeepsCopies s t :=
  .of_eq (congrArg State.groups h :) (congrArg State.cur h :) (congrArg State.copies h :)

theorem Departs.keepsCopies {n : Nat} {s t : State} (h : Departs n s t) : KeepsCopies s t :=
  .of_eq (congrArg State.groups h.eq :) (congrArg State.cur h.eq :) (congrArg State.copies h.eq :)

theorem keepsCopies_oweOnce (s : State) (e : Event) : KeepsCopies s (s.oweOnce e) := (departs_oweOnce 0 s e).keepsCopies

theorem keepsCopies_stopDomain (s : State) (fd : Nat × Nat) : KeepsCopies s (s.stopDomain fd) := .of_eq rfl rfl rfl

/-- A listed copy written again. -/
theorem keepsCopies_tput {s : State} {x : Nat} (listed : (tfind s.copies x).isSome = true) (c : Copy) :
    KeepsCopies s { s with copies := tput s.copies x c } where
  groups := rfl
  cur := rfl
  copies y := by
    show (tfind (tput s.copies x c) y).isSome = _
    rw [tfind_tput]
    split
    · next h => rw [h, listed]; rfl
    · rfl

theorem stores_setHomeLe (s : State) (loc v n : Nat) : Stores s (s.setHomeLe loc v n) := by
  induction n generalizing loc v with
  | zero => exact .refl s
  | succ n ih => exact (ih _ _).trans (stores_setHomeByte _ _ _)

theorem stores_writeThrough (s : State) (cl loc v n : Nat) : Stores s (s.writeThrough cl loc v n) := by
  unfold State.writeThrough
  extract_lets s1 c
  split
  · exact (stores_setHomeLe s loc v n).trans (stores_putCluster _ _ _)
  · exact stores_setHomeLe s loc v n

theorem noteDrained_keepsCopies (line : Nat) (s : State) (u : Nat × Txn) : KeepsCopies s (s.noteDrained line u) := by
  have noted : KeepsCopies s { s with txns := tput s.txns u.1 (u.2.drained line) } := .of_eq rfl rfl rfl
  simp only [State.noteDrained]
  split
  · exact noted.trans (keepsCopies_oweOnce _ _)
  · exact noted

theorem drainLine_keepsCopies (s : State) (cl line : Nat) : KeepsCopies s (s.drainLine cl line) := by
  unfold State.drainLine
  dsimp only
  split
  · exact .refl s
  · next l found =>
    have home : Stores s ((l.bytes.foldl (fun s' (x : Nat × Byte) => s'.writeThrough cl x.1 x.2.toNat 1)
        (s.putCluster cl { s.clusterOf cl with wc := tdel (s.clusterOf cl).wc line })).cleansed (l.bytes.map (·.1))) :=
      ((stores_putCluster s cl _).trans (.foldl (fun s x => stores_writeThrough s cl _ _ _) l.bytes _)).trans (stores_cleansed _ _)
    exact home.keepsCopies.trans (.foldl (fun s u => noteDrained_keepsCopies line s u) _ _)

theorem enterAccess_keepsCopies (s : State) {t : Txn} (apart : t.commons = false) : KeepsCopies s (s.enterAccess t).1 := by
  unfold State.enterAccess
  extract_lets s1 r t1 id
  have drained : KeepsCopies s s1 := .foldl (fun s p => drainLine_keepsCopies s _ _) _ s
  have served : KeepsCopies s r.1 :=
    drained.trans ((writesBack_backOwn s1 t).stores.trans (caches_serveHere apart _ _ _).stores).keepsCopies
  split
  · exact served
  · have entered : KeepsCopies r.1 { r.1 with txns := tput r.1.txns id t1, nextId := id + 1 } := .of_eq rfl rfl rfl
    exact (served.trans entered).trans (departs_depart (y := t1) (by rw [tfind_tput, if_pos rfl])).keepsCopies

theorem askSources_keepsCopies {s : State} {x : Nat} (listed : (tfind s.copies x).isSome = true) (c : Copy) (ps : List Piece) :
    KeepsCopies s (s.askSources x c ps).1 := by
  unfold State.askSources
  extract_lets need r c1
  split
  · exact keepsCopies_tput listed c
  · have asked : KeepsCopies s r.1 := enterAccess_keepsCopies s rfl
    exact asked.trans (keepsCopies_tput ((asked.copies x).trans listed) c1)

theorem stores_dropBytes (s : State) (cl : Nat) (p : Nat → CByte → Bool) : Stores s (s.dropBytes cl p) := stores_putCluster _ _ _

theorem stores_dropCopy (s : State) (cl line : Nat) : Stores s (s.dropCopy cl line) := by
  unfold State.dropCopy
  split
  · exact .refl s
  · exact stores_dropBytes _ _ _

theorem tidy_keepsCopies (s : State) (line : Nat) : KeepsCopies s (s.tidy line) := by
  unfold State.tidy
  split <;> exact .of_eq rfl rfl rfl

theorem wakeLine_keepsCopies (s : State) (line : Nat) : KeepsCopies s (s.wakeLine line) := by
  unfold State.wakeLine
  split
  · exact keepsCopies_oweOnce _ _
  · exact .refl s

theorem putCat_keepsCopies (s : State) (line : Nat) (c : CatLine) : KeepsCopies s (s.putCat line c) := .of_eq rfl rfl rfl

theorem freeLine_keepsCopies (s : State) (line : Nat) : KeepsCopies s (s.freeLine line) := by
  unfold State.freeLine
  split
  · exact ((putCat_keepsCopies _ _ _).trans (wakeLine_keepsCopies _ _)).trans (tidy_keepsCopies _ _)
  · exact .refl s

theorem landWriteBack_keepsCopies (s : State) (n : Nat) (m : CMsg) : KeepsCopies s (s.landWriteBack n m) := by
  unfold State.landWriteBack
  extract_lets s1 c s2 s3
  have home : KeepsCopies s s1 := ((Stores.foldl (fun s x => stores_setHomeByte s _ _) m.data s).trans (stores_cleansed _ _)).keepsCopies
  have catalogued : KeepsCopies s s2 := by
    unfold s2
    split
    · exact home.trans (putCat_keepsCopies _ _ _)
    · exact home
  have noted : KeepsCopies s s3 := catalogued.trans (.of_eq rfl rfl rfl)
  split
  · exact noted.trans (freeLine_keepsCopies _ _)
  · exact noted.trans (tidy_keepsCopies _ _)

theorem stores_returnLine (s : State) (cl line : Nat) : Stores s (s.returnLine cl line) :=
  (writesBack_writeBackBytes s cl _).stores.trans (stores_cleansed _ _)

theorem settleLine_keepsCopies (s : State) (line : Nat) : KeepsCopies s (s.settleLine line) := by
  unfold State.settleLine
  extract_lets s1 c s2
  have landed : KeepsCopies s s1 := by
    refine .foldl (fun s x => ?_) _ s
    exact KeepsCopies.trans (t := s.takeC x.1) (.of_eq rfl rfl rfl) (landWriteBack_keepsCopies (s.takeC x.1) x.1 x.2)
  split
  · have returned : Stores s1 s2 := (stores_returnLine _ _ _).trans (stores_dropBytes _ _ _)
    exact ((landed.trans returned.keepsCopies).trans (putCat_keepsCopies _ _ _)).trans (tidy_keepsCopies _ _)
  · exact landed

theorem clearLines_keepsCopies (s : State) (c : Copy) (ps : List Piece) : KeepsCopies s (s.clearLines c ps) := by
  refine .foldl (fun s l => ?_) _ s
  split
  · refine KeepsCopies.trans ?_ (stores_dropCopy _ _ _).keepsCopies
    split
    · exact settleLine_keepsCopies s l
    · exact .refl s
  · exact ((writesBack_writeBackBytes s c.cluster _).stores.trans (stores_dropBytes _ _ _)).keepsCopies

theorem fillChunk_keepsCopies (s : State) (n : Nat) : KeepsCopies s (s.fillChunk n) := by
  unfold State.fillChunk
  split
  · exact .refl s
  · extract_lets c ps vs s1 k1
    split
    · exact .refl s
    · split
      · exact keepsCopies_stopDomain _ _
      · have cleared : KeepsCopies s { s1 with chunks := tput s1.chunks n k1 } := (clearLines_keepsCopies s c ps).trans (.of_eq rfl rfl rfl)
        exact cleared.trans (sends_inject _ _ rfl rfl).keepsCopies

/-- A reducing copy takes up its chunks, and stays listed. -/
theorem sendChunks_keepsCopies (s : State) (x : Nat) (fuel : Nat) : KeepsCopies s (s.sendChunks x fuel) := by
  induction fuel generalizing s with
  | zero => exact .refl s
  | succ fuel ih =>
    rw [State.sendChunks]
    cases listed : tfind s.copies x with
    | none => exact .refl s
    | some c =>
      dsimp only
      cases (chunkLists c.pieces)[c.sent]? with
      | none => exact .refl s
      | some ps =>
        dsimp only
        split
        · exact .refl s
        · refine (KeepsCopies.trans ?_ (fillChunk_keepsCopies _ _)).trans (ih _)
          refine KeepsCopies.trans (t := { s with chunks := tput s.chunks s.nextId _, nextId := s.nextId + 1 }) (.of_eq rfl rfl rfl)
            (askSources_keepsCopies ?_ _ _)
          exact Option.isSome_iff_exists.2 ⟨c, listed⟩

/-! ### Operands and descriptors of a transfer -/

theorem firstTrap_none {xs : List (Option (Nat × Nat))} (h : ∀ x ∈ xs, x = none) : firstTrap xs = none := by
  induction xs with
  | nil => rfl
  | cons x xs ih =>
    rw [h x List.mem_cons_self]
    exact ih fun y hy => h y (List.mem_cons_of_mem _ hy)

section
variable {s : State} {code o n : Nat} {write : Bool} (serves : Rules.operandServes s code write o n)
include serves

theorem operandCheck_none : s.operandCheck code write = none := by
  unfold State.operandCheck
  split
  · next region => exact regionCheck_of_serves (serves.1 (by simpa [isRegion] using region)).1
  · rfl

theorem regionLeft_none (lane : Nat) : s.regionLeft code o n lane = none := by
  refine if_neg fun left => ?_
  simp only [isRegion, Bool.and_eq_true, decide_eq_true_eq] at left
  exact absurd (serves.1 left.1).2 (by omega)

theorem windowLeft_none (lane : Nat) : s.windowLeft code o n lane = none := by
  obtain ⟨-, local_, cluster⟩ := serves
  unfold State.windowLeft
  split
  · next h =>
    have inside : s.team.inLocal o n = true := by simpa [Rules.inWindow, Team.inLocal, and_assoc] using local_ h
    rw [if_pos inside]
  · split
    · next h =>
      obtain ⟨fits, b, found, mode⟩ := cluster h
      have inside : s.team.inBanks o n = true := by simp [Team.inBanks, fits, found, mode]
      rw [if_pos inside]
    · rfl

end

/-- Word j of the descriptor quad b in lane l. -/
def State.quadWord (s : State) (b j l : Nat) : Nat := (s.source (b + j) l).toNat

/-- Where lane l's descriptor starts to read. -/
def State.readsFrom (s : State) (b l : Nat) : Nat := s.quadWord b 0 l + s.quadWord b 1 l % 2 ^ 8 * 2 ^ 32

/-- Where it starts to write. -/
def State.writesFrom (s : State) (b l : Nat) : Nat := s.quadWord b 2 l + s.quadWord b 3 l % 2 ^ 8 * 2 ^ 32

/-- What a transfer instruction needs. -/
def transferUse (dst src b : Nat) : Use := { srcs := operandCodes dst ++ operandCodes src ++ quadRegs b }

section
variable {s : State} {dst src b : Nat} (ready : Ready s (operandCodes dst ++ operandCodes src ++ quadRegs b) [])
include ready

theorem transfer_go : s.verdict (transferUse dst src b) = .go (s.issuing (transferUse dst src b)) := ready.verdict_go (by decide)

theorem transfer_quadWords {l : Nat} (hl : l < 32) : (s.see (transferUse dst src b)).quadWords b l =
    (s.quadWord b 0 l, s.quadWord b 1 l, s.quadWord b 2 l, s.quadWord b 3 l) := by
  have reads (j : Nat) (hj : b + j ∈ quadRegs b) : (s.see (transferUse dst src b)).reg (b + j) l = s.source (b + j) l :=
    ready.see_reg (by decide) (List.mem_append_right _ hj) hl
  have h0 : (s.see (transferUse dst src b)).reg b l = s.source b l := reads 0 (by simp [quadRegs])
  have h1 := reads 1 (by simp [quadRegs])
  have h2 := reads 2 (by simp [quadRegs])
  have h3 := reads 3 (by simp [quadRegs])
  simp only [Group.quadWords, State.quadWord, h0, h1, h2, h3, Nat.add_zero]

theorem transfer_laneCopy {l : Nat} (hl : l < 32) (high : s.quadWord b 1 l / 2 ^ 8 = 0) (clear : s.quadWord b 3 l / 2 ^ 12 % 16 = 0)
    (size : s.quadWord b 3 l / 2 ^ 8 % 16 ≤ 4) (hsrc : s.readsFrom b l % 2 ^ (s.quadWord b 3 l / 2 ^ 8 % 16) = 0)
    (hdst : s.writesFrom b l % 2 ^ (s.quadWord b 3 l / 2 ^ 8 % 16) = 0) :
    laneCopy (s.see (transferUse dst src b)) b l =
      { lane := l, src := s.readsFrom b l, dst := s.writesFrom b l, n := 2 ^ (s.quadWord b 3 l / 2 ^ 8 % 16), bad := false } := by
  have low (w : Nat) : bits w 7 0 = w % 2 ^ 8 := by simp [bits]
  have high' : bits (s.quadWord b 1 l) 31 8 = 0 := by simp only [bits, high, Nat.zero_mod]
  have size_eq : bits (s.quadWord b 3 l) 11 8 = s.quadWord b 3 l / 2 ^ 8 % 16 := rfl
  have clear' : bits (s.quadWord b 3 l) 15 12 = 0 := clear
  have src_eq : s.quadWord b 0 l + s.quadWord b 1 l % 2 ^ 8 * 2 ^ 32 = s.readsFrom b l := rfl
  have dst_eq : s.quadWord b 2 l + s.quadWord b 3 l % 2 ^ 8 * 2 ^ 32 = s.writesFrom b l := rfl
  simp only [laneCopy, transfer_quadWords ready hl, low, high', size_eq, clear', src_eq, dst_eq, hsrc, hdst]
  simpa using size

theorem transfer_bulkCopy {l : Nat} (hl : l < 32) (clear : s.quadWord b 3 l / 2 ^ 8 % 256 = 0) (some : s.quadWord b 1 l / 2 ^ 8 * 16 ≠ 0)
    (hsrc : s.readsFrom b l % 16 = 0) (hdst : s.writesFrom b l % 16 = 0) :
    bulkCopy (s.see (transferUse dst src b)) b l = (s.readsFrom b l, s.writesFrom b l, s.quadWord b 1 l / 2 ^ 8 * 16, false) := by
  have low (w : Nat) : bits w 7 0 = w % 2 ^ 8 := by simp [bits]
  have lt : s.quadWord b 1 l < 2 ^ 32 := (s.source (b + 1) l).isLt
  have len_eq : bits (s.quadWord b 1 l) 31 8 = s.quadWord b 1 l / 2 ^ 8 := by
    simp only [bits]
    omega
  have clear' : bits (s.quadWord b 3 l) 15 8 = 0 := clear
  have src_eq : s.quadWord b 0 l + s.quadWord b 1 l % 2 ^ 8 * 2 ^ 32 = s.readsFrom b l := rfl
  have dst_eq : s.quadWord b 2 l + s.quadWord b 3 l % 2 ^ 8 * 2 ^ 32 = s.writesFrom b l := rfl
  simp only [bulkCopy, transfer_quadWords ready hl, low, len_eq, clear', src_eq, dst_eq, hsrc, hdst]
  simpa using some

end

/-! ### A transfer enters -/

theorem enterTransfer_enters (s : State) (u : Use) {io : Issue} (parks : io.w = 0) (c : Copy) (reads writes : List (Nat × Nat)) :
    (tfind (s.enterTransfer u io c reads writes).1.copies s.nextId).isSome = true ∧
      tget 0 (s.enterTransfer u io c reads writes).1.grp.count 4 = tget 0 s.grp.count 4 + 1 ∧
      (s.enterTransfer u io c reads writes).1.grp.cur.pc = s.grp.cur.pc + 4 := by
  unfold State.enterTransfer
  extract_lets id g foot commons g1
  let s1 := { s with copies := tput s.copies id c, nextId := id + 1 }.setGrp g1
  have grp : s1.grp = g1 := State.grp_setGrp _ _
  have advances := finish_advances s1 u io g1 [] parks (congrArg Group.cur grp).symm (congrArg Group.rest grp).symm
    (congrArg Group.fixed grp).symm (by rw [grp]; exact fun _ h => h)
  have copies : (s1.finish u io g1 []).copies = tput s.copies id c := (congrArg State.copies (finish_frame s1 u io g1 []).rest :)
  refine ⟨?_, ?_, ?_⟩
  · show (tfind (s1.finish u io g1 []).copies s.nextId).isSome = true
    rw [copies, tfind_tput, if_pos rfl]
    rfl
  · show tget 0 (s1.finish u io g1 []).grp.count 4 = _
    rw [finish_count]
    show tget 0 (mset 0 s.grp.count 4 (tget 0 s.grp.count 4 + 1)) 4 = _
    rw [tget_mset, if_pos rfl]
  · show (s1.finish u io g1 []).grp.cur.pc = _
    rw [advances.cur, grp]
    rfl

/-- A copy instruction puts its copy in the table and goes on. -/
def State.Enters (s : State) (i : Instr) : Prop :=
  ∃ t, exec i s = .next t ∧ (tfind t.copies s.nextId).isSome = true ∧ tget 0 t.grp.count 4 = tget 0 s.grp.count 4 + 1 ∧
    t.grp.cur.pc = s.grp.cur.pc + 4

theorem enters_of_transfer {s t : State} {i : Instr} {u : Use} {io : Issue} (parks : io.w = 0) {c : Copy} {reads writes : List (Nat × Nat)}
    (run : exec i s = .next t) (keeps : KeepsCopies (s.enterTransfer u io c reads writes).1 t) : s.Enters i := by
  obtain ⟨listed, count, pc⟩ := enterTransfer_enters s u parks c reads writes
  refine ⟨t, run, (keeps.copies _).trans listed, ?_, ?_⟩
  · rw [keeps.grp, count]
  · rw [keeps.grp, pc]

/-! ### The control word of a transfer -/

theorem ctrlOf_good {c : Nat} (alone : c / 2 ^ 30 % 4 ≠ 1) (mid : c / 2 ^ 28 % 4 = 0) (low : c / 2 ^ 16 % 16 = 0) : (ctrlOf c).bad = false := by
  have flags : (bit c 30 && !bit c 31) = false := by
    simp only [bit, Bool.and_eq_false_iff, beq_eq_false_iff_ne, Bool.not_eq_false', beq_iff_eq]
    omega
  have mid' : bits c 29 28 = 0 := mid
  have low' : bits c 19 16 = 0 := low
  simp [ctrlOf, flags, mid', low']

theorem barrierCheck_none {s : State} {c : Nat} (lt : c < 2 ^ 32)
    (started : c / 2 ^ 31 = 1 → (tget ({} : Barrier) s.team.w (c / 2 ^ 24 % 16)).init = true) :
    s.barrierCheck (ctrlOf c) = none := by
  refine if_neg fun h => ?_
  simp only [ctrlOf, Bool.and_eq_true, bit, beq_iff_eq, Bool.not_eq_true'] at h
  have init := started (by omega)
  exact absurd (init.symm.trans h.2) (by decide)

/-! ### Lane copies -/

/-- The copy that a sound descriptor orders for a lane. -/
def State.laneOrder (s : State) (b l : Nat) : LaneCopy :=
  { lane := l, src := s.readsFrom b l, dst := s.writesFrom b l, n := 2 ^ (s.quadWord b 3 l / 2 ^ 8 % 16), bad := false }

/-- A lane's descriptor is sound, and the operands serve it. -/
structure State.LaneSound (s : State) (dst src b l : Nat) : Prop where
  high : s.quadWord b 1 l / 2 ^ 8 = 0
  clear : s.quadWord b 3 l / 2 ^ 12 % 16 = 0
  size : s.quadWord b 3 l / 2 ^ 8 % 16 ≤ 4
  reads : s.readsFrom b l % 2 ^ (s.quadWord b 3 l / 2 ^ 8 % 16) = 0
  writes : s.writesFrom b l % 2 ^ (s.quadWord b 3 l / 2 ^ 8 % 16) = 0
  srcServes : Rules.operandServes s src false (s.readsFrom b l) (2 ^ (s.quadWord b 3 l / 2 ^ 8 % 16))
  dstServes : Rules.operandServes s dst true (s.writesFrom b l) (2 ^ (s.quadWord b 3 l / 2 ^ 8 % 16))

/-- The copy that sound descriptors order. -/
def State.laneCopies (s : State) (dst src b : Nat) (ctl : Ctrl) : Copy :=
  let ps := (lanesOf s.lanesT).flatMap (fun x => s.movePieces x src (s.readsFrom b x) dst (s.writesFrom b x)
    [(0, 2 ^ (s.quadWord b 3 x / 2 ^ 8 % 16))])
  { s.copyOf .cpl src dst ctl with
    pieces := ps
    ranges := (lanesOf s.lanesT).map (fun x => (x, s.operandAddr src (s.readsFrom b x), 2 ^ (s.quadWord b 3 x / 2 ^ 8 % 16)))
    bytes := ((lanesOf s.lanesT).map (fun x => 2 ^ (s.quadWord b 3 x / 2 ^ 8 % 16))).sum
    strong := ps.any (fun q => q.stype == 3 || q.dtype == 3) }

/-- What a sound descriptor orders passes every check. -/
theorem laneChecks_none {s : State} {dst src b : Nat} (sound : ∀ l, s.lanesT.getLsbD l = true → s.LaneSound dst src b l) (some : s.lanesT ≠ 0)
    {ctl : Ctrl} (good : ctl.bad = false) (plain : ctl.et = 0) (started : s.barrierCheck ctl = none) :
    let ls := (lanesOf s.lanesT).map (s.laneOrder b)
    firstTrap ([(ls.find? (·.bad)).map (fun l => (0x10, 160 + l.lane)), (if ctl.bad ∨ ctl.et ≠ 0 then Option.some (0x10, 192) else none),
      s.barrierCheck ctl, s.operandCheck src false, s.operandCheck dst true] ++
      ls.flatMap (fun l => [s.regionLeft src l.src l.n l.lane, s.regionLeft dst l.dst l.n l.lane]) ++
      ls.flatMap (fun l => [s.windowLeft src l.src l.n l.lane, s.windowLeft dst l.dst l.n l.lane])) = none := by
  intro ls
  have serves (l : LaneCopy) (hl : l ∈ ls) : Rules.operandServes s src false l.src l.n ∧ Rules.operandServes s dst true l.dst l.n := by
    obtain ⟨x, hx, rfl⟩ := List.mem_map.1 hl
    have lane := sound x (mem_lanesOf.1 hx)
    exact ⟨lane.srcServes, lane.dstServes⟩
  have first := serves _ (List.mem_map_of_mem (mem_lowest some))
  have none_bad : ls.find? (·.bad) = none := List.find?_eq_none.2 fun l hl => by
    obtain ⟨x, -, rfl⟩ := List.mem_map.1 hl
    exact Bool.false_ne_true
  refine firstTrap_none fun x hx => ?_
  simp only [List.mem_append, List.mem_flatMap, List.mem_cons, List.not_mem_nil, or_false] at hx
  rcases hx with ((rfl | rfl | rfl | rfl | rfl) | ⟨l, hl, rfl | rfl⟩) | ⟨l, hl, rfl | rfl⟩
  · rw [none_bad]; rfl
  · rw [if_neg (by simp [good, plain])]
  · exact started
  · exact operandCheck_none first.1
  · exact operandCheck_none first.2
  · exact regionLeft_none (serves l hl).1 _
  · exact regionLeft_none (serves l hl).2 _
  · exact windowLeft_none (serves l hl).1 _
  · exact windowLeft_none (serves l hl).2 _

/-- `cpl` of sound descriptors enters a transfer, unless something holds it. -/
theorem exec_cpl_of_sound {s : State} {d a b : BitVec 6} {io : Issue} {ctl : Ctrl}
    (go : s.verdict (transferUse d.toNat a.toNat b.toNat) = .go io) (lanes : io.t = s.lanesT)
    (orders : (lanesOf s.lanesT).map (laneCopy io.see b.toNat) = (lanesOf s.lanesT).map (s.laneOrder b.toNat))
    (control : ctrlOf (io.see.quadWords b.toNat (lowest s.lanesT)).2.2.2 = ctl) (masked : s.maskCheck io = none)
    (some : s.lanesT ≠ 0) (sound : ∀ l, s.lanesT.getLsbD l = true → s.LaneSound d.toNat a.toNat b.toNat l)
    (good : ctl.bad = false) (plain : ctl.et = 0) (started : s.barrierCheck ctl = none)
    (free : s.transferHeld (s.laneCopies d.toNat a.toNat b.toNat ctl)
      ((lanesOf s.lanesT).map (fun x => (s.operandAddr a.toNat (s.readsFrom b.toNat x), 2 ^ (s.quadWord b.toNat 3 x / 2 ^ 8 % 16))))
      ((lanesOf s.lanesT).map (fun x => (s.operandAddr d.toNat (s.writesFrom b.toNat x), 2 ^ (s.quadWord b.toNat 3 x / 2 ^ 8 % 16)))) = false) :
    ∃ u c reads writes e, exec (.cpl d a b) s = .next ((s.enterTransfer u io c reads writes).1.owe e) := by
  have run := (exec_cpl d a b s).trans (run_go s _ _ go)
  rw [masked] at run
  dsimp only at run
  rw [if_neg (lanes ▸ some), lanes, orders, control, laneChecks_none sound some good plain started] at run
  simp only [List.flatMap_map, List.map_map, Function.comp_def] at run
  exact ⟨_, _, _, _, _, run.trans (congrArg _ (if_neg (Bool.eq_false_iff.1 free)))⟩

theorem cpl_enters {s : State} {d a b : BitVec 6} (ready : Ready s (operandCodes d.toNat ++ operandCodes a.toNat ++ quadRegs b.toNat) [])
    (on : s.fullyOn = true) (some : s.lanesT ≠ 0) (sound : ∀ l, s.lanesT.getLsbD l = true → s.LaneSound d.toNat a.toNat b.toNat l)
    {ctl : Ctrl} (control : ctrlOf (s.quadWord b.toNat 3 (lowest s.lanesT)) = ctl) (good : ctl.bad = false) (plain : ctl.et = 0)
    (started : s.barrierCheck ctl = none) (free : s.transferHeld (s.laneCopies d.toNat a.toNat b.toNat ctl)
      ((lanesOf s.lanesT).map (fun x => (s.operandAddr a.toNat (s.readsFrom b.toNat x), 2 ^ (s.quadWord b.toNat 3 x / 2 ^ 8 % 16))))
      ((lanesOf s.lanesT).map (fun x => (s.operandAddr d.toNat (s.writesFrom b.toNat x), 2 ^ (s.quadWord b.toNat 3 x / 2 ^ 8 % 16)))) = false) :
    s.Enters (.cpl d a b) := by
  have orders : (lanesOf s.lanesT).map (laneCopy (s.see (transferUse d.toNat a.toNat b.toNat)) b.toNat) =
      (lanesOf s.lanesT).map (s.laneOrder b.toNat) := by
    refine List.map_congr_left fun l hl => ?_
    obtain ⟨high, clear, size, reads, writes, -, -⟩ := sound l (mem_lanesOf.1 hl)
    exact transfer_laneCopy ready (lt_of_mem_lanesOf hl) high clear size reads writes
  have word := congrArg (·.2.2.2) (transfer_quadWords ready (lowest_lt some))
  obtain ⟨u, c, reads, writes, e, run⟩ := exec_cpl_of_sound (transfer_go ready) rfl orders ((congrArg ctrlOf word).trans control)
    (s.maskCheck_none on _ _) some sound good plain started free
  exact enters_of_transfer rfl run (.of_eq rfl rfl rfl)

/-! ### Bulk copies -/

/-- Bytes that the descriptor of a bulk copy names. -/
def State.bulkLen (s : State) (b l : Nat) : Nat := s.quadWord b 1 l / 2 ^ 8 * 16

/-- The copy that the sound descriptor of lane l orders in bulk. -/
def State.bulkCopyOf (s : State) (kind : CopyKind) (op : AccOp) (dst src b l : Nat) (ctl : Ctrl) : Copy :=
  let n := s.bulkLen b l
  let ps := s.movePieces l src (s.readsFrom b l) dst (s.writesFrom b l) ((List.range (n / 16)).map (fun j => (16 * j, 16)))
  { s.copyOf kind src dst ctl with
    op, pieces := ps, ranges := if kind = .cpb then [(l, s.operandAddr src (s.readsFrom b l), n)] else [], bytes := n
    strong := ps.any (fun q => q.stype == 3 || q.dtype == 3) }

/-- A bulk descriptor is sound, and the operands serve it. -/
structure State.BulkSound (s : State) (dst src b l : Nat) : Prop where
  clear : s.quadWord b 3 l / 2 ^ 8 % 256 = 0
  some : s.bulkLen b l ≠ 0
  reads : s.readsFrom b l % 16 = 0
  writes : s.writesFrom b l % 16 = 0
  srcServes : Rules.operandServes s src false (s.readsFrom b l) (s.bulkLen b l)
  dstServes : Rules.operandServes s dst true (s.writesFrom b l) (s.bulkLen b l)

/-- What a sound bulk descriptor orders passes every check. -/
theorem bulkChecks_none {s : State} {dst src b l : Nat} (sound : s.BulkSound dst src b l) {kind : CopyKind} {types : List Nat} {ctl : Ctrl}
    (good : ctl.bad = false) (plain : kind = .cpb → ctl.et = 0) (typed : kind = .cpr → ctl.et ∈ types) (started : s.barrierCheck ctl = none) :
    firstTrap [if false = true ∨ ctl.bad = true ∨ (kind = .cpb ∧ ctl.et ≠ 0) then Option.some (0x10, 192) else none,
      if kind = .cpr ∧ !types.contains ctl.et then Option.some (2, 3) else none, s.barrierCheck ctl, s.operandCheck src false,
      s.operandCheck dst true, s.regionLeft src (s.readsFrom b l) (s.bulkLen b l) l, s.regionLeft dst (s.writesFrom b l) (s.bulkLen b l) l,
      s.windowLeft src (s.readsFrom b l) (s.bulkLen b l) l, s.windowLeft dst (s.writesFrom b l) (s.bulkLen b l) l] = none := by
  refine firstTrap_none fun x hx => ?_
  simp only [List.mem_cons, List.not_mem_nil, or_false] at hx
  rcases hx with rfl | rfl | rfl | rfl | rfl | rfl | rfl | rfl | rfl
  · refine if_neg ?_
    rintro (h | h | ⟨h, h'⟩)
    · exact Bool.false_ne_true h
    · exact absurd (h.symm.trans good) (by decide)
    · exact h' (plain h)
  · refine if_neg ?_
    rintro ⟨h, h'⟩
    simp [typed h] at h'
  · exact started
  · exact operandCheck_none sound.srcServes
  · exact operandCheck_none sound.dstServes
  · exact regionLeft_none sound.srcServes _
  · exact regionLeft_none sound.dstServes _
  · exact windowLeft_none sound.srcServes _
  · exact windowLeft_none sound.dstServes _

/-- A bulk copy of a sound descriptor enters, unless something holds it; a reducing one takes up its chunks. -/
theorem bulk_of_sound {s : State} {kind : CopyKind} {op : AccOp} {types : List Nat} {dst src b : Nat} {io : Issue} {ctl : Ctrl}
    (go : s.verdict (transferUse dst src b) = .go io) (lanes : io.t = s.lanesT)
    (order : bulkCopy io.see b (lowest s.lanesT) =
      (s.readsFrom b (lowest s.lanesT), s.writesFrom b (lowest s.lanesT), s.bulkLen b (lowest s.lanesT), false))
    (control : ctrlOf (io.see.quadWords b (lowest s.lanesT)).2.2.2 = ctl) (masked : s.maskCheck io = none)
    (some : s.lanesT ≠ 0) (sound : s.BulkSound dst src b (lowest s.lanesT)) (good : ctl.bad = false) (plain : kind = .cpb → ctl.et = 0)
    (typed : kind = .cpr → ctl.et ∈ types) (started : s.barrierCheck ctl = none)
    (free : s.transferHeld (s.bulkCopyOf kind op dst src b (lowest s.lanesT) ctl)
      [(s.operandAddr src (s.readsFrom b (lowest s.lanesT)), s.bulkLen b (lowest s.lanesT))]
      [(s.operandAddr dst (s.writesFrom b (lowest s.lanesT)), s.bulkLen b (lowest s.lanesT))] = false) :
    ∃ u c reads writes x e, s.bulk kind op types dst src b = .next (if kind = .cpr then (s.enterTransfer u io c reads writes).1.sendChunks x 64
      else (s.enterTransfer u io c reads writes).1.owe e) := by
  have run : s.bulk kind op types dst src b = _ := run_go s _ _ go
  rw [masked] at run
  dsimp only at run
  rw [if_neg (lanes ▸ some), lanes, order, control] at run
  dsimp only at run
  rw [bulkChecks_none sound good plain typed started] at run
  exact ⟨_, _, _, _, _, _, run.trans (congrArg _ (if_neg (Bool.eq_false_iff.1 free)))⟩

theorem bulk_enters {s : State} {kind : CopyKind} {op : AccOp} {types : List Nat} {dst src b : Nat} {i : Instr}
    (isBulk : exec i s = s.bulk kind op types dst src b) (ready : Ready s (operandCodes dst ++ operandCodes src ++ quadRegs b) [])
    (on : s.fullyOn = true) (some : s.lanesT ≠ 0) (sound : s.BulkSound dst src b (lowest s.lanesT)) {ctl : Ctrl}
    (control : ctrlOf (s.quadWord b 3 (lowest s.lanesT)) = ctl) (good : ctl.bad = false) (plain : kind = .cpb → ctl.et = 0)
    (typed : kind = .cpr → ctl.et ∈ types) (started : s.barrierCheck ctl = none)
    (free : s.transferHeld (s.bulkCopyOf kind op dst src b (lowest s.lanesT) ctl)
      [(s.operandAddr src (s.readsFrom b (lowest s.lanesT)), s.bulkLen b (lowest s.lanesT))]
      [(s.operandAddr dst (s.writesFrom b (lowest s.lanesT)), s.bulkLen b (lowest s.lanesT))] = false) : s.Enters i := by
  have lane := lowest_lt some
  have word := congrArg (·.2.2.2) (transfer_quadWords ready lane)
  have order := transfer_bulkCopy ready lane sound.clear sound.some sound.reads sound.writes
  obtain ⟨u, c, reads, writes, x, e, run⟩ := bulk_of_sound (op := op) (types := types) (transfer_go ready) rfl order
    ((congrArg ctrlOf word).trans control) (s.maskCheck_none on _ _) some sound good plain typed started free
  refine enters_of_transfer (u := u) (io := s.issuing (transferUse dst src b)) (c := c) (reads := reads) (writes := writes) rfl
    (isBulk.trans run) ?_
  split
  · exact sendChunks_keepsCopies _ x 64
  · exact .of_eq rfl rfl rfl

theorem copiesEnter : Rules.CopiesEnter := by
  intro s d a b ready on some w so started plain serves l enters
  have lt (j x : Nat) : w j x < 2 ^ 32 := (s.source (b.toNat + j) x).isLt
  refine ⟨?_, ?_⟩
  · intro n p ls c sound good et start free
    refine cpl_enters ready on some (fun x hx => ?_) rfl (ctrlOf_good good.1 good.2.1 good.2.2) et (barrierCheck_none (lt 3 l) start) free
    obtain ⟨high, clear, size, reads, writes, serve⟩ := sound x hx
    exact ⟨high, clear, size, reads, writes, serve.1, serve.2⟩
  · intro f hf n p ps c clear nonempty reads writes good typed start serve free
    have sound : s.BulkSound d.toNat a.toNat b.toNat l := ⟨clear, nonempty, reads, writes, serve.1, serve.2⟩
    have good' : (ctrlOf (s.quadWord b.toNat 3 l)).bad = false := ctrlOf_good good.1 good.2.1 good.2.2
    have start' : s.barrierCheck (ctrlOf (s.quadWord b.toNat 3 l)) = none := barrierCheck_none (lt 3 l) start
    simp only [List.mem_cons, List.not_mem_nil, or_false] at hf
    rcases hf with rfl | rfl | rfl | rfl | rfl
    · exact bulk_enters (op := .store) (types := []) rfl ready on some sound rfl good' (fun _ => List.mem_singleton.1 typed) nofun start' free
    · exact bulk_enters (op := .add) (types := List.range 8) rfl ready on some sound rfl good' nofun (fun _ => typed) start' free
    · exact bulk_enters (op := .min) (types := List.range 8) rfl ready on some sound rfl good' nofun (fun _ => typed) start' free
    · exact bulk_enters (op := .max) (types := List.range 8) rfl ready on some sound rfl good' nofun (fun _ => typed) start' free
    · exact bulk_enters (op := .fadd) (types := [8, 9, 10]) rfl ready on some sound rfl good' nofun (fun _ => typed) start' free

/-- Settles O10: each of these instructions runs its one way through the model when its operands stand ready and nothing holds it; a
reducing copy stays listed while it takes up its chunks. -/
theorem noOperation : Obligations.NoOperation :=
  ⟨noOperation_nop, carriesComplete, copiesEnter, fencesPass, engineOperationsEnter⟩

end Sys2Proof.Machine
end

section
/-! SUPPORT. Steps, and the events of queues, the control complex, hosts, teams and turns (R20, R35, R56, R60, R155, R357 to R419). -/

namespace Sys2Proof.Machine

set_option Elab.async false

/-! ### What a step runs -/

theorem runEvent_of_means {e : Event} {i : Instr} (h : e.Means i) (s : State) : runEvent e s = exec i s := by
  cases h <;> rfl

/-- Every row of the opcode table without an encoding is the event of its name. -/
theorem means_of_isEvent (i : Instr) (h : i.isEvent = true) : ∃ e : Event, e.Means i := by
  cases i <;> cases h <;> exact ⟨_, by constructor⟩

theorem stepRunsEvents : Rules.StepRunsEvents := by
  refine ⟨fun e i s h => runEvent_of_means h s, means_of_isEvent, fun s s1 e i move means => ?_⟩
  rw [← runEvent_of_means means, step, move]

theorem step_of_issue {s s1 : State} {k : Nat} (h : s.readied.move = (.issue k, s1)) : step s = issueStep s1 k := by
  rw [step, h]

/-- The state in which group k issues, the trips of its team due. -/
def State.issuer (s : State) (k : Nat) : State := { s with cur := k }.raiseTrips (s.group k).team none

theorem issueStep_of_due {s : State} {k : Nat} (due : (s.issuer k).grp.dueTrap ≠ none) : issueStep s k = exec (.deferredTrap k) (s.issuer k) := by
  obtain ⟨d, found⟩ := Option.ne_none_iff_exists'.1 due
  unfold issueStep
  extract_lets s1
  have found' : s1.grp.dueTrap = some d := found
  rw [found']
  rfl

theorem State.fetch_outside {s : State} {pc : Nat} (h : s.codePa pc = none) : s.fetch pc = .outside := by rw [State.fetch, h]

theorem State.fetch_poisoned {s : State} {pc pa : Nat} (h : s.codePa pc = some pa) (poisoned : s.codePoisoned pa = true) :
    s.fetch pc = .poisoned := by simp only [State.fetch, h, poisoned, if_true]

theorem State.fetch_word {s : State} {pc pa : Nat} (h : s.codePa pc = some pa) (whole : s.codePoisoned pa = false) :
    s.fetch pc = .word (s.codeAt pa) (s.takeCode pa) := by simp only [State.fetch, h, whole, Bool.false_eq_true, if_false]

section
variable {s : State} {k : Nat} (free : (s.issuer k).grp.dueTrap = none)
include free

theorem issueStep_outside (h : (s.issuer k).fetch (s.issuer k).grp.cur.pc.toNat = .outside) : issueStep s k = .next ((s.issuer k).trap 1 1) := by
  unfold State.issuer at *
  simp only [issueStep, free, h]

theorem issueStep_poisoned (h : (s.issuer k).fetch (s.issuer k).grp.cur.pc.toNat = .poisoned) :
    issueStep s k = .next ((s.issuer k).stopDomain ((s.issuer k).team.ctx, (s.issuer k).launch.lcb.fdom)) := by
  unfold State.issuer at *
  simp only [issueStep, free, h]

theorem issueStep_decodes {w : Word} {s2 : State} (h : (s.issuer k).fetch (s.issuer k).grp.cur.pc.toNat = .word w s2) {i : Instr}
    (word : decode w.toNat = .ok i) : issueStep s k = exec i s2 := by
  unfold State.issuer at *
  simp only [issueStep, free, h, word]

theorem issueStep_traps {w : Word} {s2 : State} (h : (s.issuer k).fetch (s.issuer k).grp.cur.pc.toNat = .word w s2) {d : Nat}
    (word : decode w.toNat = .error d) : issueStep s k = .next (s2.trap 1 d) := by
  unfold State.issuer at *
  simp only [issueStep, free, h, word]

end

theorem stepRunsDecodedWord : Rules.StepRunsDecodedWord := by
  intro s s1 k move s2
  rw [step_of_issue move]
  exact ⟨issueStep_of_due, fun free outside => issueStep_outside free (State.fetch_outside outside), fun pa free inside =>
    ⟨fun whole i word => issueStep_decodes free (State.fetch_word inside whole) word,
      fun whole d word => issueStep_traps free (State.fetch_word inside whole) word,
      fun poisoned => issueStep_poisoned free (State.fetch_poisoned inside poisoned)⟩⟩

/-! ### What memory, its homes and the messages between them change -/

/-- A fold of steps of which none changes what p reads. -/
theorem foldl_keeps {σ α β : Type} {f : σ → β → σ} {p : σ → α} (h : ∀ s x, p (f s x) = p s) (l : List β) (s : σ) :
    p (l.foldl f s) = p s := by
  induction l generalizing s with
  | nil => rfl
  | cons x l ih => exact (ih _).trans (h s x)

/-- From s to t only memory, caches, the tables of homes and what travels between them differ: no team, task, queue or register of the
control complex, and a launch only in its note of seed bytes. -/
structure Upkeep (s t : State) : Prop where
  eq : t = { s with
    mem := t.mem, peers := t.peers, hostEdges := t.hostEdges, poison := t.poison, clusters := t.clusters, launches := t.launches
    catalogue := t.catalogue, cmsgs := t.cmsgs, reqs := t.reqs, slips := t.slips, chunks := t.chunks, circ := t.circ, net := t.net
    agenda := t.agenda, nextId := t.nextId, free := t.free }
  launches : ∀ j, (tfind t.launches j).map Launch.fixed = (tfind s.launches j).map Launch.fixed
  bias : ∀ he, (t.edge he).biasSt = (s.edge he).biasSt
  poison : ∀ l ∈ t.poison, l ∈ s.poison
  nextId : s.nextId ≤ t.nextId

namespace Upkeep

theorem refl (s : State) : Upkeep s s := ⟨rfl, fun _ => rfl, fun _ => rfl, fun _ h => h, Nat.le_refl _⟩

theorem trans {s t u : State} (h : Upkeep s t) (h' : Upkeep t u) : Upkeep s u :=
  ⟨by rw [h'.eq, h.eq], fun j => (h'.launches j).trans (h.launches j), fun he => (h'.bias he).trans (h.bias he),
    fun l hl => h.poison l (h'.poison l hl), h.nextId.trans h'.nextId⟩

theorem foldl {β : Type} {f : State → β → State} (h : ∀ s x, Upkeep s (f s x)) (l : List β) (s : State) : Upkeep s (l.foldl f s) := by
  induction l generalizing s with
  | nil => exact refl s
  | cons x l ih => exact (h s x).trans (ih _)

/-- A step that changes none of what has lemmas of its own. -/
theorem of_eq {s t : State} (eq : t = { s with
      mem := t.mem, peers := t.peers, clusters := t.clusters, catalogue := t.catalogue, cmsgs := t.cmsgs
      reqs := t.reqs, slips := t.slips, chunks := t.chunks, circ := t.circ, net := t.net, agenda := t.agenda, nextId := t.nextId
      free := t.free }) (nextId : s.nextId ≤ t.nextId) : Upkeep s t :=
  ⟨by rw [eq], fun _ => by rw [eq], fun _ => by rw [eq]; rfl, fun _ h => by rw [eq] at h; exact h, nextId⟩

variable {s t : State} (h : Upkeep s t)
include h

theorem kill : t.kill = s.kill := by rw [h.eq]
theorem queues : t.queues = s.queues := by rw [h.eq]
theorem teams : t.teams = s.teams := by rw [h.eq]

end Upkeep

theorem upkeep_noteChange (s : State) (a : Nat) : Upkeep s (s.noteChange a) where
  eq := rfl
  launches j := by
    show (tfind (s.launches.map (fun (e : Nat × Launch) => (e.1, e.2.note a))) j).map Launch.fixed = _
    rw [tfind_map (fun _ (l : Launch) => l.note a)]
    cases tfind s.launches j
    · rfl
    · exact congrArg some (Launch.note_fixed _ a)
  bias _ := rfl
  poison _ h := h
  nextId := Nat.le_refl _

theorem HostEdge.written_biasSt (h : HostEdge) (a : Nat) : (h.written a).biasSt = h.biasSt := by
  unfold HostEdge.written
  split <;> rfl

theorem upkeep_setHomeByte (s : State) (loc : Nat) (b : Byte) : Upkeep s (s.setHomeByte loc b) := by
  unfold State.setHomeByte
  split
  · have noted : Upkeep s (if readByte s.mem loc = b then s else s.noteChange loc) := by
      split
      · exact .refl s
      · exact upkeep_noteChange s loc
    have edges : (if readByte s.mem loc = b then s else s.noteChange loc).hostEdges = s.hostEdges := by split <;> rfl
    refine noted.trans ⟨rfl, fun _ => rfl, fun he => ?_, fun _ h => h, Nat.le_refl _⟩
    show (tget {} (s.hostEdges.map (fun (e : Nat × HostEdge) => (e.1, e.2.written loc))) he).biasSt = (tget ({} : HostEdge) _ he).biasSt
    rw [edges, tget, tfind_map (fun _ (h : HostEdge) => h.written loc), tget]
    cases tfind s.hostEdges he
    · rfl
    · exact HostEdge.written_biasSt _ _
  · exact .of_eq rfl (Nat.le_refl _)

theorem upkeep_setHomeLe (s : State) (loc v n : Nat) : Upkeep s (s.setHomeLe loc v n) := by
  induction n generalizing loc v with
  | zero => exact .refl s
  | succ n ih => exact (ih _ _).trans (upkeep_setHomeByte _ _ _)

theorem upkeep_cleansed (s : State) (as : List Nat) : Upkeep s (s.cleansed as) :=
  ⟨rfl, fun _ => rfl, fun _ => rfl, fun _ h => (List.mem_filter.1 h).1, Nat.le_refl _⟩

theorem upkeep_putCluster (s : State) (k : Nat) (c : Cluster) : Upkeep s (s.putCluster k c) := .of_eq rfl (Nat.le_refl _)

theorem upkeep_putCat (s : State) (line : Nat) (c : CatLine) : Upkeep s (s.putCat line c) := .of_eq rfl (Nat.le_refl _)

theorem upkeep_writeBackBytes (s : State) (cl : Nat) (p : Nat → CByte → Bool) : Upkeep s (s.writeBackBytes cl p) := by
  unfold State.writeBackBytes
  extract_lets c out s1
  have home : Upkeep s s1 := (Upkeep.foldl (fun s x => upkeep_setHomeByte s _ _) out s).trans (upkeep_cleansed _ _)
  exact home.trans (upkeep_putCluster _ _ _)

theorem upkeep_dropBytes (s : State) (cl : Nat) (p : Nat → CByte → Bool) : Upkeep s (s.dropBytes cl p) := upkeep_putCluster _ _ _

theorem upkeep_selfInvalidate (s : State) (cl : Nat) (spans : List (Nat × Nat)) : Upkeep s (s.selfInvalidate cl spans) := upkeep_dropBytes _ _ _

theorem upkeep_dropCode (s : State) (cl : Nat) (l : Launch) : Upkeep s (s.dropCode cl l) := upkeep_putCluster _ _ _

theorem upkeep_dropCopy (s : State) (cl line : Nat) : Upkeep s (s.dropCopy cl line) := by
  unfold State.dropCopy
  split
  · exact .refl s
  · exact upkeep_dropBytes _ _ _

theorem upkeep_oweOnce (s : State) (e : Event) : Upkeep s (s.oweOnce e) := by
  unfold State.oweOnce
  split
  · exact .refl s
  · exact .of_eq rfl (Nat.le_refl _)

theorem upkeep_tidy (s : State) (line : Nat) : Upkeep s (s.tidy line) := by
  unfold State.tidy
  split
  · exact .of_eq rfl (Nat.le_refl _)
  · exact .refl s

theorem upkeep_wakeLine (s : State) (line : Nat) : Upkeep s (s.wakeLine line) := by
  unfold State.wakeLine
  split
  · exact upkeep_oweOnce _ _
  · exact .refl s

theorem upkeep_freeLine (s : State) (line : Nat) : Upkeep s (s.freeLine line) := by
  unfold State.freeLine
  split
  · exact ((upkeep_putCat _ _ _).trans (upkeep_wakeLine _ _)).trans (upkeep_tidy _ _)
  · exact .refl s

theorem upkeep_landWriteBack (s : State) (n : Nat) (m : CMsg) : Upkeep s (s.landWriteBack n m) := by
  unfold State.landWriteBack
  extract_lets s1 c s2 s3
  have home : Upkeep s s1 := (Upkeep.foldl (fun s x => upkeep_setHomeByte s _ _) m.data s).trans (upkeep_cleansed _ _)
  have catalogued : Upkeep s s2 := by
    unfold s2
    split
    · exact home.trans (upkeep_putCat _ _ _)
    · exact home
  have noted : Upkeep s s3 := catalogued.trans (.of_eq rfl (Nat.le_refl _))
  split
  · exact noted.trans (upkeep_freeLine _ _)
  · exact noted.trans (upkeep_tidy _ _)

theorem upkeep_returnLine (s : State) (cl line : Nat) : Upkeep s (s.returnLine cl line) :=
  (upkeep_writeBackBytes s cl _).trans (upkeep_cleansed _ _)

theorem upkeep_settleLine (s : State) (line : Nat) : Upkeep s (s.settleLine line) := by
  unfold State.settleLine
  extract_lets s1 c s2
  have landed : Upkeep s s1 := by
    refine .foldl (fun s x => ?_) _ s
    exact Upkeep.trans (t := s.takeC x.1) (.of_eq rfl (Nat.le_refl _)) (upkeep_landWriteBack (s.takeC x.1) x.1 x.2)
  split
  · have returned : Upkeep s1 s2 := (upkeep_returnLine _ _ _).trans (upkeep_dropBytes _ _ _)
    exact ((landed.trans returned).trans (upkeep_putCat _ _ _)).trans (upkeep_tidy _ _)
  · exact landed

theorem upkeep_pageBack (s : State) (loc : Nat) : Upkeep s (s.pageBack loc) := by
  unfold State.pageBack
  refine Upkeep.trans (t := { s with catalogue := tdel s.catalogue (pageKey loc) }) (.of_eq rfl (Nat.le_refl _)) (.foldl (fun s l => ?_) _ _)
  split
  · exact upkeep_freeLine _ _
  · exact .refl s

theorem upkeep_pullPage (s : State) (pa : Nat) : Upkeep s (s.pullPage pa) := by
  unfold State.pullPage
  split
  · exact .refl s
  · extract_lets s1
    have taken : Upkeep s s1 := Upkeep.trans (t := { s with free := s.free + 1, cmsgs := _ }) (.of_eq rfl (Nat.le_refl _))
      (.foldl (fun s x => upkeep_setHomeByte s _ _) _ _)
    exact taken.trans (upkeep_pageBack _ _)

theorem nextId_noteOld (s : State) (k : Packet) (e : Event) : (s.noteOld k e).nextId = s.nextId := by
  unfold State.noteOld
  split
  · split <;> rfl
  · rfl

theorem nextId_oweOnce (s : State) (e : Event) : (s.oweOnce e).nextId = s.nextId := by
  unfold State.oweOnce
  split <;> rfl

theorem nextId_inject (s : State) (k : Packet) {e : Event} (event : k.event = some e) (owes : k.owes = none) :
    (s.inject k).nextId = s.nextId + 1 := by
  unfold State.inject
  extract_lets own p s1 k1 plane away dst
  split
  · simp only [State.returnOwed, owes, State.receive, event]
    split
    · rfl
    · exact nextId_noteOld s1 k e
  · split
    · rfl
    · split
      · rfl
      · split <;> exact nextId_oweOnce _ _

theorem Sends.upkeep {s t : State} (h : Sends s t) (nextId : s.nextId ≤ t.nextId) : Upkeep s t := .of_eq (by rw [h]) nextId

theorem upkeep_inject (s : State) (k : Packet) {e : Event} (event : k.event = some e) (owes : k.owes = none) : Upkeep s (s.inject k) :=
  (sends_inject s k event owes).upkeep (by rw [nextId_inject s k event owes]; omega)

theorem upkeep_sendLane (s : State) (vc age bytes : Nat) (src dst : Nat × Nat) (issuer : Option (Nat × Nat)) (e : Event) :
    Upkeep s (s.sendLane vc age bytes src dst issuer e) := upkeep_inject s _ rfl rfl

theorem upkeep_sendC (s : State) (m : CMsg) (ev : Nat → Event) : Upkeep s (s.sendC m ev) := by
  unfold State.sendC
  extract_lets id age route
  exact Upkeep.trans (t := { s with cmsgs := _, nextId := id + 1 }) (.of_eq rfl (Nat.le_succ _)) (upkeep_sendLane _ _ _ _ _ _ _ _)

theorem upkeep_sendSlip (s : State) (n : Nat) (x : Slip) : Upkeep s (s.sendSlip n x) := by
  simp only [State.sendSlip]
  split <;> exact upkeep_sendLane _ _ _ _ _ _ _ _

theorem upkeep_post (s : State) (ty n home status : Nat) (tentative wait : Bool) (spans : List (Nat × Nat)) :
    Upkeep s (s.post ty n home status tentative wait spans) := by
  simp only [State.post]
  split
  · exact .refl s
  · exact Upkeep.trans (t := { s with slips := tput s.slips s.nextId _, nextId := s.nextId + 1 }) (.of_eq rfl (Nat.le_succ _))
      (upkeep_sendSlip _ _ _)

theorem upkeep_deviceWrite (s : State) (pa v n : Nat) : Upkeep s (s.deviceWrite pa v n) := by
  unfold State.deviceWrite
  extract_lets line s1
  have home : Upkeep s s1 := ((upkeep_pullPage s pa).trans (upkeep_settleLine _ _)).trans (upkeep_setHomeLe _ _ _ _)
  split
  · exact home
  · exact (home.trans (.foldl (fun s d => upkeep_sendC s _ _) _ _)).trans (upkeep_putCat _ _ _)

theorem upkeep_applyInvalidate (s : State) (line die : Nat) : Upkeep s (s.applyInvalidate line die) :=
  .foldl (fun s (x : Nat × Cluster) => upkeep_dropCopy s x.1 line) _ s

theorem upkeep_settleDie (s : State) (die : Nat) (home : Option Nat) : Upkeep s (s.settleDie die home) := by
  unfold State.settleDie
  extract_lets mine s1
  have applied : Upkeep s s1 := by
    refine .foldl (fun s x => ?_) _ s
    exact upkeep_applyInvalidate s x.2.line die
  exact applied.trans (.of_eq rfl (Nat.le_refl _))

theorem upkeep_settleWrites (s : State) : Upkeep s s.settleWrites := .foldl (fun s d => upkeep_settleDie s d none) _ s

theorem upkeep_evict (s : State) (cl line : Nat) : Upkeep s (s.evict cl line) := by
  unfold State.evict
  extract_lets mine s1
  have dropped : Upkeep s s1 := upkeep_dropBytes _ _ _
  split
  · exact dropped.trans (upkeep_sendC _ _ _)
  · exact dropped

theorem upkeep_emptyCache (s : State) (cl : Nat) : Upkeep s (s.emptyCache cl) := by
  unfold State.emptyCache
  extract_lets lines s1
  have evicted : Upkeep s s1 := .foldl (fun s l => upkeep_evict s cl l) _ s
  exact (evicted.trans (upkeep_writeBackBytes _ _ _)).trans (upkeep_dropBytes _ _ _)

theorem upkeep_settleWays (s : State) (cl : Nat) : Upkeep s (s.settleWays cl) := by
  unfold State.settleWays
  split
  · exact upkeep_emptyCache _ _
  · exact .refl s

/-- With a home to ask, a request only sends slips. -/
theorem upkeep_ask (s : State) (n ty : Nat) {r : Request} (parts : r.parts ≠ []) : Upkeep s (s.ask n ty r) := by
  unfold State.ask
  extract_lets r1 s1
  have noted : Upkeep s s1 := .of_eq rfl (Nat.le_refl _)
  rw [if_neg (by simpa using parts)]
  exact noted.trans (.foldl (fun s x => upkeep_post s _ _ _ _ _ _ _) _ s1)

theorem upkeep_putEntry (s : State) (n home : Nat) (e : Circ) : Upkeep s (s.putEntry n home e) := by
  unfold State.putEntry
  split
  · exact .of_eq rfl (Nat.le_refl _)
  · exact .of_eq rfl (Nat.le_succ _)

theorem upkeep_dropEntry (s : State) (n home : Nat) : Upkeep s (s.dropEntry n home) := .of_eq rfl (Nat.le_refl _)

theorem upkeep_grantAt (s : State) (n : Nat) (r : Request) (home : Nat) (spans : List (Nat × Nat)) : Upkeep s (s.grantAt n r home spans) := by
  unfold State.grantAt
  extract_lets tent e
  split
  · exact (upkeep_putEntry _ _ _ _).trans (upkeep_post _ _ _ _ _ _ _ _)
  · exact (upkeep_dropEntry _ _ _).trans (upkeep_post _ _ _ _ _ _ _ _)

/-- A host edge written again with its bias command as it stands. -/
theorem upkeep_tput_edge {s t : State} (he : Nat) {h : HostEdge} (same : h.biasSt = (s.edge he).biasSt)
    (eq : t = { s with hostEdges := tput s.hostEdges he h, agenda := t.agenda }) : Upkeep s t where
  eq := by rw [eq]
  launches _ := by rw [eq]
  bias k := by
    rw [eq]
    show (tget {} (tput s.hostEdges he h) k).biasSt = _
    rw [tget_tput]
    split
    · next hk => rw [hk, same]
    · rfl
  poison _ h := by rw [eq] at h; exact h
  nextId := by rw [eq]

theorem upkeep_startFlip (s : State) (he page : Nat) : Upkeep s (s.startFlip he page) := by
  unfold State.startFlip
  extract_lets h
  split
  · exact .refl s
  · exact upkeep_tput_edge he (h := { h with flipping := some (page, 64) }) rfl rfl

theorem upkeep_reevaluate (s : State) (home : Nat) : Upkeep s (s.reevaluate home) := by
  unfold State.reevaluate
  refine .foldl (fun s e => ?_) _ s
  split
  · exact .refl s
  · split
    · exact upkeep_grantAt _ _ _ _ _
    · next he page _ =>
      exact (upkeep_tput_edge he (h := { s.edge he with again := (s.edge he).again.filter (· != home) ++ [home] }) rfl rfl).trans
          (upkeep_startFlip _ _ _)

/-! ### What serving queues changes -/

/-- From s to t what the front end does behind an entry: no queue's head moves, no launch, team, task or kill changes. -/
structure QueueWork (s t : State) : Prop where
  heads : ∀ n, (t.queue n).head = (s.queue n).head
  launches : ∀ j, (tfind t.launches j).map Launch.fixed = (tfind s.launches j).map Launch.fixed
  kill : t.kill = s.kill

namespace QueueWork

theorem refl (s : State) : QueueWork s s := ⟨fun _ => rfl, fun _ => rfl, rfl⟩

theorem trans {s t u : State} (h : QueueWork s t) (h' : QueueWork t u) : QueueWork s u :=
  ⟨fun n => (h'.heads n).trans (h.heads n), fun j => (h'.launches j).trans (h.launches j), h'.kill.trans h.kill⟩

theorem foldl {β : Type} {f : State → β → State} (h : ∀ s x, QueueWork s (f s x)) (l : List β) (s : State) : QueueWork s (l.foldl f s) := by
  induction l generalizing s with
  | nil => exact refl s
  | cons x l ih => exact (h s x).trans (ih _)

theorem launch_none {s t : State} (h : QueueWork s t) {j : Nat} (absent : tfind s.launches j = none) : tfind t.launches j = none := by
  have same := h.launches j
  rw [absent] at same
  simpa using same

end QueueWork

theorem Upkeep.queueWork {s t : State} (h : Upkeep s t) : QueueWork s t :=
  ⟨fun n => by rw [State.queue, h.queues]; rfl, h.launches, h.kill⟩

theorem queue_putQueue (s : State) (n j : Nat) (q : Queue) : (s.putQueue n q).queue j = if j = n then q else s.queue j :=
  tget_tput _ _ _ _ _

/-- A queue written again with its head as it stands. -/
theorem queueWork_putQueue {s : State} {n : Nat} {q : Queue} (h : q.head = (s.queue n).head) : QueueWork s (s.putQueue n q) where
  heads j := by
    rw [queue_putQueue]
    split
    · next hj => rw [hj, h]
    · rfl
  launches _ := rfl
  kill := rfl

theorem queueWork_interrupt (s : State) (what a b c : Nat) : QueueWork s (s.interrupt what a b c) := ⟨fun _ => rfl, fun _ => rfl, rfl⟩

theorem queueWork_kick (s : State) (n : Nat) : QueueWork s (s.kick n) := by
  unfold State.kick
  split
  · exact .refl s
  · extract_lets e
    split
    · exact .refl s
    · exact ⟨fun _ => rfl, fun _ => rfl, rfl⟩

theorem queueWork_counterWritten (s : State) : QueueWork s s.counterWritten := by
  refine .foldl (fun s x => ?_) _ s
  obtain ⟨n, q⟩ := x
  dsimp only
  split
  · exact .refl s
  · exact ⟨fun _ => rfl, fun _ => rfl, rfl⟩

theorem queueWork_settleQueue (s : State) (n fuel : Nat) : QueueWork s (s.settleQueue n fuel) := by
  induction fuel generalizing s with
  | zero => exact .refl s
  | succ fuel ih =>
    rw [State.settleQueue]
    split
    · next launch pa v intr index es live =>
      extract_lets q s1
      have put : QueueWork s (s.putQueue n { q with live := es }) := queueWork_putQueue rfl
      have written : QueueWork s s1 := (put.trans (upkeep_deviceWrite _ pa v 8).queueWork).trans (queueWork_counterWritten _)
      refine (written.trans ?_).trans (ih _)
      split
      · exact queueWork_interrupt _ _ _ _ _
      · exact .refl _
    · exact .refl s

/-- An entry consumed: the head moves on, and nothing else of the state's launches. -/
theorem consume_spec (s : State) (n x : Nat) (e : Option QEntry) : ((s.consume n x e).queue n).head = ((s.queue n).head + 1) % 2 ^ 32 ∧
    ∀ j, (tfind (s.consume n x e).launches j).map Launch.fixed = (tfind s.launches j).map Launch.fixed := by
  unfold State.consume
  extract_lets q s1 s2
  have head : (s1.queue n).head = (q.head + 1) % 2 ^ 32 := by rw [queue_putQueue, if_pos rfl]
  have noted : QueueWork s1 s2 := by
    unfold s2
    split
    · exact queueWork_interrupt _ _ _ _ _
    · exact .refl _
  have served := (noted.trans (queueWork_settleQueue s2 n (q.live.length + 1))).trans (queueWork_kick _ n)
  exact ⟨(served.heads n).trans head, served.launches⟩

/-! ### What feeding tasks changes -/

/-- From s to t tasks come from the range table of a die to its clusters' queues. -/
structure Feeds (die : Nat) (s t : State) : Prop where
  eq : t = { s with nextId := t.nextId, ranges := t.ranges, tasks := t.tasks, clusters := t.clusters, agenda := t.agenda }
  nextId : s.nextId ≤ t.nextId
  tasks : ∀ j < s.nextId, tfind s.tasks j = none → tfind t.tasks j = none
  ranges : ∀ d, d ≠ die → tget [] t.ranges d = tget [] s.ranges d

namespace Feeds

theorem refl (die : Nat) (s : State) : Feeds die s s := ⟨rfl, Nat.le_refl _, fun _ _ h => h, fun _ _ => rfl⟩

theorem trans {die : Nat} {s t u : State} (h : Feeds die s t) (h' : Feeds die t u) : Feeds die s u :=
  ⟨by rw [h'.eq, h.eq], h.nextId.trans h'.nextId, fun j hj free => h'.tasks j (Nat.lt_of_lt_of_le hj h.nextId) (h.tasks j hj free),
    fun d hd => (h'.ranges d hd).trans (h.ranges d hd)⟩

theorem queueWork {die : Nat} {s t : State} (h : Feeds die s t) : QueueWork s t :=
  ⟨fun n => by rw [h.eq]; rfl, fun j => by rw [h.eq], by rw [h.eq]⟩

end Feeds

theorem feeds_beginLoads {die : Nat} {s : State} {k : Nat} (listed : (tfind s.tasks k).isSome = true) : Feeds die s (s.beginLoads k) := by
  unfold State.beginLoads
  extract_lets t l
  split
  · refine ⟨rfl, Nat.le_refl _, fun j _ free => ?_, fun _ _ => rfl⟩
    show tfind (tput s.tasks k _) j = none
    rw [tfind_tput, if_neg, free]
    rintro rfl
    rw [free] at listed
    cases listed
  · exact .refl _ _

theorem feeds_feed (s : State) (die fuel : Nat) : Feeds die s (s.feed die fuel) := by
  induction fuel generalizing s with
  | zero => exact .refl _ _
  | succ fuel ih =>
    rw [State.feed]
    extract_lets cl k c
    split
    · exact .refl _ _
    · next r _ =>
      split
      · refine Feeds.trans (t := { s with ranges := tput s.ranges die ((tget [] s.ranges die).erase r) }) ⟨rfl, Nat.le_refl _, fun _ _ h => h,
            fun d hd => ?_⟩ (ih _)
        exact (tget_tput _ _ _ _ _).trans (if_neg hd)
      · extract_lets s1
        split
        · exact .refl _ _
        · have fed : Feeds die s (s1.putCluster cl { c with queue := c.queue ++ [k] }) := by
            refine ⟨rfl, Nat.le_succ _, fun j hj free => ?_, fun d hd => (tget_tput _ _ _ _ _).trans (if_neg hd)⟩
            exact (tfind_tput _ _ _ _).trans ((if_neg (Nat.ne_of_lt hj)).trans free)
          refine (fed.trans (feeds_beginLoads ?_)).trans (ih _)
          exact (congrArg Option.isSome ((tfind_tput _ _ _ _).trans (if_pos rfl)) :)

/-- A launch started: its record stands with its items and context, and no queue's head has moved. -/
theorem startLaunch_spec (s : State) (l : Nat) : ((∃ x, tfind (s.startLaunch l).launches l = some x ∧ x.items = (s.launchOf l).items ∧
    x.ctx = (s.launchOf l).ctx) ∧ ∀ n, ((s.startLaunch l).queue n).head = (s.queue n).head) ∧ (s.startLaunch l).kill = s.kill := by
  unfold State.startLaunch
  extract_lets ln s0 s1 rs s2 s3
  have settled : QueueWork s s0 := by
    unfold s0
    split
    · exact (upkeep_settleWrites s).queueWork
    · exact .refl s
  have listed : tfind s1.launches l = some _ := (tfind_tput _ _ _ _).trans (if_pos rfl)
  have ranged : QueueWork s1 s2 := .foldl (f := fun s' (x : Nat × Range) => { s' with ranges := tput s'.ranges x.1 (tget [] s'.ranges x.1 ++ [x.2]) })
    (fun s x => ⟨fun _ => rfl, fun _ => rfl, rfl⟩) rs s1
  have fed : QueueWork s1 s3 := ranged.trans (.foldl (fun s x => (feeds_feed s x.1 feedFuel).queueWork) rs s2)
  have owed : QueueWork s1 (if ln.items = 0 then s3.owe (.launchComplete l) else s3) := by
    split
    · exact fed.trans ⟨fun _ => rfl, fun _ => rfl, rfl⟩
    · exact fed
  refine ⟨⟨?_, fun n => (owed.heads n).trans (settled.heads n)⟩, owed.kill.trans settled.kill⟩
  have same := owed.launches l
  rw [listed] at same
  obtain ⟨x, hx, fixed⟩ := Option.map_eq_some_iff.1 same
  exact ⟨x, hx, (congrArg Launch.items fixed :), (congrArg Launch.ctx fixed :)⟩

/-! ### Tables do not read the front end's rotor -/

/-- The front end's rotation has come to a place. -/
def State.turned (s : State) (r : Nat) : State := { s with rotor := r }

section
variable (s : State) (r : Nat)

theorem latestLe_turned (pa n : Nat) : (s.turned r).latestLe pa n = s.latestLe pa n := by
  induction n generalizing pa with
  | zero => rfl
  | succ n ih =>
    rw [State.latestLe, State.latestLe, ih]
    rfl

theorem leaf_turned (c va e n : Nat) : (s.turned r).leaf c va e n = s.leaf c va e n := rfl

theorem contGroup_turned (table ix : Nat) : (s.turned r).contGroup table ix = s.contGroup table ix := by
  simp only [State.contGroup, latestLe_turned]

theorem isDram_turned (pa : Nat) : (s.turned r).isDram pa = s.isDram pa := rfl

theorem walkFrom_turned (c va : Nat) (ls : List Nat) (table : Nat) : (s.turned r).walkFrom c va ls table = s.walkFrom c va ls table := by
  induction ls generalizing table with
  | nil => rfl
  | cons l ls ih => simp only [State.walkFrom, latestLe_turned, leaf_turned, contGroup_turned, isDram_turned, ih]

theorem walkPage_turned (c va : Nat) : (s.turned r).walkPage c va = s.walkPage c va := by
  simp only [State.walkPage, walkFrom_turned, isDram_turned]
  rfl

theorem counterPage_turned (c va : Nat) (w : Bool) : (s.turned r).counterPage c va w = s.counterPage c va w := by
  simp only [State.counterPage, walkPage_turned]

theorem entryCause_turned (q : Queue) (x : Nat) : (s.turned r).entryCause q x = s.entryCause q x := by
  simp only [State.entryCause, State.entryUnmapped, counterPage_turned]
  rfl

theorem readVirt_turned (c va n : Nat) : (s.turned r).readVirt c va n = s.readVirt c va n := by
  simp only [State.readVirt, walkPage_turned, latestLe_turned]

theorem lcbChain_turned (c n : Nat) (todo : List Nat) (a : Nat) : (s.turned r).lcbChain c n todo a = s.lcbChain c n todo a := by
  induction n generalizing todo a with
  | zero => rfl
  | succ n ih => simp only [State.lcbChain, readVirt_turned, ih]

theorem regionLoad_turned (c g x : Nat) : (s.turned r).regionLoad c g x = s.regionLoad c g x := rfl

theorem regionLoads_turned (c a : Nat) (gs : List Nat) : (s.turned r).regionLoads c a gs = s.regionLoads c a gs := by
  induction gs generalizing a with
  | nil => rfl
  | cons g gs ih => simp only [State.regionLoads, readVirt_turned, ih, regionLoad_turned]

theorem mapRange_turned (c va n : Nat) (ok : PagePin → Bool) : (s.turned r).mapRange c va n ok = s.mapRange c va n ok := by
  have page : (s.turned r).walkPage c = s.walkPage c := funext (walkPage_turned s r c)
  simp only [State.mapRange, State.walkRange, page]

theorem launchPins_turned (c : Nat) (l : Lcb) : (s.turned r).launchPins c l = s.launchPins c l := by
  simp only [State.launchPins, mapRange_turned]

theorem resolve_turned (c a : Nat) (queued : Bool) : (s.turned r).resolve c a queued = s.resolve c a queued := by
  simp only [State.resolve, lcbChain_turned, regionLoads_turned, launchPins_turned]

theorem lcbHome_turned (c a : Nat) : (s.turned r).lcbHome c a = s.lcbHome c a := by
  simp only [State.lcbHome, walkPage_turned]
  rfl

theorem counterAt_turned (q : Queue) (x : Nat) : (s.turned r).counterAt q x = s.counterAt q x := by
  simp only [State.counterAt, counterPage_turned]

end

/-! ### Launch queues -/

theorem entry_turned (s : State) (r n : Nat) : (s.turned r).entry n = s.entry n := by
  simp only [State.entry, latestLe_turned]
  rfl

/-- The front end acts on a sound entry in its turn that no earlier one holds. -/
theorem onEntry_acts {s : State} {n ty x : Nat} (entry : s.entry n = some x) (turn : s.inTurn n = true) (typed : fieldAt x 0 1 = ty)
    (sound : s.entryCause (s.queue n) x = 0) (alone : bit (fieldAt x 1 1) 0 = false ∨ (s.queue n).live = []) (act : State → Queue → Nat → State) :
    s.onEntry n ty act = .next (act (s.turned ((n + 1) % 64)) (s.queue n) x) := by
  have entry' : (s.turned ((n + 1) % 64)).entry n = some x := (entry_turned _ _ _).trans entry
  have free : (s.queue n).fenced x = false := by
    rcases alone with h | h <;> simp [Queue.fenced, h]
  have sound' : (if (s.queue n).waiting then 0 else (s.turned ((n + 1) % 64)).entryCause (s.queue n) x) = 0 := by
    rw [entryCause_turned, sound, ite_self]
  unfold State.onEntry
  extract_lets s1 q
  have this : s1 = s.turned ((n + 1) % 64) := rfl
  have same : q = s.queue n := rfl
  rw [if_neg (by simp [turn]), same, this, entry']
  refine congrArg Host.Outcome.next ((if_neg fun h => h.2.2 typed).trans ?_)
  rw [free, sound']
  rfl

/-- An entry that asks for nothing that stays is consumed. -/
theorem consume_head (s : State) (n x : Nat) (e : Option QEntry) {h : Nat} (head : (s.queue n).head = h) :
    ((s.consume n x e).queue n).head = (h + 1) % 2 ^ 32 := by rw [(consume_spec s n x e).1, head]

theorem queue_kick (s : State) (n j : Nat) : (s.kick n).queue j = s.queue j := by
  unfold State.kick
  split
  · rfl
  · extract_lets e
    split <;> rfl

theorem nopEntry_eq (n : Nat) (s : State) : exec (.nopEntry n) s = execNopEntry n s := rfl

theorem signalEntry_eq (n : Nat) (s : State) : exec (.signalEntry n) s = execSignalEntry n s := rfl

theorem launchEntry_eq (n : Nat) (s : State) : exec (.launchEntry n) s = execLaunchEntry n s := rfl

theorem newLaunch_consumed {s : State} {ln : Launch} {n x items ctx : Nat} {e : Option QEntry} (room : s.rangeRoom s.nextId ln = true)
    (hitems : ln.items = items) (hctx : ln.ctx = ctx) :
    ∃ t y, (.next (if (!s.rangeRoom s.nextId ln) = true then s
        else ((s.newLaunch ln).1.startLaunch (s.newLaunch ln).2).consume n x e) : Host.Outcome State Fault Refusal) = .next t ∧
      (t.queue n).head = ((s.queue n).head + 1) % 2 ^ 32 ∧ tfind t.launches s.nextId = some y ∧ y.items = items ∧ y.ctx = ctx := by
  rw [room, if_neg (by simp)]
  obtain ⟨⟨⟨y, hy, yitems, yctx⟩, heads⟩, _⟩ := startLaunch_spec (s.newLaunch ln).1 s.nextId
  obtain ⟨head, launches⟩ := consume_spec ((s.newLaunch ln).1.startLaunch s.nextId) n x e
  have listed : (s.newLaunch ln).1.launchOf s.nextId = { ln with st := .held, age := s.nextId } := by
    show tget _ (tput s.launches s.nextId _) _ = _
    rw [tget_tput, if_pos rfl]
  have made := congrArg Launch.items listed
  have of := congrArg Launch.ctx listed
  have same := launches s.nextId
  rw [hy] at same
  obtain ⟨z, hz, fixed⟩ := Option.map_eq_some_iff.1 same
  refine ⟨_, z, rfl, head.trans (by rw [heads]; rfl), hz, ?_, ?_⟩
  · exact (congrArg Launch.items fixed).trans ((yitems.trans made).trans hitems)
  · exact (congrArg Launch.ctx fixed).trans ((yctx.trans of).trans hctx)

section
variable {s : State} {n x : Nat} (entry : s.entry n = some x) (sound : s.entryCause (s.queue n) x = 0) (turn : s.inTurn n = true)
  (alone : bit (fieldAt x 1 1) 0 = false ∨ (s.queue n).live = [])
include entry sound turn alone

theorem nopEntry_consumed (typed : fieldAt x 0 1 = 4) :
    ∃ t, exec (.nopEntry n) s = .next t ∧ (t.queue n).head = ((s.queue n).head + 1) % 2 ^ 32 :=
  ⟨_, (nopEntry_eq n s).trans (onEntry_acts entry turn typed sound alone _), consume_head _ _ _ _ rfl⟩

theorem signalEntry_consumed (typed : fieldAt x 0 1 = 3) (mapped : (s.counterPage (s.queue n).ctx (fieldAt x 8 8) true).isSome = true) :
    ∃ t, exec (.signalEntry n) s = .next t ∧ (t.queue n).head = ((s.queue n).head + 1) % 2 ^ 32 := by
  obtain ⟨p, hp⟩ := Option.isSome_iff_exists.1 mapped
  refine ⟨_, (signalEntry_eq n s).trans (onEntry_acts entry turn typed sound alone _), ?_⟩
  simp only [counterPage_turned, hp]
  exact consume_head _ _ _ _ rfl

theorem tryWait_consumed {pa : Nat} (typed : fieldAt x 0 1 = 2) (at_ : ((s.queue n).waiting = true ∧ pa = (s.queue n).waitAt) ∨
    ((s.queue n).waiting = false ∧ ∃ p, s.counterPage (s.queue n).ctx (fieldAt x 8 8) false = some p ∧ pa = p.at_ (fieldAt x 8 8)))
    (reached : fieldAt x 16 8 ≤ s.latestLe pa 8) :
    ∃ t, s.onEntry n 2 (fun s q x => s.tryWait n q x) = .next t ∧ (t.queue n).head = ((s.queue n).head + 1) % 2 ^ 32 := by
  have counter : s.counterAt (s.queue n) x = pa := by
    rcases at_ with ⟨waits, rfl⟩ | ⟨fresh, p, hp, rfl⟩
    · rw [State.counterAt, if_pos waits]
    · rw [State.counterAt, if_neg (by simp [fresh]), hp]
      rfl
  refine ⟨_, onEntry_acts entry turn typed sound alone _, ?_⟩
  rw [State.tryWait, counterAt_turned, latestLe_turned, counter, if_pos reached]
  exact consume_head _ _ _ _ rfl

theorem waitRecheck_consumed {pa : Nat} (typed : fieldAt x 0 1 = 2) (at_ : ((s.queue n).waiting = true ∧ pa = (s.queue n).waitAt) ∨
    ((s.queue n).waiting = false ∧ ∃ p, s.counterPage (s.queue n).ctx (fieldAt x 8 8) false = some p ∧ pa = p.at_ (fieldAt x 8 8)))
    (reached : fieldAt x 16 8 ≤ s.latestLe pa 8) (waits : (s.queue n).waiting = true) :
    ∃ t, exec (.waitRecheck n) s = .next t ∧ (t.queue n).head = ((s.queue n).head + 1) % 2 ^ 32 := by
  have rechecks : exec (.waitRecheck n) s = s.onEntry n 2 (fun s q x => s.tryWait n q x) := if_pos waits
  rw [rechecks]
  exact tryWait_consumed entry sound turn alone typed at_ reached

theorem launchEntry_consumed {l : Lcb} {pins : List PagePin} (typed : fieldAt x 0 1 = 1)
    (resolved : s.resolve (s.queue n).ctx (fieldAt x 8 8) true = some (l, pins)) (prio : l.prio ≤ (s.queue n).pcap) (done : l.done = 0)
    (free : s.recordFree (s.lcbHome (s.queue n).ctx (fieldAt x 8 8)) = true)
    (room : s.rangeRoom s.nextId { lcb := l, items := fieldAt x 16 8, die := s.cdies.headD 0 : Launch } = true) :
    ∃ t ln, exec (.launchEntry n) s = .next t ∧ (t.queue n).head = ((s.queue n).head + 1) % 2 ^ 32 ∧
      tfind t.launches s.nextId = some ln ∧ ln.items = fieldAt x 16 8 ∧ ln.ctx = (s.queue n).ctx := by
  have allowed : ¬ ((s.queue n).pcap < l.prio ∨ l.done ≠ 0) := by omega
  set s1 := s.turned ((n + 1) % 64) with hs1
  have resolved1 : s1.resolve (s.queue n).ctx (fieldAt x 8 8) true = some (l, pins) := (resolve_turned _ _ _ _ _).trans resolved
  have free1 : s1.recordFree (s1.lcbHome (s.queue n).ctx (fieldAt x 8 8)) = true := by rw [hs1, lcbHome_turned]; exact free
  rw [launchEntry_eq, execLaunchEntry, onEntry_acts entry turn typed sound alone]
  simp only [← hs1, resolved1, if_neg allowed]
  rw [free1]
  simp only [Bool.not_true, Bool.false_or]
  refine newLaunch_consumed ?_ rfl rfl
  exact room

end

theorem queueEventsComplete : Rules.QueueEventsComplete := by
  intro s n v small
  refine ⟨fun x entry sound turn alone => ⟨nopEntry_consumed entry sound turn alone, signalEntry_consumed entry sound turn alone,
    fun pa typed at_ reached => ⟨tryWait_consumed entry sound turn alone typed at_ reached,
      waitRecheck_consumed entry sound turn alone typed at_ reached⟩,
    fun l pins typed resolved prio done free room => launchEntry_consumed entry sound turn alone typed resolved prio done free room⟩,
    fun en keeps => ⟨_, rfl, ?_⟩, fun fits => ⟨_, rfl, ?_⟩, fun halted => ⟨_, rfl, ?_⟩, fun full => ⟨_, rfl, ?_⟩⟩
  · rw [if_pos small, queue_kick, queue_putQueue, if_pos rfl, Queue.control, if_pos en, if_pos keeps]
  · rw [if_neg (by omega), if_neg (by omega), queue_kick, queue_putQueue, if_pos rfl]
  · rw [if_pos halted, queue_kick, queue_putQueue, if_pos rfl]
  · rw [if_pos full, queue_putQueue, if_pos rfl]

/-! ### Events that only owe further events -/

/-- From s to t only the agenda grows. -/
structure Owes (s t : State) : Prop where
  eq : t = { s with agenda := t.agenda }
  owed : ∀ e ∈ s.agenda, e ∈ t.agenda

namespace Owes

theorem refl (s : State) : Owes s s := ⟨rfl, fun _ h => h⟩

theorem trans {s t u : State} (h : Owes s t) (h' : Owes t u) : Owes s u :=
  ⟨by rw [h'.eq, h.eq], fun e he => h'.owed e (h.owed e he)⟩

theorem foldl {β : Type} {f : State → β → State} (h : ∀ s x, Owes s (f s x)) (l : List β) (s : State) : Owes s (l.foldl f s) := by
  induction l generalizing s with
  | nil => exact refl s
  | cons x l ih => exact (h s x).trans (ih _)

end Owes

theorem owes_owe (s : State) (e : Event) : Owes s (s.owe e) := ⟨rfl, fun _ h => List.mem_append_left _ h⟩

theorem owes_oweOnce (s : State) (e : Event) : Owes s (s.oweOnce e) := by
  unfold State.oweOnce
  split
  · exact .refl s
  · exact owes_owe s e

theorem mem_oweOnce (s : State) (e : Event) : e ∈ (s.oweOnce e).agenda := by
  unfold State.oweOnce
  split
  · next h => exact List.contains_iff_mem.1 h
  · exact List.mem_append_right _ (List.mem_singleton_self e)

theorem mem_owe (s : State) (e : Event) : e ∈ (s.owe e).agenda := List.mem_append_right _ (List.mem_singleton_self e)

theorem owes_pump (s : State) (cl : Nat) : Owes s (s.pump cl) := by
  unfold State.pump
  split
  · split
    · exact .refl s
    · exact owes_owe s _
  · exact .refl s

theorem owes_pumpAll (s : State) : Owes s s.pumpAll := .foldl owes_pump _ s

theorem owes_tryResume (s : State) : Owes s s.tryResume := by
  unfold State.tryResume
  extract_lets ready first rest
  refine .foldl (fun s (x : Nat × Team) => ?_) _ s
  exact owes_owe s (.resume x.1)

/-- A step owes what it owes for an entry of a list whatever it owes for the others. -/
theorem Owes.mem_foldl {β : Type} {f : State → β → State} (h : ∀ s x, Owes s (f s x)) {l : List β} {x : β} (listed : x ∈ l) {e : Event}
    (owed : ∀ s, e ∈ (f s x).agenda) (s : State) : e ∈ (l.foldl f s).agenda := by
  induction l generalizing s with
  | nil => cases listed
  | cons y l ih =>
    rcases List.mem_cons.1 listed with rfl | listed
    · exact (Owes.foldl h l _).owed e (owed s)
    · exact ih listed _

/-! ### The control complex -/

theorem registerWrite_base {s : State} {n v : Nat} (small : n < 64) (off : (s.queue n).en = false) :
    ∃ t, exec (.registerWrite 1 n v) s = .next t ∧ (t.queue n).base = v % 2 ^ 64 / 64 * 64 := by
  have writes : exec (.registerWrite 1 n v) s = .next (s.putQueue n { s.queue n with base := v % 2 ^ 64 / 64 * 64 }) :=
    congrArg Host.Outcome.next (if_pos (show n < 64 ∧ (!(s.queue n).en) = true from ⟨small, by simp [off]⟩))
  exact ⟨_, writes, by rw [queue_putQueue, if_pos rfl]⟩

theorem phhiWrite_entry (s : State) (v : Nat) : ∃ t, exec (.phhiWrite v) s = .next t ∧
    tget {} (t.ctxOf s.cc.ctxsel).handles s.cc.phsel = { lo := handleLow s.cc.phlo, hi := v % 2 ^ 52 } := by
  refine ⟨_, rfl, ?_⟩
  rw [State.ctxOf, State.putCtx, tget_tput_same, tget_mset, if_pos rfl]

theorem exhiWrite_entry (s : State) (v : Nat) : ∃ t, exec (.exhiWrite v) s = .next t ∧
    tget {} t.exps s.cc.exsel = { lo := exportLow s.cc.exlo, hi := v % 2 ^ 64 } :=
  ⟨_, rfl, (tget_mset _ _ _ _ _).trans (if_pos rfl)⟩

theorem taintClear_owed (s : State) (v : Nat) : ∃ t, exec (.taintClear v) s = .next t ∧ t.cc.tclrlen = v % 2 ^ 64 ∧ .taintClearDone ∈ t.agenda :=
  ⟨_, rfl, rfl, mem_owe _ _⟩

theorem taintClearDone_clears {s : State} {base len : Nat} {rest : List (Nat × Nat)} (clears : s.cc.clears = (base, len) :: rest) :
    ∃ t, exec .taintClearDone s = .next t ∧ t.cc.clears = rest ∧ (rest = [] → t.cc.tclrlen = 0) ∧
      ∀ x ∈ t.circ, x.2.st = .taint → x.2.home < 1000 → spansInside x.2.spans base len = false := by
  have done : exec .taintClearDone s = execTaintClearDone s := rfl
  rw [done, execTaintClearDone, clears]
  refine ⟨_, rfl, rfl, fun last => if_pos (by simp [last]), fun x listed taint home => ?_⟩
  have kept := (List.mem_filter.1 listed).2
  simpa [taint, home] using kept

/-- The context of a kill has no kill in progress. -/
theorem not_joined {s : State} {job : KillJob} (fresh : ∀ j ∈ s.kill, j.ctx ≠ job.ctx) :
    ¬ (s.kill.any (fun j => j.ctx == job.ctx && (j.whole || (j.fdom == job.fdom && !job.whole))) = true) := by
  rw [List.any_eq_true]
  rintro ⟨j, hj, same⟩
  exact fresh j hj (by simpa using (Bool.and_eq_true_iff.1 same).1)

theorem beginKill_owes {s : State} {job : KillJob} (fresh : ∀ j ∈ s.kill, j.ctx ≠ job.ctx) : .killComplete ∈ (s.beginKill job).agenda := by
  rw [State.beginKill, if_neg (not_joined fresh)]
  exact List.mem_append_right _ (List.mem_singleton_self _)

theorem beginKill_kill {s : State} {job : KillJob} (fresh : ∀ j ∈ s.kill, j.ctx ≠ job.ctx) :
    ∃ copies, { job with copies } ∈ (s.beginKill job).kill := by
  rw [State.beginKill, if_neg (not_joined fresh)]
  exact ⟨_, List.mem_append_right _ (List.mem_singleton_self _)⟩

theorem beginKill_teams {s : State} {job : KillJob} (fresh : ∀ j ∈ s.kill, j.ctx ≠ job.ctx) {x : Nat × Team}
    (listed : x ∈ (s.beginKill job).teams) {t : Team} (ht : (x.1, t) ∈ s.teams) : s.inDomain job.whole job.ctx job.fdom t = false := by
  rw [State.beginKill, if_neg (not_joined fresh)] at listed
  have kept := (List.mem_filter.1 listed).2
  by_contra dead
  have mine : x.1 ∈ (s.teams.filter (fun (x : Nat × Team) => s.inDomain job.whole job.ctx job.fdom x.2)).map (·.1) :=
    List.mem_map.2 ⟨(x.1, t), List.mem_filter.2 ⟨ht, by simpa using dead⟩, rfl⟩
  have gone := List.contains_iff_mem.2 mine
  dsimp only at kept
  rw [gone] at kept
  cases kept

theorem kill_begins {s : State} {v : Nat} (small : v < 2 ^ 64) (fresh : ∀ j ∈ s.kill, j.ctx ≠ bits v 19 0) :
    ∃ t, exec (.kill v) s = .next t ∧ .killComplete ∈ t.agenda ∧
      (∀ x ∈ t.teams, ¬ Rules.Doomed s (bits v 19 0) (bits v 63 32) (bit v 31) x.1) ∧
      ∃ j ∈ t.kill, j.ctx = bits v 19 0 ∧ j.fdom = bits v 63 32 ∧ j.whole = bit v 31 ∧ j.cause = 1 := by
  have kills : exec (.kill v) s = execKill v s := rfl
  rw [kills, execKill, Nat.mod_eq_of_lt small]
  refine ⟨_, rfl, beginKill_owes fresh, fun x listed => ?_, ?_⟩
  · rintro ⟨t, ht, present, ctx, domain⟩
    have alive := beginKill_teams fresh listed ht
    rw [← Bool.not_eq_true] at alive
    refine alive ?_
    simp only [State.inDomain, Bool.and_eq_true, bne_iff_ne, beq_iff_eq, Bool.or_eq_true]
    exact ⟨⟨present, ctx⟩, domain⟩
  · obtain ⟨copies, listed⟩ := beginKill_kill (s := { s with cc := { s.cc with killReg := if v = 0 then 1 else v } }) (job :=
      { ctx := bits v 19 0, whole := bit v 31, fdom := bits v 63 32, cause := 1 }) fresh
    exact ⟨_, listed, rfl, rfl, rfl, rfl⟩

/-! ### What a completed launch keeps -/

theorem kill_foldl {β : Type} {f : State → β → State} (h : ∀ s x, (f s x).kill = s.kill) (l : List β) (s : State) : (l.foldl f s).kill = s.kill :=
  foldl_keeps h l s

theorem releaseLaunch_kill (s : State) (l : Nat) (orphan : Bool) : (s.releaseLaunch l orphan).kill = s.kill := by
  unfold State.releaseLaunch
  extract_lets ln s1
  have taken : s1.kill = s.kill := by
    unfold s1
    split
    · split <;> rfl
    · rfl
  exact (startLaunch_spec _ l).2.trans taken

theorem settleHeld_kill (s : State) (l : Nat) : (s.settleHeld l).kill = s.kill := by
  unfold State.settleHeld
  refine kill_foldl (fun s (x : Nat × Launch) => ?_) _ s
  dsimp only
  split
  · rfl
  · exact releaseLaunch_kill _ _ _

theorem scrubSpill_kill (s : State) (l : Launch) : (s.scrubSpill l).kill = s.kill := by
  unfold State.scrubSpill
  extract_lets slots
  split <;> rfl

theorem checkLaunch_kill (s : State) (l : Nat) : (s.checkLaunch l).kill = s.kill := by
  unfold State.checkLaunch
  extract_lets ln
  split <;> rfl

theorem closeRecord_kill (s : State) (l : Nat) (killed : Bool) : (s.closeRecord l killed).kill = s.kill := by
  unfold State.closeRecord
  extract_lets ln s0 s1 s2
  have done : s1.kill = s.kill := by
    unfold s1
    split
    · split
      · exact scrubSpill_kill _ _
      · exact ((queueWork_counterWritten _).kill.trans (upkeep_deviceWrite _ _ _ _).kill).trans (scrubSpill_kill _ _)
    · exact scrubSpill_kill _ _
  split
  · split
    · exact (checkLaunch_kill _ _).trans done
    · exact done
  · exact done

theorem queueWork_entryDone (s : State) (l : Nat) : QueueWork s (s.entryDone l) := by
  unfold State.entryDone
  refine .foldl (fun s (x : Nat × Queue) => ?_) _ s
  dsimp -zeta only
  split
  · exact .refl s
  · next e _ =>
    extract_lets _ s1
    have left : QueueWork s s1 := queueWork_putQueue rfl
    refine ((left.trans ?_).trans (queueWork_settleQueue _ _ _)).trans (queueWork_kick _ _)
    split
    · exact queueWork_interrupt _ _ _ _ _
    · exact .refl _

theorem queueWork_kickAll (s : State) : QueueWork s s.kickAll := .foldl (fun s (x : Nat × Queue) => queueWork_kick s x.1) _ s

theorem completeLaunch_kill (s : State) (l : Nat) (killed : Bool) : (s.completeLaunch l killed).kill = s.kill := by
  unfold State.completeLaunch
  rw [(queueWork_kickAll _).kill, (queueWork_entryDone _ _).kill, closeRecord_kill, settleHeld_kill, (upkeep_settleWrites s).kill]

theorem writeRing_kill (s : State) (c : Nat) (xs : List Nat) : (s.writeRing c xs).kill = s.kill := by
  induction xs generalizing s with
  | nil => rfl
  | cons x xs ih =>
    unfold State.writeRing
    extract_lets n q s1
    refine (ih _).trans ?_
    show s1.kill = s.kill
    unfold s1
    split
    · rfl
    · exact (upkeep_setHomeLe _ _ _ _).kill

theorem inventory_kill (s : State) (job : KillJob) : (s.inventory job).kill = s.kill := by
  unfold State.inventory
  extract_lets homes settle dead s1
  exact (Upkeep.foldl upkeep_reevaluate homes s1).kill

theorem settleOwners_kill (s : State) : s.settleOwners.kill = s.kill := by
  unfold State.settleOwners
  extract_lets lost
  refine kill_foldl (fun s (x : Nat × CatLine) => ?_) lost s
  exact ((upkeep_putCat _ _ _).trans (upkeep_freeLine _ _)).kill

theorem killComplete_records {s : State} {j : KillJob} {js : List KillJob} (first : s.kill = j :: js) : ∃ t, exec .killComplete s = .next t ∧
    t.kill = js ∧ { what := 8, a := j.ctx, b := j.fdom, c := j.cause } ∈ t.interrupts := by
  have completes : exec .killComplete s = execKillComplete s := rfl
  rw [completes, execKillComplete, first]
  refine ⟨_, rfl, ?_⟩
  dsimp -zeta only
  extract_lets ids s1 s2 _ _ _ s3 s4 s5 s6 _ s7
  have settled : s2.kill = js := (settleOwners_kill _).trans (inventory_kill _ _)
  clear_value s2
  have freed : s3.kill = js := by
    unfold s3
    split <;> exact settled
  have completed : s4.kill = js := (kill_foldl (fun s l => completeLaunch_kill s l true) _ s3).trans freed
  have written : s5.kill = js := (writeRing_kill _ _ _).trans completed
  clear_value s5
  have noted : s7.kill = js ∧ s7.interrupts = s6.interrupts := by
    unfold s7
    split <;> exact ⟨written, rfl⟩
  have owed : Owes s7 s7.tryResume.pumpAll := (owes_tryResume s7).trans (owes_pumpAll _)
  rw [owed.eq]
  refine ⟨noted.1, ?_⟩
  show _ ∈ s7.interrupts
  rw [noted.2]
  exact List.mem_append_right _ (List.mem_singleton_self _)

/-! ### Contexts resumed, teams pre-empted -/

theorem run_resumes_context {s : State} {v : Nat} (halted : (s.ctxOf (v % 2 ^ 20)).halted = true) : ∃ t, exec (.run v) s = .next t ∧
    (t.ctxOf (v % 2 ^ 20)).halted = false := by
  have runs : exec (.run v) s = .next (s.resumeContext (v % 2 ^ 20)) := congrArg Host.Outcome.next (if_pos halted)
  refine ⟨_, runs, ?_⟩
  rw [State.resumeContext, State.ctxOf, State.putCtx, tget_tput_same]

theorem requestPreempt_owes {s : State} {w : Nat} (page : bits w 31 20 = 0) (cluster : bits w 19 9 < 1920) (die : bits w 8 0 ∈ s.cdies)
    {x : Nat × Team} (listed : x ∈ s.teams) (there : x.2.cluster = 2048 * bits w 8 0 + bits w 19 9) (resident : x.2.st = .resident) :
    .preemption x.1 ∈ (s.requestPreempt w none).agenda := by
  unfold State.requestPreempt
  extract_lets d cl
  rw [if_neg]
  · refine Owes.mem_foldl (x := x) (fun s y => ?_) (List.mem_filter.2 ⟨listed, ?_⟩) (fun s => ?_) s
    · exact owes_oweOnce s (.preemption y.1)
    · simp [there, resident, d, cl]
    · exact mem_oweOnce s (.preemption x.1)
  · have : ¬ dieClusters ≤ cl := by unfold dieClusters; omega
    simp [page, this, d, die]

theorem preq_owes {s : State} {v : Nat} (small : v < 2 ^ 20) (cluster : bits v 19 9 < 1920) (die : bits v 8 0 ∈ s.cdies) :
    ∃ t, exec (.preq v) s = .next t ∧
      ∀ x ∈ s.teams, x.2.cluster = 2048 * bits v 8 0 + bits v 19 9 → x.2.st = .resident → .preemption x.1 ∈ t.agenda := by
  have word : v % 2 ^ 32 = v := Nat.mod_eq_of_lt (by omega)
  have asks : exec (.preq v) s = .next (s.requestPreempt v none) := congrArg (fun w => Host.Outcome.next (s.requestPreempt w none)) word
  refine ⟨_, asks, fun x listed there resident => requestPreempt_owes ?_ cluster die listed there resident⟩
  unfold bits
  omega

/-! ### Symmetric borrows (R378) -/

theorem Sends.reqs {s t : State} (h : Sends s t) : t.reqs = s.reqs := by rw [h]

/-- A request of a symmetric entry that asks stands with what it asks for, ended where no home is to be asked. -/
theorem ask_sym (s : State) (n ty : Nat) {r : Request} {c x : Nat} (sym : r.purpose = .sym c x) :
    ∃ owing ended, tfind (s.ask n ty r).reqs n = some { r with owing, ended } := by
  unfold State.ask
  extract_lets r1 s1
  split
  · have ends : s1.answered n r1 = (s1.putReq n { r1 with ended := some 0 }).owe .symTakeEnd := by
      have sym1 : r1.purpose = .sym c x := sym
      simp only [State.answered, State.endRequest, sym1]
    rw [ends]
    exact ⟨_, _, (tfind_tput _ _ _ _).trans (if_pos rfl)⟩
  · have sent : Sends s1 (r.parts.foldl (fun s' (x : Nat × List (Nat × Nat)) => s'.post ty n x.1 0 false r.wait x.2) s1) :=
      .foldl (fun s x => sends_post s _ _ _ _ _ _ _) _ s1
    exact ⟨_, r.ended, (congrArg (tfind · n) sent.reqs).trans ((tfind_tput _ _ _ _).trans (if_pos rfl))⟩

theorem newReq_req (s : State) (r : Request) : (s.newReq r).1.req s.nextId = r := tget_tput_same _ _ _ _

/-- A new request of a symmetric entry asks. -/
theorem newReq_ask (s : State) (ty : Nat) {r : Request} {c x : Nat} (sym : r.purpose = .sym c x) :
    ∃ owing ended, tfind ((s.newReq r).1.ask (s.newReq r).2 ty ((s.newReq r).1.req (s.newReq r).2)).reqs s.nextId = some { r with owing, ended } := by
  show ∃ owing ended, tfind ((s.newReq r).1.ask s.nextId ty ((s.newReq r).1.req s.nextId)).reqs s.nextId = some { r with owing, ended }
  rw [newReq_req]
  exact ask_sym _ _ _ sym

theorem symcmdTake_asks {s : State} (idle : s.cc.symBusy = false) (sound : s.cc.badTake (s.sym s.cc.ctxsel s.cc.symsel) = false)
    {pages : List PagePin × Option Nat}
    (walked : collectPages (s.walkPage s.cc.ctxsel) (bits s.cc.symlen 40 7 * 128 / 4096 + 2) s.cc.symbase
      (s.cc.symbase + bits s.cc.symlen 40 7 * 128) = pages)
    (permitted : ∀ p ∈ pages.1, p.permits (kindOf (bits s.cc.symlen 3 2)) = true) (mapped : pages.2 = none)
    (alone : s.symConflict s.cc.ctxsel (kindOf (bits s.cc.symlen 3 2))
      (s.partsOf (pageSpans pages.1 s.cc.symbase (bits s.cc.symlen 40 7 * 128))) = false) :
    ∃ t, exec .symcmdTake s = .next t ∧ ∃ r, tfind t.reqs s.nextId = some r ∧ r.purpose = .sym s.cc.ctxsel s.cc.symsel ∧
      r.kind = kindOf (bits s.cc.symlen 3 2) ∧ r.base = s.cc.symbase ∧ r.len = bits s.cc.symlen 40 7 * 128 := by
  have takes : exec .symcmdTake s = execSymcmdTake s := rfl
  rw [takes]
  unfold execSymcmdTake
  extract_lets c n e k base len pgs parts _ s1 q
  have same : pgs = pages := walked
  have allowed : ¬ pgs.1.any (fun p => !p.permits k) = true := by
    rw [same, List.any_eq_true]
    rintro ⟨p, hp, denied⟩
    simp [k, permitted p hp] at denied
  have whole : ¬ pgs.2.isSome = true := by simp [same, mapped]
  have free : s.symConflict c k parts = false := by
    unfold parts
    rw [same]
    exact alone
  rw [if_neg (by simp [idle]), if_neg (by simp [e, c, n, sound]), if_neg allowed, if_neg whole, if_neg (by simp [free])]
  obtain ⟨owing, ended, h⟩ := newReq_ask s1 1 (r :=
    { purpose := .sym c n, team := symTeam c n, kind := k, wait := true, base, len
      cls := bits s.cc.symlen 1 0, ctx := c, age := ageOf s.cycle, issued := s.cycle, ident := identOf s.ownNum 0x1FF 0x7FF 0
      pins := pgs.1, parts }) rfl
  exact ⟨_, rfl, _, h, rfl, rfl, rfl, rfl⟩

theorem symcmdReturn_asks {s : State} (idle : s.cc.symBusy = false) (taken : (s.sym s.cc.ctxsel s.cc.symsel).kind ≠ .empty)
    (unused : ∀ x ∈ s.launches, x.2.st = .none ∨ x.2.ctx ≠ s.cc.ctxsel) :
    ∃ t, exec .symcmdReturn s = .next t ∧ ∃ r, tfind t.reqs s.nextId = some r ∧ r.purpose = .sym s.cc.ctxsel s.cc.symsel ∧ r.kind = .empty ∧
      r.handle = (s.sym s.cc.ctxsel s.cc.symsel).handle := by
  have returns : exec .symcmdReturn s = execSymcmdReturn s := rfl
  rw [returns]
  unfold execSymcmdReturn
  extract_lets c n e mine _ _ s1 q
  have none : ¬ s.launches.any (fun (x : Nat × Launch) => x.2.st != .none && x.2.ctx == c) = true := by
    rw [List.any_eq_true]
    rintro ⟨x, hx, lives⟩
    rcases unused x hx with h | h <;> simp [c, h] at lives
  rw [if_neg (by simp [idle]), if_neg (by simpa using taken)]
  refine ⟨_, congrArg _ (if_neg none), ?_⟩
  obtain ⟨owing, ended, h⟩ := newReq_ask s1 6 (r :=
    { purpose := .sym c n, team := symTeam c n, handle := e.handle, ctx := c, issued := s.cycle
      age := ageOf s.cycle, ident := identOf s.ownNum 0x1FF 0x7FF 0, parts := mine.map (fun (x : Nat × Circ) => (x.2.home, x.2.spans)) }) rfl
  exact ⟨_, h, rfl, rfl, rfl⟩

theorem sym_putSym (s : State) (c n : Nat) (e : Sym) : (s.putSym c n e).sym c n = e := by
  rw [State.sym, State.putSym, State.ctxOf, State.putCtx, tget_tput_same, tget_mset, if_pos rfl]

theorem symTakeEnd_takes {s : State} {k : Nat} {r : Request} {x y : Nat}
    (first : s.reqs.find? (fun z => (match z.2.purpose with | .sym _ _ => z.2.ended.isSome | _ => false)) = some (k, r))
    (sym : r.purpose = .sym x y) (take : r.kind ≠ .empty) (granted : r.ended.getD 0 ≤ 1) :
    ∃ t, exec .symTakeEnd s = .next t ∧ tfind t.reqs k = none ∧ t.cc.symBusy = false ∧ t.cc.symStatus = 0 ∧
      t.sym x y = { kind := r.kind, base := r.base, len := r.len, cls := r.cls, handle := r.handle } := by
  have ends : exec .symTakeEnd s = .next (({ s with reqs := tdel s.reqs k }.putSym x y
      { kind := r.kind, base := r.base, len := r.len, cls := r.cls, handle := r.handle }).symEnds 0) := by
    have unfolded : exec .symTakeEnd s = execSymTakeEnd s := rfl
    rw [unfolded, execSymTakeEnd]
    split
    · next absent => cases absent.symm.trans first
    · next k' r' found =>
      cases found.symm.trans first
      extract_lets st s1
      rw [sym]
      dsimp -zeta only
      rw [if_neg take, if_pos granted]
  exact ⟨_, ends, (tfind_tdel _ _ _).trans (if_pos rfl), rfl, rfl, sym_putSym _ _ _ _⟩

theorem controlEventsComplete : Rules.ControlEventsComplete := by
  intro s n v
  refine ⟨registerWrite_base, rfl, phhiWrite_entry s v, rfl, exhiWrite_entry s v, taintClear_owed s v, fun _ _ _ => taintClearDone_clears,
    kill_begins, fun _ _ => killComplete_records, run_resumes_context, preq_owes, ?_, symcmdReturn_asks, ?_⟩
  · intro len kind pages parts idle sound permitted mapped _ alone
    exact symcmdTake_asks idle sound rfl permitted mapped alone
  · intro k r x y first sym take granted
    exact symTakeEnd_takes first sym take granted

/-! ### Bytes that the device itself writes at their homes -/

/-- From s to t no entry of the catalogue appears. -/
def Prunes (s t : State) : Prop := ∀ k, tfind s.catalogue k = none → tfind t.catalogue k = none

namespace Prunes

theorem refl (s : State) : Prunes s s := fun _ h => h

theorem trans {s t u : State} (h : Prunes s t) (h' : Prunes t u) : Prunes s u := fun k free => h' k (h k free)

theorem of_eq {s t : State} (h : t.catalogue = s.catalogue) : Prunes s t := fun k free => by rw [h, free]

theorem foldl {β : Type} {f : State → β → State} (h : ∀ s x, Prunes s (f s x)) (l : List β) (s : State) : Prunes s (l.foldl f s) := by
  induction l generalizing s with
  | nil => exact refl s
  | cons x l ih => exact (h s x).trans (ih _)

end Prunes

theorem prunes_tdel {s t : State} {line : Nat} (h : t.catalogue = tdel s.catalogue line) : Prunes s t := fun k free => by
  rw [h, tfind_tdel, free, ite_self]

theorem prunes_tput {s t : State} {line : Nat} {c : CatLine} (h : t.catalogue = tput s.catalogue line c)
    (listed : (tfind s.catalogue line).isSome = true) : Prunes s t := fun k free => by
  rw [h, tfind_tput, if_neg, free]
  rintro rfl
  rw [free] at listed
  cases listed

theorem cat_listed {s : State} {line : Nat} (owned : (s.cat line).st = .ow) : (tfind s.catalogue line).isSome = true := by
  by_contra absent
  rw [Option.not_isSome_iff_eq_none] at absent
  rw [State.cat, tget, absent] at owned
  cases owned

theorem catalogue_setHomeByte (s : State) (loc : Nat) (b : Byte) : (s.setHomeByte loc b).catalogue = s.catalogue := by
  unfold State.setHomeByte
  split
  · dsimp only
    split <;> rfl
  · rfl

theorem catalogue_setHomeLe (s : State) (loc v n : Nat) : (s.setHomeLe loc v n).catalogue = s.catalogue := by
  induction n generalizing loc v with
  | zero => rfl
  | succ n ih => exact (catalogue_setHomeByte _ _ _).trans (ih _ _)

theorem cmsgs_setHomeByte (s : State) (loc : Nat) (b : Byte) : (s.setHomeByte loc b).cmsgs = s.cmsgs := by
  unfold State.setHomeByte
  split
  · dsimp only
    split <;> rfl
  · rfl

theorem cmsgs_setHomeLe (s : State) (loc v n : Nat) : (s.setHomeLe loc v n).cmsgs = s.cmsgs := by
  induction n generalizing loc v with
  | zero => rfl
  | succ n ih => exact (cmsgs_setHomeByte _ _ _).trans (ih _ _)

theorem catalogue_wakeLine (s : State) (line : Nat) : (s.wakeLine line).catalogue = s.catalogue := by
  unfold State.wakeLine State.oweOnce
  split
  · split <;> rfl
  · rfl

theorem cmsgs_wakeLine (s : State) (line : Nat) : (s.wakeLine line).cmsgs = s.cmsgs := by
  unfold State.wakeLine State.oweOnce
  split
  · split <;> rfl
  · rfl

theorem prunes_tidy (s : State) (line : Nat) : Prunes s (s.tidy line) := by
  unfold State.tidy
  split
  · exact prunes_tdel rfl
  · exact .refl s

theorem cmsgs_tidy (s : State) (line : Nat) : (s.tidy line).cmsgs = s.cmsgs := by
  unfold State.tidy
  split <;> rfl

theorem prunes_freeLine (s : State) (line : Nat) : Prunes s (s.freeLine line) := by
  unfold State.freeLine
  split
  · next listed => exact ((prunes_tput (t := s.putCat line _) rfl listed).trans (.of_eq (catalogue_wakeLine _ _))).trans (prunes_tidy _ _)
  · exact .refl s

theorem cmsgs_freeLine (s : State) (line : Nat) : (s.freeLine line).cmsgs = s.cmsgs := by
  unfold State.freeLine
  split
  · rw [cmsgs_tidy, cmsgs_wakeLine]
    rfl
  · rfl

/-- A page that comes back has no entry, and none appears. -/
theorem prunes_pullPage (s : State) (pa : Nat) : Prunes s (s.pullPage pa) ∧ tfind (s.pullPage pa).catalogue (pageKey pa) = none := by
  unfold State.pullPage
  split
  · next absent => exact ⟨.refl s, Option.isNone_iff_eq_none.1 absent⟩
  · extract_lets s1
    have taken : s1.catalogue = s.catalogue :=
      foldl_keeps (p := State.catalogue) (fun s (x : Nat × Byte) => catalogue_setHomeByte s x.1 x.2) _ _
    have gone : tfind ({ s1 with catalogue := tdel s1.catalogue (pageKey pa) } : State).catalogue (pageKey pa) = none := by
      rw [tfind_tdel, if_pos rfl]
    have back : Prunes { s1 with catalogue := tdel s1.catalogue (pageKey pa) } (s1.pageBack pa) := by
      unfold State.pageBack
      refine .foldl (fun s l => ?_) _ _
      split
      · exact prunes_freeLine _ _
      · exact .refl s
    exact ⟨((Prunes.of_eq taken).trans (prunes_tdel rfl)).trans back, back _ gone⟩

theorem prunes_landWriteBack (s : State) (n : Nat) (m : CMsg) : Prunes s (s.landWriteBack n m) ∧ (s.landWriteBack n m).cmsgs = s.cmsgs := by
  unfold State.landWriteBack
  extract_lets s1 c s2 s3
  have home : s1.catalogue = s.catalogue :=
    foldl_keeps (p := State.catalogue) (fun s (x : Nat × Byte) => catalogue_setHomeByte s x.1 x.2) m.data s
  have flying : s1.cmsgs = s.cmsgs := foldl_keeps (p := State.cmsgs) (fun s (x : Nat × Byte) => cmsgs_setHomeByte s x.1 x.2) m.data s
  have catalogued : Prunes s s2 ∧ s2.cmsgs = s.cmsgs := by
    unfold s2
    split
    · next owned =>
      have owned' : c.st = .ow := by simpa using (Bool.and_eq_true_iff.1 owned).1
      exact ⟨(Prunes.of_eq home).trans (prunes_tput (t := s1.putCat m.line _) rfl (cat_listed owned')), flying⟩
    · exact ⟨.of_eq home, flying⟩
  have noted : Prunes s s3 ∧ s3.cmsgs = s.cmsgs := catalogued
  split
  · exact ⟨noted.1.trans (prunes_freeLine _ _), (cmsgs_freeLine _ _).trans noted.2⟩
  · exact ⟨noted.1.trans (prunes_tidy _ _), (cmsgs_tidy _ _).trans noted.2⟩

/-- No cluster owns a line, and none of its write-backs is on its way. -/
def State.LineHome (s : State) (line : Nat) : Prop := (s.cat line).st ≠ .ow ∧ ∀ x ∈ s.cmsgs, ¬ (x.2.kind = .writeBack ∧ x.2.line = line)

theorem cat_tidy_st {s : State} {line : Nat} (h : (s.cat line).st ≠ .ow) (k : Nat) : ((s.tidy k).cat line).st ≠ .ow := by
  unfold State.tidy
  split
  · show (tget {} (tdel s.catalogue k) line).st ≠ _
    rw [tget_tdel]
    split
    · exact fun h => nomatch h
    · exact h
  · exact h

/-- An owner's copy returned and dropped leaves the catalogue and the messages on their way. -/
theorem returned_catalogue (s : State) (cl line : Nat) :
    ((s.returnLine cl line).dropBytes cl (fun a b => b.commons && lineOf a == line)).catalogue = s.catalogue ∧
      ((s.returnLine cl line).dropBytes cl (fun a b => b.commons && lineOf a == line)).cmsgs = s.cmsgs :=
  ⟨foldl_keeps (p := State.catalogue) (fun s (x : Nat × CByte) => catalogue_setHomeByte s x.1 x.2.val) _ s,
    foldl_keeps (p := State.cmsgs) (fun s (x : Nat × CByte) => cmsgs_setHomeByte s x.1 x.2.val) _ s⟩

/-- Settling a line brings it home; no entry of the catalogue appears. -/
theorem settleLine_home (s : State) (line : Nat) : (s.settleLine line).LineHome line ∧ Prunes s (s.settleLine line) := by
  have lands (l : List (Nat × CMsg)) (s : State) : Prunes s (l.foldl (fun s' x => (s'.takeC x.1).landWriteBack x.1 x.2) s) ∧
      ∀ x ∈ (l.foldl (fun s' (x : Nat × CMsg) => (s'.takeC x.1).landWriteBack x.1 x.2) s).cmsgs, x ∈ s.cmsgs ∧ ∀ y ∈ l, x.1 ≠ y.1 := by
    induction l generalizing s with
    | nil => exact ⟨.refl s, fun x hx => ⟨hx, fun y hy => by cases hy⟩⟩
    | cons y l ih =>
      obtain ⟨landed, flying⟩ := prunes_landWriteBack (s.takeC y.1) y.1 y.2
      obtain ⟨prunes, left⟩ := ih ((s.takeC y.1).landWriteBack y.1 y.2)
      refine ⟨(show Prunes s (s.takeC y.1) from .refl s).trans (landed.trans prunes), fun x hx => ?_⟩
      obtain ⟨there, others⟩ := left x hx
      rw [flying] at there
      obtain ⟨there, ne⟩ := List.mem_filter.1 there
      refine ⟨there, fun z hz => ?_⟩
      rcases List.mem_cons.1 hz with rfl | hz
      · simpa using ne
      · exact others z hz
  unfold State.settleLine
  extract_lets s1 c s2
  obtain ⟨prunes, left⟩ := lands (s.backsOf line) s
  have quiet : ∀ x ∈ s1.cmsgs, ¬ (x.2.kind = .writeBack ∧ x.2.line = line) := fun x hx ⟨kind, of⟩ =>
    (left x hx).2 x (List.mem_filter.2 ⟨(left x hx).1, by simp [kind, of]⟩) rfl
  split
  · next owned =>
    have owned' : (s1.cat line).st = .ow := by simpa using owned
    obtain ⟨catalogue, flying⟩ := returned_catalogue s1 c.owner line
    refine ⟨⟨cat_tidy_st ?_ _, fun x hx => ?_⟩, (prunes.trans ((Prunes.of_eq catalogue).trans ?_)).trans (prunes_tidy _ _)⟩
    · show (tget {} (tput s2.catalogue line _) line).st ≠ _
      rw [tget_tput_same]
      exact fun h => nomatch h
    · rw [cmsgs_tidy] at hx
      exact quiet x (flying ▸ hx)
    · refine prunes_tput (s := s2) (line := line) rfl ?_
      rw [catalogue]
      exact cat_listed owned'
  · next other => exact ⟨⟨by simpa using other, quiet⟩, prunes⟩

theorem settleLine_of_home {s : State} {line : Nat} (home : s.LineHome line) : s.settleLine line = s := by
  have quiet : s.backsOf line = [] := List.filter_eq_nil_iff.2 fun x hx h => home.2 x hx (by simpa using h)
  unfold State.settleLine
  rw [quiet]
  exact if_neg (by simpa using home.1)

theorem Sends.homeByte {s t : State} (h : Sends s t) (loc : Nat) : t.homeByte loc = s.homeByte loc := by rw [h]; rfl

theorem homeByte_setHomeLe_one (s : State) (a v loc : Nat) :
    (s.setHomeLe a v 1).homeByte loc = if loc = a then BitVec.ofNat 8 v else s.homeByte loc := by
  show (s.setHomeByte a (BitVec.ofNat 8 v)).homeByte loc = _
  exact State.homeByte_setHomeByte _ _ _ _

/-- An invalidation sent leaves every line home that was. -/
theorem lineHome_sendC {s : State} {line : Nat} (home : s.LineHome line) {m : CMsg} (kind : m.kind ≠ .writeBack) (ev : Nat → Event) :
    (s.sendC m ev).LineHome line ∧ (s.sendC m ev).catalogue = s.catalogue ∧ ∀ loc, (s.sendC m ev).homeByte loc = s.homeByte loc := by
  unfold State.sendC
  extract_lets id age route
  have sent : Sends _ ({ s with cmsgs := tput s.cmsgs id { m with age := some age }, nextId := id + 1 }.sendLane route.1 age m.data.length
      route.2.1 route.2.2 ((tfind s.txns m.txn).bind (fun t => s.issuerOf t.team)) (ev id)) := sends_inject _ _ rfl rfl
  refine ⟨⟨?_, fun x hx => ?_⟩, ?_, fun loc => (sent.homeByte loc).trans rfl⟩
  · rw [sent]
    exact home.1
  · rw [sent] at hx
    rcases mem_tput.1 hx with rfl | ⟨there, _⟩
    · exact fun h => kind h.1
    · exact home.2 x there
  · rw [sent]

/-- One byte written by the device at its home. -/
theorem deviceWrite_byte (s : State) (a v : Nat) : (s.deviceWrite a v 1).LineHome (lineOf a) ∧
    tfind (s.deviceWrite a v 1).catalogue (pageKey a) = none ∧ (s.deviceWrite a v 1).homeByte a = BitVec.ofNat 8 v ∧
    (s.LineHome (lineOf a) → tfind s.catalogue (pageKey a) = none → ∀ loc, loc ≠ a → (s.deviceWrite a v 1).homeByte loc = s.homeByte loc) := by
  unfold State.deviceWrite
  extract_lets line s1
  obtain ⟨home, prunes⟩ := settleLine_home (s.pullPage a) line
  have catalogue : s1.catalogue = ((s.pullPage a).settleLine line).catalogue := catalogue_setHomeLe _ _ _ _
  have home1 : s1.LineHome line := by
    refine ⟨?_, fun x hx => home.2 x ?_⟩
    · rw [State.cat, catalogue]
      exact home.1
    · rwa [← cmsgs_setHomeLe _ a v 1]
  have gone : tfind s1.catalogue (pageKey a) = none := by
    rw [catalogue]
    exact prunes _ (prunes_pullPage s a).2
  have byte : s1.homeByte a = BitVec.ofNat 8 v := (homeByte_setHomeLe_one _ _ _ _).trans (if_pos rfl)
  have others : s.LineHome line → tfind s.catalogue (pageKey a) = none → ∀ loc, loc ≠ a → s1.homeByte loc = s.homeByte loc := by
    intro settled absent loc ne
    have same : (s.pullPage a).settleLine line = s := by
      rw [State.pullPage, if_pos (by rw [absent]; rfl), settleLine_of_home settled]
    unfold s1
    rw [same, homeByte_setHomeLe_one, if_neg ne]
  split
  · exact ⟨home1, gone, byte, others⟩
  · next c found =>
    extract_lets s2
    have sent : s2.LineHome line ∧ s2.catalogue = s1.catalogue ∧ ∀ loc, s2.homeByte loc = s1.homeByte loc := by
      unfold s2
      generalize ((c.copies.map (· / 2048)).eraseDups) = ds
      clear_value s1
      clear others byte gone found catalogue
      induction ds generalizing s1 with
      | nil => exact ⟨home1, rfl, fun _ => rfl⟩
      | cons d ds ih =>
        obtain ⟨kept, same, bytes⟩ := lineHome_sendC home1 (m := { kind := .invalidate, line, die := d }) (fun h => nomatch h) .invalidate
        obtain ⟨kept', same', bytes'⟩ := ih (s1 := s1.sendC { kind := .invalidate, line, die := d } .invalidate) kept
        exact ⟨kept', same'.trans same, fun loc => (bytes' loc).trans (bytes loc)⟩
    obtain ⟨kept, same, bytes⟩ := sent
    have listed : (tfind s2.catalogue line).isSome = true := by rw [same, found]; rfl
    have entry : c = s1.cat line := by rw [State.cat, tget, found]; rfl
    refine ⟨⟨?_, kept.2⟩, ?_, (bytes a).trans byte, fun settled absent loc ne => (bytes loc).trans (others settled absent loc ne)⟩
    · show (tget {} (tput s2.catalogue line _) line).st ≠ _
      rw [tget_tput_same, entry]
      dsimp only
      split
      · exact fun h => nomatch h
      · exact home1.1
    · exact prunes_tput (s := s2) (t := s2.putCat line _) rfl listed _ (same ▸ gone)

/-! ### Accesses of the hosts and of the control complex (R406, R409) -/

/-- Bytes of one line written one after the other by the device: each holds what was written. -/
theorem deviceWrites_bytes {a n line page : Nat} (v : Nat → Nat) (inLine : ∀ i < n, lineOf (a + i) = line)
    (inPage : ∀ i < n, pageKey (a + i) = page) (s : State) {k : Nat} (hk : k ≤ n) :
    (0 < k → ((List.range k).foldl (fun s' i => s'.deviceWrite (a + i) (v i) 1) s).LineHome line ∧
      tfind ((List.range k).foldl (fun s' i => s'.deviceWrite (a + i) (v i) 1) s).catalogue page = none) ∧
    ∀ i < k, ((List.range k).foldl (fun s' i => s'.deviceWrite (a + i) (v i) 1) s).homeByte (a + i) = BitVec.ofNat 8 (v i) := by
  induction k with
  | zero => exact ⟨fun h => absurd h (Nat.lt_irrefl 0), fun i hi => absurd hi (Nat.not_lt_zero i)⟩
  | succ k ih =>
    obtain ⟨settled, bytes⟩ := ih (by omega)
    rw [List.range_succ, List.foldl_append, List.foldl_cons, List.foldl_nil]
    obtain ⟨home, gone, byte, others⟩ := deviceWrite_byte ((List.range k).foldl (fun s' i => s'.deviceWrite (a + i) (v i) 1) s) (a + k) (v k)
    rw [inLine k hk] at home others
    rw [inPage k hk] at gone others
    refine ⟨fun _ => ⟨home, gone⟩, fun i hi => ?_⟩
    rcases Nat.lt_succ_iff_lt_or_eq.1 hi with hi | rfl
    · obtain ⟨home', gone'⟩ := settled (by omega)
      rw [others home' gone' _ (by omega), bytes i hi]
    · exact byte

theorem owes_counterWritten (s : State) : Owes s s.counterWritten := by
  refine .foldl (fun s (x : Nat × Queue) => ?_) _ s
  exact owes_oweOnce s (.waitRecheck x.1)

theorem Owes.homeByte {s t : State} (h : Owes s t) (loc : Nat) : t.homeByte loc = s.homeByte loc := by rw [h.eq]; rfl

/-- What the control complex or a host writes in one line is at its home. -/
theorem outsideWrite_bytes (s : State) {pa n : Nat} (v : Nat) (inLine : pa / 64 = (pa + n - 1) / 64) {i : Nat} (hi : i < n) :
    (s.outsideWrite pa v n).homeByte (pa + i) = BitVec.ofNat 8 (v / 256 ^ i) := by
  have line : ∀ i < n, lineOf (pa + i) = lineOf pa := fun i hi => by unfold lineOf; omega
  have page : ∀ i < n, pageKey (pa + i) = pageKey pa := fun i hi => by unfold pageKey; omega
  have written := (deviceWrites_bytes (fun i => v / 256 ^ i % 256) line page s (Nat.le_refl n)).2 i hi
  unfold State.outsideWrite
  extract_lets s1
  have byte : s1.homeByte (pa + i) = BitVec.ofNat 8 (v / 256 ^ i % 256) := ((owes_counterWritten _).homeByte _).trans written
  refine (byte : _).trans ?_
  exact BitVec.eq_of_toNat_eq (by simp)

/-- What the control complex or a host reads where the line is not poisoned is what stands at its home. -/
theorem outsideRead_value {s : State} {pa n : Nat} (whole : lineOf pa ∉ s.poison) :
    (s.outsideRead pa n).2 = some ((s.outsideRead pa n).1.homeLe pa n) := by
  unfold State.outsideRead
  extract_lets s1
  have cleaner : lineOf pa ∉ s1.poison := fun h => whole (((upkeep_pullPage s pa).trans (upkeep_settleLine _ _)).poison _ h)
  have clean : s1.poison.contains (lineOf pa) = false := by simpa using cleaner
  rw [clean]
  rfl

theorem homeLe_congr {s t : State} (h : ∀ loc, t.homeByte loc = s.homeByte loc) (loc n : Nat) : t.homeLe loc n = s.homeLe loc n := by
  induction n generalizing loc with
  | zero => rfl
  | succ n ih => simp only [State.homeLe, h, ih]

theorem homeLe_putEdge (s : State) (he : Nat) (h : HostEdge) (loc n : Nat) : (s.putEdge he h).homeLe loc n = s.homeLe loc n :=
  homeLe_congr (s := s) (t := s.putEdge he h) (fun _ => rfl) loc n

theorem homeLe_cc (s : State) (cc : CcRegs) (loc n : Nat) : ({ s with cc } : State).homeLe loc n = s.homeLe loc n :=
  homeLe_congr (s := s) (t := { s with cc }) (fun _ => rfl) loc n

section
variable {s : State} {port pa : Nat} (small : port < 8) (linked : tget Port.down s.ports port = .cxl)
  (exported : (s.edge (port / 4)).hdmBase ≤ 4096 * (pa / 64 * 64 / 4096) ∧
    4096 * (pa / 64 * 64 / 4096) < (s.edge (port / 4)).hdmBase + (s.edge (port / 4)).hdmLen)
  (device : s.pageHost (s.edge (port / 4)) (pa / 64 * 64 / 4096) = false)
include small linked exported device

theorem cxlHostAccess_serves (wr : Bool) (v : Nat) : exec (.cxlHostAccess port wr pa v) s = .next (if wr then s.outsideWrite (pa / 64 * 64) v 64
    else (s.outsideRead (pa / 64 * 64) 64).1.putEdge (port / 4)
      { (s.outsideRead (pa / 64 * 64) 64).1.edge (port / 4) with data := (s.outsideRead (pa / 64 * 64) 64).2 }) := by
  have accesses : exec (.cxlHostAccess port wr pa v) s = execCxlHostAccess port wr pa v s := rfl
  have reached : ¬ (8 ≤ port ∨ (tget Port.down s.ports port != .cxl) = true ∨
      (!(s.edge (port / 4)).exports (pa / 64 * 64 / 4096)) = true) := by
    simp only [HostEdge.exports, linked, exported.1, exported.2]
    simp
    exact small
  rw [accesses]
  unfold execCxlHostAccess
  extract_lets he h a
  rw [if_neg reached, if_neg (by simp [h, he, a, device])]

theorem cxlHostAccess_writes (v : Nat) : ∃ t, exec (.cxlHostAccess port true pa v) s = .next t ∧
    ∀ i, i < 64 → t.homeByte (pa / 64 * 64 + i) = BitVec.ofNat 8 (v / 256 ^ i) :=
  ⟨_, cxlHostAccess_serves small linked exported device true v, fun _ hi => outsideWrite_bytes s v (by omega) hi⟩

theorem cxlHostAccess_reads (v : Nat) (whole : lineOf (pa / 64 * 64) ∉ s.poison) : ∃ t, exec (.cxlHostAccess port false pa v) s = .next t ∧
    (t.edge (port / 4)).data = some (t.homeLe (pa / 64 * 64) 64) := by
  refine ⟨_, cxlHostAccess_serves small linked exported device false v, ?_⟩
  rw [if_neg (by simp), outsideRead_value whole]
  generalize (s.outsideRead (pa / 64 * 64) 64).1 = t
  generalize hh : ({ t.edge (port / 4) with data := some (t.homeLe (pa / 64 * 64) 64) } : HostEdge) = h
  have edge : (t.putEdge (port / 4) h).edge (port / 4) = h := tget_tput_same _ _ _ _
  rw [edge, ← hh]
  rw [homeLe_putEdge]

end

theorem ccAccess_serves {s : State} {pa n v : Nat} (some : 0 < n) (fits : n ≤ 64) (inLine : pa / 64 = (pa + n - 1) / 64)
    (dram : s.isDram pa = true) :
    (∃ t, exec (.ccAccess true pa n v) s = .next t ∧ ∀ i, i < n → t.homeByte (pa + i) = BitVec.ofNat 8 (v / 256 ^ i)) ∧
    (lineOf pa ∉ s.poison → ∃ t, exec (.ccAccess false pa n v) s = .next t ∧ t.cc.data = Option.some (t.homeLe pa n)) := by
  have accesses (wr : Bool) : exec (.ccAccess wr pa n v) s = execCcAccess wr pa n v s := rfl
  have inside : ¬ (64 < n ∨ n = 0 ∨ pa / 64 ≠ (pa + n - 1) / 64) := by omega
  simp only [accesses, execCcAccess, if_neg inside, dram, if_true]
  refine ⟨⟨_, rfl, fun _ hi => outsideWrite_bytes s v inLine hi⟩, fun whole => ⟨_, rfl, ?_⟩⟩
  rw [if_neg (by simp)]
  have read := outsideRead_value (n := n) whole
  generalize s.outsideRead pa n = r at read ⊢
  exact read.trans (congrArg Option.some (homeLe_cc _ _ _ _).symm)

/-! ### Bias (R408, R409) -/

theorem edge_putEdge (s : State) (he : Nat) (h : HostEdge) : (s.putEdge he h).edge he = h := tget_tput_same _ _ _ _

theorem biasOn_stops {s : State} {he : Nat} (idle : (s.edge he).biasSt ≠ 1) (n : Nat) : s.biasOn he n = s := by
  cases n with
  | zero => rfl
  | succ n => exact if_pos (.inl idle)

theorem biasOn_done {s : State} {he n : Nat} (busy : (s.edge he).biasSt = 1) (still : (s.edge he).flipping = none)
    (past : biasFirst (s.edge he).biasCmd + biasCount (s.edge he).biasCmd ≤ (s.edge he).biasNext) :
    s.biasOn he (n + 1) = s.putEdge he { s.edge he with biasSt := 2 } :=
  (if_neg (by simp [busy, still])).trans (if_pos past)

theorem biasOn_flips {s : State} {he n : Nat} (busy : (s.edge he).biasSt = 1) (still : (s.edge he).flipping = none)
    (left : ¬ biasFirst (s.edge he).biasCmd + biasCount (s.edge he).biasCmd ≤ (s.edge he).biasNext)
    (host : s.pageHost (s.edge he) (s.edge he).biasNext = true) : s.biasOn he (n + 1) = s.startFlip he (s.edge he).biasNext :=
  (if_neg (by simp [busy, still])).trans ((if_neg left).trans (if_pos host))

/-- A page in device bias is passed. -/
theorem biasOn_passes {s : State} {he n : Nat} (busy : (s.edge he).biasSt = 1) (still : (s.edge he).flipping = none)
    (left : ¬ biasFirst (s.edge he).biasCmd + biasCount (s.edge he).biasCmd ≤ (s.edge he).biasNext)
    (device : s.pageHost (s.edge he) (s.edge he).biasNext = false) :
    ∃ t : State, s.biasOn he (n + 1) = t.biasOn he n ∧ (t.edge he).biasSt = 1 ∧ (t.edge he).flipping = none ∧
      (t.edge he).biasCmd = (s.edge he).biasCmd ∧ (t.edge he).biasNext = (s.edge he).biasNext + 1 := by
  have passes : s.biasOn he (n + 1) = _ := (if_neg (by simp [busy, still])).trans ((if_neg left).trans (if_neg (by simp [device])))
  refine ⟨_, passes, ?_⟩
  rw [edge_putEdge]
  split
  · have set : ({ s.setBias he (s.edge he).biasNext false with free := s.free + 1 } : State).edge he = _ := tget_tput_same _ _ _ _
    rw [set]
    exact ⟨busy, still, rfl, rfl⟩
  · exact ⟨busy, still, rfl, rfl⟩

theorem biasFirst_mod (v : Nat) : biasFirst (v % 2 ^ 52) = biasFirst v := by
  unfold biasFirst bits
  omega

theorem biasCount_mod (v : Nat) : biasCount (v % 2 ^ 52) = biasCount v := by
  unfold biasCount bits
  omega

/-- The command of a host edge die to device bias as it starts. -/
def HostEdge.commanded (h : HostEdge) (v : Nat) : HostEdge :=
  { h with biasCmd := v % 2 ^ 52, biasPage := 0, biasSt := 1, biasNext := biasFirst v }

section
variable {s : State} {he v : Nat} (small : he < 2) (idle : (s.edge he).biasSt ≠ 1) (one : bits v 11 1 = 0) (still : (s.edge he).flipping = none)
  (toDevice : bit v 0 = false)
include small idle one still toDevice

omit one still in
theorem biasToDevice_starts : exec (.biasToDevice he v) s = .next ((s.putEdge he ((s.edge he).commanded v)).biasOn he 2049) :=
  congrArg Host.Outcome.next (if_neg (show ¬ (2 ≤ he ∨ (s.edge he).biasSt = 1 ∨ bit v 0 = true) by simp [idle, toDevice, small]))

omit small idle toDevice in
/-- Where a command of one page starts, its page is left. -/
theorem commanded_left {s1 : State} (h : s1.edge he = (s.edge he).commanded v) : (s1.edge he).biasSt = 1 ∧ (s1.edge he).flipping = none ∧
    (s1.edge he).biasNext = bits v 51 12 ∧ biasFirst (s1.edge he).biasCmd + biasCount (s1.edge he).biasCmd = bits v 51 12 + 1 := by
  rw [h]
  refine ⟨rfl, still, rfl, ?_⟩
  show biasFirst (v % 2 ^ 52) + biasCount (v % 2 ^ 52) = _
  rw [biasFirst_mod, biasCount_mod, biasCount, one]
  rfl

theorem biasToDevice_passes (device : s.pageHost (s.edge he) (bits v 51 12) = false) :
    ∃ t, exec (.biasToDevice he v) s = .next t ∧ (t.edge he).biasSt = 2 := by
  refine ⟨_, biasToDevice_starts small idle toDevice, ?_⟩
  have edge := edge_putEdge s he ((s.edge he).commanded v)
  have device' : (s.putEdge he ((s.edge he).commanded v)).pageHost ((s.edge he).commanded v) (bits v 51 12) = false := device
  generalize s.putEdge he ((s.edge he).commanded v) = s1 at edge device'
  obtain ⟨busy, still1, next, stop⟩ := commanded_left one still edge
  obtain ⟨t, passes, busy2, still2, cmd, next2⟩ := biasOn_passes (n := 2048) busy still1 (by omega) (by rw [next, edge]; exact device')
  rw [passes, biasOn_done busy2 still2 (by rw [cmd, next2]; omega), edge_putEdge]

theorem biasToDevice_flips (host : s.pageHost (s.edge he) (bits v 51 12) = true) :
    ∃ t, exec (.biasToDevice he v) s = .next t ∧ (t.edge he).biasSt = 1 ∧ (t.edge he).flipping = some (bits v 51 12, 64) := by
  refine ⟨_, biasToDevice_starts small idle toDevice, ?_⟩
  have edge := edge_putEdge s he ((s.edge he).commanded v)
  have host' : (s.putEdge he ((s.edge he).commanded v)).pageHost ((s.edge he).commanded v) (bits v 51 12) = true := host
  generalize s.putEdge he ((s.edge he).commanded v) = s1 at edge host'
  obtain ⟨busy, still1, next, stop⟩ := commanded_left one still edge
  have flips := biasOn_flips (n := 2048) busy still1 (by omega) (by rw [next, edge]; exact host')
  rw [flips, next]
  unfold State.startFlip
  extract_lets h
  have none : ¬ h.flipping.isSome = true := by
    show ¬ (s1.edge he).flipping.isSome = true
    rw [still1]
    simp
  rw [if_neg none]
  have started (x : HostEdge) (ag : List Event) : ({ s1 with hostEdges := tput s1.hostEdges he x, agenda := ag } : State).edge he = x :=
    tget_tput_same _ _ _ _
  rw [started]
  exact ⟨busy, rfl⟩

end

/-- A bit set where it was clear. -/
theorem bit_set {old k : Nat} (small : old < 256) (hk : k < 8) :
    bit (BitVec.ofNat 8 (old - (if bit old k then 2 ^ k else 0) + 2 ^ k)).toNat k = true := by
  interval_cases k <;> simp only [bit, BitVec.toNat_ofNat, beq_iff_eq] <;> split <;> omega

/-- The edge whose table has had the bit of a page set. -/
def HostEdge.hosted (h : HostEdge) (page : Nat) : HostEdge :=
  { h with bias := h.bias.filter (· != h.index page) ++ [h.index page], direct := h.direct.filter (· != h.index page) }

/-- The edge with its command done. -/
def HostEdge.ended (h : HostEdge) : HostEdge := { h with biasSt := 2 }

theorem edge_setBias (s : State) (he page : Nat) : (s.setBias he page true).edge he = (s.edge he).hosted page := tget_tput_same _ _ _ _

/-- A page set to host bias is in host bias. -/
theorem pageHost_setBias {s : State} {he page : Nat} (exported : (s.edge he).exports page = true) (t : State)
    (mem : t.mem = (s.setBias he page true).mem) : t.pageHost ((s.edge he).hosted page).ended page = true := by
  generalize hh : s.edge he = h at exported
  have byte : readByte t.mem (h.biasBase + h.index page / 8) = BitVec.ofNat 8 ((readByte s.mem (h.biasBase + h.index page / 8)).toNat -
      (if bit (readByte s.mem (h.biasBase + h.index page / 8)).toNat (h.index page % 8) then 2 ^ (h.index page % 8) else 0) +
      2 ^ (h.index page % 8)) := by
    rw [mem, State.setBias]
    simp only [hh, readByte_writeByte]
    simp
  have sure : t.unsureBias (h.hosted page).ended (h.index page) = false := by
    have written : bit (readByte t.mem (h.biasBase + h.index page / 8)).toNat (h.index page % 8) = true := by
      rw [byte]
      exact bit_set (BitVec.isLt _) (Nat.mod_lt _ (by omega))
    have base : (h.hosted page).ended.biasBase = h.biasBase := rfl
    simp only [State.unsureBias, base, written]
    simp [HostEdge.hosted, HostEdge.ended]
  have index : (h.hosted page).ended.index page = h.index page := rfl
  have exported' : (h.hosted page).ended.exports page = true := exported
  rw [State.pageHost, State.hostBias, index, sure, exported']
  simp [HostEdge.hosted, HostEdge.ended]

theorem biasToHost_flips {s : State} {he v : Nat} (small : he < 2) (idle : (s.edge he).biasSt ≠ 1) (one : bits v 11 1 = 0)
    (still : (s.edge he).flipping = none) (toHost : bit v 0 = true)
    (exported : (s.edge he).hdmBase ≤ 4096 * bits v 51 12 ∧ 4096 * bits v 51 12 < (s.edge he).hdmBase + (s.edge he).hdmLen)
    (untaken : ∀ e ∈ s.circ, e.2.st = .taint) (nobody : (s.edge he).waiting = []) :
    ∃ t, exec (.biasToHost he v) s = .next t ∧ (t.edge he).biasSt = 2 ∧ t.pageHost (t.edge he) (bits v 51 12) = true := by
  have starts : exec (.biasToHost he v) s = .next ((s.putEdge he { s.edge he with biasCmd := v % 2 ^ 52, biasPage := 0 }).toHost he
      ((List.range (biasCount v)).map (fun i => biasFirst v + i))) :=
    congrArg Host.Outcome.next (if_neg (show ¬ (2 ≤ he ∨ (s.edge he).biasSt = 1 ∨ (!bit v 0) = true) by simp [idle, toHost, small]))
  have pages : (List.range (biasCount v)).map (fun i => biasFirst v + i) = [bits v 51 12] := by rw [biasCount, one]; rfl
  refine ⟨_, starts, ?_⟩
  rw [pages]
  generalize hh : ({ s.edge he with biasCmd := v % 2 ^ 52, biasPage := 0 } : HostEdge) = h
  have exports : h.exports (bits v 51 12) = true := by
    rw [← hh]
    simp [HostEdge.exports, exported.1, exported.2]
  have edge := edge_putEdge s he h
  have circ : (s.putEdge he h).circ = s.circ := rfl
  generalize s.putEdge he h = s1 at edge circ
  have uncovered : s1.pageCovered h (bits v 51 12) = false := by
    have held (meets : Circ → Bool) : s1.circ.any (fun (x : Nat × Circ) => x.2.st != .taint && meets x.2) = false := by
      rw [circ, List.any_eq_false]
      intro x hx
      simp [untaken x hx]
    unfold State.pageCovered
    extract_lets meets
    rw [← hh]
    simp only [still, nobody, held fun e => meets e.spans]
    rfl
  rw [State.toHost]
  simp only [edge, exports, uncovered, Bool.not_true, Bool.false_eq_true, if_false, State.toHost]
  rw [edge_putEdge]
  refine ⟨rfl, ?_⟩
  rw [edge_setBias, edge]
  have host := pageHost_setBias (s := s1) (he := he) (page := bits v 51 12) (by rw [edge]; exact exports)
    ((s1.setBias he (bits v 51 12) true).putEdge he (h.hosted (bits v 51 12)).ended) rfl
  rwa [edge] at host

theorem biasSt_setBias (s : State) (he page k : Nat) (host : Bool) : ((s.setBias he page host).edge k).biasSt = (s.edge k).biasSt := by
  show (tget ({} : HostEdge) (tput s.hostEdges he _) k).biasSt = _
  rw [tget_tput]
  split
  · next hk => rw [hk]
  · rfl

theorem birspi_flips {s : State} {he p m : Nat} (flipping : (s.edge he).flipping = some (p, m)) (idle : (s.edge he).biasSt ≠ 1)
    (again : (s.edge he).again = []) : ∃ t, exec (.birspi he []) s = .next t ∧ (t.edge he).flipping = none ∧
      ∀ x ∈ (s.edge he).waiting, .req x ∈ t.agenda := by
  have answers : exec (.birspi he []) s = execBirspi he [] s := rfl
  rw [answers, execBirspi, flipping]
  refine ⟨_, rfl, ?_⟩
  dsimp -zeta only
  extract_lets mine s1 s2 _ s3
  rw [again, List.foldl_nil]
  have home : Upkeep s s1 := .foldl (fun s (x : Nat × BitVec 8) => upkeep_deviceWrite s x.1 x.2.toNat 1) mine s
  have still : (s2.edge he).biasSt = (s.edge he).biasSt := (biasSt_setBias _ _ _ _ _).trans (home.bias he)
  have edge : s3.edge he = _ := edge_putEdge s2 he _
  have owes : Owes s3 ((s.edge he).waiting.foldl (fun s' n => s'.owe (.req n)) s3) := .foldl (fun s n => owes_owe s _) _ s3
  have edge' : ((s.edge he).waiting.foldl (fun s' n => s'.owe (.req n)) s3).edge he = s3.edge he := by rw [owes.eq]; rfl
  rw [biasOn_stops (by rw [edge', edge]; exact still ▸ idle), edge', edge]
  exact ⟨rfl, fun x hx => Owes.mem_foldl (fun s n => owes_owe s (.req n)) hx (fun s => mem_owe s (.req x)) s3⟩

/-! ### The device in its system -/

theorem spdm_answers {s : State} {port : Nat} (management : port = 8 ∨ port = 9) (x : SpdmAnswer) :
    s.answer port x = { s with spdm := s.spdm ++ [{ port := port, answer := x }], free := s.free + 1 } :=
  if_pos (by rcases management with rfl | rfl <;> rfl)

theorem getMeasurements_answers (s : State) {port k : Nat} (management : port = 8 ∨ port = 9) (low : 1 ≤ k) (high : k ≤ 8) :
    ∃ m, exec (.getMeasurements port k) s =
      .next { s with spdm := s.spdm ++ [{ port := port, answer := .measurement k m }], free := s.free + 1 } := by
  have measures : exec (.getMeasurements port k) s = execGetMeasurements port k s := rfl
  refine ⟨Config.freeMessage s.free, ?_⟩
  rw [measures, execGetMeasurements, if_neg (by omega), if_pos ⟨low, high⟩, spdm_answers management]

theorem powerUpWave_stage {s : State} (awake : s.awake = true) (left : s.stage < 20) :
    ∃ t, exec .powerUpWave s = .next t ∧ t.stage = s.stage + 1 := by
  have wakes : exec .powerUpWave s = execPowerUpWave s := rfl
  rw [wakes, execPowerUpWave, if_neg (by simp [awake]; exact left)]
  refine ⟨_, rfl, ?_⟩
  dsimp only
  split
  · rw [(owes_pumpAll _).eq]
  · rw [(owes_pumpAll _).eq]
    rfl

theorem cxlHostLink_trains {s : State} {port : Nat} (small : port < 8) : ∃ t, exec (.cxlHostLink port 1) s = .next t ∧
    tget Port.down t.ports port = .cxl := by
  have trains : exec (.cxlHostLink port 1) s = .next { s with ports := mset .down s.ports port .cxl } :=
    congrArg Host.Outcome.next (if_neg (by omega))
  exact ⟨_, trains, (tget_mset .down s.ports port port .cxl).trans (if_pos rfl)⟩

theorem uncorrectableError_poisons (s : State) (pa : Nat) : ∃ t, exec (.uncorrectableError 0 pa) s = .next t ∧ lineOf pa ∈ t.poison := by
  refine ⟨_, congrArg Host.Outcome.next (if_pos rfl), ?_⟩
  show lineOf pa ∈ if s.poison.contains (lineOf pa) then s.poison else s.poison ++ [lineOf pa]
  split
  · next there => exact List.contains_iff_mem.1 there
  · exact List.mem_append_right _ (List.mem_singleton_self _)

theorem domainStart_numbers {s : State} {v n : Nat} (small : v < 512) (fits : n ≤ 512) (some : 0 < n) : exec (.domainStart v n) s =
    .next { s with topo := { s.topo with devNum := Option.some v, devices := n, generation := s.topo.generation + 2 } } :=
  congrArg Host.Outcome.next (if_neg (by omega))

theorem powerMeter_throttles {s : State} {v : Nat} (off : v ≠ 38000) : exec (.powerMeter v) s = .next { s with throttled := decide (38000 < v) } := by
  have meters : exec (.powerMeter v) s = execPowerMeter v s := rfl
  rw [meters, execPowerMeter, if_neg off]

theorem hostEventsComplete : Rules.HostEventsComplete := by
  intro s he port pa n v
  dsimp only
  refine ⟨fun small idle one still => ⟨biasToDevice_passes small idle one still, biasToDevice_flips small idle one still,
      biasToHost_flips small idle one still⟩, fun p m => birspi_flips,
      fun small linked exported device => cxlHostAccess_writes small linked exported device v,
    fun small linked exported whole device => cxlHostAccess_reads small linked exported device v whole, ccAccess_serves,
    fun management => ⟨congrArg _ (spdm_answers management _), congrArg _ (spdm_answers management _),
      fun _ _ => congrArg _ (spdm_answers management _),
      ⟨_, congrArg _ (spdm_answers management _)⟩, ⟨_, congrArg _ (spdm_answers management _)⟩, fun _ => ⟨_, congrArg _ (spdm_answers management _)⟩,
      fun _ => getMeasurements_answers s management, congrArg _ (spdm_answers management _)⟩,
    ⟨_, rfl, rfl, rfl, rfl, rfl, rfl⟩, powerUpWave_stage, powerMeter_throttles, cxlHostLink_trains, domainStart_numbers,
    uncorrectableError_poisons s pa, rfl⟩

/-! ### Tasks (R357, R368) -/

theorem taskOf_of_tfind {s : State} {k : Nat} {t : Task} (h : tfind s.tasks k = some t) : s.taskOf k = t := by rw [State.taskOf, tget, h]; rfl

theorem Owes.tasks {s t : State} (h : Owes s t) : t.tasks = s.tasks := by rw [h.eq]
theorem Owes.teams {s t : State} (h : Owes s t) : t.teams = s.teams := by rw [h.eq]
theorem Owes.clusterOf {s t : State} (h : Owes s t) (k : Nat) : t.clusterOf k = s.clusterOf k := by rw [h.eq]; rfl

theorem tfind_putTask (s : State) (k : Nat) (t : Task) : tfind (s.putTask k t).tasks k = some t := (tfind_tput _ _ _ _).trans (if_pos rfl)

theorem regionLoad_ready {s : State} {k : Nat} {t : Task} (task : tfind s.tasks k = some t) (loading : t.st = .loading)
    (quiet : ∀ r ∈ s.reqs, r.2.purpose ≠ .load k) (last : t.left = []) :
    ∃ u, exec (.regionLoad k) s = .next u ∧ tfind u.tasks k = some { t with st := .ready } := by
  have takes : exec (.regionLoad k) s = execRegionLoad k s := rfl
  have none : s.reqs.find? (fun (x : Nat × Request) => x.2.purpose == .load k) = none :=
    List.find?_eq_none.2 fun x hx => by simpa using quiet x hx
  have ends : exec (.regionLoad k) s = .next ((s.putTask k { t with st := .ready }).pump t.cluster) := by
    rw [takes]
    unfold execRegionLoad
    extract_lets t'
    have same : t' = t := taskOf_of_tfind task
    rw [same, if_neg (by simp [loading])]
    split
    · next n r found => cases none.symm.trans found
    · rw [last]
  exact ⟨_, ends, by rw [(owes_pump _ _).tasks, tfind_putTask]⟩

theorem loadRetry_loads {s : State} {k : Nat} {t : Task} (task : tfind s.tasks k = some t) (refused : t.st = .retry)
    (waited : t.refused + 4096 ≤ s.cycle) (quiet : ∀ r ∈ s.reqs, r.2.team ≠ k) : ∃ u, exec (.loadRetry k) s = .next u ∧
      tfind u.tasks k = some { t with st := .loading, left := (s.launchOf t.launch).lcb.loads } := by
  have retries : exec (.loadRetry k) s = execLoadRetry k s := rfl
  have none : s.reqs.any (fun (x : Nat × Request) => x.2.team == k) = false := List.any_eq_false.2 fun x hx => by simpa using quiet x hx
  have again : (t.st == .retry && decide (t.refused + 4096 ≤ s.cycle) && !s.reqs.any (fun (x : Nat × Request) => x.2.team == k)) = true := by
    rw [none]
    simp [refused, waited]
  rw [retries]
  unfold execLoadRetry
  extract_lets t'
  have same : t' = t := taskOf_of_tfind task
  rw [same]
  exact ⟨_, congrArg _ (if_pos again), by rw [(owes_owe _ _).tasks, tfind_putTask]⟩

theorem taskAgePromote_promotes {s : State} {k : Nat} {t : Task} (task : tfind s.tasks k = some t) (waited : t.fed + 2 ^ 20 ≤ s.cycle) :
    exec (.taskAgePromote k) s = .next (s.putTask k { t with promoted := true }) := by
  have ages : exec (.taskAgePromote k) s = execTaskAgePromote k s := rfl
  rw [ages]
  unfold execTaskAgePromote
  extract_lets t'
  have same : t' = t := taskOf_of_tfind task
  rw [same, if_pos]
  rw [task, Option.isSome_some, Bool.true_and, decide_eq_true_eq]
  exact waited

/-! ### The start of a team (R368) -/

theorem Feeds.teams {die : Nat} {s t : State} (h : Feeds die s t) : t.teams = s.teams := by rw [h.eq]

/-- A task started is a resident team, and no task any more. -/
theorem startTeam_starts {s : State} {k : Nat} (numbered : k < s.nextId) (t : Task) (cores : List Nat) :
    tfind (s.startTeam k t cores).tasks k = none ∧ ∃ x, tfind (s.startTeam k t cores).teams k = some x ∧ x.st = .resident ∧ x.ix = t.ord := by
  unfold State.startTeam
  extract_lets l n cl cps c c1 c2 team s1 s2 s2a s3
  have placed : s2.teams = s1.teams ∧ s2.nextId = s1.nextId := by
    unfold s2
    generalize cps.zipIdx = places
    clear_value s1
    induction places generalizing s1 with
    | nil => exact ⟨rfl, rfl⟩
    | cons x xs ih => exact ih (s1 := s1.putGroup _ _)
  have coded : Upkeep s2 s2a := by
    unfold s2a
    split
    · exact .refl s2
    · exact upkeep_dropCode _ _ _
  have cleaned : Upkeep s2 s3 := (coded.trans (upkeep_settleWays _ _)).trans (.foldl (fun s (x : Nat × Region) => upkeep_selfInvalidate s _ _) _ _)
  have numbered' : k < s3.nextId := Nat.lt_of_lt_of_le (placed.2 ▸ numbered) cleaned.nextId
  have fed := feeds_feed ({ s3 with tasks := tdel s3.tasks k }.putLaunch t.launch { l with started := l.started + 1, next := max l.next (t.ord + 1) })
    (cl / 2048) feedFuel
  refine ⟨fed.tasks k numbered' ((tfind_tdel _ _ _).trans (if_pos rfl)), team, ?_, rfl, rfl⟩
  rw [fed.teams]
  show tfind s3.teams k = some team
  rw [cleaned.teams, placed.1]
  exact (tfind_tput _ _ _ _).trans (if_pos rfl)

theorem teamStart_starts {s : State} {k : Nat} {t : Task} {cores : List Nat} (task : tfind s.tasks k = some t) (numbered : k < s.nextId)
    (next : s.nextTask t.cluster = some k) (fits : s.startable t.cluster t = some cores) :
    ∃ u x, exec (.teamStart k) s = .next u ∧ tfind u.tasks k = none ∧ tfind u.teams k = some x ∧ x.st = .resident ∧ x.ix = t.ord := by
  have starts : exec (.teamStart k) s = .next ((s.startTeam k t cores).pumpAll) := by
    have unfolded : exec (.teamStart k) s = execTeamStart k s := rfl
    rw [unfolded]
    unfold execTeamStart
    extract_lets t'
    have same : t' = t := taskOf_of_tfind task
    rw [same, if_pos next, fits]
  obtain ⟨gone, x, team, resident, ord⟩ := startTeam_starts numbered t cores
  have owed := owes_pumpAll (s.startTeam k t cores)
  exact ⟨_, x, starts, by rw [owed.tasks, gone], by rw [owed.teams, team], resident, ord⟩

/-! ### The end of a team (R358) -/

theorem teamOf_of_tfind {s : State} {k : Nat} {t : Team} (h : tfind s.teams k = some t) : s.teamOf k = t := by rw [State.teamOf, tget, h]; rfl

/-- Where no trip waits to fall due, none does. -/
theorem raiseTrips_none {s : State} {k : Nat} (quiet : ∀ x ∈ (s.teamOf k).lowest, x.2.2.2.2 = false) (now : Option Nat) : s.raiseTrips k now = s := by
  have still (c : Nat) : s.raiseTrip k now c = s := by
    unfold State.raiseTrip
    extract_lets t
    split
    · next was j f found => cases quiet _ (mem_of_tfind found)
    · rfl
  have all (l : List Nat) : l.foldl (fun s' c => s'.raiseTrip k now c) s = s := by
    induction l with
    | nil => rfl
    | cons c l ih => rw [List.foldl_cons, still, ih]
  unfold State.raiseTrips
  split
  · rfl
  · exact all _

theorem beginLoads_teams (s : State) (k : Nat) : (s.beginLoads k).teams = s.teams := by
  unfold State.beginLoads
  extract_lets t l
  split <;> rfl

theorem beginWaiting_teams (s : State) (l : Nat) : (s.beginWaiting l).teams = s.teams := by
  unfold State.beginWaiting
  extract_lets mine sorted
  exact foldl_keeps (p := State.teams) (fun s (x : Nat × Task) => beginLoads_teams s x.1) sorted s

theorem checkLaunch_teams (s : State) (l : Nat) : (s.checkLaunch l).teams = s.teams := by
  unfold State.checkLaunch
  extract_lets ln
  split <;> rfl

theorem dropTeam_gone (s : State) (k : Nat) : tfind (s.dropTeam k).teams k = none := by
  unfold State.dropTeam
  extract_lets t l s1 s2 s3
  have kept : s3.teams = s1.teams := by
    unfold s3
    rw [(owes_tryResume _).teams, checkLaunch_teams, beginWaiting_teams]
    rfl
  rw [(owes_pumpAll s3).teams, kept]
  exact (tfind_tdel _ _ _).trans (if_pos rfl)

theorem teamEnd_gone {s : State} {k : Nat} {t : Team} (team : tfind s.teams k = some t) (ending : t.st = .ending)
    (quiet : ∀ x ∈ t.lowest, x.2.2.2.2 = false) (txns : ∀ x ∈ s.txns, x.2.team ≠ k) (reqs : ∀ r ∈ s.reqs, r.2.team ≠ k)
    (copies : ∀ c ∈ s.copies, c.2.team ≠ k) (given : ∀ g ∈ t.g, g.2.kind = .empty ∨ g.2.peer = true) :
    ∃ u, exec (.teamEnd k) s = .next u ∧ tfind u.teams k = none := by
  have same := teamOf_of_tfind team
  have trips : s.raiseTrips k none = s := raiseTrips_none (by rw [same]; exact quiet) none
  have txns' : s.txns.any (fun (x : Nat × Txn) => x.2.team == k) = false := List.any_eq_false.2 fun x hx => by simpa using txns x hx
  have reqs' : s.reqs.any (fun (x : Nat × Request) => x.2.team == k) = false := List.any_eq_false.2 fun x hx => by simpa using reqs x hx
  have copies' : s.copies.any (fun (x : Nat × Copy) => x.2.team == k) = false := List.any_eq_false.2 fun x hx => by simpa using copies x hx
  have pieces : t.pieces = [] := by
    have none : (t.g.map (·.2)).filter (fun r => r.kind != .empty && !r.peer) = [] := by
      rw [List.filter_eq_nil_iff]
      intro r hr
      obtain ⟨g, hg, rfl⟩ := List.mem_map.1 hr
      rcases given g hg with h | h <;> simp [h]
    simp only [Team.pieces, none]
    rfl
  have ends : exec (.teamEnd k) s = .next (s.dropTeam k) := by
    have unfolded : exec (.teamEnd k) s = execTeamEnd k s := rfl
    rw [unfolded]
    unfold execTeamEnd
    rw [trips]
    extract_lets s1 t' s2
    have same' : t' = t := same
    rw [same', if_neg (by simp [ending])]
    refine congrArg Host.Outcome.next ((if_neg (ne_true_of_eq_false txns')).trans ((if_neg ?_).trans (if_pos (by rw [pieces]; rfl))))
    rw [Bool.or_eq_true, not_or]
    exact ⟨ne_true_of_eq_false reqs', ne_true_of_eq_false copies'⟩
  exact ⟨_, ends, dropTeam_gone s k⟩

/-! ### The completion of a launch (R360) -/

theorem launchOf_of_tfind {s : State} {k : Nat} {l : Launch} (h : tfind s.launches k = some l) : s.launchOf k = l := by
  rw [State.launchOf, tget, h]
  rfl

theorem checkLaunch_none {s : State} {l k : Nat} (absent : tfind s.launches k = none) (other : k ≠ l) :
    tfind (s.checkLaunch l).launches k = none := by
  unfold State.checkLaunch
  extract_lets ln
  split
  · exact (tfind_tput _ _ _ _).trans ((if_neg other).trans absent)
  · exact absent

theorem closeRecord_none (s : State) (k : Nat) (killed : Bool) : tfind (s.closeRecord k killed).launches k = none := by
  unfold State.closeRecord
  extract_lets ln s0 s1 s2
  have gone : tfind s2.launches k = none := by
    show tfind ((tdel s1.launches k).map (fun (e : Nat × Launch) =>
        (e.1, if e.2.creator == some k then { e.2 with creator := none } else e.2))) k = none
    rw [tfind_map (fun _ (l : Launch) => if l.creator == some k then { l with creator := none } else l), tfind_tdel, if_pos rfl]
    rfl
  split
  · next c _ =>
    split
    · next listed =>
      have other : k ≠ c := by
        rintro rfl
        rw [gone] at listed
        cases listed
      exact checkLaunch_none ((tfind_tput _ _ _ _).trans ((if_neg other).trans gone)) other
    · exact gone
  · exact gone

theorem completeLaunch_none (s : State) (k : Nat) (killed : Bool) : tfind (s.completeLaunch k killed).launches k = none :=
  (queueWork_kickAll _).launch_none ((queueWork_entryDone _ _).launch_none (closeRecord_none _ k killed))

theorem launchComplete_gone {s : State} {k : Nat} {l : Launch} (record : tfind s.launches k = some l) (live : l.st = .running ∨ l.st = .completing)
    (ended : l.ended = l.teams) (childless : l.children = 0) : ∃ t, exec (.launchComplete k) s = .next t ∧ tfind t.launches k = none := by
  have complete : (l.live && l.ended == l.teams && l.children == 0) = true := by
    rcases live with h | h <;> simp [Launch.live, h, ended, childless]
  have completes : exec (.launchComplete k) s = .next (s.completeLaunch k false) := by
    have unfolded : exec (.launchComplete k) s = execLaunchComplete k s := rfl
    rw [unfolded]
    unfold execLaunchComplete
    rw [launchOf_of_tfind record]
    exact congrArg Host.Outcome.next (if_pos complete)
  exact ⟨_, completes, completeLaunch_none s k false⟩

/-! ### Balancing (R369) -/

theorem Sends.clusters {s t : State} (h : Sends s t) : t.clusters = s.clusters := by rw [h]

/-- A request with a home to ask leaves the clusters. -/
theorem ask_clusters (s : State) (n ty : Nat) {r : Request} (parts : r.parts ≠ []) : (s.ask n ty r).clusters = s.clusters := by
  unfold State.ask
  extract_lets r1 s1
  rw [if_neg (by simpa using parts)]
  have sent : Sends s1 (r.parts.foldl (fun s' (x : Nat × List (Nat × Nat)) => s'.post ty n x.1 0 false r.wait x.2) s1) :=
    .foldl (fun s x => sends_post s _ _ _ _ _ _ _) _ s1
  exact sent.clusters

theorem newReq_ask_clusters (s : State) (ty : Nat) {r : Request} (parts : r.parts ≠ []) :
    ((s.newReq r).1.ask (s.newReq r).2 ty ((s.newReq r).1.req (s.newReq r).2)).clusters = s.clusters := by
  show ((s.newReq r).1.ask s.nextId ty ((s.newReq r).1.req s.nextId)).clusters = _
  rw [newReq_req, ask_clusters _ _ _ parts]
  rfl

theorem relocate_clusters (s : State) (team cl handle : Nat) : (s.relocate team cl handle).clusters = s.clusters := by
  unfold State.relocate
  extract_lets mine q
  split
  · rfl
  · next some =>
    refine newReq_ask_clusters s 9 ?_
    show mine.map _ ≠ []
    simpa using some

theorem relocateReq_clusters (s : State) (cl n : Nat) : (s.relocateReq cl n).clusters = s.clusters := by
  unfold State.relocateReq
  extract_lets r id q
  split
  · rfl
  · next some => exact (newReq_ask_clusters (s.putReq n { r with ident := id }) 9 (by simpa using some)).trans rfl

/-- A task moved stands in the queue of the cluster that it moved to, where that has a place. -/
theorem moveTask_queued {s : State} {k cl : Nat} (room : s.depth cl < 64) : k ∈ ((s.moveTask k cl).clusterOf cl).queue := by
  unfold State.moveTask
  extract_lets t c s1 d s2 s3
  rw [if_neg (by omega)]
  have moved : s3.clusters = s2.clusters :=
    foldl_keeps (p := State.clusters) (fun s (x : Nat × Region) => relocate_clusters s k cl x.2.handle) _ s2
  have asked (l : List (Nat × Request)) : (l.foldl (fun s' (x : Nat × Request) => s'.relocateReq cl x.1) s3).clusters = s3.clusters :=
    foldl_keeps (p := State.clusters) (fun s (x : Nat × Request) => relocateReq_clusters s cl x.1) l s3
  have queue : s2.clusterOf cl = { d with queue := d.queue ++ [k] } := tget_tput_same _ _ _ _
  show k ∈ (tget ({} : Cluster) (State.clusters _) cl).queue
  rw [asked, moved]
  show k ∈ (s2.clusterOf cl).queue
  rw [queue]
  exact List.mem_append_right _ (List.mem_singleton_self k)

theorem pickBest_some {α : Type} {lt : α → α → Bool} {xs : List α} (h : xs ≠ []) : ∃ x, pickBest lt xs = some x ∧ x ∈ xs := by
  obtain ⟨x, hx⟩ := Option.ne_none_iff_exists'.1 (fun none => h (pickBest_eq_none_iff.1 none))
  exact ⟨x, hx, mem_of_pickBest hx⟩

/-- A list of a table's entries of which only one is as asked. -/
theorem filter_eq_singleton {α : Type} {p : Nat × α → Bool} {xs : List (Nat × α)} {c : Nat × α} (listed : c ∈ xs) (asked : p c = true)
    (only : ∀ x ∈ xs, p x = true → x = c) (distinct : xs.Pairwise (fun a b => a.1 ≠ b.1)) : xs.filter p = [c] := by
  induction xs with
  | nil => cases listed
  | cons x xs ih =>
    obtain ⟨first, rest⟩ := List.pairwise_cons.1 distinct
    by_cases h : x = c
    · subst h
      rw [List.filter_cons_of_pos asked, List.filter_eq_nil_iff.2]
      intro y hy py
      exact first y hy (by rw [only y (List.mem_cons_of_mem _ hy) py])
    · rw [List.filter_cons_of_neg (fun px => h (only x List.mem_cons_self px))]
      refine ih ?_ (fun y hy => only y (List.mem_cons_of_mem _ hy)) rest
      exact (List.mem_cons.1 listed).resolve_left fun e => h e.symm

theorem depthExchange_moves {s : State} {k : Nat} {c : Nat × Cluster} (listed : c ∈ s.clusters)
    (deep : c.1 / 2048 = k ∧ s.dieDepth k + 8 * 1920 ≤ c.2.queue.length * 1920) (cluster : s.clusterOf c.1 = c.2)
    (only : ∀ x ∈ s.clusters, x.1 / 2048 = k ∧ s.dieDepth k + 8 * 1920 ≤ x.2.queue.length * 1920 → x = c) (other : s.shallowest k ≠ c.1)
    (room : (s.clusterOf (s.shallowest k)).queue.length < 64) (distinct : s.clusters.Pairwise (fun a b => a.1 ≠ b.1)) :
    ∃ t j, exec (.depthExchange k) s = .next t ∧ j ∈ c.2.queue ∧ j ∈ (t.clusterOf (s.shallowest k)).queue := by
  have one : s.clusters.filter (fun (x : Nat × Cluster) => x.1 / 2048 == k &&
      decide (s.dieDepth k + 8 * dieClusters ≤ x.2.queue.length * dieClusters)) = [c] := by
    refine filter_eq_singleton listed ?_ (fun x hx h => only x hx ?_) distinct
    · exact Bool.and_eq_true_iff.2 ⟨beq_iff_eq.2 deep.1, decide_eq_true deep.2⟩
    · obtain ⟨die, depth⟩ := Bool.and_eq_true_iff.1 h
      exact ⟨beq_iff_eq.1 die, of_decide_eq_true depth⟩
  have some : c.2.queue ≠ [] := by
    intro h
    rw [h] at deep
    simp at deep
  obtain ⟨j, best, queued⟩ := pickBest_some (lt := fun a b => decide ((s.taskOf b).ord < (s.taskOf a).ord)) some
  have exchanges : exec (.depthExchange k) s = .next ((s.moveTask j (s.shallowest k)).pump (s.shallowest k)) := by
    have unfolded : exec (.depthExchange k) s = execDepthExchange k s := rfl
    rw [unfolded]
    unfold execDepthExchange
    extract_lets total deeps
    have deeps_eq : deeps = [c.1] := congrArg (List.map (·.1)) one
    rw [deeps_eq]
    refine congrArg Host.Outcome.next ?_
    rw [List.foldl_cons, List.foldl_nil, cluster, State.highest, best]
    exact if_neg other
  exact ⟨_, j, exchanges, queued, by rw [(owes_pump _ _).clusterOf]; exact moveTask_queued room⟩

theorem neighbours_ne {s : State} {k d : Nat} (h : d ∈ s.neighbours k) : d ≠ k := by
  rintro rfl
  have near := (List.mem_filter.1 h).2
  simp at near

/-- The teams above move from the one range of a die to another die. -/
theorem moveTop_ranges {s : State} {src dst n : Nat} {r : Range} (one : tget [] s.ranges src = [r]) (room : (tget [] s.ranges dst).length < 4096)
    (other : dst ≠ src) : tget [] (s.moveTop src dst n).ranges src = [{ r with hi := r.hi - min n (r.hi - r.lo) }] := by
  unfold State.moveTop
  extract_lets rs
  have rs_eq : rs = [r] := one
  have best : pickBest (fun a b : Range => decide (b.hi - b.lo < a.hi - a.lo)) rs = some r := by rw [rs_eq]; rfl
  rw [best]
  dsimp -zeta only
  extract_lets k s1
  split
  · next nothing =>
    have zero : k = 0 := nothing.resolve_right (by show ¬ 4096 ≤ _; omega)
    show tget [] s.ranges src = _
    rw [one]
    have same : r.hi - min n (r.hi - r.lo) = r.hi := by
      show r.hi - k = _
      omega
    rw [same]
  · rw [(feeds_feed _ _ _).ranges src other.symm]
    show tget [] (tput (tput s.ranges src _) dst _) src = _
    rw [tget_tput_other _ _ _ other.symm, tget_tput_same, rs_eq]
    simp [k]

theorem dieDepthExchange_moves {s : State} {k d : Nat} {r : Range} (neighbour : s.neighbours k = [d])
    (lower : s.queuedTeams d + 64 ≤ s.queuedTeams k) (one : tget [] s.ranges k = [r]) (room : (tget [] s.ranges d).length < 4096) :
    ∃ t, exec (.dieDepthExchange k) s = .next t ∧
      tget [] t.ranges k = [{ r with hi := r.hi - min ((s.queuedTeams k - s.queuedTeams d) / 2) (r.hi - r.lo) }] := by
  have exchanges : exec (.dieDepthExchange k) s = .next (s.moveTop k d ((s.queuedTeams k - s.queuedTeams d) / 2)) := by
    have unfolded : exec (.dieDepthExchange k) s = execDieDepthExchange k s := rfl
    rw [unfolded, execDieDepthExchange, neighbour]
    exact congrArg Host.Outcome.next (if_pos lower)
  exact ⟨_, exchanges, moveTop_ranges one room (neighbours_ne (by rw [neighbour]; exact List.mem_singleton_self d))⟩

theorem tget_of_mem {α : Type} {d : α} {m : Table α} {x : Nat × α} (listed : x ∈ m) (distinct : m.Pairwise (fun a b => a.1 ≠ b.1)) :
    tget d m x.1 = x.2 := by
  induction m with
  | nil => cases listed
  | cons e m ih =>
    obtain ⟨first, rest⟩ := List.pairwise_cons.1 distinct
    rcases List.mem_cons.1 listed with rfl | listed
    · rw [tget, tfind, if_pos rfl]
      rfl
    · rw [tget, tfind, if_neg (first x listed)]
      exact ih listed rest

theorem steal_moves {s : State} {k : Nat} {c : Nat × Cluster} (listed : c ∈ s.clusters) (idle : (s.clusterOf k).queue = [])
    (cluster : s.clusterOf c.1 = c.2) (die : c.1 / 2048 = k / 2048)
    (deepest : ∀ x ∈ s.clusters, x.1 / 2048 = k / 2048 → x.1 ≠ c.1 → x.2.queue.length < c.2.queue.length)
    (distinct : s.clusters.Pairwise (fun a b => a.1 ≠ b.1)) (startable : ∃ j ∈ c.2.queue, (s.startable k (s.taskOf j)).isSome = true) :
    ∃ t j, exec (.steal k) s = .next t ∧ j ∈ c.2.queue ∧ j ∈ (t.clusterOf k).queue := by
  obtain ⟨i, hi, starts⟩ := startable
  have busy : c.2.queue ≠ [] := fun h => by rw [h] at hi; cases hi
  have depth_eq (x : Nat × Cluster) (hx : x ∈ s.clusters) : s.depth x.1 = x.2.queue.length :=
    congrArg (fun c : Cluster => c.queue.length) (tget_of_mem hx distinct)
  have mine : c.1 ∈ (s.clusters.filter (fun (x : Nat × Cluster) => x.1 / 2048 == k / 2048 && !x.2.queue.isEmpty)).map (·.1) :=
    List.mem_map.2 ⟨c, List.mem_filter.2 ⟨listed, by simp [die, busy]⟩, rfl⟩
  have best : pickBest (fun a b => decide (s.depth b < s.depth a))
      ((s.clusters.filter (fun (x : Nat × Cluster) => x.1 / 2048 == k / 2048 && !x.2.queue.isEmpty)).map (·.1)) = some c.1 := by
    obtain ⟨d, picked, hd⟩ := pickBest_some (lt := fun a b => decide (s.depth b < s.depth a)) (List.ne_nil_of_mem mine)
    have least := pickBest_least (fun x => by simp) (fun x y z h h' => by simp only [decide_eq_true_eq] at *; omega) picked c.1 mine
    obtain ⟨x, hx, rfl⟩ := List.mem_map.1 hd
    obtain ⟨hx, near⟩ := List.mem_filter.1 hx
    rw [picked]
    by_contra ne
    have less := deepest x hx (by simpa using (Bool.and_eq_true_iff.1 near).1) (fun e => ne (by rw [e]))
    rw [← depth_eq x hx, ← depth_eq c listed] at less
    simp [less] at least
  have eligible : i ∈ c.2.queue.filter (s.couldStart k) := List.mem_filter.2 ⟨hi, starts⟩
  obtain ⟨j, top, hj⟩ := pickBest_some (lt := fun a b => decide ((s.taskOf b).ord < (s.taskOf a).ord)) (List.ne_nil_of_mem eligible)
  have depth0 : s.depth k = 0 := by rw [State.depth, idle]; rfl
  have steals : exec (.steal k) s = .next ((s.moveTask j k).pump k) := by
    have unfolded : exec (.steal k) s = execSteal k s := rfl
    rw [unfolded]
    unfold execSteal
    extract_lets die' deeper found
    have found_eq : found = some j := by
      unfold found
      rw [show pickBest deeper _ = some c.1 from best]
      dsimp only
      rw [cluster]
      exact top
    rw [if_neg (by simp [depth0]), found_eq]
  exact ⟨_, j, steals, (List.mem_filter.1 hj).1, by rw [(owes_pump _ _).clusterOf]; exact moveTask_queued (by omega)⟩

theorem teamEventsComplete : Rules.TeamEventsComplete := by
  intro s k
  refine ⟨fun t cores => teamStart_starts, fun t task => ⟨regionLoad_ready task, loadRetry_loads task, taskAgePromote_promotes task⟩,
    fun t => teamEnd_gone, fun l record live ended childless _ => launchComplete_gone record live ended childless,
    fun c => depthExchange_moves, fun d r => dieDepthExchange_moves, fun c => steal_moves⟩

/-! ### Boosts and budgets (R371, R372) -/

theorem Owes.launchOf {s t : State} (h : Owes s t) (k : Nat) : t.launchOf k = s.launchOf k := by rw [h.eq]; rfl

theorem boost_boosts {s : State} {k : Nat} (live : (s.launchOf k).st = .running ∨ (s.launchOf k).st = .completing) :
    ∃ t, exec (.boost k) s = .next t ∧ (t.launchOf k).boosted = some ((s.launchOf k).low / 32) := by
  have live' : (s.launchOf k).live = true := by rcases live with h | h <;> simp [Launch.live, h]
  have boosts : exec (.boost k) s =
      .next (((s.putLaunch k { s.launchOf k with boosted := some ((s.launchOf k).low / 32) }).tryResume).pumpAll) :=
    congrArg Host.Outcome.next (if_pos live')
  exact ⟨_, boosts, by rw [((owes_tryResume _).trans (owes_pumpAll _)).launchOf, State.launchOf_putLaunch, if_pos rfl]⟩

theorem budgetExceeded_notes {s : State} {k : Nat} (first : (s.launchOf k).budgetAt = none) (bounded : (s.launchOf k).lcb.budget ≠ 0)
    (past : (s.launchOf k).lcb.budget < (s.launchOf k).slots) : ∃ t, exec (.budgetExceeded k) s = .next t ∧
      (t.launchOf k).budgetAt = some (s.launchOf k).slots := by
  have exceeds : ((s.launchOf k).budgetAt.isNone && (s.launchOf k).lcb.budget != 0 &&
      decide ((s.launchOf k).lcb.budget < (s.launchOf k).slots)) = true := by
    simp [first, bounded, past]
  have unfolded : exec (.budgetExceeded k) s = execBudgetExceeded k s := rfl
  rw [unfolded]
  unfold execBudgetExceeded
  extract_lets ln
  refine ⟨_, congrArg Host.Outcome.next (if_pos exceeds), ?_⟩
  have kept (l : List Nat) (s : State) : (l.foldl (fun s' j => s'.putGroup j { (s'.group j).defer 0x38 1 0 with budgeted := true }) s).launchOf k =
      s.launchOf k := by
    induction l generalizing s with
    | nil => rfl
    | cons j l ih => exact (ih _).trans rfl
  rw [kept, State.launchOf_putLaunch, if_pos rfl]

/-! ### The end of a group (R75, R372) -/

/-- What the lanes that a group has are told by: those absent and those that have ended. -/
def Group.lanesGone (g : Group) : Mask × Mask := (g.absent, g.exited)

theorem Group.live_congr {g h : Group} (same : g.lanesGone = h.lanesGone) : g.live = h.live := by
  obtain ⟨absent, exited⟩ := Prod.ext_iff.1 same
  exact congrArg₂ (fun a e => ~~~(a ||| e)) absent exited

/-- What changes a group's fragments alone leaves the lanes that are gone. -/
theorem Group.lanesGone_of_bare {g h : Group} (same : g.bare = h.bare) : g.lanesGone = h.lanesGone :=
  (congrArg (fun b : Group => (b.absent, b.exited)) same :)

theorem Group.lanesGone_reselect (g : Group) : g.reselect.lanesGone = g.lanesGone := lanesGone_of_bare g.reselect_bare

theorem Group.lanesGone_complete (g : Group) (k : Nat) : (g.complete k).lanesGone = g.lanesGone := by
  unfold Group.complete
  extract_lets p
  split
  · split <;> rfl
  · rfl

theorem Group.lanesGone_withdraw (g : Group) (lanes : Mask) : (g.withdraw lanes).lanesGone = g.lanesGone := by
  unfold Group.withdraw
  extract_lets pool
  exact foldl_keeps (p := Group.lanesGone) (fun g (x : Nat × Fuse) => lanesGone_complete g x.1) pool { g with pool := pool }

theorem Group.lanesGone_settleTret (g : Group) : g.settleTret.lanesGone = g.lanesGone := by
  unfold Group.settleTret
  extract_lets hs
  split
  · unfold Group.returnFromTrap
    split
    · rfl
    · exact lanesGone_reselect _
  · rfl

/-- Lanes dropped have ended. -/
theorem Group.lanesGone_drop (g : Group) (lanes : Mask) : (g.drop lanes).lanesGone = (g.absent, g.exited ||| lanes) := by
  unfold Group.drop
  extract_lets fs g1 g2
  have g2_gone : g2.lanesGone = (g.absent, g.exited ||| lanes) := lanesGone_withdraw g1 lanes
  split
  · exact g2_gone
  · rw [lanesGone_settleTret]
    exact g2_gone

theorem Group.live_drop_live (g : Group) : (g.drop g.live).live = 0 := by
  have gone := Prod.ext_iff.1 (g.lanesGone_drop g.live)
  have all : (g.drop g.live).live = ~~~(g.absent ||| (g.exited ||| ~~~(g.absent ||| g.exited))) := congrArg₂ (fun a e => ~~~(a ||| e)) gone.1 gone.2
  rw [all]
  ext i hi
  cases h : g.absent[i] <;> cases h' : g.exited[i] <;> simp [h, h']

theorem publishLane_groups (s : State) (g : Group) (lane : Nat) (broken : Bool) :
    ((s.publishLane g lane broken).groups, (s.publishLane g lane broken).cur) =
    (s.groups, s.cur) := by
  unfold State.publishLane
  refine foldl_keeps (p := fun s : State => (s.groups, s.cur)) (fun s j => ?_) _ s
  split <;> rfl

theorem endTeam_groups (s : State) (k : Nat) : (s.endTeam k).groups = s.groups := by
  unfold State.endTeam
  extract_lets t
  split <;> rfl

theorem group_congr {s t : State} (h : t.groups = s.groups) (j : Nat) : t.group j = s.group j := by rw [State.group, State.group, h]

/-- What follows an exit leaves the other groups, and the lanes of its own. -/
theorem afterExit_group (s : State) (k j : Nat) : ((s.afterExit k).group j).lanesGone = (s.group j).lanesGone ∧
    (j ≠ k → (s.afterExit k).group j = s.group j) := by
  unfold State.afterExit
  extract_lets g
  split
  · have told (t : Team) : (g.deferred.foldl (fun s' d => s'.interrupt 3 (placeName t g) d.code d.detail) s).groups = s.groups := by
      refine foldl_keeps (p := State.groups) (fun s (d : Deferred) => ?_) g.deferred s
      rfl
    have ended (s1 : State) : (((s1.putGroup k { g with deferred := [] }).dropCarried g).endTeam g.team).group j =
        (s1.putGroup k { g with deferred := [] }).group j := group_congr (endTeam_groups _ _) j
    rw [ended, State.group_putGroup, group_congr (told _)]
    refine ⟨?_, fun other => if_neg other⟩
    split
    · next same => rw [same]; rfl
    · rfl
  · exact ⟨rfl, fun _ => rfl⟩

/-- A group whose live lanes end has none left; no other group changes. -/
theorem exitLanes_group (s : State) (broken : Bool) (j : Nat) :
    (((s.exitLanes s.grp s.grp.live broken).group s.cur).live = 0) ∧
      (j ≠ s.cur → (s.exitLanes s.grp s.grp.live broken).group j = s.group j) := by
  unfold State.exitLanes
  extract_lets s1 s2
  have published : (s1.groups, s1.cur) = (s.groups, s.cur) := by
    unfold s1
    split
    · exact foldl_keeps (p := fun s : State => (s.groups, s.cur)) (fun s l => publishLane_groups s _ l broken) _ s
    · rfl
  obtain ⟨groups, cur⟩ := Prod.ext_iff.1 published
  have grp : s1.grp = s.grp := by
    show s1.group s1.cur = s.group s.cur
    rw [group_congr groups, show s1.cur = s.cur from cur]
  have last (j : Nat) : (if s.launch.ordered then (s2.advanceLow s.team.launch).owe (.boost s.team.launch) else s2).group j = s2.group j := by
    split <;> rfl
  have set (j : Nat) : (s1.setGrp (s1.grp.drop s.grp.live)).group j = if j = s.cur then s.grp.drop s.grp.live else s.group j := by
    rw [State.setGrp, State.group_putGroup, show s1.cur = s.cur from cur, grp, group_congr groups]
  rw [last, last]
  refine ⟨?_, fun other => ?_⟩
  · rw [Group.live_congr (afterExit_group _ _ _).1, set, if_pos rfl, Group.live_drop_live]
  · rw [(afterExit_group _ _ j).2 other, set, if_neg other]

theorem endGroup_group (s : State) (k j : Nat) : ((s.endGroup k).group k).live = 0 ∧ (j ≠ k → (s.endGroup k).group j = s.group j) := by
  unfold State.endGroup
  extract_lets s1 s2
  obtain ⟨none, others⟩ := exitLanes_group { s with cur := k } true j
  have none1 : (s1.group k).live = 0 := none
  have others1 : j ≠ k → s1.group j = s.group j := others
  show (s2.group k).live = 0 ∧ (j ≠ k → s2.group j = s.group j)
  unfold s2
  split
  · rw [State.group_putGroup, if_pos rfl, Group.live_congr (Group.lanesGone_reselect _)]
    exact ⟨none1, fun other => by rw [State.group_putGroup, if_neg other, others1 other]⟩
  · exact ⟨none1, others1⟩

theorem endGroups_live (l : List Nat) (s : State) (j : Nat) (h : j ∈ l ∨ (s.group j).live = 0) : ((l.foldl State.endGroup s).group j).live = 0 := by
  induction l generalizing s with
  | nil => exact h.resolve_left (fun h => by cases h)
  | cons k l ih =>
    refine ih _ ?_
    by_cases same : j = k
    · subst same
      exact .inr (endGroup_group s j j).1
    · rcases h with h | h
      · exact .inl ((List.mem_cons.1 h).resolve_left same)
      · exact .inr (by rw [(endGroup_group s k j).2 same, h])

theorem budgetEnd_ends {s : State} {k b : Nat} (noted : (s.launchOf k).budgetAt = some b) (past : b + 2 ^ 20 ≤ (s.launchOf k).slots) :
    ∃ t, exec (.budgetEnd k) s = .next t ∧ ∀ j x, (s.teamOf x.team).launch = k ∧ (s.teamOf x.team).st ≠ .saved ∧ x.live ≠ 0 ∧
      tfind s.groups j = some x → (t.group j).live = 0 := by
  have ends : exec (.budgetEnd k) s = .next ((s.groupsOf k).foldl State.endGroup s) := by
    have unfolded : exec (.budgetEnd k) s = execBudgetEnd k s := rfl
    rw [unfolded]
    unfold execBudgetEnd
    extract_lets ln
    have noted' : ln.budgetAt = some b := noted
    rw [noted']
    exact congrArg Host.Outcome.next (if_pos past)
  refine ⟨_, ends, fun j x ⟨launch, here, live, group⟩ => endGroups_live _ s j (.inl ?_)⟩
  exact List.mem_map.2 ⟨(j, x), List.mem_filter.2 ⟨mem_of_tfind group, by simp [launch, here]; exact live⟩, rfl⟩

/-! ### The watchdog (R392) -/

/-- A trap at user level writes the trap registers. -/
theorem trap_writes {s : State} (user : s.grp.cur.handler = false) (code detail : Nat) : (s.trap code detail).hasGroup s.cur = true ∧
    ((s.trap code detail).group s.cur).tpc = s.grp.cur.pc ∧ ((s.trap code detail).group s.cur).tmask = s.grp.cur.mask := by
  unfold State.trap State.trapWith
  extract_lets g f s1 s2
  rw [if_neg (by simp [f, g, user])]
  have groups : (if s.ctx.exctl.getLsbD 2 then s2.interrupt 2 (placeName s.team g) code detail else s2).groups = s1.groups := by
    split <;> rfl
  rw [group_congr groups, State.hasGroup, groups]
  have put : s1.group s.cur = _ := tget_tput_same _ _ _ _
  rw [put]
  exact ⟨congrArg Option.isSome ((tfind_tput _ _ _ _).trans (if_pos rfl)), rfl, rfl⟩

theorem watchdog_traps {s : State} {k : Nat} {f : Frag} (bounded : s.dogLimit (s.group k) ≠ 0) (past : s.dogLimit (s.group k) ≤ (s.group k).dog)
    (runs : s.teamStopped (s.teamOf (s.group k).team) = false) (watched : (s.group k).watched = true) (free : (s.group k).record = none)
    (waits : (s.group k).waiter = some f) (user : f.handler = false) :
    ∃ t, exec (.watchdog k) s = .next t ∧ (t.group k).tpc = f.pc ∧ (t.group k).tmask = f.mask := by
  have unfolded : exec (.watchdog k) s = execWatchdog k s := rfl
  rw [unfolded]
  unfold execWatchdog
  extract_lets g lim
  have due : ¬ (lim = 0 || decide (g.dog < lim) || s.teamStopped (s.teamOf g.team) || !g.watched) = true := by
    have b : lim ≠ 0 := bounded
    have p : ¬ g.dog < lim := Nat.not_lt.2 past
    have r : s.teamStopped (s.teamOf g.team) = false := runs
    have w : g.watched = true := watched
    simp [b, p, r, w]
  have free' : ¬ g.record.isSome = true := by
    have : g.record = none := free
    simp [this]
  have waits' : g.waiter = some f := waits
  rw [if_neg due, if_neg free', waits']
  refine ⟨_, rfl, ?_⟩
  dsimp -zeta only
  extract_lets g1 _ s1 s2
  have grp : s1.grp = { g.selectFrag f with dog := 0 } := tget_tput_same _ _ _ _
  obtain ⟨there, tpc, tmask⟩ := trap_writes (s := s1) (by rw [grp]; exact user) 0x39 f.waitDetail
  rw [grp] at tpc tmask
  have tpc' : (s2.group k).tpc = f.pc := tpc
  have tmask' : (s2.group k).tmask = f.mask := tmask
  have kept : (s2.group k).reselect.tpc = (s2.group k).tpc ∧ (s2.group k).reselect.tmask = (s2.group k).tmask :=
    have bare := Group.reselect_bare (s2.group k)
    ⟨(congrArg Group.tpc bare :), (congrArg Group.tmask bare :)⟩
  have there' : s2.hasGroup k = true := there
  have selected : (if s2.hasGroup k then s2.putGroup k (s2.group k).reselect else s2).group k = (s2.group k).reselect := by
    rw [if_pos there', State.group_putGroup, if_pos rfl]
  show (State.group (if s2.hasGroup k then s2.putGroup k (s2.group k).reselect else s2) k).tpc = _ ∧
    (State.group (if s2.hasGroup k then s2.putGroup k (s2.group k).reselect else s2) k).tmask = _
  rw [selected, kept.1, kept.2]
  exact ⟨tpc', tmask'⟩

/-! ### Pre-emption (R196, R396) -/

theorem borrowWaitPreempt_owes {s : State} {k : Nat} (stuck : s.borrowStuck k = true) (frame : (s.freeFrame (s.teamOf k).ctx).isSome = true)
    (fresh : .preemption k ∉ s.agenda) : ∃ t, exec (.borrowWaitPreempt k) s = .next t ∧ .preemption k ∈ t.agenda := by
  have due : (s.borrowStuck k && (s.freeFrame (s.teamOf k).ctx).isSome && !s.agenda.contains (.preemption k)) = true := by
    simp [stuck, frame, fresh]
  have preempts : exec (.borrowWaitPreempt k) s = .next ((s.putTeam k { s.teamOf k with forBorrow := true }).owe (.preemption k)) :=
    congrArg Host.Outcome.next (if_pos due)
  exact ⟨_, preempts, mem_owe _ _⟩

/-- A pool of which some frame is not allotted has a free one. -/
theorem freeFrame_isSome {s : State} {c f : Nat} (inPool : f < s.ctxField c 0x10 4) (free : f ∉ (s.ctxOf c).frames) :
    ∃ x, s.freeFrame c = some x := by
  rw [← Option.isSome_iff_exists, State.freeFrame, List.find?_isSome]
  by_contra taken
  have all : ∀ i ∈ List.range ((s.ctxOf c).frames.length + 1), i < s.ctxField c 0x10 4 → i ∈ (s.ctxOf c).frames := by
    intro i hi inside
    by_contra out
    exact taken ⟨i, hi, by simp [inside, out]⟩
  by_cases low : f < (s.ctxOf c).frames.length + 1
  · exact free (all f (List.mem_range.2 low) inPool)
  · have inside : List.range ((s.ctxOf c).frames.length + 1) ⊆ (s.ctxOf c).frames := fun i hi =>
      all i hi (by have := List.mem_range.1 hi; omega)
    have long := (List.subperm_of_subset List.nodup_range inside).length_le
    simp at long

/-- A group without a due trap stops: no other group changes, and no team. -/
theorem stopGroup_frame {s : State} {j : Nat} (trips : ∀ x ∈ (s.teamOf (s.group j).team).lowest, x.2.2.2.2 = false)
    (free : (s.group j).dueTrap = none) : (s.stopGroup j).teams = s.teams ∧ ∀ i, i ≠ j → (s.stopGroup j).group i = s.group i := by
  unfold State.stopGroup
  rw [raiseTrips_none trips]
  extract_lets s' _ _ s1 g0 g back
  have kept : s1 = s := by
    have free' : (s'.group j).dueTrap = none := free
    unfold s1
    rw [free']
  clear_value s1
  subst kept
  split
  · exact ⟨rfl, fun i other => (State.group_putGroup _ _ _ _).trans (if_neg other)⟩
  · exact ⟨rfl, fun _ _ => rfl⟩

theorem stopGroups_teams (l : List Nat) {s : State} {k : Nat} (trips : ∀ x ∈ (s.teamOf k).lowest, x.2.2.2.2 = false) (distinct : l.Nodup)
    (mine : ∀ j ∈ l, (s.group j).team = k ∧ (s.group j).dueTrap = none) : (l.foldl State.stopGroup s).teams = s.teams := by
  induction l generalizing s with
  | nil => rfl
  | cons j l ih =>
    obtain ⟨first, rest⟩ := List.nodup_cons.1 distinct
    obtain ⟨team, free⟩ := mine j List.mem_cons_self
    obtain ⟨teams, others⟩ := stopGroup_frame (s := s) (j := j) (by rw [team]; exact trips) free
    refine (ih (s := s.stopGroup j) ?_ rest fun i hi => ?_).trans teams
    · rw [State.teamOf, teams]
      exact trips
    · rw [others i (fun e => first (e ▸ hi))]
      exact mine i (List.mem_cons_of_mem _ hi)

theorem owes_oweSave (s : State) (k : Nat) : Owes s (s.oweSave k) := by
  unfold State.oweSave
  split
  · exact owes_owe s _
  · exact .refl s

theorem preemption_drains {s : State} {k f : Nat} {t : Team} (team : tfind s.teams k = some t) (resident : t.st = .resident)
    (inPool : f < s.ctxField t.ctx 0x10 4) (free : f ∉ (s.ctxOf t.ctx).frames) (distinct : s.groups.Pairwise (fun a b => a.1 ≠ b.1))
    (untrapped : ∀ x ∈ s.groups, x.2.team = k → x.2.dueTrap = none) (quiet : ∀ x ∈ t.lowest, x.2.2.2.2 = false) :
    ∃ u, exec (.preemption k) s = .next u ∧ (u.teamOf k).st = .draining := by
  obtain ⟨x, frame⟩ := freeFrame_isSome inPool free
  have unfolded : exec (.preemption k) s = execPreemption k s := rfl
  rw [unfolded]
  unfold execPreemption
  extract_lets t'
  have same : t' = t := teamOf_of_tfind team
  have found : (if t'.st == .resident then s.freeFrame t'.ctx else none) = some x := by rw [same, if_pos (by simp [resident]), frame]
  rw [found]
  refine ⟨_, rfl, ?_⟩
  dsimp -zeta only
  extract_lets s1 s2 s4
  have put : s1.teamOf k = { t with st := .draining, frame := x } := by
    rw [← same]
    exact tget_tput_same _ _ _ _
  have groups : s1.groups = s.groups := rfl
  have stopped : s2.teams = s1.teams := by
    refine stopGroups_teams _ (k := k) (by rw [put]; exact quiet) ?_ fun j hj => ?_
    · exact (List.pairwise_map.2 distinct).sublist (List.filter_sublist.map _)
    · obtain ⟨y, hy, rfl⟩ := List.mem_map.1 hj
      obtain ⟨listed, mine⟩ := List.mem_filter.1 hy
      have group : s1.group y.1 = y.2 := tget_of_mem listed distinct
      rw [group]
      exact ⟨by simpa using mine, untrapped y listed (by simpa using mine)⟩
  have drains : Owes s2 s4 := by
    refine .foldl (fun s (x : Nat × WcLine) => ?_) _ s2
    split
    · exact .refl s
    · exact owes_owe s _
  rw [State.teamOf, (drains.trans (owes_oweSave s4 k)).teams, stopped]
  exact (congrArg Team.st put :)

theorem tryResume_owes {s : State} {k : Nat} {t : Team} (listed : (k, t) ∈ s.teams) (saved : t.st = .saved) : .resume k ∈ s.tryResume.agenda := by
  unfold State.tryResume
  extract_lets ready first rest
  have owes (s : State) (x : Nat × Team) : Owes s (s.owe (.resume x.1)) := owes_owe s _
  by_cases asked : .resume k ∈ s.agenda
  · exact (Owes.foldl (f := fun s' (x : Nat × Team) => s'.owe (.resume x.1)) owes _ s).owed _ asked
  · have mine : (k, t) ∈ ready := List.mem_filter.2 ⟨listed, by simp [saved, asked]⟩
    have turn : ∃ y ∈ first ++ rest, y.1 = k := by
      by_cases before : first.any (fun y => y.1 == k) = true
      · obtain ⟨y, hy, same⟩ := List.any_eq_true.1 before
        exact ⟨y, List.mem_append_left _ hy, by simpa using same⟩
      · exact ⟨(k, t), List.mem_append_right _ (List.mem_filter.2 ⟨mine, by simp only [before]; rfl⟩), rfl⟩
    obtain ⟨y, hy, rfl⟩ := turn
    exact Owes.mem_foldl (f := fun s' (x : Nat × Team) => s'.owe (.resume x.1)) owes hy (fun s => mem_owe s (.resume y.1)) s

theorem putTeam_saved {s : State} {k : Nat} {x : Team} (saved : x.st = .saved) :
    ((s.putTeam k x).teamOf k).st = .saved ∧ (k, (s.putTeam k x).teamOf k) ∈ (s.putTeam k x).teams := by
  rw [State.teamOf_putTeam, if_pos rfl]
  exact ⟨saved, mem_tput.2 (.inl rfl)⟩

theorem preemptSave_saves {s : State} {k : Nat} {t : Team} (team : tfind s.teams k = some t) (draining : t.st = .draining)
    (quiet : ∀ x ∈ t.lowest, x.2.2.2.2 = false) (drained : s.drained k = true) :
    ∃ u, exec (.preemptSave k) s = .next u ∧ (u.teamOf k).st = .saved ∧ .resume k ∈ u.agenda := by
  have same := teamOf_of_tfind team
  have unfolded : exec (.preemptSave k) s = execPreemptSave k s := rfl
  rw [unfolded]
  unfold execPreemptSave
  rw [raiseTrips_none (by rw [same]; exact quiet)]
  extract_lets s' t' spoilt s0 s1 size s2 s3 s4
  have same' : t' = t := same
  rw [if_neg (by simp [same', draining, s', drained])]
  refine ⟨_, rfl, ?_⟩
  obtain ⟨saved, listed⟩ : (s4.teamOf k).st = .saved ∧ (k, s4.teamOf k) ∈ s4.teams := putTeam_saved rfl
  clear_value s4
  have resumes := tryResume_owes (s := s4.putCluster t'.cluster ((s4.clusterOf t'.cluster).release k)) (k := k) listed saved
  refine ⟨?_, (owes_pumpAll _).owed _ resumes⟩
  rw [State.teamOf, ((owes_tryResume _).trans (owes_pumpAll _)).teams]
  exact saved

/-! ### Resuming a team (R399) -/

/-- The team is in the device again, on a cluster. -/
def State.PlacedOn (s : State) (k cl : Nat) : Prop := (s.teamOf k).st ≠ .saved ∧ (s.teamOf k).cluster = cl

theorem State.PlacedOn.of_teams {s t : State} {k cl : Nat} (h : s.PlacedOn k cl) (same : t.teams = s.teams) : t.PlacedOn k cl := by
  rw [State.PlacedOn, State.teamOf, same]
  exact h

theorem State.PlacedOn.foldl {β : Type} {f : State → β → State} {k cl : Nat} (h : ∀ s x, s.PlacedOn k cl → (f s x).PlacedOn k cl) (l : List β)
    (s : State)
    (placed : s.PlacedOn k cl) : (l.foldl f s).PlacedOn k cl := by
  induction l generalizing s with
  | nil => exact placed
  | cons x l ih => exact ih _ (h s x placed)

theorem newReq_ask_teams (s : State) (ty : Nat) {r : Request} (parts : r.parts ≠ []) :
    ((s.newReq r).1.ask (s.newReq r).2 ty ((s.newReq r).1.req (s.newReq r).2)).teams = s.teams := by
  show ((s.newReq r).1.ask s.nextId ty ((s.newReq r).1.req s.nextId)).teams = _
  rw [newReq_req, (upkeep_ask _ _ _ parts).teams]
  rfl

theorem relocate_teams (s : State) (team cl handle : Nat) : (s.relocate team cl handle).teams = s.teams := by
  unfold State.relocate
  extract_lets mine q
  split
  · rfl
  · next some =>
    refine newReq_ask_teams s 9 ?_
    show mine.map _ ≠ []
    simpa using some

theorem relocateReq_teams (s : State) (cl n : Nat) : (s.relocateReq cl n).teams = s.teams := by
  unfold State.relocateReq
  extract_lets r id q
  split
  · rfl
  · next some => exact (newReq_ask_teams (s.putReq n { r with ident := id }) 9 (by simpa using some)).trans rfl

theorem reqs_setHomeByte (s : State) (loc : Nat) (b : Byte) : (s.setHomeByte loc b).reqs = s.reqs := by
  unfold State.setHomeByte
  split
  · dsimp only
    split <;> rfl
  · rfl

theorem reqs_sendC (s : State) (m : CMsg) (ev : Nat → Event) : (s.sendC m ev).reqs = s.reqs := by
  unfold State.sendC
  extract_lets id age route
  have sent : Sends _ ({ s with cmsgs := tput s.cmsgs id { m with age := some age }, nextId := id + 1 }.sendLane route.1 age m.data.length
      route.2.1 route.2.2 ((tfind s.txns m.txn).bind (fun t => s.issuerOf t.team)) (ev id)) := sends_inject _ _ rfl rfl
  rw [sent.reqs]

theorem reqs_evict (s : State) (cl line : Nat) : (s.evict cl line).reqs = s.reqs := by
  unfold State.evict
  extract_lets mine s1
  split
  · exact reqs_sendC _ _ _
  · rfl

theorem reqs_settleWays (s : State) (cl : Nat) : (s.settleWays cl).reqs = s.reqs := by
  unfold State.settleWays
  split
  · unfold State.emptyCache State.writeBackBytes
    extract_lets lines s1 c out s2
    have evicted : s1.reqs = s.reqs := foldl_keeps (p := State.reqs) (fun s l => reqs_evict s cl l) _ s
    have written : s2.reqs = s1.reqs := foldl_keeps (p := State.reqs) (fun s (x : Nat × CByte) => reqs_setHomeByte s x.1 x.2.val) out s1
    exact written.trans evicted
  · rfl

/-- A team restored is on its cluster; requests stay. -/
theorem restore_places (s : State) (k cl m : Nat) (t : Team) (tags : List Nat) :
    (s.restore k cl m t tags).PlacedOn k cl ∧ (s.restore k cl m t tags).reqs = s.reqs := by
  unfold State.restore
  extract_lets base l cps image team es c s1 s1a s2 x
  have put : s1.teamOf k = team := tget_tput_same _ _ _ _
  have ways : s1a.teams = s1.teams ∧ s1a.reqs = s1.reqs := by
    unfold s1a
    rw [(upkeep_settleWays _ _).teams, reqs_settleWays]
    split <;> exact ⟨rfl, rfl⟩
  have grouped : s2.teams = s1a.teams ∧ s2.reqs = s1a.reqs := by
    unfold s2
    generalize cps.zipIdx = places
    clear_value s1a
    induction places generalizing s1a with
    | nil => exact ⟨rfl, rfl⟩
    | cons x xs ih => exact ih (s1a := s1a.putGroup _ _) ways
  refine ⟨?_, (grouped.2.trans ways.2).trans rfl⟩
  have placed : s1.PlacedOn k cl := by
    rw [State.PlacedOn, put]
    exact ⟨(fun h => nomatch h), rfl⟩
  exact placed.of_teams (grouped.1.trans ways.1)

/-- With no request of its own pending a team has nothing to rejoin. -/
theorem rejoin_none {s : State} {k : Nat} (quiet : ∀ r ∈ s.reqs, r.2.team ≠ k) : s.rejoin k = s := by
  have none : s.reqs.filter (fun (x : Nat × Request) => x.2.team == k && x.2.purpose == .bor) = [] :=
    List.filter_eq_nil_iff.2 fun x hx => by simp [quiet x hx]
  unfold State.rejoin
  exact congrArg (List.foldl _ s) none

theorem endTeam_placed {s : State} {k cl : Nat} (placed : s.PlacedOn k cl) (j : Nat) : (s.endTeam j).PlacedOn k cl := by
  unfold State.endTeam
  extract_lets t
  split
  · show ((s.putTeam j { t with st := .ending }).teamOf k).st ≠ _ ∧ ((s.putTeam j { t with st := .ending }).teamOf k).cluster = _
    rw [State.teamOf_putTeam]
    split
    · next same =>
      subst same
      exact ⟨(fun h => nomatch h), placed.2⟩
    · exact placed
  · exact placed

theorem afterExit_placed {s : State} {k cl : Nat} (placed : s.PlacedOn k cl) (j : Nat) : (s.afterExit j).PlacedOn k cl := by
  unfold State.afterExit
  extract_lets g
  split
  · refine endTeam_placed (placed.of_teams ?_) _
    refine foldl_keeps (p := State.teams) (fun s (d : Deferred) => ?_) g.deferred s
    rfl
  · exact placed

theorem pick_mem {α : Type} {xs : List α} (h : xs ≠ []) (i : Nat) : ∃ x ∈ xs, (xs[i]?.orElse (fun _ => xs.head?)) = some x := by
  cases hi : xs[i]? with
  | some x => exact ⟨x, List.mem_of_getElem? hi, rfl⟩
  | none =>
    obtain ⟨x, hx⟩ := Option.isSome_iff_exists.1 (List.isSome_head?.2 h)
    exact ⟨x, List.mem_of_mem_head? hx, hx⟩

theorem resume_places {s : State} {k : Nat} {t : Team} {tags : List Nat} (team : tfind s.teams k = some t)
    (htags : tags = (List.range t.size).map (fun p => s.frameLe (s.frameAt t.ctx t.frame) (0x20 + p) 1 % 4)) (saved : t.st = .saved)
    (turn : s.lowWaits = false ∨ s.holdsLow t = true) (quiet : ∀ r ∈ s.reqs, r.2.team ≠ k) (room : s.placesFor t tags ≠ []) :
    ∃ u x, exec (.resume k) s = .next u ∧ x ∈ s.placesFor t tags ∧ (u.teamOf k).st ≠ .saved ∧ (u.teamOf k).cluster = x.1 := by
  have unfolded : exec (.resume k) s = execResume k s := rfl
  rw [unfolded]
  unfold execResume
  extract_lets t' tags' ps
  have same : t' = t := teamOf_of_tfind team
  have same' : tags' = tags := by rw [htags, ← same]
  have nobody : s.reqs.any (fun (x : Nat × Request) => x.2.team == k && x.2.ended.isNone) = false :=
    List.any_eq_false.2 fun x hx => by simp [quiet x hx]
  have waits : s.waitsResidency k t = true := by
    simp only [State.waitsResidency, nobody, saved]
    simp
  have proceeds : ¬ (!s.waitsResidency k t' || (s.lowWaits && !s.holdsLow t')) = true := by
    rw [same, waits]
    rcases turn with h | h <;> simp [h]
  have ps_eq : ps = s.placesFor t tags := by rw [← same, ← same']
  obtain ⟨⟨cl, m⟩, listed, picked⟩ := pick_mem room (Config.freePick s.free ps.length % (ps.length + 1))
  rw [← ps_eq] at picked
  rw [if_neg proceeds, picked]
  dsimp -zeta only
  extract_lets s1 s2 moved s3 s4 s5 s6
  obtain ⟨placed, reqs⟩ : s1.PlacedOn k cl ∧ s1.reqs = s.reqs := restore_places _ _ _ _ _ _
  clear_value s1
  have placed2 : s2.PlacedOn k cl := by
    unfold s2
    rw [rejoin_none (by rw [reqs]; exact quiet)]
    exact placed
  clear_value s2
  have placedM : moved.PlacedOn k cl := by
    refine .foldl (fun s (x : Nat × List Region) h => ?_) _ s2 placed2
    exact h.of_teams ((relocate_teams _ _ _ _).trans (upkeep_selfInvalidate _ _ _).teams)
  have placed3 : s3.PlacedOn k cl := .foldl (fun s (x : Nat × Request) h => h.of_teams (relocateReq_teams s cl x.1)) _ moved placedM
  have placed4 : s4.PlacedOn k cl := by
    refine .foldl (fun s j h => ?_) _ s3 placed3
    refine h.of_teams ?_
    rw [State.wakeGroup_eq]
    rfl
  have placed5 : s5.PlacedOn k cl := .foldl (fun s j h => afterExit_placed h j) _ s4 placed4
  have placed6 : s6.PlacedOn k cl := by
    unfold s6
    split
    · exact placed5.of_teams ((owes_tryResume _).trans (owes_pumpAll _)).teams
    · exact placed5
  refine ⟨_, (cl, m), rfl, listed, ?_⟩
  show State.PlacedOn _ k cl
  split
  · split
    · exact placed6.of_teams (owes_owe _ _).teams
    · exact placed6
  · exact placed6

theorem turnEventsComplete : Rules.TurnEventsComplete := by
  intro s k
  refine ⟨boost_boosts, budgetExceeded_notes, fun b => budgetEnd_ends, fun f => watchdog_traps, borrowWaitPreempt_owes, fun t team =>
    ⟨fun f => preemption_drains team, preemptSave_saves team, fun saved turn quiet room => resume_places team rfl saved turn quiet room⟩⟩

/-- Settles O5, clause by clause: what a step runs by what the move and the fetched word are, and each event by its own equation and by what
the operations behind it leave unchanged. -/
theorem stepRunsDecoded : Obligations.StepRunsDecoded :=
  ⟨stepRunsDecodedWord, stepRunsEvents, queueEventsComplete, controlEventsComplete, hostEventsComplete, teamEventsComplete, turnEventsComplete⟩

end Sys2Proof.Machine
end

section
/-! SUPPORT. Where lanes stand once an instruction that moves its fragment on retires (R64 to R66, R71): transfers of control, divisions, and the
completion of fuse entries. -/

namespace Sys2Proof.Machine

set_option Elab.async false

/-! ### Retiring -/

/-- The selection depends on the fragments and the trap record alone. -/
theorem Group.selects_congr {g h : Group} (cur : h.cur = g.cur) (rest : h.rest = g.rest) (record : h.record = g.record) :
    h.selects ↔ g.selects := by
  simp only [Group.selects, Group.selectable, cur, rest, record]

theorem Group.holds_congr {g h : Group} (cur : h.cur = g.cur) (rest : h.rest = g.rest) (l : Nat) (p : Place) : h.holds l p ↔ g.holds l p := by
  simp only [Group.holds, cur, rest]

section
variable (s : State) (u : Use) (io : Issue) (g : Group) (evs : List Nat)

theorem settle_cur : (s.settle u io g evs).grp.cur = g.cur := (congrArg Group.cur (settle_grp s u io g evs) :)
theorem settle_rest : (s.settle u io g evs).grp.rest = g.rest := (congrArg Group.rest (settle_grp s u io g evs) :)
theorem settle_regs : (s.settle u io g evs).grp.regs = g.regs := (congrArg Group.regs (settle_grp s u io g evs) :)
theorem settle_preds : (s.settle u io g evs).grp.preds = g.preds := (congrArg Group.preds (settle_grp s u io g evs) :)
theorem settle_bad : (s.settle u io g evs).grp.bad = g.bad := (congrArg Group.bad (settle_grp s u io g evs) :)
theorem settle_pool : (s.settle u io g evs).grp.pool = g.pool := (congrArg Group.pool (settle_grp s u io g evs) :)
theorem settle_record : (s.settle u io g evs).grp.record = g.record := (congrArg Group.record (settle_grp s u io g evs) :)
theorem settle_fixed : (s.settle u io g evs).grp.fixed = g.fixed := by
  rw [← Group.fixed_kept, settle_grp, Group.fixed_kept, retiring_fixed]

theorem settle_selects : (s.settle u io g evs).grp.selects ↔ g.selects :=
  Group.selects_congr (settle_cur s u io g evs) (settle_rest s u io g evs) (settle_record s u io g evs)

theorem settle_holds (l : Nat) (p : Place) : (s.settle u io g evs).grp.holds l p ↔ g.holds l p :=
  Group.holds_congr (settle_cur s u io g evs) (settle_rest s u io g evs) l p
end

/-- From the state that holds an instruction's own effect b, the group as the instruction leaves it, g, is where its lanes go. -/
theorem settle_transfers {s : State} {g b : Group} {goes : Nat → Place → Prop} (u : Use) (io : Issue) (team : g.team = s.grp.team)
    (fixed : g.fixed = b.fixed) (bad : g.bad = b.bad) (preds : g.preds = b.preds) (selects : g.selects)
    (lanes : ∀ l p, g.holds l p ↔ (b.cur.mask.getLsbD l = true ∧ goes l p) ∨ Held b.rest l p) :
    Transfers (s.setGrp b) (s.settle u io g []) goes := by
  have same := s.group_setGrp_same b
  have sameTeam : (s.setGrp b).team = s.team := by
    have ofB : b.team = s.grp.team := (congrArg Group.team fixed).symm.trans team
    rw [State.team, same, ofB]
    rfl
  refine ⟨(frame_setGrp_setGrp s b _).trans (keeps_settle s u io g []).toFrame, ?_, ?_, ?_, fun l p _ => ?_, ?_, fun c hc => ?_⟩
  · rw [same, settle_fixed, fixed]
  · rw [same, settle_bad, bad]
    exact fun _ h => h
  · rw [same, settle_preds, preds]
  · rw [State.active, same]
    exact (settle_holds s u io g [] l p).trans (lanes l p)
  · exact (settle_selects s u io g []).2 selects
  · rw [sameTeam]
    exact settle_counted s u io g [] team c hc

/-- Writing back the group that issues is no change of it. -/
theorem Transfers.of_setGrp_self {s t : State} {goes : Nat → Place → Prop} (h : Transfers (s.setGrp s.grp) t goes) : Transfers s t goes := by
  have same := s.group_setGrp_same s.grp
  have sameTeam : (s.setGrp s.grp).team = s.team := by rw [State.team, same]; rfl
  obtain ⟨frame, group, bad, preds, lanes, selects, counted⟩ := h
  rw [State.active, same] at lanes
  rw [same] at group bad preds
  refine ⟨(frame_setGrp s s.grp).trans frame, group, bad, preds, lanes, selects, fun c hc => ?_⟩
  rw [← sameTeam]
  exact counted c hc

/-- No fence or `tlbi` that has issued keeps the selection (R324). -/
def Group.loose (g : Group) : Prop := (g.cur.wait.pinned && g.cur.st == .ready) = false

theorem Group.loose_of_free {g : Group} (h : g.cur.st = .free) : g.loose := by
  rw [Group.loose, h, show (FState.free == FState.ready) = false from rfl, Bool.and_false]

theorem Group.loose_of_wait {g : Group} (h : g.cur.wait = .none) : g.loose := by
  rw [Group.loose, h]
  rfl

/-- Re-evaluating a selection, once more or for the first time, leaves nothing before the selected fragment. -/
theorem Group.selects_reselect_of {g : Group} (h : g.loose ∨ g.selects) : g.reselect.selects := by
  by_cases held : (g.cur.wait.pinned && g.cur.st == .ready) = true
  · rcases h with h | h
    · exact absurd held (Bool.eq_false_iff.1 h)
    · rwa [Group.reselect, if_pos held]
  · exact g.selects_reselect (Bool.eq_false_iff.2 held)

/-! ### Completion of fuse entries -/

/-- A group apart from its fragments and its fuse pool. -/
def Group.aside (g : Group) : Group := { g.bare with pool := [] }

/-- From g to h fuse entries of the pool may have completed: each fragment but those that wait at an entry stands as it stood, and a new one
waits for nothing and has the lanes that its entry expected. -/
structure Completed (g h : Group) : Prop where
  aside : h.aside = g.aside
  pool : ∀ x ∈ h.pool, x ∈ g.pool
  kept : ∀ f ∈ g.cur :: g.rest, f.st ≠ .free → f.st ≠ .joinWait → f ∈ h.cur :: h.rest
  found : ∀ f ∈ h.cur :: h.rest, f ∈ g.cur :: g.rest ∨ ∃ x ∈ g.pool, f.mask = x.2.exp
  cur : h.cur = g.cur ∨ h.cur.wait = .none

theorem Completed.refl (g : Group) : Completed g g := ⟨rfl, fun _ h => h, fun _ h _ _ => h, fun _ h => .inl h, .inl rfl⟩

theorem Completed.trans {g h k : Group} (a : Completed g h) (b : Completed h k) : Completed g k where
  aside := b.aside.trans a.aside
  pool x hx := a.pool x (b.pool x hx)
  kept f hf free wait := b.kept f (a.kept f hf free wait) free wait
  found f hf := by
    rcases b.found f hf with hf | ⟨x, hx, exp⟩
    · exact a.found f hf
    · exact .inr ⟨x, a.pool x hx, exp⟩
  cur := by
    rcases b.cur with same | none
    · rw [same]; exact a.cur
    · exact .inr none

/-- The fragments that wait at entry e. -/
def Group.waiters (g : Group) (e : Nat) : List Frag := g.frags.filter (fun f => f.st == .joinWait && f.fv && f.ftop == e)

/-- All that entry e expects have arrived. -/
def Group.full (g : Group) (e : Nat) : Prop :=
  (tget {} g.pool e).live = true ∧ (tget {} g.pool e).exp ≠ 0 ∧ (tget {} g.pool e).exp &&& ~~~g.arrivals e = 0

theorem Group.full_iff {g : Group} {e : Nat} :
    ((tget {} g.pool e).live && (tget {} g.pool e).exp != 0 && within (tget {} g.pool e).exp (g.arrivals e)) = true ↔ g.full e := by
  simp only [Group.full, Bool.and_eq_true, bne_iff_ne, within, beq_iff_eq, and_assoc]

theorem Group.complete_of_not_full {g : Group} {e : Nat} (h : ¬ g.full e) : g.complete e = g := if_neg (mt Group.full_iff.1 h)

/-- The fragment that goes on behind a join, in the place of the one that holds the lowest lane (R71). -/
def Frag.rejoined (lead : Frag) (p : Fuse) (id : Nat) (spilled : Bool) : Frag :=
  { lead with mask := p.exp, pc := p.tgt + 4, depth := p.depth, st := .ready, ftop := p.parent, fv := p.pv, id, wait := .none, spilled }

theorem Group.complete_of_full {g : Group} {e : Nat} (h : g.full e) {lead : Frag}
    (first : pickBest (fun f h : Frag => decide (lowest f.mask < lowest h.mask)) (g.waiters e) = some lead) :
    g.complete e = { g with
      cur := lead.rejoined (tget {} g.pool e) g.freshFrag ((g.waiters e).all (·.spilled))
      rest := g.frags.filter (fun f => !(f.st == .joinWait && f.fv && f.ftop == e))
      pool := tdel g.pool e } := by
  unfold Group.waiters at first
  simp only [Group.complete, if_pos (Group.full_iff.2 h), first]
  rfl

/-- An entry expects lanes, so one that is full has fragments waiting at it. -/
theorem Group.exists_lead {g : Group} {e : Nat} (h : g.full e) :
    ∃ lead, pickBest (fun f h : Frag => decide (lowest f.mask < lowest h.mask)) (g.waiters e) = some lead := by
  refine Option.isSome_iff_exists.1 (Option.isSome_iff_ne_none.2 fun none => ?_)
  have nobody : g.arrivals e = 0 := by
    show List.foldl _ _ (g.waiters e) = 0
    rw [pickBest_eq_none_iff.1 none]
    rfl
  obtain ⟨_, some, within⟩ := h
  rw [nobody, show ~~~(0 : Mask) = BitVec.allOnes 32 from rfl, BitVec.and_allOnes] at within
  exact some within

theorem completed_complete (g : Group) (e : Nat) : Completed g (g.complete e) := by
  by_cases full : g.full e
  · obtain ⟨lead, first⟩ := Group.exists_lead full
    have listed : (e, tget {} g.pool e) ∈ g.pool := by
      obtain ⟨live, _⟩ := full
      cases found : tfind g.pool e with
      | none => simp [tget, found] at live
      | some p => simpa [tget, found] using mem_of_tfind found
    rw [Group.complete_of_full full first]
    refine ⟨rfl, fun x hx => List.mem_of_mem_filter hx, fun f hf free wait => ?_, fun f hf => ?_, .inr rfl⟩
    · exact List.mem_cons_of_mem _ (List.mem_filter.2 ⟨List.mem_filter.2 ⟨hf, by simpa using free⟩, by simp [wait]⟩)
    · rcases List.mem_cons.1 hf with rfl | hf
      · exact .inr ⟨_, listed, rfl⟩
      · exact .inl (List.mem_of_mem_filter (List.mem_of_mem_filter hf))
  · rw [Group.complete_of_not_full full]
    exact .refl g

theorem Completed.loose {g h : Group} (c : Completed g h) (loose : g.loose) : h.loose := by
  rcases c.cur with same | none
  · rwa [Group.loose, same]
  · exact Group.loose_of_wait none

/-- Completion moves no lane but those that wait at an entry. -/
theorem Completed.holds {g h : Group} (c : Completed g h) {l : Nat} {q : Place} (away : q.st ≠ .joinWait) (held : g.holds l q) : h.holds l q := by
  obtain ⟨f, hf, some, hl, rfl⟩ := held
  exact ⟨f, c.kept f hf some away, some, hl, rfl⟩

theorem completed_foldl (es : Table Fuse) (g : Group) : Completed g (es.foldl (fun g x => g.complete x.1) g) := by
  induction es generalizing g with
  | nil => exact .refl g
  | cons x es ih => exact (completed_complete g x.1).trans (ih _)

end Sys2Proof.Machine
end

section
/-! SUPPORT. `fuse` and `join` (R71, R83, R84). -/

namespace Sys2Proof.Machine

set_option Elab.async false

theorem wordOffset_eq {n : Nat} (o : BitVec n) : wordOffset o = 4 * o.signExtend 64 := by
  rw [wordOffset, BitVec.shiftLeft_eq_mul_twoPow, BitVec.mul_comm]
  rfl

theorem Group.holds_iff {g : Group} (h : g.cur.st ≠ .free) (l : Nat) (p : Place) :
    g.holds l p ↔ (g.cur.mask.getLsbD l = true ∧ p = g.cur.place) ∨ Held g.rest l p := by
  refine held_cons.trans ?_
  simp only [h, not_false_eq_true, ne_eq, true_and, eq_comm]

/-- The issuing fragment becomes f, with its lanes, and the selection is made anew. -/
theorem settle_moved (s : State) (u : Use) (io : Issue) {b : Group} {f : Frag} (team : b.team = s.grp.team) (mask : f.mask = b.cur.mask)
    (some : f.st ≠ .free) (free : f.wait = .none) :
    Transfers (s.setGrp b) (s.settle u io ({ b with cur := f } : Group).reselect []) (fun _ p => p = f.place) := by
  let g : Group := { b with cur := f }
  have bare := g.reselect_bare
  refine settle_transfers u io ?_ ?_ (congrArg Group.bad bare :) (congrArg Group.preds bare :) (g.selects_reselect (Group.loose_of_wait free))
    fun l p => (g.holds_reselect l p).trans ?_
  · exact (congrArg Group.team bare : _).trans team
  · exact (congrArg Group.fixed bare :)
  · rw [Group.holds_iff some, ← mask]

theorem settle_moved_regs (s : State) (u : Use) (io : Issue) (b : Group) (f : Frag) :
    (s.settle u io ({ b with cur := f } : Group).reselect []).grp.regs = b.regs := by
  rw [settle_regs]
  exact (congrArg Group.regs (Group.reselect_bare { b with cur := f }) :)

theorem Group.st_of_selectable {g : Group} {f : Frag} (h : g.selectable f = true) : f.st = .ready := by
  simp only [Group.selectable, Bool.and_eq_true, beq_iff_eq] at h
  exact h.1.1

/-- A fragment that has nothing to do at this word goes on at the next one, where the selection is made anew. -/
theorem settle_passed (s : State) (u : Use) (io : Issue) (ready : s.grp.cur.st = .ready) (w : io.w = 0) :
    (s.settle u io (s.grp.proceed io none).reselect []).grp.regs = s.grp.regs ∧
      Transfers s (s.settle u io (s.grp.proceed io none).reselect []) (fun _ p => p = { s.here with pc := s.grp.cur.pc + 4 }) := by
  have place : ({ s.grp.cur with pc := s.grp.cur.pc + 4, wait := .none } : Frag).place = { s.here with pc := s.grp.cur.pc + 4 } := by
    simp only [Frag.place, State.here, ready]
  rw [Group.proceed_next _ _ w, ← place]
  exact ⟨settle_moved_regs .., .of_setGrp_self (settle_moved s u io rfl rfl (by simp [ready]) rfl)⟩

/-! ### What each does, as an equation -/

/-- The top entry of the fragment's fuse stack already expects its lanes at the address and depth of a `fuse` (R83). -/
def Group.fused (g : Group) (tgt : BitVec 64) : Bool :=
  let top : Fuse := tget {} g.pool g.cur.ftop
  g.cur.fv && top.tgt == tgt && top.depth == g.cur.depth && within g.cur.mask top.exp

theorem Group.fused_iff {g : Group} {tgt : BitVec 64} : g.fused tgt = true ↔ g.cur.fv = true ∧ (tget {} g.pool g.cur.ftop : Fuse).tgt = tgt ∧
    (tget {} g.pool g.cur.ftop : Fuse).depth = g.cur.depth ∧ g.cur.mask &&& ~~~(tget {} g.pool g.cur.ftop : Fuse).exp = 0 := by
  simp only [Group.fused, within, Bool.and_eq_true, beq_iff_eq, and_assoc]

/-- The entry that a `fuse` makes. -/
def Group.newFuse (g : Group) (tgt : BitVec 64) : Fuse :=
  { exp := g.cur.mask, tgt, depth := g.cur.depth, parent := g.cur.ftop, pv := g.cur.fv, live := true }

/-- The fragment at a `join` that its top entry names, as it waits there (R84). -/
def Group.joining (g : Group) : Group := { g with cur := { g.cur with st := .joinWait, wait := .none } }

section
variable (s : State) (st : BitVec 3)

/-- An instruction that reads nothing issues for every active lane. -/
def State.bareIssue : Issue := { see := s.see { stall := st.toNat, guarded := false }, t := s.active }

theorem exec_fuse_eq (o : BitVec 23) : exec (.fuse st o) s = .next (
    let u : Use := { stall := st.toNat, guarded := false }
    let tgt := s.grp.cur.pc + wordOffset o
    if s.grp.fused tgt then s.settle u (s.bareIssue st) (s.grp.proceed (s.bareIssue st) none).reselect []
    else match s.grp.freeFuse with
      | none => s.trap 0x38 0x10
      | some e => s.settle u (s.bareIssue st) (({ s.grp with
          pool := tput s.grp.pool e (s.grp.newFuse tgt), cur := { s.grp.cur with ftop := e, fv := true } } : Group).proceed
            (s.bareIssue st) none).reselect []) :=
  (Use.bare_stall st.toNat).run s _

theorem exec_join_eq : exec (.join st) s = .next (
    let top : Fuse := tget {} s.grp.pool s.grp.cur.ftop
    if s.grp.cur.fv && top.tgt == s.grp.cur.pc && top.depth == s.grp.cur.depth then
      s.settle { stall := st.toNat, guarded := false } (s.bareIssue st) (s.grp.joining.complete s.grp.cur.ftop).reselect []
    else s.settle { stall := st.toNat, guarded := false } (s.bareIssue st) (s.grp.proceed (s.bareIssue st) none).reselect []) :=
  (Use.bare_stall st.toNat).run s _
end

/-! ### `fuse` -/

theorem Group.freeFuse_eq_none {g : Group} (h : ∀ e, e < 64 → (tget {} g.pool e : Fuse).live = true) : g.freeFuse = none := by
  simpa [Group.freeFuse] using h

theorem Group.freeFuse_eq_some {g : Group} {e : Nat} (he : e < 64) (free : (tget {} g.pool e : Fuse).live = false)
    (lowest : ∀ j, j < e → (tget {} g.pool j : Fuse).live = true) : g.freeFuse = some e := by
  rw [Group.freeFuse, List.find?_range_eq_some]
  exact ⟨by rw [free]; rfl, List.mem_range.2 he, fun j hj => by rw [lowest j hj]; rfl⟩

theorem fuses : Rules.Fuses := by
  intro s st o selectable f tgt entry met new
  have ready := Group.st_of_selectable selectable
  have target : s.grp.cur.pc + wordOffset o = tgt := by rw [wordOffset_eq]
  have met_iff : s.grp.fused tgt = true ↔ met := Group.fused_iff
  refine ⟨fun m => ?_, fun m taken => ?_, fun e m he free lowest => ?_⟩
  · refine ⟨_, exec_fuse_eq s st o, ?_⟩
    simp only [target, if_pos (met_iff.2 m)]
    exact settle_passed s _ _ ready rfl
  · rw [exec_fuse_eq]
    simp only [target, if_neg (mt met_iff.1 m), Group.freeFuse_eq_none taken]
  · refine ⟨_, exec_fuse_eq s st o, ?_⟩
    simp only [target, if_neg (mt met_iff.1 m), Group.freeFuse_eq_some he free lowest]
    have place : ({ s.grp.cur with ftop := e, fv := true, pc := s.grp.cur.pc + 4, wait := .none } : Frag).place =
        { s.here with pc := s.grp.cur.pc + 4, ftop := e, fv := true } := by
      simp only [Frag.place, State.here, ready]
    rw [Group.proceed_next _ _ rfl, ← place]
    exact ⟨settle_moved_regs .., settle_moved s _ _ (b := { s.grp with pool := tput s.grp.pool e new }) rfl rfl (by simp [ready]) rfl⟩

/-! ### `join` -/

/-- Who waits at the top entry once the fragment has come to its `join`. -/
theorem Group.waiters_joining {g : Group} (valid : g.cur.fv = true) : g.joining.waiters g.cur.ftop =
    g.joining.cur :: g.rest.filter (fun h => h.st == .joinWait && h.fv && h.ftop == g.cur.ftop) := by
  have waits (h : Frag) : (h.st == .joinWait && h.fv && h.ftop == g.cur.ftop && h.st != .free) =
      (h.st == .joinWait && h.fv && h.ftop == g.cur.ftop) := by
    cases h.st <;> simp
  have frags : g.joining.frags = g.joining.cur :: g.rest.filter (fun f => f.st != .free) := rfl
  rw [Group.waiters, frags, List.filter_cons_of_pos (by simp [Group.joining, valid]), List.filter_filter]
  simp only [waits]

/-- A `join` whose entry is full: what it leaves (R71). -/
theorem joins_full {s : State} {st : BitVec 3} {lead : Frag} (full : s.grp.joining.full s.grp.cur.ftop)
    (first : pickBest (fun f h : Frag => decide (lowest f.mask < lowest h.mask)) (s.grp.joining.waiters s.grp.cur.ftop) = some lead) :
    let p : Fuse := tget {} s.grp.pool s.grp.cur.ftop
    let h := s.grp.joining.complete s.grp.cur.ftop
    let t := s.settle { stall := st.toNat, guarded := false } (s.bareIssue st) h.reselect []
    Frame s.cur s t ∧ t.grp.regs = s.grp.regs ∧ t.grp.preds = s.grp.preds ∧ t.grp.selects ∧ t.grp.pool = tdel s.grp.pool s.grp.cur.ftop ∧
      (∀ l, p.exp.getLsbD l = true →
        t.grp.holds l { lead.place with pc := p.tgt + 4, depth := p.depth, ftop := p.parent, fv := p.pv, st := .ready }) ∧
      ∀ f ∈ s.grp.rest, f.st ≠ .free → f ∉ s.grp.joining.waiters s.grp.cur.ftop → ∀ l, f.mask.getLsbD l = true →
        t.grp.holds l f.place := by
  intro p h t
  have eq : h = _ := Group.complete_of_full full first
  have bare := h.reselect_bare
  have holds (l : Nat) (q : Place) : t.grp.holds l q ↔ h.holds l q := (settle_holds ..).trans (h.holds_reselect l q)
  refine ⟨settle_frame .., ?_, ?_, ?_, ?_, fun l hl => (holds _ _).2 ?_, fun f hf some away l hl => (holds _ _).2 ?_⟩
  · rw [settle_regs, show h.reselect.regs = h.regs from (congrArg Group.regs bare :), eq]
    rfl
  · rw [settle_preds, show h.reselect.preds = h.preds from (congrArg Group.preds bare :), eq]
    rfl
  · refine (settle_selects ..).2 (h.selects_reselect ?_)
    rw [eq]
    rfl
  · rw [settle_pool, show h.reselect.pool = h.pool from (congrArg Group.pool bare :), eq]
    rfl
  · rw [eq]
    exact ⟨_, List.mem_cons_self, FState.noConfusion, hl, rfl⟩
  · rw [eq]
    have stays : f ∈ s.grp.joining.frags := List.mem_filter.2 ⟨List.mem_cons_of_mem _ hf, by simpa using some⟩
    refine ⟨f, List.mem_cons_of_mem _ (List.mem_filter.2 ⟨stays, ?_⟩), some, hl, rfl⟩
    rw [Bool.not_eq_true']
    exact Bool.eq_false_iff.2 fun waits => away (List.mem_filter.2 ⟨stays, waits⟩)

theorem joins : Rules.Joins := by
  intro s st selectable f top met waiting arrived full
  have ready := Group.st_of_selectable selectable
  have met_iff : (s.grp.cur.fv && top.tgt == s.grp.cur.pc && top.depth == s.grp.cur.depth) = true ↔ met := by
    simp only [Bool.and_eq_true, beq_iff_eq, and_assoc, met, f]
  have waiters (m : met) : s.grp.joining.waiters f.ftop = waiting := Group.waiters_joining m.1
  have full_iff (m : met) : s.grp.joining.full f.ftop ↔ full := by
    show _ ∧ _ ∧ _ &&& ~~~(List.foldl _ _ (s.grp.joining.waiters f.ftop)) = 0 ↔ _
    rw [waiters m]
    rfl
  have runs (m : met) : exec (.join st) s = .next (s.settle { stall := st.toNat, guarded := false } (s.bareIssue st)
      (s.grp.joining.complete f.ftop).reselect []) := by
    rw [exec_join_eq]
    exact congrArg Host.Outcome.next (if_pos (met_iff.2 m))
  refine ⟨fun m => ?_, fun m part => ⟨_, runs m, ?_⟩, fun m all => ⟨_, runs m, ?_⟩⟩
  · refine ⟨_, exec_join_eq s st, ?_⟩
    simp only [top, f, if_neg (mt met_iff.1 m)]
    exact settle_passed s _ _ ready rfl
  · have place : s.grp.joining.cur.place = { s.here with st := FState.joinWait } := rfl
    rw [Group.complete_of_not_full (mt (full_iff m).1 part), ← place]
    exact ⟨settle_moved_regs .., .of_setGrp_self (settle_moved s _ _ rfl rfl FState.noConfusion rfl)⟩
  · obtain ⟨lead, first⟩ := Group.exists_lead ((full_iff m).2 all)
    have least := pickBest_least (fun f : Frag => by simp) (fun f h k : Frag => by simpa using fun a b => a.trans b) first
    obtain ⟨frame, regs, preds, selects, pool, go, stay⟩ := joins_full (st := st) ((full_iff m).2 all) first
    rw [waiters m] at first least stay
    exact ⟨frame, regs, preds, selects, pool, ⟨lead, mem_of_pickBest first, fun h hh => by simpa using least h hh, go⟩, stay⟩

/-- Settles O27: an instruction that reads nothing issues at once; what it makes of its fragment stands where its rule says, and a full entry
has a fragment that holds the lowest lane of those that wait. -/
theorem fusesAndJoins : Obligations.FusesAndJoins := ⟨fuses, joins⟩

end Sys2Proof.Machine
end

section
/-! SUPPORT. The division of a fragment (R64, R79, R82), and `ret` below depth 0 (R70, R82). -/

namespace Sys2Proof.Machine

set_option Elab.async false

/-! ### Parts -/

/-- Some part of a division of fragment f takes lane l to a place. -/
def Parted (parts : List Part) (f : Frag) (l : Nat) (q : Place) : Prop :=
  ∃ p ∈ parts, p.st ≠ .free ∧ p.mask.getLsbD l = true ∧ (p.frag f).place = q

theorem parted_cons {p : Part} {ps : List Part} {f : Frag} {l : Nat} {q : Place} :
    Parted (p :: ps) f l q ↔ (p.st ≠ .free ∧ p.mask.getLsbD l = true ∧ (p.frag f).place = q) ∨ Parted ps f l q := by simp [Parted]

theorem parted_filter_mask {ps : List Part} {f : Frag} {l : Nat} {q : Place} :
    Parted (ps.filter (fun p => p.mask != 0)) f l q ↔ Parted ps f l q := by
  have some (p : Part) (h : p.mask.getLsbD l = true) : (p.mask != 0) = true := by
    rw [bne_iff_ne]
    rintro zero
    simp [zero] at h
  exact exists_congr fun p => ⟨fun ⟨hp, h⟩ => ⟨List.mem_of_mem_filter hp, h⟩,
    fun ⟨hp, h⟩ => ⟨List.mem_filter.2 ⟨hp, some p h.2.1⟩, h⟩⟩

theorem parted_erase_cons {ps : List Part} {k : Part} (hk : k ∈ ps) {f : Frag} {l : Nat} {q : Place} :
    Parted (k :: ps.erase k) f l q ↔ Parted ps f l q := by
  simp only [Parted, (List.perm_cons_erase hk).mem_iff]

/-- The fragments made of parts, whatever the names they get. -/
theorem held_numbered {ps : List Part} {f : Frag} {n l : Nat} {q : Place} :
    Held (ps.zipIdx.map (fun (p, i) => { p.frag f with id := n + i })) l q ↔ Parted ps f l q := by
  constructor
  · rintro ⟨k, hk, some, hl, rfl⟩
    obtain ⟨⟨p, i⟩, hp, rfl⟩ := List.mem_map.1 hk
    exact ⟨p, List.mem_of_getElem? (List.mem_zipIdx_iff_getElem?.1 hp), some, hl, rfl⟩
  · rintro ⟨p, hp, some, hl, rfl⟩
    obtain ⟨i, hi⟩ := List.mem_iff_getElem?.1 hp
    exact ⟨_, List.mem_map.2 ⟨(p, i), List.mem_zipIdx_iff_getElem?.2 hi, rfl⟩, some, hl, rfl⟩

/-- A lane goes with the part of its target. -/
theorem parted_partsTo {depth : Nat} {target : Nat → BitVec 64} {lanes : List Nat} {stack : Option (Nat × Bool)} {f : Frag} {l : Nat}
    {q : Place} (hl : ∀ i ∈ lanes, i < 32) : Parted (partsTo depth target lanes stack) f l q ↔ l ∈ lanes ∧
      q = { f.place with pc := target l, depth, ftop := (stack.map (·.1)).getD f.ftop, fv := (stack.map (·.2)).getD f.fv, st := .ready } := by
  have mask (t : BitVec 64) : (maskOf (lanes.filter (fun l => target l == t))).getLsbD l = true ↔ l ∈ lanes ∧ target l = t := by
    rw [getLsbD_maskOf _ _ fun i hi => hl i (List.mem_of_mem_filter hi)]
    simp
  constructor
  · rintro ⟨p, hp, _, hm, rfl⟩
    obtain ⟨t, _, rfl⟩ := List.mem_map.1 hp
    obtain ⟨h, rfl⟩ := (mask t).1 hm
    exact ⟨h, rfl⟩
  · rintro ⟨h, rfl⟩
    exact ⟨_, List.mem_map.2 ⟨target l, List.mem_eraseDups.2 (List.mem_map_of_mem h), rfl⟩, FState.noConfusion, (mask _).2 ⟨h, rfl⟩, rfl⟩

/-- The lanes that neither act nor park fall through, where none parks. -/
theorem parted_fallThrough {s : State} {io : Issue} (w : io.w = 0) {ps : List Part} {l : Nat} {q : Place} :
    Parted (s.fallThrough io :: ps) s.grp.cur l q ↔
      (s.active.getLsbD l = true ∧ io.t.getLsbD l = false ∧ q = { s.here with pc := s.grp.cur.pc + 4 }) ∨ Parted ps s.grp.cur l q := by
  have mask : (s.others io).getLsbD l = true ↔ s.active.getLsbD l = true ∧ io.t.getLsbD l = false := by
    have none : io.t ||| io.w = io.t := by rw [w]; exact BitVec.or_zero
    simp only [State.others, none, BitVec.getLsbD_and, BitVec.getLsbD_not, Bool.and_eq_true, decide_eq_true_eq, Bool.not_eq_true']
    exact and_congr_right fun h => and_iff_right (BitVec.lt_of_getLsbD h)
  rw [parted_cons]
  refine or_congr_left ?_
  show FState.ready ≠ FState.free ∧ (s.others io).getLsbD l = true ∧ ({ s.here with pc := s.grp.cur.pc + 4 } : Place) = q ↔ _
  simp only [mask, ne_eq, reduceCtorEq, not_false_eq_true, true_and, and_assoc, eq_comm]

/-! ### Division -/

theorem spillHighest_head (f : Frag) (fs : List Frag) : ∃ h hs, spillHighest (f :: fs) = h :: hs ∧ h.wait = f.wait := by
  simp only [spillHighest]
  split
  · exact ⟨f, fs, rfl, rfl⟩
  · split
    · exact ⟨f, fs, rfl, rfl⟩
    · exact ⟨_, _, rfl, by dsimp only; split <;> rfl⟩

/-- The first of a list of fragments stays first, and its wait stays, when others take entries behind it. -/
theorem addResident_head (f : Frag) (fs ns : List Frag) : ∃ h hs, addResident (f :: fs) ns = h :: hs ∧ h.wait = f.wait := by
  induction ns generalizing f fs with
  | nil => exact ⟨f, fs, rfl, rfl⟩
  | cons n ns ih =>
    obtain ⟨h, hs, eq, wait⟩ := spillHighest_head f fs
    rw [addResident, eq]
    obtain ⟨h', hs', eq', wait'⟩ := ih h (hs ++ [{ n with spilled := false }])
    exact ⟨h', hs', eq', wait'.trans wait⟩

theorem of_orElse {α : Type} {P : α → Prop} {x : Option α} {f : Unit → Option α} (first : ∀ a, x = some a → P a)
    (second : ∀ a, f () = some a → P a) {a : α} (h : x.orElse f = some a) : P a := by
  cases x with
  | none => exact second a h
  | some b => exact first a h

/-- What a division leaves: the group as it was but for its fragments, each part's lanes where the part takes them, each other lane where it
stood, and no fence that holds the selection. -/
theorem Group.divide_spec (g : Group) (next : BitVec 64) (parts : List Part) :
    (∀ l q, (g.divide next parts).holds l q ↔ Parted parts g.cur l q ∨ Held g.rest l q) ∧
      ((g.divide next parts).cur.st = .free ∨ (g.divide next parts).cur.wait = .none) := by
  simp only [Group.divide, ← parted_filter_mask (ps := parts)]
  generalize parts.filter (fun p => p.mask != 0) = ps
  split
  · next none =>
    have empty : ps = [] := List.head?_eq_none_iff.1 (none_of_orElse (none_of_orElse none))
    refine ⟨fun l q => held_cons.trans ?_, .inl rfl⟩
    simp [empty, Parted]
  · next k chosen =>
    have hk : k ∈ ps := of_orElse (P := (· ∈ ps)) (fun _ => List.mem_of_find?_eq_some)
      (fun _ => of_orElse (P := (· ∈ ps)) (fun _ => List.mem_of_find?_eq_some) fun _ => List.mem_of_mem_head?) chosen
    have lanes (l : Nat) (q : Place) : Held (addResident (k.frag g.cur :: g.rest.filter (fun f => f.st != .free))
        ((ps.erase k).zipIdx.map (fun (p, i) => { p.frag g.cur with id := g.freshFrag + i }))) l q ↔
        Parted ps g.cur l q ∨ Held g.rest l q := by
      rw [held_addResident, held_cons, held_filter_not_free, held_numbered, ← parted_erase_cons hk, parted_cons, or_right_comm]
      rfl
    obtain ⟨f, fs, eq, wait⟩ := addResident_head (k.frag g.cur) (g.rest.filter (fun f => f.st != .free))
      ((ps.erase k).zipIdx.map (fun (p, i) => { p.frag g.cur with id := g.freshFrag + i }))
    rw [eq] at lanes ⊢
    exact ⟨lanes, .inr wait⟩

/-! ### `ret` below depth 0 -/

/-- The fuse stack below the entries of depth d or more begins with the first entry of the chain of a lesser depth (R82). -/
theorem Group.below_eq (g : Group) (d n top : Nat) (v : Bool) :
    g.below d n top v = (((g.chain n top v).find? (fun e => decide ((tget {} g.pool e : Fuse).depth < d))).getD 0,
      ((g.chain n top v).find? (fun e => decide ((tget {} g.pool e : Fuse).depth < d))).isSome) := by
  induction n generalizing top v with
  | zero => rfl
  | succ n ih =>
    cases v with
    | false => rfl
    | true =>
      by_cases deep : d ≤ (tget {} g.pool top : Fuse).depth
      · simp only [Group.below, Group.chain, if_true, if_pos deep, ih]
        rw [List.find?_cons_of_neg (by simpa using deep)]
      · simp only [Group.below, Group.chain, if_true, if_neg deep]
        rw [List.find?_cons_of_pos (by simpa using deep)]
        rfl

/-- What is left of the pool once lanes have returned (R70). -/
theorem Group.mem_pool_withdrawReturn {g : Group} {lanes : Mask} {d : Nat} {x : Nat × Fuse} (h : x ∈ (g.withdrawReturn lanes d).pool) :
    ∃ q, (x.1, q) ∈ g.pool ∧ x.2 = { q with exp := if x.1 ∈ g.chain 64 g.cur.ftop g.cur.fv ∧ d ≤ (tget {} g.pool x.1 : Fuse).depth
      then q.exp &&& ~~~lanes else q.exp } := by
  obtain ⟨⟨e, q⟩, hq, rfl⟩ := List.mem_map.1 (List.mem_of_mem_filter h)
  have leaves : ((g.chain 64 g.cur.ftop g.cur.fv).filter (fun e => decide (d ≤ (tget {} g.pool e : Fuse).depth))).contains e = true ↔
      e ∈ g.chain 64 g.cur.ftop g.cur.fv ∧ d ≤ (tget {} g.pool e : Fuse).depth := by
    rw [List.contains_iff_mem, List.mem_filter, decide_eq_true_eq]
  by_cases out : e ∈ g.chain 64 g.cur.ftop g.cur.fv ∧ d ≤ (tget {} g.pool e : Fuse).depth
  · simp only [if_pos (leaves.2 out)]
    exact ⟨q, hq, by rw [if_pos out]⟩
  · simp only [if_neg (mt leaves.1 out)]
    exact ⟨q, hq, by rw [if_neg out]⟩

/-- What `ret` below depth 0 needs. -/
def retUse (st : BitVec 3) : Use := { stall := st.toNat, srcs := [58, 59] }

/-- A group once the lanes of T have left the entries of their depth and gone to their return addresses, before entries complete. -/
def State.returned (s : State) (io : Issue) : Group :=
  (s.grp.withdrawReturn io.t s.grp.cur.depth).divide (s.grp.cur.pc + 4)
    (s.fallThrough io :: partsTo (s.grp.cur.depth - 1) (io.see.address 58) (lanesOf io.t)
      (some (s.grp.below s.grp.cur.depth 64 s.grp.cur.ftop s.grp.cur.fv)))

theorem Group.aside_of_bare {g h : Group} (same : h.bare = g.bare) : h.aside = g.aside :=
  (congrArg (fun b : Group => { b with pool := [] }) same :)

theorem Group.regs_of_aside {g h : Group} (same : h.aside = g.aside) : h.regs = g.regs := (congrArg Group.regs same :)
theorem Group.preds_of_aside {g h : Group} (same : h.aside = g.aside) : h.preds = g.preds := (congrArg Group.preds same :)
theorem Group.pool_of_bare {g h : Group} (same : h.bare = g.bare) : h.pool = g.pool := (congrArg Group.pool same :)

section
variable (s : State) (io : Issue)

theorem returned_holds (l : Nat) (q : Place) : (s.returned io).holds l q ↔
    Parted (s.fallThrough io :: partsTo (s.grp.cur.depth - 1) (io.see.address 58) (lanesOf io.t)
      (some (s.grp.below s.grp.cur.depth 64 s.grp.cur.ftop s.grp.cur.fv))) s.grp.cur l q ∨ Held s.grp.rest l q :=
  (Group.divide_spec _ _ _).1 l q

theorem returned_loose : (s.returned io).loose := (Group.divide_spec _ _ _).2.elim Group.loose_of_free Group.loose_of_wait

theorem returned_bare : (s.returned io).bare = (s.grp.withdrawReturn io.t s.grp.cur.depth).bare := Group.divide_bare _ _ _

/-- The group as `ret` below depth 0 leaves it, before the selection is made anew. -/
def State.afterReturn : Group := (s.returned io).pool.foldl (fun g x => g.complete x.1) (s.returned io)

theorem afterReturn_completed : Completed (s.returned io) (s.afterReturn io) := completed_foldl _ _

theorem afterReturn_aside : (s.afterReturn io).reselect.aside = s.grp.aside :=
  calc (s.afterReturn io).reselect.aside
    _ = (s.afterReturn io).aside := Group.aside_of_bare (Group.reselect_bare _)
    _ = (s.returned io).aside := (afterReturn_completed s io).aside
    _ = (s.grp.withdrawReturn io.t s.grp.cur.depth).aside := Group.aside_of_bare (returned_bare s io)
    _ = s.grp.aside := rfl

theorem mem_pool_afterReturn {x : Nat × Fuse} (h : x ∈ (s.afterReturn io).reselect.pool) :
    x ∈ (s.grp.withdrawReturn io.t s.grp.cur.depth).pool := by
  rw [Group.pool_of_bare (Group.reselect_bare _)] at h
  rw [← Group.pool_of_bare (returned_bare s io)]
  exact (afterReturn_completed s io).pool x h
end

theorem exec_ret_below (s : State) (st : BitVec 3) (below : s.grp.cur.depth ≠ 0) :
    exec (.ret st) s = s.run (retUse st) (fun io => s.settle (retUse st) io (s.afterReturn io).reselect []) := by
  simp only [exec_ret, execRet, if_neg below]
  rfl

theorem returns : Rules.Returns := by
  intro s st ready below f chain outer
  have plain : (retUse st).Plain s [58, 59] [] := ⟨rfl, rfl, rfl, rfl, rfl, Nat.zero_ne_add_one 2, rfl, rfl, rfl, rfl⟩
  let io : Issue := { see := s.see (retUse st), t := s.lanesT, w := 0, needs := [] }
  have completed := afterReturn_completed s io
  have lanes {l : Nat} {q : Place} (away : q.st ≠ .joinWait) (h : (s.returned io).holds l q) :
      (s.settle (retUse st) io (s.afterReturn io).reselect []).grp.holds l q :=
    (settle_holds ..).2 ((Group.holds_reselect _ l q).2 (completed.holds away h))
  refine ⟨_, (exec_ret_below s st below).trans (run_go s _ _ (plain_go ready plain)), settle_frame .., ?_, ?_, ?_, fun l hl => ?_,
    fun h hh some away l hl => ?_, fun e p hp => ?_⟩
  · rw [settle_regs, Group.regs_of_aside (afterReturn_aside s io)]
  · rw [settle_preds, Group.preds_of_aside (afterReturn_aside s io)]
  · exact (settle_selects ..).2 (Group.selects_reselect _ (completed.loose (returned_loose s io)))
  · refine lanes (by split <;> exact FState.noConfusion) ((returned_holds s io l _).2 (.inl ((parted_fallThrough rfl).2 ?_)))
    by_cases returns : s.lanesT.getLsbD l = true
    · have address : io.see.address 58 l = BitVec.ofNat 64 (s.operand true 58 l) &&& ~~~3 := by
        rw [Group.address, plain_val ready plain true (BitVec.lt_of_getLsbD hl) fun r hr => hr]
      refine .inr ((parted_partsTo fun _ => lt_of_mem_lanesOf).2 ⟨mem_lanesOf.2 returns, ?_⟩)
      rw [if_pos returns, address, Group.below_eq]
      rfl
    · exact .inl ⟨hl, Bool.eq_false_iff.2 returns, if_neg returns⟩
  · exact lanes away ((returned_holds s io l _).2 (.inr ⟨h, hh, some, hl, rfl⟩))
  · rw [settle_pool] at hp
    exact Group.mem_pool_withdrawReturn (mem_pool_afterReturn s io hp)

end Sys2Proof.Machine
end

section
/-! SUPPORT. Lanes that end leave their group: every fragment, every expectation, and the trap record (R70, R75, R86, R383, R387). -/

namespace Sys2Proof.Machine

set_option Elab.async false

/-- A mask joined from those of fragments holds the lanes that one of them holds. -/
theorem getLsbD_joined {fs : List Frag} {l : Nat} :
    (fs.foldl (fun m f => m ||| f.mask) (0 : Mask)).getLsbD l = true ↔ ∃ f ∈ fs, f.mask.getLsbD l = true := by
  have key (m : Mask) : (fs.foldl (fun m f => m ||| f.mask) m).getLsbD l = true ↔ m.getLsbD l = true ∨ ∃ f ∈ fs, f.mask.getLsbD l = true := by
    induction fs generalizing m with
    | nil => simp
    | cons f fs ih => simp only [List.foldl_cons, ih, BitVec.getLsbD_or, Bool.or_eq_true, List.mem_cons, exists_eq_or_imp, or_assoc]
  exact (key 0).trans (by simp)

/-- A fragment without some lanes; its entry is free when none is left. -/
def Frag.shed (lanes : Mask) (f : Frag) : Frag :=
  { f with mask := f.mask &&& ~~~lanes, st := if f.mask &&& ~~~lanes == 0 then .free else f.st }

/-- A group whose fragments and trap record have lost the lanes that end. -/
def Group.shed (g : Group) (lanes : Mask) : Group :=
  { g with cur := g.cur.shed lanes, rest := g.rest.map (Frag.shed lanes), exited := g.exited ||| lanes,
           record := g.record.map (fun f => { f with mask := f.mask &&& ~~~lanes }) }

/-- The entries that still expect lanes when some no longer come (R70). -/
def Group.expecting (g : Group) (lanes : Mask) : Table Fuse :=
  (g.pool.map (fun (k, p) => (k, { p with exp := p.exp &&& ~~~lanes }))).filter (fun (_, p) => p.exp != 0)

theorem completed_withdraw (g : Group) (lanes : Mask) : Completed { g with pool := g.expecting lanes } (g.withdraw lanes) := completed_foldl _ _

/-- The lanes stand in no fragment of the group. -/
def Group.without (g : Group) (lanes : Mask) : Prop := ∀ l p, lanes.getLsbD l = true → ¬ g.holds l p

theorem getLsbD_and_not_of {m lanes : Mask} {l : Nat} (h : lanes.getLsbD l = true) : (m &&& ~~~lanes).getLsbD l = false := by simp [h]

theorem Group.exp_expecting {g : Group} {lanes : Mask} {x : Nat × Fuse} (h : x ∈ g.expecting lanes) : x.2.exp &&& lanes = 0 := by
  obtain ⟨⟨e, p⟩, _, rfl⟩ := List.mem_map.1 (List.mem_of_mem_filter h)
  refine BitVec.eq_of_getLsbD_eq fun l _ => ?_
  cases hl : lanes.getLsbD l <;> simp [hl]

/-- The group once the lanes that end have left its fragments and expectations. -/
def Group.bereft (g : Group) (lanes : Mask) : Group := (g.shed lanes).withdraw lanes

section
variable (g : Group) (lanes : Mask)

theorem bereft_completed : Completed { g.shed lanes with pool := g.expecting lanes } (g.bereft lanes) := completed_withdraw (g.shed lanes) lanes

theorem bereft_without : (g.bereft lanes).without lanes := by
  rintro l p hl ⟨f, hf, _, holds, _⟩
  rcases (bereft_completed g lanes).found f hf with hf | ⟨x, hx, exp⟩
  · obtain ⟨k, _, rfl⟩ := List.mem_map.1 (show f ∈ (g.cur :: g.rest).map (Frag.shed lanes) from hf)
    rw [show (k.shed lanes).mask = k.mask &&& ~~~lanes from rfl, getLsbD_and_not_of hl] at holds
    cases holds
  · have none := congrArg (BitVec.getLsbD · l) (Group.exp_expecting hx)
    rw [exp] at holds
    simp [holds, hl] at none

theorem bereft_pool : ∀ x ∈ (g.bereft lanes).pool, x.2.exp &&& lanes = 0 :=
  fun x hx => Group.exp_expecting ((bereft_completed g lanes).pool x hx)

theorem bereft_loose (h : g.cur.wait = .none) : (g.bereft lanes).loose := (bereft_completed g lanes).loose (Group.loose_of_wait h)

theorem bereft_record : (g.bereft lanes).record = g.record.map (fun f => { f with mask := f.mask &&& ~~~lanes }) :=
  (congrArg Group.record (bereft_completed g lanes).aside :)

/-- A ready fragment that keeps a lane stands as it stood. -/
theorem mem_bereft {f : Frag} (hf : f ∈ g.cur :: g.rest) (ready : f.st = .ready) {l : Nat} (hl : f.mask.getLsbD l = true)
    (out : lanes.getLsbD l = false) : f.shed lanes ∈ (g.bereft lanes).cur :: (g.bereft lanes).rest ∧ (f.shed lanes).place = f.place ∧
      (f.shed lanes).st = .ready ∧ (f.shed lanes).mask.getLsbD l = true := by
  have holds : (f.mask &&& ~~~lanes).getLsbD l = true := by
    rw [BitVec.getLsbD_and, BitVec.getLsbD_not, hl, out]
    simp [BitVec.lt_of_getLsbD hl]
  have left : (f.mask &&& ~~~lanes == 0) = false := beq_eq_false_iff_ne.2 fun none => by simp [none] at holds
  have st : (f.shed lanes).st = f.st := by simp only [Frag.shed, left, Bool.false_eq_true, if_false]
  refine ⟨(bereft_completed g lanes).kept _ (List.mem_map_of_mem (f := Frag.shed lanes) hf) ?_ ?_, ?_, st.trans ready, holds⟩
  · simp [st, ready]
  · simp [st, ready]
  · simp only [Frag.place, st]
    rfl
end

/-! ### The handler ends -/

/-- The group as its trapped fragment f takes the handler lanes, before the selection is made anew (R387). -/
def Group.handlerReturned (g : Group) (f : Frag) : Group :=
  { g with record := none, rest := g.rest.filter (fun h => !h.handler),
           cur := { f with mask := g.handlerLanes, pc := g.tpc &&& ~~~3, mode := g.tmode.setWidth 16, st := .ready, wait := .none,
                           handler := false }, ibuf := [] }

theorem Group.settleTret_cases (g : Group) : g.settleTret = g ∨
    ∃ f, g.record = some f ∧ (∀ h ∈ g.frags, h.handler = true → h.wait = .tret) ∧ g.settleTret = (g.handlerReturned f).reselect := by
  by_cases ended : (g.record.isSome && !(g.frags.filter (·.handler)).isEmpty && (g.frags.filter (·.handler)).all (fun f => f.wait == .tret)) = true
  · right
    simp only [Group.settleTret, if_pos ended]
    simp only [Bool.and_eq_true, List.all_eq_true, beq_iff_eq, List.mem_filter, and_imp] at ended
    obtain ⟨⟨trapped, _⟩, all⟩ := ended
    obtain ⟨f, hf⟩ := Option.isSome_iff_exists.1 trapped
    refine ⟨f, hf, all, ?_⟩
    simp only [Group.returnFromTrap, hf]
    rfl
  · left
    simp only [Group.settleTret, if_neg ended]

/-- What ends of a handler with its lanes (R383, R387): nothing, the trap record, or the handler itself. -/
theorem Group.drop_cases (g : Group) (lanes : Mask) : g.drop lanes = { g.bereft lanes with record := none } ∨ g.drop lanes = g.bereft lanes ∨
    ∃ f, (g.bereft lanes).record = some f ∧ (∀ h ∈ (g.bereft lanes).frags, h.handler = true → h.wait = .tret) ∧
      g.drop lanes = ((g.bereft lanes).handlerReturned f).reselect := by
  have unfolded : g.drop lanes = if (g.bereft lanes).handlerLanes == 0 && ((g.bereft lanes).record.map (fun f => f.mask == 0)).getD true then
      { g.bereft lanes with record := none } else (g.bereft lanes).settleTret := rfl
  rw [unfolded]
  split
  · exact .inl rfl
  · exact .inr (g.bereft lanes).settleTret_cases

theorem Group.without_handlerReturned {g : Group} {lanes : Mask} (h : g.without lanes) (f : Frag) : (g.handlerReturned f).without lanes := by
  rintro l p hl ⟨k, hk, some, holds, rfl⟩
  rcases List.mem_cons.1 hk with rfl | hk
  · obtain ⟨j, hj, holds⟩ := getLsbD_joined.1 (show g.handlerLanes.getLsbD l = true from holds)
    obtain ⟨hj, free⟩ := List.mem_filter.1 (show j ∈ g.frags from List.mem_of_mem_filter hj)
    exact h l _ hl ⟨j, hj, by simpa using free, holds, rfl⟩
  · exact h l _ hl ⟨k, List.mem_cons_of_mem _ (List.mem_of_mem_filter hk), some, holds, rfl⟩

/-! ### Lanes end -/

/-- A group apart from its fragments, its fuse pool, its lanes that have exited, its trap record and its instruction buffer. -/
def Group.lasting (g : Group) : Group := { g.aside with exited := 0, record := none, ibuf := [] }

theorem Group.lasting_of_bare {g h : Group} (same : h.bare = g.bare) : h.lasting = g.lasting :=
  (congrArg (fun b : Group => { b with pool := [], exited := 0, record := none, ibuf := [] }) same :)

theorem Group.regs_of_lasting {g h : Group} (same : h.lasting = g.lasting) : h.regs = g.regs := (congrArg Group.regs same :)
theorem Group.preds_of_lasting {g h : Group} (same : h.lasting = g.lasting) : h.preds = g.preds := (congrArg Group.preds same :)
theorem Group.ord_of_lasting {g h : Group} (same : h.lasting = g.lasting) : h.ord = g.ord := (congrArg Group.ord same :)
theorem Group.team_of_lasting {g h : Group} (same : h.lasting = g.lasting) : h.team = g.team := (congrArg Group.team same :)

theorem Group.lasting_bereft (g : Group) (lanes : Mask) : (g.bereft lanes).lasting = g.lasting :=
  (congrArg (fun b : Group => { b with exited := 0, record := none, ibuf := [] }) (bereft_completed g lanes).aside :)

section
variable (g : Group) (lanes : Mask)

theorem drop_lasting : (g.drop lanes).lasting = g.lasting := by
  rcases g.drop_cases lanes with eq | eq | ⟨f, _, _, eq⟩
  · rw [eq, ← g.lasting_bereft lanes]
    rfl
  · rw [eq, g.lasting_bereft lanes]
  · rw [eq, Group.lasting_of_bare (Group.reselect_bare _), ← g.lasting_bereft lanes]
    rfl

theorem drop_without : (g.drop lanes).without lanes := by
  have gone := bereft_without g lanes
  rcases g.drop_cases lanes with eq | eq | ⟨f, _, _, eq⟩
  · rw [eq]
    exact gone
  · rwa [eq]
  · rw [eq]
    exact fun l p hl holds => Group.without_handlerReturned gone f l p hl ((Group.holds_reselect _ l p).1 holds)

theorem drop_pool : ∀ x ∈ (g.drop lanes).pool, x.2.exp &&& lanes = 0 := by
  have gone := bereft_pool g lanes
  rcases g.drop_cases lanes with eq | eq | ⟨f, _, _, eq⟩
  · rw [eq]
    exact gone
  · rwa [eq]
  · rw [eq, Group.pool_of_bare (Group.reselect_bare _)]
    exact gone

theorem drop_selection (h : g.cur.wait = .none) : (g.drop lanes).loose ∨ (g.drop lanes).selects := by
  have loose := bereft_loose g lanes h
  rcases g.drop_cases lanes with eq | eq | ⟨f, _, _, eq⟩
  · rw [eq]
    exact .inl loose
  · rw [eq]
    exact .inl loose
  · rw [eq]
    exact .inr (Group.selects_reselect _ rfl)

/-- The lanes of the issuing fragment that go on stand where it stands: its handler does not end while it issues (R387), and a fragment at user
level issues where no trap is recorded (R73). -/
theorem drop_holds (selectable : g.selectable g.cur = true) (wait : g.cur.wait = .none) {l : Nat} (hl : g.cur.mask.getLsbD l = true)
    (out : lanes.getLsbD l = false) : (g.drop lanes).holds l g.cur.place := by
  obtain ⟨mem, place, ready, holds⟩ := mem_bereft g lanes List.mem_cons_self (Group.st_of_selectable selectable) hl out
  have stands : (g.bereft lanes).holds l g.cur.place := ⟨_, mem, by simp [ready], holds, place⟩
  rcases g.drop_cases lanes with eq | eq | ⟨f, trapped, all, _⟩
  · rw [eq]
    exact stands
  · rwa [eq]
  · exfalso
    have listed : g.cur.shed lanes ∈ (g.bereft lanes).frags := List.mem_filter.2 ⟨mem, by simp [ready]⟩
    obtain ⟨_, _, level⟩ : _ ∧ _ ∧ (g.record = none ∨ g.cur.handler = true) := by simpa [Group.selectable, and_assoc] using selectable
    rcases level with user | handler
    · simp [bereft_record, user] at trapped
    · have waits : (g.cur.shed lanes).wait = .tret := all _ listed handler
      rw [show (g.cur.shed lanes).wait = .none from wait] at waits
      cases waits
end

end Sys2Proof.Machine
end

section
/-! SUPPORT. `exit`, and `ret` at depth 0: lanes publish what they owe and end (R70, R75, R82, R86, R169, R170). -/

namespace Sys2Proof.Machine

set_option Elab.async false

/-! ### An element's part in a fold -/

/-- In a fold of steps that keep a relation, the step of each element stands between a state before it and a state after it. -/
theorem foldl_reaches {σ β : Type} {R : σ → σ → Prop} {f : σ → β → σ} (refl : ∀ s, R s s) (trans : ∀ {s t u}, R s t → R t u → R s u)
    (step : ∀ s x, R s (f s x)) (l : List β) (s : σ) : R s (l.foldl f s) ∧ ∀ x ∈ l, ∃ s', R s s' ∧ R (f s' x) (l.foldl f s) := by
  induction l generalizing s with
  | nil => exact ⟨refl s, by simp⟩
  | cons y l ih =>
    obtain ⟨all, each⟩ := ih (f s y)
    refine ⟨trans (step s y) all, fun x hx => ?_⟩
    rcases List.mem_cons.1 hx with rfl | hx
    · exact ⟨s, refl s, all⟩
    · obtain ⟨s', before, after⟩ := each x hx
      exact ⟨s', trans (step s y) before, after⟩

/-! ### Publication -/

/-- From s to t values are published, and nothing else changes. -/
structure Publishes (s t : State) : Prop where
  rest : t = { s with carried := t.carried, agenda := t.agenda }
  carried : ∀ c ∈ s.carried, c ∈ t.carried
  agenda : ∀ e ∈ s.agenda, e ∈ t.agenda

theorem Publishes.refl (s : State) : Publishes s s := ⟨rfl, fun _ h => h, fun _ h => h⟩

theorem Publishes.trans {s t u : State} (h : Publishes s t) (h' : Publishes t u) : Publishes s u :=
  ⟨by rw [h'.rest, h.rest], fun c hc => h'.carried c (h.carried c hc), fun e he => h'.agenda e (h.agenda e he)⟩

theorem publishes_publish (s : State) (l item j : Nat) (v : Option Word) : Publishes s (s.publish l item j v) :=
  ⟨rfl, fun _ h => List.mem_append.2 (.inl h), fun _ h => List.mem_append.2 (.inl h)⟩

/-- An item's value for a slot is published in t by a launch's team of cluster cl, and its message is due. -/
def State.tells (t : State) (l item j cl : Nat) (v : Option Word) : Prop :=
  .carryMessage l item j ∈ t.agenda ∧
    ∃ c ∈ t.carried, c.launch = l ∧ c.item = item ∧ c.slot = j ∧ c.place = .sent ∧ c.cluster = cl ∧ c.value = v

theorem tells_publish (s : State) (l item j : Nat) (v : Option Word) : (s.publish l item j v).tells l item j s.team.cluster v :=
  ⟨by simp [State.publish], _, List.mem_append.2 (.inr (List.mem_singleton.2 rfl)), rfl, rfl, rfl, rfl, rfl, rfl⟩

theorem Publishes.tells {s t : State} (h : Publishes s t) {l item j cl : Nat} {v : Option Word} (told : s.tells l item j cl v) :
    t.tells l item j cl v := by
  obtain ⟨due, c, hc, what⟩ := told
  exact ⟨h.agenda _ due, c, h.carried c hc, what⟩

/-- What an ending lane still owes is told (R169, R170). -/
theorem publishLane_tells (s : State) (g : Group) (lane : Nat) (broken : Bool) : Publishes s (s.publishLane g lane broken) ∧
    ∀ j, j < 4 → (tget ({} : CarrySlot) s.launch.lcb.carry j).valid = true → (tget 0 g.pub j).getLsbD lane = false →
      (s.publishLane g lane broken).tells s.team.launch (32 * g.ord + lane) j s.team.cluster
        (if broken then none else some (g.reg (g.binding s.launch j lane) lane)) := by
  let step (s' : State) (j : Nat) : State :=
    if (tget ({} : CarrySlot) s.launch.lcb.carry j).valid && !(tget 0 g.pub j).getLsbD lane then
      s'.publish s.team.launch (32 * g.ord + lane) j (if broken then none else some (g.reg (g.binding s.launch j lane) lane))
    else s'
  have keeps (s' : State) (j : Nat) : Publishes s' (step s' j) := by
    unfold step
    split
    · exact publishes_publish ..
    · exact .refl s'
  obtain ⟨all, each⟩ := foldl_reaches Publishes.refl Publishes.trans keeps (List.range 4) s
  refine ⟨all, fun j hj valid owed => ?_⟩
  obtain ⟨s', before, after⟩ := each j (List.mem_range.2 hj)
  refine after.tells ?_
  have sameTeam : s'.team = s.team := by rw [before.rest]; rfl
  unfold step
  rw [valid, owed, ← sameTeam]
  exact tells_publish ..

/-- What every ending lane of a list still owes is told. -/
theorem publishLanes_tell (s : State) (g : Group) (lanes : List Nat) (broken : Bool) :
    Publishes s (lanes.foldl (fun s' l => s'.publishLane g l broken) s) ∧
    ∀ l ∈ lanes, ∀ j, j < 4 → (tget ({} : CarrySlot) s.launch.lcb.carry j).valid = true → (tget 0 g.pub j).getLsbD l = false →
      (lanes.foldl (fun s' l => s'.publishLane g l broken) s).tells s.team.launch (32 * g.ord + l) j s.team.cluster
        (if broken then none else some (g.reg (g.binding s.launch j l) l)) := by
  obtain ⟨all, each⟩ := foldl_reaches Publishes.refl Publishes.trans (fun s' l => (publishLane_tells s' g l broken).1) lanes s
  refine ⟨all, fun l hl j hj valid owed => ?_⟩
  obtain ⟨s', before, after⟩ := each l hl
  have sameTeam : s'.team = s.team := by rw [before.rest]; rfl
  have sameLaunch : s'.launch = s.launch := by rw [before.rest]; rfl
  have told := (publishLane_tells s' g l broken).2 j hj (by rwa [sameLaunch]) owed
  rw [sameTeam, sameLaunch] at told
  exact after.tells told

/-! ### What follows an exit -/

/-- What ending lanes brings about outside their group leaves memory, the clusters, the other groups, and its own but for traps it defers. -/
structure Ends (s t : State) : Prop where
  cur : t.cur = s.cur
  mem : t.mem = s.mem
  clusters : t.clusters = s.clusters
  others : ∀ j, j ≠ s.cur → t.group j = s.group j
  own : t.grp.calm = s.grp.calm
  agenda : ∀ e ∈ s.agenda, e ∈ t.agenda

theorem Ends.refl (s : State) : Ends s s := ⟨rfl, rfl, rfl, fun _ _ => rfl, rfl, fun _ h => h⟩

theorem Ends.trans {s t u : State} (h : Ends s t) (h' : Ends t u) : Ends s u where
  cur := h'.cur.trans h.cur
  mem := h'.mem.trans h.mem
  clusters := h'.clusters.trans h.clusters
  others j hj := (h'.others j (by rwa [h.cur])).trans (h.others j hj)
  own := h'.own.trans h.own
  agenda e he := h'.agenda e (h.agenda e he)

/-- A change that touches no group, no memory and no cluster, and takes no event off the agenda. -/
theorem Ends.of_groups {s t : State} (groups : t.groups = s.groups) (cur : t.cur = s.cur) (mem : t.mem = s.mem)
    (clusters : t.clusters = s.clusters) (agenda : ∀ e ∈ s.agenda, e ∈ t.agenda) : Ends s t :=
  ⟨cur, mem, clusters, fun j _ => group_congr groups j, by rw [State.grp, group_congr groups, cur]; rfl, agenda⟩

theorem Publishes.ends {s t : State} (h : Publishes s t) : Ends s t := by
  refine .of_groups ?_ ?_ ?_ ?_ h.agenda <;> rw [h.rest]

theorem ends_owe (s : State) (e : Event) : Ends s (s.owe e) := .of_groups rfl rfl rfl rfl fun _ h => List.mem_append.2 (.inl h)

theorem ends_advanceLow (s : State) (l : Nat) : Ends s (s.advanceLow l) := .of_groups rfl rfl rfl rfl fun _ h => h

theorem ends_dropCarried (s : State) (g : Group) : Ends s (s.dropCarried g) := .of_groups rfl rfl rfl rfl fun _ h => h

theorem ends_interrupts (s : State) (k : Nat) (ds : List Deferred) :
    Ends s (ds.foldl (fun s' d => s'.interrupt 3 k d.code d.detail) s) := by
  induction ds generalizing s with
  | nil => exact .refl s
  | cons d ds ih =>
    have one : Ends s (s.interrupt 3 k d.code d.detail) := .of_groups rfl rfl rfl rfl fun _ h => h
    exact one.trans (ih _)

theorem ends_endTeam (s : State) (k : Nat) : Ends s (s.endTeam k) := by
  simp only [State.endTeam]
  split
  · exact .of_groups rfl rfl rfl rfl fun _ h => List.mem_append.2 (.inl h)
  · exact .refl s

theorem ends_putCalm (s : State) (g : Group) (h : g.calm = s.grp.calm) : Ends s (s.setGrp g) :=
  ⟨rfl, rfl, rfl, fun _ hj => s.group_setGrp_other g hj, by rw [s.group_setGrp_same, h], fun _ h => h⟩

theorem endTeam_carried (s : State) (k : Nat) : (s.endTeam k).carried = s.carried := by
  simp only [State.endTeam]
  split <;> rfl

/-- A group that has retired drops of its launch's values only what its own items would have read (R168, R174). -/
theorem mem_dropCarried {s : State} {g : Group} {c : Carried} (hc : c ∈ s.carried)
    (other : (c.item + (tget ({} : CarrySlot) (s.launchOf (s.teamOf g.team).launch).lcb.carry c.slot).k) / 32 ≠ g.ord) :
    c ∈ (s.dropCarried g).carried := by
  refine List.mem_filter.2 ⟨hc, ?_⟩
  rw [Bool.not_eq_true', Bool.and_eq_false_iff]
  exact .inr (beq_eq_false_iff_ne.2 other)

theorem teamOf_congr {s t : State} (h : t.teams = s.teams) (j : Nat) : t.teamOf j = s.teamOf j := by rw [State.teamOf, State.teamOf, h]

theorem launchOf_congr {s t : State} (h : t.launches = s.launches) (j : Nat) : t.launchOf j = s.launchOf j := by
  rw [State.launchOf, State.launchOf, h]

/-- The traps that the issuing group still defers become interrupts (R382). -/
def State.trapsTold (s : State) : State := s.grp.deferred.foldl (fun s' d => s'.interrupt 3 (placeName s.team s.grp) d.code d.detail) s

theorem trapsTold_fields (s : State) : s.trapsTold.teams = s.teams ∧ s.trapsTold.launches = s.launches ∧ s.trapsTold.carried = s.carried := by
  have same : (s.trapsTold.teams, s.trapsTold.launches, s.trapsTold.carried) = (s.teams, s.launches, s.carried) :=
    foldl_keeps (f := fun (s' : State) (d : Deferred) => s'.interrupt 3 (placeName s.team s.grp) d.code d.detail)
      (p := fun s : State => (s.teams, s.launches, s.carried)) (fun _ _ => rfl) s.grp.deferred s
  simpa using same

/-- The group that issued, as it retires with its last lane (R75, R358, R382). -/
def State.retire (s : State) : State :=
  ((s.trapsTold.putGroup s.cur { s.grp with deferred := [] }).dropCarried s.grp).endTeam s.grp.team

theorem retire_ends (s : State) : Ends s s.retire := by
  have first : Ends s s.trapsTold := ends_interrupts ..
  have calm : Ends s.trapsTold (s.trapsTold.putGroup s.cur { s.grp with deferred := [] }) := by
    rw [← first.cur]
    exact ends_putCalm _ _ first.own.symm
  exact ((first.trans calm).trans (ends_dropCarried ..)).trans (ends_endTeam ..)

theorem mem_retire_carried {s : State} {c : Carried} (hc : c ∈ s.carried)
    (other : (c.item + (tget ({} : CarrySlot) s.launch.lcb.carry c.slot).k) / 32 ≠ s.grp.ord) : c ∈ s.retire.carried := by
  obtain ⟨teams, launches, carried⟩ := trapsTold_fields s
  rw [State.retire, endTeam_carried]
  refine mem_dropCarried (by rwa [State.putGroup_carried, carried]) ?_
  rw [launchOf_congr (s := s) (by exact launches), teamOf_congr (s := s) (by exact teams)]
  exact other

theorem afterExit_eq (s : State) : s.afterExit s.cur = if s.grp.live = 0 then s.retire else s := by
  show (if (s.grp.live == 0) = true then s.retire else s) = _
  exact if_congr beq_iff_eq rfl rfl

theorem afterExit_ends (s : State) : Ends s (s.afterExit s.cur) := by
  rw [afterExit_eq]
  split
  · exact retire_ends s
  · exact .refl s

theorem mem_afterExit_carried {s : State} {c : Carried} (hc : c ∈ s.carried)
    (stays : s.grp.live ≠ 0 ∨ (c.item + (tget ({} : CarrySlot) s.launch.lcb.carry c.slot).k) / 32 ≠ s.grp.ord) :
    c ∈ (s.afterExit s.cur).carried := by
  rw [afterExit_eq]
  split
  · next none => exact mem_retire_carried hc (stays.resolve_left (not_not.2 none))
  · exact hc

/-! ### The lanes of the issuing group end -/

/-- The state once ending lanes have published what they owe. -/
def State.owedTold (s : State) (g : Group) (lanes : Mask) (broken : Bool) : State :=
  if s.launch.ordered then (lanesOf lanes).foldl (fun s' l => s'.publishLane g l broken) s else s

theorem owedTold_publishes (s : State) (g : Group) (lanes : Mask) (broken : Bool) : Publishes s (s.owedTold g lanes broken) := by
  unfold State.owedTold
  split
  · exact (publishLanes_tell s g _ broken).1
  · exact .refl s

theorem exitLanes_eq (s : State) (g : Group) (lanes : Mask) (broken : Bool) : s.exitLanes g lanes broken =
    let s2 := ((s.owedTold g lanes broken).setGrp (s.grp.drop lanes)).afterExit s.cur
    if s.launch.ordered then (s2.advanceLow s.team.launch).owe (.boost s.team.launch) else s2 := by
  have same := (owedTold_publishes s g lanes broken).rest
  have grp : (s.owedTold g lanes broken).grp = s.grp := by rw [same]; rfl
  rw [← grp]
  rfl

theorem exitLanes_ends (s : State) (g : Group) (lanes : Mask) (broken : Bool) :
    Ends (s.setGrp (s.grp.drop lanes)) (s.exitLanes g lanes broken) := by
  have published := owedTold_publishes s g lanes broken
  have cur : (s.owedTold g lanes broken).cur = s.cur := by rw [published.rest]
  have dropped : Ends (s.setGrp (s.grp.drop lanes)) ((s.owedTold g lanes broken).setGrp (s.grp.drop lanes)) := by
    refine .of_groups ?_ cur ?_ ?_ published.agenda
    · rw [State.setGrp_groups, State.setGrp_groups, cur, show (s.owedTold g lanes broken).groups = s.groups by rw [published.rest]]
    · exact published.ends.mem
    · exact published.ends.clusters
  have retired := dropped.trans (afterExit_ends _)
  rw [show ((s.owedTold g lanes broken).setGrp (s.grp.drop lanes)).cur = s.cur from cur] at retired
  rw [exitLanes_eq]
  dsimp only
  split
  · exact (retired.trans (ends_advanceLow ..)).trans (ends_owe ..)
  · exact retired

/-- What an ending lane owes is told; its value is dropped only where its group has retired and would have read it itself. -/
theorem exitLanes_tells {s : State} {g : Group} {lanes : Mask} {broken : Bool} (ordered : s.launch.ordered = true) {l j : Nat}
    (hl : lanes.getLsbD l = true) (hj : j < 4) (valid : (tget ({} : CarrySlot) s.launch.lcb.carry j).valid = true)
    (owed : (tget 0 g.pub j).getLsbD l = false) :
    .carryMessage s.team.launch (32 * g.ord + l) j ∈ (s.exitLanes g lanes broken).agenda ∧
      ((s.grp.drop lanes).live ≠ 0 ∨ (32 * g.ord + l + (tget ({} : CarrySlot) s.launch.lcb.carry j).k) / 32 ≠ s.grp.ord →
        ∃ c ∈ (s.exitLanes g lanes broken).carried, c.launch = s.team.launch ∧ c.item = 32 * g.ord + l ∧ c.slot = j ∧ c.place = .sent ∧
          c.cluster = s.team.cluster ∧ c.value = if broken then none else some (g.reg (g.binding s.launch j l) l)) := by
  have published := owedTold_publishes s g lanes broken
  have told := (publishLanes_tell s g (lanesOf lanes) broken).2 l (mem_lanesOf.2 hl) j hj valid owed
  have eq : s.owedTold g lanes broken = (lanesOf lanes).foldl (fun s' l => s'.publishLane g l broken) s := if_pos ordered
  rw [← eq] at told
  let s1 := (s.owedTold g lanes broken).setGrp (s.grp.drop lanes)
  have cur : s1.cur = s.cur := published.ends.cur
  have grp : s1.grp = s.grp.drop lanes := State.group_setGrp_same _ _
  have lasting := drop_lasting s.grp lanes
  have ord : s1.grp.ord = s.grp.ord := by rw [grp, Group.ord_of_lasting lasting]
  have team : s1.team = s.team := by
    have same : s1.grp.team = s.grp.team := by rw [grp, Group.team_of_lasting lasting]
    rw [State.team, same, teamOf_congr (s := s) (by rw [State.setGrp_teams, published.rest])]
    rfl
  have launch : s1.launch = s.launch := by
    rw [State.launch, team, launchOf_congr (s := s) (by rw [State.setGrp_launches, published.rest])]
    rfl
  obtain ⟨due, c, hc, ofLaunch, item, slot, what⟩ := told
  have after : (s.exitLanes g lanes broken) = ((s1.afterExit s1.cur).advanceLow s.team.launch).owe (.boost s.team.launch) := by
    rw [exitLanes_eq, cur]
    exact if_pos ordered
  rw [after]
  refine ⟨List.mem_append.2 (.inl ((afterExit_ends s1).agenda _ due)), fun stays => ⟨c, ?_, ofLaunch, item, slot, what⟩⟩
  refine mem_afterExit_carried (s := s1) hc ?_
  rwa [grp, launch, item, slot, ← grp, ord, grp]

end Sys2Proof.Machine
end

section
/-! SUPPORT. The instructions that end lanes (R82, R86): what they wait for, and the state they leave. -/

namespace Sys2Proof.Machine

set_option Elab.async false

/-! ### Parts of a group -/

section
variable {g h : Group}

/-- What a group keeps when its deferred traps alone change. -/
theorem Group.fragments_of_calm (same : h.calm = g.calm) : h.cur = g.cur ∧ h.rest = g.rest ∧ h.record = g.record ∧ h.pool = g.pool :=
  ⟨(congrArg Group.cur same :), (congrArg Group.rest same :), (congrArg Group.record same :), (congrArg Group.pool same :)⟩

theorem Group.registers_of_calm (same : h.calm = g.calm) : h.regs = g.regs ∧ h.preds = g.preds :=
  ⟨(congrArg Group.regs same :), (congrArg Group.preds same :)⟩

theorem Group.lanesGone_of_calm (same : h.calm = g.calm) : h.lanesGone = g.lanesGone :=
  (congrArg (fun b : Group => (b.absent, b.exited)) same :)

theorem Group.lanesGone_of_fixed (same : h.fixed = g.fixed) : h.lanesGone = g.lanesGone :=
  (congrArg (fun b : Group => (b.absent, b.exited)) same :)

theorem Group.ord_of_fixed (same : h.fixed = g.fixed) : h.ord = g.ord := (congrArg Group.ord same :)
theorem Group.team_of_fixed (same : h.fixed = g.fixed) : h.team = g.team := (congrArg Group.team same :)
theorem Group.registers_of_bare (same : h.bare = g.bare) : h.regs = g.regs ∧ h.preds = g.preds :=
  ⟨(congrArg Group.regs same :), (congrArg Group.preds same :)⟩
end

/-! ### Retiring -/

theorem countEvents_nil (s : State) (k f : Nat) : s.countEvents k f [] = s := foldl_unchanged fun _ _ => if_pos rfl

theorem countSlot_groups (s : State) (l : Nat) : (s.countSlot l).groups = s.groups := by
  simp only [State.countSlot]
  split <;> split <;> rfl

theorem pass_others (s : State) (n : Nat) {j : Nat} (hj : j ≠ s.cur) : (s.pass n).group j = s.group j := by
  have groups (x : State) : (x.countSlot s.team.launch).group j = x.group j := group_congr (countSlot_groups x _) j
  simp only [State.pass]
  split
  · exact (groups _).trans (s.group_setGrp_other _ hj)
  · exact groups s

/-- An instruction that counts no event and parks no lane leaves the other groups. -/
theorem settle_others (s : State) (u : Use) {io : Issue} (needs : io.needs = []) (g : Group) {j : Nat} (hj : j ≠ s.cur) :
    (s.settle u io g []).group j = s.group j := by
  have eq : s.settle u io g [] = (s.setGrp (s.retiring u io g)).pass u.stall := by
    rw [State.settle, needs, countEvents_nil]
    rfl
  rw [eq]
  exact (pass_others (s.setGrp _) u.stall hj).trans (s.group_setGrp_other _ hj)

section
variable {s t : State} (frame : Frame s.cur s t) (own : t.grp.fixed = s.grp.fixed)
include frame own

/-- Retiring an instruction leaves the team, the launch and the cluster of its group. -/
theorem Frame.ownTeam : t.team.fixed = s.team.fixed := by
  rw [State.team, Group.team_of_fixed own]
  exact frame.teams _

theorem Frame.ownCluster : t.team.cluster = s.team.cluster := (congrArg Team.cluster (frame.ownTeam own) :)

theorem Frame.ownLaunch : t.team.launch = s.team.launch := (congrArg Team.launch (frame.ownTeam own) :)

theorem Frame.ownLcb : t.launch.lcb = s.launch.lcb := by
  rw [State.launch, frame.ownLaunch own]
  exact (congrArg Launch.lcb (frame.launches s.team.launch) :)
end

/-- The group whose fragment goes on at the next word. -/
def Group.movedOn (g : Group) : Group := { g with cur := { g.cur with pc := g.cur.pc + 4, wait := .none } }

/-- The state in which lanes end: their instruction has taken its slots, and their fragment stands at the next word. -/
def State.closing (s : State) (u : Use) (io : Issue) : State := s.settle u io s.grp.movedOn []

section
variable (s : State) (u : Use) (io : Issue)

theorem closing_frame : Frame s.cur s (s.closing u io) := settle_frame ..
theorem closing_fixed : (s.closing u io).grp.fixed = s.grp.fixed := settle_fixed ..
theorem closing_curFrag : (s.closing u io).grp.cur = s.grp.movedOn.cur := settle_cur ..

theorem closing_selectable (h : s.grp.selectable s.grp.cur = true) :
    (s.closing u io).grp.selectable (s.closing u io).grp.cur = true := by
  have record : (s.closing u io).grp.record = s.grp.record := settle_record ..
  simp only [Group.selectable, closing_curFrag, record, Group.movedOn, Wait.holds, Bool.not_false, Bool.and_true, Bool.and_eq_true] at h ⊢
  exact ⟨h.1.1, h.2⟩

/-- The slots that lanes publish are read where no gap is owed for their registers. -/
theorem bindingView_of_owed {m : Mask} (h : ∀ x ∈ s.owesSlots m, s.grp.owedOf (s.grp.binding s.launch x.1 x.2) = []) :
    s.bindingView m = s.grp := by
  refine foldl_unchanged fun c hc => ?_
  obtain ⟨x, hx, rfl⟩ := List.mem_map.1 hc
  simp only [State.seeOne, h x hx, List.isEmpty_nil, if_true]

/-- The state that ending lanes leave. -/
def State.departed : State := (s.closing u io).exitLanes s.grp io.t s.grp.cur.handler

theorem leave_eq {io : Issue} (w : io.w = 0) (view : s.bindingView io.t = s.grp) (whole : s.publishesBad io.t = false)
    (go : s.returning = false ∨ s.owesSlots io.t = []) : s.leave u io = (s.departed u io).setGrp (s.departed u io).grp.reselect := by
  have unheld : (s.returning && !(s.owesSlots io.t).isEmpty) = false := by
    rcases go with go | go <;> simp [go]
  simp only [State.leave, unheld, whole, Bool.and_false, Bool.false_eq_true, if_false, view, State.close, Group.proceed_next _ _ w]
  rfl

theorem departed_ends : Ends ((s.closing u io).setGrp ((s.closing u io).grp.drop io.t)) (s.departed u io) := exitLanes_ends ..

theorem departed_calm : (s.departed u io).grp.calm = ((s.closing u io).grp.drop io.t).calm := by
  rw [(departed_ends s u io).own, State.group_setGrp_same]

theorem departed_others {io : Issue} (needs : io.needs = []) {j : Nat} (hj : j ≠ s.cur) : (s.departed u io).group j = s.group j := by
  have cur : (s.closing u io).cur = s.cur := (closing_frame s u io).cur
  rw [(departed_ends s u io).others j (by rwa [State.setGrp_cur, cur]), State.group_setGrp_other _ _ (by rwa [cur])]
  exact settle_others s u needs _ hj

theorem departed_lanesGone : (s.departed u io).grp.lanesGone = (s.grp.absent, s.grp.exited ||| io.t) := by
  obtain ⟨absent, exited⟩ := Prod.ext_iff.1 (Group.lanesGone_of_fixed (closing_fixed s u io))
  rw [Group.lanesGone_of_calm (departed_calm s u io), Group.lanesGone_drop, show (s.closing u io).grp.absent = s.grp.absent from absent,
    show (s.closing u io).grp.exited = s.grp.exited from exited]

theorem departed_regs : (s.departed u io).grp.regs = s.grp.regs := by
  rw [(Group.registers_of_calm (departed_calm s u io)).1, Group.regs_of_lasting (drop_lasting _ _)]
  exact settle_regs ..

theorem departed_preds : (s.departed u io).grp.preds = s.grp.preds := by
  rw [(Group.registers_of_calm (departed_calm s u io)).2, Group.preds_of_lasting (drop_lasting _ _)]
  exact settle_preds ..

theorem departed_holds (l : Nat) (p : Place) : (s.departed u io).grp.holds l p ↔ ((s.closing u io).grp.drop io.t).holds l p := by
  obtain ⟨cur, rest, _⟩ := Group.fragments_of_calm (departed_calm s u io)
  exact Group.holds_congr cur rest l p

theorem departed_selection : (s.departed u io).grp.loose ∨ (s.departed u io).grp.selects := by
  obtain ⟨cur, rest, record, _⟩ := Group.fragments_of_calm (departed_calm s u io)
  rw [Group.selects_congr cur rest record, Group.loose, cur]
  exact drop_selection _ _ (by rw [closing_curFrag]; rfl)

theorem departed_pool : ∀ x ∈ (s.departed u io).grp.pool, x.2.exp &&& io.t = 0 := by
  obtain ⟨_, _, _, pool⟩ := Group.fragments_of_calm (departed_calm s u io)
  rw [pool]
  exact drop_pool _ _

/-- The lanes that go on stand at the next word. -/
theorem departed_goes (selectable : s.grp.selectable s.grp.cur = true) {l : Nat} (hl : s.active.getLsbD l = true) (out : io.t.getLsbD l = false) :
    (s.departed u io).grp.holds l { s.here with pc := s.grp.cur.pc + 4 } := by
  have stays := drop_holds (s.closing u io).grp io.t (closing_selectable s u io selectable) (by rw [closing_curFrag]; rfl)
    (by rw [closing_curFrag]; exact hl) out
  have place : (s.closing u io).grp.cur.place = { s.here with pc := s.grp.cur.pc + 4 } := by
    simp only [closing_curFrag, Group.movedOn, Frag.place, State.here, Group.st_of_selectable selectable]
  rw [departed_holds, ← place]
  exact stays

/-- What the lanes that end owe is told (R169, R170). -/
theorem departed_tells {l j : Nat} (ordered : s.launch.ordered = true) (hl : io.t.getLsbD l = true) (hj : j < 4)
    (valid : (tget ({} : CarrySlot) s.launch.lcb.carry j).valid = true) (owed : (tget 0 s.grp.pub j).getLsbD l = false) :
    .carryMessage s.team.launch (32 * s.grp.ord + l) j ∈ (s.departed u io).agenda ∧
      ((s.departed u io).grp.live ≠ 0 ∨ (32 * s.grp.ord + l + (tget ({} : CarrySlot) s.launch.lcb.carry j).k) / 32 ≠ s.grp.ord →
        ∃ c ∈ (s.departed u io).carried, c.launch = s.team.launch ∧ c.item = 32 * s.grp.ord + l ∧ c.slot = j ∧ c.place = .sent ∧
          c.cluster = s.team.cluster ∧
          c.value = if s.grp.cur.handler = true then none else some (s.grp.reg (s.grp.binding s.launch j l) l)) := by
  have frame := closing_frame s u io
  have own := closing_fixed s u io
  have lcb := frame.ownLcb own
  have live : (s.departed u io).grp.live = ((s.closing u io).grp.drop io.t).live :=
    Group.live_congr (Group.lanesGone_of_calm (departed_calm s u io))
  have told := exitLanes_tells (s := s.closing u io) (g := s.grp) (broken := s.grp.cur.handler) (by rwa [Launch.ordered, lcb]) hl hj
    (by rwa [lcb]) owed
  have binding : s.grp.binding (s.closing u io).launch j l = s.grp.binding s.launch j l := by rw [Group.binding, lcb]; rfl
  rw [frame.ownLaunch own, frame.ownCluster own, lcb, binding, ← live, Group.ord_of_fixed own] at told
  exact told
end

/-- A slot that ending lanes owe lies in the launch's record. -/
theorem publishesBad_of {s : State} {m : Mask} (h : ∀ x ∈ s.owesSlots m, 32 * s.grp.binding s.launch x.1 x.2 + x.2 ∉ s.grp.bad) :
    s.publishesBad m = false := List.any_eq_false.2 fun x hx => by simpa using h x hx

theorem exec_ret_ends (s : State) (st : BitVec 3) (zero : s.grp.cur.depth = 0) :
    exec (.ret st) s = s.run (s.exitUse st.toNat [58, 59]) (fun io => s.leave (s.exitUse st.toNat [58, 59]) io) := by
  simp only [exec_ret, execRet, if_pos zero]

theorem exits : Rules.Exits := by
  intro s st f owes exits
  have ends (i : Instr) (srcs : List Nat)
      (runs : exec i s = s.run (s.exitUse st.toNat srcs) (fun io => s.leave (s.exitUse st.toNat srcs) io)) : exits i srcs := by
    intro ready selectable whole
    let u := s.exitUse st.toNat srcs
    let io : Issue := { see := s.see u, t := s.lanesT, w := 0, needs := [] }
    have plain : u.Plain s srcs ((s.owesSlots s.lanesT).map (fun x => s.grp.binding s.launch x.1 x.2)) :=
      ⟨rfl, rfl, rfl, rfl, rfl, Nat.zero_ne_add_one 2, rfl, rfl, rfl, rfl⟩
    have leaves : exec i s = .next (s.leave u io) := runs.trans (run_go s u _ (plain_go ready plain))
    refine ⟨fun returning some => ?_, fun go => ?_⟩
    · have held : (s.returning && !(s.owesSlots io.t).isEmpty) = true := by simpa [returning, io] using some
      rw [leaves, State.leave, if_pos held]
    · have view : s.bindingView io.t = s.grp := bindingView_of_owed s fun x hx =>
        ready.free.owedOf (List.mem_cons_of_mem _ (List.mem_append.2 (.inr (List.mem_map.2 ⟨x, hx, rfl⟩))))
      have left := leave_eq s u rfl view (publishesBad_of whole) go
      have grp : (s.leave u io).grp = (s.departed u io).grp.reselect := by rw [left, State.group_setGrp_same]
      have bare : (s.leave u io).grp.bare = (s.departed u io).grp.bare := by rw [grp, Group.reselect_bare]
      have gone : (s.leave u io).grp.lanesGone = (s.departed u io).grp.lanesGone := Group.lanesGone_of_bare bare
      have kept := departed_ends s u io
      have frame := closing_frame s u io
      have cur : (s.departed u io).cur = s.cur := kept.cur.trans frame.cur
      have holds (l : Nat) (p : Place) : (s.leave u io).grp.holds l p ↔ (s.departed u io).grp.holds l p := by
        rw [grp]
        exact Group.holds_reselect _ l p
      refine ⟨_, leaves, ?_, ?_, ?_, ?_, ?_, fun k hk => ?_, ?_, fun l p hl h => ?_, fun l hl out => ?_, ?_, fun j l owed => ?_⟩
      · exact (Prod.ext_iff.1 (gone.trans (departed_lanesGone s u io))).2
      · rw [(Group.registers_of_bare bare).1, departed_regs]
      · rw [(Group.registers_of_bare bare).2, departed_preds]
      · rw [left, State.setGrp_mem, kept.mem]
        exact frame.mem
      · rw [left, State.setGrp_clusters, kept.clusters]
        exact frame.clusters
      · rw [left, State.group_setGrp_other _ _ (by rwa [cur]), departed_others s u rfl hk]
      · rw [grp]
        exact Group.selects_reselect_of (departed_selection s u io)
      · exact drop_without _ _ l p hl ((departed_holds s u io l p).1 ((holds l p).1 h))
      · exact (holds l _).2 (departed_goes s u io selectable hl out)
      · rw [Group.pool_of_bare bare]
        exact departed_pool s u io
      · obtain ⟨ordered, hj, hl, valid, unpublished⟩ := owed
        have told := departed_tells s u io ordered hl hj valid unpublished
        rw [Group.live_congr gone, left, State.setGrp_agenda, State.setGrp_carried]
        exact told
  exact ⟨ends (.exit st) [] (by rw [exec_exit]; rfl), fun zero => ends (.ret st) [58, 59] (exec_ret_ends s st zero)⟩

/-- Settles O26: below depth 0 a return divides the fragment and completes entries, which move no lane that does not wait at one; lanes that end
publish what they owe before they leave every fragment and expectation, and what follows an exit moves none of those that go on. -/
theorem returnsAndExits : Obligations.ReturnsAndExits := ⟨returns, exits⟩

end Sys2Proof.Machine
end

section
/-! SUPPORT. O25 fails: the words that `brt` brings into the instruction cache, where the table of clusters is not in ascending order. -/

namespace Sys2Proof.Machine

set_option Elab.async false

/-- Lanes 0 and 1 are at a `brt` with the table words at 0x1004 and 0x1008. Clusters 1 and 0, listed in this order, both hold a dirty byte of the
second word. -/
def clustersOutOfOrder : State where
  groups := [(0, { absent := 0xFFFFFFFC, cur := { mask := 3, pc := 0x1000, st := .ready, id := 1 }, regs := [(1, 1)] })]
  teams := [(0, { st := .resident, launch := 5 })]
  launches := [(5, { st := .running, lcb := { codeBase := 0x1000, codeLen := 0x100 },
                     pins := [{ ctx := 0, va := 0, pa := 0, bits := 20, ptype := 0, xp := true, w := true, rd := true }] })]
  clusters := [(1, { cache := [(0x1008, { val := 1, dirty := true, team := 1, commons := true })] }),
               (0, { cache := [(0x1008, { val := 2, dirty := true, team := 0, commons := true })] })]

/-- The first word that enters cluster 0's instruction cache moves the cluster to its place before cluster 1, so that the second word is read from
the other of the two copies. -/
theorem exec_clustersOutOfOrder :
    ∃ t, exec (.brt 0 1) clustersOutOfOrder = .next t ∧ tfind (t.clusterOf 0).icache 0x1008 = some 2 :=
  ⟨_, rfl, by decide +kernel⟩

theorem clustersOutOfOrder_ready : Ready clustersOutOfOrder [0] [] where
  free := ⟨fun _ _ _ hb => (nomatch hb), fun _ _ _ he => (nomatch he), rfl⟩
  views n hn h60 := by
    obtain rfl : n = 0 := by simpa using hn
    omega
  whole n hn _ _ := by
    obtain rfl : n = 0 := by simpa using hn
    exact ⟨fun _ hb => (nomatch hb), fun h => by omega⟩

/-- The clause on `brt` asks that each word that enters be the one that the group would have fetched before the instruction. -/
theorem not_rulesBranches : ¬ Rules.Branches := by
  intro h
  obtain ⟨_, _, brt⟩ := h clustersOutOfOrder 0 0 0 1
  obtain ⟨s', t, runs, _, transfers, same, _, _, entered⟩ := brt clustersOutOfOrder_ready
  obtain ⟨t', runs', second⟩ := exec_clustersOutOfOrder
  obtain rfl := Host.Outcome.next.inj (runs.symm.trans runs')
  have cluster : s'.cluster = t.clusterOf 0 := by
    rw [State.clusterOf, transfers.frame.clusters, same]
    rfl
  have word := entered (by decide) 0x1008
  rw [cluster, second, show clustersOutOfOrder.codeAt 0x1008 = 1 by decide +kernel] at word
  revert word
  decide

/-- Refutes O25 by its clause on what `brt` brings into the instruction cache: where the table of clusters is not in ascending order, which no
hypothesis asks for, the first word's entry puts it in order, and of two dirty copies of the second word it is then another that is read. -/
theorem not_branchesAndCalls : ¬ Obligations.BranchesAndCalls := by
  unfold Obligations.BranchesAndCalls
  rintro ⟨branches, _⟩
  exact not_rulesBranches branches

end Sys2Proof.Machine
end
